-- ==== Sys2Proof/Word.lean ====
section
/-!
DEFINITION. The word types of the 9060 and their plainest arithmetic.
-/
namespace Sys2Proof

/-- A byte of a memory or a frame. -/
abbrev Byte := BitVec 8

/-- A 32-bit register word. -/
abbrev Word := BitVec 32

/-- A 64-bit item, as of MONO or of a generation-latched image word. -/
abbrev Word64 := BitVec 64

/-- Bits hi to lo of a number. -/
def bitsOf (x hi lo : Nat) : Nat := x / 2 ^ lo % 2 ^ (hi + 1 - lo)

/-- Bit i of a number. -/
def bitOf (x i : Nat) : Bool := x / 2 ^ i % 2 == 1

/-- A truth value as 0 or 1. -/
def b2n (b : Bool) : Nat := if b then 1 else 0

/-- A count that saturates at top. -/
def satInc (top n : Nat) : Nat := if n < top then n + 1 else top

/-- The signed value of a word. -/
def sgn (w : Word) : Int := w.toInt

/-- The low 32 bits of an integer. -/
def ofInt32 (i : Int) : Word := BitVec.ofInt 32 i

end Sys2Proof
end

