-- ==== Sys2Proof/Syntax.lean ====
section
/-!
DEFINITION. The commands of the 9060: one constructor of Instr for each row of the table of operations and events, with
the operands that the row's rule gives it, and the types of those operands. dt is the time in ns of MONO that passes
before an event that the world outside the device causes; an event that the device's own clocks cause carries no dt
and takes place at the instant that its rule fixes (assumption 1).
-/
namespace Sys2Proof

/-- R133: who makes a register access. -/
inductive Requester where
  /-- Bank bank of scan core core. -/
  | core (core bank : Nat)
  /-- The service core (runtime firmware). -/
  | svc
  /-- The PCIe host port, class P1. -/
  | host
  /-- The service port, UART or JTAG, class P0. -/
  | uart
  /-- The station LAN command channel, class P2. -/
  | lan
deriving DecidableEq, Repr

/-- R93: a prefix as it stands in the instruction bytes. -/
inductive Prefix where
  /-- 0xF1 SAT. -/
  | sat
  /-- 0xF2 LOCK. -/
  | lock
  /-- 0xF4 to 0xF7 RND with the rounding mode in the low 2 bits. -/
  | rnd (mode : BitVec 2)
  /-- 0xF8 to 0xFB: input image, output image, retained or stand-shared space. -/
  | space (k : BitVec 2)
  /-- 0xFC LANE. -/
  | lane
  /-- 0xFD REP with its count byte. -/
  | rep (count : BitVec 8)
  /-- 0xFE COND with its condition byte. -/
  | cond (cc : BitVec 8)
  /-- A reserved prefix byte, 0xF0, 0xF3 or 0xFF, or in its place an opcode byte that is not in the map (R103). -/
  | reserved (byte : BitVec 8)
  /-- 0x0F with a second opcode byte that is not in the map (R103). -/
  | escaped (byte : BitVec 8)
deriving DecidableEq, Repr

/-- R94, R103: decoding ends at this prefix: it is no prefix of an instruction. -/
def Prefix.endsDecode : Prefix → Bool
  | .reserved _ => true
  | .escaped _ => true
  | _ => false

/-- R92, R11: what the fetch of an instruction finds before its opcode: the prefixes as they stand in the bytes, and how
many single-bit errors SECDED corrects in the code words fetched. -/
structure Fetch where
  prefixes : List Prefix
  corrected : Nat := 0
deriving DecidableEq, Repr

/-- R100: the operand of form M: the address byte, and the 16-bit displacement (MODE 0 to 2, in [15:0]) or the 32-bit
offset (MODE 3). -/
structure MAddr where
  mode : BitVec 2
  xsel : BitVec 2
  reg : BitVec 4
  disp : BitVec 32
deriving DecidableEq, Repr

/-- R33: what the rest of the system answers to a path resolution that leaves this device: the result code, the depth
and the UCB of the unit reached. -/
structure PathAnswer where
  err : BitVec 3
  depth : BitVec 8
  ucb : List (BitVec 32)
deriving DecidableEq, Repr


/-- R11: what SECDED finds in the memory word that an access reads. -/
inductive Ecc where
  | clean
  /-- A single-bit error, corrected. -/
  | corrected
  /-- A double-bit error. -/
  | double
deriving DecidableEq, Repr

/-- R11: an error that SECDED finds in what a scan-core instruction reads: in which repetition under REP, from 0; in the
second of two memory operands; and whether it is a double-bit error or a single-bit one, which is corrected. -/
structure ReadErr where
  rep : BitVec 8
  second : Bool
  double : Bool
deriving DecidableEq, Repr

/-- R244, R256: what the transparent clock looks at in a PTP message. -/
inductive PtpKind where
  | sync (twoStep : Bool)
  | followUp
  /-- Another event message: Pdelay_Req or Pdelay_Resp. -/
  | event
  /-- A message that is no event message. -/
  | general
deriving DecidableEq, Repr

/-- R256: a PTP message as far as its correctionField goes; key names the Sync that a Follow_Up belongs to. -/
structure PtpMsg where
  kind : PtpKind
  key : BitVec 32
  corr : BitVec 64
deriving DecidableEq, Repr

/-- R242: the redundancy tag or trailer of a frame: its sequence number and the LAN it names. -/
structure RedTag where
  seqNo : BitVec 16
  lanB : Bool
deriving DecidableEq, Repr

/-- R244: a received Ethernet frame as far as the ingress path looks at it; smac is its source address. -/
structure Frame where
  len : Nat
  fcsOk : Bool
  dmac : BitVec 48
  smac : BitVec 48
  vid : BitVec 12
  pcp : BitVec 3
  etherType : BitVec 16
  /-- R259: APPID and the CRC-32C of gocbRef or svID of a GOOSE or SV frame. -/
  app : Option (BitVec 16 × Word)
  /-- A pair message of the hot-standby controller. -/
  pairMsg : Bool
  red : Option RedTag
  ptp : Option PtpMsg
  /-- R256: the residence t_out − t_in of the frame, when it is forwarded. -/
  residence : Nat
  /-- R244: a general receive descriptor is free; so many reserved descriptors of the port have been given back by their
  consumers since its last frame. -/
  general : Bool
  returned : Nat
deriving DecidableEq, Repr

/-- R260: a member of a GOOSE dataset as it is encoded. -/
inductive Member where
  | boolean (b : Bool)
  /-- A BIT STRING, its first bit first. -/
  | bits (l : List Bool)
  /-- An INTEGER with its encoded width in bits. -/
  | integer (width : Nat) (v : Word)
  | unsigned (v : Word)
  | float (v : Word)
  | other
deriving DecidableEq, Repr

/-- R259: what a frame is matched by. -/
structure FrameId where
  dmac : BitVec 48
  vid : BitVec 12
  appid : BitVec 16
  idcrc : Word
deriving DecidableEq, Repr

/-- R260: a GOOSE frame; ttl is timeAllowedtoLive in ms. -/
structure GooseFrame where
  id : FrameId
  confRev : Word
  ndsCom : Bool
  test : Bool
  sim : Bool
  stNum : Word
  sqNum : Word
  ttl : Word
  members : List Member
deriving DecidableEq, Repr

/-- R262: one ASDU of a Sampled Values frame; good is GOODMASK. -/
structure Asdu where
  smpCnt : BitVec 16
  synch : BitVec 2
  good : BitVec 16
  values : List Word
deriving DecidableEq, Repr

/-- R262: a Sampled Values frame. -/
structure SvFrame where
  id : FrameId
  confRev : Word
  sim : Bool
  asdus : List Asdu
deriving DecidableEq, Repr

/-- R257: an IRIG-B frame: its BCD time of year decoded, the two digits of the year for the codes that carry it, and
the leap-second flags (LI61, LI59) of the control-function extension. -/
structure IrigFrame where
  parityOk : Bool
  year : Option (BitVec 7)
  day : BitVec 9
  hour : BitVec 5
  minute : BitVec 6
  sec : BitVec 6
  leap : BitVec 2
deriving DecidableEq, Repr

/-- R253: an Announce message; leap holds LI61 and LI59. -/
structure Announce where
  prio1 : BitVec 8
  clockClass : BitVec 8
  accuracy : BitVec 8
  variance : BitVec 16
  prio2 : BitVec 8
  gm : BitVec 64
  steps : BitVec 8
  utcValid : Bool
  utcOfs : BitVec 16
  leap : BitVec 2
deriving DecidableEq, Repr

/-- R274: a CAN frame: identifier (11 or 29 bits), format, DLC and data bytes. -/
structure CanFrame where
  ide : Bool
  id : BitVec 29
  fdf : Bool
  brs : Bool
  esi : Bool
  rtr : Bool
  dlc : BitVec 4
  data : List Byte
deriving DecidableEq, Repr

/-- R207: words 0 to 3 of a pair message other than a heartbeat, with the outcome of its CRC-32C: the standby protocol
version, the number and the low identity word of the sender, and the pair's identity word. -/
structure PairHead where
  maj : BitVec 8
  min : BitVec 8
  seq : BitVec 32
  pairId : BitVec 32
  uid : BitVec 32
  crcOk : Bool
deriving DecidableEq, Repr

/-- R207: the contents of a heartbeat; mono is the sender's MONO, ns and sec its station time. -/
structure Heartbeat where
  maj : BitVec 8
  min : BitVec 8
  seq : BitVec 32
  pairId : BitVec 32
  uid : BitVec 32
  roles : BitVec 4
  roleState : BitVec 4
  health : BitVec 2
  selftest : Bool
  synced : Bool
  pubdiag : Bool
  mode : BitVec 2
  xstate : BitVec 3
  runver : BitVec 32
  mono : Nat
  ns : BitVec 32
  sec : BitVec 32
deriving DecidableEq, Repr

/-- R224, R225: an item of a MIRROR: word 0 of its table entry, and its 64-bit words. -/
structure MirrorItem where
  head : BitVec 32
  words : List (BitVec 64)
deriving DecidableEq, Repr

/-- R225: a line of the run table: a task, its TC_RUN and the station time of its latest release in ns. -/
structure RunLine where
  task : BitVec 6
  run : BitVec 32
  released : Nat
deriving DecidableEq, Repr

/-- R225: a MIRROR message: the core, the run number, the items in table order, the run table and the state counters of
the GOOSE datasets (R267). -/
structure Mirror where
  core : BitVec 3
  run : BitVec 32
  items : List MirrorItem
  runs : List RunLine
  stNums : List (BitVec 32)
deriving DecidableEq, Repr

/-- R200, R201: an exchange message; left is the remaining window in seconds. -/
inductive ExchMsg where
  /-- The holder stages the descriptor at an offset. -/
  | stage (off : BitVec 18) (left : Nat)
  /-- The sender's STATE, NEWVER and BASEVER. -/
  | state (st : BitVec 3) (newVer baseVer : BitVec 32) (left : Nat)
  /-- The holder has switched or reverted; the run number S_n of each group task. -/
  | switch (revert : Bool) (runs : List (BitVec 6 × BitVec 32)) (left : Nat)
  /-- The holder has confirmed, by command or at expiry. -/
  | confirm (auto : Bool) (left : Nat)
deriving DecidableEq, Repr

/-- The messages between the members of a pair (R207). -/
inductive PairMsg where
  | heartbeat (m : Heartbeat)
  | mirror (m : Mirror)
  | pubRelinquish (stNums : List (BitVec 32))
  | pubTaken
  | pubRefuse
  | returnReq
  /-- H in MONO of the sender. -/
  | handover (h : Nat) (stNums : List (BitVec 32))
  | handoverAck
  | exch (m : ExchMsg)
  /-- The request for the holder's version. -/
  | pairload
  | parley
deriving DecidableEq, Repr


/-- R347: an IDENT frame of a stand member. -/
structure StandIdent where
  uid : BitVec 128
  topo : BitVec 2
  sidx : BitVec 1
  pos : BitVec 3
  id0 : BitVec 32
  hash : BitVec 32
deriving DecidableEq, Repr

/-- R357: a STATUS frame of a stand member: the fields of its UCB, its pair member index, and what the SPEC words of a
stand take from the leader. -/
structure StandStatus where
  uid : BitVec 128
  state : BitVec 4
  mode : BitVec 2
  health : BitVec 2
  roles : BitVec 8
  ver : BitVec 32
  index : BitVec 1
  stale : BitVec 8
  cycles : BitVec 32
  repMax : BitVec 24
deriving DecidableEq, Repr

/-- R352: a copy of a partition: bytes 8 on, taken at the boundary with this cycle count. -/
structure StandCopy where
  pos : BitVec 3
  sidx : BitVec 1
  index : BitVec 1
  cycle : BitVec 32
  bytes : List (BitVec 8)
deriving DecidableEq, Repr

/-- R349, R350: what a link time-stamp frame carries of the acting leader: its MONO less that of the sender, its station
time in ns at the instant of the frame's arrival, PTP_STAT.SRC, and E, if a source has been followed. -/
structure LinkLeader where
  ofs : Int
  station : Nat
  src : BitVec 2
  err : Option Nat
deriving DecidableEq, Repr

/-- R467: the instructions of the test access port. -/
inductive TapInstr where
  | idcode
  | bypass
  | sample
  | extest
deriving DecidableEq, Repr

/-- R467: what happens at the test access port: its reset (IEEE 1149.1), a scan of the instruction register, or a scan of
the data register, which brings levels into the boundary cells of the BO pads. -/
inductive TapScan where
  | reset
  | ir (i : TapInstr)
  | dr (bo : BitVec 64)
deriving DecidableEq, Repr

/-- R326, R416, R420: where a command comes from: a mailbox, the service UART, or a source address on port pair A/B or
C/D of the station LAN, with SEQ of the message; the JTAG port, for an access to a register or for a scan of its test
access port; damaged is a frame of any port whose CRC-32C is wrong (R421). -/
inductive Channel where
  | mailbox (m : BitVec 2)
  | uart (seq : BitVec 8)
  | lan (cd : Bool) (src : BitVec 48) (seq : BitVec 8)
  | jtag (scan : Option TapScan)
  | damaged
deriving DecidableEq, Repr

/-- R329: what another device answers to a command that is forwarded to it: ERR of the path resolution, the time that it
took in ns, STATUS and the response. -/
structure RemoteReply where
  err : BitVec 3
  ns : Nat
  status : BitVec 8
  bytes : List (BitVec 8)
deriving DecidableEq, Repr

/-- R327: the head of a command: TAG and PATH, what the device named answers when it is another one, and how many
single-bit errors SECDED corrects in service core memory while the runtime firmware serves the command (R11). -/
structure CmdHead where
  ch : Channel
  tag : BitVec 16
  path : List Nat
  remote : RemoteReply
  corrected : Nat := 0
deriving DecidableEq, Repr

/-- R445: a record that a new RUNTIME finds in an older format: its RID, and the format and the payload to which it
converts it. -/
structure Conversion where
  rid : BitVec 16
  fmt : BitVec 8
  payload : List (BitVec 8)
deriving DecidableEq, Repr

/-- R337, R373: what a LOAD takes from the executable file that it loads: its format (major in [15:8]), the version
identity of the program, and for format 4 the bytes to which the runtime firmware converts the data. -/
structure ExecFile where
  format : BitVec 16
  ver : BitVec 32
  converted : List (BitVec 8)
deriving DecidableEq, Repr

/-- R69, R70: what Transit measures with a comparison: the frequency and the amplitude of the reference. -/
structure RefMeasure where
  freq : Word
  rms : Word
deriving DecidableEq, Repr

/-- R171: the end of a check of the shadow copy: how long after its start, at most, it comes, and what SECDED finds in a
rung (R11). -/
structure RungCheck where
  dt : Nat
  ecc : Ecc
  rung : BitVec 12
deriving DecidableEq, Repr

/-- R207: a heartbeat that arrives, with a correct CRC-32C or a wrong one. -/
structure HeartbeatIn where
  crcOk : Bool
  body : Heartbeat
deriving DecidableEq, Repr

/-- R251, R257: an IRIG-B frame that arrives, and the frequency correction with which station time then follows. -/
structure IrigIn where
  frame : IrigFrame
  freq : Word
deriving DecidableEq, Repr

/-- R11, R269: the port that reads a frame to launch, and whether SECDED corrects an error in the network buffers. -/
structure LaunchRead where
  port : BitVec 2
  corrected : Bool
deriving DecidableEq, Repr

/-- R353: a copy of a partition that arrives, with a correct CRC-32C or a wrong one. -/
structure CopyIn where
  crcOk : Bool
  copy : StandCopy
deriving DecidableEq, Repr

/-- R438, R452: what the boot ROM finds: the size of the boot flash that responds, and which slots and copies of the
directory read damaged. -/
structure FlashFound where
  size : Option (BitVec 2)
  bad : BitVec 10
deriving DecidableEq, Repr

/-- The commands. Each constructor is one row of the table, named after its mnemonic; scan-core instructions carry
the core that executes them, their prefixes as they stand in the instruction bytes, and for those that read memory what
SECDED finds there. -/
inductive Instr where
  /-- CSR_WRITE, R5. -/
  | csrWrite (r : Requester) (off : BitVec 24) (v : Word)
  /-- FIRST_WORD_READ, R8. -/
  | firstWordRead (r : Requester) (off : BitVec 24)
  /-- READ_CLEAR, R5. -/
  | readClear (r : Requester) (off : BitVec 24)
  /-- HOST_PARTIAL_ACCESS, R19. -/
  | hostPartialAccess (r : Requester) (write : Bool) (off : BitVec 24)
  /-- HOST_UNMAPPED_ACCESS, R20. -/
  | hostUnmappedAccess (r : Requester) (write : Bool) (off : BitVec 24)
  /-- CODE_ECC_DOUBLE_ERROR, R11. -/
  | codeEccDoubleError (dt : Nat) (core : BitVec 3)
  /-- DEVICE_RESET, R35. -/
  | deviceReset (r : Requester) (key : BitVec 16)
  /-- NETWORK_ENGINE_RESTART, R16. -/
  | networkEngineRestart (r : Requester) (key : BitVec 16)
  /-- SCAN_CORE_RESTART, R16. -/
  | scanCoreRestart (r : Requester) (key : BitVec 16) (core : BitVec 3)
  /-- PATH_RESOLVE, R32. -/
  | pathResolve (r : Requester)
  /-- PATH_RESOLUTION_DONE, R33. -/
  | pathResolutionDone (dt : Nat) (remote : PathAnswer)
  /-- PATH_UNIT_TIMEOUT, R33. -/
  | pathUnitTimeout (dt : Nat) (remote : PathAnswer)
  /-- KEY_PATTERN_CHANGE, R62. -/
  | keyPatternChange (dt : Nat) (pattern : BitVec 3)
  /-- FIRST_SCAN, R481. -/
  | firstScan (dt : Nat)
  /-- PERIODIC_RELEASE, R38. -/
  | periodicRelease (task : BitVec 6)
  /-- ANGLE_RELEASE, R76. -/
  | angleRelease (task : BitVec 6)
  /-- EVENT_TASK_RELEASE, R41. -/
  | eventTaskRelease (task : BitVec 6)
  /-- MIN_INTERVAL_EXPIRY, R41. -/
  | minIntervalExpiry (task : BitVec 6)
  /-- HELD_RELEASE_DISPATCH, R42. -/
  | heldReleaseDispatch (task : BitVec 6)
  /-- CATCHUP_RELEASE, R76. -/
  | catchupRelease (task : BitVec 6)
  /-- DISPATCH, R44. -/
  | dispatch (core : BitVec 3) (ecc : Option Nat)
  /-- PREEMPT_DISPATCH, R54. -/
  | preemptDispatch (core : BitVec 3) (ecc : Option Nat)
  /-- BUDGET_OVERRUN, R57. -/
  | budgetOverrun (core : BitVec 3)
  /-- OUTPUT_INSTANT, R52. -/
  | outputInstant (task : BitVec 6)
  /-- GENERATION_CLOSE, R47. -/
  | generationClose
  /-- TASK_ACK_ALL, R64. -/
  | taskAckAll (r : Requester)
  /-- TASK_MAX_CLEAR, R64. -/
  | taskMaxClear (r : Requester) (task : BitVec 6)
  /-- MERIDIAN, R68. -/
  | meridian
  /-- ANG_SRC_WRITE, R71. -/
  | angSrcWrite (r : Requester) (v : Word)
  /-- ANG_COMP_WRITE, R74. -/
  | angCompWrite (r : Requester) (v : Word)
  /-- REFERENCE_LOSS, R70. -/
  | referenceLoss (dt : Nat) (outOfRange : Bool)
  /-- REFERENCE_QUALIFIED, R71. -/
  | referenceQualified (dt : Nat) (phase : Word) (x : RefMeasure)
  /-- HOLDOVER_EXPIRY, R71. -/
  | holdoverExpiry
  /-- ANGLE_JUMP, R74. -/
  | angleJump (raw : List (BitVec 24))
  /-- STEP_FLAG_CLEAR, R74. -/
  | stepFlagClear
  /-- ANGLE_SAMPLE_SET, R80. -/
  | angleSampleSet (raw : List (BitVec 24))
  /-- TIME_SAMPLE_SET, R83. -/
  | timeSampleSet (raw : List (BitVec 24))
  /-- NOP, R129. -/
  | opNop (core : Nat) (pre : Fetch)
  /-- HALT, R129. -/
  | opHalt (core : Nat) (pre : Fetch)
  /-- YIELD, R129. -/
  | opYield (core : Nat) (pre : Fetch)
  /-- CHKIN, R130. -/
  | opChkin (core : Nat) (pre : Fetch)
  /-- EVT, R131. -/
  | opEvt (core : Nat) (pre : Fetch) (imm : BitVec 8)
  /-- LD, R112. -/
  | opLd (core : Nat) (pre : Fetch) (a : BitVec 24) (ecc : Option ReadErr)
  /-- LDN, R112. -/
  | opLdn (core : Nat) (pre : Fetch) (a : BitVec 24) (ecc : Option ReadErr)
  /-- AND, R112. -/
  | opAnd (core : Nat) (pre : Fetch) (a : BitVec 24) (ecc : Option ReadErr)
  /-- ANDN, R112. -/
  | opAndn (core : Nat) (pre : Fetch) (a : BitVec 24) (ecc : Option ReadErr)
  /-- OR, R112. -/
  | opOr (core : Nat) (pre : Fetch) (a : BitVec 24) (ecc : Option ReadErr)
  /-- ORN, R112. -/
  | opOrn (core : Nat) (pre : Fetch) (a : BitVec 24) (ecc : Option ReadErr)
  /-- XOR, R112. -/
  | opXor (core : Nat) (pre : Fetch) (a : BitVec 24) (ecc : Option ReadErr)
  /-- OUT, R112. -/
  | opOut (core : Nat) (pre : Fetch) (a : BitVec 24) (ecc : Option ReadErr)
  /-- SET, R112. -/
  | opSet (core : Nat) (pre : Fetch) (a : BitVec 24) (ecc : Option ReadErr)
  /-- RST, R112. -/
  | opRst (core : Nat) (pre : Fetch) (a : BitVec 24) (ecc : Option ReadErr)
  /-- ANDB, R112. -/
  | opAndb (core : Nat) (pre : Fetch)
  /-- ORB, R112. -/
  | opOrb (core : Nat) (pre : Fetch)
  /-- XORB, R112. -/
  | opXorb (core : Nat) (pre : Fetch)
  /-- NOT, R112. -/
  | opNot (core : Nat) (pre : Fetch)
  /-- DUP, R112. -/
  | opDup (core : Nat) (pre : Fetch)
  /-- POP, R112. -/
  | opPop (core : Nat) (pre : Fetch)
  /-- REDGE, R118. -/
  | opRedge (core : Nat) (pre : Fetch) (t : BitVec 16) (ecc : Option ReadErr)
  /-- FEDGE, R118. -/
  | opFedge (core : Nat) (pre : Fetch) (t : BitVec 16) (ecc : Option ReadErr)
  /-- TON, R119. -/
  | opTon (core : Nat) (pre : Fetch) (t : BitVec 16) (ecc : Option ReadErr)
  /-- TOF, R119. -/
  | opTof (core : Nat) (pre : Fetch) (t : BitVec 16) (ecc : Option ReadErr)
  /-- TP, R119. -/
  | opTp (core : Nat) (pre : Fetch) (t : BitVec 16) (ecc : Option ReadErr)
  /-- CTU, R120. -/
  | opCtu (core : Nat) (pre : Fetch) (t : BitVec 16) (ecc : Option ReadErr)
  /-- CTD, R120. -/
  | opCtd (core : Nat) (pre : Fetch) (t : BitVec 16) (ecc : Option ReadErr)
  /-- CRST, R120. -/
  | opCrst (core : Nat) (pre : Fetch) (t : BitVec 16) (ecc : Option ReadErr)
  /-- MOV, R121. -/
  | opMov (core : Nat) (pre : Fetch) (f1 : BitVec 4) (f2 : BitVec 4)
  /-- MOVI, R121. -/
  | opMovi (core : Nat) (pre : Fetch) (f1 : BitVec 4) (f2 : BitVec 4) (imm : BitVec 32)
  /-- MOVX, R121. -/
  | opMovx (core : Nat) (pre : Fetch) (f1 : BitVec 4) (f2 : BitVec 4)
  /-- MOVW, R121. -/
  | opMovw (core : Nat) (pre : Fetch) (f1 : BitVec 4) (f2 : BitVec 4)
  /-- LDW, R122. -/
  | opLdw (core : Nat) (pre : Fetch) (m : MAddr) (ecc : Option ReadErr)
  /-- LDH, R122. -/
  | opLdh (core : Nat) (pre : Fetch) (m : MAddr) (ecc : Option ReadErr)
  /-- LDHS, R122. -/
  | opLdhs (core : Nat) (pre : Fetch) (m : MAddr) (ecc : Option ReadErr)
  /-- LDB, R122. -/
  | opLdb (core : Nat) (pre : Fetch) (m : MAddr) (ecc : Option ReadErr)
  /-- LDX, R122. -/
  | opLdx (core : Nat) (pre : Fetch) (m : MAddr) (ecc : Option ReadErr)
  /-- STW, R122. -/
  | opStw (core : Nat) (pre : Fetch) (m : MAddr)
  /-- STH, R123. -/
  | opSth (core : Nat) (pre : Fetch) (m : MAddr)
  /-- STB, R123. -/
  | opStb (core : Nat) (pre : Fetch) (m : MAddr)
  /-- LEA, R124. -/
  | opLea (core : Nat) (pre : Fetch) (m : MAddr)
  /-- ADD, R140. -/
  | opAdd (core : Nat) (pre : Fetch) (f1 : BitVec 4) (f2 : BitVec 4)
  /-- ADC, R140. -/
  | opAdc (core : Nat) (pre : Fetch) (f1 : BitVec 4) (f2 : BitVec 4)
  /-- SUB, R140. -/
  | opSub (core : Nat) (pre : Fetch) (f1 : BitVec 4) (f2 : BitVec 4)
  /-- SBC, R140. -/
  | opSbc (core : Nat) (pre : Fetch) (f1 : BitVec 4) (f2 : BitVec 4)
  /-- NEG, R140. -/
  | opNeg (core : Nat) (pre : Fetch) (f1 : BitVec 4) (f2 : BitVec 4)
  /-- ABS, R140. -/
  | opAbs (core : Nat) (pre : Fetch) (f1 : BitVec 4) (f2 : BitVec 4)
  /-- MUL, R141. -/
  | opMul (core : Nat) (pre : Fetch) (f1 : BitVec 4) (f2 : BitVec 4)
  /-- MULHS, R141. -/
  | opMulhs (core : Nat) (pre : Fetch) (f1 : BitVec 4) (f2 : BitVec 4)
  /-- MIN, R140. -/
  | opMin (core : Nat) (pre : Fetch) (f1 : BitVec 4) (f2 : BitVec 4)
  /-- MAX, R140. -/
  | opMax (core : Nat) (pre : Fetch) (f1 : BitVec 4) (f2 : BitVec 4)
  /-- ADDI, R140. -/
  | opAddi (core : Nat) (pre : Fetch) (f1 : BitVec 4) (f2 : BitVec 4) (imm : BitVec 32)
  /-- ANDW, R142. -/
  | opAndw (core : Nat) (pre : Fetch) (f1 : BitVec 4) (f2 : BitVec 4)
  /-- ORW, R142. -/
  | opOrw (core : Nat) (pre : Fetch) (f1 : BitVec 4) (f2 : BitVec 4)
  /-- XORW, R142. -/
  | opXorw (core : Nat) (pre : Fetch) (f1 : BitVec 4) (f2 : BitVec 4)
  /-- NOTW, R142. -/
  | opNotw (core : Nat) (pre : Fetch) (f1 : BitVec 4) (f2 : BitVec 4)
  /-- SHL, R143. -/
  | opShl (core : Nat) (pre : Fetch) (f1 : BitVec 4) (f2 : BitVec 4) (imm : BitVec 8)
  /-- SAR, R143. -/
  | opSar (core : Nat) (pre : Fetch) (f1 : BitVec 4) (f2 : BitVec 4) (imm : BitVec 8)
  /-- SHR, R143. -/
  | opShr (core : Nat) (pre : Fetch) (f1 : BitVec 4) (f2 : BitVec 4) (imm : BitVec 8)
  /-- ROR, R143. -/
  | opRor (core : Nat) (pre : Fetch) (f1 : BitVec 4) (f2 : BitVec 4) (imm : BitVec 8)
  /-- CLZ, R142. -/
  | opClz (core : Nat) (pre : Fetch) (f1 : BitVec 4) (f2 : BitVec 4)
  /-- CMP, R126. -/
  | opCmp (core : Nat) (pre : Fetch) (f1 : BitVec 4) (f2 : BitVec 4)
  /-- CMPEQ, R126. -/
  | opCmpeq (core : Nat) (pre : Fetch) (f1 : BitVec 4) (f2 : BitVec 4)
  /-- CMPNE, R126. -/
  | opCmpne (core : Nat) (pre : Fetch) (f1 : BitVec 4) (f2 : BitVec 4)
  /-- CMPLT, R126. -/
  | opCmplt (core : Nat) (pre : Fetch) (f1 : BitVec 4) (f2 : BitVec 4)
  /-- CMPLE, R126. -/
  | opCmple (core : Nat) (pre : Fetch) (f1 : BitVec 4) (f2 : BitVec 4)
  /-- CMPGT, R126. -/
  | opCmpgt (core : Nat) (pre : Fetch) (f1 : BitVec 4) (f2 : BitVec 4)
  /-- CMPGE, R126. -/
  | opCmpge (core : Nat) (pre : Fetch) (f1 : BitVec 4) (f2 : BitVec 4)
  /-- CMPLTU, R126. -/
  | opCmpltu (core : Nat) (pre : Fetch) (f1 : BitVec 4) (f2 : BitVec 4)
  /-- CMPGEU, R126. -/
  | opCmpgeu (core : Nat) (pre : Fetch) (f1 : BitVec 4) (f2 : BitVec 4)
  /-- JMP, R127. -/
  | opJmp (core : Nat) (pre : Fetch) (disp : BitVec 16)
  /-- BCC, R127. -/
  | opBcc (core : Nat) (pre : Fetch) (cc : BitVec 8) (disp : BitVec 16)
  /-- JBT, R127. -/
  | opJbt (core : Nat) (pre : Fetch) (disp : BitVec 16)
  /-- JBF, R127. -/
  | opJbf (core : Nat) (pre : Fetch) (disp : BitVec 16)
  /-- CALL, R127. -/
  | opCall (core : Nat) (pre : Fetch) (disp : BitVec 16)
  /-- RET, R127. -/
  | opRet (core : Nat) (pre : Fetch)
  /-- LOOP, R127. -/
  | opLoop (core : Nat) (pre : Fetch) (x : BitVec 8) (disp : BitVec 16)
  /-- JMPA, R127. -/
  | opJmpa (core : Nat) (pre : Fetch) (addr : BitVec 24)
  /-- CALLA, R127. -/
  | opCalla (core : Nat) (pre : Fetch) (addr : BitVec 24)
  /-- MPY, R147. -/
  | opMpy (core : Nat) (pre : Fetch) (b0 : BitVec 8) (f1 : BitVec 4) (f2 : BitVec 4)
  /-- MAC, R147. -/
  | opMac (core : Nat) (pre : Fetch) (b0 : BitVec 8) (f1 : BitVec 4) (f2 : BitVec 4)
  /-- MSU, R147. -/
  | opMsu (core : Nat) (pre : Fetch) (b0 : BitVec 8) (f1 : BitVec 4) (f2 : BitVec 4)
  /-- MACM, R148. -/
  | opMacm (core : Nat) (pre : Fetch) (b0 : BitVec 8) (f1 : BitVec 4) (f2 : BitVec 4) (ecc : Option ReadErr)
  /-- MSUM, R148. -/
  | opMsum (core : Nat) (pre : Fetch) (b0 : BitVec 8) (f1 : BitVec 4) (f2 : BitVec 4) (ecc : Option ReadErr)
  /-- CLRA, R149. -/
  | opClra (core : Nat) (pre : Fetch) (b0 : BitVec 8) (f1 : BitVec 4) (f2 : BitVec 4)
  /-- LDA, R150. -/
  | opLda (core : Nat) (pre : Fetch) (m : MAddr) (ecc : Option ReadErr)
  /-- STA, R150. -/
  | opSta (core : Nat) (pre : Fetch) (m : MAddr)
  /-- MOVA, R149. -/
  | opMova (core : Nat) (pre : Fetch) (b0 : BitVec 8) (f1 : BitVec 4) (f2 : BitVec 4)
  /-- ADDA, R149. -/
  | opAdda (core : Nat) (pre : Fetch) (b0 : BitVec 8) (f1 : BitVec 4) (f2 : BitVec 4)
  /-- SUBA, R149. -/
  | opSuba (core : Nat) (pre : Fetch) (b0 : BitVec 8) (f1 : BitVec 4) (f2 : BitVec 4)
  /-- SHA, R149. -/
  | opSha (core : Nat) (pre : Fetch) (b0 : BitVec 8) (f1 : BitVec 4) (f2 : BitVec 4)
  /-- ROT, R152. -/
  | opRot (core : Nat) (pre : Fetch) (b0 : BitVec 8) (f1 : BitVec 4) (f2 : BitVec 4)
  /-- MAG, R153. -/
  | opMag (core : Nat) (pre : Fetch) (b0 : BitVec 8) (f1 : BitVec 4) (f2 : BitVec 4)
  /-- DFT, R154. -/
  | opDft (core : Nat) (pre : Fetch) (b0 : BitVec 8) (f1 : BitVec 4) (f2 : BitVec 4) (ecc : Option ReadErr)
  /-- CSRR, R132. -/
  | opCsrr (core : Nat) (pre : Fetch) (r : BitVec 8) (off : BitVec 24)
  /-- CSRW, R132. -/
  | opCsrw (core : Nat) (pre : Fetch) (r : BitVec 8) (off : BitVec 24)
  /-- QPUT, R135. -/
  | opQput (core : Nat) (pre : Fetch) (q : BitVec 8) (r : BitVec 8)
  /-- QCOUNT, R136. -/
  | opQcount (core : Nat) (pre : Fetch) (q : BitVec 8) (r : BitVec 8)
  /-- DIVS, R144. -/
  | opDivs (core : Nat) (pre : Fetch) (f1 : BitVec 4) (f2 : BitVec 4)
  /-- DIVU, R144. -/
  | opDivu (core : Nat) (pre : Fetch) (f1 : BitVec 4) (f2 : BitVec 4)
  /-- FLRD, R129. -/
  | opFlrd (core : Nat) (pre : Fetch) (f1 : BitVec 4) (f2 : BitVec 4)
  /-- FLWR, R129. -/
  | opFlwr (core : Nat) (pre : Fetch) (f1 : BitVec 4) (f2 : BitVec 4)
  /-- XCHGM, R125. -/
  | opXchgm (core : Nat) (pre : Fetch) (m : MAddr) (ecc : Option ReadErr)
  /-- ADDM, R125. -/
  | opAddm (core : Nat) (pre : Fetch) (m : MAddr) (ecc : Option ReadErr)
  /-- SWEEP, R163. -/
  | sweep (ecc : Ecc) (rung : BitVec 12)
  /-- FRP_TABLE_WRITE, R158. -/
  | frpTableWrite (r : Requester) (rung : BitVec 12) (word : BitVec 2) (v : Word)
  /-- FRP_ACTIVATE, R171. -/
  | frpActivate (r : Requester)
  /-- FRP_CHECK_DONE, R171. -/
  | frpCheckDone (x : RungCheck)
  /-- FRP_SWAP, R172. -/
  | frpSwap
  /-- FRP_SNAPSHOT, R176. -/
  | frpSnapshot (r : Requester)
  /-- FRP_SNAPSHOT_DONE, R176. -/
  | frpSnapshotDone
  /-- XCH_STAGE, R187. -/
  | xchStage (r : Requester) (key : BitVec 16)
  /-- XCH_STAGE_DONE, R188. -/
  | xchStageDone
  /-- XCH_ARM, R187. -/
  | xchArm (r : Requester) (key : BitVec 16)
  /-- XCH_CANCEL, R187. -/
  | xchCancel (r : Requester) (key : BitVec 16)
  /-- XCH_CONFIRM, R196. -/
  | xchConfirm (r : Requester) (key : BitVec 16)
  /-- XCH_REVERT, R197. -/
  | xchRevert (r : Requester) (key : BitVec 16)
  /-- XCH_BOUNDARY, R190. -/
  | xchBoundary
  /-- XCH_BOUNDARY_TIMEOUT, R189. -/
  | xchBoundaryTimeout
  /-- XCH_WINDOW_WARN, R195. -/
  | xchWindowWarn
  /-- XCH_WINDOW_EXPIRY, R195. -/
  | xchWindowExpiry
  /-- EXCH_MESSAGE, R201. -/
  | exchMessage (dt : Nat) (head : PairHead) (m : ExchMsg)
  /-- HEARTBEAT_SEND, R207. -/
  | heartbeatSend
  /-- HEARTBEAT, R208. -/
  | heartbeat (dt : Nat) (pathB : Bool) (x : HeartbeatIn)
  /-- PATH_LOSS, R208. -/
  | pathLoss (pathB : Bool)
  /-- LINK_TIMESTAMP_FRAME, R349. -/
  | linkTimestampFrame (dt : Nat) (port : BitVec 1) (ofs : Int) (lead : Option LinkLeader)
  /-- REFRESH_SLOT, R213. -/
  | refreshSlot
  /-- LEASE_EXPIRY, R212. -/
  | leaseExpiry
  /-- REFRESH_DECODED, R211. -/
  | refreshDecoded (dt : Nat) (transfer : Bool)
  /-- PRESENCE_PULSE, R211. -/
  | presencePulse
  /-- PRESENCE_DECODED, R211. -/
  | presenceDecoded (dt : Nat) (own : Bool)
  /-- LINE_FAULT, R211. -/
  | lineFault (dt : Nat) (code : BitVec 2)
  /-- LEASE_CLAIM, R214. -/
  | leaseClaim
  /-- CLAIM_READBACK, R216. -/
  | claimReadback (ok : Bool)
  /-- JOINING_END, R217. -/
  | joiningEnd
  /-- PUB_DIAG_FAIL, R218. -/
  | pubDiagFail (dt : Nat)
  /-- PUB_RELINQUISH, R220. -/
  | pubRelinquish (dt : Nat) (head : PairHead) (stNums : List (BitVec 32))
  /-- PUB_TAKEN, R220. -/
  | pubTaken (dt : Nat) (head : PairHead)
  /-- PUB_REFUSE, R220. -/
  | pubRefuse (dt : Nat) (head : PairHead)
  /-- ROLE_PATTERN_DECODED, R219. -/
  | rolePatternDecoded (dt : Nat) (pattern : BitVec 3)
  /-- RELINQUISH_WAVE_END, R219. -/
  | relinquishWaveEnd
  /-- PUB_ORPHAN_TAKE, R221. -/
  | pubOrphanTake
  /-- MIRROR_RECEIVED, R226. -/
  | mirrorReceived (dt : Nat) (head : PairHead) (ok : Bool) (m : Mirror)
  /-- MIRROR_WAIT_TIMEOUT, R225. -/
  | mirrorWaitTimeout (core : BitVec 3)
  /-- HANDOVER_CMD, R229. -/
  | handoverCmd (cmd : Option (Requester × BitVec 16))
  /-- RETURN_REQ, R229. -/
  | returnReq (dt : Nat) (head : PairHead)
  /-- HANDOVER, R229. -/
  | handover (dt : Nat) (head : PairHead) (h : Nat) (stNums : List (BitVec 32))
  /-- HANDOVER_ACK, R229. -/
  | handoverAck (dt : Nat) (head : PairHead)
  /-- HANDOVER_ACK_TIMEOUT, R229. -/
  | handoverAckTimeout
  /-- HANDOVER_INSTANT, R229. -/
  | handoverInstant
  /-- HANDOVER_TAKE, R229. -/
  | handoverTake
  /-- HANDOVER_FAIL_CHECK, R230. -/
  | handoverFailCheck (ok : Bool)
  /-- HOLDOFF_EXPIRY, R231. -/
  | holdoffExpiry
  /-- HSB_RELINQUISH_PUB, R220. -/
  | hsbRelinquishPub (r : Requester) (key : BitVec 16)
  /-- HSB_SET_RETINH, R231. -/
  | hsbSetRetinh (r : Requester) (key : BitVec 16)
  /-- HSB_CLEAR_RETINH, R231. -/
  | hsbClearRetinh (r : Requester) (key : BitVec 16)
  /-- PAIRLOAD, R234. -/
  | pairload (dt : Nat) (head : PairHead) (ver : BitVec 32) (core : BitVec 3) (space : BitVec 2) (off : BitVec 32) (bytes : List (BitVec 8)) (last : Bool)
  /-- PARLEY, R235. -/
  | parley (dt : Nat) (head : PairHead)
  /-- FRAME_RECEIVE, R244. -/
  | frameReceive (dt : Nat) (p : BitVec 2) (f : Frame)
  /-- PTP_SYNC, R249. -/
  | ptpSync (dt : Nat) (domain : BitVec 8) (p : BitVec 2) (sec : BitVec 48) (ns : BitVec 30) (corr : BitVec 64) (servo : Word) (freq : Word)
  /-- PTP_ANNOUNCE, R253. -/
  | ptpAnnounce (dt : Nat) (domain : BitVec 8) (p : BitVec 2) (a : Announce)
  /-- PDELAY_REQ, R256. -/
  | pdelayReq (dt : Nat) (p : BitVec 2) (rtt : Nat) (turn : Nat)
  /-- SYNC_TIMEOUT, R249. -/
  | syncTimeout (dom : BitVec 1) (announce : Bool)
  /-- SOURCE_SELECT, R250. -/
  | sourceSelect
  /-- TIME_QUALITY_CHANGE, R248. -/
  | timeQualityChange
  /-- EPOCH_CARRY, R247. -/
  | epochCarry
  /-- PTP_SET_TIME, R252. -/
  | ptpSetTime (r : Requester) (v : Word)
  /-- IRIG_FRAME, R257. -/
  | irigFrame (dt : Nat) (x : IrigIn)
  /-- PPS_IN_EDGE, R258. -/
  | ppsInEdge (dt : Nat)
  /-- PPS_OUT_PULSE, R258. -/
  | ppsOutPulse
  /-- MDIO_FRAME, R241. -/
  | mdioFrame (r : Requester) (v : Word)
  /-- MDIO_DONE, R241. -/
  | mdioDone (dt : Nat) (resp : Option (BitVec 16))
  /-- PHY_POLL, R241. -/
  | phyPoll (p : BitVec 2) (up : Bool)
  /-- PHY_INT, R241. -/
  | phyInt (dt : Nat) (low : Bool)
  /-- PHY_RESET_CONTROL, R241. -/
  | phyResetControl (r : Requester) (v : Word)
  /-- LINK_CHANGE, R270. -/
  | linkChange (dt : Nat) (p : BitVec 2) (up : Bool)
  /-- SUB_ACCESS, R259. -/
  | subAccess (r : Requester) (v : Word)
  /-- PUB_ACCESS, R264. -/
  | pubAccess (r : Requester) (v : Word)
  /-- GOOSE_RECEIVED, R260. -/
  | gooseReceived (dt : Nat) (cd : Bool) (f : GooseFrame)
  /-- SV_RECEIVED, R262. -/
  | svReceived (dt : Nat) (cd : Bool) (f : SvFrame)
  /-- GOOSE_STALE, R260. -/
  | gooseStale (idx : BitVec 10)
  /-- SV_STALE, R262. -/
  | svStale (idx : BitVec 10)
  /-- GOOSE_RETRANSMIT, R265. -/
  | gooseRetransmit (e : BitVec 6)
  /-- SV_PUBLISH, R266. -/
  | svPublish (e : BitVec 3)
  /-- LAUNCH, R269. -/
  | launch (x : LaunchRead)
  /-- CAN_FRAME_RECEIVE, R278. -/
  | canFrameReceive (dt : Nat) (n : BitVec 2) (sof : Nat) (f : CanFrame)
  /-- CAN_TX_REQUEST, R276. -/
  | canTxRequest (r : Requester) (n : BitVec 2) (b : BitVec 2) (v : Word)
  /-- CAN_TX_ABORT, R276. -/
  | canTxAbort (r : Requester) (n : BitVec 2) (b : BitVec 2) (v : Word)
  /-- CAN_TX_DONE, R276. -/
  | canTxDone (dt : Nat) (n : BitVec 2) (sof : Nat)
  /-- CAN_RXF_POP, R278. -/
  | canRxfPop (r : Requester) (n : BitVec 2)
  /-- CAN_ERROR_STATE_CHANGE, R279. -/
  | canErrorStateChange (dt : Nat) (n : BitVec 2) (txErr : BitVec 9) (rxErr : BitVec 8) (code : BitVec 3) (dataPhase : Bool)
  /-- CAN_BUSOFF_RECOVERY, R279. -/
  | canBusoffRecovery (dt : Nat) (n : BitVec 2)
  /-- CAN_MODE_WRITE, R280. -/
  | canModeWrite (r : Requester) (n : BitVec 2) (v : Word)
  /-- CAN_MODE_EFFECT, R280. -/
  | canModeEffect (dt : Nat) (n : BitVec 2)
  /-- CAN_WAKE, R281. -/
  | canWake (dt : Nat) (n : BitVec 2) (sof : Nat) (f : Option CanFrame)
  /-- CAN_REF_SEND, R283. -/
  | canRefSend (n : BitVec 2)
  /-- CAN_REF_RECEIVED, R283. -/
  | canRefReceived (dt : Nat) (n : BitVec 2) (sof : Nat) (cycle : BitVec 16) (sec : BitVec 8) (ns : Word)
  /-- CAN_REF_TIMEOUT, R283. -/
  | canRefTimeout (n : BitVec 2)
  /-- FRELUPO_SYNC, R286. -/
  | frelupoSync (n : BitVec 2)
  /-- FRELUPO_INPUT, R286. -/
  | frelupoInput (dt : Nat) (n : BitVec 2) (idx : BitVec 4) (ago : Nat) (seq : BitVec 8) (words : List Word64)
  /-- FRELUPO_HELLO, R287. -/
  | frelupoHello (dt : Nat) (n : BitVec 2) (idx : BitVec 4) (range : Word) (safe : Bool) (nin : BitVec 8) (nout : BitVec 8)
  /-- FRELUPO_STATUS, R289. -/
  | frelupoStatus (dt : Nat) (n : BitVec 2) (idx : BitVec 4) (safe : Bool) (muted : Bool) (rsyncOk : Bool)
  /-- FRELUPO_COMMAND, R290. -/
  | frelupoCommand (r : Requester) (n : BitVec 2) (v : Word)
  /-- BI_EDGE, R295. -/
  | biEdge (dt : Nat) (n : BitVec 7) (level : Bool)
  /-- BI_DEBOUNCE_END, R295. -/
  | biDebounceEnd (n : BitVec 7)
  /-- BI_INV_WRITE, R294. -/
  | biInvWrite (r : Requester) (n : BitVec 7) (v : Word)
  /-- READBACK_MISMATCH, R301. -/
  | readbackMismatch (dt : Nat) (n : BitVec 5) (level : Bool)
  /-- READBACK_MISMATCH_END, R301. -/
  | readbackMismatchEnd (dt : Nat) (n : BitVec 5) (level : Bool)
  /-- RBEN_WRITE, R301. -/
  | rbenWrite (r : Requester) (v : Word)
  /-- THRESHOLD_BIT_CHANGE, R308. -/
  | thresholdBitChange (dt : Nat) (main : Bool) (c : BitVec 5) (raw : List (BitVec 24))
  /-- THRESHOLD_WRITE, R309. -/
  | thresholdWrite (r : Requester) (t : BitVec 8) (v : Word)
  /-- THRESHOLD_APPLY, R309. -/
  | thresholdApply (t : BitVec 8)
  /-- ADC_FAULT_CHANGE, R305. -/
  | adcFaultChange (dt : Nat) (c : BitVec 5) (overload : Bool) (stuck : Bool) (refOk : Bool)
  /-- ADC_OVERRANGE, R305. -/
  | adcOverrange (dt : Nat) (c : BitVec 5)
  /-- ADC_SELFTEST_EVAL, R305. -/
  | adcSelftestEval (dt : Nat) (refOk : Bool)
  /-- QUEUE_CONFIG, R319. -/
  | queueConfig (r : Requester) (q : BitVec 5) (v : BitVec 32)
  /-- QUEUE_OFFER, R321. -/
  | queueOffer (r : Requester) (q : BitVec 5) (v : BitVec 32)
  /-- QUEUE_POP, R322. -/
  | queuePop (r : Requester) (q : BitVec 5)
  /-- MAILBOX_RING, R328. -/
  | mailboxRing (r : Requester) (mask : BitVec 4)
  /-- HELLO, R329. -/
  | hello (h : CmdHead) (range : BitVec 32)
  /-- IDENT, R329. -/
  | ident (h : CmdHead)
  /-- UNITREAD, R329. -/
  | unitread (h : CmdHead)
  /-- LOAD, R329. -/
  | hostLoad (h : CmdHead) (core : BitVec 3) (data : Bool) (off : BitVec 32) (bytes : List (BitVec 8)) (file : ExecFile)
  /-- DESC, R329. -/
  | desc (h : CmdHead) (bytes : List (BitVec 8))
  /-- HOST_LAUNCH, R329. -/
  | hostLaunch (h : CmdHead) (port : BitVec 2) (queue : BitVec 3) (ns : BitVec 30) (sec : BitVec 32) (len : BitVec 11) (tsreq : Bool) (frame : List (BitVec 8))
  /-- JOURNAL, R374. -/
  | journal (h : CmdHead) (first : BitVec 32) (count : BitVec 32)
  /-- RECORD_READ, R372. -/
  | recordRead (h : CmdHead) (rid : BitVec 16)
  /-- RECORD_WRITE, R372. -/
  | recordWrite (h : CmdHead) (rid : BitVec 16) (fmt : BitVec 8) (len : BitVec 32) (payload : List (BitVec 8))
  /-- PCIE_RESET, R325. -/
  | pcieReset (dt : Nat) (down : Bool)
  /-- PCIE_LINK_UP, R339. -/
  | pcieLinkUp (dt : Nat) (speed : BitVec 2) (lanes : BitVec 2)
  /-- INT_RAISE, R331. -/
  | intRaise (r : Requester) (src : BitVec 8) (key : BitVec 16)
  /-- INT_PEND_CLEAR, R334. -/
  | intPendClear (r : Requester) (j : BitVec 3) (v : BitVec 32)
  /-- INT_EN_WRITE, R332. -/
  | intEnWrite (r : Requester) (j : BitVec 3) (v : BitVec 32)
  /-- MSIX_UNMASK, R332. -/
  | msixUnmask (vector : BitVec 8)
  /-- CSRREAD_FRAME, R420. -/
  | csrreadFrame (dt : Nat) (ch : Channel) (off : BitVec 24) (count : BitVec 8)
  /-- CSRWRITE_FRAME, R420. -/
  | csrwriteFrame (dt : Nat) (ch : Channel) (off : BitVec 24) (v : BitVec 32)
  /-- FRAME_REASSEMBLY_TIMEOUT, R421. -/
  | frameReassemblyTimeout (dt : Nat)
  /-- RHIZOME_TRAIN, R346. -/
  | rhizomeTrain (dt : Nat) (port : BitVec 1) (range : BitVec 32) (delay : BitVec 16)
  /-- RHIZOME_LINK_LOSS, R346. -/
  | rhizomeLinkLoss (dt : Nat) (port : BitVec 1)
  /-- STAND_IDENT, R347. -/
  | standIdent (dt : Nat) (port : BitVec 1) (hops : Nat) (ident : StandIdent)
  /-- STAND_BOUNDARY, R352. -/
  | standBoundary
  /-- STAND_COPY_RECEIVED, R353. -/
  | standCopyReceived (dt : Nat) (port : BitVec 1) (hops : Nat) (x : CopyIn)
  /-- STAND_STATUS_FRAME, R357. -/
  | standStatusFrame (dt : Nat) (port : BitVec 1) (hops : Nat) (status : StandStatus)
  /-- NVS_HOST_WRITE, R362. -/
  | nvsHostWrite (off : BitVec 20) (bytes : List (BitVec 8))
  /-- NVS_RECALL_DONE, R364. -/
  | nvsRecallDone (dt : Nat)
  /-- RECORD_SLOT_CHECK, R371. -/
  | recordSlotCheck (r : BitVec 8)
  /-- RTC_FREEZE_READ, R378. -/
  | rtcFreezeRead (r : Requester) (k : BitVec 3)
  /-- RTC_FREEZE_TIMEOUT, R378. -/
  | rtcFreezeTimeout (r : Requester)
  /-- RTC_HALT, R379. -/
  | rtcHalt (r : Requester)
  /-- RTC_RUN, R379. -/
  | rtcRun (r : Requester)
  /-- RTC_TIME_WRITE, R379. -/
  | rtcTimeWrite (r : Requester) (k : BitVec 3) (v : BitVec 32)
  /-- RTC_ALARM_ARM, R383. -/
  | rtcAlarmArm (r : Requester)
  /-- RTC_ALARM, R383. -/
  | rtcAlarm
  /-- RTC_WAKE, R384. -/
  | rtcWake
  /-- TRIM_WINDOW, R380. -/
  | trimWindow
  /-- RTC_MEASURE_START, R381. -/
  | rtcMeasureStart (r : Requester)
  /-- RTC_MEASURE_WINDOW_OPEN, R381. -/
  | rtcMeasureWindowOpen
  /-- RTC_MEASURE_END, R381. -/
  | rtcMeasureEnd (n : Nat)
  /-- RTC_MEASURE_STOP, R381. -/
  | rtcMeasureStop (r : Requester)
  /-- RTC_TRIM_APPLY, R381. -/
  | rtcTrimApply (r : Requester)
  /-- VBK_COLLAPSE, R375. -/
  | vbkCollapse (dt : Nat)
  /-- COLD_START, R389. -/
  | coldStart (dt : Nat) (fail : Bool) (us : Nat)
  /-- RAIL_SEQUENCE_RETRY, R389. -/
  | railSequenceRetry (fail : Bool) (us : Nat)
  /-- RAIL_FAULT, R390. -/
  | railFault (dt : Nat) (r : BitVec 3) (out : Bool)
  /-- TEMP_LIMIT, R390. -/
  | tempLimit (dt : Nat)
  /-- VIN_FAIL, R392. -/
  | vinFail (dt : Nat)
  /-- HOLDUP_WARN, R392. -/
  | holdupWarn (vin : Option Nat)
  /-- VIN_RESTORE, R393. -/
  | vinRestore (dt : Nat)
  /-- DEEP_SLEEP_ENTRY, R394. -/
  | deepSleepEntry (vin : Option Nat)
  /-- WARM_RESUME, R396. -/
  | warmResume (dt : Nat) (us : Nat) (est : Option Nat)
  /-- RETENTION_END, R395. -/
  | retentionEnd (dt : Nat)
  /-- RESET_N, R399. -/
  | resetN (dt : Nat)
  /-- FORCE_SAFE_N, R399. -/
  | forceSafeN (dt : Nat) (also : BitVec 8)
  /-- MAIN_CLOCK_LOSS, R400. -/
  | mainClockLoss (dt : Nat) (also : BitVec 8)
  /-- VCORE_OUT_OF_RANGE, R400. -/
  | vcoreOutOfRange (dt : Nat) (also : BitVec 8)
  /-- DEVICE_RESET_RELEASE, R483. -/
  | deviceResetRelease (lock : Nat) (straps : BitVec 5)
  /-- BOOT, R439. -/
  | boot (dt : Nat) (found : FlashFound) (converted : List Conversion)
  /-- FAULT_CLEAR, R404. -/
  | faultClear (r : Requester) (key : BitVec 16)
  /-- SERVICE_CORE_HALT, R406. -/
  | serviceCoreHalt (dt : Nat)
  /-- WDT_CONFIG, R407. -/
  | wdtConfig (r : Requester) (v : BitVec 32)
  /-- WDT_SERVE, R408. -/
  | wdtServe (r : Requester) (key : BitVec 16)
  /-- WDT_EXPIRY, R409. -/
  | wdtExpiry
  /-- MANIFEST, R440. -/
  | manifest (h : CmdHead) (comp : BitVec 4) (index : BitVec 32) (part : List (BitVec 8))
  /-- DATA, R441. -/
  | updData (h : CmdHead) (comp : BitVec 4) (index : BitVec 32) (block : List (BitVec 8))
  /-- UPDATE_BLOCK_WRITTEN, R441. -/
  | updateBlockWritten (dt : Nat) (ok : Bool)
  /-- STATUS, R425. -/
  | updStatus (h : CmdHead) (comp : BitVec 4)
  /-- ABORT, R442. -/
  | updAbort (h : CmdHead) (comp : BitVec 4)
  /-- ACTIVATE, R443. -/
  | activate (h : CmdHead) (comp : BitVec 4) (reread : Bool)
  /-- CONFIRM, R446. -/
  | updConfirm (h : CmdHead) (comp : BitVec 4)
  /-- REVERT, R446. -/
  | updRevert (h : CmdHead) (comp : BitVec 4)
  /-- UPDATE_WINDOW_WARN, R446. -/
  | updateWindowWarn (comp : BitVec 2)
  /-- UPDATE_WINDOW_EXPIRY, R446. -/
  | updateWindowExpiry (comp : BitVec 2)
  /-- UPDATE_WINDOW_SAVE, R444. -/
  | updateWindowSave (comp : BitVec 2)
  /-- CHALLENGE, R431. -/
  | challenge (h : CmdHead)
  /-- CHALLENGE_EXPIRY, R431. -/
  | challengeExpiry
  /-- UNLOCK_SIG, R431. -/
  | unlockSig (h : CmdHead) (slot : BitVec 2) (pk : List (BitVec 8)) (sig : List (BitVec 8))
  /-- UNLOCK_PWD, R432. -/
  | unlockPwd (h : CmdHead) (password : List (BitVec 8))
  /-- RELOCK, R433. -/
  | relock (h : CmdHead)
  /-- UNLOCK_WINDOW_EXPIRY, R433. -/
  | unlockWindowExpiry
  /-- SETPWD, R432. -/
  | setpwd (h : CmdHead) (password : List (BitVec 8))
  /-- KEYSLOT, R426. -/
  | keyslot (h : CmdHead) (slot : BitVec 2) (hash : List (BitVec 8))
  /-- REVOKE, R427. -/
  | revoke (h : CmdHead) (slot : BitVec 2)
  /-- FIELDLOCK, R430. -/
  | fieldlock (h : CmdHead)
  /-- ATTEST, R429. -/
  | attest (h : CmdHead) (nonce : List (BitVec 8))
  /-- ATTEST_READY, R429. -/
  | attestReady
  /-- ATTEST_READ, R429. -/
  | attestRead (h : CmdHead)
  /-- SPORE_HELLO, R448. -/
  | sporeHello
  /-- BAUD, R448. -/
  | sporeBaud (dt : Nat) (ch : Channel) (rate : BitVec 32)
  /-- BAUD_FALLBACK, R448. -/
  | baudFallback
  /-- SPORE_MANIFEST, R448. -/
  | sporeManifest (dt : Nat) (ch : Channel) (comp : BitVec 4) (index : BitVec 32) (part : List (BitVec 8))
  /-- SPORE_DATA, R448. -/
  | sporeData (dt : Nat) (ch : Channel) (comp : BitVec 4) (index : BitVec 32) (block : List (BitVec 8))
  /-- COMMIT, R448. -/
  | sporeCommit (dt : Nat) (ch : Channel) (comp : BitVec 4)
  /-- SPORE_STATUS, R448. -/
  | sporeStatus (dt : Nat) (ch : Channel) (comp : BitVec 4)
  /-- PHASE_COMPARISON, R74. -/
  | phaseComparison (dt : Nat) (phase : Word) (freq : Option Word) (rms : Word)
  /-- IRIG_LOSS, R257. -/
  | irigLoss (dt : Nat) (irig : Bool) (pps : Bool)
  /-- PTP_MESSAGE_INTERVAL, R253. -/
  | ptpMessageInterval
  /-- SUPERVISION_FRAME, R242. -/
  | supervisionFrame
  /-- ENTRY_FORGET_TIME, R242. -/
  | entryForgetTime
  /-- NVS_HOST_READ, R364. -/
  | nvsHostRead (off : BitVec 20) (ecc : Ecc)
  /-- CALENDAR_ROLLOVER, R377. -/
  | calendarRollover
  /-- RESET_PIN_RELEASE, R483. -/
  | resetPinRelease (dt : Nat) (fsafe : Bool)
  /-- TELEMETRY_SAMPLE, R391. -/
  | telemetrySample (vin : BitVec 16) (volts : List (BitVec 16)) (curs : List (BitVec 16)) (temps : List (BitVec 16))
deriving DecidableEq, Repr

end Sys2Proof
end

