-- ==== Sys2Proof/Decode.lean ====
section
/-!
DEFINITION. The decoder over the rows of the table that give bits. No row does: the table numbers no bit of any command,
so no word spells one. A scan-core instruction reaches the model as a command that carries its prefixes and operands;
its bytes, which R99 and R102 lay out, are written out in Machine/Operands.lean where the fetch and the fault record need
them.
-/
namespace Sys2Proof

/-- The command that a word of nbits bits spells by the table's bits: none. -/
def decodeTableWord (_nbits _w : Nat) : Option Instr := none

end Sys2Proof
end

