-- ==== Sys2Proof/Machine/Rounding.lean ====
section
/-!
DEFINITION. Exact integer arithmetic shared by the instructions and the blocks: rounding (R138), fitting into a field
(R139) and the integer square root.
-/
namespace Sys2Proof.Machine

/-- R95: the rounding modes, coded as FL.RM. -/
inductive Rounding where
  | trn | rhu | rhe | rtz
deriving DecidableEq, Repr

/-- R95, R184: the rounding mode of a field. -/
def roundingOf (n : Nat) : Rounding := if n = 0 then .trn else if n = 1 then .rhu else if n = 2 then .rhe else .rtz

/-- R138: v without its k low bits, rounded. -/
def rnd (m : Rounding) (v : Int) (k : Nat) : Int :=
  if k = 0 then v
  else
    let q := v / (2 ^ k : Nat)
    let r := v - q * (2 ^ k : Nat)
    let h : Int := (2 ^ (k - 1) : Nat)
    match m with
    | .trn => q
    | .rhu => if r ≥ h then q + 1 else q
    | .rhe => if r > h ∨ (r = h ∧ q % 2 = 1) then q + 1 else q
    | .rtz => if v < 0 ∧ r ≠ 0 then q + 1 else q

/-- The largest value of a signed field of w bits. -/
def maxOf (w : Nat) : Int := (2 ^ (w - 1) : Nat) - 1

/-- The smallest value of a signed field of w bits. -/
def minOf (w : Nat) : Int := -((2 ^ (w - 1) : Nat) : Int)

/-- v lies in a signed field of w bits. -/
def inField (v : Int) (w : Nat) : Bool := decide (minOf w ≤ v) && decide (v ≤ maxOf w)

/-- R139: v moved to the nearer limit of a signed field of w bits. -/
def saturate (v : Int) (w : Nat) : Int := if v < minOf w then minOf w else if v > maxOf w then maxOf w else v

/-- The largest x below 2^k above the bits already found in r with x² ≤ n. -/
def isqrtFrom (n : Nat) : Nat → Nat → Nat
  | 0, r => r
  | k + 1, r => if (r + 2 ^ k) * (r + 2 ^ k) ≤ n then isqrtFrom n k (r + 2 ^ k) else isqrtFrom n k r

/-- The integer square root of a number below 2^(2k). -/
def isqrt (k n : Nat) : Nat := isqrtFrom n k 0

end Sys2Proof.Machine
end

