-- ==== Sys2Proof/Machine/Bytes.lean ====
section
/-!
DEFINITION. Byte strings: little-endian numbers, padding, pieces, and the CRC-32C that frames, records and journal
entries carry. The spec names CRC-32C and does not define it: PRESUMED, the Castagnoli polynomial, reflected, initial
value and final exclusive-or all ones (assumption 14).
-/
namespace Sys2Proof.Machine

/-- n bytes of a number, the least significant first. -/
def leBytes (v : Nat) : Nat → List Byte
  | 0 => []
  | n + 1 => BitVec.ofNat 8 v :: leBytes (v / 256) n

/-- A byte string as a number, the least significant byte first. -/
def leNat : List Byte → Nat
  | [] => 0
  | b :: rest => b.toNat + 256 * leNat rest

/-- A byte string cut or padded with zeros to n bytes. -/
def padTo (n : Nat) (l : List Byte) : List Byte := (l ++ List.replicate n 0).take n

/-- The byte string cut into pieces of n bytes, at most count of them. -/
def chunks {α : Type} (n : Nat) : Nat → List α → List (List α)
  | 0, _ => []
  | count + 1, l => l.take n :: chunks n count (l.drop n)

/-- The bytes of a list of words, each little-endian. -/
def wordBytes (l : List Word) : List Byte := l.flatMap (fun w => leBytes w.toNat 4)

/-- Word k of a byte string, little-endian; bytes past its end read 0. -/
def wordAt (l : List Byte) (k : Nat) : Word := BitVec.ofNat 32 (leNat ((l.drop (4 * k)).take 4))

/-- One bit of CRC-32C. -/
def crcBit (c : Word) : Word := if c.getLsbD 0 then (c >>> 1) ^^^ 0x82F63B78 else c >>> 1

/-- One byte of CRC-32C. -/
def crcByte (c : Word) (b : Byte) : Word :=
  crcBit (crcBit (crcBit (crcBit (crcBit (crcBit (crcBit (crcBit (c ^^^ b.setWidth 32))))))))

/-- CRC-32C of a byte string. -/
def crc32c (l : List Byte) : Word := ~~~(l.foldl crcByte 0xFFFFFFFF)

/-- v / n rounded to the nearest integer, halves to the even one (RHE of R138). -/
def rheDiv (v : Int) (n : Nat) : Int :=
  let q := v / n
  let r := 2 * (v - q * n)
  if r > n ∨ (r = n ∧ q % 2 = 1) then q + 1 else q

end Sys2Proof.Machine
end

