-- ==== Sys2Proof/Config.lean ====
section
/-!
DEFINITION. What one implementation fixes and the free values: constants without a body, so that nothing can be proved
of the value they have. Assumption 2 says which value of the spec each stands for.
-/
namespace Sys2Proof.Config

/-- A word that the spec leaves open, one for each value of the counter that the step reads and advances. -/
opaque freeWord : Nat → Word

/-- SHA-256 of a byte string (FIPS 180-4), used by R426 to R441, as the number whose least significant byte is the first
byte of the digest; the spec names the function and does not define it. -/
opaque sha256 : List Byte → BitVec 256

/-- R426: the pure SLH-DSA-SHA2-128s verification (FIPS 205) of a message and a signature under a public key. -/
opaque slhVerify : (pk msg sig : List Byte) → Bool

/-- R429: the SLH-DSA-SHA2-128f signature that SEC makes over a message with its private key. -/
opaque attestSign : List Byte → List Byte

/-- R26, R236: the host protocol range of the peer with this identity word, which no heartbeat carries. -/
opaque peerHostRange : Word → Word

/-- R205: bits [127:32] of the identity of the peer with this low word, which no heartbeat carries. -/
opaque peerIdentity : Word → BitVec 96

/-- R253: clockIdentity, clockAccuracy and offsetScaledLogVariance of the 9060's own clock. -/
opaque clockIdentity : BitVec 64
opaque clockAccuracy : BitVec 8
opaque clockVariance : BitVec 16

/-- R429: the vendor certificate kept in the boot flash. -/
opaque vendorCert : List Byte

/-- R431: the n-th random challenge. -/
opaque challenge : Nat → BitVec 256

/-- R429: the public key of the unit, SEC_ATTPK. -/
opaque attestKey : BitVec 256

/-- R436: the VERSION word of an image that the runtime firmware seals. -/
opaque sealedVersion : Word

/-- R439, R444: the payload of the boot record 0xFF04, whose layout the spec does not give. -/
opaque bootRecord : Nat → BitVec 512

/-- R426: the hash of the vendor root key in boot ROM, SEC_ROOTHASH. -/
opaque rootHash : BitVec 256

/-- R9: the bytes of the boot ROM, 128 KiB, whose contents the spec does not give beyond the hash of the vendor root key. -/
opaque bootRom : BitVec 17 → Byte

end Sys2Proof.Config
end

