-- ==== Sys2Proof/Machine/Sparse.lean ====
section
/-!
DEFINITION. Sparse tables: a list of (key, value) pairs in one canonical form, keys strictly rising and no entry equal
to what an unlisted key reads as. Memories, the register file and every numbered array of the machine are held so,
each with its own definition of what an unlisted key reads as.
-/
namespace Sys2Proof.Machine

/-- A sparse table of values; what an unlisted key reads as stands beside each use. -/
abbrev Sparse (β : Type) := List (Nat × β)

/-- The value at key k; dflt k where the table lists none. -/
def Sparse.get {β : Type} (dflt : Nat → β) : Sparse β → Nat → β
  | [], k => dflt k
  | (j, v) :: rest, k => if j = k then v else Sparse.get dflt rest k

/-- The table without key k. -/
def Sparse.del {β : Type} (k : Nat) : Sparse β → Sparse β
  | [] => []
  | (j, v) :: rest => if j = k then Sparse.del k rest else (j, v) :: Sparse.del k rest

/-- The table with v listed at key k, keys kept rising. -/
def Sparse.ins {β : Type} (k : Nat) (v : β) : Sparse β → Sparse β
  | [] => [(k, v)]
  | (j, w) :: rest =>
    if k < j then (k, v) :: (j, w) :: rest
    else if k = j then (k, v) :: rest
    else (j, w) :: Sparse.ins k v rest

/-- The table with value v at key k: writing the value that an unlisted key reads as removes the entry. -/
def Sparse.set {β : Type} [DecidableEq β] (dflt : Nat → β) (m : Sparse β) (k : Nat) (v : β) : Sparse β :=
  if v = dflt k then Sparse.del k m else Sparse.ins k v m

/-- Every key of the table is above lo (all keys when lo is none), and they rise strictly. -/
def Sparse.risingFrom {β : Type} : Option Nat → Sparse β → Bool
  | _, [] => true
  | lo, (j, _) :: rest => (match lo with | none => true | some l => Nat.blt l j) && Sparse.risingFrom (some j) rest

/-- The canonical form: keys strictly rising, and no entry equal to what an unlisted key reads as. -/
def Sparse.wf {β : Type} [DecidableEq β] (dflt : Nat → β) (m : Sparse β) : Bool :=
  Sparse.risingFrom none m && m.all (fun p => !decide (p.2 = dflt p.1))

end Sys2Proof.Machine
end

