-- ==== Sys2Proof/Machine/RegMap.lean ====
section
/-!
DEFINITION. The register map: every register that a table of the spec names, with its offset, its index ranges,
its fields, their access types (R5), their reset values and its Ticks entry (R7, R21). The rows are the spec's
register tables, block by block; a reset entry that the spec prints as a word and not as a number (Fuses, Image, Pin,
Boot, Key, Scan, Flash, Record, ROM) is the value that assumption 3 names.
-/
namespace Sys2Proof.Machine

/-- R5: the access types of a register field. -/
inductive FieldType where
  | ro | rw | wo | w1c | rc | rwl | rws
deriving DecidableEq, Repr

/-- One field of a register row: its bits, its access type and its reset value. -/
structure FieldRow where
  hi : Nat
  lo : Nat
  ty : FieldType
  reset : Nat
deriving DecidableEq, Repr

/-- One row of a register table: the register stands at base + Σ index × stride, each index below its count.
ticks is the Ticks entry of R7; 0 stands for the entry "—" (R21: not accessible from a scan core). -/
structure RegRow where
  name : String
  base : Nat
  dims : List (Nat × Nat)
  fields : List FieldRow
  ticks : Nat
deriving DecidableEq, Repr

/-- A named field of a register at a fixed offset. -/
structure Fld where
  off : Nat
  hi : Nat
  lo : Nat
deriving DecidableEq, Repr

/-- The offset d is Σ index × stride for indexes below their counts. -/
def dimsHit : List (Nat × Nat) → Nat → Bool
  | [], d => d == 0
  | (count, stride) :: rest, d => Nat.blt (d / stride) count && dimsHit rest (d % stride)

/-- The row describes the register at offset off. -/
def RegRow.hits (r : RegRow) (off : Nat) : Bool :=
  Nat.ble r.base off && dimsHit r.dims (off - r.base)

/-- The mask of bits hi to lo. -/
def fieldMask (hi lo : Nat) : BitVec 32 := BitVec.ofNat 32 ((2 ^ (hi + 1 - lo) - 1) * 2 ^ lo)

/-- The word that all fields of a row hold at reset; reserved bits read 0 (R6). -/
def RegRow.resetWord (r : RegRow) : BitVec 32 :=
  r.fields.foldl (fun w f => w ||| BitVec.ofNat 32 (f.reset * 2 ^ f.lo)) 0

/-- The registers of block SYS. -/
def rowsSYS : List RegRow := [
  ⟨"SYS_IDCODE", 0x0, [], [⟨7, 0, .ro, 76⟩, ⟨11, 8, .ro, 0⟩, ⟨15, 12, .ro, 11⟩, ⟨31, 16, .ro, 36960⟩], 6⟩,
  ⟨"SYS_UID0", 0x4, [], [⟨31, 0, .ro, 0⟩], 6⟩,
  ⟨"SYS_UID1", 0x8, [], [⟨31, 0, .ro, 0⟩], 6⟩,
  ⟨"SYS_UID2", 0xc, [], [⟨31, 0, .ro, 0⟩], 6⟩,
  ⟨"SYS_UID3", 0x10, [], [⟨31, 0, .ro, 0⟩], 6⟩,
  ⟨"SYS_CAPS", 0x14, [], [⟨3, 0, .ro, 8⟩, ⟨7, 4, .ro, 4⟩, ⟨11, 8, .ro, 4⟩, ⟨15, 12, .ro, 2⟩, ⟨23, 16, .ro, 8⟩], 6⟩,
  ⟨"SYS_ROMVER", 0x18, [], [⟨15, 0, .ro, 0⟩, ⟨23, 16, .ro, 0⟩, ⟨31, 24, .ro, 0⟩], 6⟩,
  ⟨"SYS_FWVER", 0x1c, [], [⟨15, 0, .ro, 0⟩, ⟨23, 16, .ro, 0⟩, ⟨31, 24, .ro, 0⟩], 6⟩,
  ⟨"SYS_NETFWVER", 0x20, [], [⟨15, 0, .ro, 0⟩, ⟨23, 16, .ro, 0⟩, ⟨31, 24, .ro, 0⟩], 6⟩,
  ⟨"SYS_PMUFWVER", 0x24, [], [⟨15, 0, .ro, 0⟩, ⟨23, 16, .ro, 0⟩, ⟨31, 24, .ro, 0⟩], 6⟩,
  ⟨"SYS_STRAPS", 0x28, [], [⟨0, 0, .ro, 0⟩, ⟨3, 1, .ro, 0⟩, ⟨4, 4, .ro, 0⟩], 6⟩,
  ⟨"SYS_BOOT", 0x2c, [], [⟨1, 0, .ro, 0⟩, ⟨4, 4, .ro, 0⟩, ⟨10, 8, .ro, 0⟩], 6⟩,
  ⟨"SYS_MODE", 0x30, [], [⟨1, 0, .ro, 3⟩, ⟨6, 4, .ro, 7⟩, ⟨7, 7, .ro, 0⟩, ⟨8, 8, .ro, 0⟩, ⟨10, 9, .ro, 0⟩, ⟨31, 16, .ro, 0⟩], 6⟩,
  ⟨"SYS_BADADDR", 0x34, [], [⟨23, 0, .ro, 0⟩, ⟨26, 24, .ro, 0⟩, ⟨28, 28, .ro, 0⟩, ⟨29, 29, .ro, 0⟩, ⟨31, 31, .w1c, 0⟩], 0⟩,
  ⟨"SYS_MONO0", 0x38, [], [⟨31, 0, .ro, 0⟩], 6⟩,
  ⟨"SYS_MONO1", 0x3c, [], [⟨31, 0, .ro, 0⟩], 6⟩,
  ⟨"SYS_IFVER", 0x80, [(6, 0x4)], [⟨7, 0, .ro, 0⟩, ⟨15, 8, .ro, 0⟩, ⟨23, 16, .ro, 0⟩, ⟨31, 24, .ro, 0⟩], 6⟩,
  ⟨"SYS_PATH0", 0x98, [], [⟨31, 0, .rw, 4294967295⟩], 0⟩,
  ⟨"SYS_PATH1", 0x9c, [], [⟨31, 0, .rw, 4294967295⟩], 0⟩,
  ⟨"SYS_PATH2", 0xa0, [], [⟨31, 0, .rw, 4294967295⟩], 0⟩,
  ⟨"SYS_PATH3", 0xa4, [], [⟨31, 0, .rw, 4294967295⟩], 0⟩,
  ⟨"SYS_PATHCTL", 0xa8, [], [⟨0, 0, .wo, 0⟩, ⟨1, 1, .ro, 0⟩, ⟨6, 4, .ro, 0⟩, ⟨15, 8, .ro, 0⟩], 0⟩,
  ⟨"SYS_SELFPATH0", 0xb0, [], [⟨31, 0, .ro, 4294967295⟩], 6⟩,
  ⟨"SYS_SELFPATH1", 0xb4, [], [⟨31, 0, .ro, 4294967295⟩], 6⟩,
  ⟨"SYS_SELFPATH2", 0xb8, [], [⟨31, 0, .ro, 4294967295⟩], 6⟩,
  ⟨"SYS_SELFPATH3", 0xbc, [], [⟨31, 0, .ro, 4294967295⟩], 6⟩,
  ⟨"SYS_UCBWIN", 0xc0, [(16, 0x4)], [⟨31, 0, .ro, 0⟩], 6⟩,
  ⟨"SYS_RESET", 0x100, [], [⟨3, 0, .wo, 0⟩, ⟨10, 8, .wo, 0⟩, ⟨15, 15, .ro, 0⟩, ⟨31, 16, .wo, 0⟩], 0⟩,
  ⟨"SYS_ECC", 0x104, [], [⟨15, 0, .rc, 0⟩, ⟨19, 16, .ro, 0⟩, ⟨22, 20, .ro, 0⟩], 6⟩]

/-- The registers of block SUP. -/
def rowsSUP : List RegRow := [
  ⟨"SUP_STAT", 0x1000, [], [⟨0, 0, .ro, 0⟩, ⟨1, 1, .ro, 0⟩, ⟨2, 2, .ro, 0⟩, ⟨3, 3, .ro, 0⟩], 6⟩,
  ⟨"SUP_EVT", 0x1004, [], [⟨7, 0, .w1c, 0⟩], 6⟩,
  ⟨"SUP_CTL", 0x1008, [], [⟨0, 0, .wo, 0⟩, ⟨31, 16, .wo, 0⟩], 0⟩,
  ⟨"SUP_RSTCAUSE", 0x100c, [], [⟨3, 0, .ro, 0⟩, ⟨15, 8, .ro, 0⟩, ⟨16, 16, .ro, 0⟩], 6⟩,
  ⟨"SUP_RSTCNT", 0x1010, [], [⟨31, 0, .ro, 0⟩], 6⟩,
  ⟨"SUP_CAUSECNT0", 0x1014, [], [⟨7, 0, .ro, 0⟩, ⟨15, 8, .ro, 0⟩, ⟨23, 16, .ro, 0⟩, ⟨31, 24, .ro, 0⟩], 6⟩,
  ⟨"SUP_CAUSECNT1", 0x1018, [], [⟨7, 0, .ro, 0⟩, ⟨15, 8, .ro, 0⟩, ⟨23, 16, .ro, 0⟩], 6⟩,
  ⟨"SUP_LGSEQ", 0x101c, [], [⟨31, 0, .ro, 0⟩], 6⟩,
  ⟨"SUP_SLEEPDUR", 0x1020, [], [⟨31, 0, .ro, 0⟩], 6⟩,
  ⟨"SUP_SLEEPCNT", 0x1024, [], [⟨31, 0, .ro, 0⟩], 6⟩]

/-- The registers of block CLK. -/
def rowsCLK : List RegRow := [
  ⟨"CLK_STAT", 0x2000, [], [⟨0, 0, .ro, 0⟩, ⟨1, 1, .ro, 0⟩, ⟨2, 2, .ro, 0⟩, ⟨3, 3, .ro, 0⟩, ⟨4, 4, .ro, 0⟩, ⟨5, 5, .ro, 0⟩], 6⟩,
  ⟨"CLK_RCMEAS", 0x2004, [], [⟨15, 0, .ro, 0⟩], 6⟩,
  ⟨"CLK_UNLOCK", 0x2008, [], [⟨7, 0, .ro, 0⟩, ⟨15, 8, .ro, 0⟩, ⟨23, 16, .ro, 0⟩], 6⟩]

/-- The registers of block PMU. -/
def rowsPMU : List RegRow := [
  ⟨"PMU_STAT", 0x3000, [], [⟨2, 0, .ro, 1⟩, ⟨3, 3, .ro, 0⟩, ⟨9, 4, .ro, 63⟩, ⟨15, 10, .ro, 0⟩], 6⟩,
  ⟨"PMU_VINCFG", 0x3004, [], [⟨15, 0, .rw, 8500⟩, ⟨31, 16, .rw, 500⟩], 6⟩,
  ⟨"PMU_HOLDCFG", 0x3008, [], [⟨9, 0, .rw, 50⟩, ⟨15, 10, .rw, 5⟩, ⟨31, 16, .rw, 6500⟩], 6⟩,
  ⟨"PMU_RETCFG", 0x300c, [], [⟨15, 0, .rw, 5000⟩], 6⟩,
  ⟨"PMU_VIN", 0x3010, [], [⟨15, 0, .ro, 0⟩, ⟨31, 16, .rc, 65535⟩], 6⟩,
  ⟨"PMU_RAILCNT", 0x3014, [], [⟨15, 0, .ro, 0⟩, ⟨31, 16, .ro, 0⟩], 6⟩,
  ⟨"PMU_TEL", 0x3020, [(6, 0x4)], [⟨15, 0, .ro, 0⟩, ⟨31, 16, .ro, 0⟩], 6⟩,
  ⟨"PMU_TEMP", 0x3040, [(4, 0x4)], [⟨15, 0, .ro, 0⟩, ⟨31, 16, .ro, 32768⟩], 6⟩,
  ⟨"PMU_TEMPLIM", 0x3050, [], [⟨15, 0, .rw, 1680⟩], 6⟩,
  ⟨"PMU_HOLDCNT", 0x3054, [], [⟨15, 0, .ro, 0⟩], 6⟩,
  ⟨"PMU_SEQTIME", 0x3058, [], [⟨15, 0, .ro, 0⟩], 6⟩]

/-- The registers of block WDT. -/
def rowsWDT : List RegRow := [
  ⟨"WDT_CFG", 0x4000, [], [⟨13, 0, .rwl, 0⟩, ⟨29, 16, .rwl, 0⟩, ⟨30, 30, .rwl, 0⟩], 0⟩,
  ⟨"WDT_SERVE", 0x4004, [], [⟨15, 0, .wo, 0⟩], 0⟩,
  ⟨"WDT_CNT", 0x4008, [], [⟨23, 0, .ro, 0⟩], 6⟩,
  ⟨"WDT_STAT", 0x400c, [], [⟨0, 0, .ro, 0⟩, ⟨1, 1, .ro, 0⟩, ⟨2, 2, .ro, 0⟩, ⟨11, 8, .w1c, 0⟩], 6⟩,
  ⟨"WDT_EARLY", 0x4010, [], [⟨15, 0, .ro, 0⟩], 6⟩,
  ⟨"WDT_RSTCOUNT", 0x4014, [], [⟨31, 0, .ro, 0⟩], 6⟩,
  ⟨"WDT_TMCFG", 0x4018, [], [⟨0, 0, .rw, 0⟩], 6⟩,
  ⟨"WDT_TMFLT0", 0x401c, [], [⟨31, 0, .w1c, 0⟩], 6⟩,
  ⟨"WDT_TMFLT1", 0x4020, [], [⟨31, 0, .w1c, 0⟩], 6⟩]

/-- The registers of block INT. -/
def rowsINT : List RegRow := [
  ⟨"INT_RAISE", 0x5004, [], [⟨7, 0, .wo, 0⟩, ⟨31, 16, .wo, 0⟩], 0⟩,
  ⟨"INT_PINCFG", 0x5010, [(8, 0x4)], [⟨0, 0, .rw, 0⟩, ⟨1, 1, .rw, 0⟩, ⟨8, 8, .ro, 0⟩], 6⟩,
  ⟨"INT_PEND", 0x5040, [(8, 0x4)], [⟨31, 0, .w1c, 0⟩], 6⟩,
  ⟨"INT_EN", 0x5060, [(8, 0x4)], [⟨31, 0, .rw, 0⟩], 6⟩,
  ⟨"INT_FIRST", 0x5080, [], [⟨7, 0, .ro, 0⟩, ⟨31, 31, .ro, 0⟩], 6⟩,
  ⟨"INT_SRCCFG", 0x5100, [(256, 0x4)], [⟨1, 0, .rw, 0⟩, ⟨15, 8, .rw, 0⟩, ⟨31, 24, .ro, 0⟩], 6⟩]

/-- The registers of block TSK. -/
def rowsTSK : List RegRow := [
  ⟨"TSK_CFG", 0x10000, [(64, 0x20)], [⟨0, 0, .rw, 0⟩, ⟨2, 1, .rw, 0⟩, ⟨5, 3, .rw, 0⟩, ⟨11, 6, .rw, 0⟩, ⟨14, 12, .rw, 0⟩, ⟨16, 15, .rw, 0⟩, ⟨17, 17, .rw, 0⟩, ⟨18, 18, .rw, 0⟩, ⟨20, 19, .rw, 0⟩, ⟨22, 21, .rw, 0⟩, ⟨23, 23, .rw, 0⟩, ⟨31, 24, .rw, 0⟩], 6⟩,
  ⟨"TSK_PERIOD", 0x10004, [(64, 0x20)], [⟨31, 0, .rw, 0⟩], 6⟩,
  ⟨"TSK_PHASE", 0x10008, [(64, 0x20)], [⟨31, 0, .rw, 0⟩], 6⟩,
  ⟨"TSK_BUDGET", 0x1000c, [(64, 0x20)], [⟨31, 0, .rw, 0⟩], 6⟩,
  ⟨"TSK_USED", 0x10010, [(64, 0x20)], [⟨31, 0, .ro, 0⟩], 6⟩,
  ⟨"TSK_STATE", 0x10014, [(64, 0x20)], [⟨2, 0, .ro, 0⟩, ⟨3, 3, .ro, 0⟩, ⟨4, 4, .ro, 0⟩, ⟨5, 5, .ro, 0⟩, ⟨6, 6, .ro, 0⟩, ⟨8, 8, .w1c, 0⟩, ⟨9, 9, .w1c, 0⟩, ⟨10, 10, .w1c, 0⟩, ⟨11, 11, .w1c, 0⟩, ⟨23, 16, .ro, 0⟩, ⟨31, 24, .ro, 0⟩], 6⟩,
  ⟨"TSK_CHKIN", 0x10018, [(64, 0x20)], [⟨1, 0, .ro, 0⟩, ⟨2, 2, .rw, 0⟩, ⟨3, 3, .rw, 0⟩, ⟨15, 8, .ro, 0⟩, ⟨23, 16, .ro, 0⟩, ⟨31, 24, .ro, 0⟩], 6⟩,
  ⟨"TSK_CODE", 0x1001c, [(64, 0x20)], [⟨21, 0, .rw, 0⟩, ⟨31, 22, .rw, 0⟩], 6⟩,
  ⟨"TSK_GCTL", 0x10800, [], [⟨0, 0, .wo, 0⟩, ⟨1, 1, .wo, 0⟩, ⟨13, 8, .wo, 0⟩], 6⟩,
  ⟨"TSK_GSTAT", 0x10804, [], [⟨0, 0, .w1c, 0⟩, ⟨1, 1, .ro, 0⟩], 6⟩,
  ⟨"TSK_TLCFG", 0x10808, [], [⟨15, 0, .rw, 1000⟩], 6⟩,
  ⟨"TSK_RUNMASK0", 0x1080c, [], [⟨31, 0, .ro, 0⟩], 6⟩,
  ⟨"TSK_RUNMASK1", 0x10810, [], [⟨31, 0, .ro, 0⟩], 6⟩,
  ⟨"TSK_OVRMASK0", 0x10814, [], [⟨31, 0, .ro, 0⟩], 6⟩,
  ⟨"TSK_OVRMASK1", 0x10818, [], [⟨31, 0, .ro, 0⟩], 6⟩,
  ⟨"TSK_ULATCH0", 0x1081c, [], [⟨31, 0, .ro, 0⟩], 6⟩,
  ⟨"TSK_ULATCH1", 0x10820, [], [⟨31, 0, .ro, 0⟩], 6⟩,
  ⟨"TSK_ULATCH2", 0x10824, [], [⟨31, 0, .ro, 0⟩], 6⟩,
  ⟨"TSK_ULATCH3", 0x10828, [], [⟨31, 0, .ro, 0⟩], 6⟩,
  ⟨"TSK_CORESTAT", 0x10830, [(8, 0x4)], [⟨5, 0, .ro, 0⟩, ⟨6, 6, .ro, 1⟩, ⟨10, 8, .ro, 0⟩, ⟨23, 16, .ro, 0⟩], 6⟩,
  ⟨"TSK_CORELOAD", 0x10850, [(8, 0x4)], [⟨15, 0, .ro, 0⟩], 6⟩,
  ⟨"TSK_CFLT0", 0x10900, [(8, 0x10)], [⟨3, 0, .ro, 0⟩, ⟨9, 4, .ro, 0⟩, ⟨10, 10, .ro, 0⟩, ⟨23, 16, .ro, 0⟩, ⟨31, 31, .w1c, 0⟩], 6⟩,
  ⟨"TSK_CFLT1", 0x10904, [(8, 0x10)], [⟨31, 0, .ro, 0⟩], 6⟩,
  ⟨"TSK_CFLT2", 0x10908, [(8, 0x10)], [⟨31, 0, .ro, 0⟩], 6⟩,
  ⟨"TSK_CFLT3", 0x1090c, [(8, 0x10)], [⟨15, 0, .ro, 0⟩], 6⟩]

/-- The registers of block ANG. -/
def rowsANG : List RegRow := [
  ⟨"ANG_CFG", 0x11000, [], [⟨0, 0, .rw, 0⟩, ⟨2, 1, .rw, 1⟩, ⟨15, 8, .rw, 50⟩, ⟨23, 16, .rw, 96⟩], 6⟩,
  ⟨"ANG_SRC", 0x11004, [], [⟨1, 0, .rw, 0⟩, ⟨12, 8, .rw, 0⟩, ⟨19, 16, .rw, 0⟩], 6⟩,
  ⟨"ANG_COMP", 0x11008, [], [⟨31, 0, .rw, 0⟩], 6⟩,
  ⟨"ANG_STEPTH", 0x1100c, [], [⟨31, 0, .rw, 238609294⟩], 6⟩,
  ⟨"ANG_HOLD", 0x11010, [], [⟨11, 0, .rw, 2000⟩], 6⟩,
  ⟨"ANG_AMIN", 0x11014, [], [⟨15, 0, .rw, 3277⟩], 6⟩,
  ⟨"ANG_ROCLIM", 0x11018, [], [⟨31, 0, .rw, 131072⟩], 6⟩,
  ⟨"ANG_SAMP", 0x1101c, [], [⟨2, 0, .rw, 1⟩, ⟨4, 4, .rw, 0⟩], 6⟩,
  ⟨"ANG_ANGLE", 0x11020, [], [⟨31, 0, .ro, 0⟩], 6⟩,
  ⟨"ANG_TURNS", 0x11024, [], [⟨31, 0, .ro, 0⟩], 6⟩,
  ⟨"ANG_FREQ", 0x11028, [], [⟨31, 0, .ro, 0⟩], 6⟩,
  ⟨"ANG_ROCOF", 0x1102c, [], [⟨31, 0, .ro, 0⟩], 6⟩,
  ⟨"ANG_STATE", 0x11030, [], [⟨31, 0, .ro, 3⟩], 6⟩,
  ⟨"ANG_TNS", 0x11034, [], [⟨29, 0, .ro, 0⟩, ⟨31, 30, .ro, 0⟩], 6⟩,
  ⟨"ANG_TSEC0", 0x11038, [], [⟨31, 0, .ro, 0⟩], 6⟩,
  ⟨"ANG_TSEC1", 0x1103c, [], [⟨31, 0, .ro, 0⟩], 6⟩,
  ⟨"ANG_DEV", 0x11040, [], [⟨31, 0, .ro, 0⟩], 6⟩,
  ⟨"ANG_STAT", 0x11050, [], [⟨7, 0, .w1c, 0⟩], 6⟩,
  ⟨"ANG_STEPCNT", 0x11054, [], [⟨31, 0, .ro, 0⟩], 6⟩,
  ⟨"ANG_LASTSTEP", 0x11058, [], [⟨31, 0, .ro, 0⟩], 6⟩,
  ⟨"ANG_LATECNT", 0x1105c, [], [⟨31, 0, .rc, 0⟩], 6⟩,
  ⟨"ANG_LOSSCNT", 0x11060, [], [⟨31, 0, .ro, 0⟩], 6⟩,
  ⟨"ANG_SSTAT", 0x11064, [], [⟨8, 0, .ro, 0⟩], 6⟩,
  ⟨"ANG_STEPMONO", 0x11068, [], [⟨31, 0, .ro, 0⟩], 6⟩]

/-- The registers of block FRP. -/
def rowsFRP : List RegRow := [
  ⟨"FRP_STAT", 0x12000, [], [⟨1, 0, .ro, 0⟩, ⟨13, 8, .w1c, 0⟩, ⟨14, 14, .w1c, 0⟩], 6⟩,
  ⟨"FRP_TBLCTL", 0x12004, [], [⟨0, 0, .wo, 0⟩, ⟨1, 1, .ro, 0⟩, ⟨2, 2, .rw, 0⟩, ⟨4, 4, .ro, 0⟩], 0⟩,
  ⟨"FRP_CHK", 0x12008, [], [⟨3, 0, .ro, 0⟩, ⟨27, 16, .ro, 0⟩], 6⟩,
  ⟨"FRP_SWEEP", 0x1200c, [], [⟨31, 0, .ro, 0⟩], 6⟩,
  ⟨"FRP_FO0", 0x12010, [], [⟨31, 0, .ro, 0⟩], 6⟩,
  ⟨"FRP_FO1", 0x12014, [], [⟨31, 0, .ro, 0⟩], 6⟩,
  ⟨"FRP_FOOWN0", 0x12018, [], [⟨31, 0, .ro, 0⟩], 6⟩,
  ⟨"FRP_FOOWN1", 0x1201c, [], [⟨31, 0, .ro, 0⟩], 6⟩,
  ⟨"FRP_OMODE", 0x12020, [(4, 0x4)], [⟨31, 0, .ro, 0⟩], 6⟩,
  ⟨"FRP_SWAPCNT", 0x12030, [], [⟨31, 0, .ro, 0⟩], 6⟩,
  ⟨"FRP_ECCERR", 0x12034, [], [⟨11, 0, .ro, 0⟩, ⟨16, 16, .w1c, 0⟩], 6⟩,
  ⟨"FRP_WATCH", 0x12040, [(8, 0x4)], [⟨11, 0, .rw, 0⟩, ⟨12, 12, .rw, 0⟩, ⟨13, 13, .ro, 0⟩, ⟨15, 15, .w1c, 0⟩, ⟨31, 16, .ro, 0⟩], 6⟩,
  ⟨"FRP_SNAPCTL", 0x12060, [], [⟨0, 0, .wo, 0⟩, ⟨1, 1, .ro, 0⟩], 6⟩,
  ⟨"FRP_SNAPSW", 0x12064, [], [⟨31, 0, .ro, 0⟩], 6⟩,
  ⟨"FRP_IMG", 0x12100, [(128, 0x4)], [⟨31, 0, .ro, 0⟩], 6⟩,
  ⟨"FRP_SNAP", 0x12300, [(128, 0x4)], [⟨31, 0, .ro, 0⟩], 6⟩]

/-- The registers of block IMG. -/
def rowsIMG : List RegRow := [
  ⟨"IMG_GEN", 0x13000, [], [⟨31, 0, .ro, 0⟩], 6⟩,
  ⟨"IMG_STAT", 0x13004, [], [⟨0, 0, .ro, 0⟩, ⟨15, 8, .ro, 0⟩, ⟨21, 16, .ro, 0⟩], 6⟩,
  ⟨"IMG_LATEOUT", 0x13008, [], [⟨31, 0, .rc, 0⟩], 6⟩,
  ⟨"IMG_SAFEMASK0", 0x1300c, [], [⟨31, 0, .ro, 4294967295⟩], 6⟩,
  ⟨"IMG_SAFEMASK1", 0x13010, [], [⟨31, 0, .ro, 4294967295⟩], 6⟩,
  ⟨"IMG_TRGN", 0x13100, [(64, 0x4)], [⟨7, 0, .rw, 0⟩, ⟨11, 8, .rw, 0⟩, ⟨23, 16, .rw, 0⟩, ⟨27, 24, .rw, 0⟩], 6⟩,
  ⟨"IMG_OINST", 0x13200, [(64, 0x4)], [⟨23, 0, .rw, 0⟩, ⟨25, 24, .rw, 0⟩], 6⟩,
  ⟨"IMG_RGN", 0x13400, [(256, 0x4)], [⟨13, 0, .rw, 0⟩, ⟨27, 14, .rw, 0⟩, ⟨28, 28, .rw, 0⟩, ⟨29, 29, .rw, 0⟩, ⟨31, 31, .rw, 0⟩], 6⟩]

/-- The registers of block XCH. -/
def rowsXCH : List RegRow := [
  ⟨"XCH_STAT", 0x14000, [], [⟨2, 0, .ro, 0⟩, ⟨3, 3, .ro, 0⟩, ⟨7, 4, .ro, 0⟩, ⟨11, 8, .w1c, 0⟩], 6⟩,
  ⟨"XCH_CMD", 0x14004, [], [⟨3, 0, .wo, 0⟩, ⟨31, 16, .wo, 0⟩], 0⟩,
  ⟨"XCH_DESC", 0x14008, [], [⟨17, 0, .rw, 0⟩], 6⟩,
  ⟨"XCH_CFG", 0x1400c, [], [⟨10, 0, .rw, 30⟩, ⟨12, 12, .rw, 0⟩, ⟨23, 16, .rw, 100⟩, ⟨31, 24, .rw, 5⟩], 6⟩,
  ⟨"XCH_RUNVER", 0x14010, [], [⟨31, 0, .ro, 0⟩], 6⟩,
  ⟨"XCH_OTHERVER", 0x14014, [], [⟨31, 0, .ro, 0⟩], 6⟩,
  ⟨"XCH_TMASK0", 0x14018, [], [⟨31, 0, .ro, 0⟩], 6⟩,
  ⟨"XCH_TMASK1", 0x1401c, [], [⟨31, 0, .ro, 0⟩], 6⟩,
  ⟨"XCH_TPEND0", 0x14020, [], [⟨31, 0, .ro, 0⟩], 6⟩,
  ⟨"XCH_TPEND1", 0x14024, [], [⟨31, 0, .ro, 0⟩], 6⟩,
  ⟨"XCH_WINLEFT", 0x14028, [], [⟨16, 0, .ro, 0⟩], 6⟩,
  ⟨"XCH_SWMONO0", 0x1402c, [], [⟨31, 0, .ro, 0⟩], 6⟩,
  ⟨"XCH_SWMONO1", 0x14030, [], [⟨31, 0, .ro, 0⟩], 6⟩,
  ⟨"XCH_CHK", 0x14034, [], [⟨3, 0, .ro, 0⟩, ⟨6, 4, .ro, 0⟩, ⟨27, 16, .ro, 0⟩], 6⟩,
  ⟨"XCH_PAIR", 0x14038, [], [⟨2, 0, .ro, 0⟩, ⟨3, 3, .ro, 0⟩, ⟨4, 4, .w1c, 0⟩, ⟨5, 5, .ro, 0⟩], 6⟩,
  ⟨"XCH_COUNT", 0x1403c, [], [⟨15, 0, .ro, 0⟩, ⟨31, 16, .ro, 0⟩], 6⟩,
  ⟨"XCH_CVCLIP", 0x14040, [], [⟨31, 0, .rc, 0⟩], 6⟩,
  ⟨"XCH_BANKS", 0x14060, [(8, 0x4)], [⟨7, 0, .ro, 0⟩, ⟨15, 8, .ro, 0⟩], 6⟩,
  ⟨"XCH_CCOST", 0x14100, [(64, 0x4)], [⟨31, 0, .ro, 0⟩], 6⟩]

/-- The registers of block HSB. -/
def rowsHSB : List RegRow := [
  ⟨"HSB_CFG", 0x15000, [], [⟨0, 0, .rw, 0⟩, ⟨1, 1, .rw, 1⟩, ⟨15, 4, .rw, 10⟩, ⟨23, 16, .rw, 20⟩], 6⟩,
  ⟨"HSB_PUBCFG", 0x15004, [], [⟨3, 0, .rw, 15⟩, ⟨5, 4, .rw, 1⟩], 6⟩,
  ⟨"HSB_STAT", 0x15008, [], [⟨3, 0, .ro, 0⟩, ⟨7, 4, .ro, 0⟩, ⟨8, 8, .ro, 0⟩, ⟨9, 9, .ro, 0⟩, ⟨11, 10, .ro, 1⟩, ⟨12, 12, .ro, 0⟩, ⟨13, 13, .ro, 0⟩, ⟨14, 14, .ro, 0⟩, ⟨15, 15, .ro, 0⟩, ⟨19, 16, .ro, 0⟩, ⟨20, 20, .ro, 0⟩, ⟨21, 21, .ro, 0⟩, ⟨23, 22, .ro, 0⟩, ⟨24, 24, .ro, 0⟩, ⟨25, 25, .ro, 0⟩], 6⟩,
  ⟨"HSB_EVT", 0x1500c, [], [⟨7, 0, .w1c, 0⟩], 6⟩,
  ⟨"HSB_CMD", 0x15010, [], [⟨3, 0, .wo, 0⟩, ⟨31, 16, .wo, 0⟩], 0⟩,
  ⟨"HSB_CNT", 0x15014, [], [⟨15, 0, .ro, 0⟩, ⟨23, 16, .ro, 0⟩, ⟨31, 24, .ro, 0⟩], 6⟩,
  ⟨"HSB_PATHCNT", 0x15018, [], [⟨15, 0, .ro, 0⟩, ⟨31, 16, .ro, 0⟩], 6⟩,
  ⟨"HSB_LINECNT", 0x1501c, [], [⟨15, 0, .ro, 0⟩, ⟨31, 16, .ro, 0⟩], 6⟩,
  ⟨"HSB_HOLDLEFT", 0x15020, [], [⟨11, 0, .ro, 0⟩, ⟨12, 12, .ro, 0⟩], 6⟩,
  ⟨"HSB_VER", 0x15024, [], [⟨7, 0, .ro, 0⟩, ⟨15, 8, .ro, 0⟩, ⟨16, 16, .ro, 0⟩], 6⟩,
  ⟨"HSB_VLAN", 0x15028, [], [⟨11, 0, .rw, 15⟩, ⟨14, 12, .rw, 7⟩], 6⟩,
  ⟨"HSB_PAIRID0", 0x15030, [], [⟨31, 0, .rw, 0⟩], 6⟩,
  ⟨"HSB_PAIRID1", 0x15034, [], [⟨31, 0, .rw, 0⟩], 6⟩,
  ⟨"HSB_PAIRID2", 0x15038, [], [⟨31, 0, .rw, 0⟩], 6⟩,
  ⟨"HSB_PAIRID3", 0x1503c, [], [⟨31, 0, .rw, 0⟩], 6⟩,
  ⟨"HSB_MONOOFS0", 0x15040, [], [⟨31, 0, .ro, 0⟩], 6⟩,
  ⟨"HSB_MONOOFS1", 0x15044, [], [⟨31, 0, .ro, 0⟩], 6⟩,
  ⟨"HSB_MONOSRC", 0x15048, [], [⟨1, 0, .ro, 0⟩], 6⟩,
  ⟨"HSB_PEERUID0", 0x15050, [], [⟨31, 0, .ro, 0⟩], 6⟩,
  ⟨"HSB_PEERUID1", 0x15054, [], [⟨31, 0, .ro, 0⟩], 6⟩,
  ⟨"HSB_PEERUID2", 0x15058, [], [⟨31, 0, .ro, 0⟩], 6⟩,
  ⟨"HSB_PEERUID3", 0x1505c, [], [⟨31, 0, .ro, 0⟩], 6⟩,
  ⟨"HSB_PEERVER", 0x15060, [], [⟨31, 0, .ro, 0⟩], 6⟩,
  ⟨"HSB_LASTHB", 0x15064, [], [⟨15, 0, .ro, 65535⟩, ⟨31, 16, .ro, 65535⟩], 6⟩,
  ⟨"HSB_MTASK", 0x15080, [(8, 0x4)], [⟨5, 0, .rw, 0⟩, ⟨7, 7, .rw, 0⟩, ⟨28, 8, .rw, 0⟩], 6⟩,
  ⟨"HSB_MSYNC", 0x150a0, [(8, 0x4)], [⟨15, 0, .ro, 0⟩, ⟨23, 16, .ro, 0⟩, ⟨30, 24, .ro, 0⟩, ⟨31, 31, .ro, 0⟩], 6⟩]

/-- The registers of block STD. -/
def rowsSTD : List RegRow := [
  ⟨"STD_CFG", 0x16000, [], [⟨0, 0, .rw, 0⟩, ⟨2, 1, .rw, 0⟩, ⟨3, 3, .rw, 0⟩, ⟨4, 4, .rw, 1⟩, ⟨11, 8, .rw, 1⟩], 6⟩,
  ⟨"STD_CYCLE", 0x16004, [], [⟨16, 0, .rw, 1000⟩, ⟨29, 20, .rw, 512⟩], 6⟩,
  ⟨"STD_PAIRMASK", 0x16008, [], [⟨7, 0, .rw, 0⟩], 6⟩,
  ⟨"STD_CFGHASH", 0x1600c, [], [⟨31, 0, .rw, 0⟩], 6⟩,
  ⟨"STD_ID0", 0x16010, [], [⟨31, 0, .rw, 0⟩], 6⟩,
  ⟨"STD_ID1", 0x16014, [], [⟨31, 0, .rw, 0⟩], 6⟩,
  ⟨"STD_ID2", 0x16018, [], [⟨31, 0, .rw, 0⟩], 6⟩,
  ⟨"STD_ID3", 0x1601c, [], [⟨31, 0, .rw, 0⟩], 6⟩,
  ⟨"STD_STAT", 0x16020, [], [⟨2, 0, .ro, 0⟩, ⟨3, 3, .ro, 0⟩, ⟨4, 4, .ro, 0⟩, ⟨5, 5, .ro, 0⟩, ⟨6, 6, .ro, 0⟩, ⟨11, 8, .w1c, 0⟩, ⟨14, 12, .ro, 0⟩], 6⟩,
  ⟨"STD_PORT", 0x16024, [(2, 0x4)], [⟨0, 0, .ro, 0⟩, ⟨1, 1, .ro, 0⟩, ⟨3, 2, .ro, 0⟩, ⟨11, 8, .ro, 0⟩, ⟨15, 12, .ro, 0⟩, ⟨31, 16, .ro, 0⟩], 6⟩,
  ⟨"STD_REACH", 0x1602c, [], [⟨7, 0, .ro, 0⟩, ⟨15, 8, .ro, 0⟩, ⟨19, 16, .ro, 0⟩], 6⟩,
  ⟨"STD_MONOOFS0", 0x16030, [], [⟨31, 0, .ro, 0⟩], 6⟩,
  ⟨"STD_MONOOFS1", 0x16034, [], [⟨31, 0, .ro, 0⟩], 6⟩,
  ⟨"STD_TOFS", 0x16038, [], [⟨31, 0, .ro, 0⟩], 6⟩,
  ⟨"STD_CYCCNT", 0x1603c, [], [⟨31, 0, .ro, 0⟩], 6⟩,
  ⟨"STD_PSTAT", 0x16040, [(8, 0x4)], [⟨0, 0, .ro, 0⟩, ⟨1, 1, .ro, 1⟩, ⟨2, 2, .ro, 0⟩, ⟨31, 16, .ro, 0⟩], 6⟩,
  ⟨"STD_REPMAX", 0x16060, [], [⟨23, 0, .rc, 0⟩], 6⟩,
  ⟨"STD_LINKCNT", 0x16064, [], [⟨15, 0, .ro, 0⟩, ⟨31, 16, .ro, 0⟩], 6⟩]

/-- The registers of block QUE. -/
def rowsQUE : List RegRow := [
  ⟨"QUE_CFG", 0x20000, [(32, 0x4)], [⟨3, 0, .rw, 0⟩, ⟨4, 4, .rw, 0⟩, ⟨5, 5, .rw, 0⟩, ⟨6, 6, .rw, 0⟩, ⟨7, 7, .rw, 0⟩, ⟨8, 8, .rw, 0⟩], 6⟩,
  ⟨"QUE_QCOUNT", 0x20080, [(32, 0x4)], [⟨12, 0, .ro, 0⟩], 6⟩,
  ⟨"QUE_QLOST", 0x20100, [(32, 0x4)], [⟨31, 0, .rc, 0⟩], 6⟩,
  ⟨"QUE_QITEM", 0x20400, [(32, 0x10)], [⟨31, 0, .ro, 0⟩], 8⟩,
  ⟨"QUE_QITEM", 0x20404, [(32, 0x10)], [⟨31, 0, .ro, 0⟩], 6⟩,
  ⟨"QUE_QITEM", 0x20408, [(32, 0x10)], [⟨31, 0, .ro, 0⟩], 6⟩,
  ⟨"QUE_QITEM", 0x2040c, [(32, 0x10)], [⟨31, 0, .ro, 0⟩], 6⟩,
  ⟨"QUE_QIN", 0x20600, [(32, 0x10), (4, 0x4)], [⟨31, 0, .wo, 0⟩], 0⟩,
  ⟨"QUE_STAT", 0x20800, [], [⟨0, 0, .w1c, 0⟩, ⟨1, 1, .w1c, 0⟩, ⟨2, 2, .w1c, 0⟩, ⟨3, 3, .ro, 0⟩, ⟨31, 16, .ro, 4096⟩], 6⟩,
  ⟨"QUE_REFUSED", 0x20804, [], [⟨31, 0, .rc, 0⟩], 6⟩]

/-- The registers of block HST. -/
def rowsHST : List RegRow := [
  ⟨"HST_LINK", 0x21000, [], [⟨0, 0, .ro, 0⟩, ⟨2, 1, .ro, 0⟩, ⟨4, 3, .ro, 0⟩], 6⟩,
  ⟨"HST_SESSION", 0x21004, [], [⟨7, 0, .ro, 0⟩, ⟨15, 8, .ro, 0⟩, ⟨16, 16, .ro, 0⟩, ⟨17, 17, .ro, 0⟩], 6⟩,
  ⟨"HST_DBELL", 0x21008, [], [⟨3, 0, .wo, 0⟩], 0⟩,
  ⟨"HST_MBSTAT", 0x2100c, [], [⟨3, 0, .ro, 0⟩, ⟨11, 8, .w1c, 0⟩], 0⟩,
  ⟨"HST_PARLEY", 0x21010, [], [⟨5, 0, .ro, 0⟩], 6⟩,
  ⟨"HST_EVT", 0x21014, [], [⟨3, 0, .w1c, 0⟩], 6⟩,
  ⟨"HST_ERRCNT", 0x21018, [], [⟨31, 0, .ro, 0⟩], 6⟩,
  ⟨"HST_PCIID", 0x2101c, [], [⟨15, 0, .ro, 7547⟩, ⟨31, 16, .ro, 36960⟩], 6⟩,
  ⟨"HST_CMDCNT", 0x21020, [], [⟨31, 0, .ro, 0⟩], 6⟩,
  ⟨"HST_LASTCMD", 0x21024, [], [⟨7, 0, .ro, 0⟩, ⟨15, 8, .ro, 0⟩], 6⟩]

/-- The registers of block ETH. -/
def rowsETH : List RegRow := [
  ⟨"ETH_CFG", 0x30000, [(4, 0x1000)], [⟨0, 0, .rw, 0⟩, ⟨1, 1, .rw, 1⟩, ⟨2, 2, .rw, 0⟩, ⟨3, 3, .rw, 0⟩], 6⟩,
  ⟨"ETH_STAT", 0x30004, [(4, 0x1000)], [⟨0, 0, .ro, 0⟩, ⟨1, 1, .ro, 0⟩, ⟨7, 4, .w1c, 0⟩], 6⟩,
  ⟨"ETH_LIM", 0x30008, [(4, 0x1000)], [⟨9, 0, .rw, 950⟩, ⟨25, 16, .rw, 64⟩], 6⟩,
  ⟨"ETH_CMDF_LO", 0x30010, [(4, 0x1000), (4, 0x8)], [⟨31, 0, .rw, 0⟩], 6⟩,
  ⟨"ETH_CMDF_HI", 0x30014, [(4, 0x1000), (4, 0x8)], [⟨15, 0, .rw, 0⟩, ⟨27, 16, .rw, 0⟩, ⟨28, 28, .rw, 0⟩, ⟨31, 31, .rw, 0⟩], 6⟩,
  ⟨"ETH_TSADJ", 0x30030, [(4, 0x1000)], [⟨15, 0, .rw, 0⟩, ⟨31, 16, .rw, 0⟩], 6⟩,
  ⟨"ETH_ASYM", 0x30034, [(4, 0x1000)], [⟨31, 0, .rw, 0⟩], 6⟩,
  ⟨"ETH_PDELAY", 0x30038, [(4, 0x1000)], [⟨31, 0, .ro, 0⟩], 6⟩,
  ⟨"ETH_GUARD", 0x3003c, [(4, 0x1000)], [⟨13, 0, .rw, 12336⟩], 6⟩,
  ⟨"ETH_RXFRAMES", 0x30040, [(4, 0x1000)], [⟨31, 0, .ro, 0⟩], 6⟩,
  ⟨"ETH_RXERR", 0x30044, [(4, 0x1000)], [⟨31, 0, .ro, 0⟩], 6⟩,
  ⟨"ETH_RXLIMDROP", 0x30048, [(4, 0x1000)], [⟨31, 0, .ro, 0⟩], 6⟩,
  ⟨"ETH_RSVFRAMES", 0x3004c, [(4, 0x1000)], [⟨31, 0, .ro, 0⟩], 6⟩,
  ⟨"ETH_RSVDROP", 0x30050, [(4, 0x1000)], [⟨31, 0, .ro, 0⟩], 6⟩,
  ⟨"ETH_FILTDROP", 0x30054, [(4, 0x1000)], [⟨31, 0, .ro, 0⟩], 6⟩,
  ⟨"ETH_TXFRAMES", 0x30058, [(4, 0x1000)], [⟨31, 0, .ro, 0⟩], 6⟩,
  ⟨"ETH_PHYCFG", 0x3005c, [(4, 0x1000)], [⟨4, 0, .rw, 0⟩, ⟨8, 8, .rw, 0⟩], 6⟩,
  ⟨"ETH_LQCFG", 0x30080, [(4, 0x1000), (8, 0x4)], [⟨0, 0, .rw, 0⟩, ⟨1, 1, .rw, 0⟩, ⟨15, 8, .rw, 1⟩], 6⟩,
  ⟨"ETH_LQSTAT", 0x300a0, [(4, 0x1000), (8, 0x4)], [⟨6, 0, .ro, 0⟩, ⟨23, 16, .ro, 0⟩, ⟨31, 24, .ro, 0⟩], 6⟩]

/-- The registers of block SWX. -/
def rowsSWX : List RegRow := [
  ⟨"SWX_CFG", 0x34000, [], [⟨1, 0, .rw, 0⟩, ⟨3, 2, .rw, 0⟩, ⟨4, 4, .rw, 0⟩, ⟨15, 8, .rw, 0⟩], 6⟩,
  ⟨"SWX_MACAB0", 0x34004, [], [⟨31, 0, .rw, 0⟩], 6⟩,
  ⟨"SWX_MACAB1", 0x34008, [], [⟨15, 0, .rw, 0⟩], 6⟩,
  ⟨"SWX_MACCD0", 0x3400c, [], [⟨31, 0, .rw, 0⟩], 6⟩,
  ⟨"SWX_MACCD1", 0x34010, [], [⟨15, 0, .rw, 0⟩], 6⟩,
  ⟨"SWX_PHYCTL", 0x34014, [], [⟨0, 0, .rw, 0⟩, ⟨1, 1, .rw, 0⟩, ⟨2, 2, .ro, 0⟩], 6⟩,
  ⟨"SWX_MDIO", 0x34018, [], [⟨15, 0, .rw, 0⟩, ⟨20, 16, .rw, 0⟩, ⟨25, 21, .rw, 0⟩, ⟨28, 26, .rw, 0⟩, ⟨29, 29, .wo, 0⟩, ⟨30, 30, .ro, 0⟩, ⟨31, 31, .ro, 0⟩], 0⟩,
  ⟨"SWX_BRVLAN", 0x34020, [(8, 0x4)], [⟨11, 0, .rw, 0⟩, ⟨31, 31, .rw, 0⟩], 6⟩,
  ⟨"SWX_STAT", 0x34040, [], [⟨0, 0, .ro, 0⟩, ⟨1, 1, .ro, 0⟩, ⟨2, 2, .ro, 0⟩, ⟨15, 8, .w1c, 0⟩], 6⟩,
  ⟨"SWX_RCNT", 0x34050, [(8, 0x4)], [⟨31, 0, .ro, 0⟩], 6⟩,
  ⟨"SWX_NODECNT", 0x34070, [], [⟨9, 0, .ro, 0⟩, ⟨25, 16, .ro, 0⟩], 6⟩,
  ⟨"SWX_SUBCTL", 0x34080, [], [⟨9, 0, .rw, 0⟩, ⟨16, 16, .wo, 0⟩, ⟨17, 17, .rw, 0⟩, ⟨18, 18, .ro, 0⟩, ⟨19, 19, .ro, 0⟩], 0⟩,
  ⟨"SWX_SUBDATA", 0x34084, [(8, 0x4)], [⟨31, 0, .rw, 0⟩], 0⟩,
  ⟨"SWX_SUBDATA_RO", 0x340a4, [(4, 0x4)], [⟨31, 0, .ro, 0⟩], 0⟩,
  ⟨"SWX_PUBCTL", 0x340c0, [], [⟨6, 0, .rw, 0⟩, ⟨16, 16, .wo, 0⟩, ⟨17, 17, .rw, 0⟩, ⟨18, 18, .ro, 0⟩, ⟨19, 19, .ro, 0⟩], 0⟩,
  ⟨"SWX_PUBDATA", 0x340c4, [(28, 0x4)], [⟨31, 0, .rw, 0⟩], 0⟩,
  ⟨"SWX_PUBDATA_RO", 0x34134, [(4, 0x4)], [⟨31, 0, .ro, 0⟩], 0⟩,
  ⟨"SWX_SUBATTN", 0x34180, [(32, 0x4)], [⟨31, 0, .ro, 0⟩], 6⟩]

/-- The registers of block PTP. -/
def rowsPTP : List RegRow := [
  ⟨"PTP_CFG", 0x35000, [], [⟨0, 0, .rw, 1⟩, ⟨1, 1, .rw, 0⟩, ⟨2, 2, .rw, 0⟩, ⟨15, 8, .rw, 10⟩, ⟨23, 16, .rw, 2⟩], 6⟩,
  ⟨"PTP_STEPLIM", 0x35004, [], [⟨19, 0, .rw, 1000⟩], 6⟩,
  ⟨"PTP_TQCFG", 0x35008, [], [⟨15, 0, .rw, 100⟩], 6⟩,
  ⟨"PTP_STAT", 0x3500c, [], [⟨1, 0, .ro, 3⟩, ⟨3, 2, .ro, 0⟩, ⟨4, 4, .ro, 0⟩, ⟨5, 5, .ro, 0⟩, ⟨6, 6, .w1c, 0⟩, ⟨14, 8, .w1c, 0⟩], 6⟩,
  ⟨"PTP_TNS", 0x35010, [], [⟨29, 0, .ro, 0⟩, ⟨31, 30, .ro, 3⟩], 6⟩,
  ⟨"PTP_TSEC0", 0x35014, [], [⟨31, 0, .ro, 0⟩], 6⟩,
  ⟨"PTP_TSEC1", 0x35018, [], [⟨31, 0, .ro, 0⟩], 6⟩,
  ⟨"PTP_TMONO0", 0x3501c, [], [⟨31, 0, .ro, 0⟩], 6⟩,
  ⟨"PTP_TMONO1", 0x35020, [], [⟨31, 0, .ro, 0⟩], 6⟩,
  ⟨"PTP_SLEWLEFT", 0x35024, [], [⟨31, 0, .ro, 0⟩], 6⟩,
  ⟨"PTP_ERREST", 0x35028, [], [⟨31, 0, .ro, 4294967295⟩], 6⟩,
  ⟨"PTP_EPOCHEXT", 0x3502c, [], [⟨15, 0, .rw, 0⟩], 6⟩,
  ⟨"PTP_UTC", 0x35030, [], [⟨15, 0, .ro, 0⟩, ⟨16, 16, .ro, 0⟩, ⟨17, 17, .ro, 0⟩, ⟨18, 18, .ro, 0⟩], 6⟩,
  ⟨"PTP_STEPCNT", 0x35034, [], [⟨31, 0, .ro, 0⟩], 6⟩,
  ⟨"PTP_LASTSTEP", 0x35038, [], [⟨31, 0, .ro, 0⟩], 6⟩,
  ⟨"PTP_SETNS", 0x35040, [], [⟨31, 0, .rw, 0⟩], 0⟩,
  ⟨"PTP_SETSEC0", 0x35044, [], [⟨31, 0, .rw, 0⟩], 0⟩,
  ⟨"PTP_SETSEC1", 0x35048, [], [⟨31, 0, .rw, 0⟩], 0⟩,
  ⟨"PTP_CMD", 0x3504c, [], [⟨3, 0, .wo, 0⟩, ⟨31, 16, .wo, 0⟩], 0⟩,
  ⟨"PTP_DCFG", 0x35080, [(2, 0x40)], [⟨0, 0, .rw, 0⟩, ⟨1, 1, .rw, 0⟩, ⟨15, 8, .rw, 0⟩, ⟨19, 16, .rw, 0⟩, ⟨21, 20, .rw, 0⟩], 6⟩,
  ⟨"PTP_DPRIO", 0x35084, [(2, 0x40)], [⟨7, 0, .rw, 128⟩, ⟨15, 8, .rw, 128⟩, ⟨23, 16, .rw, 6⟩], 6⟩,
  ⟨"PTP_DSTAT", 0x35088, [(2, 0x40)], [⟨1, 0, .ro, 0⟩, ⟨15, 8, .ro, 0⟩, ⟨23, 16, .ro, 0⟩, ⟨27, 24, .ro, 0⟩, ⟨28, 28, .ro, 0⟩], 6⟩,
  ⟨"PTP_DOFS", 0x3508c, [(2, 0x40)], [⟨31, 0, .ro, 0⟩], 6⟩,
  ⟨"PTP_DFREQ", 0x35090, [(2, 0x40)], [⟨31, 0, .ro, 0⟩], 6⟩,
  ⟨"PTP_DGMID0", 0x35094, [(2, 0x40)], [⟨31, 0, .ro, 0⟩], 6⟩,
  ⟨"PTP_DGMID1", 0x35098, [(2, 0x40)], [⟨31, 0, .ro, 0⟩], 6⟩,
  ⟨"PTP_DSYNC", 0x3509c, [(2, 0x40)], [⟨31, 0, .ro, 0⟩], 6⟩,
  ⟨"PTP_PSTAT", 0x35100, [(4, 0x4)], [⟨3, 0, .ro, 0⟩, ⟨7, 4, .ro, 0⟩, ⟨8, 8, .ro, 0⟩], 6⟩,
  ⟨"PTP_IRIGCFG", 0x35120, [], [⟨0, 0, .rw, 0⟩, ⟨1, 1, .rw, 0⟩, ⟨15, 8, .rw, 37⟩, ⟨16, 16, .rw, 0⟩], 6⟩,
  ⟨"PTP_IRIGSTAT", 0x35124, [], [⟨0, 0, .ro, 0⟩, ⟨1, 1, .ro, 0⟩, ⟨2, 2, .ro, 0⟩, ⟨15, 8, .ro, 0⟩], 6⟩,
  ⟨"PTP_PPSOUT", 0x35128, [], [⟨0, 0, .rw, 0⟩, ⟨1, 1, .rw, 0⟩, ⟨3, 2, .rw, 1⟩, ⟨13, 4, .rw, 100⟩], 6⟩,
  ⟨"PTP_PPSOFS", 0x3512c, [], [⟨31, 0, .rw, 0⟩], 6⟩,
  ⟨"PTP_PPSINNS", 0x35130, [], [⟨29, 0, .ro, 0⟩], 6⟩,
  ⟨"PTP_PPSINSEC0", 0x35134, [], [⟨31, 0, .ro, 0⟩], 6⟩]

/-- The registers of block CAN. -/
def rowsCAN : List RegRow := [
  ⟨"CAN_CFG", 0x40000, [(4, 0x1000)], [⟨0, 0, .rw, 1⟩, ⟨1, 1, .rw, 0⟩, ⟨2, 2, .rw, 0⟩, ⟨3, 3, .rw, 0⟩, ⟨5, 4, .rw, 0⟩], 6⟩,
  ⟨"CAN_CTL", 0x40004, [(4, 0x1000)], [⟨1, 0, .rw, 3⟩], 6⟩,
  ⟨"CAN_NBT", 0x40008, [(4, 0x1000)], [⟨7, 0, .rw, 9⟩, ⟨15, 8, .rw, 39⟩, ⟨22, 16, .rw, 10⟩, ⟨30, 24, .rw, 10⟩], 6⟩,
  ⟨"CAN_DBT", 0x4000c, [(4, 0x1000)], [⟨4, 0, .rw, 3⟩, ⟨12, 8, .rw, 19⟩, ⟨19, 16, .rw, 5⟩, ⟨27, 24, .rw, 5⟩], 6⟩,
  ⟨"CAN_TDC", 0x40010, [(4, 0x1000)], [⟨0, 0, .rw, 1⟩, ⟨14, 8, .rw, 20⟩], 6⟩,
  ⟨"CAN_STAT", 0x40014, [(4, 0x1000)], [⟨1, 0, .ro, 0⟩, ⟨3, 2, .ro, 3⟩, ⟨4, 4, .ro, 0⟩, ⟨5, 5, .w1c, 0⟩, ⟨11, 8, .w1c, 0⟩, ⟨12, 12, .w1c, 0⟩], 6⟩,
  ⟨"CAN_ERRCNT", 0x40018, [(4, 0x1000)], [⟨7, 0, .ro, 0⟩, ⟨14, 8, .ro, 0⟩, ⟨31, 16, .ro, 0⟩], 6⟩,
  ⟨"CAN_LASTERR", 0x4001c, [(4, 0x1000)], [⟨2, 0, .rc, 0⟩, ⟨3, 3, .rc, 0⟩], 6⟩,
  ⟨"CAN_RXSTAT", 0x40020, [(4, 0x1000)], [⟨5, 0, .ro, 0⟩, ⟨15, 8, .rc, 0⟩, ⟨31, 16, .rc, 0⟩], 6⟩,
  ⟨"CAN_FCMD", 0x40024, [(4, 0x1000)], [⟨3, 0, .wo, 0⟩, ⟨11, 8, .wo, 0⟩], 6⟩,
  ⟨"CAN_REFCFG", 0x40028, [(4, 0x1000)], [⟨10, 0, .rw, 16⟩, ⟨31, 12, .rw, 1000⟩], 6⟩,
  ⟨"CAN_TOFS", 0x4002c, [(4, 0x1000)], [⟨31, 0, .ro, 0⟩], 6⟩,
  ⟨"CAN_TCYC", 0x40030, [(4, 0x1000)], [⟨15, 0, .ro, 0⟩, ⟨16, 16, .ro, 0⟩], 6⟩,
  ⟨"CAN_FCYC", 0x40034, [(4, 0x1000)], [⟨19, 0, .rw, 1000⟩, ⟨27, 20, .ro, 0⟩], 6⟩,
  ⟨"CAN_TXID", 0x40040, [(4, 0x1000), (3, 0x60)], [⟨28, 0, .rw, 0⟩], 6⟩,
  ⟨"CAN_TXCTL", 0x40044, [(4, 0x1000), (3, 0x60)], [⟨3, 0, .rw, 0⟩, ⟨4, 4, .rw, 0⟩, ⟨5, 5, .rw, 0⟩, ⟨6, 6, .rw, 0⟩, ⟨7, 7, .rw, 1⟩, ⟨8, 8, .wo, 0⟩, ⟨9, 9, .ro, 0⟩, ⟨10, 10, .w1c, 0⟩, ⟨11, 11, .wo, 0⟩, ⟨12, 12, .w1c, 0⟩, ⟨13, 13, .rw, 0⟩, ⟨14, 14, .ro, 0⟩], 6⟩,
  ⟨"CAN_TXSTAMP", 0x40048, [(4, 0x1000), (3, 0x60)], [⟨31, 0, .ro, 0⟩], 6⟩,
  ⟨"CAN_TXDATA", 0x40050, [(4, 0x1000), (3, 0x60), (16, 0x4)], [⟨31, 0, .rw, 0⟩], 6⟩,
  ⟨"CAN_RXF", 0x40180, [(4, 0x1000), (20, 0x4)], [⟨31, 0, .ro, 0⟩], 6⟩,
  ⟨"CAN_FID", 0x40200, [(4, 0x1000), (64, 0x8)], [⟨28, 0, .rw, 0⟩, ⟨29, 29, .rw, 0⟩, ⟨31, 30, .rw, 0⟩], 6⟩,
  ⟨"CAN_FMASK", 0x40204, [(4, 0x1000), (64, 0x8)], [⟨28, 0, .rw, 0⟩], 6⟩,
  ⟨"CAN_WAKEID", 0x40400, [(4, 0x1000)], [⟨28, 0, .rw, 0⟩, ⟨29, 29, .rw, 0⟩], 6⟩,
  ⟨"CAN_WAKEMASK", 0x40404, [(4, 0x1000)], [⟨28, 0, .rw, 0⟩, ⟨29, 29, .rw, 0⟩], 6⟩,
  ⟨"CAN_WAKED0", 0x40408, [(4, 0x1000)], [⟨31, 0, .rw, 0⟩], 6⟩,
  ⟨"CAN_WAKED1", 0x4040c, [(4, 0x1000)], [⟨31, 0, .rw, 0⟩], 6⟩,
  ⟨"CAN_WAKEDM0", 0x40410, [(4, 0x1000)], [⟨31, 0, .rw, 0⟩], 6⟩,
  ⟨"CAN_WAKEDM1", 0x40414, [(4, 0x1000)], [⟨31, 0, .rw, 0⟩], 6⟩,
  ⟨"CAN_STACFG", 0x40500, [(4, 0x1000), (16, 0x10)], [⟨0, 0, .rw, 0⟩, ⟨12, 8, .rw, 0⟩, ⟨20, 16, .rw, 0⟩, ⟨27, 24, .rw, 2⟩], 6⟩,
  ⟨"CAN_STASTAT", 0x40504, [(4, 0x1000), (16, 0x10)], [⟨2, 0, .ro, 0⟩, ⟨3, 3, .ro, 1⟩, ⟨4, 4, .ro, 0⟩, ⟨5, 5, .ro, 0⟩, ⟨11, 8, .ro, 0⟩, ⟨15, 12, .ro, 0⟩, ⟨23, 16, .ro, 0⟩], 6⟩,
  ⟨"CAN_STACNT", 0x40508, [(4, 0x1000), (16, 0x10)], [⟨15, 0, .ro, 0⟩, ⟨31, 16, .ro, 0⟩], 6⟩]

/-- The registers of block BIO. -/
def rowsBIO : List RegRow := [
  ⟨"BIO_CTL", 0x50000, [], [⟨0, 0, .rw, 1⟩], 6⟩,
  ⟨"BIO_STAT", 0x50004, [], [⟨11, 8, .w1c, 0⟩], 6⟩,
  ⟨"BIO_BI0", 0x50008, [], [⟨31, 0, .ro, 0⟩], 6⟩,
  ⟨"BIO_BI1", 0x5000c, [], [⟨31, 0, .ro, 0⟩], 6⟩,
  ⟨"BIO_BI2", 0x50010, [], [⟨31, 0, .ro, 0⟩], 6⟩,
  ⟨"BIO_BIRAW0", 0x50014, [], [⟨31, 0, .ro, 0⟩], 6⟩,
  ⟨"BIO_BIRAW1", 0x50018, [], [⟨31, 0, .ro, 0⟩], 6⟩,
  ⟨"BIO_BIRAW2", 0x5001c, [], [⟨31, 0, .ro, 0⟩], 6⟩,
  ⟨"BIO_BO0", 0x50020, [], [⟨31, 0, .ro, 0⟩], 6⟩,
  ⟨"BIO_BO1", 0x50024, [], [⟨31, 0, .ro, 0⟩], 6⟩,
  ⟨"BIO_BRB", 0x50028, [], [⟨31, 0, .ro, 0⟩], 6⟩,
  ⟨"BIO_MMLIVE", 0x5002c, [], [⟨31, 0, .ro, 0⟩], 6⟩,
  ⟨"BIO_MM", 0x50030, [], [⟨31, 0, .w1c, 0⟩], 6⟩,
  ⟨"BIO_BOSAFE0", 0x50034, [], [⟨31, 0, .rw, 0⟩], 6⟩,
  ⟨"BIO_BOSAFE1", 0x50038, [], [⟨31, 0, .rw, 0⟩], 6⟩,
  ⟨"BIO_RBINV", 0x5003c, [], [⟨31, 0, .rw, 0⟩], 6⟩,
  ⟨"BIO_RBEN", 0x50040, [], [⟨31, 0, .rw, 0⟩], 6⟩,
  ⟨"BIO_EVEN0", 0x50044, [], [⟨31, 0, .rw, 0⟩], 6⟩,
  ⟨"BIO_EVEN1", 0x50048, [], [⟨31, 0, .rw, 0⟩], 6⟩,
  ⟨"BIO_EVEN2", 0x5004c, [], [⟨31, 0, .rw, 0⟩], 6⟩,
  ⟨"BIO_SOEPEV0", 0x50050, [], [⟨31, 0, .rw, 0⟩], 6⟩,
  ⟨"BIO_SOEPEV1", 0x50054, [], [⟨31, 0, .rw, 0⟩], 6⟩,
  ⟨"BIO_SOESTA0", 0x50058, [], [⟨31, 0, .rw, 0⟩], 6⟩,
  ⟨"BIO_SOESTA1", 0x5005c, [], [⟨31, 0, .rw, 0⟩], 6⟩,
  ⟨"BIO_MMCNT", 0x50060, [], [⟨31, 0, .ro, 0⟩], 6⟩,
  ⟨"BIO_REJCNT", 0x50064, [], [⟨31, 0, .ro, 0⟩], 6⟩,
  ⟨"BIO_SOECNT", 0x50068, [], [⟨31, 0, .ro, 0⟩], 6⟩,
  ⟨"BIO_BICFG", 0x50100, [(96, 0x4)], [⟨13, 0, .rw, 0⟩, ⟨16, 16, .rw, 0⟩, ⟨17, 17, .rw, 0⟩, ⟨18, 18, .rw, 0⟩], 6⟩,
  ⟨"BIO_RBCFG", 0x50300, [(32, 0x4)], [⟨15, 0, .rw, 0⟩], 6⟩]

/-- The registers of block ADC. -/
def rowsADC : List RegRow := [
  ⟨"ADC_CFG", 0x51000, [], [⟨23, 0, .rw, 16777215⟩], 6⟩,
  ⟨"ADC_STAT", 0x51004, [], [⟨0, 0, .ro, 0⟩, ⟨1, 1, .ro, 0⟩, ⟨11, 8, .w1c, 0⟩], 6⟩,
  ⟨"ADC_FAULT", 0x51008, [], [⟨23, 0, .ro, 0⟩], 6⟩,
  ⟨"ADC_OVR", 0x5100c, [], [⟨23, 0, .w1c, 0⟩], 6⟩,
  ⟨"ADC_RMSCFG", 0x51010, [], [⟨12, 0, .rw, 1920⟩], 6⟩,
  ⟨"ADC_THREVT", 0x51020, [(8, 0x4)], [⟨31, 0, .rw, 0⟩], 6⟩,
  ⟨"ADC_THRBIT", 0x51040, [(8, 0x4)], [⟨31, 0, .ro, 0⟩], 6⟩,
  ⟨"ADC_GAIN", 0x51100, [(24, 0x10)], [⟨23, 0, .rw, 4194304⟩], 6⟩,
  ⟨"ADC_OFS", 0x51104, [(24, 0x10)], [⟨23, 0, .rw, 0⟩], 6⟩,
  ⟨"ADC_PHASE", 0x51108, [(24, 0x10)], [⟨19, 0, .rw, 0⟩], 6⟩,
  ⟨"ADC_RMS", 0x5110c, [(24, 0x10)], [⟨23, 0, .ro, 0⟩], 6⟩,
  ⟨"ADC_SAMP", 0x51280, [(24, 0x4)], [⟨31, 0, .ro, 0⟩], 6⟩,
  ⟨"ADC_THR0", 0x51400, [(256, 0x8)], [⟨4, 0, .rw, 0⟩, ⟨6, 5, .rw, 0⟩, ⟨7, 7, .rw, 0⟩, ⟨31, 8, .rw, 0⟩], 6⟩,
  ⟨"ADC_THR1", 0x51404, [(256, 0x8)], [⟨23, 0, .rw, 0⟩, ⟨31, 24, .rw, 1⟩], 6⟩]

/-- The registers of block NVS. -/
def rowsNVS : List RegRow := [
  ⟨"NVS_STAT", 0x60000, [], [⟨0, 0, .ro, 0⟩, ⟨11, 8, .w1c, 0⟩, ⟨12, 12, .w1c, 0⟩, ⟨13, 13, .w1c, 0⟩, ⟨14, 14, .w1c, 0⟩], 6⟩,
  ⟨"NVS_ECC", 0x60004, [], [⟨15, 0, .rc, 0⟩], 6⟩,
  ⟨"NVS_DEDADDR", 0x60008, [], [⟨19, 0, .ro, 0⟩, ⟨31, 31, .w1c, 0⟩], 6⟩,
  ⟨"NVS_REFCNT", 0x6000c, [], [⟨15, 0, .rc, 0⟩, ⟨31, 16, .rc, 0⟩], 6⟩,
  ⟨"NVS_WRCNT", 0x60010, [], [⟨31, 0, .ro, 0⟩], 6⟩,
  ⟨"NVS_PFADDR", 0x60014, [], [⟨19, 0, .ro, 0⟩, ⟨31, 31, .w1c, 0⟩], 6⟩,
  ⟨"NVS_JHEAD", 0x60018, [], [⟨31, 0, .ro, 0⟩], 6⟩,
  ⟨"NVS_JSLOT", 0x6001c, [], [⟨10, 0, .ro, 0⟩], 6⟩,
  ⟨"NVS_RECCNT", 0x60020, [], [⟨8, 0, .ro, 0⟩], 6⟩,
  ⟨"NVS_RECNEW", 0x60400, [(256, 0x4)], [⟨13, 0, .ro, 0⟩, ⟨19, 14, .ro, 0⟩, ⟨27, 20, .ro, 0⟩, ⟨28, 28, .ro, 0⟩, ⟨29, 29, .ro, 0⟩, ⟨30, 30, .ro, 0⟩, ⟨31, 31, .ro, 0⟩], 6⟩]

/-- The registers of block RTC. -/
def rowsRTC : List RegRow := [
  ⟨"RTC_CTL", 0x61000, [], [⟨0, 0, .rw, 0⟩, ⟨8, 8, .wo, 0⟩, ⟨9, 9, .wo, 0⟩, ⟨16, 16, .wo, 0⟩], 6⟩,
  ⟨"RTC_STAT", 0x61004, [], [⟨0, 0, .ro, 0⟩, ⟨1, 1, .w1c, 1⟩, ⟨2, 2, .ro, 0⟩, ⟨3, 3, .ro, 0⟩, ⟨4, 4, .ro, 0⟩, ⟨5, 5, .ro, 0⟩, ⟨11, 8, .w1c, 0⟩], 6⟩,
  ⟨"RTC_ERR", 0x61008, [], [⟨0, 0, .w1c, 0⟩, ⟨1, 1, .w1c, 0⟩, ⟨2, 2, .w1c, 0⟩, ⟨3, 3, .w1c, 0⟩, ⟨4, 4, .w1c, 0⟩, ⟨5, 5, .w1c, 0⟩, ⟨6, 6, .w1c, 0⟩, ⟨7, 7, .w1c, 0⟩], 6⟩,
  ⟨"RTC_SUBSEC", 0x61010, [], [⟨14, 0, .rw, 0⟩], 6⟩,
  ⟨"RTC_SEC", 0x61014, [], [⟨5, 0, .rw, 0⟩], 6⟩,
  ⟨"RTC_MIN", 0x61018, [], [⟨5, 0, .rw, 0⟩], 6⟩,
  ⟨"RTC_HOUR", 0x6101c, [], [⟨4, 0, .rw, 0⟩], 6⟩,
  ⟨"RTC_DAY", 0x61020, [], [⟨4, 0, .rw, 1⟩], 6⟩,
  ⟨"RTC_MONTH", 0x61024, [], [⟨3, 0, .rw, 1⟩], 6⟩,
  ⟨"RTC_YEAR", 0x61028, [], [⟨15, 0, .rw, 2000⟩], 6⟩,
  ⟨"RTC_ALM0", 0x61040, [], [⟨5, 0, .rw, 0⟩, ⟨13, 8, .rw, 0⟩, ⟨20, 16, .rw, 0⟩, ⟨28, 24, .rw, 1⟩], 6⟩,
  ⟨"RTC_ALM1", 0x61044, [], [⟨3, 0, .rw, 1⟩, ⟨31, 16, .rw, 2000⟩], 6⟩,
  ⟨"RTC_ALMCTL", 0x61048, [], [⟨0, 0, .rw, 0⟩, ⟨1, 1, .w1c, 0⟩, ⟨2, 2, .w1c, 0⟩], 6⟩,
  ⟨"RTC_HELD", 0x61050, [], [⟨16, 0, .ro, 0⟩], 6⟩,
  ⟨"RTC_WAKEPER", 0x61054, [], [⟨24, 0, .rw, 0⟩], 6⟩,
  ⟨"RTC_TWPOS", 0x61058, [], [⟨22, 0, .ro, 0⟩], 6⟩,
  ⟨"RTC_WAKECNT", 0x61060, [], [⟨31, 0, .ro, 0⟩], 6⟩,
  ⟨"RTC_TRIM", 0x61064, [], [⟨11, 0, .rw, 0⟩], 6⟩,
  ⟨"RTC_MEASWIN", 0x61068, [], [⟨16, 0, .rw, 4096⟩], 6⟩,
  ⟨"RTC_TRIMPROP", 0x6106c, [], [⟨11, 0, .ro, 0⟩], 6⟩,
  ⟨"RTC_MEASPPB", 0x61070, [], [⟨31, 0, .ro, 0⟩], 6⟩,
  ⟨"RTC_BRAM", 0x61100, [(32, 0x4)], [⟨31, 0, .rw, 0⟩], 6⟩]

/-- The registers of block SEC. -/
def rowsSEC : List RegRow := [
  ⟨"SEC_STAT", 0x70000, [], [⟨0, 0, .ro, 0⟩, ⟨1, 1, .ro, 1⟩, ⟨3, 2, .ro, 1⟩, ⟨7, 4, .ro, 0⟩, ⟨11, 8, .ro, 0⟩, ⟨12, 12, .ro, 0⟩, ⟨13, 13, .ro, 0⟩, ⟨14, 14, .ro, 0⟩, ⟨15, 15, .ro, 0⟩, ⟨16, 16, .ro, 0⟩], 6⟩,
  ⟨"SEC_EVT", 0x70004, [], [⟨3, 0, .w1c, 0⟩], 6⟩,
  ⟨"SEC_WINCFG", 0x70008, [], [⟨10, 0, .rw, 240⟩], 0⟩,
  ⟨"SEC_WINLEFT", 0x7000c, [], [⟨16, 0, .ro, 0⟩], 6⟩,
  ⟨"SEC_PWD", 0x70010, [], [⟨7, 0, .ro, 0⟩, ⟨28, 16, .ro, 0⟩], 6⟩,
  ⟨"SEC_AUTHCNT", 0x70014, [], [⟨15, 0, .ro, 0⟩, ⟨31, 16, .ro, 0⟩], 6⟩,
  ⟨"SEC_CHAL", 0x70020, [(8, 0x4)], [⟨31, 0, .ro, 0⟩], 0⟩,
  ⟨"SEC_KEYHASH", 0x70100, [(4, 0x20), (8, 0x4)], [⟨31, 0, .ro, 0⟩], 0⟩,
  ⟨"SEC_ROOTHASH", 0x70180, [(8, 0x4)], [⟨31, 0, .ro, 0⟩], 0⟩,
  ⟨"SEC_ATTPK", 0x701a0, [(8, 0x4)], [⟨31, 0, .ro, 0⟩], 6⟩,
  ⟨"SEC_SECVER", 0x701c0, [], [⟨5, 0, .ro, 0⟩, ⟨13, 8, .ro, 0⟩, ⟨21, 16, .ro, 0⟩, ⟨29, 24, .ro, 0⟩], 6⟩]

/-- The registers of block UPD. -/
def rowsUPD : List RegRow := [
  ⟨"UPD_CFG", 0x71000, [], [⟨10, 0, .rw, 30⟩, ⟨21, 16, .rw, 5⟩], 0⟩,
  ⟨"UPD_STAT", 0x71004, [], [⟨1, 0, .ro, 0⟩, ⟨2, 2, .ro, 1⟩, ⟨6, 4, .ro, 0⟩, ⟨11, 8, .w1c, 0⟩], 6⟩,
  ⟨"UPD_BLKERR", 0x71008, [], [⟨31, 0, .ro, 0⟩], 6⟩,
  ⟨"UPD_FLASHERR", 0x7100c, [], [⟨31, 0, .ro, 0⟩], 6⟩,
  ⟨"UPD_CSTAT", 0x71100, [(4, 0x20)], [⟨2, 0, .ro, 0⟩, ⟨4, 4, .ro, 0⟩, ⟨5, 5, .ro, 0⟩, ⟨11, 8, .ro, 0⟩, ⟨14, 12, .ro, 0⟩], 6⟩,
  ⟨"UPD_ACTVER", 0x71104, [(4, 0x20)], [⟨31, 0, .ro, 0⟩], 6⟩,
  ⟨"UPD_STGVER", 0x71108, [(4, 0x20)], [⟨31, 0, .ro, 0⟩], 6⟩,
  ⟨"UPD_NBLK", 0x7110c, [(4, 0x20)], [⟨13, 0, .ro, 0⟩, ⟨29, 16, .ro, 0⟩], 6⟩,
  ⟨"UPD_WINLEFT", 0x71110, [(4, 0x20)], [⟨16, 0, .ro, 0⟩], 6⟩]

/-- R33, 01_device_organisation.md. -/
def Reg.SYS_IDCODE : Nat := 0x0
/-- R33, 01_device_organisation.md. -/
def Reg.SYS_UID0 : Nat := 0x4
/-- R33, 01_device_organisation.md. -/
def Reg.SYS_UID1 : Nat := 0x8
/-- R33, 01_device_organisation.md. -/
def Reg.SYS_UID2 : Nat := 0xc
/-- R33, 01_device_organisation.md. -/
def Reg.SYS_UID3 : Nat := 0x10
/-- R33, 01_device_organisation.md. -/
def Reg.SYS_CAPS : Nat := 0x14
/-- R33, 01_device_organisation.md. -/
def Reg.SYS_ROMVER : Nat := 0x18
/-- R33, 01_device_organisation.md. -/
def Reg.SYS_FWVER : Nat := 0x1c
/-- R33, 01_device_organisation.md. -/
def Reg.SYS_NETFWVER : Nat := 0x20
/-- R33, 01_device_organisation.md. -/
def Reg.SYS_PMUFWVER : Nat := 0x24
/-- R33, 01_device_organisation.md. -/
def Reg.SYS_STRAPS : Nat := 0x28
/-- R33, 01_device_organisation.md. -/
def Reg.SYS_BOOT : Nat := 0x2c
/-- R33, 01_device_organisation.md. -/
def Reg.SYS_MODE : Nat := 0x30
/-- R34, 01_device_organisation.md. -/
def Reg.SYS_BADADDR : Nat := 0x34
/-- R34, 01_device_organisation.md. -/
def Reg.SYS_MONO0 : Nat := 0x38
/-- R34, 01_device_organisation.md. -/
def Reg.SYS_MONO1 : Nat := 0x3c
/-- R34, 01_device_organisation.md. -/
def Reg.SYS_IFVER (i : Nat) : Nat := 0x80 + 0x4 * i
/-- R34, 01_device_organisation.md. -/
def Reg.SYS_PATH0 : Nat := 0x98
/-- R34, 01_device_organisation.md. -/
def Reg.SYS_PATH1 : Nat := 0x9c
/-- R34, 01_device_organisation.md. -/
def Reg.SYS_PATH2 : Nat := 0xa0
/-- R34, 01_device_organisation.md. -/
def Reg.SYS_PATH3 : Nat := 0xa4
/-- R34, 01_device_organisation.md. -/
def Reg.SYS_PATHCTL : Nat := 0xa8
/-- R34, 01_device_organisation.md. -/
def Reg.SYS_SELFPATH0 : Nat := 0xb0
/-- R34, 01_device_organisation.md. -/
def Reg.SYS_SELFPATH1 : Nat := 0xb4
/-- R34, 01_device_organisation.md. -/
def Reg.SYS_SELFPATH2 : Nat := 0xb8
/-- R34, 01_device_organisation.md. -/
def Reg.SYS_SELFPATH3 : Nat := 0xbc
/-- R32, 01_device_organisation.md. -/
def Reg.SYS_UCBWIN (w : Nat) : Nat := 0xc0 + 0x4 * w
/-- R34, 01_device_organisation.md. -/
def Reg.SYS_RESET : Nat := 0x100
/-- R35, 01_device_organisation.md. -/
def Reg.SYS_ECC : Nat := 0x104
/-- R413, 16_supervision_and_power.md. -/
def Reg.SUP_STAT : Nat := 0x1000
/-- R413, 16_supervision_and_power.md. -/
def Reg.SUP_EVT : Nat := 0x1004
/-- R413, 16_supervision_and_power.md. -/
def Reg.SUP_CTL : Nat := 0x1008
/-- R413, 16_supervision_and_power.md. -/
def Reg.SUP_RSTCAUSE : Nat := 0x100c
/-- R413, 16_supervision_and_power.md. -/
def Reg.SUP_RSTCNT : Nat := 0x1010
/-- R413, 16_supervision_and_power.md. -/
def Reg.SUP_CAUSECNT0 : Nat := 0x1014
/-- R413, 16_supervision_and_power.md. -/
def Reg.SUP_CAUSECNT1 : Nat := 0x1018
/-- R413, 16_supervision_and_power.md. -/
def Reg.SUP_LGSEQ : Nat := 0x101c
/-- R413, 16_supervision_and_power.md. -/
def Reg.SUP_SLEEPDUR : Nat := 0x1020
/-- R413, 16_supervision_and_power.md. -/
def Reg.SUP_SLEEPCNT : Nat := 0x1024
/-- R413, 16_supervision_and_power.md. -/
def Reg.CLK_STAT : Nat := 0x2000
/-- R413, 16_supervision_and_power.md. -/
def Reg.CLK_RCMEAS : Nat := 0x2004
/-- R413, 16_supervision_and_power.md. -/
def Reg.CLK_UNLOCK : Nat := 0x2008
/-- R414, 16_supervision_and_power.md. -/
def Reg.PMU_STAT : Nat := 0x3000
/-- R414, 16_supervision_and_power.md. -/
def Reg.PMU_VINCFG : Nat := 0x3004
/-- R414, 16_supervision_and_power.md. -/
def Reg.PMU_HOLDCFG : Nat := 0x3008
/-- R414, 16_supervision_and_power.md. -/
def Reg.PMU_RETCFG : Nat := 0x300c
/-- R414, 16_supervision_and_power.md. -/
def Reg.PMU_VIN : Nat := 0x3010
/-- R414, 16_supervision_and_power.md. -/
def Reg.PMU_RAILCNT : Nat := 0x3014
/-- R414, 16_supervision_and_power.md. -/
def Reg.PMU_TEL (r : Nat) : Nat := 0x3020 + 0x4 * r
/-- R414, 16_supervision_and_power.md. -/
def Reg.PMU_TEMP (k : Nat) : Nat := 0x3040 + 0x4 * k
/-- R414, 16_supervision_and_power.md. -/
def Reg.PMU_TEMPLIM : Nat := 0x3050
/-- R414, 16_supervision_and_power.md. -/
def Reg.PMU_HOLDCNT : Nat := 0x3054
/-- R414, 16_supervision_and_power.md. -/
def Reg.PMU_SEQTIME : Nat := 0x3058
/-- R415, 16_supervision_and_power.md. -/
def Reg.WDT_CFG : Nat := 0x4000
/-- R415, 16_supervision_and_power.md. -/
def Reg.WDT_SERVE : Nat := 0x4004
/-- R415, 16_supervision_and_power.md. -/
def Reg.WDT_CNT : Nat := 0x4008
/-- R415, 16_supervision_and_power.md. -/
def Reg.WDT_STAT : Nat := 0x400c
/-- R415, 16_supervision_and_power.md. -/
def Reg.WDT_EARLY : Nat := 0x4010
/-- R415, 16_supervision_and_power.md. -/
def Reg.WDT_RSTCOUNT : Nat := 0x4014
/-- R415, 16_supervision_and_power.md. -/
def Reg.WDT_TMCFG : Nat := 0x4018
/-- R415, 16_supervision_and_power.md. -/
def Reg.WDT_TMFLT0 : Nat := 0x401c
/-- R415, 16_supervision_and_power.md. -/
def Reg.WDT_TMFLT1 : Nat := 0x4020
/-- R342, 13_queues_host_interrupts.md. -/
def Reg.INT_RAISE : Nat := 0x5004
/-- R342, 13_queues_host_interrupts.md. -/
def Reg.INT_PINCFG (p : Nat) : Nat := 0x5010 + 0x4 * p
/-- R342, 13_queues_host_interrupts.md. -/
def Reg.INT_PEND (j : Nat) : Nat := 0x5040 + 0x4 * j
/-- R342, 13_queues_host_interrupts.md. -/
def Reg.INT_EN (j : Nat) : Nat := 0x5060 + 0x4 * j
/-- R342, 13_queues_host_interrupts.md. -/
def Reg.INT_FIRST : Nat := 0x5080
/-- R342, 13_queues_host_interrupts.md. -/
def Reg.INT_SRCCFG (i : Nat) : Nat := 0x5100 + 0x4 * i
/-- R64, 02_execution_model.md. -/
def Reg.TSK_CFG (n : Nat) : Nat := 0x10000 + 0x20 * n
/-- R64, 02_execution_model.md. -/
def Reg.TSK_PERIOD (n : Nat) : Nat := 0x10004 + 0x20 * n
/-- R64, 02_execution_model.md. -/
def Reg.TSK_PHASE (n : Nat) : Nat := 0x10008 + 0x20 * n
/-- R64, 02_execution_model.md. -/
def Reg.TSK_BUDGET (n : Nat) : Nat := 0x1000c + 0x20 * n
/-- R64, 02_execution_model.md. -/
def Reg.TSK_USED (n : Nat) : Nat := 0x10010 + 0x20 * n
/-- R64, 02_execution_model.md. -/
def Reg.TSK_STATE (n : Nat) : Nat := 0x10014 + 0x20 * n
/-- R64, 02_execution_model.md. -/
def Reg.TSK_CHKIN (n : Nat) : Nat := 0x10018 + 0x20 * n
/-- R64, 02_execution_model.md. -/
def Reg.TSK_CODE (n : Nat) : Nat := 0x1001c + 0x20 * n
/-- R64, 02_execution_model.md. -/
def Reg.TSK_GCTL : Nat := 0x10800
/-- R64, 02_execution_model.md. -/
def Reg.TSK_GSTAT : Nat := 0x10804
/-- R64, 02_execution_model.md. -/
def Reg.TSK_TLCFG : Nat := 0x10808
/-- R64, 02_execution_model.md. -/
def Reg.TSK_RUNMASK0 : Nat := 0x1080c
/-- R64, 02_execution_model.md. -/
def Reg.TSK_RUNMASK1 : Nat := 0x10810
/-- R64, 02_execution_model.md. -/
def Reg.TSK_OVRMASK0 : Nat := 0x10814
/-- R64, 02_execution_model.md. -/
def Reg.TSK_OVRMASK1 : Nat := 0x10818
/-- R64, 02_execution_model.md. -/
def Reg.TSK_ULATCH0 : Nat := 0x1081c
/-- R64, 02_execution_model.md. -/
def Reg.TSK_ULATCH1 : Nat := 0x10820
/-- R64, 02_execution_model.md. -/
def Reg.TSK_ULATCH2 : Nat := 0x10824
/-- R64, 02_execution_model.md. -/
def Reg.TSK_ULATCH3 : Nat := 0x10828
/-- R64, 02_execution_model.md. -/
def Reg.TSK_CORESTAT (c : Nat) : Nat := 0x10830 + 0x4 * c
/-- R64, 02_execution_model.md. -/
def Reg.TSK_CORELOAD (c : Nat) : Nat := 0x10850 + 0x4 * c
/-- R110, 04_instruction_encoding.md. -/
def Reg.TSK_CFLT0 (c : Nat) : Nat := 0x10900 + 0x10 * c
/-- R110, 04_instruction_encoding.md. -/
def Reg.TSK_CFLT1 (c : Nat) : Nat := 0x10904 + 0x10 * c
/-- R110, 04_instruction_encoding.md. -/
def Reg.TSK_CFLT2 (c : Nat) : Nat := 0x10908 + 0x10 * c
/-- R110, 04_instruction_encoding.md. -/
def Reg.TSK_CFLT3 (c : Nat) : Nat := 0x1090c + 0x10 * c
/-- R86, 03_mains_angle.md. -/
def Reg.ANG_CFG : Nat := 0x11000
/-- R86, 03_mains_angle.md. -/
def Reg.ANG_SRC : Nat := 0x11004
/-- R86, 03_mains_angle.md. -/
def Reg.ANG_COMP : Nat := 0x11008
/-- R86, 03_mains_angle.md. -/
def Reg.ANG_STEPTH : Nat := 0x1100c
/-- R86, 03_mains_angle.md. -/
def Reg.ANG_HOLD : Nat := 0x11010
/-- R86, 03_mains_angle.md. -/
def Reg.ANG_AMIN : Nat := 0x11014
/-- R86, 03_mains_angle.md. -/
def Reg.ANG_ROCLIM : Nat := 0x11018
/-- R86, 03_mains_angle.md. -/
def Reg.ANG_SAMP : Nat := 0x1101c
/-- R86, 03_mains_angle.md. -/
def Reg.ANG_ANGLE : Nat := 0x11020
/-- R86, 03_mains_angle.md. -/
def Reg.ANG_TURNS : Nat := 0x11024
/-- R86, 03_mains_angle.md. -/
def Reg.ANG_FREQ : Nat := 0x11028
/-- R86, 03_mains_angle.md. -/
def Reg.ANG_ROCOF : Nat := 0x1102c
/-- R86, 03_mains_angle.md. -/
def Reg.ANG_STATE : Nat := 0x11030
/-- R86, 03_mains_angle.md. -/
def Reg.ANG_TNS : Nat := 0x11034
/-- R86, 03_mains_angle.md. -/
def Reg.ANG_TSEC0 : Nat := 0x11038
/-- R86, 03_mains_angle.md. -/
def Reg.ANG_TSEC1 : Nat := 0x1103c
/-- R86, 03_mains_angle.md. -/
def Reg.ANG_DEV : Nat := 0x11040
/-- R86, 03_mains_angle.md. -/
def Reg.ANG_STAT : Nat := 0x11050
/-- R86, 03_mains_angle.md. -/
def Reg.ANG_STEPCNT : Nat := 0x11054
/-- R86, 03_mains_angle.md. -/
def Reg.ANG_LASTSTEP : Nat := 0x11058
/-- R86, 03_mains_angle.md. -/
def Reg.ANG_LATECNT : Nat := 0x1105c
/-- R86, 03_mains_angle.md. -/
def Reg.ANG_LOSSCNT : Nat := 0x11060
/-- R86, 03_mains_angle.md. -/
def Reg.ANG_SSTAT : Nat := 0x11064
/-- R86, 03_mains_angle.md. -/
def Reg.ANG_STEPMONO : Nat := 0x11068
/-- R176, 07_fast_rung_plane.md. -/
def Reg.FRP_STAT : Nat := 0x12000
/-- R176, 07_fast_rung_plane.md. -/
def Reg.FRP_TBLCTL : Nat := 0x12004
/-- R176, 07_fast_rung_plane.md. -/
def Reg.FRP_CHK : Nat := 0x12008
/-- R176, 07_fast_rung_plane.md. -/
def Reg.FRP_SWEEP : Nat := 0x1200c
/-- R176, 07_fast_rung_plane.md. -/
def Reg.FRP_FO0 : Nat := 0x12010
/-- R176, 07_fast_rung_plane.md. -/
def Reg.FRP_FO1 : Nat := 0x12014
/-- R176, 07_fast_rung_plane.md. -/
def Reg.FRP_FOOWN0 : Nat := 0x12018
/-- R176, 07_fast_rung_plane.md. -/
def Reg.FRP_FOOWN1 : Nat := 0x1201c
/-- R176, 07_fast_rung_plane.md. -/
def Reg.FRP_OMODE (j : Nat) : Nat := 0x12020 + 0x4 * j
/-- R176, 07_fast_rung_plane.md. -/
def Reg.FRP_SWAPCNT : Nat := 0x12030
/-- R176, 07_fast_rung_plane.md. -/
def Reg.FRP_ECCERR : Nat := 0x12034
/-- R176, 07_fast_rung_plane.md. -/
def Reg.FRP_WATCH (k : Nat) : Nat := 0x12040 + 0x4 * k
/-- R176, 07_fast_rung_plane.md. -/
def Reg.FRP_SNAPCTL : Nat := 0x12060
/-- R176, 07_fast_rung_plane.md. -/
def Reg.FRP_SNAPSW : Nat := 0x12064
/-- R176, 07_fast_rung_plane.md. -/
def Reg.FRP_IMG (k : Nat) : Nat := 0x12100 + 0x4 * k
/-- R176, 07_fast_rung_plane.md. -/
def Reg.FRP_SNAP (k : Nat) : Nat := 0x12300 + 0x4 * k
/-- R65, 02_execution_model.md. -/
def Reg.IMG_GEN : Nat := 0x13000
/-- R65, 02_execution_model.md. -/
def Reg.IMG_STAT : Nat := 0x13004
/-- R65, 02_execution_model.md. -/
def Reg.IMG_LATEOUT : Nat := 0x13008
/-- R65, 02_execution_model.md. -/
def Reg.IMG_SAFEMASK0 : Nat := 0x1300c
/-- R65, 02_execution_model.md. -/
def Reg.IMG_SAFEMASK1 : Nat := 0x13010
/-- R65, 02_execution_model.md. -/
def Reg.IMG_TRGN (n : Nat) : Nat := 0x13100 + 0x4 * n
/-- R65, 02_execution_model.md. -/
def Reg.IMG_OINST (n : Nat) : Nat := 0x13200 + 0x4 * n
/-- R65, 02_execution_model.md. -/
def Reg.IMG_RGN (k : Nat) : Nat := 0x13400 + 0x4 * k
/-- R203, 08_online_exchange.md. -/
def Reg.XCH_STAT : Nat := 0x14000
/-- R203, 08_online_exchange.md. -/
def Reg.XCH_CMD : Nat := 0x14004
/-- R203, 08_online_exchange.md. -/
def Reg.XCH_DESC : Nat := 0x14008
/-- R203, 08_online_exchange.md. -/
def Reg.XCH_CFG : Nat := 0x1400c
/-- R203, 08_online_exchange.md. -/
def Reg.XCH_RUNVER : Nat := 0x14010
/-- R203, 08_online_exchange.md. -/
def Reg.XCH_OTHERVER : Nat := 0x14014
/-- R203, 08_online_exchange.md. -/
def Reg.XCH_TMASK0 : Nat := 0x14018
/-- R203, 08_online_exchange.md. -/
def Reg.XCH_TMASK1 : Nat := 0x1401c
/-- R203, 08_online_exchange.md. -/
def Reg.XCH_TPEND0 : Nat := 0x14020
/-- R203, 08_online_exchange.md. -/
def Reg.XCH_TPEND1 : Nat := 0x14024
/-- R203, 08_online_exchange.md. -/
def Reg.XCH_WINLEFT : Nat := 0x14028
/-- R203, 08_online_exchange.md. -/
def Reg.XCH_SWMONO0 : Nat := 0x1402c
/-- R203, 08_online_exchange.md. -/
def Reg.XCH_SWMONO1 : Nat := 0x14030
/-- R203, 08_online_exchange.md. -/
def Reg.XCH_CHK : Nat := 0x14034
/-- R203, 08_online_exchange.md. -/
def Reg.XCH_PAIR : Nat := 0x14038
/-- R203, 08_online_exchange.md. -/
def Reg.XCH_COUNT : Nat := 0x1403c
/-- R203, 08_online_exchange.md. -/
def Reg.XCH_CVCLIP : Nat := 0x14040
/-- R203, 08_online_exchange.md. -/
def Reg.XCH_BANKS (c : Nat) : Nat := 0x14060 + 0x4 * c
/-- R203, 08_online_exchange.md. -/
def Reg.XCH_CCOST (n : Nat) : Nat := 0x14100 + 0x4 * n
/-- R239, 09_hot_standby.md. -/
def Reg.HSB_CFG : Nat := 0x15000
/-- R239, 09_hot_standby.md. -/
def Reg.HSB_PUBCFG : Nat := 0x15004
/-- R239, 09_hot_standby.md. -/
def Reg.HSB_STAT : Nat := 0x15008
/-- R239, 09_hot_standby.md. -/
def Reg.HSB_EVT : Nat := 0x1500c
/-- R239, 09_hot_standby.md. -/
def Reg.HSB_CMD : Nat := 0x15010
/-- R239, 09_hot_standby.md. -/
def Reg.HSB_CNT : Nat := 0x15014
/-- R239, 09_hot_standby.md. -/
def Reg.HSB_PATHCNT : Nat := 0x15018
/-- R239, 09_hot_standby.md. -/
def Reg.HSB_LINECNT : Nat := 0x1501c
/-- R239, 09_hot_standby.md. -/
def Reg.HSB_HOLDLEFT : Nat := 0x15020
/-- R239, 09_hot_standby.md. -/
def Reg.HSB_VER : Nat := 0x15024
/-- R239, 09_hot_standby.md. -/
def Reg.HSB_VLAN : Nat := 0x15028
/-- R239, 09_hot_standby.md. -/
def Reg.HSB_PAIRID0 : Nat := 0x15030
/-- R239, 09_hot_standby.md. -/
def Reg.HSB_PAIRID1 : Nat := 0x15034
/-- R239, 09_hot_standby.md. -/
def Reg.HSB_PAIRID2 : Nat := 0x15038
/-- R239, 09_hot_standby.md. -/
def Reg.HSB_PAIRID3 : Nat := 0x1503c
/-- R239, 09_hot_standby.md. -/
def Reg.HSB_MONOOFS0 : Nat := 0x15040
/-- R239, 09_hot_standby.md. -/
def Reg.HSB_MONOOFS1 : Nat := 0x15044
/-- R239, 09_hot_standby.md. -/
def Reg.HSB_MONOSRC : Nat := 0x15048
/-- R239, 09_hot_standby.md. -/
def Reg.HSB_PEERUID0 : Nat := 0x15050
/-- R239, 09_hot_standby.md. -/
def Reg.HSB_PEERUID1 : Nat := 0x15054
/-- R239, 09_hot_standby.md. -/
def Reg.HSB_PEERUID2 : Nat := 0x15058
/-- R239, 09_hot_standby.md. -/
def Reg.HSB_PEERUID3 : Nat := 0x1505c
/-- R239, 09_hot_standby.md. -/
def Reg.HSB_PEERVER : Nat := 0x15060
/-- R239, 09_hot_standby.md. -/
def Reg.HSB_LASTHB : Nat := 0x15064
/-- R239, 09_hot_standby.md. -/
def Reg.HSB_MTASK (c : Nat) : Nat := 0x15080 + 0x4 * c
/-- R239, 09_hot_standby.md. -/
def Reg.HSB_MSYNC (c : Nat) : Nat := 0x150a0 + 0x4 * c
/-- R360, 14_stands.md. -/
def Reg.STD_CFG : Nat := 0x16000
/-- R360, 14_stands.md. -/
def Reg.STD_CYCLE : Nat := 0x16004
/-- R360, 14_stands.md. -/
def Reg.STD_PAIRMASK : Nat := 0x16008
/-- R360, 14_stands.md. -/
def Reg.STD_CFGHASH : Nat := 0x1600c
/-- R360, 14_stands.md. -/
def Reg.STD_ID0 : Nat := 0x16010
/-- R360, 14_stands.md. -/
def Reg.STD_ID1 : Nat := 0x16014
/-- R360, 14_stands.md. -/
def Reg.STD_ID2 : Nat := 0x16018
/-- R360, 14_stands.md. -/
def Reg.STD_ID3 : Nat := 0x1601c
/-- R360, 14_stands.md. -/
def Reg.STD_STAT : Nat := 0x16020
/-- R360, 14_stands.md. -/
def Reg.STD_PORT (k : Nat) : Nat := 0x16024 + 0x4 * k
/-- R360, 14_stands.md. -/
def Reg.STD_REACH : Nat := 0x1602c
/-- R360, 14_stands.md. -/
def Reg.STD_MONOOFS0 : Nat := 0x16030
/-- R360, 14_stands.md. -/
def Reg.STD_MONOOFS1 : Nat := 0x16034
/-- R360, 14_stands.md. -/
def Reg.STD_TOFS : Nat := 0x16038
/-- R360, 14_stands.md. -/
def Reg.STD_CYCCNT : Nat := 0x1603c
/-- R360, 14_stands.md. -/
def Reg.STD_PSTAT (p : Nat) : Nat := 0x16040 + 0x4 * p
/-- R360, 14_stands.md. -/
def Reg.STD_REPMAX : Nat := 0x16060
/-- R360, 14_stands.md. -/
def Reg.STD_LINKCNT : Nat := 0x16064
/-- R340, 13_queues_host_interrupts.md. -/
def Reg.QUE_CFG (q : Nat) : Nat := 0x20000 + 0x4 * q
/-- R340, 13_queues_host_interrupts.md. -/
def Reg.QUE_QCOUNT (q : Nat) : Nat := 0x20080 + 0x4 * q
/-- R340, 13_queues_host_interrupts.md. -/
def Reg.QUE_QLOST (q : Nat) : Nat := 0x20100 + 0x4 * q
/-- R340, 13_queues_host_interrupts.md. -/
def Reg.QUE_QIN (q : Nat) (w : Nat) : Nat := 0x20600 + 0x10 * q + 0x4 * w
/-- R340, 13_queues_host_interrupts.md. -/
def Reg.QUE_STAT : Nat := 0x20800
/-- R340, 13_queues_host_interrupts.md. -/
def Reg.QUE_REFUSED : Nat := 0x20804
/-- R341, 13_queues_host_interrupts.md. -/
def Reg.HST_LINK : Nat := 0x21000
/-- R341, 13_queues_host_interrupts.md. -/
def Reg.HST_SESSION : Nat := 0x21004
/-- R341, 13_queues_host_interrupts.md. -/
def Reg.HST_DBELL : Nat := 0x21008
/-- R341, 13_queues_host_interrupts.md. -/
def Reg.HST_MBSTAT : Nat := 0x2100c
/-- R341, 13_queues_host_interrupts.md. -/
def Reg.HST_PARLEY : Nat := 0x21010
/-- R341, 13_queues_host_interrupts.md. -/
def Reg.HST_EVT : Nat := 0x21014
/-- R341, 13_queues_host_interrupts.md. -/
def Reg.HST_ERRCNT : Nat := 0x21018
/-- R341, 13_queues_host_interrupts.md. -/
def Reg.HST_PCIID : Nat := 0x2101c
/-- R341, 13_queues_host_interrupts.md. -/
def Reg.HST_CMDCNT : Nat := 0x21020
/-- R341, 13_queues_host_interrupts.md. -/
def Reg.HST_LASTCMD : Nat := 0x21024
/-- R271, 10_network_and_time.md. -/
def Reg.ETH_CFG (p : Nat) : Nat := 0x30000 + 0x1000 * p
/-- R271, 10_network_and_time.md. -/
def Reg.ETH_STAT (p : Nat) : Nat := 0x30004 + 0x1000 * p
/-- R271, 10_network_and_time.md. -/
def Reg.ETH_LIM (p : Nat) : Nat := 0x30008 + 0x1000 * p
/-- R271, 10_network_and_time.md. -/
def Reg.ETH_CMDF_LO (p : Nat) (k : Nat) : Nat := 0x30010 + 0x1000 * p + 0x8 * k
/-- R271, 10_network_and_time.md. -/
def Reg.ETH_CMDF_HI (p : Nat) (k : Nat) : Nat := 0x30014 + 0x1000 * p + 0x8 * k
/-- R271, 10_network_and_time.md. -/
def Reg.ETH_TSADJ (p : Nat) : Nat := 0x30030 + 0x1000 * p
/-- R271, 10_network_and_time.md. -/
def Reg.ETH_ASYM (p : Nat) : Nat := 0x30034 + 0x1000 * p
/-- R271, 10_network_and_time.md. -/
def Reg.ETH_PDELAY (p : Nat) : Nat := 0x30038 + 0x1000 * p
/-- R271, 10_network_and_time.md. -/
def Reg.ETH_GUARD (p : Nat) : Nat := 0x3003c + 0x1000 * p
/-- R271, 10_network_and_time.md. -/
def Reg.ETH_RXFRAMES (p : Nat) : Nat := 0x30040 + 0x1000 * p
/-- R271, 10_network_and_time.md. -/
def Reg.ETH_RXERR (p : Nat) : Nat := 0x30044 + 0x1000 * p
/-- R271, 10_network_and_time.md. -/
def Reg.ETH_RXLIMDROP (p : Nat) : Nat := 0x30048 + 0x1000 * p
/-- R271, 10_network_and_time.md. -/
def Reg.ETH_RSVFRAMES (p : Nat) : Nat := 0x3004c + 0x1000 * p
/-- R271, 10_network_and_time.md. -/
def Reg.ETH_RSVDROP (p : Nat) : Nat := 0x30050 + 0x1000 * p
/-- R271, 10_network_and_time.md. -/
def Reg.ETH_FILTDROP (p : Nat) : Nat := 0x30054 + 0x1000 * p
/-- R271, 10_network_and_time.md. -/
def Reg.ETH_TXFRAMES (p : Nat) : Nat := 0x30058 + 0x1000 * p
/-- R271, 10_network_and_time.md. -/
def Reg.ETH_PHYCFG (p : Nat) : Nat := 0x3005c + 0x1000 * p
/-- R271, 10_network_and_time.md. -/
def Reg.ETH_LQCFG (p : Nat) (q : Nat) : Nat := 0x30080 + 0x1000 * p + 0x4 * q
/-- R271, 10_network_and_time.md. -/
def Reg.ETH_LQSTAT (p : Nat) (q : Nat) : Nat := 0x300a0 + 0x1000 * p + 0x4 * q
/-- R272, 10_network_and_time.md. -/
def Reg.SWX_CFG : Nat := 0x34000
/-- R272, 10_network_and_time.md. -/
def Reg.SWX_MACAB0 : Nat := 0x34004
/-- R272, 10_network_and_time.md. -/
def Reg.SWX_MACAB1 : Nat := 0x34008
/-- R272, 10_network_and_time.md. -/
def Reg.SWX_MACCD0 : Nat := 0x3400c
/-- R272, 10_network_and_time.md. -/
def Reg.SWX_MACCD1 : Nat := 0x34010
/-- R272, 10_network_and_time.md. -/
def Reg.SWX_PHYCTL : Nat := 0x34014
/-- R272, 10_network_and_time.md. -/
def Reg.SWX_MDIO : Nat := 0x34018
/-- R272, 10_network_and_time.md. -/
def Reg.SWX_BRVLAN (k : Nat) : Nat := 0x34020 + 0x4 * k
/-- R272, 10_network_and_time.md. -/
def Reg.SWX_STAT : Nat := 0x34040
/-- R272, 10_network_and_time.md. -/
def Reg.SWX_RCNT (k : Nat) : Nat := 0x34050 + 0x4 * k
/-- R272, 10_network_and_time.md. -/
def Reg.SWX_NODECNT : Nat := 0x34070
/-- R272, 10_network_and_time.md. -/
def Reg.SWX_SUBCTL : Nat := 0x34080
/-- R272, 10_network_and_time.md. -/
def Reg.SWX_SUBDATA (k : Nat) : Nat := 0x34084 + 0x4 * k
/-- R272, 10_network_and_time.md. -/
def Reg.SWX_PUBCTL : Nat := 0x340c0
/-- R272, 10_network_and_time.md. -/
def Reg.SWX_PUBDATA (k : Nat) : Nat := 0x340c4 + 0x4 * k
/-- R272, 10_network_and_time.md. -/
def Reg.SWX_SUBATTN (j : Nat) : Nat := 0x34180 + 0x4 * j
/-- R273, 10_network_and_time.md. -/
def Reg.PTP_CFG : Nat := 0x35000
/-- R273, 10_network_and_time.md. -/
def Reg.PTP_STEPLIM : Nat := 0x35004
/-- R273, 10_network_and_time.md. -/
def Reg.PTP_TQCFG : Nat := 0x35008
/-- R273, 10_network_and_time.md. -/
def Reg.PTP_STAT : Nat := 0x3500c
/-- R273, 10_network_and_time.md. -/
def Reg.PTP_TNS : Nat := 0x35010
/-- R273, 10_network_and_time.md. -/
def Reg.PTP_TSEC0 : Nat := 0x35014
/-- R273, 10_network_and_time.md. -/
def Reg.PTP_TSEC1 : Nat := 0x35018
/-- R273, 10_network_and_time.md. -/
def Reg.PTP_TMONO0 : Nat := 0x3501c
/-- R273, 10_network_and_time.md. -/
def Reg.PTP_TMONO1 : Nat := 0x35020
/-- R273, 10_network_and_time.md. -/
def Reg.PTP_SLEWLEFT : Nat := 0x35024
/-- R273, 10_network_and_time.md. -/
def Reg.PTP_ERREST : Nat := 0x35028
/-- R273, 10_network_and_time.md. -/
def Reg.PTP_EPOCHEXT : Nat := 0x3502c
/-- R273, 10_network_and_time.md. -/
def Reg.PTP_UTC : Nat := 0x35030
/-- R273, 10_network_and_time.md. -/
def Reg.PTP_STEPCNT : Nat := 0x35034
/-- R273, 10_network_and_time.md. -/
def Reg.PTP_LASTSTEP : Nat := 0x35038
/-- R273, 10_network_and_time.md. -/
def Reg.PTP_SETNS : Nat := 0x35040
/-- R273, 10_network_and_time.md. -/
def Reg.PTP_SETSEC0 : Nat := 0x35044
/-- R273, 10_network_and_time.md. -/
def Reg.PTP_SETSEC1 : Nat := 0x35048
/-- R273, 10_network_and_time.md. -/
def Reg.PTP_CMD : Nat := 0x3504c
/-- R273, 10_network_and_time.md. -/
def Reg.PTP_DCFG (d : Nat) : Nat := 0x35080 + 0x40 * d
/-- R273, 10_network_and_time.md. -/
def Reg.PTP_DPRIO (d : Nat) : Nat := 0x35084 + 0x40 * d
/-- R273, 10_network_and_time.md. -/
def Reg.PTP_DSTAT (d : Nat) : Nat := 0x35088 + 0x40 * d
/-- R273, 10_network_and_time.md. -/
def Reg.PTP_DOFS (d : Nat) : Nat := 0x3508c + 0x40 * d
/-- R273, 10_network_and_time.md. -/
def Reg.PTP_DFREQ (d : Nat) : Nat := 0x35090 + 0x40 * d
/-- R273, 10_network_and_time.md. -/
def Reg.PTP_DGMID0 (d : Nat) : Nat := 0x35094 + 0x40 * d
/-- R273, 10_network_and_time.md. -/
def Reg.PTP_DGMID1 (d : Nat) : Nat := 0x35098 + 0x40 * d
/-- R273, 10_network_and_time.md. -/
def Reg.PTP_DSYNC (d : Nat) : Nat := 0x3509c + 0x40 * d
/-- R273, 10_network_and_time.md. -/
def Reg.PTP_PSTAT (p : Nat) : Nat := 0x35100 + 0x4 * p
/-- R273, 10_network_and_time.md. -/
def Reg.PTP_IRIGCFG : Nat := 0x35120
/-- R273, 10_network_and_time.md. -/
def Reg.PTP_IRIGSTAT : Nat := 0x35124
/-- R273, 10_network_and_time.md. -/
def Reg.PTP_PPSOUT : Nat := 0x35128
/-- R273, 10_network_and_time.md. -/
def Reg.PTP_PPSOFS : Nat := 0x3512c
/-- R273, 10_network_and_time.md. -/
def Reg.PTP_PPSINNS : Nat := 0x35130
/-- R273, 10_network_and_time.md. -/
def Reg.PTP_PPSINSEC0 : Nat := 0x35134
/-- R293, 11_panel_bus.md. -/
def Reg.CAN_CFG (n : Nat) : Nat := 0x40000 + 0x1000 * n
/-- R293, 11_panel_bus.md. -/
def Reg.CAN_CTL (n : Nat) : Nat := 0x40004 + 0x1000 * n
/-- R293, 11_panel_bus.md. -/
def Reg.CAN_NBT (n : Nat) : Nat := 0x40008 + 0x1000 * n
/-- R293, 11_panel_bus.md. -/
def Reg.CAN_DBT (n : Nat) : Nat := 0x4000c + 0x1000 * n
/-- R293, 11_panel_bus.md. -/
def Reg.CAN_TDC (n : Nat) : Nat := 0x40010 + 0x1000 * n
/-- R293, 11_panel_bus.md. -/
def Reg.CAN_STAT (n : Nat) : Nat := 0x40014 + 0x1000 * n
/-- R293, 11_panel_bus.md. -/
def Reg.CAN_ERRCNT (n : Nat) : Nat := 0x40018 + 0x1000 * n
/-- R293, 11_panel_bus.md. -/
def Reg.CAN_LASTERR (n : Nat) : Nat := 0x4001c + 0x1000 * n
/-- R293, 11_panel_bus.md. -/
def Reg.CAN_RXSTAT (n : Nat) : Nat := 0x40020 + 0x1000 * n
/-- R293, 11_panel_bus.md. -/
def Reg.CAN_FCMD (n : Nat) : Nat := 0x40024 + 0x1000 * n
/-- R293, 11_panel_bus.md. -/
def Reg.CAN_REFCFG (n : Nat) : Nat := 0x40028 + 0x1000 * n
/-- R293, 11_panel_bus.md. -/
def Reg.CAN_TOFS (n : Nat) : Nat := 0x4002c + 0x1000 * n
/-- R293, 11_panel_bus.md. -/
def Reg.CAN_TCYC (n : Nat) : Nat := 0x40030 + 0x1000 * n
/-- R293, 11_panel_bus.md. -/
def Reg.CAN_FCYC (n : Nat) : Nat := 0x40034 + 0x1000 * n
/-- R293, 11_panel_bus.md. -/
def Reg.CAN_TXID (n : Nat) (b : Nat) : Nat := 0x40040 + 0x1000 * n + 0x60 * b
/-- R293, 11_panel_bus.md. -/
def Reg.CAN_TXCTL (n : Nat) (b : Nat) : Nat := 0x40044 + 0x1000 * n + 0x60 * b
/-- R293, 11_panel_bus.md. -/
def Reg.CAN_TXSTAMP (n : Nat) (b : Nat) : Nat := 0x40048 + 0x1000 * n + 0x60 * b
/-- R293, 11_panel_bus.md. -/
def Reg.CAN_TXDATA (n : Nat) (b : Nat) (j : Nat) : Nat := 0x40050 + 0x1000 * n + 0x60 * b + 0x4 * j
/-- R293, 11_panel_bus.md. -/
def Reg.CAN_RXF (n : Nat) (w : Nat) : Nat := 0x40180 + 0x1000 * n + 0x4 * w
/-- R293, 11_panel_bus.md. -/
def Reg.CAN_FID (n : Nat) (f : Nat) : Nat := 0x40200 + 0x1000 * n + 0x8 * f
/-- R293, 11_panel_bus.md. -/
def Reg.CAN_FMASK (n : Nat) (f : Nat) : Nat := 0x40204 + 0x1000 * n + 0x8 * f
/-- R293, 11_panel_bus.md. -/
def Reg.CAN_WAKEID (n : Nat) : Nat := 0x40400 + 0x1000 * n
/-- R293, 11_panel_bus.md. -/
def Reg.CAN_WAKEMASK (n : Nat) : Nat := 0x40404 + 0x1000 * n
/-- R293, 11_panel_bus.md. -/
def Reg.CAN_WAKED0 (n : Nat) : Nat := 0x40408 + 0x1000 * n
/-- R293, 11_panel_bus.md. -/
def Reg.CAN_WAKED1 (n : Nat) : Nat := 0x4040c + 0x1000 * n
/-- R293, 11_panel_bus.md. -/
def Reg.CAN_WAKEDM0 (n : Nat) : Nat := 0x40410 + 0x1000 * n
/-- R293, 11_panel_bus.md. -/
def Reg.CAN_WAKEDM1 (n : Nat) : Nat := 0x40414 + 0x1000 * n
/-- R293, 11_panel_bus.md. -/
def Reg.CAN_STACFG (n : Nat) (i : Nat) : Nat := 0x40500 + 0x1000 * n + 0x10 * i
/-- R293, 11_panel_bus.md. -/
def Reg.CAN_STASTAT (n : Nat) (i : Nat) : Nat := 0x40504 + 0x1000 * n + 0x10 * i
/-- R293, 11_panel_bus.md. -/
def Reg.CAN_STACNT (n : Nat) (i : Nat) : Nat := 0x40508 + 0x1000 * n + 0x10 * i
/-- R317, 12_io_and_events.md. -/
def Reg.BIO_CTL : Nat := 0x50000
/-- R317, 12_io_and_events.md. -/
def Reg.BIO_STAT : Nat := 0x50004
/-- R317, 12_io_and_events.md. -/
def Reg.BIO_BI0 : Nat := 0x50008
/-- R317, 12_io_and_events.md. -/
def Reg.BIO_BI1 : Nat := 0x5000c
/-- R317, 12_io_and_events.md. -/
def Reg.BIO_BI2 : Nat := 0x50010
/-- R317, 12_io_and_events.md. -/
def Reg.BIO_BIRAW0 : Nat := 0x50014
/-- R317, 12_io_and_events.md. -/
def Reg.BIO_BIRAW1 : Nat := 0x50018
/-- R317, 12_io_and_events.md. -/
def Reg.BIO_BIRAW2 : Nat := 0x5001c
/-- R317, 12_io_and_events.md. -/
def Reg.BIO_BO0 : Nat := 0x50020
/-- R317, 12_io_and_events.md. -/
def Reg.BIO_BO1 : Nat := 0x50024
/-- R317, 12_io_and_events.md. -/
def Reg.BIO_BRB : Nat := 0x50028
/-- R317, 12_io_and_events.md. -/
def Reg.BIO_MMLIVE : Nat := 0x5002c
/-- R317, 12_io_and_events.md. -/
def Reg.BIO_MM : Nat := 0x50030
/-- R317, 12_io_and_events.md. -/
def Reg.BIO_BOSAFE0 : Nat := 0x50034
/-- R317, 12_io_and_events.md. -/
def Reg.BIO_BOSAFE1 : Nat := 0x50038
/-- R317, 12_io_and_events.md. -/
def Reg.BIO_RBINV : Nat := 0x5003c
/-- R317, 12_io_and_events.md. -/
def Reg.BIO_RBEN : Nat := 0x50040
/-- R317, 12_io_and_events.md. -/
def Reg.BIO_EVEN0 : Nat := 0x50044
/-- R317, 12_io_and_events.md. -/
def Reg.BIO_EVEN1 : Nat := 0x50048
/-- R317, 12_io_and_events.md. -/
def Reg.BIO_EVEN2 : Nat := 0x5004c
/-- R317, 12_io_and_events.md. -/
def Reg.BIO_SOEPEV0 : Nat := 0x50050
/-- R317, 12_io_and_events.md. -/
def Reg.BIO_SOEPEV1 : Nat := 0x50054
/-- R317, 12_io_and_events.md. -/
def Reg.BIO_SOESTA0 : Nat := 0x50058
/-- R317, 12_io_and_events.md. -/
def Reg.BIO_SOESTA1 : Nat := 0x5005c
/-- R317, 12_io_and_events.md. -/
def Reg.BIO_MMCNT : Nat := 0x50060
/-- R317, 12_io_and_events.md. -/
def Reg.BIO_REJCNT : Nat := 0x50064
/-- R317, 12_io_and_events.md. -/
def Reg.BIO_SOECNT : Nat := 0x50068
/-- R317, 12_io_and_events.md. -/
def Reg.BIO_BICFG (n : Nat) : Nat := 0x50100 + 0x4 * n
/-- R317, 12_io_and_events.md. -/
def Reg.BIO_RBCFG (n : Nat) : Nat := 0x50300 + 0x4 * n
/-- R318, 12_io_and_events.md. -/
def Reg.ADC_CFG : Nat := 0x51000
/-- R318, 12_io_and_events.md. -/
def Reg.ADC_STAT : Nat := 0x51004
/-- R318, 12_io_and_events.md. -/
def Reg.ADC_FAULT : Nat := 0x51008
/-- R318, 12_io_and_events.md. -/
def Reg.ADC_OVR : Nat := 0x5100c
/-- R318, 12_io_and_events.md. -/
def Reg.ADC_RMSCFG : Nat := 0x51010
/-- R318, 12_io_and_events.md. -/
def Reg.ADC_THREVT (j : Nat) : Nat := 0x51020 + 0x4 * j
/-- R318, 12_io_and_events.md. -/
def Reg.ADC_THRBIT (j : Nat) : Nat := 0x51040 + 0x4 * j
/-- R318, 12_io_and_events.md. -/
def Reg.ADC_GAIN (c : Nat) : Nat := 0x51100 + 0x10 * c
/-- R318, 12_io_and_events.md. -/
def Reg.ADC_OFS (c : Nat) : Nat := 0x51104 + 0x10 * c
/-- R318, 12_io_and_events.md. -/
def Reg.ADC_PHASE (c : Nat) : Nat := 0x51108 + 0x10 * c
/-- R318, 12_io_and_events.md. -/
def Reg.ADC_RMS (c : Nat) : Nat := 0x5110c + 0x10 * c
/-- R318, 12_io_and_events.md. -/
def Reg.ADC_SAMP (c : Nat) : Nat := 0x51280 + 0x4 * c
/-- R318, 12_io_and_events.md. -/
def Reg.ADC_THR0 (t : Nat) : Nat := 0x51400 + 0x8 * t
/-- R318, 12_io_and_events.md. -/
def Reg.ADC_THR1 (t : Nat) : Nat := 0x51404 + 0x8 * t
/-- R386, 15_retained_storage_and_rtc.md. -/
def Reg.NVS_STAT : Nat := 0x60000
/-- R386, 15_retained_storage_and_rtc.md. -/
def Reg.NVS_ECC : Nat := 0x60004
/-- R386, 15_retained_storage_and_rtc.md. -/
def Reg.NVS_DEDADDR : Nat := 0x60008
/-- R386, 15_retained_storage_and_rtc.md. -/
def Reg.NVS_REFCNT : Nat := 0x6000c
/-- R386, 15_retained_storage_and_rtc.md. -/
def Reg.NVS_WRCNT : Nat := 0x60010
/-- R386, 15_retained_storage_and_rtc.md. -/
def Reg.NVS_PFADDR : Nat := 0x60014
/-- R386, 15_retained_storage_and_rtc.md. -/
def Reg.NVS_JHEAD : Nat := 0x60018
/-- R386, 15_retained_storage_and_rtc.md. -/
def Reg.NVS_JSLOT : Nat := 0x6001c
/-- R386, 15_retained_storage_and_rtc.md. -/
def Reg.NVS_RECCNT : Nat := 0x60020
/-- R386, 15_retained_storage_and_rtc.md. -/
def Reg.NVS_RECNEW (r : Nat) : Nat := 0x60400 + 0x4 * r
/-- R387, 15_retained_storage_and_rtc.md. -/
def Reg.RTC_CTL : Nat := 0x61000
/-- R387, 15_retained_storage_and_rtc.md. -/
def Reg.RTC_STAT : Nat := 0x61004
/-- R387, 15_retained_storage_and_rtc.md. -/
def Reg.RTC_ERR : Nat := 0x61008
/-- R387, 15_retained_storage_and_rtc.md. -/
def Reg.RTC_SUBSEC : Nat := 0x61010
/-- R387, 15_retained_storage_and_rtc.md. -/
def Reg.RTC_SEC : Nat := 0x61014
/-- R387, 15_retained_storage_and_rtc.md. -/
def Reg.RTC_MIN : Nat := 0x61018
/-- R387, 15_retained_storage_and_rtc.md. -/
def Reg.RTC_HOUR : Nat := 0x6101c
/-- R387, 15_retained_storage_and_rtc.md. -/
def Reg.RTC_DAY : Nat := 0x61020
/-- R387, 15_retained_storage_and_rtc.md. -/
def Reg.RTC_MONTH : Nat := 0x61024
/-- R387, 15_retained_storage_and_rtc.md. -/
def Reg.RTC_YEAR : Nat := 0x61028
/-- R387, 15_retained_storage_and_rtc.md. -/
def Reg.RTC_ALM0 : Nat := 0x61040
/-- R387, 15_retained_storage_and_rtc.md. -/
def Reg.RTC_ALM1 : Nat := 0x61044
/-- R387, 15_retained_storage_and_rtc.md. -/
def Reg.RTC_ALMCTL : Nat := 0x61048
/-- R387, 15_retained_storage_and_rtc.md. -/
def Reg.RTC_HELD : Nat := 0x61050
/-- R387, 15_retained_storage_and_rtc.md. -/
def Reg.RTC_WAKEPER : Nat := 0x61054
/-- R387, 15_retained_storage_and_rtc.md. -/
def Reg.RTC_TWPOS : Nat := 0x61058
/-- R387, 15_retained_storage_and_rtc.md. -/
def Reg.RTC_WAKECNT : Nat := 0x61060
/-- R387, 15_retained_storage_and_rtc.md. -/
def Reg.RTC_TRIM : Nat := 0x61064
/-- R387, 15_retained_storage_and_rtc.md. -/
def Reg.RTC_MEASWIN : Nat := 0x61068
/-- R387, 15_retained_storage_and_rtc.md. -/
def Reg.RTC_TRIMPROP : Nat := 0x6106c
/-- R387, 15_retained_storage_and_rtc.md. -/
def Reg.RTC_MEASPPB : Nat := 0x61070
/-- R387, 15_retained_storage_and_rtc.md. -/
def Reg.RTC_BRAM (k : Nat) : Nat := 0x61100 + 0x4 * k
/-- R451, 17_security_and_update.md. -/
def Reg.SEC_STAT : Nat := 0x70000
/-- R451, 17_security_and_update.md. -/
def Reg.SEC_EVT : Nat := 0x70004
/-- R451, 17_security_and_update.md. -/
def Reg.SEC_WINCFG : Nat := 0x70008
/-- R451, 17_security_and_update.md. -/
def Reg.SEC_WINLEFT : Nat := 0x7000c
/-- R451, 17_security_and_update.md. -/
def Reg.SEC_PWD : Nat := 0x70010
/-- R451, 17_security_and_update.md. -/
def Reg.SEC_AUTHCNT : Nat := 0x70014
/-- R451, 17_security_and_update.md. -/
def Reg.SEC_CHAL (w : Nat) : Nat := 0x70020 + 0x4 * w
/-- R451, 17_security_and_update.md. -/
def Reg.SEC_KEYHASH (s : Nat) (w : Nat) : Nat := 0x70100 + 0x20 * s + 0x4 * w
/-- R451, 17_security_and_update.md. -/
def Reg.SEC_ROOTHASH (w : Nat) : Nat := 0x70180 + 0x4 * w
/-- R451, 17_security_and_update.md. -/
def Reg.SEC_ATTPK (w : Nat) : Nat := 0x701a0 + 0x4 * w
/-- R451, 17_security_and_update.md. -/
def Reg.SEC_SECVER : Nat := 0x701c0
/-- R452, 17_security_and_update.md. -/
def Reg.UPD_CFG : Nat := 0x71000
/-- R452, 17_security_and_update.md. -/
def Reg.UPD_STAT : Nat := 0x71004
/-- R452, 17_security_and_update.md. -/
def Reg.UPD_BLKERR : Nat := 0x71008
/-- R452, 17_security_and_update.md. -/
def Reg.UPD_FLASHERR : Nat := 0x7100c
/-- R452, 17_security_and_update.md. -/
def Reg.UPD_CSTAT (c : Nat) : Nat := 0x71100 + 0x20 * c
/-- R452, 17_security_and_update.md. -/
def Reg.UPD_ACTVER (c : Nat) : Nat := 0x71104 + 0x20 * c
/-- R452, 17_security_and_update.md. -/
def Reg.UPD_STGVER (c : Nat) : Nat := 0x71108 + 0x20 * c
/-- R452, 17_security_and_update.md. -/
def Reg.UPD_NBLK (c : Nat) : Nat := 0x7110c + 0x20 * c
/-- R452, 17_security_and_update.md. -/
def Reg.UPD_WINLEFT (c : Nat) : Nat := 0x71110 + 0x20 * c
/-- R319–R322, 13_queues_host_interrupts.md. -/
def Reg.QUE_QITEM (q w : Nat) : Nat := 0x20400 + 0x10 * q + 0x4 * w

/-! The named fields. -/
def F.SYS_IDCODE_FAMILY : Fld := ⟨Reg.SYS_IDCODE, 7, 0⟩
def F.SYS_IDCODE_STEP_MINOR : Fld := ⟨Reg.SYS_IDCODE, 11, 8⟩
def F.SYS_IDCODE_STEP_MAJOR : Fld := ⟨Reg.SYS_IDCODE, 15, 12⟩
def F.SYS_IDCODE_PART : Fld := ⟨Reg.SYS_IDCODE, 31, 16⟩
def F.SYS_CAPS_SCAN_CORES : Fld := ⟨Reg.SYS_CAPS, 3, 0⟩
def F.SYS_CAPS_ETH_PORTS : Fld := ⟨Reg.SYS_CAPS, 7, 4⟩
def F.SYS_CAPS_CAN_CH : Fld := ⟨Reg.SYS_CAPS, 11, 8⟩
def F.SYS_CAPS_RHZ_PORTS : Fld := ⟨Reg.SYS_CAPS, 15, 12⟩
def F.SYS_CAPS_CODE_BANKS : Fld := ⟨Reg.SYS_CAPS, 23, 16⟩
def F.SYS_ROMVER_BUILD : Fld := ⟨Reg.SYS_ROMVER, 15, 0⟩
def F.SYS_ROMVER_MINOR : Fld := ⟨Reg.SYS_ROMVER, 23, 16⟩
def F.SYS_ROMVER_MAJOR : Fld := ⟨Reg.SYS_ROMVER, 31, 24⟩
def F.SYS_FWVER_BUILD : Fld := ⟨Reg.SYS_FWVER, 15, 0⟩
def F.SYS_FWVER_MINOR : Fld := ⟨Reg.SYS_FWVER, 23, 16⟩
def F.SYS_FWVER_MAJOR : Fld := ⟨Reg.SYS_FWVER, 31, 24⟩
def F.SYS_NETFWVER_BUILD : Fld := ⟨Reg.SYS_NETFWVER, 15, 0⟩
def F.SYS_NETFWVER_MINOR : Fld := ⟨Reg.SYS_NETFWVER, 23, 16⟩
def F.SYS_NETFWVER_MAJOR : Fld := ⟨Reg.SYS_NETFWVER, 31, 24⟩
def F.SYS_PMUFWVER_BUILD : Fld := ⟨Reg.SYS_PMUFWVER, 15, 0⟩
def F.SYS_PMUFWVER_MINOR : Fld := ⟨Reg.SYS_PMUFWVER, 23, 16⟩
def F.SYS_PMUFWVER_MAJOR : Fld := ⟨Reg.SYS_PMUFWVER, 31, 24⟩
def F.SYS_STRAPS_PREF : Fld := ⟨Reg.SYS_STRAPS, 0, 0⟩
def F.SYS_STRAPS_POS : Fld := ⟨Reg.SYS_STRAPS, 3, 1⟩
def F.SYS_STRAPS_SPORE : Fld := ⟨Reg.SYS_STRAPS, 4, 4⟩
def F.SYS_BOOT_KIND : Fld := ⟨Reg.SYS_BOOT, 1, 0⟩
def F.SYS_BOOT_SLOT : Fld := ⟨Reg.SYS_BOOT, 4, 4⟩
def F.SYS_BOOT_FAILS : Fld := ⟨Reg.SYS_BOOT, 10, 8⟩
def F.SYS_MODE_MODE : Fld := ⟨Reg.SYS_MODE, 1, 0⟩
def F.SYS_MODE_KEY : Fld := ⟨Reg.SYS_MODE, 6, 4⟩
def F.SYS_MODE_KEYBAD : Fld := ⟨Reg.SYS_MODE, 7, 7⟩
def F.SYS_MODE_PEND : Fld := ⟨Reg.SYS_MODE, 8, 8⟩
def F.SYS_MODE_TARGET : Fld := ⟨Reg.SYS_MODE, 10, 9⟩
def F.SYS_MODE_KEYBADCNT : Fld := ⟨Reg.SYS_MODE, 31, 16⟩
def F.SYS_BADADDR_ADDR : Fld := ⟨Reg.SYS_BADADDR, 23, 0⟩
def F.SYS_BADADDR_SRC : Fld := ⟨Reg.SYS_BADADDR, 26, 24⟩
def F.SYS_BADADDR_PARTIAL : Fld := ⟨Reg.SYS_BADADDR, 28, 28⟩
def F.SYS_BADADDR_UNMAPPED : Fld := ⟨Reg.SYS_BADADDR, 29, 29⟩
def F.SYS_BADADDR_VALID : Fld := ⟨Reg.SYS_BADADDR, 31, 31⟩
def F.SYS_IFVER_MAX_MIN (i : Nat) : Fld := ⟨Reg.SYS_IFVER i, 7, 0⟩
def F.SYS_IFVER_MAX_MAJ (i : Nat) : Fld := ⟨Reg.SYS_IFVER i, 15, 8⟩
def F.SYS_IFVER_MIN_MIN (i : Nat) : Fld := ⟨Reg.SYS_IFVER i, 23, 16⟩
def F.SYS_IFVER_MIN_MAJ (i : Nat) : Fld := ⟨Reg.SYS_IFVER i, 31, 24⟩
def F.SYS_PATHCTL_GO : Fld := ⟨Reg.SYS_PATHCTL, 0, 0⟩
def F.SYS_PATHCTL_BUSY : Fld := ⟨Reg.SYS_PATHCTL, 1, 1⟩
def F.SYS_PATHCTL_ERR : Fld := ⟨Reg.SYS_PATHCTL, 6, 4⟩
def F.SYS_PATHCTL_DEPTH : Fld := ⟨Reg.SYS_PATHCTL, 15, 8⟩
def F.SYS_RESET_KIND : Fld := ⟨Reg.SYS_RESET, 3, 0⟩
def F.SYS_RESET_CORE : Fld := ⟨Reg.SYS_RESET, 10, 8⟩
def F.SYS_RESET_REFUSED : Fld := ⟨Reg.SYS_RESET, 15, 15⟩
def F.SYS_RESET_KEY : Fld := ⟨Reg.SYS_RESET, 31, 16⟩
def F.SYS_ECC_CORR : Fld := ⟨Reg.SYS_ECC, 15, 0⟩
def F.SYS_ECC_LASTMEM : Fld := ⟨Reg.SYS_ECC, 19, 16⟩
def F.SYS_ECC_LASTCORE : Fld := ⟨Reg.SYS_ECC, 22, 20⟩
def F.SUP_STAT_FAULTN : Fld := ⟨Reg.SUP_STAT, 0, 0⟩
def F.SUP_STAT_FSAFE : Fld := ⟨Reg.SUP_STAT, 1, 1⟩
def F.SUP_STAT_SVCHALT : Fld := ⟨Reg.SUP_STAT, 2, 2⟩
def F.SUP_STAT_MONOEST : Fld := ⟨Reg.SUP_STAT, 3, 3⟩
def F.SUP_EVT_FLAGS : Fld := ⟨Reg.SUP_EVT, 7, 0⟩
def F.SUP_CTL_FAULTCLR : Fld := ⟨Reg.SUP_CTL, 0, 0⟩
def F.SUP_CTL_KEY : Fld := ⟨Reg.SUP_CTL, 31, 16⟩
def F.SUP_RSTCAUSE_CAUSE : Fld := ⟨Reg.SUP_RSTCAUSE, 3, 0⟩
def F.SUP_RSTCAUSE_MASK : Fld := ⟨Reg.SUP_RSTCAUSE, 15, 8⟩
def F.SUP_RSTCAUSE_LGVALID : Fld := ⟨Reg.SUP_RSTCAUSE, 16, 16⟩
def F.SUP_CAUSECNT0_RESETN : Fld := ⟨Reg.SUP_CAUSECNT0, 7, 0⟩
def F.SUP_CAUSECNT0_SYSRST : Fld := ⟨Reg.SUP_CAUSECNT0, 15, 8⟩
def F.SUP_CAUSECNT0_WDT : Fld := ⟨Reg.SUP_CAUSECNT0, 23, 16⟩
def F.SUP_CAUSECNT0_CLK : Fld := ⟨Reg.SUP_CAUSECNT0, 31, 24⟩
def F.SUP_CAUSECNT1_VCORE : Fld := ⟨Reg.SUP_CAUSECNT1, 7, 0⟩
def F.SUP_CAUSECNT1_CODEECC : Fld := ⟨Reg.SUP_CAUSECNT1, 15, 8⟩
def F.SUP_CAUSECNT1_FSAFE : Fld := ⟨Reg.SUP_CAUSECNT1, 23, 16⟩
def F.CLK_STAT_PLLLOCK : Fld := ⟨Reg.CLK_STAT, 0, 0⟩
def F.CLK_STAT_REFOK : Fld := ⟨Reg.CLK_STAT, 1, 1⟩
def F.CLK_STAT_SGMIILOCK : Fld := ⟨Reg.CLK_STAT, 2, 2⟩
def F.CLK_STAT_RHZLOCK : Fld := ⟨Reg.CLK_STAT, 3, 3⟩
def F.CLK_STAT_PCIELOCK : Fld := ⟨Reg.CLK_STAT, 4, 4⟩
def F.CLK_STAT_RTCRUN : Fld := ⟨Reg.CLK_STAT, 5, 5⟩
def F.CLK_RCMEAS_COUNT : Fld := ⟨Reg.CLK_RCMEAS, 15, 0⟩
def F.CLK_UNLOCK_SGMII : Fld := ⟨Reg.CLK_UNLOCK, 7, 0⟩
def F.CLK_UNLOCK_RHZ : Fld := ⟨Reg.CLK_UNLOCK, 15, 8⟩
def F.CLK_UNLOCK_PCIE : Fld := ⟨Reg.CLK_UNLOCK, 23, 16⟩
def F.PMU_STAT_STATE : Fld := ⟨Reg.PMU_STAT, 2, 0⟩
def F.PMU_STAT_HOLDEN : Fld := ⟨Reg.PMU_STAT, 3, 3⟩
def F.PMU_STAT_PGOOD : Fld := ⟨Reg.PMU_STAT, 9, 4⟩
def F.PMU_STAT_RAILFLT : Fld := ⟨Reg.PMU_STAT, 15, 10⟩
def F.PMU_VINCFG_VFAIL : Fld := ⟨Reg.PMU_VINCFG, 15, 0⟩
def F.PMU_VINCFG_HYST : Fld := ⟨Reg.PMU_VINCFG, 31, 16⟩
def F.PMU_HOLDCFG_RIDE : Fld := ⟨Reg.PMU_HOLDCFG, 9, 0⟩
def F.PMU_HOLDCFG_WARN : Fld := ⟨Reg.PMU_HOLDCFG, 15, 10⟩
def F.PMU_HOLDCFG_VSLEEP : Fld := ⟨Reg.PMU_HOLDCFG, 31, 16⟩
def F.PMU_RETCFG_VRET : Fld := ⟨Reg.PMU_RETCFG, 15, 0⟩
def F.PMU_VIN_VIN : Fld := ⟨Reg.PMU_VIN, 15, 0⟩
def F.PMU_VIN_MIN : Fld := ⟨Reg.PMU_VIN, 31, 16⟩
def F.PMU_RAILCNT_FLT : Fld := ⟨Reg.PMU_RAILCNT, 15, 0⟩
def F.PMU_RAILCNT_SEQFAIL : Fld := ⟨Reg.PMU_RAILCNT, 31, 16⟩
def F.PMU_TEL_VOLT (r : Nat) : Fld := ⟨Reg.PMU_TEL r, 15, 0⟩
def F.PMU_TEL_CUR (r : Nat) : Fld := ⟨Reg.PMU_TEL r, 31, 16⟩
def F.PMU_TEMP_TEMP (k : Nat) : Fld := ⟨Reg.PMU_TEMP k, 15, 0⟩
def F.PMU_TEMP_MAX (k : Nat) : Fld := ⟨Reg.PMU_TEMP k, 31, 16⟩
def F.PMU_TEMPLIM_LIM : Fld := ⟨Reg.PMU_TEMPLIM, 15, 0⟩
def F.PMU_HOLDCNT_HOLDUPS : Fld := ⟨Reg.PMU_HOLDCNT, 15, 0⟩
def F.PMU_SEQTIME_US : Fld := ⟨Reg.PMU_SEQTIME, 15, 0⟩
def F.WDT_CFG_WIN_OPEN : Fld := ⟨Reg.WDT_CFG, 13, 0⟩
def F.WDT_CFG_WIN_CLOSE : Fld := ⟨Reg.WDT_CFG, 29, 16⟩
def F.WDT_CFG_EARLYRST : Fld := ⟨Reg.WDT_CFG, 30, 30⟩
def F.WDT_SERVE_KEY : Fld := ⟨Reg.WDT_SERVE, 15, 0⟩
def F.WDT_CNT_CNT : Fld := ⟨Reg.WDT_CNT, 23, 0⟩
def F.WDT_STAT_EN : Fld := ⟨Reg.WDT_STAT, 0, 0⟩
def F.WDT_STAT_STAGE2 : Fld := ⟨Reg.WDT_STAT, 1, 1⟩
def F.WDT_STAT_PAUSED : Fld := ⟨Reg.WDT_STAT, 2, 2⟩
def F.WDT_STAT_FLAGS : Fld := ⟨Reg.WDT_STAT, 11, 8⟩
def F.WDT_EARLY_COUNT : Fld := ⟨Reg.WDT_EARLY, 15, 0⟩
def F.WDT_TMCFG_SAFE : Fld := ⟨Reg.WDT_TMCFG, 0, 0⟩
def F.INT_RAISE_SRC : Fld := ⟨Reg.INT_RAISE, 7, 0⟩
def F.INT_RAISE_KEY : Fld := ⟨Reg.INT_RAISE, 31, 16⟩
def F.INT_PINCFG_EN (p : Nat) : Fld := ⟨Reg.INT_PINCFG p, 0, 0⟩
def F.INT_PINCFG_POL (p : Nat) : Fld := ⟨Reg.INT_PINCFG p, 1, 1⟩
def F.INT_PINCFG_ACTIVE (p : Nat) : Fld := ⟨Reg.INT_PINCFG p, 8, 8⟩
def F.INT_FIRST_SRC : Fld := ⟨Reg.INT_FIRST, 7, 0⟩
def F.INT_FIRST_VALID : Fld := ⟨Reg.INT_FIRST, 31, 31⟩
def F.INT_SRCCFG_CLASS (i : Nat) : Fld := ⟨Reg.INT_SRCCFG i, 1, 0⟩
def F.INT_SRCCFG_PINS (i : Nat) : Fld := ⟨Reg.INT_SRCCFG i, 15, 8⟩
def F.INT_SRCCFG_CNT (i : Nat) : Fld := ⟨Reg.INT_SRCCFG i, 31, 24⟩
def F.TSK_CFG_EN (n : Nat) : Fld := ⟨Reg.TSK_CFG n, 0, 0⟩
def F.TSK_CFG_KIND (n : Nat) : Fld := ⟨Reg.TSK_CFG n, 2, 1⟩
def F.TSK_CFG_CORE (n : Nat) : Fld := ⟨Reg.TSK_CFG n, 5, 3⟩
def F.TSK_CFG_PRIO (n : Nat) : Fld := ⟨Reg.TSK_CFG n, 11, 6⟩
def F.TSK_CFG_BANK (n : Nat) : Fld := ⟨Reg.TSK_CFG n, 14, 12⟩
def F.TSK_CFG_OVR (n : Nat) : Fld := ⟨Reg.TSK_CFG n, 16, 15⟩
def F.TSK_CFG_TBASE (n : Nat) : Fld := ⟨Reg.TSK_CFG n, 17, 17⟩
def F.TSK_CFG_SATDEF (n : Nat) : Fld := ⟨Reg.TSK_CFG n, 18, 18⟩
def F.TSK_CFG_RMDEF (n : Nat) : Fld := ⟨Reg.TSK_CFG n, 20, 19⟩
def F.TSK_CFG_GROUP (n : Nat) : Fld := ⟨Reg.TSK_CFG n, 22, 21⟩
def F.TSK_CFG_ANGEVERY (n : Nat) : Fld := ⟨Reg.TSK_CFG n, 23, 23⟩
def F.TSK_CFG_SRC (n : Nat) : Fld := ⟨Reg.TSK_CFG n, 31, 24⟩
def F.TSK_STATE_ST (n : Nat) : Fld := ⟨Reg.TSK_STATE n, 2, 0⟩
def F.TSK_STATE_PEND (n : Nat) : Fld := ⟨Reg.TSK_STATE n, 3, 3⟩
def F.TSK_STATE_LATE (n : Nat) : Fld := ⟨Reg.TSK_STATE n, 4, 4⟩
def F.TSK_STATE_SAFE (n : Nat) : Fld := ⟨Reg.TSK_STATE n, 5, 5⟩
def F.TSK_STATE_CFGERR (n : Nat) : Fld := ⟨Reg.TSK_STATE n, 6, 6⟩
def F.TSK_STATE_OVR (n : Nat) : Fld := ⟨Reg.TSK_STATE n, 8, 8⟩
def F.TSK_STATE_SKIP (n : Nat) : Fld := ⟨Reg.TSK_STATE n, 9, 9⟩
def F.TSK_STATE_OUTLATE (n : Nat) : Fld := ⟨Reg.TSK_STATE n, 10, 10⟩
def F.TSK_STATE_HALTED (n : Nat) : Fld := ⟨Reg.TSK_STATE n, 11, 11⟩
def F.TSK_STATE_OVRCNT (n : Nat) : Fld := ⟨Reg.TSK_STATE n, 23, 16⟩
def F.TSK_STATE_SKIPCNT (n : Nat) : Fld := ⟨Reg.TSK_STATE n, 31, 24⟩
def F.TSK_CHKIN_LAST (n : Nat) : Fld := ⟨Reg.TSK_CHKIN n, 1, 0⟩
def F.TSK_CHKIN_EXTRAFLT (n : Nat) : Fld := ⟨Reg.TSK_CHKIN n, 2, 2⟩
def F.TSK_CHKIN_MON (n : Nat) : Fld := ⟨Reg.TSK_CHKIN n, 3, 3⟩
def F.TSK_CHKIN_MISSCNT (n : Nat) : Fld := ⟨Reg.TSK_CHKIN n, 15, 8⟩
def F.TSK_CHKIN_EXTRACNT (n : Nat) : Fld := ⟨Reg.TSK_CHKIN n, 23, 16⟩
def F.TSK_CHKIN_CUR (n : Nat) : Fld := ⟨Reg.TSK_CHKIN n, 31, 24⟩
def F.TSK_CODE_ENTRY (n : Nat) : Fld := ⟨Reg.TSK_CODE n, 21, 0⟩
def F.TSK_CODE_DBASE (n : Nat) : Fld := ⟨Reg.TSK_CODE n, 31, 22⟩
def F.TSK_GCTL_ACKALL : Fld := ⟨Reg.TSK_GCTL, 0, 0⟩
def F.TSK_GCTL_MAXCLR : Fld := ⟨Reg.TSK_GCTL, 1, 1⟩
def F.TSK_GCTL_TASK : Fld := ⟨Reg.TSK_GCTL, 13, 8⟩
def F.TSK_GSTAT_WPROT : Fld := ⟨Reg.TSK_GSTAT, 0, 0⟩
def F.TSK_GSTAT_CFGERR : Fld := ⟨Reg.TSK_GSTAT, 1, 1⟩
def F.TSK_TLCFG_STEPLIM : Fld := ⟨Reg.TSK_TLCFG, 15, 0⟩
def F.TSK_CORESTAT_TASK (c : Nat) : Fld := ⟨Reg.TSK_CORESTAT c, 5, 0⟩
def F.TSK_CORESTAT_IDLE (c : Nat) : Fld := ⟨Reg.TSK_CORESTAT c, 6, 6⟩
def F.TSK_CORESTAT_DEPTH (c : Nat) : Fld := ⟨Reg.TSK_CORESTAT c, 10, 8⟩
def F.TSK_CORESTAT_BANKS (c : Nat) : Fld := ⟨Reg.TSK_CORESTAT c, 23, 16⟩
def F.TSK_CORELOAD_LOAD (c : Nat) : Fld := ⟨Reg.TSK_CORELOAD c, 15, 0⟩
def F.TSK_CFLT0_CODE (c : Nat) : Fld := ⟨Reg.TSK_CFLT0 c, 3, 0⟩
def F.TSK_CFLT0_TASK (c : Nat) : Fld := ⟨Reg.TSK_CFLT0 c, 9, 4⟩
def F.TSK_CFLT0_INSHADOW (c : Nat) : Fld := ⟨Reg.TSK_CFLT0 c, 10, 10⟩
def F.TSK_CFLT0_REPLEFT (c : Nat) : Fld := ⟨Reg.TSK_CFLT0 c, 23, 16⟩
def F.TSK_CFLT0_VALID (c : Nat) : Fld := ⟨Reg.TSK_CFLT0 c, 31, 31⟩
def F.TSK_CFLT3_COUNT (c : Nat) : Fld := ⟨Reg.TSK_CFLT3 c, 15, 0⟩
def F.ANG_CFG_NOMF : Fld := ⟨Reg.ANG_CFG, 0, 0⟩
def F.ANG_CFG_ROCWIN : Fld := ⟨Reg.ANG_CFG, 2, 1⟩
def F.ANG_CFG_SLEW : Fld := ⟨Reg.ANG_CFG, 15, 8⟩
def F.ANG_CFG_CONF : Fld := ⟨Reg.ANG_CFG, 23, 16⟩
def F.ANG_SRC_KIND : Fld := ⟨Reg.ANG_SRC, 1, 0⟩
def F.ANG_SRC_CH : Fld := ⟨Reg.ANG_SRC, 12, 8⟩
def F.ANG_SRC_SVCH : Fld := ⟨Reg.ANG_SRC, 19, 16⟩
def F.ANG_HOLD_HOLDMS : Fld := ⟨Reg.ANG_HOLD, 11, 0⟩
def F.ANG_AMIN_AMIN : Fld := ⟨Reg.ANG_AMIN, 15, 0⟩
def F.ANG_SAMP_ALRATE : Fld := ⟨Reg.ANG_SAMP, 2, 0⟩
def F.ANG_SAMP_TLRATE : Fld := ⟨Reg.ANG_SAMP, 4, 4⟩
def F.ANG_TNS_NS : Fld := ⟨Reg.ANG_TNS, 29, 0⟩
def F.ANG_TNS_TQ : Fld := ⟨Reg.ANG_TNS, 31, 30⟩
def F.ANG_STAT_FLAGS : Fld := ⟨Reg.ANG_STAT, 7, 0⟩
def F.ANG_SSTAT_NVLEFT : Fld := ⟨Reg.ANG_SSTAT, 8, 0⟩
def F.FRP_STAT_PLANE : Fld := ⟨Reg.FRP_STAT, 1, 0⟩
def F.FRP_STAT_FLAGS : Fld := ⟨Reg.FRP_STAT, 13, 8⟩
def F.FRP_STAT_WPROT : Fld := ⟨Reg.FRP_STAT, 14, 14⟩
def F.FRP_TBLCTL_ACTIVATE : Fld := ⟨Reg.FRP_TBLCTL, 0, 0⟩
def F.FRP_TBLCTL_BUSY : Fld := ⟨Reg.FRP_TBLCTL, 1, 1⟩
def F.FRP_TBLCTL_RSEL : Fld := ⟨Reg.FRP_TBLCTL, 2, 2⟩
def F.FRP_TBLCTL_ACTCOPY : Fld := ⟨Reg.FRP_TBLCTL, 4, 4⟩
def F.FRP_CHK_CODE : Fld := ⟨Reg.FRP_CHK, 3, 0⟩
def F.FRP_CHK_RUNG : Fld := ⟨Reg.FRP_CHK, 27, 16⟩
def F.FRP_ECCERR_RUNG : Fld := ⟨Reg.FRP_ECCERR, 11, 0⟩
def F.FRP_ECCERR_VALID : Fld := ⟨Reg.FRP_ECCERR, 16, 16⟩
def F.FRP_WATCH_ADDR (k : Nat) : Fld := ⟨Reg.FRP_WATCH k, 11, 0⟩
def F.FRP_WATCH_EN (k : Nat) : Fld := ⟨Reg.FRP_WATCH k, 12, 12⟩
def F.FRP_WATCH_VAL (k : Nat) : Fld := ⟨Reg.FRP_WATCH k, 13, 13⟩
def F.FRP_WATCH_CHG (k : Nat) : Fld := ⟨Reg.FRP_WATCH k, 15, 15⟩
def F.FRP_WATCH_CNT (k : Nat) : Fld := ⟨Reg.FRP_WATCH k, 31, 16⟩
def F.FRP_SNAPCTL_GO : Fld := ⟨Reg.FRP_SNAPCTL, 0, 0⟩
def F.FRP_SNAPCTL_BUSY : Fld := ⟨Reg.FRP_SNAPCTL, 1, 1⟩
def F.IMG_STAT_RGNERR : Fld := ⟨Reg.IMG_STAT, 0, 0⟩
def F.IMG_STAT_RGNIDX : Fld := ⟨Reg.IMG_STAT, 15, 8⟩
def F.IMG_STAT_TASK : Fld := ⟨Reg.IMG_STAT, 21, 16⟩
def F.IMG_TRGN_IN_FIRST (n : Nat) : Fld := ⟨Reg.IMG_TRGN n, 7, 0⟩
def F.IMG_TRGN_IN_CNT (n : Nat) : Fld := ⟨Reg.IMG_TRGN n, 11, 8⟩
def F.IMG_TRGN_OUT_FIRST (n : Nat) : Fld := ⟨Reg.IMG_TRGN n, 23, 16⟩
def F.IMG_TRGN_OUT_CNT (n : Nat) : Fld := ⟨Reg.IMG_TRGN n, 27, 24⟩
def F.IMG_OINST_OFFSET (n : Nat) : Fld := ⟨Reg.IMG_OINST n, 23, 0⟩
def F.IMG_OINST_MODE (n : Nat) : Fld := ⟨Reg.IMG_OINST n, 25, 24⟩
def F.IMG_RGN_OFFSET (k : Nat) : Fld := ⟨Reg.IMG_RGN k, 13, 0⟩
def F.IMG_RGN_LENM1 (k : Nat) : Fld := ⟨Reg.IMG_RGN k, 27, 14⟩
def F.IMG_RGN_DIR (k : Nat) : Fld := ⟨Reg.IMG_RGN k, 28, 28⟩
def F.IMG_RGN_PRELOAD (k : Nat) : Fld := ⟨Reg.IMG_RGN k, 29, 29⟩
def F.IMG_RGN_VALID (k : Nat) : Fld := ⟨Reg.IMG_RGN k, 31, 31⟩
def F.XCH_STAT_STATE : Fld := ⟨Reg.XCH_STAT, 2, 0⟩
def F.XCH_STAT_PAIR : Fld := ⟨Reg.XCH_STAT, 3, 3⟩
def F.XCH_STAT_RESULT : Fld := ⟨Reg.XCH_STAT, 7, 4⟩
def F.XCH_STAT_FLAGS : Fld := ⟨Reg.XCH_STAT, 11, 8⟩
def F.XCH_CMD_CMD : Fld := ⟨Reg.XCH_CMD, 3, 0⟩
def F.XCH_CMD_KEY : Fld := ⟨Reg.XCH_CMD, 31, 16⟩
def F.XCH_DESC_OFFSET : Fld := ⟨Reg.XCH_DESC, 17, 0⟩
def F.XCH_CFG_WINMIN : Fld := ⟨Reg.XCH_CFG, 10, 0⟩
def F.XCH_CFG_EXPACT : Fld := ⟨Reg.XCH_CFG, 12, 12⟩
def F.XCH_CFG_BTMO : Fld := ⟨Reg.XCH_CFG, 23, 16⟩
def F.XCH_CFG_WARN : Fld := ⟨Reg.XCH_CFG, 31, 24⟩
def F.XCH_WINLEFT_SEC : Fld := ⟨Reg.XCH_WINLEFT, 16, 0⟩
def F.XCH_CHK_CODE : Fld := ⟨Reg.XCH_CHK, 3, 0⟩
def F.XCH_CHK_SECTION : Fld := ⟨Reg.XCH_CHK, 6, 4⟩
def F.XCH_CHK_ENTRY : Fld := ⟨Reg.XCH_CHK, 27, 16⟩
def F.XCH_PAIR_PEER : Fld := ⟨Reg.XCH_PAIR, 2, 0⟩
def F.XCH_PAIR_PEERVALID : Fld := ⟨Reg.XCH_PAIR, 3, 3⟩
def F.XCH_PAIR_DIVERGE : Fld := ⟨Reg.XCH_PAIR, 4, 4⟩
def F.XCH_PAIR_ALONE : Fld := ⟨Reg.XCH_PAIR, 5, 5⟩
def F.XCH_COUNT_SWITCHES : Fld := ⟨Reg.XCH_COUNT, 15, 0⟩
def F.XCH_COUNT_REVERTS : Fld := ⟨Reg.XCH_COUNT, 31, 16⟩
def F.XCH_BANKS_RUN (c : Nat) : Fld := ⟨Reg.XCH_BANKS c, 7, 0⟩
def F.XCH_BANKS_OTHER (c : Nat) : Fld := ⟨Reg.XCH_BANKS c, 15, 8⟩
def F.HSB_CFG_EN : Fld := ⟨Reg.HSB_CFG, 0, 0⟩
def F.HSB_CFG_AUTORET : Fld := ⟨Reg.HSB_CFG, 1, 1⟩
def F.HSB_CFG_HOLDOFF : Fld := ⟨Reg.HSB_CFG, 15, 4⟩
def F.HSB_CFG_MWAIT : Fld := ⟨Reg.HSB_CFG, 23, 16⟩
def F.HSB_PUBCFG_DIAG : Fld := ⟨Reg.HSB_PUBCFG, 3, 0⟩
def F.HSB_PUBCFG_TQLIM : Fld := ⟨Reg.HSB_PUBCFG, 5, 4⟩
def F.HSB_STAT_ROLES : Fld := ⟨Reg.HSB_STAT, 3, 0⟩
def F.HSB_STAT_ROLE_STATE : Fld := ⟨Reg.HSB_STAT, 7, 4⟩
def F.HSB_STAT_PATHA : Fld := ⟨Reg.HSB_STAT, 8, 8⟩
def F.HSB_STAT_PATHB : Fld := ⟨Reg.HSB_STAT, 9, 9⟩
def F.HSB_STAT_LINE : Fld := ⟨Reg.HSB_STAT, 11, 10⟩
def F.HSB_STAT_SELFTEST : Fld := ⟨Reg.HSB_STAT, 12, 12⟩
def F.HSB_STAT_SYNCED : Fld := ⟨Reg.HSB_STAT, 13, 13⟩
def F.HSB_STAT_PUBDEG : Fld := ⟨Reg.HSB_STAT, 14, 14⟩
def F.HSB_STAT_RETINH : Fld := ⟨Reg.HSB_STAT, 15, 15⟩
def F.HSB_STAT_PEERSTATE : Fld := ⟨Reg.HSB_STAT, 19, 16⟩
def F.HSB_STAT_PEERVALID : Fld := ⟨Reg.HSB_STAT, 20, 20⟩
def F.HSB_STAT_PEERPREF : Fld := ⟨Reg.HSB_STAT, 21, 21⟩
def F.HSB_STAT_PEERHEALTH : Fld := ⟨Reg.HSB_STAT, 23, 22⟩
def F.HSB_STAT_PUBDIAG : Fld := ⟨Reg.HSB_STAT, 24, 24⟩
def F.HSB_STAT_PREFCONF : Fld := ⟨Reg.HSB_STAT, 25, 25⟩
def F.HSB_EVT_FLAGS : Fld := ⟨Reg.HSB_EVT, 7, 0⟩
def F.HSB_CMD_CMD : Fld := ⟨Reg.HSB_CMD, 3, 0⟩
def F.HSB_CMD_KEY : Fld := ⟨Reg.HSB_CMD, 31, 16⟩
def F.HSB_CNT_CLAIMS : Fld := ⟨Reg.HSB_CNT, 15, 0⟩
def F.HSB_CNT_HANDOVERS : Fld := ⟨Reg.HSB_CNT, 23, 16⟩
def F.HSB_CNT_HOFAIL : Fld := ⟨Reg.HSB_CNT, 31, 24⟩
def F.HSB_PATHCNT_ALOSS : Fld := ⟨Reg.HSB_PATHCNT, 15, 0⟩
def F.HSB_PATHCNT_BLOSS : Fld := ⟨Reg.HSB_PATHCNT, 31, 16⟩
def F.HSB_LINECNT_BAD : Fld := ⟨Reg.HSB_LINECNT, 15, 0⟩
def F.HSB_LINECNT_RBERR : Fld := ⟨Reg.HSB_LINECNT, 31, 16⟩
def F.HSB_HOLDLEFT_SEC : Fld := ⟨Reg.HSB_HOLDLEFT, 11, 0⟩
def F.HSB_HOLDLEFT_RUN : Fld := ⟨Reg.HSB_HOLDLEFT, 12, 12⟩
def F.HSB_VER_MIN : Fld := ⟨Reg.HSB_VER, 7, 0⟩
def F.HSB_VER_MAJ : Fld := ⟨Reg.HSB_VER, 15, 8⟩
def F.HSB_VER_VALID : Fld := ⟨Reg.HSB_VER, 16, 16⟩
def F.HSB_VLAN_VID : Fld := ⟨Reg.HSB_VLAN, 11, 0⟩
def F.HSB_VLAN_PCP : Fld := ⟨Reg.HSB_VLAN, 14, 12⟩
def F.HSB_MONOSRC_SRC : Fld := ⟨Reg.HSB_MONOSRC, 1, 0⟩
def F.HSB_LASTHB_AGEA : Fld := ⟨Reg.HSB_LASTHB, 15, 0⟩
def F.HSB_LASTHB_AGEB : Fld := ⟨Reg.HSB_LASTHB, 31, 16⟩
def F.HSB_MTASK_TASK (c : Nat) : Fld := ⟨Reg.HSB_MTASK c, 5, 0⟩
def F.HSB_MTASK_EN (c : Nat) : Fld := ⟨Reg.HSB_MTASK c, 7, 7⟩
def F.HSB_MTASK_TOFF (c : Nat) : Fld := ⟨Reg.HSB_MTASK c, 28, 8⟩
def F.HSB_MSYNC_WORDS (c : Nat) : Fld := ⟨Reg.HSB_MSYNC c, 15, 0⟩
def F.HSB_MSYNC_LATE (c : Nat) : Fld := ⟨Reg.HSB_MSYNC c, 23, 16⟩
def F.HSB_MSYNC_MISS (c : Nat) : Fld := ⟨Reg.HSB_MSYNC c, 30, 24⟩
def F.HSB_MSYNC_LASTOK (c : Nat) : Fld := ⟨Reg.HSB_MSYNC c, 31, 31⟩
def F.STD_CFG_EN : Fld := ⟨Reg.STD_CFG, 0, 0⟩
def F.STD_CFG_TOPO : Fld := ⟨Reg.STD_CFG, 2, 1⟩
def F.STD_CFG_SIDX : Fld := ⟨Reg.STD_CFG, 3, 3⟩
def F.STD_CFG_TFOLLOW : Fld := ⟨Reg.STD_CFG, 4, 4⟩
def F.STD_CFG_NPOS : Fld := ⟨Reg.STD_CFG, 11, 8⟩
def F.STD_CYCLE_CYCLE : Fld := ⟨Reg.STD_CYCLE, 16, 0⟩
def F.STD_CYCLE_LEN : Fld := ⟨Reg.STD_CYCLE, 29, 20⟩
def F.STD_PAIRMASK_MASK : Fld := ⟨Reg.STD_PAIRMASK, 7, 0⟩
def F.STD_STAT_LEADER : Fld := ⟨Reg.STD_STAT, 2, 0⟩
def F.STD_STAT_LEADVALID : Fld := ⟨Reg.STD_STAT, 3, 3⟩
def F.STD_STAT_ISLEAD : Fld := ⟨Reg.STD_STAT, 4, 4⟩
def F.STD_STAT_SPLIT : Fld := ⟨Reg.STD_STAT, 5, 5⟩
def F.STD_STAT_TFOLLOWING : Fld := ⟨Reg.STD_STAT, 6, 6⟩
def F.STD_STAT_FLAGS : Fld := ⟨Reg.STD_STAT, 11, 8⟩
def F.STD_STAT_CFGERR : Fld := ⟨Reg.STD_STAT, 14, 12⟩
def F.STD_PORT_UP (k : Nat) : Fld := ⟨Reg.STD_PORT k, 0, 0⟩
def F.STD_PORT_PARLEY (k : Nat) : Fld := ⟨Reg.STD_PORT k, 1, 1⟩
def F.STD_PORT_LANES (k : Nat) : Fld := ⟨Reg.STD_PORT k, 3, 2⟩
def F.STD_PORT_MAJ (k : Nat) : Fld := ⟨Reg.STD_PORT k, 11, 8⟩
def F.STD_PORT_MIN (k : Nat) : Fld := ⟨Reg.STD_PORT k, 15, 12⟩
def F.STD_PORT_DELAY (k : Nat) : Fld := ⟨Reg.STD_PORT k, 31, 16⟩
def F.STD_REACH_OWN : Fld := ⟨Reg.STD_REACH, 7, 0⟩
def F.STD_REACH_OTHER : Fld := ⟨Reg.STD_REACH, 15, 8⟩
def F.STD_REACH_HOPS : Fld := ⟨Reg.STD_REACH, 19, 16⟩
def F.STD_PSTAT_FRESH (p : Nat) : Fld := ⟨Reg.STD_PSTAT p, 0, 0⟩
def F.STD_PSTAT_STALE (p : Nat) : Fld := ⟨Reg.STD_PSTAT p, 1, 1⟩
def F.STD_PSTAT_SENDER (p : Nat) : Fld := ⟨Reg.STD_PSTAT p, 2, 2⟩
def F.STD_PSTAT_MISSCNT (p : Nat) : Fld := ⟨Reg.STD_PSTAT p, 31, 16⟩
def F.STD_REPMAX_NS : Fld := ⟨Reg.STD_REPMAX, 23, 0⟩
def F.STD_LINKCNT_P0 : Fld := ⟨Reg.STD_LINKCNT, 15, 0⟩
def F.STD_LINKCNT_P1 : Fld := ⟨Reg.STD_LINKCNT, 31, 16⟩
def F.QUE_CFG_DEPTH (q : Nat) : Fld := ⟨Reg.QUE_CFG q, 3, 0⟩
def F.QUE_CFG_TASKP (q : Nat) : Fld := ⟨Reg.QUE_CFG q, 4, 4⟩
def F.QUE_CFG_HOSTP (q : Nat) : Fld := ⟨Reg.QUE_CFG q, 5, 5⟩
def F.QUE_CFG_TASKC (q : Nat) : Fld := ⟨Reg.QUE_CFG q, 6, 6⟩
def F.QUE_CFG_HOSTC (q : Nat) : Fld := ⟨Reg.QUE_CFG q, 7, 7⟩
def F.QUE_CFG_EN (q : Nat) : Fld := ⟨Reg.QUE_CFG q, 8, 8⟩
def F.QUE_QCOUNT_COUNT (q : Nat) : Fld := ⟨Reg.QUE_QCOUNT q, 12, 0⟩
def F.QUE_STAT_WPROT : Fld := ⟨Reg.QUE_STAT, 0, 0⟩
def F.QUE_STAT_CAP : Fld := ⟨Reg.QUE_STAT, 1, 1⟩
def F.QUE_STAT_DENY : Fld := ⟨Reg.QUE_STAT, 2, 2⟩
def F.QUE_STAT_FROZEN : Fld := ⟨Reg.QUE_STAT, 3, 3⟩
def F.QUE_STAT_USED : Fld := ⟨Reg.QUE_STAT, 31, 16⟩
def F.HST_LINK_UP : Fld := ⟨Reg.HST_LINK, 0, 0⟩
def F.HST_LINK_SPEED : Fld := ⟨Reg.HST_LINK, 2, 1⟩
def F.HST_LINK_WIDTH : Fld := ⟨Reg.HST_LINK, 4, 3⟩
def F.HST_SESSION_MIN : Fld := ⟨Reg.HST_SESSION, 7, 0⟩
def F.HST_SESSION_MAJ : Fld := ⟨Reg.HST_SESSION, 15, 8⟩
def F.HST_SESSION_OPEN : Fld := ⟨Reg.HST_SESSION, 16, 16⟩
def F.HST_SESSION_PARLEY : Fld := ⟨Reg.HST_SESSION, 17, 17⟩
def F.HST_DBELL_RING : Fld := ⟨Reg.HST_DBELL, 3, 0⟩
def F.HST_MBSTAT_BUSY : Fld := ⟨Reg.HST_MBSTAT, 3, 0⟩
def F.HST_MBSTAT_DONE : Fld := ⟨Reg.HST_MBSTAT, 11, 8⟩
def F.HST_PARLEY_IF : Fld := ⟨Reg.HST_PARLEY, 5, 0⟩
def F.HST_EVT_FLAGS : Fld := ⟨Reg.HST_EVT, 3, 0⟩
def F.HST_PCIID_VENDOR : Fld := ⟨Reg.HST_PCIID, 15, 0⟩
def F.HST_PCIID_DEVICE : Fld := ⟨Reg.HST_PCIID, 31, 16⟩
def F.HST_LASTCMD_CMD : Fld := ⟨Reg.HST_LASTCMD, 7, 0⟩
def F.HST_LASTCMD_STATUS : Fld := ⟨Reg.HST_LASTCMD, 15, 8⟩
def F.ETH_CFG_EN (p : Nat) : Fld := ⟨Reg.ETH_CFG p, 0, 0⟩
def F.ETH_CFG_ANEN (p : Nat) : Fld := ⟨Reg.ETH_CFG p, 1, 1⟩
def F.ETH_CFG_PTPEN (p : Nat) : Fld := ⟨Reg.ETH_CFG p, 2, 2⟩
def F.ETH_CFG_TCEN (p : Nat) : Fld := ⟨Reg.ETH_CFG p, 3, 3⟩
def F.ETH_STAT_LINK (p : Nat) : Fld := ⟨Reg.ETH_STAT p, 0, 0⟩
def F.ETH_STAT_ANDONE (p : Nat) : Fld := ⟨Reg.ETH_STAT p, 1, 1⟩
def F.ETH_STAT_FLAGS (p : Nat) : Fld := ⟨Reg.ETH_STAT p, 7, 4⟩
def F.ETH_LIM_RATE (p : Nat) : Fld := ⟨Reg.ETH_LIM p, 9, 0⟩
def F.ETH_LIM_BURST (p : Nat) : Fld := ⟨Reg.ETH_LIM p, 25, 16⟩
def F.ETH_CMDF_HI_MAC1 (p : Nat) (k : Nat) : Fld := ⟨Reg.ETH_CMDF_HI p k, 15, 0⟩
def F.ETH_CMDF_HI_VID (p : Nat) (k : Nat) : Fld := ⟨Reg.ETH_CMDF_HI p k, 27, 16⟩
def F.ETH_CMDF_HI_VIDEN (p : Nat) (k : Nat) : Fld := ⟨Reg.ETH_CMDF_HI p k, 28, 28⟩
def F.ETH_CMDF_HI_EN (p : Nat) (k : Nat) : Fld := ⟨Reg.ETH_CMDF_HI p k, 31, 31⟩
def F.ETH_TSADJ_RXLAT (p : Nat) : Fld := ⟨Reg.ETH_TSADJ p, 15, 0⟩
def F.ETH_TSADJ_TXLAT (p : Nat) : Fld := ⟨Reg.ETH_TSADJ p, 31, 16⟩
def F.ETH_GUARD_GUARD (p : Nat) : Fld := ⟨Reg.ETH_GUARD p, 13, 0⟩
def F.ETH_PHYCFG_PHYAD (p : Nat) : Fld := ⟨Reg.ETH_PHYCFG p, 4, 0⟩
def F.ETH_PHYCFG_POLL (p : Nat) : Fld := ⟨Reg.ETH_PHYCFG p, 8, 8⟩
def F.ETH_LQCFG_EN (p : Nat) (q : Nat) : Fld := ⟨Reg.ETH_LQCFG p q, 0, 0⟩
def F.ETH_LQCFG_LATEPOL (p : Nat) (q : Nat) : Fld := ⟨Reg.ETH_LQCFG p q, 1, 1⟩
def F.ETH_LQCFG_LATETOL (p : Nat) (q : Nat) : Fld := ⟨Reg.ETH_LQCFG p q, 15, 8⟩
def F.ETH_LQSTAT_DEPTH (p : Nat) (q : Nat) : Fld := ⟨Reg.ETH_LQSTAT p q, 6, 0⟩
def F.ETH_LQSTAT_LATECNT (p : Nat) (q : Nat) : Fld := ⟨Reg.ETH_LQSTAT p q, 23, 16⟩
def F.ETH_LQSTAT_DROPCNT (p : Nat) (q : Nat) : Fld := ⟨Reg.ETH_LQSTAT p q, 31, 24⟩
def F.SWX_CFG_MODEAB : Fld := ⟨Reg.SWX_CFG, 1, 0⟩
def F.SWX_CFG_MODECD : Fld := ⟨Reg.SWX_CFG, 3, 2⟩
def F.SWX_CFG_BRIDGE : Fld := ⟨Reg.SWX_CFG, 4, 4⟩
def F.SWX_CFG_SUPMC : Fld := ⟨Reg.SWX_CFG, 15, 8⟩
def F.SWX_MACAB1_MAC1 : Fld := ⟨Reg.SWX_MACAB1, 15, 0⟩
def F.SWX_MACCD1_MAC1 : Fld := ⟨Reg.SWX_MACCD1, 15, 0⟩
def F.SWX_PHYCTL_RSTREL : Fld := ⟨Reg.SWX_PHYCTL, 0, 0⟩
def F.SWX_PHYCTL_INTEN : Fld := ⟨Reg.SWX_PHYCTL, 1, 1⟩
def F.SWX_PHYCTL_INTLVL : Fld := ⟨Reg.SWX_PHYCTL, 2, 2⟩
def F.SWX_MDIO_DATA : Fld := ⟨Reg.SWX_MDIO, 15, 0⟩
def F.SWX_MDIO_REGAD : Fld := ⟨Reg.SWX_MDIO, 20, 16⟩
def F.SWX_MDIO_PHYAD : Fld := ⟨Reg.SWX_MDIO, 25, 21⟩
def F.SWX_MDIO_OP : Fld := ⟨Reg.SWX_MDIO, 28, 26⟩
def F.SWX_MDIO_GO : Fld := ⟨Reg.SWX_MDIO, 29, 29⟩
def F.SWX_MDIO_BUSY : Fld := ⟨Reg.SWX_MDIO, 30, 30⟩
def F.SWX_MDIO_NORESP : Fld := ⟨Reg.SWX_MDIO, 31, 31⟩
def F.SWX_BRVLAN_VID (k : Nat) : Fld := ⟨Reg.SWX_BRVLAN k, 11, 0⟩
def F.SWX_BRVLAN_EN (k : Nat) : Fld := ⟨Reg.SWX_BRVLAN k, 31, 31⟩
def F.SWX_STAT_RINGAB : Fld := ⟨Reg.SWX_STAT, 0, 0⟩
def F.SWX_STAT_RINGCD : Fld := ⟨Reg.SWX_STAT, 1, 1⟩
def F.SWX_STAT_PUBGATE : Fld := ⟨Reg.SWX_STAT, 2, 2⟩
def F.SWX_STAT_FLAGS : Fld := ⟨Reg.SWX_STAT, 15, 8⟩
def F.SWX_NODECNT_AB : Fld := ⟨Reg.SWX_NODECNT, 9, 0⟩
def F.SWX_NODECNT_CD : Fld := ⟨Reg.SWX_NODECNT, 25, 16⟩
def F.SWX_SUBCTL_INDEX : Fld := ⟨Reg.SWX_SUBCTL, 9, 0⟩
def F.SWX_SUBCTL_GO : Fld := ⟨Reg.SWX_SUBCTL, 16, 16⟩
def F.SWX_SUBCTL_WR : Fld := ⟨Reg.SWX_SUBCTL, 17, 17⟩
def F.SWX_SUBCTL_BUSY : Fld := ⟨Reg.SWX_SUBCTL, 18, 18⟩
def F.SWX_SUBCTL_ERR : Fld := ⟨Reg.SWX_SUBCTL, 19, 19⟩
def F.SWX_PUBCTL_INDEX : Fld := ⟨Reg.SWX_PUBCTL, 6, 0⟩
def F.SWX_PUBCTL_GO : Fld := ⟨Reg.SWX_PUBCTL, 16, 16⟩
def F.SWX_PUBCTL_WR : Fld := ⟨Reg.SWX_PUBCTL, 17, 17⟩
def F.SWX_PUBCTL_BUSY : Fld := ⟨Reg.SWX_PUBCTL, 18, 18⟩
def F.SWX_PUBCTL_ERR : Fld := ⟨Reg.SWX_PUBCTL, 19, 19⟩
def F.PTP_CFG_SELAUTO : Fld := ⟨Reg.PTP_CFG, 0, 0⟩
def F.PTP_CFG_SELDOM : Fld := ⟨Reg.PTP_CFG, 1, 1⟩
def F.PTP_CFG_TWOSTEP : Fld := ⟨Reg.PTP_CFG, 2, 2⟩
def F.PTP_CFG_SLEW : Fld := ⟨Reg.PTP_CFG, 15, 8⟩
def F.PTP_CFG_SELHOLD : Fld := ⟨Reg.PTP_CFG, 23, 16⟩
def F.PTP_STEPLIM_LIM : Fld := ⟨Reg.PTP_STEPLIM, 19, 0⟩
def F.PTP_TQCFG_HOLDPPB : Fld := ⟨Reg.PTP_TQCFG, 15, 0⟩
def F.PTP_STAT_TQ : Fld := ⟨Reg.PTP_STAT, 1, 0⟩
def F.PTP_STAT_SRC : Fld := ⟨Reg.PTP_STAT, 3, 2⟩
def F.PTP_STAT_SLEWING : Fld := ⟨Reg.PTP_STAT, 4, 4⟩
def F.PTP_STAT_EVERLOCKED : Fld := ⟨Reg.PTP_STAT, 5, 5⟩
def F.PTP_STAT_REFUSED : Fld := ⟨Reg.PTP_STAT, 6, 6⟩
def F.PTP_STAT_FLAGS : Fld := ⟨Reg.PTP_STAT, 14, 8⟩
def F.PTP_TNS_NS : Fld := ⟨Reg.PTP_TNS, 29, 0⟩
def F.PTP_TNS_TQ : Fld := ⟨Reg.PTP_TNS, 31, 30⟩
def F.PTP_EPOCHEXT_HI : Fld := ⟨Reg.PTP_EPOCHEXT, 15, 0⟩
def F.PTP_UTC_UTCOFS : Fld := ⟨Reg.PTP_UTC, 15, 0⟩
def F.PTP_UTC_VALID : Fld := ⟨Reg.PTP_UTC, 16, 16⟩
def F.PTP_UTC_LI61 : Fld := ⟨Reg.PTP_UTC, 17, 17⟩
def F.PTP_UTC_LI59 : Fld := ⟨Reg.PTP_UTC, 18, 18⟩
def F.PTP_CMD_CMD : Fld := ⟨Reg.PTP_CMD, 3, 0⟩
def F.PTP_CMD_KEY : Fld := ⟨Reg.PTP_CMD, 31, 16⟩
def F.PTP_DCFG_EN (d : Nat) : Fld := ⟨Reg.PTP_DCFG d, 0, 0⟩
def F.PTP_DCFG_PROFILE (d : Nat) : Fld := ⟨Reg.PTP_DCFG d, 1, 1⟩
def F.PTP_DCFG_DOMAIN (d : Nat) : Fld := ⟨Reg.PTP_DCFG d, 15, 8⟩
def F.PTP_DCFG_PORTS (d : Nat) : Fld := ⟨Reg.PTP_DCFG d, 19, 16⟩
def F.PTP_DCFG_ROLE (d : Nat) : Fld := ⟨Reg.PTP_DCFG d, 21, 20⟩
def F.PTP_DPRIO_PRIO1 (d : Nat) : Fld := ⟨Reg.PTP_DPRIO d, 7, 0⟩
def F.PTP_DPRIO_PRIO2 (d : Nat) : Fld := ⟨Reg.PTP_DPRIO d, 15, 8⟩
def F.PTP_DPRIO_CLASSREF (d : Nat) : Fld := ⟨Reg.PTP_DPRIO d, 23, 16⟩
def F.PTP_DSTAT_SERVO (d : Nat) : Fld := ⟨Reg.PTP_DSTAT d, 1, 0⟩
def F.PTP_DSTAT_GMCLASS (d : Nat) : Fld := ⟨Reg.PTP_DSTAT d, 15, 8⟩
def F.PTP_DSTAT_STEPSRM (d : Nat) : Fld := ⟨Reg.PTP_DSTAT d, 23, 16⟩
def F.PTP_DSTAT_SPORT (d : Nat) : Fld := ⟨Reg.PTP_DSTAT d, 27, 24⟩
def F.PTP_DSTAT_GMVALID (d : Nat) : Fld := ⟨Reg.PTP_DSTAT d, 28, 28⟩
def F.PTP_PSTAT_ST0 (p : Nat) : Fld := ⟨Reg.PTP_PSTAT p, 3, 0⟩
def F.PTP_PSTAT_ST1 (p : Nat) : Fld := ⟨Reg.PTP_PSTAT p, 7, 4⟩
def F.PTP_PSTAT_PDVALID (p : Nat) : Fld := ⟨Reg.PTP_PSTAT p, 8, 8⟩
def F.PTP_IRIGCFG_IRIGEN : Fld := ⟨Reg.PTP_IRIGCFG, 0, 0⟩
def F.PTP_IRIGCFG_PPSEN : Fld := ⟨Reg.PTP_IRIGCFG, 1, 1⟩
def F.PTP_IRIGCFG_TAIOFS : Fld := ⟨Reg.PTP_IRIGCFG, 15, 8⟩
def F.PTP_IRIGCFG_C37EXT : Fld := ⟨Reg.PTP_IRIGCFG, 16, 16⟩
def F.PTP_IRIGSTAT_IRIGOK : Fld := ⟨Reg.PTP_IRIGSTAT, 0, 0⟩
def F.PTP_IRIGSTAT_PPSOK : Fld := ⟨Reg.PTP_IRIGSTAT, 1, 1⟩
def F.PTP_IRIGSTAT_ALIGNED : Fld := ⟨Reg.PTP_IRIGSTAT, 2, 2⟩
def F.PTP_IRIGSTAT_ERRCNT : Fld := ⟨Reg.PTP_IRIGSTAT, 15, 8⟩
def F.PTP_PPSOUT_EN : Fld := ⟨Reg.PTP_PPSOUT, 0, 0⟩
def F.PTP_PPSOUT_SUPQ : Fld := ⟨Reg.PTP_PPSOUT, 1, 1⟩
def F.PTP_PPSOUT_QLIM : Fld := ⟨Reg.PTP_PPSOUT, 3, 2⟩
def F.PTP_PPSOUT_WIDTH : Fld := ⟨Reg.PTP_PPSOUT, 13, 4⟩
def F.PTP_PPSINNS_NS : Fld := ⟨Reg.PTP_PPSINNS, 29, 0⟩
def F.CAN_CFG_FDEN (n : Nat) : Fld := ⟨Reg.CAN_CFG n, 0, 0⟩
def F.CAN_CFG_TXORD (n : Nat) : Fld := ⟨Reg.CAN_CFG n, 1, 1⟩
def F.CAN_CFG_WAKEMODE (n : Nat) : Fld := ⟨Reg.CAN_CFG n, 2, 2⟩
def F.CAN_CFG_STAEN (n : Nat) : Fld := ⟨Reg.CAN_CFG n, 3, 3⟩
def F.CAN_CFG_TMODE (n : Nat) : Fld := ⟨Reg.CAN_CFG n, 5, 4⟩
def F.CAN_CTL_MODE (n : Nat) : Fld := ⟨Reg.CAN_CTL n, 1, 0⟩
def F.CAN_NBT_BRP (n : Nat) : Fld := ⟨Reg.CAN_NBT n, 7, 0⟩
def F.CAN_NBT_TSEG1 (n : Nat) : Fld := ⟨Reg.CAN_NBT n, 15, 8⟩
def F.CAN_NBT_TSEG2 (n : Nat) : Fld := ⟨Reg.CAN_NBT n, 22, 16⟩
def F.CAN_NBT_SJW (n : Nat) : Fld := ⟨Reg.CAN_NBT n, 30, 24⟩
def F.CAN_DBT_BRP (n : Nat) : Fld := ⟨Reg.CAN_DBT n, 4, 0⟩
def F.CAN_DBT_TSEG1 (n : Nat) : Fld := ⟨Reg.CAN_DBT n, 12, 8⟩
def F.CAN_DBT_TSEG2 (n : Nat) : Fld := ⟨Reg.CAN_DBT n, 19, 16⟩
def F.CAN_DBT_SJW (n : Nat) : Fld := ⟨Reg.CAN_DBT n, 27, 24⟩
def F.CAN_TDC_EN (n : Nat) : Fld := ⟨Reg.CAN_TDC n, 0, 0⟩
def F.CAN_TDC_TDCO (n : Nat) : Fld := ⟨Reg.CAN_TDC n, 14, 8⟩
def F.CAN_STAT_ERRSTATE (n : Nat) : Fld := ⟨Reg.CAN_STAT n, 1, 0⟩
def F.CAN_STAT_MODE (n : Nat) : Fld := ⟨Reg.CAN_STAT n, 3, 2⟩
def F.CAN_STAT_GATE (n : Nat) : Fld := ⟨Reg.CAN_STAT n, 4, 4⟩
def F.CAN_STAT_WOKE (n : Nat) : Fld := ⟨Reg.CAN_STAT n, 5, 5⟩
def F.CAN_STAT_FLAGS (n : Nat) : Fld := ⟨Reg.CAN_STAT n, 11, 8⟩
def F.CAN_STAT_REFUSED (n : Nat) : Fld := ⟨Reg.CAN_STAT n, 12, 12⟩
def F.CAN_ERRCNT_TEC (n : Nat) : Fld := ⟨Reg.CAN_ERRCNT n, 7, 0⟩
def F.CAN_ERRCNT_REC (n : Nat) : Fld := ⟨Reg.CAN_ERRCNT n, 14, 8⟩
def F.CAN_ERRCNT_BOCNT (n : Nat) : Fld := ⟨Reg.CAN_ERRCNT n, 31, 16⟩
def F.CAN_LASTERR_CODE (n : Nat) : Fld := ⟨Reg.CAN_LASTERR n, 2, 0⟩
def F.CAN_LASTERR_DATA (n : Nat) : Fld := ⟨Reg.CAN_LASTERR n, 3, 3⟩
def F.CAN_RXSTAT_COUNT (n : Nat) : Fld := ⟨Reg.CAN_RXSTAT n, 5, 0⟩
def F.CAN_RXSTAT_NOMATCH (n : Nat) : Fld := ⟨Reg.CAN_RXSTAT n, 15, 8⟩
def F.CAN_RXSTAT_LOST (n : Nat) : Fld := ⟨Reg.CAN_RXSTAT n, 31, 16⟩
def F.CAN_FCMD_STA (n : Nat) : Fld := ⟨Reg.CAN_FCMD n, 3, 0⟩
def F.CAN_FCMD_OP (n : Nat) : Fld := ⟨Reg.CAN_FCMD n, 11, 8⟩
def F.CAN_REFCFG_REFID (n : Nat) : Fld := ⟨Reg.CAN_REFCFG n, 10, 0⟩
def F.CAN_REFCFG_PER (n : Nat) : Fld := ⟨Reg.CAN_REFCFG n, 31, 12⟩
def F.CAN_TCYC_CYCLE (n : Nat) : Fld := ⟨Reg.CAN_TCYC n, 15, 0⟩
def F.CAN_TCYC_VALID (n : Nat) : Fld := ⟨Reg.CAN_TCYC n, 16, 16⟩
def F.CAN_FCYC_PER (n : Nat) : Fld := ⟨Reg.CAN_FCYC n, 19, 0⟩
def F.CAN_FCYC_SEQ (n : Nat) : Fld := ⟨Reg.CAN_FCYC n, 27, 20⟩
def F.CAN_TXID_ID (n : Nat) (b : Nat) : Fld := ⟨Reg.CAN_TXID n b, 28, 0⟩
def F.CAN_TXCTL_DLC (n : Nat) (b : Nat) : Fld := ⟨Reg.CAN_TXCTL n b, 3, 0⟩
def F.CAN_TXCTL_IDE (n : Nat) (b : Nat) : Fld := ⟨Reg.CAN_TXCTL n b, 4, 4⟩
def F.CAN_TXCTL_FDF (n : Nat) (b : Nat) : Fld := ⟨Reg.CAN_TXCTL n b, 5, 5⟩
def F.CAN_TXCTL_BRS (n : Nat) (b : Nat) : Fld := ⟨Reg.CAN_TXCTL n b, 6, 6⟩
def F.CAN_TXCTL_GATED (n : Nat) (b : Nat) : Fld := ⟨Reg.CAN_TXCTL n b, 7, 7⟩
def F.CAN_TXCTL_REQ (n : Nat) (b : Nat) : Fld := ⟨Reg.CAN_TXCTL n b, 8, 8⟩
def F.CAN_TXCTL_PEND (n : Nat) (b : Nat) : Fld := ⟨Reg.CAN_TXCTL n b, 9, 9⟩
def F.CAN_TXCTL_DONE (n : Nat) (b : Nat) : Fld := ⟨Reg.CAN_TXCTL n b, 10, 10⟩
def F.CAN_TXCTL_ABORT (n : Nat) (b : Nat) : Fld := ⟨Reg.CAN_TXCTL n b, 11, 11⟩
def F.CAN_TXCTL_ABORTED (n : Nat) (b : Nat) : Fld := ⟨Reg.CAN_TXCTL n b, 12, 12⟩
def F.CAN_TXCTL_IRQ (n : Nat) (b : Nat) : Fld := ⟨Reg.CAN_TXCTL n b, 13, 13⟩
def F.CAN_TXCTL_WITHHELD (n : Nat) (b : Nat) : Fld := ⟨Reg.CAN_TXCTL n b, 14, 14⟩
def F.CAN_FID_ID (n : Nat) (f : Nat) : Fld := ⟨Reg.CAN_FID n f, 28, 0⟩
def F.CAN_FID_IDE (n : Nat) (f : Nat) : Fld := ⟨Reg.CAN_FID n f, 29, 29⟩
def F.CAN_FID_ACTION (n : Nat) (f : Nat) : Fld := ⟨Reg.CAN_FID n f, 31, 30⟩
def F.CAN_FMASK_MASK (n : Nat) (f : Nat) : Fld := ⟨Reg.CAN_FMASK n f, 28, 0⟩
def F.CAN_WAKEID_ID (n : Nat) : Fld := ⟨Reg.CAN_WAKEID n, 28, 0⟩
def F.CAN_WAKEID_IDE (n : Nat) : Fld := ⟨Reg.CAN_WAKEID n, 29, 29⟩
def F.CAN_WAKEMASK_ID (n : Nat) : Fld := ⟨Reg.CAN_WAKEMASK n, 28, 0⟩
def F.CAN_WAKEMASK_IDE (n : Nat) : Fld := ⟨Reg.CAN_WAKEMASK n, 29, 29⟩
def F.CAN_STACFG_EN (n : Nat) (i : Nat) : Fld := ⟨Reg.CAN_STACFG n i, 0, 0⟩
def F.CAN_STACFG_NIN (n : Nat) (i : Nat) : Fld := ⟨Reg.CAN_STACFG n i, 12, 8⟩
def F.CAN_STACFG_NOUT (n : Nat) (i : Nat) : Fld := ⟨Reg.CAN_STACFG n i, 20, 16⟩
def F.CAN_STACFG_MISS (n : Nat) (i : Nat) : Fld := ⟨Reg.CAN_STACFG n i, 27, 24⟩
def F.CAN_STASTAT_STATE (n : Nat) (i : Nat) : Fld := ⟨Reg.CAN_STASTAT n i, 2, 0⟩
def F.CAN_STASTAT_STALE (n : Nat) (i : Nat) : Fld := ⟨Reg.CAN_STASTAT n i, 3, 3⟩
def F.CAN_STASTAT_SAFE (n : Nat) (i : Nat) : Fld := ⟨Reg.CAN_STASTAT n i, 4, 4⟩
def F.CAN_STASTAT_MUTED (n : Nat) (i : Nat) : Fld := ⟨Reg.CAN_STASTAT n i, 5, 5⟩
def F.CAN_STASTAT_VERMAJ (n : Nat) (i : Nat) : Fld := ⟨Reg.CAN_STASTAT n i, 11, 8⟩
def F.CAN_STASTAT_VERMIN (n : Nat) (i : Nat) : Fld := ⟨Reg.CAN_STASTAT n i, 15, 12⟩
def F.CAN_STASTAT_LASTSEQ (n : Nat) (i : Nat) : Fld := ⟨Reg.CAN_STASTAT n i, 23, 16⟩
def F.CAN_STACNT_DISCARD (n : Nat) (i : Nat) : Fld := ⟨Reg.CAN_STACNT n i, 15, 0⟩
def F.CAN_STACNT_LOSTCNT (n : Nat) (i : Nat) : Fld := ⟨Reg.CAN_STACNT n i, 31, 16⟩
def F.BIO_CTL_SOEEN : Fld := ⟨Reg.BIO_CTL, 0, 0⟩
def F.BIO_STAT_FLAGS : Fld := ⟨Reg.BIO_STAT, 11, 8⟩
def F.BIO_BICFG_DEB (n : Nat) : Fld := ⟨Reg.BIO_BICFG n, 13, 0⟩
def F.BIO_BICFG_SOERISE (n : Nat) : Fld := ⟨Reg.BIO_BICFG n, 16, 16⟩
def F.BIO_BICFG_SOEFALL (n : Nat) : Fld := ⟨Reg.BIO_BICFG n, 17, 17⟩
def F.BIO_BICFG_INV (n : Nat) : Fld := ⟨Reg.BIO_BICFG n, 18, 18⟩
def F.BIO_RBCFG_SETTLE (n : Nat) : Fld := ⟨Reg.BIO_RBCFG n, 15, 0⟩
def F.ADC_CFG_CHEN : Fld := ⟨Reg.ADC_CFG, 23, 0⟩
def F.ADC_STAT_REFOK : Fld := ⟨Reg.ADC_STAT, 0, 0⟩
def F.ADC_STAT_SELFTEST : Fld := ⟨Reg.ADC_STAT, 1, 1⟩
def F.ADC_STAT_FLAGS : Fld := ⟨Reg.ADC_STAT, 11, 8⟩
def F.ADC_FAULT_FAULT : Fld := ⟨Reg.ADC_FAULT, 23, 0⟩
def F.ADC_OVR_OVR : Fld := ⟨Reg.ADC_OVR, 23, 0⟩
def F.ADC_RMSCFG_WIN : Fld := ⟨Reg.ADC_RMSCFG, 12, 0⟩
def F.ADC_GAIN_GAIN (c : Nat) : Fld := ⟨Reg.ADC_GAIN c, 23, 0⟩
def F.ADC_OFS_OFS (c : Nat) : Fld := ⟨Reg.ADC_OFS c, 23, 0⟩
def F.ADC_PHASE_PHASE (c : Nat) : Fld := ⟨Reg.ADC_PHASE c, 19, 0⟩
def F.ADC_RMS_RMS (c : Nat) : Fld := ⟨Reg.ADC_RMS c, 23, 0⟩
def F.ADC_THR0_CH (t : Nat) : Fld := ⟨Reg.ADC_THR0 t, 4, 0⟩
def F.ADC_THR0_KIND (t : Nat) : Fld := ⟨Reg.ADC_THR0 t, 6, 5⟩
def F.ADC_THR0_FAILV (t : Nat) : Fld := ⟨Reg.ADC_THR0 t, 7, 7⟩
def F.ADC_THR0_LEVEL (t : Nat) : Fld := ⟨Reg.ADC_THR0 t, 31, 8⟩
def F.ADC_THR1_HYST (t : Nat) : Fld := ⟨Reg.ADC_THR1 t, 23, 0⟩
def F.ADC_THR1_CNT (t : Nat) : Fld := ⟨Reg.ADC_THR1 t, 31, 24⟩
def F.NVS_STAT_READY : Fld := ⟨Reg.NVS_STAT, 0, 0⟩
def F.NVS_STAT_FLAGS : Fld := ⟨Reg.NVS_STAT, 11, 8⟩
def F.NVS_STAT_PROTERR : Fld := ⟨Reg.NVS_STAT, 12, 12⟩
def F.NVS_STAT_HRETRY : Fld := ⟨Reg.NVS_STAT, 13, 13⟩
def F.NVS_STAT_DED : Fld := ⟨Reg.NVS_STAT, 14, 14⟩
def F.NVS_ECC_CORR : Fld := ⟨Reg.NVS_ECC, 15, 0⟩
def F.NVS_DEDADDR_ADDR : Fld := ⟨Reg.NVS_DEDADDR, 19, 0⟩
def F.NVS_DEDADDR_VALID : Fld := ⟨Reg.NVS_DEDADDR, 31, 31⟩
def F.NVS_REFCNT_PROT : Fld := ⟨Reg.NVS_REFCNT, 15, 0⟩
def F.NVS_REFCNT_BUSY : Fld := ⟨Reg.NVS_REFCNT, 31, 16⟩
def F.NVS_PFADDR_ADDR : Fld := ⟨Reg.NVS_PFADDR, 19, 0⟩
def F.NVS_PFADDR_VALID : Fld := ⟨Reg.NVS_PFADDR, 31, 31⟩
def F.NVS_JSLOT_SLOT : Fld := ⟨Reg.NVS_JSLOT, 10, 0⟩
def F.NVS_RECCNT_EN : Fld := ⟨Reg.NVS_RECCNT, 8, 0⟩
def F.NVS_RECNEW_PAGE (r : Nat) : Fld := ⟨Reg.NVS_RECNEW r, 13, 0⟩
def F.NVS_RECNEW_SLOT (r : Nat) : Fld := ⟨Reg.NVS_RECNEW r, 19, 14⟩
def F.NVS_RECNEW_TIE (r : Nat) : Fld := ⟨Reg.NVS_RECNEW r, 27, 20⟩
def F.NVS_RECNEW_TIEDIFF (r : Nat) : Fld := ⟨Reg.NVS_RECNEW r, 28, 28⟩
def F.NVS_RECNEW_CFGERR (r : Nat) : Fld := ⟨Reg.NVS_RECNEW r, 29, 29⟩
def F.NVS_RECNEW_NONE (r : Nat) : Fld := ⟨Reg.NVS_RECNEW r, 30, 30⟩
def F.NVS_RECNEW_VALID (r : Nat) : Fld := ⟨Reg.NVS_RECNEW r, 31, 31⟩
def F.RTC_CTL_HALT : Fld := ⟨Reg.RTC_CTL, 0, 0⟩
def F.RTC_CTL_MEASGO : Fld := ⟨Reg.RTC_CTL, 8, 8⟩
def F.RTC_CTL_MEASSTOP : Fld := ⟨Reg.RTC_CTL, 9, 9⟩
def F.RTC_CTL_APPLY : Fld := ⟨Reg.RTC_CTL, 16, 16⟩
def F.RTC_STAT_VALID : Fld := ⟨Reg.RTC_STAT, 0, 0⟩
def F.RTC_STAT_BKLOST : Fld := ⟨Reg.RTC_STAT, 1, 1⟩
def F.RTC_STAT_HALTED : Fld := ⟨Reg.RTC_STAT, 2, 2⟩
def F.RTC_STAT_MEAS : Fld := ⟨Reg.RTC_STAT, 3, 3⟩
def F.RTC_STAT_PROPVALID : Fld := ⟨Reg.RTC_STAT, 4, 4⟩
def F.RTC_STAT_ONVBAT : Fld := ⟨Reg.RTC_STAT, 5, 5⟩
def F.RTC_STAT_FLAGS : Fld := ⟨Reg.RTC_STAT, 11, 8⟩
def F.RTC_ERR_WNOHALT : Fld := ⟨Reg.RTC_ERR, 0, 0⟩
def F.RTC_ERR_BADTIME : Fld := ⟨Reg.RTC_ERR, 1, 1⟩
def F.RTC_ERR_HOLDOVF : Fld := ⟨Reg.RTC_ERR, 2, 2⟩
def F.RTC_ERR_FRZTMO : Fld := ⟨Reg.RTC_ERR, 3, 3⟩
def F.RTC_ERR_ALMPAST : Fld := ⟨Reg.RTC_ERR, 4, 4⟩
def F.RTC_ERR_MEASFAIL : Fld := ⟨Reg.RTC_ERR, 5, 5⟩
def F.RTC_ERR_TRIMSAT : Fld := ⟨Reg.RTC_ERR, 6, 6⟩
def F.RTC_ERR_BRAMPAR : Fld := ⟨Reg.RTC_ERR, 7, 7⟩
def F.RTC_SUBSEC_SUBSEC : Fld := ⟨Reg.RTC_SUBSEC, 14, 0⟩
def F.RTC_SEC_VALUE : Fld := ⟨Reg.RTC_SEC, 5, 0⟩
def F.RTC_MIN_VALUE : Fld := ⟨Reg.RTC_MIN, 5, 0⟩
def F.RTC_HOUR_HOUR : Fld := ⟨Reg.RTC_HOUR, 4, 0⟩
def F.RTC_DAY_DAY : Fld := ⟨Reg.RTC_DAY, 4, 0⟩
def F.RTC_MONTH_MONTH : Fld := ⟨Reg.RTC_MONTH, 3, 0⟩
def F.RTC_YEAR_YEAR : Fld := ⟨Reg.RTC_YEAR, 15, 0⟩
def F.RTC_ALM0_SEC : Fld := ⟨Reg.RTC_ALM0, 5, 0⟩
def F.RTC_ALM0_MIN : Fld := ⟨Reg.RTC_ALM0, 13, 8⟩
def F.RTC_ALM0_HOUR : Fld := ⟨Reg.RTC_ALM0, 20, 16⟩
def F.RTC_ALM0_DAY : Fld := ⟨Reg.RTC_ALM0, 28, 24⟩
def F.RTC_ALM1_MONTH : Fld := ⟨Reg.RTC_ALM1, 3, 0⟩
def F.RTC_ALM1_YEAR : Fld := ⟨Reg.RTC_ALM1, 31, 16⟩
def F.RTC_ALMCTL_ARM : Fld := ⟨Reg.RTC_ALMCTL, 0, 0⟩
def F.RTC_ALMCTL_FIRED : Fld := ⟨Reg.RTC_ALMCTL, 1, 1⟩
def F.RTC_ALMCTL_ALARM_LATE : Fld := ⟨Reg.RTC_ALMCTL, 2, 2⟩
def F.RTC_HELD_COUNT : Fld := ⟨Reg.RTC_HELD, 16, 0⟩
def F.RTC_WAKEPER_PER : Fld := ⟨Reg.RTC_WAKEPER, 24, 0⟩
def F.RTC_TWPOS_COUNT : Fld := ⟨Reg.RTC_TWPOS, 22, 0⟩
def F.RTC_TRIM_T : Fld := ⟨Reg.RTC_TRIM, 11, 0⟩
def F.RTC_MEASWIN_SEC : Fld := ⟨Reg.RTC_MEASWIN, 16, 0⟩
def F.RTC_TRIMPROP_T : Fld := ⟨Reg.RTC_TRIMPROP, 11, 0⟩
def F.SEC_STAT_FIELDLOCK : Fld := ⟨Reg.SEC_STAT, 0, 0⟩
def F.SEC_STAT_OPEN : Fld := ⟨Reg.SEC_STAT, 1, 1⟩
def F.SEC_STAT_OPENBY : Fld := ⟨Reg.SEC_STAT, 3, 2⟩
def F.SEC_STAT_SLOTSET : Fld := ⟨Reg.SEC_STAT, 7, 4⟩
def F.SEC_STAT_SLOTREV : Fld := ⟨Reg.SEC_STAT, 11, 8⟩
def F.SEC_STAT_PWDSET : Fld := ⟨Reg.SEC_STAT, 12, 12⟩
def F.SEC_STAT_CHVALID : Fld := ⟨Reg.SEC_STAT, 13, 13⟩
def F.SEC_STAT_VERBUSY : Fld := ⟨Reg.SEC_STAT, 14, 14⟩
def F.SEC_STAT_ATTBUSY : Fld := ⟨Reg.SEC_STAT, 15, 15⟩
def F.SEC_STAT_ATTRDY : Fld := ⟨Reg.SEC_STAT, 16, 16⟩
def F.SEC_EVT_FLAGS : Fld := ⟨Reg.SEC_EVT, 3, 0⟩
def F.SEC_WINCFG_MIN : Fld := ⟨Reg.SEC_WINCFG, 10, 0⟩
def F.SEC_WINLEFT_SEC : Fld := ⟨Reg.SEC_WINLEFT, 16, 0⟩
def F.SEC_PWD_FAILS : Fld := ⟨Reg.SEC_PWD, 7, 0⟩
def F.SEC_PWD_DELAY : Fld := ⟨Reg.SEC_PWD, 28, 16⟩
def F.SEC_AUTHCNT_UNLOCKFAIL : Fld := ⟨Reg.SEC_AUTHCNT, 15, 0⟩
def F.SEC_AUTHCNT_SIGFAIL : Fld := ⟨Reg.SEC_AUTHCNT, 31, 16⟩
def F.SEC_SECVER_RUNTIME : Fld := ⟨Reg.SEC_SECVER, 5, 0⟩
def F.SEC_SECVER_NETFW : Fld := ⟨Reg.SEC_SECVER, 13, 8⟩
def F.SEC_SECVER_PMUFW : Fld := ⟨Reg.SEC_SECVER, 21, 16⟩
def F.SEC_SECVER_CONFIG : Fld := ⟨Reg.SEC_SECVER, 29, 24⟩
def F.UPD_CFG_WINMIN : Fld := ⟨Reg.UPD_CFG, 10, 0⟩
def F.UPD_CFG_WARN : Fld := ⟨Reg.UPD_CFG, 21, 16⟩
def F.UPD_STAT_FLSIZE : Fld := ⟨Reg.UPD_STAT, 1, 0⟩
def F.UPD_STAT_FLOK : Fld := ⟨Reg.UPD_STAT, 2, 2⟩
def F.UPD_STAT_WAITCOMP : Fld := ⟨Reg.UPD_STAT, 6, 4⟩
def F.UPD_STAT_FLAGS : Fld := ⟨Reg.UPD_STAT, 11, 8⟩
def F.UPD_CSTAT_STATE (c : Nat) : Fld := ⟨Reg.UPD_CSTAT c, 2, 0⟩
def F.UPD_CSTAT_ACTSLOT (c : Nat) : Fld := ⟨Reg.UPD_CSTAT c, 4, 4⟩
def F.UPD_CSTAT_OTHERVALID (c : Nat) : Fld := ⟨Reg.UPD_CSTAT c, 5, 5⟩
def F.UPD_CSTAT_CHK (c : Nat) : Fld := ⟨Reg.UPD_CSTAT c, 11, 8⟩
def F.UPD_CSTAT_FAILS (c : Nat) : Fld := ⟨Reg.UPD_CSTAT c, 14, 12⟩
def F.UPD_NBLK_NBLK (c : Nat) : Fld := ⟨Reg.UPD_NBLK c, 13, 0⟩
def F.UPD_NBLK_RCVD (c : Nat) : Fld := ⟨Reg.UPD_NBLK c, 29, 16⟩
def F.UPD_WINLEFT_SEC (c : Nat) : Fld := ⟨Reg.UPD_WINLEFT c, 16, 0⟩

/-- The rows of the block that owns offset off (R18). -/
def rowsAt (off : Nat) : List RegRow :=
  match off / 0x1000 with
  | 0x0 => rowsSYS
  | 0x1 => rowsSUP
  | 0x2 => rowsCLK
  | 0x3 => rowsPMU
  | 0x4 => rowsWDT
  | 0x5 => rowsINT
  | 0x10 => rowsTSK
  | 0x11 => rowsANG
  | 0x12 => rowsFRP
  | 0x13 => rowsIMG
  | 0x14 => rowsXCH
  | 0x15 => rowsHSB
  | 0x16 => rowsSTD
  | 0x20 => rowsQUE
  | 0x21 => rowsHST
  | 0x30 => rowsETH
  | 0x31 => rowsETH
  | 0x32 => rowsETH
  | 0x33 => rowsETH
  | 0x34 => rowsSWX
  | 0x35 => rowsPTP
  | 0x40 => rowsCAN
  | 0x41 => rowsCAN
  | 0x42 => rowsCAN
  | 0x43 => rowsCAN
  | 0x50 => rowsBIO
  | 0x51 => rowsADC
  | 0x60 => rowsNVS
  | 0x61 => rowsRTC
  | 0x70 => rowsSEC
  | 0x71 => rowsUPD
  | _ => []

/-- The row of the register at offset off, if a table assigns it. -/
def rowOf (off : Nat) : Option RegRow := (rowsAt off).find? (fun r => r.hits off)

/-- R335: INT_SRCCFG[i].CLASS at reset. -/
def classAtReset (i : Nat) : Nat :=
  if i ≤ 63 then 1
  else if i ≤ 71 then 3
  else if i ≤ 135 then 1
  else if i ≤ 139 then 0
  else if i ≤ 143 then 1
  else if i ≤ 155 then 2
  else if i ≤ 167 then 1
  else if i ≤ 171 then 0
  else if i ≤ 175 then 1
  else if i ≤ 179 then 0
  else if i ≤ 183 then 1
  else 0

/-- The supported version range of interface i, SYS_IFVER[i] (R34, 01_device_organisation.md). -/
def ifverAtReset (i : Nat) : BitVec 32 :=
  match i with
  | 0 => 0x02000302 | 1 => 0x01000100 | 2 => 0x01000201 | 3 => 0x01000203 | 4 => 0x04000500 | 5 => 0x02000200 | _ => 0

/-- What a register that nothing has written holds: its reset value. -/
def resetWordAt (off : Nat) : BitVec 32 :=
  if 0x80 ≤ off ∧ off < 0x98 then ifverAtReset ((off - 0x80) / 4)
  else if 0x5100 ≤ off ∧ off < 0x5500 then BitVec.ofNat 32 (classAtReset ((off - 0x5100) / 4))
  else if off = 0x20000 then 0x00000188
  else match rowOf off with
    | some r => r.resetWord
    | none => 0

end Sys2Proof.Machine
end

