-- ==== Sys2Proof/Machine/State.lean ====
section
/-!
DEFINITION. The state of the 9060: plain data, one structure per block, and its value right after reset. The registers
of every block stand in one register file keyed by CSR offset; what the registers do not show (memories, register
banks, queues, timelines, sessions, line and link states) has fields of its own. Fields marked MODEL are the model's
own and no state of the spec.
-/
namespace Sys2Proof.Machine

/-- A byte memory in canonical form; an unlisted address reads 0 (assumption 4). -/
abbrev Memory := List Host.Cell

/-- An image (R47, R48): 64-bit words by their word offset; an unlisted word reads 0 (assumption 4). -/
abbrev Image := Sparse Word64

/-- R62, R63: the operating modes, coded as UCB MODE. -/
inductive Mode where
  | run | remote | stop | program
deriving DecidableEq, Repr

/-- Where the device stands between power-on and deep sleep (R389, R394, R396, R439, R481, R483). -/
inductive Phase where
  /-- No supply, or the rails are down. -/
  | off
  /-- Device reset is asserted. -/
  | reset
  /-- Device reset is released; the boot ROM has not handed over yet. -/
  | rom
  /-- The runtime firmware prepares the program; no scan yet (R481). -/
  | prep
  /-- MODEL: within the first scan, between the configuration check and the entry into the key's mode. -/
  | check
  /-- The first scan or the ready state has been reached. -/
  | ready
  /-- Spore mode (R448). -/
  | spore
  /-- Deep sleep. -/
  | sleep
deriving DecidableEq, Repr

/-! ## Scan cores and tasks -/

/-- R104: a load whose register write is still to come; left instructions of the run must end before it. -/
structure ShadowWrite where
  toX : Bool
  reg : Nat
  value : Word
  left : Nat
deriving DecidableEq, Repr

/-- R87: the registers of one bank. -/
structure Bank where
  w : Sparse Word := []
  x : Sparse Word := []
  a : Sparse (BitVec 72) := []
  /-- The bit accumulator stack, its top entry first. -/
  ba : List Bool := []
  fl : Word := 0
  /-- R87 uses 22 bits; a branch target outside local code is held whole, to be faulted when it is fetched (R103). -/
  pc : Word := 0
  tb : Word := 0
  shadow : List ShadowWrite := []
  /-- R55, R96: the repetitions left of an instruction under REP that a preemption has broken off; 0 outside one. -/
  repLeft : Nat := 0
  /-- R97: the condition of that instruction is false. -/
  repSkip : Bool := false
deriving DecidableEq, Repr

/-- R46: a release of a task: the instants, the angle and the marks that its run's task context records. -/
structure Release where
  mono : Nat := 0
  /-- Station time in ns since its epoch. -/
  station : Nat := 0
  angle : Word := 0
  /-- The unwrapped angle U of the release point (R77). -/
  u : Int := 0
  angq : Word := 0
  tq : Nat := 3
  late : Bool := false
  tladj : Bool := false
deriving DecidableEq, Repr

/-- R44, R55: the step of a run that comes next; each ends at a preemption boundary. -/
inductive Stage where
  /-- R191: the carry-over; in the read for entry ecc a double-bit error is met. -/
  | carry (ecc : Option Nat)
  /-- The input latch. -/
  | latch
  /-- The logic: instructions. -/
  | logic
  /-- The output commit. -/
  | commit
  /-- R225: the mirror sync. -/
  | mirror
deriving DecidableEq, Repr

/-- R54: a run that a core holds, in progress or preempted. -/
structure Run where
  task : Nat
  bank : Nat
  rel : Release
  /-- The run has overrun under FINISH (R57) and goes on. -/
  overrun : Bool := false
  /-- R225: the run has committed and waits for the MIRROR of its mirror sync. -/
  sync : Bool := false
  stage : Stage := .logic
deriving DecidableEq, Repr

/-- R87, R54: one scan core. -/
structure Core where
  /-- MODEL: the instant in MONO up to which the core has worked. -/
  time : Nat := 0
  /-- The runs held, the highest first. -/
  runs : List Run := []
  /-- R54: the run of this task has ended above the first run of the list, which stays preempted because a READY task is
  to be dispatched above it. -/
  waiting : Option Nat := none
  banks : Sparse Bank := []
  /-- TSK_CORELOAD: busy ticks in a second of MONO and in the one before it, and that second. -/
  busy : Nat := 0
  busyPrev : Nat := 0
  busySec : Nat := 0
deriving DecidableEq, Repr

/-- R52, R77: when a waiting commit becomes effective. -/
inductive Due where
  /-- An instant of MONO. -/
  | time (mono : Nat)
  /-- A value of the unwrapped angle U. -/
  | angle (u : Int)
deriving DecidableEq, Repr

/-- R52: a commit that has ended and waits for its output instant: its words (64-bit word offset, word). -/
structure WaitingCommit where
  due : Due
  words : List (Nat × Word64)
deriving DecidableEq, Repr

/-- What the scheduler, the image engine and the monitor hold for one task beside its registers. -/
structure Task where
  /-- The task has been started by a mode change and is being released (R63). -/
  live : Bool := false
  /-- No run has been dispatched since the start (TC_FLAGS.FIRST). -/
  first : Bool := false
  /-- The next run is the first after an exchange (TC_FLAGS.EXCH). -/
  exch : Bool := false
  /-- The next run is the first after a warm resume (TC_FLAGS.RESUME). -/
  resume : Bool := false
  /-- TC_RUN of the last run (R46). -/
  runNo : Word := 0
  /-- Releases dropped since the previous run (TC_SKIP). -/
  skips : Nat := 0
  /-- A release that waits for its dispatch (READY). -/
  ready : Option Release := none
  /-- A release that is pending (R41, R42). -/
  pend : Option Release := none
  /-- An event release held for its minimum interval (R41): the instant at which that passes. -/
  held : Option Nat := none
  /-- MONO of the last release instant. -/
  lastRel : Option Nat := none
  /-- R38, R39: the next point of the release timeline of a periodic task in MONO. -/
  next : Nat := 0
  /-- R38: the task started at this MONO, and no point of its grid has been reached since. -/
  since : Option Nat := none
  /-- R76: the value of U of the next unreleased point. -/
  nextU : Int := 0
  /-- R76: the catch-up queue. -/
  catchup : List Release := []
  /-- R41: arrivals of the releasing source, each with the instant 8 ticks after its raise. -/
  arrivals : List Nat := []
  /-- R52: the commit that waits for its output instant. -/
  commit : Option WaitingCommit := none
  /-- The words of the last effective commit (R52). -/
  effective : List (Nat × Word64) := []
  /-- R64: highest USED of a completed run, total ticks and completed runs (TSK_ULATCH0 to 3). -/
  maxUsed : Word := 0
  total : Word64 := 0
  runs : Word := 0
  /-- R410: the monitor window is open. -/
  window : Bool := false
deriving DecidableEq, Repr

/-- R63: a mode change that waits for task run boundaries: its target and the tasks that have yet to pass. -/
structure ModeChange where
  target : Mode
  waiting : List Nat
deriving DecidableEq, Repr

/-! ## Angle tracker -/

/-- R71, R72: what makes the angle advance. -/
inductive AngleGen where
  /-- The nominal rate, steered to the station-time grid. -/
  | synth
  /-- A rate in Q16.16 Hz. -/
  | rate (freq : Nat)
deriving DecidableEq, Repr

/-- R69: one comparison with the valid reference: its unwrapped compensated phase, MONO, and the frequency then measured;
none before the first complete cycle. -/
structure Compared where
  phase : Int
  mono : Nat
  freq : Option Word
deriving DecidableEq, Repr

/-- Transit (03_mains_angle.md). U at MONO t follows from u0 at t0 (and the station time s0 then) by the generator. -/
structure Angle where
  u0 : Int := 0
  t0 : Nat := 0
  s0 : Nat := 0
  gen : AngleGen := .synth
  /-- R73: before the load of station time the angle advances in MONO at the nominal rate. -/
  loaded : Bool := false
  /-- R74: the part of a deviation that a slew has yet to take up, at t0. -/
  slew : Int := 0
  /-- The reference is valid (R70). -/
  valid : Bool := false
  /-- R69: the measured frequency; none before the first complete cycle. -/
  freq : Option Word := none
  /-- R69: the comparisons since the reference became valid, the latest first, as far back as 16 cycles of it. -/
  hist : List Compared := []
  /-- R70: MONO of the last rising edge of ZC_IN. -/
  lastEdge : Option Nat := none
  /-- R84: |ANG_ROCOF| stands above ANG_ROCLIM. -/
  rocHigh : Bool := false
  /-- The last deviation measured (ANG_DEV), and the compensated phase that gave it. -/
  dev : Word := 0
  lastPhase : Option Word := none
  /-- R71: frequencies of the measured cycles, meridian to meridian, the latest first. -/
  cycleFreq : List Word := []
  /-- MONO at which HOLDOVER was entered. -/
  holdFrom : Nat := 0
  /-- R74: consecutive samples or edges with a deviation above ANG_STEPTH, and that deviation. -/
  confirm : Nat := 0
  jumpSize : Int := 0
  /-- R72, R74: a deviation that comes from a change of generator is confirmed at this instant of MONO. -/
  confirmAt : Option Nat := none
  /-- R74: U just after the last jump, while STEP is shown. -/
  stepU : Option Int := none
  /-- R80: number of the next sample point in U. -/
  nextPoint : Int := 1
  /-- R83: second and number of the next time-locked sample. -/
  tlSecond : Nat := 0
  tlNext : Nat := 0
  /-- R83: the samples produced, in ranges of second × rate + number, the one in progress first. -/
  tlMade : List (Nat × Nat) := []
deriving DecidableEq, Repr

/-! ## Station time -/

/-- R249, R253: one PTP domain beside its registers. -/
structure Domain where
  /-- Consecutive Syncs within ±50 ns, and beyond ±200 ns. -/
  near : Nat := 0
  far : Nat := 0
  /-- MONO of the last Sync and of the last Announce. -/
  lastSync : Nat := 0
  lastAnnounce : Nat := 0
  /-- MONO at which the servo was last LOCKED. -/
  usableAt : Nat := 0
  /-- The grandmaster in use. -/
  best : Option Announce := none
  /-- R270: identity and clockClass of the grandmaster that was last in use, which a restart leaves as they are. -/
  known : Option (BitVec 64 × BitVec 8) := none
  /-- R254: the port in use has changed, and no Sync has come through the new one. -/
  moved : Bool := false
deriving DecidableEq, Repr

/-- R246 to R252: the station-time counter. At MONO t it follows from base at t0. -/
structure StationTime where
  base : Nat := 0
  t0 : Nat := 0
  /-- Frequency correction in 1/65,536 ppm. -/
  corr : Int := 0
  /-- R251: the part of a source change not yet slewed in, at t0, in ns. -/
  slew : Int := 0
  /-- R248: the source bound B; none: no source followed since device reset, or the time set by command since. -/
  bound : Option Nat := none
  /-- The followed source is usable, or the instant in MONO at which it last was. -/
  usable : Bool := false
  usableAt : Nat := 0
  dom0 : Domain := {}
  dom1 : Domain := {}
  /-- R255: the source that station time last followed. -/
  lastSrc : Nat := 0
  /-- R250: a source strictly better than the current one, and since when. -/
  better : Option (Nat × Nat) := none
  /-- R257: seconds (TAI) of the last IRIG-B frame, MONO of its on-time edge, its offset from station time in ns, frames
  for which IRIGOK stays 0, and the leap flags. -/
  irigSec : Option Nat := none
  irigEdge : Nat := 0
  irigOfs : Int := 0
  irigBad : Nat := 0
  irigLeap : Nat := 0
  /-- R258: MONO of the last PPS_IN edge, and the MONO at which PPS_OUT, now high, falls. -/
  ppsEdge : Option Nat := none
  ppsUntil : Option Nat := none
deriving DecidableEq, Repr

/-! ## Station network -/

/-- R327, R420: where the response to a command goes: its channel, CMD, TAG and COST. -/
structure ReplyTo where
  ch : Channel
  cmd : Nat
  tag : BitVec 16
  cost : Nat
deriving DecidableEq, Repr

/-- R253: the contents of a PTP message that the 9060 sends. -/
inductive PtpBody where
  | sync (twoStep : Bool)
  | followUp
  | announce (a : Announce)
  | pdelayReq
  | pdelayResp
deriving DecidableEq, Repr

/-- R247, R253: a PTP message that the 9060 sends: domainNumber, profile (true: IEEE C37.238), contents, the low 48 bits of
its seconds and its nanoseconds. -/
structure PtpSent where
  domain : Nat
  c37 : Bool
  body : PtpBody
  sec : BitVec 48 := 0
  ns : Nat := 0
deriving DecidableEq, Repr

/-- R264: what a publication's frame takes from its entry beside the values: TEST, PCP, APPID, DMAC, VID, CONFREV and the
template. -/
structure PubHead where
  test : Bool
  pcp : Nat
  appid : Nat
  dmac : Nat
  vid : Nat
  confRev : Nat
  template : List Byte
deriving DecidableEq, Repr

/-- R268: what a launch descriptor stands for. -/
inductive LaunchSrc where
  /-- A frame that the host posted: its offset and length in network buffer memory, and, with TSREQ, the command whose
  response carries the egress stamp. -/
  | host (offset len : Nat) (tsreq : Option ReplyTo)
  /-- GOOSE dataset: stNum, sqNum, timeAllowedtoLive in ms, t, and the members as they are encoded. -/
  | goose (e : Nat) (head : PubHead) (stNum sqNum : Word) (ttl : Nat) (t : Nat) (members : List Member)
  /-- SV stream: smpCnt of the first sample, smpSynch, and for each sample the values and the channels in fault. -/
  | sv (e : Nat) (head : PubHead) (smpCnt synch : Nat) (samples : List (List Word × Nat))
  /-- A PTP message sent on a schedule. -/
  | ptp (m : PtpSent)
deriving DecidableEq, Repr

/-- R268: a launch descriptor: its launch time in station-time ns, its frame with its redundancy tag (R242), and that it
is late whenever it leaves (R269). -/
structure Launch where
  at_ : Nat
  src : LaunchSrc
  tag : Option RedTag := none
  late : Bool := false
deriving DecidableEq, Repr

/-- R242: a frame that duplicate discard remembers. -/
structure Seen where
  cd : Bool
  src : BitVec 48
  seqNo : BitVec 16
  at_ : Nat
  /-- The duplicate has come. -/
  twice : Bool
deriving DecidableEq, Repr

/-- R259 to R263: a subscription beside its words. -/
structure Sub where
  /-- R263: tokens in 10^-9 frames, and the MONO at which they were counted. -/
  tokens : Nat := 0
  counted : Nat := 0
  /-- MONO of the last drop. -/
  lastDrop : Nat := 0
  /-- MONO at which the entry becomes STALE. -/
  staleAt : Option Nat := none
  sqNum : Word := 0
  applied : Bool := false
  missing : Nat := 0
deriving DecidableEq, Repr

/-- R264 to R266: a publication beside its words. -/
structure Pub where
  /-- The members of the last frame, and its t. -/
  last : Option (List Member) := none
  t : Nat := 0
  /-- GOOSE: MONO of the next retransmission, and the interval after it in ms. -/
  next : Option Nat := none
  interval : Nat := 0
  /-- The number of the step of the retransmission sequence. -/
  step : Nat := 0
  /-- SV: the time-locked count up to which samples have been published. -/
  sent : Word := 0
deriving DecidableEq, Repr

/-- What leaves a port beside launched frames, or leaves the device: the model's own record of it (assumption 5). -/
inductive PortMsg where
  /-- R243, R256: a frame that came from port p, with the correctionField of a PTP message. -/
  | forward (p : Nat) (corr : Option (BitVec 64)) (tag : Option RedTag)
  /-- R253: a PTP message that no schedule sends. -/
  | ptp (m : PtpSent)
  /-- R242, R272: a supervision frame: its destination, the pair address, and the nodes that the RedBox stands for. -/
  | supervision (dmac : BitVec 48) (mac : Nat) (proxies : List (BitVec 48)) (tag : Option RedTag)
deriving DecidableEq, Repr

/-- Network engine state that no register shows. -/
structure Net where
  /-- R245: tokens of the ingress limiter in bits × 10^-3, and the MONO at which they were counted, per port. -/
  tokens : Sparse Nat := []
  counted : Sparse Nat := []
  seen : List Seen := []
  /-- HSR pairs (CD or not) to which an own frame has come back since the last supervision interval. -/
  ownSeen : List Bool := []
  /-- R256: Δ of Syncs in two steps that wait for their Follow_Up: key, Δ. -/
  twoStep : List (Nat × Int) := []
  /-- R241: the last poll of register 1 found the link up, per port. -/
  phyUp : Sparse Bool := []
  /-- R241: a management frame is in progress until this MONO at the latest. -/
  mdioEnd : Option Nat := none
  phyIntLow : Bool := false
  /-- R241: SGMII of a port is up. -/
  sgmii : Sparse Bool := []
  /-- R242: the sequence number of the next frame of pair AB (0) and CD (1). -/
  txSeq : Sparse Nat := []
  /-- R243: the proxy node table of each pair, 0 AB and 1 CD. -/
  proxies : Sparse (List (BitVec 48)) := []
  /-- R244: reserved receive descriptors in use, per port. -/
  rsvUsed : Sparse Nat := []
  /-- R269: frames that wait for the end of a guard band, per port. -/
  held : Sparse (List PortMsg) := []
  /-- R259: words of the subscription table: 16 × entry + word. -/
  subWords : Sparse Word := []
  subs : Sparse Sub := []
  /-- R264: words of the publication table: 32 × entry + word. -/
  pubWords : Sparse Word := []
  pubs : Sparse Pub := []
  /-- R268: the launch queues: 8 × port + queue. -/
  launch : Sparse (List Launch) := []
deriving DecidableEq, Repr

/-! ## Queues, host and interrupts -/

/-- R320: a queue item, word 0 first. -/
structure Item where
  w0 : Word := 0
  w1 : Word := 0
  w2 : Word := 0
  w3 : Word := 0
deriving DecidableEq, Repr

/-- R323: an accepted item that the queue stores at the end of its fabric cycle, with the place of its producer in the
order of service: 0 BIO, 1 to 8 the scan cores, then the service core, the host port and the service port. -/
structure QueuePush where
  queue : Nat
  rank : Nat
  item : Item
deriving DecidableEq, Repr

/-- The item queues: what they hold, the oldest first; and of the fabric cycle in progress the accepted items, in the
order of service, and the queue of each pop (R323). -/
structure Queues where
  held : Sparse (List Item) := []
  cycle : Nat := 0
  pushes : List QueuePush := []
  pops : List Nat := []
deriving DecidableEq, Repr

/-- What leaves the device, and what its blocks hand to one another: the model's own record of it (assumption 5). -/
inductive Msg where
  /-- R332: an MSI-X message. -/
  | msix (vector : Nat)
  /-- R167: the levels of the pads BO00 to BO63. -/
  | pads (levels : Word64)
  /-- R269: a launched frame on port p, late or in time, with its redundancy tag. -/
  | frame (p : Nat) (src : LaunchSrc) (late : Bool) (tag : Option RedTag)
  /-- R268: the egress stamp of a launched frame, asked for by TSREQ. -/
  | txStamp (p : Nat) (station : Nat)
  /-- R240: another frame sent on port p. -/
  | port (p : Nat) (m : PortMsg)
  /-- R240, R244: a frame from port p given to its consumer, with its ingress stamp. -/
  | deliver (p : Nat) (etherType : BitVec 16) (stamp : Nat)
  /-- R241: a management frame: the word of SWX_MDIO that asks for it, and the level of PHY_RST_N. -/
  | mdio (v : Word)
  | phyReset (released : Bool)
  /-- R258: PPS_OUT rises for so many ms; PPS_OUT is held low. -/
  | pps (width : Nat)
  | ppsLow
  /-- R276: a frame sent on CAN channel n. -/
  | can (n : Nat) (f : CanFrame)
  /-- A pair message on path A and on path B (R207). -/
  | pair (a b : Bool) (head : PairHead) (m : PairMsg)
  /-- R211: a pattern written on LEASE_N: REFRESH, TRANSFER or PRESENCE. -/
  | refresh
  | transfer
  | presence
  /-- R237: the leader of a stand asks for a handover of the member pair at a position. -/
  | handoverRequest (pos : Nat)
  /-- R347, R352, R357: what a stand member sends, and what it passes on through port p. -/
  | standIdent (p : Nat) (m : StandIdent)
  | standCopy (m : StandCopy)
  | standStatus (m : StandStatus)
  | standForward (p : Nat) (m : StandCopy)
  | standPass (p : Nat) (m : StandStatus)
  /-- R363: a host read that completes with the poisoned bit. -/
  | poisoned (off : Nat)
  /-- R420: a RESPONSE on the UART or the LAN, or a CSRDATA: the words read, or one word with the STATUS. -/
  | response (ch : Channel) (bytes : List Byte)
  /-- R32, R417: a command forwarded to the device that its path names, with the class of its port. -/
  | forwardCmd (path : BitVec 128) (cmd cls : Nat)
  /-- R32: the path window asks another device. -/
  | pathAsk (path : List Nat)
  /-- R404: FAULT_N asserted or released. -/
  | faultN (asserted : Bool)
  /-- R392: HOLD_EN asserted or released. -/
  | holdEn (asserted : Bool)
  /-- R448: HELLO of spore mode, with the unit identity, SYS_IDCODE, SYS_ROMVER and per component the slot states of the
  directory (slot B active, the other slot valid, the other slot confirmed); ACK. -/
  | sporeHello (uid : List Byte) (idcode romver : Word) (slots : List (Bool × Bool × Bool))
  | sporeAck (ch : Channel) (bytes : List Byte)
  /-- R467: what a data register scan of the test access port shifts out. -/
  | tapData (words : List Word)
deriving DecidableEq, Repr

/-! ## Panel bus -/

/-- R284, R286: what the station engine holds for one station beside its registers. -/
structure Station where
  /-- The INPUT set being gathered: its SEQ, LAST, the stamp of its first segment, and its segments. -/
  seq : Nat := 0
  last : Nat := 0
  first : Nat := 0
  segs : List (Nat × List Byte) := []
  /-- A complete INPUT set has come since the last SYNC. -/
  got : Bool := false
  /-- The station had joined when the last SYNC was sent, so that cycle counts. -/
  expected : Bool := false
  /-- Consecutive cycles without an INPUT set (R288). -/
  missed : Nat := 0
  /-- R286: the station's output set count, and an OUTPUT set of a commit was sent since the last SYNC. -/
  outSeq : Nat := 0
  sent : Bool := false
  /-- R289: a commit became effective since the last RESYNC; RELEASE has left. -/
  fresh : Bool := false
  released : Bool := false
  /-- R290: SAFE was sent; RELEASE is due after the OUTPUT set that is being sent. -/
  held : Bool := false
  releaseDue : Bool := false
  /-- R287: the version range of its HELLO. -/
  range : Word := 0
deriving DecidableEq, Repr

/-- R278, R283, R286: one CAN channel beside its registers. -/
structure Can where
  /-- The receive FIFO, the oldest first: CMD, and words 0 to 19. -/
  fifo : List (Bool × List Word) := []
  /-- Frames of the engine and of the time master that wait in buffer 0, in the order of their making. -/
  engine : List CanFrame := []
  /-- MONO of the next SYNC and of the next reference message. -/
  nextSync : Option Nat := none
  nextRef : Option Nat := none
  /-- Time master: the cycle count, and the station time of the start of frame of the previous reference message. -/
  refCycle : Nat := 0
  refPrev : Option Nat := none
  /-- Time slave: own station time of the last reference message's start of frame, and MONO of its arrival. -/
  slavePrev : Option Nat := none
  refSeen : Option Nat := none
  /-- R290: after a claim OUTPUT sets start from the next commit. -/
  outputsFrom : Bool := true
  stations : Sparse Station := []
deriving DecidableEq, Repr

/-! ## Binary and analog I/O, fast rung plane -/

/-- R295, R296: a debounce episode: the stamp and time quality of its first edge, its debounce time in ns, and the
instant at which the input will have been stable for that time. -/
structure Episode where
  stamp : Nat
  tq : Nat
  deb : Nat
  due : Nat
deriving DecidableEq, Repr

/-- R301: the readback comparison of one output: the end of its suspension, and since when the comparison differs
from what MMLIVE shows. -/
structure Readback where
  settleEnd : Nat := 0
  since : Option Nat := none
deriving DecidableEq, Repr

/-- R308, R309: one comparator: consecutive samples at or above LEVEL, and the written words that wait for the next
sample. -/
structure Comparator where
  count : Nat := 0
  held0 : Option Word := none
  held : Option (Word × Word) := none
deriving DecidableEq, Repr

/-- R306, R307: a sample set on its way to the input image: the MONO at which it enters, whether it is angle-locked, its
COUNT and its words. -/
structure SampleSet where
  due : Nat
  angle : Bool
  count : Word
  words : List Word64
deriving DecidableEq, Repr

/-- BIO and ADC state that no register shows. -/
structure Io where
  /-- Levels at the balls of BI00 to BI95 and BRB00 to BRB31. -/
  biPin : BitVec 96 := 0
  brbPin : Word := 0
  episodes : Sparse (Option Episode) := []
  readback : Sparse Readback := []
  /-- R313: L at entry into deep sleep. -/
  sleepL : BitVec 96 := 0
  comparators : Sparse Comparator := []
  /-- R308: the newest calibrated samples of the main stream of each channel, the newest first. -/
  window : Sparse (List (BitVec 24)) := []
  /-- R305: channels that are stuck, and channels in overload. -/
  stuck : BitVec 24 := 0
  overload : BitVec 24 := 0
  /-- R305: the internal reference lies within its limits. -/
  refIn : Bool := true
  /-- R305: the first evaluation after reset or resume is done. -/
  evaluated : Bool := false
  /-- R306: sets produced since device reset, angle-locked and time-locked. -/
  alCount : Word := 0
  tlCount : Word := 0
  /-- R307: sets produced that have not entered the input image yet, the oldest first. -/
  sets : List SampleSet := []
deriving DecidableEq, Repr

/-- The path from the output image to the pads (R52, R167). -/
structure Outs where
  /-- MODEL: task outputs, gate or ownership may have changed. -/
  dirty : Bool := false
  /-- T of the 64 outputs as last computed, and as it stands in the combination. -/
  t : Word64 := 0
  tComb : Word64 := 0
  /-- Values of T on their way to the combination and of the pads on their way to the balls, each with its instant. -/
  tPipe : List (Nat × Word64) := []
  padPipe : List (Nat × Word64) := []
  /-- R168: changes of F of the sweep in progress, each with the end of its tick, the output and its F. -/
  fPipe : List (Nat × Nat × Bool) := []
  /-- R401: the supervisor drives the outputs to their safe values. -/
  forced : Bool := false
deriving DecidableEq, Repr

/-- A rung of the fast rung table (R159). -/
abbrev Rung := BitVec 128

/-- Fast rung plane state that no register shows. -/
structure Plane where
  active : Sparse Rung := []
  shadow : Sparse Rung := []
  markers : BitVec 1024 := 0
  /-- R155: the fast image at the end of the sweep before the last one, and at the end of the last one. -/
  before : BitVec 4096 := 0
  image : BitVec 4096 := 0
  /-- The boundary of the last sweep. -/
  last : Option Nat := none
  /-- R171: when the check in progress ends at the latest; the instant at which a check passed, while its swap is due. -/
  checkEnd : Option Nat := none
  swapDue : Option Nat := none
  /-- R169: the instant at which the mode, and so the set of groups to run, last changed. -/
  modeAt : Nat := 0
  /-- R193: rung carry entries of an exchange (old, new) for the swap that is due. -/
  carry : List (Nat × Nat) := []
  /-- R172: the swap that is due is one of the exchange controller. -/
  byExchange : Bool := false
  /-- R173: rung with a double-bit error that the last sweep met in the active copy. -/
  ded : Option Nat := none
deriving DecidableEq, Repr

/-! ## Online exchange -/

/-- R179, R181: the registers of a task that an exchange changes, with its carry-over costs and its data span; a span of
0 is not known. -/
structure XTask where
  task : Nat
  code : Word
  budget : Word
  trgn : Word
  oinst : Word
  fwd : Nat := 0
  inv : Nat := 0
  bytes : Nat := 0
deriving DecidableEq, Repr

/-- R182: a map entry, word 0 to word 3. -/
structure MapEntry where
  w0 : Word
  w1 : Word
  w2 : Word
  w3 : Word
deriving DecidableEq, Repr

/-- R191: a carry-over that waits for its task's first run: its entries, the addresses of the source and target data in
the core's data memory, and its cost. -/
structure Carry where
  entries : List MapEntry
  src : Nat
  dst : Nat
  cost : Nat
  /-- R196: the span of the source data in bytes, held until the carry-over is complete. -/
  span : Nat := 64
deriving DecidableEq, Repr

/-- The exchange controller beside its registers (08_online_exchange.md). -/
structure Exch where
  /-- Port class of the command that began the exchange. -/
  cls : Nat := 0
  /-- The staged version, and the values recorded at the switch. -/
  tasks : List XTask := []
  olds : List XTask := []
  fwd : List MapEntry := []
  inv : List MapEntry := []
  /-- Entries of IMG_RGN that the staging wrote. -/
  regions : List Nat := []
  /-- R193: rung carry (old, new), and that a rung table was staged. -/
  rungs : List (Nat × Nat) := []
  frp : Bool := false
  newVer : Word := 0
  baseVer : Word := 0
  /-- Confirmation window in seconds. -/
  window : Nat := 0
  /-- Instants of MONO: staging ends, the boundary times out, the window ends. -/
  stageEnd : Option Nat := none
  btmo : Option Nat := none
  winEnd : Option Nat := none
  warned : Bool := false
  /-- The revert that is sought follows from expiry. -/
  expired : Bool := false
  /-- R191, R197: carry-overs by task. -/
  carries : Sparse (Option Carry) := []
  /-- R178: data spans of the running tasks in bytes, as the last full load or switch has recorded them. -/
  spans : Sparse Nat := []
  /-- R178: the task data loaded by the full load in progress: core, offset and length. -/
  loaded : List (Nat × Nat × Nat) := []
  /-- R201: run numbers at which this member's tasks switch, the tasks that switch late, and the direction. -/
  switchAt : Sparse (Option Word) := []
  late : List Nat := []
  reverting : Bool := false
  /-- R201: the holder has confirmed, at expiry or not, while tasks of this member have yet to switch. -/
  confirmDue : Option Bool := none
  /-- R199: a device reset has ended an exchange after its switch. -/
  lost : Bool := false
  /-- R200: NEWVER and BASEVER as the peer last reported them. -/
  peerVers : Option (Word × Word) := none
deriving DecidableEq, Repr

/-! ## Hot standby -/

/-- R229: a handover in progress: H in own MONO, this member gives (out) or takes, the acknowledgement has come, the GOOSE
counters that travel with it. -/
structure Handover where
  at_ : Nat
  out : Bool
  acked : Bool := false
  stNums : List Word := []
  /-- R230: the giver held publication at H. -/
  pub : Bool := false
  /-- R230: H has passed, and the check at H + 60 µs is due. -/
  done : Bool := false
deriving DecidableEq, Repr

/-- The hot-standby controller beside its registers (09_hot_standby.md). Instants are of MONO. -/
structure Hsb where
  seq : Word := 0
  nextHb : Option Nat := none
  /-- R208: the last valid heartbeat on path A and on path B. -/
  lastA : Option Nat := none
  lastB : Option Nat := none
  peer : Option Heartbeat := none
  /-- R213: the next refresh slot, that the previous REFRESH read back, and the end of the lease timer. -/
  slot : Option Nat := none
  readBack : Bool := true
  leaseEnd : Option Nat := none
  /-- R211, R214: the end of the last REFRESH or TRANSFER decoded, and the instant of the PRESENCE that is due. -/
  lastRefresh : Nat := 0
  presenceDue : Option Nat := none
  lastPresence : Nat := 0
  /-- R211: the standby's last PRESENCE has not been decoded; since when the peer's heartbeats show a standby; the line
  decodes as UNREADABLE. -/
  presenceSent : Bool := false
  peerStandFrom : Option Nat := none
  unreadable : Bool := false
  /-- R216: the end of the first claim frame; not before this instant may a claim be made. -/
  claimEnd : Option Nat := none
  claimFrom : Nat := 0
  /-- R217: the end of the observation, the line driver test, a REFRESH decoded meanwhile, PREF of the peer. -/
  joinEnd : Option Nat := none
  driverOk : Bool := false
  sawRefresh : Bool := false
  joined : Bool := false
  /-- R219: the pattern decoded on ROLE1: 0 HOLD, 1 RELINQUISH, 2 FREE, 3 UNABLE, 4 UNREAD. -/
  role1 : Nat := 4
  /-- R219, R220: RELINQUISH is driven until then; publication was given up and the peer has not answered. -/
  relinquishEnd : Option Nat := none
  gaveUp : Bool := false
  /-- R219: RELINQUISH has been driven for 2 ms, and publication has not been taken since. -/
  unable : Bool := false
  /-- R221: when the peer was last shown to hold publication. -/
  peerPub : Nat := 0
  handover : Option Handover := none
  /-- R231: the end of the hold-off, and the instants of the claims against the preferred member. -/
  holdoff : Option Nat := none
  claims : List Nat := []
  /-- R236: claims and completed handovers since the pair formed. -/
  claimCount : Nat := 0
  handoverCount : Nat := 0
  /-- R234: the holder has shown this member's RUNVER since joining. -/
  matched : Bool := false
  /-- R227: cores on which a sync has been applied since joining. -/
  syncCores : BitVec 8 := 0
  /-- R226: MIRROR messages that wait for their sync, by core. -/
  mirrors : Sparse (Option Mirror) := []
  /-- R226: the run of each core whose sync was last discarded. -/
  lateRuns : Sparse (Option Word) := []
  /-- R225: the sync of a core waits for the MIRROR of its run: run number, latest instant. -/
  waits : Sparse (Option (Word × Nat)) := []
  /-- R221, R267: GOOSE counters of the last mirror sync. -/
  stNums : List Word := []
  /-- R226: the latest releases of each task, the newest first: station time, run number. -/
  released : Sparse (List (Nat × Word)) := []
  /-- R231: RETURN_REQ was sent since the hold-off last started. -/
  returnSent : Bool := false
  /-- R234: cores loaded by the PAIRLOAD in progress; none when none is. -/
  loading : Option (BitVec 8) := none
deriving DecidableEq, Repr

/-! ## Stands -/

/-- R347, R357: another member of the segment: its IDENT, its distance in links through port 0 and port 1 where it is
reached so, the ports through which it has been heard since the last boundary, and its last STATUS. -/
structure StandMember where
  ident : StandIdent
  hops0 : Option Nat := none
  hops1 : Option Nat := none
  seen0 : Bool := false
  seen1 : Bool := false
  status : Option StandStatus := none
deriving DecidableEq, Repr

/-- The stand link beside its registers (14_stands.md). -/
structure Stand where
  members : List StandMember := []
  /-- R346: the version range of the neighbour at each port. -/
  ranges : Sparse Word := []
  /-- R343: the segment is a closed ring. -/
  ring : Bool := false
  /-- R347: this device is not admitted. -/
  out : Bool := false
  /-- R348: the acting leader. -/
  leader : Option (BitVec 128) := none
  /-- R349: the offset to the leader's MONO has been measured since it leads. -/
  known : Bool := false
  /-- R349: the next boundary in the MONO of the leader, and the last one in own MONO. -/
  nextB : Option Nat := none
  lastB : Option Nat := none
deriving DecidableEq, Repr

/-! ## Retained storage and calendar -/

/-- R362, R365, R371, R373: what the NVS controller has yet to do for a write in progress. -/
inductive NvsOp where
  /-- Bytes from an address on, all of one 8-byte word. -/
  | bytes (off : Nat) (l : List Byte)
  /-- NVS_JHEAD and NVS_JSLOT follow a journal entry. -/
  | head (num : Word) (slot : Nat)
deriving DecidableEq, Repr

/-- NVS state beside its contents and registers. -/
structure Nvs where
  /-- Writes in progress, each with the instant at which it is complete. -/
  ops : List (Nat × NvsOp) := []
  /-- R371: records whose slots wait for the check after a header write, with the slot and the latest instant. -/
  checks : List (Nat × Nat) := []
  /-- R365: the address of the word that a power failure interrupted. -/
  interrupted : Option Nat := none
  /-- R364: journal entries (bytes 0x04 to 0x3B) that wait for READY. -/
  waiting : List (List Byte) := []
deriving DecidableEq, Repr

/-- R381: a measurement: its first and last instant in station-time ns, and that its window is open. -/
structure Measure where
  from_ : Nat
  dest : Nat
  opened : Bool := false
deriving DecidableEq, Repr

/-- The backup domain beside its registers. The crystal delivers raw pulses; frac counts them at t0 in 10^-9. -/
structure Rtc where
  t0 : Nat := 0
  frac : Nat := 0
  /-- R380: the trim window, the trimmed pulses counted when it began, and the trim that acts in it. -/
  win : Nat := 0
  base : Nat := 0
  trim : Int := 0
  /-- R377: the calendar in pulses since 2000-01-01 when calP trimmed pulses had been counted. -/
  cal : Nat := 0
  calP : Nat := 0
  /-- R379: trimmed pulses from which the held count runs, and that its overflow has been seen. -/
  haltP : Option Nat := none
  heldOvf : Bool := false
  /-- R384: trimmed pulses at the next periodic wake. -/
  wakeP : Option Nat := none
  /-- R378: each requester's freeze: its instant and the seven words. -/
  freezes : Sparse (Option (Nat × List Word)) := []
  meas : Option Measure := none
  /-- R376: words of backup RAM with a parity error. -/
  parity : Word := 0
deriving DecidableEq, Repr

/-! ## Supply, supervision and watchdogs -/

/-- R392 to R409, R482, R483: supply and supervision beside their registers. Instants are of MONO; where MONO is not
defined (device reset, sleep, rails down) it stands for the time of the world (assumption 16). -/
structure Power where
  /-- RESET_N and FORCE_SAFE_N stand low. -/
  resetLow : Bool := false
  safeLow : Bool := false
  /-- R392: the end of the ride-through; the warning has been given. -/
  rideEnd : Option Nat := none
  warned : Bool := false
  /-- R402: the end of the last-gasp set that runs, or ran last. -/
  setEnd : Nat := 0
  /-- R389, R483: the first instant at which device reset may be released; none while a pin is low. -/
  releaseFrom : Option Nat := none
  /-- R389: the retry after a failed sequence. -/
  retryAt : Option Nat := none
  /-- R391: the next telemetry sample. -/
  sampleDue : Nat := 10000
  /-- R408: WDT_CNT was 0 at this instant; while it is paused or stopped, what it holds. -/
  wdtFrom : Option Nat := none
  wdtHeld : Nat := 0
  /-- R394, R397: the capture at entry into deep sleep: MONO and trimmed pulses. -/
  entryMono : Nat := 0
  entryPulses : Nat := 0
  /-- The phase in which deep sleep found the device; R482 when that is device reset. -/
  before : Phase := .ready
  /-- R395: the cause of the boot after retention was ended by a pin. -/
  nextCause : Option Nat := none
deriving DecidableEq, Repr

/-! ## Access and update -/

/-- SEC beside its registers (17_security_and_update.md). Instants are of MONO. -/
structure Sec where
  /-- R431, R433: the ends of the challenge and of the window. -/
  chalEnd : Option Nat := none
  winEnd : Option Nat := none
  /-- R432: MONO of the last failed password. -/
  lastFail : Nat := 0
  /-- What opened the window: 2 a signature, 3 a password. -/
  by_ : Nat := 0
  /-- R429: the message being signed with the instant at which it is ready, and the last one signed. -/
  signing : Option (Nat × List Byte) := none
  signed : Option (List Byte) := none
  /-- MODEL: challenges drawn so far. -/
  drawn : Nat := 0
  /-- A window was open when device reset was asserted (R433). -/
  wasOpen : Bool := false
deriving DecidableEq, Repr

/-- R435, R436: what a sealed CONFIG holds: the program with its rung and mirror tables, and the register settings. -/
structure Program where
  version : Word := 0
  code : Memory := []
  data : Memory := []
  /-- CSR offset and word, in the order in which the runtime firmware writes them. -/
  regs : List (Nat × Word) := []
  rungs : Sparse Rung := []
  subWords : Sparse Word := []
  pubWords : Sparse Word := []
  formats : Sparse Word := []
  /-- R178: the recorded data spans. -/
  spans : Sparse Nat := []
deriving DecidableEq, Repr, Inhabited

/-- R435: the program and the settings in the blocks of a signed CONFIG image, whose layout the spec does not give. -/
opaque configProgram : List Byte → Program

/-- R437: what a component slot of the boot flash holds. -/
inductive SlotImage where
  /-- Nothing that verifies. -/
  | empty
  /-- The image that the device left the factory with; it verifies. -/
  | factory (version : Word)
  /-- An image signed by its manifest; its blocks by number. -/
  | signed (manifest : List Byte) (blocks : Sparse (List Byte))
  | sealed (p : Program)
deriving DecidableEq, Repr

/-- R438 to R446: one component of the boot flash: its directory entry, its session and its record. -/
structure Component where
  slotA : SlotImage := .empty
  slotB : SlotImage := .empty
  /-- The directory: slot B is active; the other slot is valid. -/
  activeB : Bool := false
  otherValid : Bool := false
  /-- R438: the directory holds the other slot as confirmed. -/
  otherConfirmed : Bool := false
  /-- The session: 0 IDLE, 1 MANIFEST, 2 RECEIVING, 3 COMPLETE, 4 WAITCONF. -/
  state : Nat := 0
  /-- Manifest parts by number. -/
  parts : Sparse (List Byte) := []
  manifest : List Byte := []
  bitmap : BitVec 8192 := 0
  /-- UPD_CSTAT.CHK. -/
  chk : Nat := 0
  /-- R439: FAILS of slot A and of slot B. -/
  failsA : Nat := 0
  failsB : Nat := 0
  /-- R444: seconds of the window as the record holds them; the window waits for the first scan, or runs to an instant;
  when the record was last written. -/
  winSaved : Nat := 0
  winEnd : Option Nat := none
  savedAt : Nat := 0
  /-- The warning of R446 has been given. -/
  winWarned : Bool := false
  /-- R446: the window has expired and the device gives up its role until this instant. -/
  revertAt : Option Nat := none
  /-- R448: the image was committed from spore mode with no valid image in the other slot. -/
  selfConfirm : Bool := false
deriving DecidableEq, Repr

/-- The four components: 0 RUNTIME, 1 NETFW, 2 PMUFW, 3 CONFIG. -/
structure Flash where
  comps : Sparse Component := [(0, { slotA := .factory 0 }), (1, { slotA := .factory 0 }), (2, { slotA := .factory 0 })]
  /-- R438: what the older copy of the directory holds: per component, slot B active, the other slot valid and confirmed. -/
  oldDir : List (Bool × Bool × Bool) := List.replicate 4 (false, false, false)
  /-- R441: blocks that wait for the flash, the oldest first: component, block number, bytes. -/
  queued : List (Nat × Nat × List Byte) := []
  /-- R445: records that the new RUNTIME has converted and reads from their companions. -/
  companions : List Nat := []
  /-- R448: components that COMMIT has listed, the UART rate in use and when it falls back. -/
  listed : List Nat := []
  baud : Nat := 115200
  baudBack : Option Nat := none
  /-- MONO of the next HELLO of spore mode. -/
  helloAt : Option Nat := none
deriving DecidableEq, Repr

/-- R467: the test access port: its instruction, and the boundary cells of the BO pads. -/
structure Tap where
  ir : TapInstr := .idcode
  cells : BitVec 64 := 0
deriving DecidableEq, Repr

/-! ## Host commands -/

/-- R329, R421: a session of the service UART (none) or of a LAN source address on a pair of ports. -/
structure Session where
  who : Option (Bool × BitVec 48)
  /-- The negotiated version; 0 in parley. -/
  ver : BitVec 16
  parley : Bool
deriving DecidableEq, Repr

/-- R421: the last completed message of a sender: its SEQ and its response. -/
structure Reply where
  who : Option (Bool × BitVec 48)
  seq : BitVec 8
  bytes : List Byte
deriving DecidableEq, Repr

/-- The command channels beside their registers. -/
structure HostLink where
  sessions : List Session := []
  replies : List Reply := []
  /-- R328: mailboxes that wait for the service core, in the order of their rings. -/
  rung : List Nat := []
deriving DecidableEq, Repr

/-- R23 to R26: what the UCB CHANGE count of each local unit has last seen, and the counts. Unit 0 is the device,
1 to 8 the cores, 9 + 4 × n + g the task groups, 41 the pair, 42 the stand, 43 the unit above two stands. -/
structure Units where
  seen : Sparse Nat := []
  change : Sparse Word := []
  /-- MODEL: a unit may have changed since seen was written. -/
  dirty : Bool := false
  /-- FIRST_SRC of each unit but the device, while its SRC_VALID is 1. -/
  first : Sparse (Option Nat) := []
  /-- MODEL: the first source raised since seen was written. -/
  raised : Option Nat := none
deriving DecidableEq, Repr

/-- R332: the MSI-X state that PCIe keeps. -/
structure Msix where
  enable : Bool := true
  mask : BitVec 256 := BitVec.allOnes 256
  pba : BitVec 256 := 0
  /-- The latest raise of the source has had its message. -/
  sent : BitVec 256 := 0
deriving DecidableEq, Repr

/-- R32: the path window: the bytes captured at GO, and the instant of GO while a resolution is in progress. -/
structure PathWindow where
  path : List Nat := []
  asked : Option Nat := none
deriving DecidableEq, Repr

/-- R9, R10: the memories. -/
structure Mems where
  /-- Code memory: core c at c × 4 MiB. -/
  code : Memory := []
  /-- R47: generations closed since MONO was last 0. -/
  gens : Nat := 0
  /-- Task data memory: core c at c × 2 MiB. -/
  data : Memory := []
  /-- Image shadows: core c at c × 256 KiB, input first, output at + 128 KiB. -/
  shadow : Memory := []
  /-- Input image: the latest closed generation, and the one being gathered (R47). -/
  inCur : Image := []
  inNext : Image := []
  /-- The output image (R49, R51). -/
  out : Image := []
  /-- Stand-shared space. -/
  stand : Memory := []
  /-- Retained memory. -/
  nvs : Memory := []
  /-- Exchange staging (R177). -/
  staging : Memory := []
  /-- Mailboxes 0 to 3, 64 KiB each. -/
  mbox : Memory := []
  /-- Network buffer memory. -/
  net : Memory := []
  /-- Service core memory: the RUNTIME image that the boot ROM has loaded stands from address 0 on (assumption 78). -/
  svc : Memory := []
  /-- Mirror send and receive buffers: the last MIRROR of each core that this member has sent, and that it has received
  (R225). -/
  mirrorSend : Sparse (Option Mirror) := []
  mirrorReceive : Sparse (Option Mirror) := []
  /-- The receive store: the member words of the last GOOSE frame, or the samples of the last SV frame, that each entry of
  the subscription table has applied (R260, R262). -/
  store : Sparse (List Word) := []
deriving DecidableEq, Repr

/-- Everything of the device but MONO and the queue of commands. -/
structure Dev where
  phase : Phase := .rom
  /-- The register file: CSR offset, word. -/
  csr : Sparse Word := []
  /-- R133: the latches: requester × 2^24 + offset, word. -/
  latch : Sparse Word := []
  mem : Mems := {}
  cores : Sparse Core := []
  tasks : Sparse Task := []
  modeChange : Option ModeChange := none
  /-- R62: the key pattern at the pins after their filter, KEY2 KEY1 KEY0. -/
  keyPin : BitVec 3 := 7
  /-- R436: the full program load made since the mode entered PROGRAM: its version identity, the cores loaded, and the
  class of its port. -/
  fullLoad : Option (Word × BitVec 8 × Nat) := none
  ang : Angle := {}
  time : StationTime := {}
  net : Net := {}
  can : Sparse Can := []
  queues : Queues := {}
  units : Units := {}
  msix : Msix := {}
  io : Io := {}
  outs : Outs := {}
  plane : Plane := {}
  /-- R155, R260: the GOOSE-received bits of the fast image. -/
  gooseBits : BitVec 512 := 0
  path : PathWindow := {}
  nvs : Nvs := {}
  xch : Exch := {}
  hsb : Hsb := {}
  stand : Stand := {}
  rtc : Rtc := {}
  power : Power := {}
  sec : Sec := {}
  flash : Flash := {}
  tap : Tap := {}
  host : HostLink := {}
  /-- R23: the format of the executable file that loaded a code bank, by 8 × core + bank. -/
  formats : Sparse Word := []
  /-- MODEL: the word that the last register read returned, and the status of the last command (assumption 5). -/
  readData : Word := 0
  /-- MODEL: what has left the device, the latest first. -/
  outbox : List (Nat × Msg) := []
  /-- MODEL: the counter of free values (assumption 2). -/
  freeNo : Nat := 0
deriving DecidableEq, Repr

/-- Why a step stops. The 9060 stops on no command of the table, and no command raises a fault: the type is empty of
reasons but for the one below. -/
inductive Fault where
  /-- Raised by no command. Safe. -/
  | none
deriving DecidableEq, Repr

/-- Why a command is refused. -/
inductive Refusal where
  /-- The command has no meaning yet; raised by an arm of exec. Safe: no run goes on past it. -/
  | notModelled (mnemonic : String)
deriving DecidableEq, Repr

/-- The machine: MONO, the device, and the commands that wait, first in, first out. -/
structure State where
  /-- R13: MONO in ns; it is 64 bits wide where it is read. -/
  mono : Nat := 0
  dev : Dev := {}
  pending : List Instr := []
deriving DecidableEq, Repr

/-- R285: the status words of the stations before anything has joined: STATE 0 and STALE. -/
def bootStations : Image := (List.range 64).map (fun k => (0x2800 + 0x20 * k, 8))

/-- R351, R355: the partition headers after device reset: STALE in word 1. -/
def bootHeaders : Memory := (List.range 8).map (fun q => (0x8000 * q + 4, 0x10))

/-- The registers that do not hold their reset entry right after the release that follows a cold start: SUP_RSTCAUSE
(R399), the clocks (R413), the first telemetry sample (R391, assumption 17), the sample sets that carry NV after the start
of the resampler (R81, assumption 80) and BIO_SOECNT (R312). -/
def bootRegs : Sparse Word :=
  [(0x100C, 0x100), (0x2000, 0x3F), (0x2004, 32000), (0x3010, 0x2EE02EE0), (0x3020, 750), (0x3024, 850),
   (0x3028, 900), (0x302C, 1800), (0x3030, 1800), (0x3034, 3300), (0x3040, 0), (0x3044, 0), (0x3048, 0),
   (0x304C, 0), (0x11064, 64), (0x50068, 1)]

/-- R311, R312: the START marker, the first entry after the release of device reset. -/
def bootMarker : Item := { w0 := 0x0001F000, w1 := 0xC0000000 }

/-- The machine right after the release of device reset that follows a cold start, before the boot (R13, R15, R483). -/
def State.reset : State :=
  { dev := {
      csr := bootRegs, mem := { inCur := bootStations, inNext := bootStations, stand := bootHeaders },
      queues := { held := [(0, [bootMarker])] } } }

/-- R2: the machine after reset of a unit delivered as LYS9060-FB1: slot 0 holds the SHA-256 hash of the customer's owner
public key. State.reset is that of LYS9060-FB0, with all four slots empty. -/
def State.resetFb1 (hash : BitVec 256) : State :=
  let d := State.reset.dev
  let hashed := (List.range 8).foldl (fun m w =>
    Sparse.set resetWordAt m (Reg.SEC_KEYHASH 0 w) (hash.extractLsb' (32 * w) 32)) d.csr
  let stat := resetWordAt Reg.SEC_STAT ||| 0x10
  { State.reset with dev := { d with csr := Sparse.set resetWordAt hashed Reg.SEC_STAT stat } }

end Sys2Proof.Machine
end

