-- ==== Sys2Proof/Machine/Clock.lean ====
section
/-!
DEFINITION. Access to the register file and to the numbered parts of the device, and the clocks that run by themselves:
station time (R246 to R252) and the angle (R68, R71, R72) as functions of MONO.
-/
namespace Sys2Proof.Machine

/-! ## The register file -/

/-- The word that the register at an offset holds. -/
def Dev.rd (d : Dev) (off : Nat) : Word := Sparse.get resetWordAt d.csr off

/-- The register at an offset set to a word. -/
def Dev.wr (d : Dev) (off : Nat) (v : Word) : Dev := { d with csr := Sparse.set resetWordAt d.csr off v }

/-- The word w with bits hi to lo set to n. -/
def putBits (w : Word) (hi lo n : Nat) : Word :=
  (w &&& ~~~(fieldMask hi lo)) ||| BitVec.ofNat 32 (n % 2 ^ (hi + 1 - lo) * 2 ^ lo)

/-- A field's value. -/
def Dev.fld (d : Dev) (f : Fld) : Nat := bitsOf (d.rd f.off).toNat f.hi f.lo

/-- A field set to n, the other bits of its register unchanged. -/
def Dev.setFld (d : Dev) (f : Fld) (n : Nat) : Dev := d.wr f.off (putBits (d.rd f.off) f.hi f.lo n)

/-- A field is not 0. -/
def Dev.flag (d : Dev) (f : Fld) : Bool := d.fld f != 0

/-- A field counted up, saturating at its largest value. -/
def Dev.incFld (d : Dev) (f : Fld) : Dev := d.setFld f (satInc (2 ^ (f.hi + 1 - f.lo) - 1) (d.fld f))

/-- A whole register counted up, saturating. -/
def Dev.incSat (d : Dev) (off : Nat) : Dev :=
  d.wr off (BitVec.ofNat 32 (satInc 0xFFFFFFFF (d.rd off).toNat))

/-- A whole register counted up, wrapping. -/
def Dev.incWrap (d : Dev) (off : Nat) : Dev := d.wr off (d.rd off + 1)

/-- Bit i of the register at an offset. -/
def Dev.bit (d : Dev) (off i : Nat) : Bool := bitOf (d.rd off).toNat i

/-- Bit i of the register at an offset set to b. -/
def Dev.setBit (d : Dev) (off i : Nat) (b : Bool) : Dev := d.wr off (putBits (d.rd off) i i (b2n b))

/-- Bit n of a mask that spans several registers from an offset on. -/
def Dev.maskBit (d : Dev) (off n : Nat) : Bool := d.bit (off + 4 * (n / 32)) (n % 32)

/-- Bit n of a mask that spans several registers set to b. -/
def Dev.setMaskBit (d : Dev) (off n : Nat) (b : Bool) : Dev := d.setBit (off + 4 * (n / 32)) (n % 32) b

/-- Two registers as a 64-bit number, the low word first. -/
def Dev.rd64 (d : Dev) (off : Nat) : Nat := (d.rd off).toNat + (d.rd (off + 4)).toNat * 2 ^ 32

/-- A 64-bit number into two registers, the low word first. -/
def Dev.wr64 (d : Dev) (off v : Nat) : Dev :=
  (d.wr off (BitVec.ofNat 32 v)).wr (off + 4) (BitVec.ofNat 32 (v / 2 ^ 32))

/-! ## Cores, banks and tasks -/

/-- Scan core c. -/
def Dev.core (d : Dev) (c : Nat) : Core := Sparse.get (fun _ => {}) d.cores c

/-- Scan core c replaced. -/
def Dev.setCore (d : Dev) (c : Nat) (k : Core) : Dev := { d with cores := Sparse.set (fun _ => {}) d.cores c k }

/-- Task n. -/
def Dev.task (d : Dev) (n : Nat) : Task := Sparse.get (fun _ => {}) d.tasks n

/-- Task n replaced. -/
def Dev.setTask (d : Dev) (n : Nat) (k : Task) : Dev := { d with tasks := Sparse.set (fun _ => {}) d.tasks n k }

/-- Bank b of a core. -/
def Core.bank (k : Core) (b : Nat) : Bank := Sparse.get (fun _ => {}) k.banks b

/-- Bank b of core c. -/
def Dev.bank (d : Dev) (c b : Nat) : Bank := (d.core c).bank b

/-- Bank b of core c replaced. -/
def Dev.setBank (d : Dev) (c b : Nat) (k : Bank) : Dev :=
  d.setCore c { d.core c with banks := Sparse.set (fun _ => {}) (d.core c).banks b k }

/-- Queue q, the oldest item first, without the items accepted in the fabric cycle in progress. -/
def Dev.queue (d : Dev) (q : Nat) : List Item := Sparse.get (fun _ => []) d.queues.held q

/-- Queue q replaced. -/
def Dev.setQueue (d : Dev) (q : Nat) (l : List Item) : Dev :=
  { d with queues := { d.queues with held := Sparse.set (fun _ => []) d.queues.held q l } }

/-! ## Memories -/

/-- The byte at an address; an unlisted address reads 0 (assumption 4). -/
def Memory.rd8 (m : Memory) (a : Nat) : Byte := Sparse.get (fun _ => 0) m a

/-- The byte at an address replaced. -/
def Memory.wr8 (m : Memory) (a : Nat) (v : Byte) : Memory := Sparse.set (fun _ => 0) m a v

/-- The canonical form of a memory. -/
def Memory.wf (m : Memory) : Bool := Sparse.wf (fun _ => (0 : Byte)) m

/-- n bytes from address a as a little-endian number (R90). -/
def Memory.rdLE (m : Memory) (a : Nat) : Nat → Nat
  | 0 => 0
  | n + 1 => (Memory.rd8 m a).toNat + 256 * Memory.rdLE m (a + 1) n

/-- n bytes from address a set to a little-endian number (R90). -/
def Memory.wrLE (m : Memory) (a : Nat) : Nat → Nat → Memory
  | 0, _ => m
  | n + 1, v => Memory.wrLE (Memory.wr8 m a (BitVec.ofNat 8 v)) (a + 1) n (v / 256)

/-- A word at a byte address. -/
def Memory.rd32 (m : Memory) (a : Nat) : Word := BitVec.ofNat 32 (Memory.rdLE m a 4)

/-- A word written at a byte address. -/
def Memory.wr32 (m : Memory) (a : Nat) (v : Word) : Memory := Memory.wrLE m a 4 v.toNat

/-- Word k of an image. -/
def Image.rd (m : Image) (k : Nat) : Word64 := Sparse.get (fun _ => 0) m k

/-- Word k of an image replaced. -/
def Image.wr (m : Image) (k : Nat) (v : Word64) : Image := Sparse.set (fun _ => 0) m k v

/-- Words written from word k on. -/
def Image.wrs (m : Image) (k : Nat) : List Word64 → Image
  | [] => m
  | v :: rest => Image.wrs (Image.wr m k v) (k + 1) rest

/-- R306: the words of a window of slots of 16 words, from word lo to below word hi, moved one slot up; the oldest
slot leaves. -/
def Image.shift (lo hi : Nat) (m : Image) : Image :=
  (m.filter (fun p => !(decide (hi - 16 ≤ p.1) && decide (p.1 < hi)))).map
    (fun p => if lo ≤ p.1 ∧ p.1 < hi then (p.1 + 16, p.2) else p)

/-- The canonical form of an image. -/
def Image.wf (m : Image) : Bool := Sparse.wf (fun _ => (0 : Word64)) m

/-- f done for 0, 1, … n − 1 in turn. -/
def forN {α : Type} (n : Nat) (f : Nat → α → α) (a : α) : α := (List.range n).foldl (fun x i => f i x) a

/-- A byte string written from address a on. -/
def Memory.wrBytes (m : Memory) (a : Nat) : List Byte → Memory
  | [] => m
  | b :: rest => Memory.wrBytes (Memory.wr8 m a b) (a + 1) rest

/-- n bytes from address a on. -/
def Memory.rdBytes (m : Memory) (a : Nat) : Nat → List Byte
  | 0 => []
  | n + 1 => Memory.rd8 m a :: Memory.rdBytes m (a + 1) n

/-! ## Bisection for the instant of an event -/

/-- The least x in lo to lo + 2^k − 1 with p x, for a p that stays true once true; lo + 2^k − 1 if there is none. -/
def leastFrom (p : Nat → Bool) : Nat → Nat → Nat
  | 0, lo => lo
  | k + 1, lo => if p (lo + 2 ^ k - 1) then leastFrom p k lo else leastFrom p k (lo + 2 ^ k)

/-! ## Station time -/

/-- How much of a slew of size total has been taken up when at most done of it can be. -/
def slewDone (total : Int) (done : Nat) : Int :=
  if total.natAbs ≤ done then total else if total < 0 then -(done : Int) else done

/-- R273: PTP_CFG.SLEW in µs per second; 0 acts as 1, and above 100 as 100 (assumption 97). -/
def Dev.slewRate (d : Dev) : Nat := max 1 (min 100 (d.fld F.PTP_CFG_SLEW))

/-- R251: the part of the current slew taken up at MONO t. -/
def Dev.stSlewed (d : Dev) (t : Nat) : Int := slewDone d.time.slew ((t - d.time.t0) * d.slewRate / 1000000)

/-- PTP_SLEWLEFT at MONO t (R251). -/
def Dev.stSlewLeft (d : Dev) (t : Nat) : Int := d.time.slew - d.stSlewed t

/-- R246: station time at MONO t, in ns since the epoch. -/
def Dev.station (d : Dev) (t : Nat) : Nat :=
  let dt := t - d.time.t0
  ((d.time.base : Int) + dt + (dt : Int) * d.time.corr / 65536000000 + d.stSlewed t).toNat

/-- The counter restated at MONO t, so that its rate or slew can change from then on. -/
def Dev.stRebase (d : Dev) (t : Nat) : Dev :=
  { d with time := { d.time with base := d.station t, t0 := t, slew := d.stSlewLeft t } }

/-- R248: the error bound E at MONO t; none while no source has been followed (code 3 regardless of E). -/
def Dev.errBound (d : Dev) (t : Nat) : Option Nat :=
  d.time.bound.map (fun b =>
    (d.stSlewLeft t).natAbs + b +
      (if d.time.usable then 0 else d.fld F.PTP_TQCFG_HOLDPPB * (t - d.time.usableAt) / 1000000000))

/-- R248: the class of an error bound. -/
def tqClass (e : Nat) : Nat := if e ≤ 100 then 0 else if e ≤ 1000 then 1 else if e ≤ 1000000 then 2 else 3

/-- R248: the time quality code at MONO t. -/
def Dev.tq (d : Dev) (t : Nat) : Nat := match d.errBound t with | some e => tqClass e | none => 3

/-- Station time's nanoseconds with the quality code in [31:30], as PTP_TNS, ANG_TNS and SOE word 1 hold them. -/
def Dev.tnsWord (d : Dev) (t : Nat) : Word := BitVec.ofNat 32 (d.station t % 1000000000 + d.tq t * 2 ^ 30)

/-! ## The angle -/

/-- ANG_CFG.NOMF in Hz. -/
def Dev.nomHz (d : Dev) : Nat := if d.flag F.ANG_CFG_NOMF then 60 else 50

/-- R72: the synthetic angle at station time s, as an unwrapped angle. -/
def synthU (hz s : Nat) : Nat := s * hz * 2 ^ 32 / 1000000000

/-- R74: ANG_CFG.SLEW in 0.01 Hz; 0 acts as 1. -/
def Dev.angSlewRate (d : Dev) : Nat := if d.fld F.ANG_CFG_SLEW = 0 then 1 else d.fld F.ANG_CFG_SLEW

/-- R74: the part of the current slew of the angle taken up at MONO t. -/
def Dev.angSlewed (d : Dev) (t : Nat) : Int :=
  slewDone d.ang.slew ((t - d.ang.t0) * d.angSlewRate * 2 ^ 32 / 100000000000)

/-- R74: the part of the current slew still to come at MONO t. -/
def Dev.angSlewLeft (d : Dev) (t : Nat) : Int := d.ang.slew - d.angSlewed t

/-- R68: the unwrapped angle U at MONO t. -/
def Dev.U (d : Dev) (t : Nat) : Int :=
  let adv : Int := match d.ang.gen with
    | .rate f => ((t - d.ang.t0) * f * 65536 / 1000000000 : Nat)
    | .synth =>
      if d.ang.loaded then (synthU d.nomHz (d.station t) : Int) - synthU d.nomHz d.ang.s0
      else ((t - d.ang.t0) * d.nomHz * 2 ^ 32 / 1000000000 : Nat)
  d.ang.u0 + adv + d.angSlewed t

/-- The tracker restated at MONO t, so that its generator or slew can change from then on. -/
def Dev.angRebase (d : Dev) (t : Nat) : Dev :=
  { d with ang := { d.ang with u0 := d.U t, t0 := t, s0 := d.station t, slew := d.angSlewLeft t } }

/-- ANG_ANGLE at MONO t. -/
def Dev.angle (d : Dev) (t : Nat) : Word := BitVec.ofInt 32 (d.U t)

/-- ANG_TURNS at MONO t (R68). -/
def Dev.turns (d : Dev) (t : Nat) : Word := BitVec.ofInt 32 (d.U t / 2 ^ 32)

/-- R78: the angle quality word at MONO t; STATE, STEP, SRCVALID and SRCKIND stand in the register. -/
def Dev.angQual (d : Dev) (t : Nat) : Word :=
  BitVec.ofNat 32 (bitsOf (d.rd Reg.ANG_STATE).toNat 1 0 + 4 * b2n d.ang.stepU.isSome +
    8 * b2n (d.angSlewLeft t != 0) + 16 * b2n d.ang.valid + 32 * d.fld F.ANG_SRC_KIND)

/-- The first MONO from t on at which U has reached u, within 2^48 ns. -/
def Dev.whenU (d : Dev) (t : Nat) (u : Int) : Nat := leastFrom (fun x => decide (u ≤ d.U x)) 48 t

/-- The first MONO from t on at which station time has reached s, within 2^48 ns. -/
def Dev.whenStation (d : Dev) (t s : Nat) : Nat := leastFrom (fun x => Nat.ble s (d.station x)) 48 t

end Sys2Proof.Machine
end

