-- ==== Sys2Proof/Machine/Ops.lean ====
section
/-!
DEFINITION. Operations that every block shares: what leaves the device, units and their health (R23 to R27), event
sources (R331 to R334), queues (R319 to R323), sequence-of-events entries (R311, R312), modes and privilege.
-/
namespace Sys2Proof.Machine

/-- The device domain is out of reset and clocked (R15, R394): in every other phase a command to it changes nothing. -/
def Dev.awake (d : Dev) : Bool :=
  match d.phase with
  | .rom | .prep | .check | .ready | .spore => true
  | _ => false

/-- What leaves the device at MONO t is recorded. -/
def Dev.send (d : Dev) (t : Nat) (m : Msg) : Dev := { d with outbox := (t, m) :: d.outbox }

/-- A free value of 32 bits (assumption 2): the counter advances, so that no two readings are known to agree. -/
def Dev.free (d : Dev) : Word := Config.freeWord d.freeNo

/-- The counter of free values advanced. -/
def Dev.nextFree (d : Dev) : Dev := { d with freeNo := d.freeNo + 1 }

/-! ## Modes -/

/-- R23: UCB MODE and SYS_MODE.MODE codes. -/
def Mode.code : Mode → Nat
  | .run => 0
  | .remote => 1
  | .stop => 2
  | .program => 3

/-- The mode that a code stands for. -/
def Mode.ofCode (n : Nat) : Mode := if n = 0 then .run else if n = 1 then .remote else if n = 2 then .stop else .program

/-- R62: the mode that a filtered key pattern KEY2 KEY1 KEY0 selects; none for an invalid pattern. -/
def Mode.ofKey (k : Nat) : Option Mode :=
  if k = 1 then some .run else if k = 2 then some .remote else if k = 4 then some .stop
  else if k = 7 then some .program else none

/-- Tasks run in this mode (R63). -/
def Mode.runs : Mode → Bool
  | .run => true
  | .remote => true
  | _ => false

/-- The current mode. -/
def Dev.mode (d : Dev) : Mode := Mode.ofCode (d.fld F.SYS_MODE_MODE)

/-- R481: a write by this requester is accepted where a mode rule asks for PROGRAM. -/
def Dev.progOk (d : Dev) (r : Requester) : Bool :=
  d.mode == .program || (r == .svc && (d.phase == .rom || d.phase == .prep))

/-- As progOk, for a rule that accepts writes in STOP and PROGRAM. -/
def Dev.stopOk (d : Dev) (r : Requester) : Bool := d.progOk r || d.mode == .stop

/-! ## Memory protection (R11) -/

/-- R11: a correction in a memory, counted in SYS_ECC; core is the scan core for memories 0 and 1. -/
def Dev.eccCorrected (d : Dev) (mem core : Nat) : Dev :=
  ((d.incFld F.SYS_ECC_CORR).setFld F.SYS_ECC_LASTMEM mem).setFld F.SYS_ECC_LASTCORE core

/-- R11: n corrections in a row in one memory. -/
def Dev.eccCounted (d : Dev) (mem core n : Nat) : Dev := forN n (fun _ d => d.eccCorrected mem core) d

/-! ## Units (R23 to R29) -/

/-- Task n is enabled. -/
def Dev.enabled (d : Dev) (n : Nat) : Bool := d.flag (F.TSK_CFG_EN n)

/-- R24: the enabled tasks bound to core c, in ascending order. -/
def Dev.coreTasks (d : Dev) (c : Nat) : List Nat :=
  (List.range 64).filter (fun n => d.enabled n && d.fld (F.TSK_CFG_CORE n) == c)

/-- R24: the tasks of group g of core c. -/
def Dev.groupTasks (d : Dev) (c g : Nat) : List Nat :=
  (d.coreTasks c).filter (fun n => d.fld (F.TSK_CFG_GROUP n) == g)

/-- R24: the children that core c lists. -/
def Dev.coreChildren (d : Dev) (c : Nat) : Nat :=
  (d.coreTasks c).foldl (fun k n => max k (d.fld (F.TSK_CFG_GROUP n) + 1)) 0

/-- R25: FAULT while the task is fault-stopped, WARN while it has an unacknowledged overrun or an unacknowledged MISSED or
EXTRA result (R411). -/
def Dev.taskHealth (d : Dev) (n : Nat) : Nat :=
  if d.fld (F.TSK_STATE_ST n) = 5 then 3
  else if d.flag (F.TSK_STATE_OVR n) || d.maskBit Reg.WDT_TMFLT0 n then 1 else 0

/-- R25: the HEALTH of a list of tasks. -/
def Dev.tasksHealth (d : Dev) (l : List Nat) : Nat := l.foldl (fun h n => max h (d.taskHealth n)) 0

/-- R334: the HEALTH that the pending sources contribute. -/
def Dev.pendingHealth (d : Dev) : Nat :=
  (List.range 8).foldl (fun h j =>
    let w := (d.rd (Reg.INT_PEND j)).toNat
    if w = 0 then h
    else (List.range 32).foldl (fun h i =>
      if bitOf w i then max h (d.fld (F.INT_SRCCFG_CLASS (32 * j + i))) else h) h) 0

/-- R25, R173: the HEALTH of the device; a fault of the fast rung plane makes it FAULT. -/
def Dev.health (d : Dev) : Nat :=
  if d.fld F.FRP_STAT_PLANE = 3 then 3
  else max d.pendingHealth (d.tasksHealth ((List.range 64).filter (fun n => d.enabled n)))

/-- R23: the STATE of a core or task group with these tasks. -/
def Dev.tasksState (d : Dev) (l : List Nat) : Nat :=
  if d.phase == .check then 3
  else if d.phase != .ready then 1
  else if l.any (fun n => d.fld (F.TSK_STATE_ST n) == 5) then 6
  else if l.any (fun n => (d.task n).live) then 2
  else 3

/-- R24: the STATE of task group g of core c: STOPPED where the core lists it and it holds no task. -/
def Dev.groupState (d : Dev) (c g : Nat) : Nat :=
  let l := d.groupTasks c g
  if l.isEmpty && Nat.blt g (d.coreChildren c) then 3 else d.tasksState l

/-- R23: the STATE of the device. -/
def Dev.devState (d : Dev) : Nat :=
  match d.phase with
  | .sleep => 4
  | .spore => 7
  | .prep => 3
  | .check => 3
  | .ready =>
    if (List.range 64).any (fun n => d.enabled n && d.fld (F.TSK_STATE_ST n) == 5) then 6
    else if d.mode.runs then 2 else 3
  | _ => 1

/-- R27: the role word of the device: ROLES in [3:0] and ROLE_STATE in [7:4]; a device outside a pair is ALONE and
holds lease, control and publication. -/
def Dev.roleWord (d : Dev) : Nat :=
  if d.flag F.HSB_CFG_EN then d.fld F.HSB_STAT_ROLES + 16 * d.fld F.HSB_STAT_ROLE_STATE else 7

/-- The device holds a valid lease, or belongs to no pair. -/
def Dev.leaseHeld (d : Dev) : Bool := bitOf d.roleWord 0

/-- The code that every local unit has at reset: STARTING, PROGRAM, ALONE with all roles, HEALTH OK. -/
def unitCodeAtReset : Nat := 1 + 3 * 16 + 7 * 256

/-! ### Group units (R26, R236, R357) -/

/-- The fields of a unit that a group derives its own from. -/
structure UnitView where
  state : Nat
  mode : Nat
  mixed : Bool := false
  health : Nat
  /-- LEASE, CONTROL, PUBLICATION and PREFERRED. -/
  roles : Nat
  ver : Nat
deriving DecidableEq, Repr

/-- R26: the intersection of two version ranges laid out as in SYS_IFVER; 0 when it is empty. -/
def rangeMeet (a b : Nat) : Nat :=
  let lo := max (a / 2 ^ 16) (b / 2 ^ 16)
  let hi := min (a % 2 ^ 16) (b % 2 ^ 16)
  if lo ≤ hi then lo * 2 ^ 16 + hi else 0

/-- The range that all members share. -/
def rangeAll : List UnitView → Nat
  | [] => 0
  | v :: rest => rest.foldl (fun w x => rangeMeet w x.ver) v.ver

/-- R26: the members have one mode in common. -/
def modesDiffer : List UnitView → Bool
  | [] => false
  | v :: rest => rest.any (fun x => x.mode != v.mode)

/-- R236: the roles that any member holds. -/
def rolesAny (l : List UnitView) : Nat :=
  b2n (l.any (fun v => bitOf v.roles 0)) + 2 * b2n (l.any (fun v => bitOf v.roles 1)) + 4 * b2n (l.any (fun v => bitOf v.roles 2))

/-- R26: a pair; own is the member whose mode shows when no member holds the control role. A member that does not answer
is not OK. -/
def pairView (own : UnitView) (l : List UnitView) : UnitView :=
  let holder := l.find? (fun v => bitOf v.roles 1)
  let ver := rangeAll l
  let lead := holder.getD own
  { state := if ver = 0 then 5 else match holder with | some v => v.state | none => 6,
    mode := lead.mode, mixed := modesDiffer l,
    health := if holder.isNone then 3 else if l.all (fun v => v.health == 0 && v.state != 0) then 0 else 2,
    roles := rolesAny l, ver := ver }

/-- R26: the states from the worst to the best. -/
def statesWorst : List Nat := [6, 7, 5, 0, 1, 4, 3, 2]

/-- R26: the worst of some states. -/
def worstState (l : List Nat) : Nat := (statesWorst.find? (fun s => l.contains s)).getD 2

/-- R26, R357: a stand with mode lead when the members differ; atLeast is the HEALTH that its own blocks give it. -/
def standView (lead atLeast : Nat) (l : List UnitView) : UnitView :=
  let ver := rangeAll l
  { state := if ver = 0 then 5 else worstState (l.map (fun v => v.state)),
    mode := if modesDiffer l then lead else ((l.map (fun v => v.mode)).head?).getD lead, mixed := modesDiffer l,
    health := l.foldl (fun h v => max h v.health) atLeast, roles := rolesAny l, ver := ver }

/-- The identity of this unit. -/
def Dev.uid (d : Dev) : BitVec 128 :=
  BitVec.ofNat 128 (d.rd64 Reg.SYS_UID0 + d.rd64 Reg.SYS_UID2 * 2 ^ 64)

/-- This device. -/
def Dev.ownView (d : Dev) : UnitView :=
  { state := d.devState, mode := d.fld F.SYS_MODE_MODE, health := d.health, roles := d.roleWord % 16,
    ver := (d.rd (Reg.SYS_IFVER 0)).toNat }

/-- R236: the pair peer, from its last heartbeat. -/
def Dev.peerView (d : Dev) : Option UnitView :=
  d.hsb.peer.map (fun m =>
    let heard := d.flag F.HSB_STAT_PEERVALID
    { state := if !heard then 0 else if m.health.toNat = 3 then 6 else if m.mode.toNat ≤ 1 then 2 else 3,
      mode := m.mode.toNat, health := if heard then m.health.toNat else 3,
      roles := if heard then m.roles.toNat else 0, ver := (Config.peerHostRange m.uid).toNat })

/-- A unit that cannot be reached (R357). -/
def absentView (d : Dev) : UnitView :=
  { state := 0, mode := d.fld F.SYS_MODE_MODE, health := 0, roles := 0, ver := (d.rd (Reg.SYS_IFVER 0)).toNat }

/-- R236: the pair peer as a child of the pair: absent until it has been heard. -/
def Dev.peerChild (d : Dev) : UnitView := d.peerView.getD (absentView d)

/-- R236: the pair of this device. -/
def Dev.ownPair (d : Dev) : UnitView := pairView d.ownView [d.ownView, d.peerChild]

/-- A stand member from its last STATUS frame; a member that has sent none is absent. -/
def Dev.memberView (d : Dev) (m : StandMember) : UnitView :=
  match m.status with
  | some s => { state := s.state.toNat, mode := s.mode.toNat, health := s.health.toNat, roles := s.roles.toNat % 16,
                ver := s.ver.toNat }
  | none => absentView d

/-- A member is reached through a port. -/
def StandMember.reached (m : StandMember) : Bool := m.hops0.isSome || m.hops1.isSome

/-- R343: STD_CFG.TOPO. -/
def Dev.topo (d : Dev) : Nat := d.fld F.STD_CFG_TOPO

/-- R344: the position of this device and its stand index. -/
def Dev.ownPos (d : Dev) : Nat := d.fld F.SYS_STRAPS_POS
def Dev.ownSidx (d : Dev) : Nat :=
  match d.topo with
  | 3 => d.fld F.STD_CFG_SIDX
  | 2 => b2n (!bitOf d.roleWord 3)
  | _ => 0

/-- R360: the configured positions. -/
def Dev.npos (d : Dev) : Nat := max 1 (min 8 (d.fld F.STD_CFG_NPOS))

/-- R343: position p is a pair in the stand. -/
def Dev.pairedPos (d : Dev) (p : Nat) : Bool := d.topo == 1 && bitOf (d.fld F.STD_PAIRMASK_MASK) p

/-- R357: the child of stand s at position p. -/
def Dev.standChild (d : Dev) (s p : Nat) : UnitView :=
  let others := ((d.stand.members.filter (fun m =>
    m.reached && m.ident.sidx.toNat == s && m.ident.pos.toNat == p))).map d.memberView
  let own := if d.ownPos == p && d.ownSidx == s && d.flag F.STD_CFG_EN then [d.ownView] else []
  match own ++ others with
  | [] => absentView d
  | v :: rest => if d.pairedPos p then pairView v (v :: rest ++ (if rest.isEmpty then [absentView d] else [])) else v

/-- R347: this device is a stand member. -/
def Dev.standOn (d : Dev) : Bool := d.flag F.STD_CFG_EN

/-- R31, R236, R358: the runtime firmware writes SYS_SELFPATH when a pair or stand forms. -/
def Dev.writeSelfpath (d : Dev) : Dev :=
  let index := b2n (!bitOf d.roleWord 3)
  let paired := d.flag F.HSB_CFG_EN
  let path : List Nat :=
    if d.standOn then
      match d.topo with
      | 0 => [d.ownPos, 0xFF]
      | 1 => if d.pairedPos d.ownPos then [d.ownPos, index, 0xFF] else [d.ownPos, 0xFF, 0xFF]
      | _ => [d.ownSidx, d.ownPos, 0xFF]
    else if paired then [index, 0xFF]
    else []
  let w := (List.range 4).foldl (fun x i => x + path.getD i 0xFF * 2 ^ (8 * i)) 0
  (((d.wr Reg.SYS_SELFPATH0 (BitVec.ofNat 32 w)).wr Reg.SYS_SELFPATH1 0xFFFFFFFF).wr Reg.SYS_SELFPATH2 0xFFFFFFFF).wr
    Reg.SYS_SELFPATH3 0xFFFFFFFF

/-- The mode of the acting leader (R348). -/
def Dev.leaderMode (d : Dev) : Nat :=
  match d.stand.members.find? (fun m => d.stand.leader == some m.ident.uid) with
  | some m => (d.memberView m).mode
  | none => d.fld F.SYS_MODE_MODE

/-- R348: the mode of the leader of stand s: that of the acting leader, and of another stand that of its first position
that answers. -/
def Dev.standMode (d : Dev) (s : Nat) : Nat :=
  if s = d.ownSidx then d.leaderMode
  else match ((List.range d.npos).map (d.standChild s)).find? (fun v => v.state != 0) with
    | some v => v.mode
    | none => d.leaderMode

/-- R357: stand s as one unit; a split or a STALE partition makes the own stand at least DEGRADED. The stand with index 0
of a pair of stands is the preferred one. -/
def Dev.standUnit (d : Dev) (s : Nat) : UnitView :=
  let bad := s == d.ownSidx && (d.flag F.STD_STAT_SPLIT || (List.range d.npos).any (fun p => d.flag (F.STD_PSTAT_STALE p)))
  let v := standView (d.standMode s) (if bad then 2 else 0) ((List.range d.npos).map (d.standChild s))
  if d.topo = 2 ∧ s = 0 then { v with roles := v.roles + 8 } else v

/-- R237, R357: the unit above two stands. -/
def Dev.twoStands (d : Dev) : UnitView :=
  let l := [d.standUnit 0, d.standUnit 1]
  if d.topo = 2 then pairView (d.standUnit d.ownSidx) l else standView d.leaderMode 0 l

/-- What CHANGE counts of a group unit. -/
def UnitView.code (v : UnitView) : Nat := v.state + v.mode * 16 + b2n v.mixed * 64 + v.roles * 256 + v.health * 2 ^ 16

/-- The fields of unit u that CHANGE counts (R23): STATE, MODE, HEALTH and the role word as one number. Units 0 to 40 are
the local ones, 41 the pair, 42 the stand and 43 the unit above two stands. -/
def Dev.unitCode (d : Dev) (u : Nat) : Nat :=
  let common := d.fld F.SYS_MODE_MODE * 16 + d.roleWord * 256
  if u = 0 then d.devState + common + d.health * 2 ^ 16
  else if u ≤ 8 then
    d.tasksState (d.coreTasks (u - 1)) + common + d.tasksHealth (d.coreTasks (u - 1)) * 2 ^ 16
  else if u ≤ 40 then
    let l := d.groupTasks ((u - 9) / 4) ((u - 9) % 4)
    d.groupState ((u - 9) / 4) ((u - 9) % 4) + common + d.tasksHealth l * 2 ^ 16
  else if u = 41 then (if d.flag F.HSB_CFG_EN then d.ownPair.code else unitCodeAtReset)
  else if u = 42 then (if d.flag F.STD_CFG_EN then (d.standUnit d.ownSidx).code else unitCodeAtReset)
  else if d.flag F.STD_CFG_EN && Nat.ble 2 d.topo then d.twoStands.code else unitCodeAtReset

/-- R23: HEALTH in what CHANGE counts of a unit. -/
def codeHealth (code : Nat) : Nat := code / 2 ^ 16

/-- One unit compared with what its CHANGE count has seen; FIRST_SRC is the source raised when HEALTH leaves OK. -/
def Dev.seeUnit (d : Dev) (u : Nat) : Dev :=
  let code := d.unitCode u
  let old := Sparse.get (fun _ => unitCodeAtReset) d.units.seen u
  if code = old then d
  else
    let was := Sparse.get (fun _ => none) d.units.first u
    let first := if codeHealth code = 0 then none else if codeHealth old = 0 then d.units.raised else was
    { d with units := { d.units with
        seen := Sparse.set (fun _ => unitCodeAtReset) d.units.seen u code,
        change := Sparse.set (fun _ => 0) d.units.change u (Sparse.get (fun _ => 0) d.units.change u + 1),
        first := Sparse.set (fun _ => none) d.units.first u first } }

/-- R334: INT_FIRST.VALID falls when the device's HEALTH is OK. -/
def Dev.firstFollows (d : Dev) : Dev :=
  if d.flag F.INT_FIRST_VALID ∧ d.health = 0 then d.setFld F.INT_FIRST_VALID 0 else d

/-- R23: the CHANGE counts after a command, and INT_FIRST. -/
def Dev.settle (d : Dev) : Dev :=
  if d.units.dirty then
    let d1 := (List.range 44).foldl Dev.seeUnit d
    { d1 with units := { d1.units with dirty := false, raised := none } }.firstFollows
  else d.firstFollows

/-- A unit's fields may have changed. -/
def Dev.touch (d : Dev) : Dev := { d with units := { d.units with dirty := true } }

/-! ## Event sources (R331 to R334) -/

/-- R23: source i is the first one raised since the units were last looked at. -/
def Dev.noteRaised (d : Dev) (i : Nat) : Dev :=
  { d with units := { d.units with raised := some (d.units.raised.getD i) } }

/-- Source i is pending. -/
def Dev.pendingSrc (d : Dev) (i : Nat) : Bool := d.maskBit (Reg.INT_PEND 0) i

/-- R332: whether the latest raise of source i has had its message. -/
def Dev.setMsgSent (d : Dev) (i : Nat) (b : Bool) : Dev :=
  { d with msix := { d.msix with
      sent := if b then d.msix.sent ||| BitVec.twoPow 256 i else d.msix.sent &&& ~~~(BitVec.twoPow 256 i) } }

/-- R332: MSI-X vector i is sent, or its pending bit is set while it is masked; nothing while MSI-X is off. -/
def Dev.msixSend (d : Dev) (t i : Nat) : Dev :=
  if d.msix.enable then
    let d := d.setMsgSent i true
    if d.msix.mask.getLsbD i then { d with msix := { d.msix with pba := d.msix.pba ||| BitVec.twoPow 256 i } }
    else d.send t (.msix i)
  else d

/-- R41: an arrival of source i at MONO t for every event task bound to it, 8 ticks later. -/
def Dev.armTasks (d : Dev) (t i : Nat) : Dev :=
  (List.range 64).foldl (fun d n =>
    if (d.task n).live && d.fld (F.TSK_CFG_KIND n) == 2 && d.fld (F.TSK_CFG_SRC n) == i then
      d.setTask n { d.task n with arrivals := (d.task n).arrivals ++ [t + 8] }
    else d) d

/-- R331 to R334: source i is raised at MONO t. -/
def Dev.raise (d : Dev) (t i : Nat) : Dev :=
  let d1 :=
    if d.pendingSrc i then d.incFld (F.INT_SRCCFG_CNT i)
    else
      let ok := d.health == 0
      let e := d.setMaskBit (Reg.INT_PEND 0) i true
      let e := if ok && e.health != 0 && !(e.flag F.INT_FIRST_VALID) then
          (e.setFld F.INT_FIRST_SRC i).setFld F.INT_FIRST_VALID 1 else e
      (e.noteRaised i).touch
  let d1 := d1.setMsgSent i false
  let d2 := if d1.maskBit (Reg.INT_EN 0) i then d1.msixSend t i else d1
  d2.armTasks t i

/-- A raise that also sets the block's W1C flag bit of that event. -/
def Dev.raiseFlag (d : Dev) (t i off bit : Nat) : Dev := (d.setBit off bit true).raise t i

/-- R333, R334: pending bit i is cleared: CNT restarts, the contribution to HEALTH is withdrawn. -/
def Dev.clearSrc (d : Dev) (i : Nat) : Dev :=
  if d.pendingSrc i then ((d.setMaskBit (Reg.INT_PEND 0) i false).setFld (F.INT_SRCCFG_CNT i) 0).touch else d

/-- R333: some source routed to pin p is enabled and pending, and the pin is enabled. -/
def Dev.irqActive (d : Dev) (p : Nat) : Bool :=
  d.flag (F.INT_PINCFG_EN p) &&
    (List.range 8).any (fun j =>
      let w := (d.rd (Reg.INT_PEND j) &&& d.rd (Reg.INT_EN j)).toNat
      w != 0 && (List.range 32).any (fun i => bitOf w i && bitOf (d.fld (F.INT_SRCCFG_PINS (32 * j + i))) p))

/-! ## Queues (R319 to R323) -/

/-- R319: the depth of queue q in items; DEPTH 9 to 15 act as 8. -/
def Dev.queueDepth (d : Dev) (q : Nat) : Nat := 16 * 2 ^ min 8 (d.fld (F.QUE_CFG_DEPTH q))

/-- R320: the type field of an item. -/
def Item.type (i : Item) : Nat := bitsOf i.w0.toNat 15 12

/-- R321: item i is stored in queue q; the oldest is overwritten and counted when the queue is full. -/
def Dev.storeItem (d : Dev) (q : Nat) (i : Item) : Dev :=
  let l := d.queue q
  if l.length < d.queueDepth q then d.setQueue q (l ++ [i])
  else (d.setQueue q (l.drop 1 ++ [i])).incSat (Reg.QUE_QLOST q)

/-- R323: a push behind those that are served before it in the same fabric cycle. -/
def addPush (x : QueuePush) : List QueuePush → List QueuePush
  | [] => [x]
  | y :: rest => if x.rank < y.rank then x :: y :: rest else y :: addPush x rest

/-- R321, R323: the producer of a rank pushes an accepted item; the queue stores it after the pops of its fabric cycle. -/
def Dev.queuePush (d : Dev) (rank q : Nat) (i : Item) : Dev :=
  { d with queues := { d.queues with pushes := addPush ⟨q, rank, i⟩ d.queues.pushes } }

/-- R323: the fabric cycle in progress ends: its pushes are served in their order. -/
def Dev.servePushes (d : Dev) : Dev :=
  d.queues.pushes.foldl (fun d x => d.storeItem x.queue x.item) { d with queues := { d.queues with pushes := [], pops := [] } }

/-- R134, R323: a fabric cycle spans two core clocks; what a cycle that is over pushed is in its queue at MONO t. -/
def Dev.queuesTo (d : Dev) (t : Nat) : Dev :=
  if d.queues.cycle = t / 2 then d
  else
    let d := d.servePushes
    { d with queues := { d.queues with cycle := t / 2 } }

/-- R321: a refused item. -/
def Dev.queueRefuse (d : Dev) : Dev := (d.incSat Reg.QUE_REFUSED).setFld F.QUE_STAT_DENY 1

/-! ## Sequence of events (R311, R312) -/

/-- R312, R314: an SOE entry of a type, stamped with station time at MONO t, enters Q00; R324: it is dropped and
counted while Q00 is frozen. -/
def Dev.soeAt (d : Dev) (stampNs : Nat) (tq type srcid value aux resume : Nat) : Dev :=
  if d.flag F.BIO_CTL_SOEEN then
    let i : Item :=
      { w0 := BitVec.ofNat 32 (srcid + type * 2 ^ 12 + value * 2 ^ 16 + resume * 2 ^ 17 +
          b2n (!d.leaseHeld) * 2 ^ 18 + aux * 2 ^ 24),
        w1 := BitVec.ofNat 32 (stampNs % 1000000000 + tq * 2 ^ 30),
        w2 := BitVec.ofNat 32 (stampNs / 1000000000),
        w3 := BitVec.ofNat 32 (stampNs / 1000000000 / 2 ^ 32) }
    let d := d.incWrap Reg.BIO_SOECNT
    if d.flag F.QUE_STAT_FROZEN then d.incSat (Reg.QUE_QLOST 0) else d.queuePush 0 0 i
  else d

/-- An SOE entry stamped at MONO t. -/
def Dev.soe (d : Dev) (t type srcid value aux : Nat) : Dev :=
  d.soeAt (d.station t) (d.tq t) type srcid value aux 0

/-! ## Latches (R8, R30, R133) -/

/-- The number of a requester's latch set. -/
def reqId : Requester → Nat
  | .core c b => 8 * c + b
  | .svc => 64
  | .host => 65
  | .uart => 66
  | .lan => 67

/-- The word that requester r's latch holds for an offset. -/
def Dev.latched (d : Dev) (r : Requester) (off : Nat) : Word :=
  Sparse.get (fun _ => 0) d.latch (reqId r * 2 ^ 24 + off)

/-- A latch written. -/
def Dev.setLatch (d : Dev) (r : Requester) (off : Nat) (v : Word) : Dev :=
  { d with latch := Sparse.set (fun _ => 0) d.latch (reqId r * 2 ^ 24 + off) v }

/-- Words latched from an offset on. -/
def Dev.setLatches (d : Dev) (r : Requester) (off : Nat) : List Word → Dev
  | [] => d
  | v :: rest => Dev.setLatches (d.setLatch r off v) r (off + 4) rest

/-! ## Calendar events (R381, R385) -/

/-- An event of the RTC: source 176 + k and its flag. -/
def Dev.rtcEvent (d : Dev) (t k : Nat) : Dev := d.raiseFlag t (176 + k) Reg.RTC_STAT (8 + k)

/-- R385: bit b of RTC_ERR is set. -/
def Dev.rtcError (d : Dev) (t b : Nat) : Dev := (d.setBit Reg.RTC_ERR b true).rtcEvent t 3

/-- R381: the running measurement fails at MONO t. -/
def Dev.measureFail (d : Dev) (t : Nat) : Dev :=
  match d.rtc.meas with
  | some _ => ((({ d with rtc := { d.rtc with meas := none } }).setFld F.RTC_STAT_MEAS 0).rtcError t 5).rtcEvent t 2
  | none => d

/-- R381: a time quality code above 1 fails the measurement whose window is open. -/
def Dev.measureQuality (d : Dev) (t : Nat) : Dev :=
  match d.rtc.meas with
  | some m => if m.opened && Nat.blt 1 (d.tq t) then d.measureFail t else d
  | none => d

/-! ## NVS writes in progress (R362, R365) -/

/-- One operation of the NVS controller done. -/
def Dev.nvsOp (d : Dev) : NvsOp → Dev
  | .bytes off l => { d with mem := { d.mem with nvs := Memory.wrBytes d.mem.nvs off l } }.incWrap Reg.NVS_WRCNT
  | .head num slot => (d.wr Reg.NVS_JHEAD num).wr Reg.NVS_JSLOT (BitVec.ofNat 32 slot)

/-- The operations that are complete at MONO t are done. -/
def Dev.nvsFlush (d : Dev) (t : Nat) : Dev :=
  d.nvs.ops.foldl (fun d p =>
    if p.1 ≤ t then ({ d with nvs := { d.nvs with ops := d.nvs.ops.drop 1 } }).nvsOp p.2 else d) d

/-! ## Sealed configuration (R436) -/

/-- Component c of the boot flash: 0 RUNTIME, 1 NETFW, 2 PMUFW, 3 CONFIG. -/
def Dev.comp (d : Dev) (c : Nat) : Component := Sparse.get (fun _ => {}) d.flash.comps c

/-- Component c changed by f. -/
def Dev.modComp (d : Dev) (c : Nat) (f : Component → Component) : Dev :=
  { d with flash := { d.flash with comps := Sparse.set (fun _ => {}) d.flash.comps c (f (d.comp c)) } }

/-- The image in the active slot. -/
def Component.active (k : Component) : SlotImage := if k.activeB then k.slotB else k.slotA

/-- The image in the other slot. -/
def Component.other (k : Component) : SlotImage := if k.activeB then k.slotA else k.slotB

/-- The active slot replaced. -/
def Component.setActive (k : Component) (i : SlotImage) : Component :=
  if k.activeB then { k with slotB := i } else { k with slotA := i }

/-- The other slot replaced. -/
def Component.setOther (k : Component) (i : SlotImage) : Component :=
  if k.activeB then { k with slotA := i } else { k with slotB := i }

/-- The mask of the fields of the register at an offset that software sets. -/
def settingMask (off : Nat) : Word :=
  match rowOf off with
  | some r => r.fields.foldl (fun m f => match f.ty with | .rw => m ||| fieldMask f.hi f.lo | .rwl => m ||| fieldMask f.hi f.lo | _ => m) 0
  | none => 0

/-- R435: the offset belongs to a block whose settings the configuration set holds. -/
def configOffset (off : Nat) : Bool :=
  Nat.ble 0x3000 off && !(decide (0x60000 ≤ off) && decide (off < 0x72000))

/-- R435: the running program with every register setting. -/
def Dev.snapshot (d : Dev) : Program :=
  { version := d.rd Reg.XCH_RUNVER, code := d.mem.code, data := d.mem.data,
    regs := d.csr.filterMap (fun p =>
      let m := settingMask p.1
      if configOffset p.1 ∧ m ≠ 0 then some (p.1, p.2 &&& m) else none),
    rungs := d.plane.active, subWords := d.net.subWords, pubWords := d.net.pubWords, formats := d.formats,
    spans := d.xch.spans }

/-- R438: what a copy of the directory holds. -/
def Dev.dir (d : Dev) : List (Bool × Bool × Bool) :=
  (List.range 4).map (fun c => ((d.comp c).activeB, (d.comp c).otherValid, (d.comp c).otherConfirmed))

/-- R438: a change of the directory from what it was in old writes the older copy, so that the other copy still holds
what it was. -/
def Dev.keepDir (old d : Dev) : Dev :=
  if d.dir = old.dir then d else { d with flash := { d.flash with oldDir := old.dir } }

/-- R438: the directory selects the other slot of component c, which holds a confirmed image unless the window of that
image still runs. -/
def Component.swapSlots (k : Component) : Component :=
  { k with activeB := !k.activeB, otherValid := k.active != .empty, otherConfirmed := k.active != .empty && k.state != 4 }

/-- R436: the runtime firmware writes the running program as a sealed CONFIG: into the other slot, which becomes the
active one, or in place of the active image while an update of CONFIG uses the other slot. -/
def Dev.sealConfig (d : Dev) : Dev :=
  let p := d.snapshot
  d.keepDir (d.modComp 3 (fun k =>
    if k.state = 0 then (k.setOther (.sealed p)).swapSlots else k.setActive (.sealed p)))

/-! ## Privilege (R416, R418) -/

/-- R428: access for the service port is open. -/
def Dev.accessOpen (d : Dev) : Bool := d.flag F.SEC_STAT_OPEN

end Sys2Proof.Machine
end

