-- ==== Sys2Proof/Machine/Outs.lean ====
section
/-!
DEFINITION. From the output image to the pads: regions (R49, R50), SAFE state (R53), binary outputs (R298, R299) and
their combination with the fast outputs, the lease gate and the supervisor (R167, R168).
-/
namespace Sys2Proof.Machine

/-! ## Regions -/

/-- The first image word of region k. -/
def Dev.rgnOff (d : Dev) (k : Nat) : Nat := d.fld (F.IMG_RGN_OFFSET k)

/-- The number of words of region k. -/
def Dev.rgnLen (d : Dev) (k : Nat) : Nat := d.fld (F.IMG_RGN_LENM1 k) + 1

/-- The image words of region k. -/
def Dev.rgnWords (d : Dev) (k : Nat) : List Nat := (List.range (d.rgnLen k)).map (d.rgnOff k + ·)

/-- R49: the input regions of task n. -/
def Dev.inRegions (d : Dev) (n : Nat) : List Nat :=
  (List.range (d.fld (F.IMG_TRGN_IN_CNT n))).map (d.fld (F.IMG_TRGN_IN_FIRST n) + ·)

/-- R49: the output regions of task n. -/
def Dev.outRegions (d : Dev) (n : Nat) : List Nat :=
  (List.range (d.fld (F.IMG_TRGN_OUT_CNT n))).map (d.fld (F.IMG_TRGN_OUT_FIRST n) + ·)

/-- Task n commits output image word w. -/
def Dev.commits (d : Dev) (n w : Nat) : Bool :=
  (d.outRegions n).any (fun k => Nat.ble (d.rgnOff k) w && Nat.blt w (d.rgnOff k + d.rgnLen k))

/-! ## SAFE state (R53) -/

/-- The output regions of task n are in SAFE state. -/
def Dev.isSafe (d : Dev) (n : Nat) : Bool := d.maskBit Reg.IMG_SAFEMASK0 n

/-- Outputs may have changed. -/
def Dev.touchOuts (d : Dev) : Dev := { d with outs := { d.outs with dirty := true } }

/-- The SAFE state of task n set or cleared in both places that show it. -/
def Dev.setSafe (d : Dev) (n : Nat) (b : Bool) : Dev :=
  ((d.setMaskBit Reg.IMG_SAFEMASK0 n b).setFld (F.TSK_STATE_SAFE n) (b2n b)).touchOuts

/-- R53: the output regions of task n enter SAFE state; a commit that waits for its instant is withdrawn. A task that
selects no output region has none to hold in SAFE state. -/
def Dev.enterSafe (d : Dev) (n : Nat) : Dev :=
  let d := d.setTask n { d.task n with commit := none }
  if (d.outRegions n).isEmpty then d else d.setSafe n true

/-- R53: output image word w lies in a region of a task, enabled or not, whose regions are in SAFE state. -/
def Dev.wordSafe (d : Dev) (w : Nat) : Bool := (List.range 64).any (fun n => d.isSafe n && d.commits n w)

/-- Output image word w as its consumers see it: none while the regions that hold it are in SAFE state. -/
def Dev.outWord (d : Dev) (w : Nat) : Option Word64 :=
  if d.wordSafe w then none else some (Image.rd d.mem.out w)

/-! ## Binary outputs -/

/-- R299: the safe values of BO00 to BO63. -/
def Dev.boSafe (d : Dev) : Word64 := BitVec.ofNat 64 (d.rd64 Reg.BIO_BOSAFE0)

/-- The BO state. -/
def Dev.boState (d : Dev) : Word64 := BitVec.ofNat 64 (d.rd64 Reg.BIO_BO0)

/-- R298: the task outputs of BO 4 w to BO 4 w + 3, or their safe values. -/
def Dev.taskOut4 (d : Dev) (w : Nat) : Nat :=
  match d.outWord w with
  | some v =>
    let x := v.toNat
    b2n (bitOf x 0) + 2 * b2n (bitOf x 16) + 4 * b2n (bitOf x 32) + 8 * b2n (bitOf x 48)
  | none => bitsOf d.boSafe.toNat (4 * w + 3) (4 * w)

/-- R298: T of BO00 to BO63. -/
def Dev.taskOut (d : Dev) : Word64 :=
  BitVec.ofNat 64 ((List.range 16).foldl (fun x w => x + d.taskOut4 w * 2 ^ (4 * w)) 0)

/-- F of BO00 to BO63 and which of them are fast-driven. -/
def Dev.fastOut (d : Dev) : Word64 := BitVec.ofNat 64 (d.rd64 Reg.FRP_FO0)

/-- R166: the outputs that are fast-driven. -/
def Dev.fastOwn (d : Dev) : Word64 := BitVec.ofNat 64 (d.rd64 Reg.FRP_FOOWN0)

/-- R166: OMODE of BO k. -/
def Dev.omode (d : Dev) (k : Nat) : Nat :=
  bitsOf (d.rd (Reg.FRP_OMODE (k / 16))).toNat (2 * (k % 16) + 1) (2 * (k % 16))

/-- R167: the combination of one output. -/
def combine1 (own : Bool) (omode : Nat) (t f : Bool) : Bool :=
  if own then (if omode = 0 then t || f else if omode = 1 then t && f else f) else t

/-- R167: the levels commanded at the pads for T as it stands in the combination. -/
def Dev.padLevels (d : Dev) : Word64 :=
  if d.outs.forced || !d.leaseHeld then d.boSafe
  else
    BitVec.ofNat 64 ((List.range 64).foldl (fun x k =>
      x + b2n (combine1 (d.fastOwn.getLsbD k) (d.omode k) (d.outs.tComb.getLsbD k) (d.fastOut.getLsbD k)) * 2 ^ k) 0)

/-- The combination reloaded at MONO x: a change reaches the pads 6 ns later. -/
def Dev.combine (d : Dev) (x : Nat) : Dev :=
  let v := d.padLevels
  let last := match d.outs.padPipe.getLast? with | some p => p.2 | none => d.boState
  if v = last then d else { d with outs := { d.outs with padPipe := d.outs.padPipe ++ [(x + 6, v)] } }

/-- Values of T that reach the combination up to MONO t. -/
def Dev.flushT (d : Dev) (t : Nat) : Dev :=
  d.outs.tPipe.foldl (fun d p =>
    if p.1 ≤ t then
      ({ d with outs := { d.outs with tComb := p.2, tPipe := d.outs.tPipe.drop 1 } }).combine p.1
    else d) d

/-- R168, R175: F of BO k is v from MONO x on. -/
def Dev.setF (d : Dev) (x k : Nat) (v : Bool) : Dev :=
  let d := d.flushT x
  (((d.setMaskBit Reg.FRP_FO0 k v).soe x 2 k (b2n v) 0).raiseFlag x 77 Reg.FRP_STAT 13).combine x

/-- R168: the changes of F that come up to MONO t. -/
def Dev.flushF (d : Dev) (t : Nat) : Dev :=
  d.outs.fPipe.foldl (fun d p =>
    if p.1 ≤ t then ({ d with outs := { d.outs with fPipe := d.outs.fPipe.drop 1 } }).setF p.1 p.2.1 p.2.2 else d) d

/-- The device as MONO t finds it: NVS writes that are complete by then are done (R362), the queues have served the fabric
cycles before it (R323), and changes of F that the sweep in progress brings up to then have come (R168). -/
def Dev.upTo (d : Dev) (t : Nat) : Dev := ((d.nvsFlush t).queuesTo t).flushF t

/-! ## Readback (R300, R301) -/

/-- R300: the readback levels. -/
def Dev.brb (d : Dev) : Word := d.io.brbPin ^^^ d.rd Reg.BIO_RBINV

/-- The readback comparison of output n. -/
def Dev.readback (d : Dev) (n : Nat) : Readback := Sparse.get (fun _ => {}) d.io.readback n

/-- The readback comparison of output n replaced. -/
def Dev.setReadback (d : Dev) (n : Nat) (k : Readback) : Dev :=
  { d with io := { d.io with readback := Sparse.set (fun _ => {}) d.io.readback n k } }

/-- R301: at MONO t the comparison of output n is looked at again: since when, if at all, it differs from what
BIO_MMLIVE shows. -/
def Dev.compareBack (d : Dev) (t n : Nat) : Dev :=
  let k := d.readback n
  let differs := d.brb.getLsbD n != d.boState.getLsbD n
  if d.bit Reg.BIO_RBEN n && differs != d.bit Reg.BIO_MMLIVE n then
    match k.since with
    | some _ => d
    | none => d.setReadback n { k with since := some (max t k.settleEnd) }
  else d.setReadback n { k with since := none }

/-- R301: the BO state of output n has changed at MONO t: the comparison is suspended for SETTLE µs. -/
def Dev.suspendBack (d : Dev) (t n : Nat) : Dev :=
  let d := d.setReadback n { settleEnd := t + d.fld (F.BIO_RBCFG_SETTLE n) * 1000, since := none }
  d.compareBack t n

/-- The pads take levels v at MONO t. R467: while EXTEST is in effect the boundary cells drive them. -/
def Dev.setPads (d : Dev) (t : Nat) (v : Word64) : Dev :=
  let diff := d.boState ^^^ v
  let d := d.wr64 Reg.BIO_BO0 v.toNat
  let d := if d.tap.ir = .extest then d else d.send t (.pads v)
  forN 32 (fun n d => if diff.getLsbD n then d.suspendBack t n else d) d

/-- Levels that reach the pads up to MONO t. -/
def Dev.flushPads (d : Dev) (t : Nat) : Dev :=
  let d := d.flushT t
  d.outs.padPipe.foldl (fun d p =>
    if p.1 ≤ t then
      ({ d with outs := { d.outs with padPipe := d.outs.padPipe.drop 1 } }).setPads p.1 p.2
    else d) d

/-- R52, R167: after a command at MONO t, a new T starts towards the combination, 34 ns away, and the combination
sees a change of the gate, of the fast outputs or of the supervisor's drive. -/
def Dev.settleOuts (d : Dev) (t : Nat) : Dev :=
  if d.outs.dirty then
    let d := d.flushT t
    let v := d.taskOut
    let d := if v = d.outs.t then d
      else { d with outs := { d.outs with t := v, tPipe := d.outs.tPipe ++ [(t + 34, v)] } }
    let d := (d.combine t).flushPads t
    { d with outs := { d.outs with dirty := false } }
  else d

/-! ## Commands and events -/

/-- f acts at MONO t on a device that is awake, and what follows at once from the change follows; a device that is not awake stays as it is. -/
def Dev.doAwake (d : Dev) (t : Nat) (f : Nat → Dev → Dev) : Dev := if d.awake then ((f t (d.upTo t)).settleOuts t).settle else d

/-- A command that takes no time: f acts at the present MONO. -/
def State.upd (s : State) (f : Nat → Dev → Dev) : Host.Outcome State Fault Refusal :=
  .next { s with dev := s.dev.doAwake s.mono f }

/-- An event that the world causes: dt ns pass, then f acts at the MONO reached. -/
def State.event (s : State) (dt : Nat) (f : Nat → Dev → Dev) : Host.Outcome State Fault Refusal :=
  .next { s with mono := s.mono + dt, dev := s.dev.doAwake (s.mono + dt) f }

/-- An event that the device's clocks cause: MONO passes to the instant due (it never goes back), then f acts. -/
def State.at (s : State) (due : Nat) (f : Nat → Dev → Dev) : Host.Outcome State Fault Refusal :=
  .next { s with mono := max s.mono due, dev := s.dev.doAwake (max s.mono due) f }

end Sys2Proof.Machine
end

