-- ==== Sys2Proof/Machine/Reply.lean ====
section
/-!
DEFINITION. The end of a host command (R327, R328, R421): the response in its mailbox or on its channel, and the
registers that count it.
-/
namespace Sys2Proof.Machine

/-- R339: event source 188 + k with its bit of HST_EVT. -/
def Dev.hstEvent (d : Dev) (t k : Nat) : Dev := d.raiseFlag t (188 + k) Reg.HST_EVT k

/-- HST_ERRCNT counts, and source 191 is raised. -/
def Dev.hstError (d : Dev) (t : Nat) : Dev := (d.incSat Reg.HST_ERRCNT).hstEvent t 3

/-- The sender that a channel names: none for the UART, and no sender of a session list for a mailbox. -/
def chWho : Channel → Option (Bool × BitVec 48)
  | .lan cd src _ => some (cd, src)
  | _ => none

/-- R421: SEQ of the message that carried a command. -/
def chSeq : Channel → Option (BitVec 8)
  | .mailbox _ => none
  | .uart s => some s
  | .lan _ _ s => some s
  | _ => none

/-- R327: the four words that the device writes into a header. -/
def replyHeader (dest : ReplyTo) (status len : Nat) : List Byte :=
  leBytes (status + dest.tag.toNat * 2 ^ 16) 4 ++ leBytes len 4 ++ leBytes dest.cost 4

/-- R328, R421: a command completes at MONO t with a STATUS and a response. A mailbox that a PCIe reset has aborted
takes none. -/
def Dev.reply (d : Dev) (t : Nat) (dest : ReplyTo) (status : Nat) (bytes : List Byte) : Dev :=
  let done (d : Dev) : Dev :=
    let d := (d.incWrap Reg.HST_CMDCNT).wr Reg.HST_LASTCMD (BitVec.ofNat 32 (dest.cmd + status * 2 ^ 8))
    if status = 8 then d.hstError t else d
  match dest.ch with
  | .mailbox m =>
    if d.bit Reg.HST_MBSTAT m.toNat then
      let a := m.toNat * 0x10000
      let mb := Memory.wrBytes (Memory.wrBytes d.mem.mbox (a + 0x18) (replyHeader dest status bytes.length)) (a + 0x40) bytes
      let d := { d with mem := { d.mem with mbox := mb } }
      (((done d).setBit Reg.HST_MBSTAT m.toNat false).setBit Reg.HST_MBSTAT (8 + m.toNat) true).hstEvent t 0
    else d
  | ch =>
    let d := (done d).send t (.response ch (replyHeader dest status bytes.length ++ bytes))
    match chSeq ch with
    | some q =>
      { d with host := { d.host with
          replies := { who := chWho ch, seq := q, bytes := replyHeader dest status bytes.length ++ bytes } ::
            d.host.replies.filter (fun r => r.who != chWho ch) } }
    | none => d

end Sys2Proof.Machine
end

