-- ==== Sys2Proof/Machine/Io.lean ====
section
/-!
DEFINITION. Binary inputs, readback, the analog front end and its comparators (R294 to R310), and the sequence-of-events
entries that they produce.
-/
namespace Sys2Proof.Machine

/-! ## Binary inputs -/

/-- R294: the raw level of BI n. -/
def Dev.biRaw (d : Dev) (n : Nat) : Bool := d.io.biPin.getLsbD n != d.flag (F.BIO_BICFG_INV n)

/-- R295: the debounced level of BI n. -/
def Dev.biLevel (d : Dev) (n : Nat) : Bool := d.maskBit Reg.BIO_BI0 n

/-- The raw level of BI n shown in BIO_BIRAW. -/
def Dev.showRaw (d : Dev) (n : Nat) : Dev := d.setMaskBit Reg.BIO_BIRAW0 n (d.biRaw n)

/-- The episode in progress on BI n. -/
def Dev.episode (d : Dev) (n : Nat) : Option Episode := Sparse.get (fun _ => none) d.io.episodes n

/-- The episode on BI n replaced. -/
def Dev.setEpisode (d : Dev) (n : Nat) (e : Option Episode) : Dev :=
  { d with io := { d.io with episodes := Sparse.set (fun _ => none) d.io.episodes n e } }

/-- R295: the debounce time of BI n in ns; above 10,000 µs acts as 10,000. -/
def Dev.debounce (d : Dev) (n : Nat) : Nat := min 10000 (d.fld (F.BIO_BICFG_DEB n)) * 1000

/-- The SOE bit of BI n for a change to b. -/
def Dev.biSoe (d : Dev) (n : Nat) (b : Bool) : Bool :=
  if b then d.flag (F.BIO_BICFG_SOERISE n) else d.flag (F.BIO_BICFG_SOEFALL n)

/-- R295, R297: at MONO t the change of BI n to its raw level is accepted, stamped with the first edge. -/
def Dev.acceptBi (d : Dev) (t n stamp tq : Nat) : Dev :=
  let v := d.biRaw n
  let d := (d.setMaskBit Reg.BIO_BI0 n v).setEpisode n none
  let d := if d.biSoe n v then d.soeAt stamp tq 1 n (b2n v) 0 0 else d
  if d.maskBit Reg.BIO_EVEN0 n then d.raiseFlag t 136 Reg.BIO_STAT 8 else d

/-- R295, R297: at MONO t the episode on BI n is rejected. -/
def Dev.rejectBi (d : Dev) (t n : Nat) : Dev :=
  let d := (d.setEpisode n none).incSat Reg.BIO_REJCNT
  if d.maskBit Reg.BIO_EVEN0 n then d.raiseFlag t 138 Reg.BIO_STAT 10 else d

/-- The level at the ball of BI n. -/
def Dev.setBiPin (d : Dev) (n : Nat) (level : Bool) : Dev :=
  if n < 96 ∧ d.io.biPin.getLsbD n ≠ level then { d with io := { d.io with biPin := d.io.biPin ^^^ BitVec.twoPow 96 n } } else d

/-- The level at the ball of BRB n. -/
def Dev.setBrbPin (d : Dev) (n : Nat) (level : Bool) : Dev :=
  if n < 32 ∧ d.io.brbPin.getLsbD n ≠ level then { d with io := { d.io with brbPin := d.io.brbPin ^^^ BitVec.twoPow 32 n } } else d

/-- R294 to R296: the level at the ball of BI n becomes level, and at MONO t, 2 ns later, leaves the synchroniser. -/
def Dev.biEdge (n : Nat) (level : Bool) (t : Nat) (d : Dev) : Dev :=
  if n < 96 ∧ d.io.biPin.getLsbD n ≠ level then
    let stamp := d.station (t - 2)
    let tq := d.tq (t - 2)
    let d := (d.setBiPin n level).showRaw n
    match d.episode n with
    | some e => d.setEpisode n (some { e with due := t + e.deb })
    | none =>
      if d.biRaw n = d.biLevel n then d
      else if d.debounce n = 0 then d.acceptBi t n stamp tq
      else d.setEpisode n (some { stamp := stamp, tq := tq, deb := d.debounce n, due := t + d.debounce n })
  else d

/-- BI_EDGE: dt ns pass, the ball of BI n takes a level, and the synchroniser passes it on 2 ns later (R294). -/
def execBiEdge (dt : Nat) (n : BitVec 7) (level : Bool) (s : State) : Host.Outcome State Fault Refusal :=
  if s.dev.awake then s.event (dt + 2) (fun t d => d.biEdge n.toNat level t)
  else .next { s with mono := s.mono + dt, dev := s.dev.setBiPin n.toNat level }

/-- R295: the end of the episode on BI n at MONO t. -/
def Dev.endEpisode (n : Nat) (t : Nat) (d : Dev) : Dev :=
  match d.episode n with
  | some e => if d.biRaw n = d.biLevel n then d.rejectBi t n else d.acceptBi t n e.stamp e.tq
  | none => d

/-- BI_DEBOUNCE_END: BI n has been stable for its debounce time; without an episode nothing happens. -/
def execBiDebounceEnd (n : BitVec 7) (s : State) : Host.Outcome State Fault Refusal :=
  match s.dev.episode n.toNat with
  | some e => s.at e.due (Dev.endEpisode n.toNat)
  | none => .next s

/-- R294, R297: L of BI n is set to its raw level, with no episode and no accepted change. -/
def Dev.adoptRaw (d : Dev) (n : Nat) : Dev :=
  ((d.showRaw n).setMaskBit Reg.BIO_BI0 n (d.biRaw n)).setEpisode n none

/-- R294: what a write of BIO_BICFG[n] does beside storing the word: a change of INV acts on L. -/
def Dev.afterBiCfg (d : Dev) (n : Nat) (old : Word) : Dev :=
  if (old ^^^ d.rd (Reg.BIO_BICFG n)).getLsbD 18 then d.adoptRaw n else d

/-- R297: at release of device reset and at warm resume every input starts from its raw level. -/
def Dev.adoptAllRaw (d : Dev) : Dev := forN 96 (fun n d => d.adoptRaw n) d

/-! ## Readback mismatches -/

/-- R301: the instant since when output n has differed from what is shown, with the pads as they stand at MONO t. -/
def Dev.backDue (d : Dev) (n : Nat) : Option Nat := (d.readback n).since

/-- R301: the level at the ball of BRB n becomes level at MONO t. -/
def Dev.setBrb (n : Nat) (level : Bool) (t : Nat) (d : Dev) : Dev :=
  let d := d.flushPads t
  if n < 32 then (d.setBrbPin n level).compareBack t n else d

/-- R301: a mismatch of BRB n that began at MONO start is entered at MONO t. -/
def Dev.enterMismatch (n start t : Nat) (d : Dev) : Dev :=
  let d := (d.setBit Reg.BIO_MMLIVE n true).setBit Reg.BIO_MM n true
  let d := (d.incSat Reg.BIO_MMCNT).soeAt (d.station start) (d.tq start) 5 n 1 0 0
  (d.raiseFlag t 137 Reg.BIO_STAT 9).setReadback n { d.readback n with since := none }

/-- R301: the mismatch of BRB n ends with the agreement that began at MONO start. -/
def Dev.leaveMismatch (n start : Nat) (d : Dev) : Dev :=
  let d := (d.setBit Reg.BIO_MMLIVE n false).soeAt (d.station start) (d.tq start) 5 n 0 0 0
  d.setReadback n { d.readback n with since := none }

/-- R301: after a level of BRB n has come, the comparison that has differed for 1 µs is entered, a mismatch when
enter is set and the end of one otherwise. -/
def backEvent (dt : Nat) (n : BitVec 5) (level enter : Bool) (s : State) : Host.Outcome State Fault Refusal :=
  let s1 := { s with
    mono := s.mono + dt
    dev := if s.dev.awake then s.dev.doAwake (s.mono + dt) (Dev.setBrb n.toNat level) else s.dev.setBrbPin n.toNat level }
  match s1.dev.backDue n.toNat with
  | some start =>
    if s1.dev.bit Reg.BIO_MMLIVE n.toNat = enter then .next s1
    else if enter then s1.at (start + 1000) (Dev.enterMismatch n.toNat start)
    else s1.at (start + 1000) (fun _ => Dev.leaveMismatch n.toNat start)
  | none => .next s1

/-- READBACK_MISMATCH: dt ns pass and BRB n stands at a level; when it then disagrees with BO n, the disagreement lasts
1 µs and is a mismatch. -/
def execReadbackMismatch (dt : Nat) (n : BitVec 5) (level : Bool) (s : State) : Host.Outcome State Fault Refusal :=
  backEvent dt n level true s

/-- READBACK_MISMATCH_END: dt ns pass and BRB n stands at a level; when it then agrees with BO n during a mismatch, the
agreement lasts 1 µs and ends it. -/
def execReadbackMismatchEnd (dt : Nat) (n : BitVec 5) (level : Bool) (s : State) : Host.Outcome State Fault Refusal :=
  backEvent dt n level false s

/-- R301: what a write of BIO_RBEN does beside storing the word. -/
def Dev.afterRben (d : Dev) (t : Nat) : Dev :=
  forN 32 (fun n d =>
    if d.bit Reg.BIO_RBEN n then d.compareBack t n
    else
      let d := if d.bit Reg.BIO_MMLIVE n then Dev.leaveMismatch n t d else d
      d.setReadback n { d.readback n with since := none }) d

/-! ## Analog channels -/

/-- Channel c is enabled. -/
def Dev.chEnabled (d : Dev) (c : Nat) : Bool := decide (c < 24) && d.bit Reg.ADC_CFG c

/-- Channel c is faulty (R305). -/
def Dev.chFaulty (d : Dev) (c : Nat) : Bool := d.bit Reg.ADC_FAULT c

/-- R304: the calibrated sample of a raw code of channel c. -/
def Dev.calibrate (d : Dev) (c : Nat) (raw : BitVec 24) : BitVec 24 :=
  if d.chEnabled c then
    let ofs := (BitVec.ofNat 24 (d.fld (F.ADC_OFS_OFS c))).toInt
    BitVec.ofInt 24 (saturate (rnd .rhe ((raw.toInt + ofs) * (d.fld (F.ADC_GAIN_GAIN c) : Int)) 22) 24)
  else 0

/-- R308, R318: WIN; outside 96 to 7,680 the nearer limit acts. -/
def Dev.rmsWin (d : Dev) : Nat := max 96 (min 7680 (d.fld F.ADC_RMSCFG_WIN))

/-- R308: the newest samples of the main stream of channel c. -/
def Dev.window (d : Dev) (c : Nat) : List (BitVec 24) := Sparse.get (fun _ => []) d.io.window c

/-- R308: the RMS over the last WIN samples. -/
def rmsOf (win : Nat) (l : List (BitVec 24)) : Nat :=
  isqrt 24 ((l.take win).foldl (fun x s => x + s.toInt.natAbs ^ 2) 0 / win)

/-- Comparator t beside its registers. -/
def Dev.comparator (d : Dev) (t : Nat) : Comparator := Sparse.get (fun _ => {}) d.io.comparators t

/-- Comparator t replaced. -/
def Dev.setComparator (d : Dev) (t : Nat) (k : Comparator) : Dev :=
  { d with io := { d.io with comparators := Sparse.set (fun _ => {}) d.io.comparators t k } }

/-- R316: bit t of the comparators takes value b at MONO now; a change of an enabled bit raises source 142. -/
def Dev.setThr (d : Dev) (now t : Nat) (b : Bool) : Dev :=
  if d.maskBit (Reg.ADC_THRBIT 0) t = b then d
  else
    let d := d.setMaskBit (Reg.ADC_THRBIT 0) t b
    if d.maskBit (Reg.ADC_THREVT 0) t then d.raiseFlag now 142 Reg.ADC_STAT 10 else d

/-- R308, R318: the kind of comparator t; a channel above 23 acts as KIND 0. -/
def Dev.thrKind (d : Dev) (t : Nat) : Nat := if d.fld (F.ADC_THR0_CH t) < 24 then d.fld (F.ADC_THR0_KIND t) else 0

/-- R308: the bit of comparator t as long as no sample decides it: 0 when off or on a disabled channel, FAILV on a
faulty one; none where samples decide. -/
def Dev.thrFixed (d : Dev) (t : Nat) : Option Bool :=
  let c := d.fld (F.ADC_THR0_CH t)
  if d.thrKind t = 0 ∨ d.chEnabled c = false then some false
  else if d.chFaulty c then some (d.flag (F.ADC_THR0_FAILV t))
  else none

/-- R308: the bit of comparator t where it does not rest on samples. -/
def Dev.refreshThr (d : Dev) (now t : Nat) : Dev :=
  match d.thrFixed t with
  | some b => (d.setComparator t { d.comparator t with count := 0 }).setThr now t b
  | none => d

/-- All comparators of channel c looked at again at MONO now, after the channel was enabled, disabled or became faulty
or sound. -/
def Dev.refreshChannel (d : Dev) (now c : Nat) : Dev :=
  forN 256 (fun t d => if d.fld (F.ADC_THR0_CH t) = c then d.refreshThr now t else d) d

/-- R308: the level of comparator t, signed for KIND 2. -/
def Dev.thrLevel (d : Dev) (t : Nat) : Int :=
  let l := d.fld (F.ADC_THR0_LEVEL t)
  if d.thrKind t = 2 then (BitVec.ofNat 24 l).toInt else l

/-- R309: the written words of comparator t apply. -/
def Dev.applyThr (d : Dev) (t : Nat) : Dev :=
  match (d.comparator t).held with
  | some (w0, w1) =>
    ((d.wr (Reg.ADC_THR0 t) w0).wr (Reg.ADC_THR1 t) w1).setComparator t
      { d.comparator t with held := none, count := 0 }
  | none => d

/-- R308: comparator t sees value v of its stream at MONO now. -/
def Dev.testThr (d : Dev) (now t : Nat) (v : Int) : Dev :=
  match d.thrFixed t with
  | some _ => d.refreshThr now t
  | none =>
    let level := d.thrLevel t
    let need := max 1 (d.fld (F.ADC_THR1_CNT t))
    if v ≥ level then
      let n := min need ((d.comparator t).count + 1)
      let d := d.setComparator t { d.comparator t with count := n }
      if n = need then d.setThr now t true else d
    else
      let d := d.setComparator t { d.comparator t with count := 0 }
      if v < level - (d.fld (F.ADC_THR1_HYST t) : Int) then d.setThr now t false else d

/-- R308, R309: one sample of a stream of channel c reaches comparator t. v gives the value for each KIND; none where
the window of KIND 3 is not complete. -/
def Dev.sampleThr (d : Dev) (now c t : Nat) (main : Bool) (v : Nat → Option Int) : Dev :=
  let w0 := match (d.comparator t).held with | some p => p.1 | none => d.rd (Reg.ADC_THR0 t)
  if bitsOf w0.toNat 4 0 ≠ c ∨ (bitsOf w0.toNat 6 5 == 3) ≠ main then d
  else
    match (d.comparator t).held with
    | some _ => (d.applyThr t).refreshThr now t
    | none => match v (d.thrKind t) with | some x => d.testThr now t x | none => d

/-- R305: a raw code of channel c at a limit sets its OVR bit; source 141 when the bit rises. -/
def Dev.overrange (d : Dev) (now c : Nat) : Dev :=
  if d.bit Reg.ADC_OVR c then d
  else (d.setBit Reg.ADC_OVR c true).raiseFlag now 141 Reg.ADC_STAT 9

/-- A raw code at either limit. -/
def atLimit (raw : BitVec 24) : Bool := raw == 0x7FFFFF || raw == 0x800000

/-- R303, R304, R308: one raw code of a stream of channel c at MONO now. -/
def Dev.sample (main : Bool) (c now : Nat) (d : Dev) (raw : BitVec 24) : Dev :=
  if c < 24 then
    let s := d.calibrate c raw
    let d := if d.chEnabled c && atLimit raw then d.overrange now c else d
    if main then
      let l := (s :: d.window c).take 7680
      let d := { d with io := { d.io with window := Sparse.set (fun _ => []) d.io.window c l } }
      let full := Nat.ble d.rmsWin l.length
      let rms := rmsOf d.rmsWin l
      let d := (d.wr (Reg.ADC_SAMP c) (s.signExtend 32)).wr (Reg.ADC_RMS c) (BitVec.ofNat 32 rms)
      forN 256 (fun t d => d.sampleThr now c t true
        (fun k => if k = 3 ∧ full then some (rms : Int) else none)) d
    else
      forN 256 (fun t d => d.sampleThr now c t false
        (fun k => if k = 1 then some (s.toInt.natAbs : Int) else if k = 2 then some s.toInt else none)) d
  else d

/-- THRESHOLD_BIT_CHANGE: dt ns pass while a stream of channel c delivers raw codes, the first one first; every
comparator of that channel and stream tests them (R308). The main stream also feeds ADC_SAMP and ADC_RMS. -/
def execThresholdBitChange (dt : Nat) (main : Bool) (c : BitVec 5) (raw : List (BitVec 24)) (s : State) :
    Host.Outcome State Fault Refusal :=
  s.event dt (fun t d => raw.foldl (Dev.sample main c.toNat t) d)

/-- R303: the instant of the next sample of a stream after MONO t, in ns. -/
def nextSample (main : Bool) (t : Nat) : Nat :=
  if main then (t * 3 / 31250 + 1) * 31250 / 3 else (t * 12 / 15625 + 1) * 15625 / 12

/-- The comparator's held words name KIND 3. -/
def Comparator.heldMain (k : Comparator) : Bool :=
  match k.held with | some p => bitsOf p.1.toNat 6 5 == 3 | none => false

/-- THRESHOLD_APPLY: at the next sample of its stream comparator t takes the words that wait (R309). -/
def execThresholdApply (t : BitVec 8) (s : State) : Host.Outcome State Fault Refusal :=
  match (s.dev.comparator t.toNat).held with
  | some _ =>
    s.at (nextSample (s.dev.comparator t.toNat).heldMain s.mono)
      (fun now d => (d.applyThr t.toNat).refreshThr now t.toNat)
  | none => .next s

/-- R305: SELFTEST as it should stand. -/
def Dev.selfTest (d : Dev) : Bool := d.io.refIn && (d.io.stuck &&& BitVec.ofNat 24 (d.fld F.ADC_CFG_CHEN)) == 0

/-- R305: ADC_FAULT, REFOK and SELFTEST follow the front end at MONO t; a change raises source 140. -/
def Dev.settleAdc (d : Dev) (t : Nat) : Dev :=
  let faults := ((d.io.stuck ||| d.io.overload) &&& BitVec.ofNat 24 (d.fld F.ADC_CFG_CHEN)).toNat
  let changed := faults ^^^ d.fld F.ADC_FAULT_FAULT
  let oldTest := d.flag F.ADC_STAT_SELFTEST
  let d := d.setFld F.ADC_FAULT_FAULT faults
  let d := if d.io.evaluated then
      (d.setFld F.ADC_STAT_REFOK (b2n d.io.refIn)).setFld F.ADC_STAT_SELFTEST (b2n d.selfTest) else d
  let d := forN 24 (fun c d => if bitOf changed c then d.refreshChannel t c else d) d
  if changed ≠ 0 ∨ d.flag F.ADC_STAT_SELFTEST ≠ oldTest then d.raiseFlag t 140 Reg.ADC_STAT 8 else d

/-- ADC_FAULT_CHANGE: dt ns pass; channel c goes into or out of overload, its bit stream sticks or moves again, and the
internal reference lies within its limits or not (R305). -/
def execAdcFaultChange (dt : Nat) (c : BitVec 5) (overload stuck refOk : Bool) (s : State) :
    Host.Outcome State Fault Refusal :=
  s.event dt (fun t d =>
    let m : BitVec 24 := BitVec.twoPow 24 c.toNat
    let put (x : BitVec 24) (b : Bool) : BitVec 24 := if b then x ||| m else x &&& ~~~m
    ({ d with io := { d.io with
        overload := put d.io.overload overload, stuck := put d.io.stuck stuck, refIn := refOk } }).settleAdc t)

/-- ADC_OVERRANGE: dt ns pass, and a raw code of channel c lies at a limit (R305). -/
def execAdcOverrange (dt : Nat) (c : BitVec 5) (s : State) : Host.Outcome State Fault Refusal :=
  s.event dt (fun t d => if d.chEnabled c.toNat then d.overrange t c.toNat else d)

/-- R305: the first evaluation after reset or resume: source 140 only when it finds a fault. -/
def Dev.firstEval (refOk : Bool) (t : Nat) (d : Dev) : Dev :=
  let d := { d with io := { d.io with refIn := refOk } }
  if d.io.evaluated then d.settleAdc t
  else
    let d := { d with io := { d.io with evaluated := true } }
    let ok := d.selfTest
    let d := (d.setFld F.ADC_STAT_REFOK (b2n refOk)).setFld F.ADC_STAT_SELFTEST (b2n ok)
    if ok then d else d.raiseFlag t 140 Reg.ADC_STAT 8

/-- ADC_SELFTEST_EVAL: dt ns pass, and an evaluation of the self-test completes with the reference found within its
limits or not (R305). -/
def execAdcSelftestEval (dt : Nat) (refOk : Bool) (s : State) : Host.Outcome State Fault Refusal :=
  s.event dt (Dev.firstEval refOk)

/-! ## Sample sets (R306) -/

/-- R306: the words of a sample set. -/
def setWords (angle count : Word) (tns : Word) (nv late : Bool) (astate index sec : Nat) (s : List (BitVec 24))
    (fault ovr : Nat) : List Word64 :=
  let lane (c : Nat) : Nat := ((s.getD c 0).signExtend 32).toNat
  [BitVec.ofNat 64 (angle.toNat + count.toNat * 2 ^ 32),
   BitVec.ofNat 64 (tns.toNat + b2n nv * 2 ^ 32 + b2n late * 2 ^ 33 + astate * 2 ^ 34 + index % 2 ^ 16 * 2 ^ 48),
   BitVec.ofNat 64 sec] ++
  (List.range 12).map (fun k => BitVec.ofNat 64 (lane (2 * k) + lane (2 * k + 1) * 2 ^ 32)) ++
  [BitVec.ofNat 64 (fault + ovr * 2 ^ 32)]

/-- R306: a set enters the window of its kind in slot 0, and its count the word beside it. -/
def Image.enterSet (im : Image) (x : SampleSet) : Image :=
  let lo := if x.angle then 0x110 else 0x910
  let hi := if x.angle then 0x910 else 0xF10
  Image.wr (Image.wrs (Image.shift lo hi im) lo x.words) (if x.angle then 0x100 else 0x101)
    (BitVec.ofNat 64 (x.count.toNat * 2 ^ 32))

/-- R306: the input image that is being written, with every set that has been produced. -/
def Dev.withSets (d : Dev) : Image := d.io.sets.foldl Image.enterSet d.mem.inNext

/-- R307: the sets whose instant of entry has come by MONO t enter the input image. -/
def Dev.enterSets (d : Dev) (t : Nat) : Dev :=
  let due (x : SampleSet) : Bool := Nat.ble x.due t
  { d with
    mem := { d.mem with inNext := (d.io.sets.filter due).foldl Image.enterSet d.mem.inNext }
    io := { d.io with sets := d.io.sets.filter (fun x => !(due x)) } }

/-- R303, R307: a set of either kind produced at MONO t, with its count and words, enters the image 168 µs later. -/
def Dev.queueSampleSet (d : Dev) (t : Nat) (angle : Bool) (count : Word) (l : List Word64) : Dev :=
  { d with io := { d.io with sets := d.io.sets ++ [⟨t + 168000, angle, count, l⟩] } }

/-- R305: raw codes of a set that lie at a limit set their bits of ADC_OVR at MONO t. -/
def Dev.overranges (d : Dev) (t : Nat) (raw : List (BitVec 24)) : Dev :=
  forN 24 (fun c d => if d.chEnabled c && atLimit (raw.getD c 0) then d.overrange t c else d) d

/-- R306, R307: an angle-locked set of point j with its angle, produced at MONO t. -/
def Dev.angleSet (d : Dev) (t j : Nat) (angle : Word) (nv late : Bool) (raw : List (BitVec 24)) : Dev :=
  let n := d.io.alCount + 1
  let s := (List.range 24).map (fun c => d.calibrate c (raw.getD c 0))
  let ovr := (List.range 24).foldl (fun x c => x + b2n (d.chEnabled c && atLimit (raw.getD c 0)) * 2 ^ c) 0
  let l := setWords angle n (d.tnsWord t) nv late (bitsOf (d.rd Reg.ANG_STATE).toNat 1 0) j (d.station t / 1000000000) s
    (d.fld F.ADC_FAULT_FAULT) ovr
  (({ d with io := { d.io with alCount := n } }).queueSampleSet t true n l).overranges t raw

/-- R306: a time-locked set, sample k of its second, produced at MONO t. -/
def Dev.timeSet (d : Dev) (t k : Nat) (raw : List (BitVec 24)) : Dev :=
  let n := d.io.tlCount + 1
  let s := (List.range 24).map (fun c => d.calibrate c (raw.getD c 0))
  let ovr := (List.range 24).foldl (fun x c => x + b2n (d.chEnabled c && atLimit (raw.getD c 0)) * 2 ^ c) 0
  let l := setWords (d.angle t) n (d.tnsWord t) false false (bitsOf (d.rd Reg.ANG_STATE).toNat 1 0) k (d.station t / 1000000000) s
    (d.fld F.ADC_FAULT_FAULT) ovr
  (({ d with io := { d.io with tlCount := n } }).queueSampleSet t false n l).overranges t raw

/-! ## Binary words of the input image -/

/-- R302: words 0x0000 to 0x000A as they stand at MONO t. -/
def Dev.binaryWords (d : Dev) : List Word64 :=
  let w (lo hi : Nat) : Word64 := BitVec.ofNat 64 ((d.rd lo).toNat + (d.rd hi).toNat * 2 ^ 32)
  let w1 (lo : Nat) : Word64 := BitVec.ofNat 64 (d.rd lo).toNat
  [w Reg.BIO_BI0 Reg.BIO_BI1, w1 Reg.BIO_BI2,
   BitVec.ofNat 64 (d.brb.toNat + (d.rd Reg.BIO_MMLIVE).toNat * 2 ^ 32), w Reg.BIO_BO0 Reg.BIO_BO1,
   w Reg.BIO_BIRAW0 Reg.BIO_BIRAW1, w1 Reg.BIO_BIRAW2,
   w (Reg.ADC_THRBIT 0) (Reg.ADC_THRBIT 1), w (Reg.ADC_THRBIT 2) (Reg.ADC_THRBIT 3),
   w (Reg.ADC_THRBIT 4) (Reg.ADC_THRBIT 5), w (Reg.ADC_THRBIT 6) (Reg.ADC_THRBIT 7),
   BitVec.ofNat 64 (d.fld F.ADC_FAULT_FAULT + d.fld F.ADC_STAT_SELFTEST * 2 ^ 24 + d.fld F.ADC_STAT_REFOK * 2 ^ 25)]

end Sys2Proof.Machine
end

