-- ==== Sys2Proof/Machine/Transit.lean ====
section
/-!
DEFINITION. Transit, the angle tracker: reference and quality states (R66 to R73), deviations, slews and jumps (R74),
the words that it shows (R69, R78, R79) and the resampler (R80 to R83).
-/
namespace Sys2Proof.Machine

/-- An ANG event source i, 80 to 87, with its bit of ANG_STAT (R84). -/
def Dev.angEvent (d : Dev) (t i : Nat) : Dev := d.raiseFlag t i Reg.ANG_STAT (i - 80)

/-- The quality state (R71). -/
def Dev.angState (d : Dev) : Nat := bitsOf (d.rd Reg.ANG_STATE).toNat 1 0

/-- R71: the quality state becomes s at MONO t; source 80 when it changes. -/
def Dev.setAngState (d : Dev) (t s : Nat) : Dev :=
  if d.angState = s then d else (d.wr Reg.ANG_STATE (BitVec.ofNat 32 s)).angEvent t 80

/-- The nominal frequency in Q16.16 Hz. -/
def Dev.nomFreq (d : Dev) : Word := BitVec.ofNat 32 (d.nomHz * 65536)

/-- R66, R259: SV stream s is subscribed: an entry in use of the subscription table gives it its slot. -/
def Dev.streamSubscribed (d : Dev) (s : Nat) : Bool :=
  d.net.subWords.any (fun p =>
    p.1 % 16 == 0 && bitOf p.2.toNat 0 && bitOf p.2.toNat 1 &&
      bitsOf (Sparse.get (fun _ => 0) d.net.subWords (p.1 + 5)).toNat 4 0 == s)

/-- R66: ANG_SRC names a reference that exists. -/
def Dev.refExists (d : Dev) : Bool :=
  match d.fld F.ANG_SRC_KIND with
  | 0 => false
  | 1 => Nat.blt (d.fld F.ANG_SRC_CH) 24
  | 2 => d.streamSubscribed (d.fld F.ANG_SRC_CH)
  | _ => true

/-- ANG_FREQ (R69). -/
def Dev.angFreq (d : Dev) : Word :=
  match (if d.ang.valid then d.ang.freq else none), d.ang.gen with
  | some f, _ => f
  | none, .rate f => if d.angState = 2 then BitVec.ofNat 32 f else d.nomFreq
  | none, .synth => d.nomFreq

/-- R69: the comparisons of the window that ends now and began as the reference's phase was lo, the latest first; none
before that many cycles have been measured. -/
def windowFrom (lo : Int) : List Compared → Option (List Compared)
  | [] => none
  | m :: rest => if m.phase ≤ lo then some [m] else (windowFrom lo rest).map (fun l => m :: l)

/-- R69, R86: the cycles of the ROCOF window. -/
def Dev.rocCycles (d : Dev) : Nat := 2 ^ (d.fld F.ANG_CFG_ROCWIN + 1)

/-- R69: the frequency difference across the window, divided by its time; in its first cycles, which have no measured
frequency yet, the oldest measured one stands for that of its start (assumption 81). -/
def Dev.windowRocof (d : Dev) : Option Word :=
  match d.ang.hist with
  | [] => none
  | m :: _ =>
    match windowFrom (m.phase - d.rocCycles * 2 ^ 32) d.ang.hist with
    | none => none
    | some w =>
      match w.getLast?, (w.filterMap (fun x => x.freq)).getLast?, m.freq with
      | some b, some f0, some f =>
        if b.mono < m.mono then some (ofInt32 (((f.toNat : Int) - f0.toNat) * 1000000000 / ((m.mono : Int) - b.mono))) else none
      | _, _, _ => none

/-- ANG_ROCOF (R69); it reads 0 in HOLDOVER (R71). -/
def Dev.angRocof (d : Dev) : Word := if d.ang.valid && d.angState != 2 then d.windowRocof.getD 0 else 0

/-- ANG_DEV (R74): 0 while the reference is invalid or KIND is 0. -/
def Dev.angDev (d : Dev) : Word := if d.ang.valid && d.flag F.ANG_SRC_KIND then d.ang.dev else 0

/-- R84: source 85 when |ANG_ROCOF| rises above ANG_ROCLIM; a limit of 0 turns it off. -/
def Dev.checkRocof (d : Dev) (t : Nat) : Dev :=
  let lim := (d.rd Reg.ANG_ROCLIM).toNat
  let high := lim != 0 && Nat.blt lim (sgn d.angRocof).natAbs
  let d' := { d with ang := { d.ang with rocHigh := high } }
  if high && !d.ang.rocHigh then d'.angEvent t 85 else d'

/-! ## Generators, slews and jumps -/

/-- ANG_STEPTH as a number. -/
def Dev.stepTh (d : Dev) : Nat := (d.rd Reg.ANG_STEPTH).toNat

/-- R74: a deviation of this size is slewed and makes no jump. -/
def Dev.slewable (d : Dev) (dev : Int) : Bool := Nat.ble 0x80000000 d.stepTh || Nat.ble dev.natAbs d.stepTh

/-- R74: comparisons, the one that first sees the deviation among them, that confirm it: two edges, or CONF samples after
the first, as the worked example counts them (assumption 82); CONF 0 acts as 1. -/
def Dev.confNeed (d : Dev) : Nat := if d.fld F.ANG_SRC_KIND = 3 then 2 else max 1 (d.fld F.ANG_CFG_CONF) + 1

/-- R74: the slew ends, the tracker standing at MONO t. -/
def Dev.holdSlew (d : Dev) (t : Nat) : Dev :=
  let d := d.angRebase t
  { d with ang := { d.ang with slew := 0 } }

/-- R74: a deviation of dev is slewed from MONO t on. -/
def Dev.slewTo (d : Dev) (t : Nat) (dev : Int) : Dev :=
  let d := d.angRebase t
  { d with ang := { d.ang with slew := dev, confirm := 0, confirmAt := none } }

/-- The generator becomes g at MONO t without any change of U. -/
def Dev.setGen (d : Dev) (t : Nat) (g : AngleGen) : Dev :=
  let d := d.angRebase t
  { d with ang := { d.ang with gen := g, slew := 0, confirm := 0, confirmAt := none } }

/-- R72: the distance from the angle in use to the synthetic angle at MONO t, within ±180°. -/
def Dev.synthDev (d : Dev) (t : Nat) : Int :=
  (BitVec.ofInt 32 ((synthU d.nomHz (d.station t) : Int) - d.U t)).toInt

/-- R72, R74: a deviation that a change to or within the synthetic generator has made: it is slewed, or confirmed CONF
periods of the sample clock after the change. Before the load of station time there is none (R73). -/
def Dev.synthDeviation (d : Dev) (t : Nat) : Dev :=
  if d.ang.loaded then
    let dev := d.synthDev t
    if d.slewable dev then d.slewTo t dev
    else
      let d := d.holdSlew t
      { d with ang := { d.ang with jumpSize := dev, confirmAt := some (t + max 1 (d.fld F.ANG_CFG_CONF) * 10417) } }
  else d

/-- R72, R74: the synthetic angle moves by a little at MONO t, and the confirmation of an earlier change goes on. -/
def Dev.moveSynth (d : Dev) (t : Nat) : Dev :=
  if d.ang.confirmAt.isSome && d.ang.loaded && !(d.slewable (d.synthDev t)) then
    { d with ang := { d.ang with jumpSize := d.synthDev t } }
  else d.synthDeviation t

/-- The synthetic generator takes over at MONO t. -/
def Dev.toSynth (d : Dev) (t : Nat) : Dev := (d.setGen t .synth).synthDeviation t

/-- R74: the deviation is confirmed at MONO t. -/
def Dev.jumpReady (d : Dev) (t : Nat) : Bool :=
  match d.ang.confirmAt with
  | some c => Nat.ble c t
  | none => Nat.ble d.confNeed d.ang.confirm

/-- R80: points per cycle. -/
def Dev.alRate (d : Dev) : Nat :=
  match d.fld F.ANG_SAMP_ALRATE with
  | 0 => 32 | 2 => 80 | 3 => 96 | 4 => 128 | 5 => 256 | _ => 64

/-- R80: U of sample point j. -/
def Dev.pointU (d : Dev) (j : Int) : Int := j * 2 ^ 32 / d.alRate

/-- The number of the first sample point above u. -/
def Dev.firstSample (d : Dev) (u : Int) : Int := -(-((u + 1) * d.alRate) / 2 ^ 32)

/-- R80, R306: the set of sample point j at MONO t enters the input image. -/
def Dev.emitPoint (d : Dev) (t : Nat) (j : Int) (late : Bool) (raw : List (BitVec 24)) : Dev :=
  let nv := d.flag F.ANG_SSTAT_NVLEFT
  let d := d.angleSet t (j % d.alRate).toNat (BitVec.ofInt 32 (d.pointU j)) nv late raw
  let d := if nv then d.setFld F.ANG_SSTAT_NVLEFT (d.fld F.ANG_SSTAT_NVLEFT - 1) else d
  { d with ang := { d.ang with nextPoint := j + 1 } }

/-- R82: the points from the next one on that U has passed, n of them at most. -/
def Dev.emitPassed (raw : List (BitVec 24)) (t : Nat) : Nat → Dev → Dev
  | 0, d => d
  | n + 1, d =>
    if d.pointU d.ang.nextPoint ≤ d.U t then Dev.emitPassed raw t n (d.emitPoint t d.ang.nextPoint true raw) else d

/-- R81: the resampler starts again: the next M sets carry NV. -/
def Dev.startNv (d : Dev) : Dev := d.setFld F.ANG_SSTAT_NVLEFT d.alRate

/-- R81: the resampler starts at MONO t. -/
def Dev.startResampler (d : Dev) (t : Nat) : Dev :=
  let d := d.startNv
  { d with ang := { d.ang with nextPoint := d.firstSample (d.U t) } }

/-- R74, R81, R82: a jump of U by size at MONO t: the words that record it and the sample sets; what it does to
releases and output instants stands with the scheduler. -/
def Dev.jumpU (d : Dev) (t : Nat) (size : Int) (raw : List (BitVec 24)) : Dev :=
  let d := d.angRebase t
  let d := { d with ang := { d.ang with
    u0 := d.ang.u0 + size, slew := 0, confirm := 0, confirmAt := none, stepU := some (d.ang.u0 + size) } }
  let d := (((d.angEvent t 81).incSat Reg.ANG_STEPCNT).wr Reg.ANG_LASTSTEP (ofInt32 size)).wr Reg.ANG_STEPMONO
    (BitVec.ofNat 32 t)
  let passed := ((size * d.alRate / 2 ^ 32).toNat + 1)
  let d := d.setFld F.ANG_SSTAT_NVLEFT 511
  (Dev.emitPassed raw t passed d).startNv

/-! ## The reference -/

/-- R70, R71: the reference becomes invalid at MONO t; what that does to the quality state stands with loseRef. -/
def Dev.invalidate (d : Dev) (t : Nat) : Dev :=
  let d := { d with ang := { d.ang with
    valid := false, freq := none, hist := [], rocHigh := false, lastPhase := none, confirm := 0 } }
  (d.incSat Reg.ANG_LOSSCNT).angEvent t 82

/-- R71: the rate of HOLDOVER: that of the cycle which ended at the second-last measured meridian; where fewer cycles
have been measured, the oldest measured one, or the rate in use (assumption 9). -/
def Dev.holdRate (d : Dev) : Nat :=
  match d.ang.cycleFreq with
  | _ :: f :: _ => f.toNat
  | [f] => f.toNat
  | [] => match d.ang.gen with | .rate f => f | .synth => d.nomFreq.toNat

/-- R71, R72: NOMINAL from MONO t on. -/
def Dev.toNominal (d : Dev) (t : Nat) : Dev := (d.setAngState t 3).toSynth t

/-- R71: HOLDOVER from MONO t on; a holdover time of 0 goes straight to NOMINAL. -/
def Dev.toHoldover (d : Dev) (t : Nat) : Dev :=
  if d.fld F.ANG_HOLD_HOLDMS = 0 then d.toNominal t
  else
    let d := (d.setAngState t 2).setGen t (.rate d.holdRate)
    { d with ang := { d.ang with holdFrom := t } }

/-- R70, R71: the reference becomes invalid at MONO t; outOfRange says that its frequency left 40 to 70 Hz. -/
def Dev.loseRef (outOfRange : Bool) (t : Nat) (d : Dev) : Dev :=
  if d.ang.valid then
    let d := d.invalidate t
    let d := if outOfRange then d.angEvent t 83 else d
    let d := if d.angState = 1 then d.toHoldover t else d
    { d with ang := { d.ang with cycleFreq := [] } }
  else d

/-- R66, R70: a reference that exists no more is invalid from MONO t on. -/
def Dev.checkRef (d : Dev) (t : Nat) : Dev := if d.refExists then d else Dev.loseRef false t d

/-- R69: the frequency measured over the most recent full cycle at MONO t: what the samples give, and with ZC_IN what the
distance from the edge before gives, in the time of the core clock (assumption 83). -/
def Dev.cycleFreqAt (d : Dev) (t : Nat) (freq : Option Word) : Option Word :=
  if d.fld F.ANG_SRC_KIND = 3 then
    (d.ang.lastEdge.filter (fun e => Nat.blt e t)).map (fun e => BitVec.ofNat 32 (1000000000 * 65536 / (t - e)))
  else freq

/-- R70: the measured frequency lies outside 40 to 70 Hz. -/
def freqBad (freq : Option Word) : Bool :=
  freq.any (fun f => Nat.blt f.toNat (40 * 65536) || Nat.blt (70 * 65536) f.toNat)

/-- R70: the amplitude of a sampled fundamental is too small, or two edges lie too close together or too far apart. -/
def Dev.levelBad (d : Dev) (t : Nat) (rms : Word) : Bool :=
  if d.fld F.ANG_SRC_KIND = 3 then
    d.ang.lastEdge.any (fun e => Nat.blt t (e + 14000000) || Nat.blt (e + 30000000) t)
  else Nat.blt rms.toNat (d.fld F.ANG_AMIN_AMIN)

/-- R67: the compensated phase that a sample's measured phase gives, or an edge of ZC_IN, at which that is 0. -/
def Dev.compPhase (d : Dev) (phase : Word) : Word :=
  (if d.fld F.ANG_SRC_KIND = 3 then 0 else phase) + d.rd Reg.ANG_COMP

/-- R67, R71: the reference has passed a meridian since the comparison before: at every edge of ZC_IN, or going positive
from the one sample to the other. -/
def Dev.metMeridian (d : Dev) (comp : Word) : Bool :=
  match d.ang.lastPhase with
  | some p => d.fld F.ANG_SRC_KIND == 3 || (p.msb && !comp.msb && !(comp - p).msb)
  | none => false

/-- R69: the unwrapped phase of the reference at a comparison. -/
def Dev.refPhase (d : Dev) (comp : Word) : Int :=
  match d.ang.hist, d.ang.lastPhase with
  | m :: _, some p => m.phase + (if d.fld F.ANG_SRC_KIND = 3 then 2 ^ 32 else (comp - p).toInt)
  | _, _ => 0

/-- R69: the comparisons that a window of 16 cycles needs. -/
def keepWindow (l : List Compared) : List Compared :=
  match l with
  | [] => []
  | m :: _ => (windowFrom (m.phase - 2 ^ 36) l).getD l

/-- R69, R71, R74: a comparison with the valid reference at MONO t. -/
def Dev.compared (d : Dev) (t : Nat) (comp : Word) (freq : Option Word) : Dev :=
  let cycles := if d.metMeridian comp then freq.toList ++ d.ang.cycleFreq else d.ang.cycleFreq
  let d := { d with ang := { d.ang with
    valid := true, freq := freq, dev := comp - d.angle t, lastPhase := some comp, cycleFreq := cycles.take 4,
    hist := keepWindow ({ phase := d.refPhase comp, mono := t, freq := freq } :: d.ang.hist) } }
  d.checkRocof t

/-- R69, R70, R74: a sample or an edge at MONO t with the measured phase, the frequency over the last complete cycle and
the RMS value of the fundamental; where a condition of R70 fails, the reference is invalid. -/
def Dev.measure (d : Dev) (t : Nat) (phase : Word) (freq : Option Word) (rms : Word) : Dev :=
  let f := d.cycleFreqAt t freq
  let d' := if freqBad f then Dev.loseRef true t d
    else if d.levelBad t rms then Dev.loseRef false t d
    else d.compared t (d.compPhase phase) f
  if d.fld F.ANG_SRC_KIND = 3 then { d' with ang := { d'.ang with lastEdge := some t } } else d'

/-- R74: while LOCKED, the measured deviation is slewed or counts towards its confirmation, and the tracked rate is
taken up. -/
def Dev.correct (d : Dev) (t : Nat) : Dev :=
  if d.ang.valid && d.angState == 1 then
    let d := match d.ang.freq with
      | some f =>
        let d' := d.angRebase t
        { d' with ang := { d'.ang with gen := .rate f.toNat } }
      | none => d
    let dev := sgn d.ang.dev
    if d.slewable dev then d.slewTo t dev
    else
      let d := d.holdSlew t
      { d with ang := { d.ang with confirm := d.ang.confirm + 1, jumpSize := dev, confirmAt := none } }
  else d

/-- R71: a valid reference ends NOMINAL. -/
def Dev.refSeen (d : Dev) (t : Nat) : Dev := if d.ang.valid && d.angState == 3 then d.setAngState t 0 else d

/-- PHASE_COMPARISON: dt ns pass, and a sample or edge gives the reference's phase, and with a sample the frequency over
the last complete cycle and the RMS value in units of full scale / 65,536 (R69, R70, R74). -/
def execPhaseComparison (dt : Nat) (phase : Word) (freq : Option Word) (rms : Word) (s : State) :
    Host.Outcome State Fault Refusal :=
  s.event dt (fun t d => if d.refExists then ((d.measure t phase freq rms).refSeen t).correct t else d)

/-- R71: the tracked rate is in use from MONO t on, and the deviation then is corrected under R74. -/
def Dev.lock (d : Dev) (t : Nat) : Dev := ((d.setAngState t 1).setGen t (.rate d.angFreq.toNat)).correct t

/-- R71: the reference, valid at MONO t, has completed the cycles that its state requires. -/
def Dev.qualified (d : Dev) (t : Nat) : Dev :=
  match d.angState with
  | 0 => d.lock t
  | 2 => d.lock t
  | 3 => d.setAngState t 0
  | _ => d

/-- REFERENCE_QUALIFIED: dt ns pass, and with the comparison then made the reference has been valid for the cycles that
its state requires (R71). -/
def execReferenceQualified (dt : Nat) (phase : Word) (x : RefMeasure) (s : State) : Host.Outcome State Fault Refusal :=
  s.event dt (fun t d =>
    if d.refExists then
      let d := d.measure t phase (some x.freq) x.rms
      if d.ang.valid then d.qualified t else d
    else d)

/-- REFERENCE_LOSS: dt ns pass, and a condition of R70 fails. -/
def execReferenceLoss (dt : Nat) (outOfRange : Bool) (s : State) : Host.Outcome State Fault Refusal :=
  s.event dt (Dev.loseRef outOfRange)

/-- HOLDOVER_EXPIRY: the holdover time is reached (R71); values above 2,000 ms act as 2,000. -/
def execHoldoverExpiry (s : State) : Host.Outcome State Fault Refusal :=
  if s.dev.angState = 2 then
    s.at (s.dev.ang.holdFrom + min 2000 (s.dev.fld F.ANG_HOLD_HOLDMS) * 1000000) (fun t d => d.toNominal t)
  else .next s

/-- STEP_FLAG_CLEAR: U has advanced one turn beyond its value just after the jump (R74). -/
def execStepFlagClear (s : State) : Host.Outcome State Fault Refusal :=
  match s.dev.ang.stepU with
  | some u => s.at (s.dev.whenU s.mono (u + 2 ^ 32)) (fun _ d => { d with ang := { d.ang with stepU := none } })
  | none => .next s

/-- MERIDIAN: U reaches the next multiple of 2^32: ANG_ANGLE wraps to 0 and ANG_TURNS goes up (R68). -/
def execMeridian (s : State) : Host.Outcome State Fault Refusal :=
  s.at (s.dev.whenU s.mono ((s.dev.U s.mono / 2 ^ 32 + 1) * 2 ^ 32)) (fun _ d => d)

/-! ## Register effects -/

/-- R66, R71, R84: a write of ANG_SRC restarts acquisition; another reference has not been seen valid yet, and a channel
that no input has is out of range. -/
def Dev.afterSrc (d : Dev) (t : Nat) (old : Word) : Dev :=
  let d := if d.fld F.ANG_SRC_KIND = 1 ∧ 24 ≤ d.fld F.ANG_SRC_CH then d.angEvent t 87 else d
  let d := if d.rd Reg.ANG_SRC = old then d
    else
      let d := if d.ang.valid then d.invalidate t else d
      { d with ang := { d.ang with cycleFreq := [], lastEdge := none } }
  let d := d.setAngState t (if d.flag F.ANG_SRC_KIND then 0 else 3)
  match d.ang.gen with
  | .synth => d
  | .rate _ => d.toSynth t

/-- R74: a write of ANG_COMP at MONO t changes the compensated phase by the change in its value: while LOCKED, what a slew
has left or what is being confirmed changes with it. The write itself is no sample. -/
def Dev.afterComp (d : Dev) (t : Nat) (old : Word) : Dev :=
  let delta := d.rd Reg.ANG_COMP - old
  if d.ang.valid ∧ delta ≠ 0 then
    let dev : Int := (ofInt32 ((if d.ang.confirm = 0 then d.angSlewLeft t else d.ang.jumpSize) + delta.toInt)).toInt
    let d := { d with ang := { d.ang with
      dev := d.ang.dev + delta, lastPhase := d.ang.lastPhase.map (· + delta) } }
    if d.angState = 1 then
      if d.slewable dev then d.slewTo t dev
      else
        let d := d.holdSlew t
        { d with ang := { d.ang with jumpSize := dev, confirmAt := none } }
    else d
  else d

/-- R72, R86: what a write of ANG_CFG does: SLEW 0 sets CFG, and a change of NOMF changes the synthetic angle. before is
the device with the old word. -/
def Dev.afterAngCfg (before : Dev) (d : Dev) (t : Nat) : Dev :=
  let d := if d.fld F.ANG_CFG_SLEW = 0 then d.angEvent t 87 else d
  if before.nomHz = d.nomHz then d
  else
    match before.ang.gen with
    | .rate _ => d
    | .synth => ({ d with ang := (before.angRebase t).ang }).synthDeviation t

/-! ## Sample sets -/

/-- ANGLE_SAMPLE_SET: U reaches the next resampler point; raw holds the raw codes interpolated at that instant. -/
def execAngleSampleSet (raw : List (BitVec 24)) (s : State) : Host.Outcome State Fault Refusal :=
  s.at (s.dev.whenU s.mono (s.dev.pointU s.dev.ang.nextPoint))
    (fun t d => d.emitPoint t d.ang.nextPoint false raw)

/-- R83: time-locked samples per second. -/
def Dev.tlRate (d : Dev) : Nat := if d.flag F.ANG_SAMP_TLRATE then 14400 else 4800

/-- R83: the sample of a second that follows a station time. -/
def Dev.tlAfter (d : Dev) (ns : Nat) : Nat × Nat :=
  let k := (ns % 1000000000 + 1) * d.tlRate
  let k := (k + 999999999) / 1000000000
  if k < d.tlRate then (ns / 1000000000, k) else (ns / 1000000000 + 1, 0)

/-- R83: from sample k on, counted from second 0, the first one that is in none of some ranges. -/
def unmade : List (Nat × Nat) → Nat → Nat
  | [], k => k
  | p :: rest, k => unmade rest (if p.1 ≤ k ∧ k ≤ p.2 then p.2 + 1 else k)

/-- R83: the next time-locked sample is the first one from sample k on that has not been produced. -/
def Dev.setTl (d : Dev) (k : Nat) : Dev :=
  let k := d.ang.tlMade.foldl (fun k _ => unmade d.ang.tlMade k) k
  { d with ang := { d.ang with tlSecond := k / d.tlRate, tlNext := k % d.tlRate } }

/-- R83: at MONO t the count restarts at the sample that follows; no count comes twice in a second. -/
def Dev.restartTl (d : Dev) (t : Nat) : Dev :=
  let p := d.tlAfter (d.station t)
  d.setTl (p.1 * d.tlRate + p.2)

/-- R83: station time in ns of the next time-locked sample. -/
def Dev.tlDue (d : Dev) : Nat := d.ang.tlSecond * 1000000000 + d.ang.tlNext * 1000000000 / d.tlRate

/-- R83: sample k, counted from second 0, joins those produced. -/
def joinMade (k : Nat) : List (Nat × Nat) → List (Nat × Nat)
  | (a, b) :: rest => if b + 1 = k then (a, k) :: rest else (k, k) :: (a, b) :: rest
  | [] => [(k, k)]

/-- R83, R306: the next time-locked set is produced at MONO t. -/
def Dev.emitTime (raw : List (BitVec 24)) (t : Nat) (d : Dev) : Dev :=
  let k := d.ang.tlSecond * d.tlRate + d.ang.tlNext
  let d := d.timeSet t d.ang.tlNext raw
  { d with ang := { d.ang with tlMade := joinMade k d.ang.tlMade } }.setTl (k + 1)

/-- TIME_SAMPLE_SET: the next time-locked sample instant of station time is reached. -/
def execTimeSampleSet (raw : List (BitVec 24)) (s : State) : Host.Outcome State Fault Refusal :=
  s.at (s.dev.whenStation s.mono s.dev.tlDue) (Dev.emitTime raw)

/-- R81, R83, R86: what a write of ANG_SAMP does: values 6 and 7 of ALRATE set CFG; a change restarts the resampler, and
one of TLRATE the count of R83. -/
def Dev.afterAngSamp (before : Dev) (d : Dev) (t : Nat) : Dev :=
  let d := if 6 ≤ d.fld F.ANG_SAMP_ALRATE then d.angEvent t 87 else d
  let d := if d.tlRate = before.tlRate then d else { d with ang := { d.ang with tlMade := [] } }.restartTl t
  if d.rd Reg.ANG_SAMP = before.rd Reg.ANG_SAMP then d else d.startResampler t

/-! ## Start, load and image words -/

/-- R73: station time has been loaded at MONO t: U is set to the synthetic angle with ANG_TURNS at 0, which is no jump. -/
def Dev.loadAngle (d : Dev) (t : Nat) : Dev :=
  let u : Int := (synthU d.nomHz (d.station t) % 2 ^ 32 : Nat)
  let d := { d with ang := { d.ang with
    u0 := u, t0 := t, s0 := d.station t, loaded := true, slew := 0, confirm := 0, confirmAt := none, gen := .synth } }
  { d with ang := { d.ang with nextPoint := d.firstSample u } }.restartTl t

/-- R73: Transit restarts in ACQUIRING at warm resume, at the synthetic angle; with no source it is NOMINAL (R71). -/
def Dev.resumeAngle (d : Dev) (t : Nat) : Dev :=
  let d := d.angRebase t
  let u : Int := d.ang.u0 + d.synthDev t
  let d := { d with ang := { d.ang with
    u0 := u, s0 := d.station t, slew := 0, confirm := 0, confirmAt := none, gen := .synth, valid := false,
    freq := none, hist := [], rocHigh := false, lastPhase := none, lastEdge := none, cycleFreq := [], stepU := none } }
  ((d.setAngState t (if d.flag F.ANG_SRC_KIND then 0 else 3)).startResampler t).restartTl t

/-- R79: input image words 0x0010 to 0x0016 as they stand at MONO t. -/
def Dev.angleWords (d : Dev) (t : Nat) : List Word64 :=
  let w (lo hi : Word) : Word64 := BitVec.ofNat 64 (lo.toNat + hi.toNat * 2 ^ 32)
  [w (d.angle t) (d.turns t), w d.angFreq d.angRocof, w (d.angQual t) (d.rd Reg.ANG_STEPCNT), w (d.tnsWord t) 0,
   BitVec.ofNat 64 (d.station t / 1000000000), BitVec.ofNat 64 t,
   BitVec.ofNat 64 (d.fld F.SYS_MODE_MODE + d.health * 16 + d.roleWord % 16 * 256)]

end Sys2Proof.Machine
end

