-- ==== Sys2Proof/Machine/Tasks.lean ====
section
/-!
DEFINITION. Tasks and their releases: the configuration check (R36, R37, R50, R52, R53), start and stop (R63), the
release points of every kind (R38 to R42, R75, R76), dropped releases, and the task monitor (R410, R411).
-/
namespace Sys2Proof.Machine

/-! ## Configuration -/

/-- TSK_CFG.KIND. -/
def Dev.kind (d : Dev) (n : Nat) : Nat := d.fld (F.TSK_CFG_KIND n)

/-- TSK_PERIOD. -/
def Dev.period (d : Dev) (n : Nat) : Nat := (d.rd (Reg.TSK_PERIOD n)).toNat

/-- TSK_PHASE. -/
def Dev.phase' (d : Dev) (n : Nat) : Nat := (d.rd (Reg.TSK_PHASE n)).toNat

/-- R37: TSK_PERIOD and TSK_PHASE lie outside the ranges of the task's kind. -/
def Dev.rangeError (d : Dev) (n : Nat) : Bool :=
  let p := d.period n
  match d.kind n with
  | 0 => Nat.blt p 50 || Nat.blt 60000000 p || Nat.ble p (d.phase' n)
  | 1 => if d.flag (F.TSK_CFG_ANGEVERY n) then p == 0 || Nat.blt 65535 p else p == 0 || Nat.blt 256 p
  | 2 => Nat.blt 60000000 p
  | _ => true

/-- R36: tasks n and m share a core and break its priority or bank rule. -/
def Dev.prioError (d : Dev) (n m : Nat) : Bool :=
  let pn := d.fld (F.TSK_CFG_PRIO n)
  let pm := d.fld (F.TSK_CFG_PRIO m)
  let bn := d.fld (F.TSK_CFG_BANK n)
  let bm := d.fld (F.TSK_CFG_BANK m)
  n != m && d.fld (F.TSK_CFG_CORE n) == d.fld (F.TSK_CFG_CORE m) &&
    (pn == pm || (Nat.blt pn pm && Nat.blt bm bn) || (Nat.blt pm pn && Nat.blt bn bm))

/-- Two regions overlap. -/
def Dev.overlap (d : Dev) (k j : Nat) : Bool :=
  Nat.blt (d.rgnOff k) (d.rgnOff j + d.rgnLen j) && Nat.blt (d.rgnOff j) (d.rgnOff k + d.rgnLen k)

/-- R50: region k, selected with direction dir, is faulty by itself. -/
def Dev.regionError (d : Dev) (k dir : Nat) : Bool :=
  Nat.blt 255 k || !(d.flag (F.IMG_RGN_VALID k)) || d.fld (F.IMG_RGN_DIR k) != dir ||
    Nat.blt 16384 (d.rgnOff k + d.rgnLen k)

/-- R50: input region k of task n overlaps one of a task of the same core in another bank. -/
def Dev.inClash (d : Dev) (en : List Nat) (n k : Nat) : Bool :=
  en.any (fun m => m != n && d.fld (F.TSK_CFG_CORE n) == d.fld (F.TSK_CFG_CORE m) &&
    d.fld (F.TSK_CFG_BANK n) != d.fld (F.TSK_CFG_BANK m) && (d.inRegions m).any (d.overlap k))

/-- R50: output region k of task n overlaps one of any other task. -/
def Dev.outClash (d : Dev) (en : List Nat) (n k : Nat) : Bool :=
  en.any (fun m => m != n && (d.outRegions m).any (d.overlap k))

/-- R50, R65: the first faulty region of task n; for a selection past entry 255, its first entry. -/
def Dev.badRegion (d : Dev) (en : List Nat) (n : Nat) : Option Nat :=
  let past (first cnt : Nat) : Bool := cnt != 0 && Nat.blt 256 (first + cnt)
  if past (d.fld (F.IMG_TRGN_IN_FIRST n)) (d.fld (F.IMG_TRGN_IN_CNT n)) then some (d.fld (F.IMG_TRGN_IN_FIRST n))
  else
    match (d.inRegions n).find? (fun k => d.regionError k 0 || d.inClash en n k) with
    | some k => some k
    | none =>
      if past (d.fld (F.IMG_TRGN_OUT_FIRST n)) (d.fld (F.IMG_TRGN_OUT_CNT n)) then some (d.fld (F.IMG_TRGN_OUT_FIRST n))
      else (d.outRegions n).find? (fun k => d.regionError k 1 || d.outClash en n k)

/-- R36, R37, R50, R52, R64: task n may not be released. -/
def Dev.configError (d : Dev) (en : List Nat) (n : Nat) : Bool :=
  d.rangeError n || Nat.blt (d.rd (Reg.TSK_BUDGET n)).toNat 64 || en.any (d.prioError n) ||
    (d.fld (F.IMG_OINST_MODE n) == 2 && d.kind n != 1) || (d.badRegion en n).isSome

/-- R53: the SAFE masks at a configuration check. -/
def Dev.resetSafe (d : Dev) (n : Nat) : Dev := d.setSafe n (d.enabled n && !(d.outRegions n).isEmpty)

/-- R53: the configuration check. -/
def Dev.configCheck (d : Dev) : Dev :=
  let en := (List.range 64).filter d.enabled
  let bad := en.filterMap (fun n => (d.badRegion en n).map (fun k => (n, k)))
  let errs := en.filter (d.configError en)
  let d := match bad with
    | (n, k) :: _ =>
      ((d.setFld F.IMG_STAT_RGNERR 1).setFld F.IMG_STAT_RGNIDX k).setFld F.IMG_STAT_TASK n
    | [] => ((d.setFld F.IMG_STAT_RGNERR 0).setFld F.IMG_STAT_RGNIDX 0).setFld F.IMG_STAT_TASK 0
  let d := forN 64 (fun n d => d.setFld (F.TSK_STATE_CFGERR n) (b2n (errs.contains n))) d
  let d := d.setFld F.TSK_GSTAT_CFGERR (b2n (!errs.isEmpty))
  (forN 64 (fun n d => d.resetSafe n) d).touch

/-! ## States of a task -/

/-- TSK_STATE.ST. -/
def Dev.st (d : Dev) (n : Nat) : Nat := d.fld (F.TSK_STATE_ST n)

/-- TSK_STATE.ST set; a change may change the units that hold the task. -/
def Dev.setSt (d : Dev) (n st : Nat) : Dev := (d.setFld (F.TSK_STATE_ST n) st).touch

/-- The task is in a run, in progress or preempted. -/
def Dev.inRun (d : Dev) (n : Nat) : Bool := d.st n == 3 || d.st n == 4

/-- A release of the task waits for its dispatch, or the task is in a run. -/
def Dev.busy (d : Dev) (n : Nat) : Bool := d.inRun n || (d.task n).ready.isSome

/-- TSK_STATE.PEND follows what is held or pending. -/
def Dev.showPend (d : Dev) (n : Nat) : Dev :=
  d.setFld (F.TSK_STATE_PEND n) (b2n ((d.task n).pend.isSome || (d.task n).held.isSome))

/-- The task record changed by f. -/
def Dev.modTask (d : Dev) (n : Nat) (f : Task → Task) : Dev := d.setTask n (f (d.task n))

/-- R41: a release of task n is dropped at MONO t. -/
def Dev.dropRelease (d : Dev) (t n : Nat) : Dev :=
  let d := (d.incFld (F.TSK_STATE_SKIPCNT n)).modTask n (fun k => { k with skips := k.skips + 1 })
  (d.setFld (F.TSK_STATE_SKIP n) 1).raise t n

/-! ## The task monitor -/

/-- R411: a monitor fault of task n at MONO t. -/
def Dev.monitorFault (d : Dev) (t n : Nat) : Dev :=
  let d := d.raiseFlag t 153 Reg.WDT_STAT 9
  if d.flag F.WDT_TMCFG_SAFE then d.enterSafe n else d

/-- R411: a result that is not OK marks the task as unacknowledged. -/
def Dev.monitorMark (d : Dev) (n : Nat) : Dev := (d.setMaskBit Reg.WDT_TMFLT0 n true).touch

/-- R411: the window of task n closes at MONO t with its count of check-ins. -/
def Dev.closeWindow (d : Dev) (t n : Nat) : Dev :=
  let c := d.fld (F.TSK_CHKIN_CUR n)
  let d := d.setFld (F.TSK_CHKIN_CUR n) 0
  if c = 0 then
    (((d.setFld (F.TSK_CHKIN_LAST n) 2).incFld (F.TSK_CHKIN_MISSCNT n)).monitorMark n).monitorFault t n
  else if c = 1 then d.setFld (F.TSK_CHKIN_LAST n) 1
  else
    let d := ((d.setFld (F.TSK_CHKIN_LAST n) 3).incFld (F.TSK_CHKIN_EXTRACNT n)).monitorMark n
    let d := d.raiseFlag t 154 Reg.WDT_STAT 10
    if d.flag (F.TSK_CHKIN_EXTRAFLT n) then d.monitorFault t n else d

/-- R410: a release of task n at MONO t closes the open window and opens the next. -/
def Dev.monitorRelease (d : Dev) (t n : Nat) : Dev :=
  if d.flag (F.TSK_CHKIN_MON n) then
    let d := if (d.task n).window then d.closeWindow t n else d.setFld (F.TSK_CHKIN_CUR n) 0
    d.modTask n (fun k => { k with window := true })
  else d

/-- R410: the open window of task n is discarded. -/
def Dev.discardWindow (d : Dev) (n : Nat) : Dev :=
  (d.modTask n (fun k => { k with window := false })).setFld (F.TSK_CHKIN_CUR n) 0

/-! ## Release points -/

/-- R46: a release at MONO m, before it is late or adjusted. -/
def Dev.releaseAt (d : Dev) (m : Nat) : Release :=
  { mono := m, station := d.station m, angle := d.angle m, u := d.U m, angq := d.angQual m, tq := d.tq m }

/-- R41, R44: task n becomes READY with release r, whose release instant is r.mono. -/
def Dev.makeReady (d : Dev) (t n : Nat) (r : Release) : Dev :=
  let d := d.modTask n (fun k => { k with ready := some r, lastRel := some r.mono })
  (d.setSt n 2).monitorRelease t n

/-- R38: the first point of a grid after an instant, both in ns. -/
def gridAfter (phase period x : Nat) : Nat :=
  if x < phase % period then phase % period else phase % period + ((x - phase % period) / period + 1) * period

/-- The grid point nearest to an instant. -/
def gridNearest (phase period x : Nat) : Nat :=
  let a := gridAfter phase period x
  if a < period then a else if a - x < x - (a - period) then a else a - period

/-- The period of a periodic task in ns. -/
def Dev.periodNs (d : Dev) (n : Nat) : Nat := d.period n * 1000

/-- The phase of a periodic task in ns. -/
def Dev.phaseNs (d : Dev) (n : Nat) : Nat := d.phase' n * 1000

/-- R39: for a station-time-phased task whose timeline's next point is p: the grid point that the next release stands
for, its instant in MONO, and whether the interval is adjusted. Beyond STEPLIM it is the first grid point at or after p,
one period of MONO after the last release, in station time as it then stands. -/
def Dev.steer (d : Dev) (n p : Nat) : Nat × Nat × Bool :=
  let per := d.periodNs n
  let s := d.station p
  let g := gridNearest (d.phaseNs n) per s
  if ((g : Int) - s).natAbs ≤ d.fld F.TSK_TLCFG_STEPLIM * 1000 then
    let lim := per / 10000
    let m := min (p + lim) (d.whenStation (p - lim) g)
    (g, m, m != p)
  else
    let g := gridAfter (d.phaseNs n) per (s - 1)
    (g, d.whenStation p g, true)

/-- R38: the first point of a station-time grid after the start at MONO t, and its instant in MONO. -/
def Dev.firstPoint (d : Dev) (n t : Nat) : Nat × Nat :=
  let g := gridAfter (d.phaseNs n) (d.periodNs n) (d.station t)
  (g, d.whenStation t g)

/-- R38, R39: the next point of a station-time-phased task. -/
def Dev.stationPoint (d : Dev) (n : Nat) : Nat × Nat × Bool :=
  match (d.task n).since with
  | some t => let x := d.firstPoint n t; (x.1, x.2, false)
  | none => d.steer n (d.task n).next

/-- R38, R39: the instant in MONO of the next release of a periodic task. -/
def Dev.periodicDue (d : Dev) (n : Nat) : Nat :=
  if d.flag (F.TSK_CFG_TBASE n) then (d.stationPoint n).2.1 else (d.task n).next

/-- R75: U of the first point of an angle-bound task above u. -/
def Dev.anglePoint (d : Dev) (n : Nat) (u : Int) : Int :=
  let ph : Int := d.phase' n
  let p : Int := if d.flag (F.TSK_CFG_ANGEVERY n) then 1 else d.period n
  let k := -(-((u - ph + 1) * p) / 2 ^ 32)
  ph + k * 2 ^ 32 / p

/-- R75: the point that follows point u of an angle-bound task. -/
def Dev.nextAngle (d : Dev) (n : Nat) (u : Int) : Int :=
  if d.flag (F.TSK_CFG_ANGEVERY n) then u + (d.period n : Int) * 2 ^ 32 else d.anglePoint n u

/-- R38, R46, R63, R75: task n starts at MONO t, or is released again after a warm resume: from its first point after t
on. The last release instant (R41) and what has been dropped since the last run (TC_SKIP) stay. -/
def Dev.startTask (d : Dev) (t n : Nat) (resume : Bool) : Dev :=
  let d := d.modTask n (fun k => { k with
    live := true, first := k.first || !resume, resume := resume, ready := none, pend := none, held := none,
    next := gridAfter (d.phaseNs n) (d.periodNs n) t, since := some t, nextU := d.anglePoint n (d.U t), catchup := [],
    arrivals := [], window := false })
  (d.showPend n).setSt n 1

/-- R59, R63: task n is released no more, and nothing of it waits. -/
def Dev.clearReleases (d : Dev) (n : Nat) : Dev :=
  let d := d.modTask n (fun k => { k with
    live := false, ready := none, pend := none, held := none, catchup := [], arrivals := [] })
  (d.showPend n).discardWindow n

/-- R63: task n stops as it passes its boundary to STOP or PROGRAM; a fault stop ends with the mode change itself. -/
def Dev.stopTask (d : Dev) (n : Nat) : Dev :=
  if d.enabled n then
    let d := (d.clearReleases n).enterSafe n
    if d.st n = 5 then d else d.setSt n 6
  else d

/-! ## Releases -/

/-- R42, R76: release r of a periodic or angle-bound task arrives at MONO t. -/
def Dev.arrive (d : Dev) (t n : Nat) (r : Release) : Dev :=
  if (d.task n).pend.isSome then d.dropRelease t n
  else if d.busy n then (d.modTask n (fun k => { k with pend := some { r with late := true } })).showPend n
  else d.makeReady t n r

/-- R38, R39: task n reaches a point of its grid or timeline at MONO m. -/
def Dev.periodicRelease (n : Nat) (m t : Nat) (d : Dev) : Dev :=
  if (d.task n).live ∧ d.kind n = 0 then
    let r := d.releaseAt m
    let r := if d.flag (F.TSK_CFG_TBASE n) then
        let x := d.stationPoint n
        { r with station := x.1, tladj := x.2.2 }
      else r
    (d.modTask n (fun k => { k with next := m + d.periodNs n, since := none })).arrive t n r
  else d

/-- PERIODIC_RELEASE: the next point of a periodic task is reached. -/
def execPeriodicRelease (task : BitVec 6) (s : State) : Host.Outcome State Fault Refusal :=
  let n := task.toNat
  if (s.dev.task n).live ∧ s.dev.kind n = 0 then
    s.at (s.dev.periodicDue n) (Dev.periodicRelease n (s.dev.periodicDue n))
  else .next s

/-- R76: a point of task n joins its catch-up queue of 256 points, or is dropped at MONO t. -/
def Dev.joinCatchup (d : Dev) (t n : Nat) (r : Release) : Dev :=
  if (d.task n).catchup.length < 256 then
    d.modTask n (fun k => { k with catchup := k.catchup ++ [{ r with late := true }] })
  else (d.dropRelease t n).angEvent t 86

/-- R76: the release of the point u of an angle-bound task at MONO m. -/
def Dev.pointRelease (d : Dev) (m : Nat) (u : Int) : Release :=
  { d.releaseAt m with angle := BitVec.ofInt 32 u, u := u }

/-- R76: U reaches the next unreleased point of task n at MONO m. -/
def Dev.angleRelease (n : Nat) (m t : Nat) (d : Dev) : Dev :=
  if (d.task n).live ∧ d.kind n = 1 then
    let u := (d.task n).nextU
    let r := d.pointRelease m u
    let d := d.modTask n (fun k => { k with nextU := d.nextAngle n u })
    if (d.task n).catchup.isEmpty then d.arrive t n r else d.joinCatchup t n r
  else d

/-- ANGLE_RELEASE: U reaches the next unreleased point of an angle-bound task. -/
def execAngleRelease (task : BitVec 6) (s : State) : Host.Outcome State Fault Refusal :=
  let n := task.toNat
  if (s.dev.task n).live ∧ s.dev.kind n = 1 then
    let m := s.dev.whenU s.mono (s.dev.task n).nextU
    s.at m (Dev.angleRelease n m)
  else .next s

/-- R76: the points of task n that a jump at MONO t has passed join the catch-up queue. -/
def Dev.catchPoints (t n : Nat) : Nat → Dev → Dev
  | 0, d => d
  | k + 1, d =>
    if (d.task n).nextU ≤ d.U t then
      let u := (d.task n).nextU
      let d := (d.modTask n (fun x => { x with nextU := d.nextAngle n u })).joinCatchup t n (d.pointRelease t u)
      Dev.catchPoints t n k d
    else d

/-- R76: the points that a forward jump at MONO t has passed, for every angle-bound task. -/
def Dev.catchAll (d : Dev) (t : Nat) : Dev :=
  forN 64 (fun n d => if (d.task n).live ∧ d.kind n = 1 then Dev.catchPoints t n 300 d else d) d

/-- R41: the minimum interval of an event task in ns. -/
def Dev.minInterval (d : Dev) (n : Nat) : Nat := if d.kind n = 2 then d.period n * 1000 else 0

/-- R41: the instant from which on task n may be released again. -/
def Dev.notBefore (d : Dev) (n : Nat) : Nat :=
  match (d.task n).lastRel with | some m => m + d.minInterval n | none => 0

/-- R41: a release of event task n, 8 ticks after its source, at MONO m: dropped while one is pending, pending while the
task is in a run or a release is held, and held within the minimum interval. An arrival while an earlier release is READY
and the interval has passed is pending as well (assumption 79). -/
def Dev.eventRelease (n : Nat) (m t : Nat) (d : Dev) : Dev :=
  let d := d.modTask n (fun k => { k with arrivals := k.arrivals.drop 1 })
  if (d.task n).live ∧ d.kind n = 2 then
    let wait := (d.modTask n (fun k => { k with pend := some { d.releaseAt m with late := true } })).showPend n
    if (d.task n).pend.isSome then d.dropRelease t n
    else if d.inRun n || (d.task n).held.isSome then wait
    else if m < d.notBefore n then (d.modTask n (fun k => { k with held := some (d.notBefore n) })).showPend n
    else if (d.task n).ready.isSome then wait
    else d.makeReady t n (d.releaseAt m)
  else d

/-- EVENT_TASK_RELEASE: 8 ticks have passed since the releasing source of an event task was raised. -/
def execEventTaskRelease (task : BitVec 6) (s : State) : Host.Outcome State Fault Refusal :=
  match (s.dev.task task.toNat).arrivals with
  | m :: _ => s.at m (Dev.eventRelease task.toNat m)
  | [] => .next s

/-- R41: the held release of task n takes place as its minimum interval passes at MONO m; it waits while an earlier
release of the task is READY or in a run. -/
def Dev.heldRelease (n : Nat) (m t : Nat) (d : Dev) : Dev :=
  if d.busy n then d
  else
    let d := d.modTask n (fun k => { k with held := none })
    (d.makeReady t n { d.releaseAt m with late := true }).showPend n

/-- R41: a release of task n whose hold has ended by MONO t waits only for the end of a run. -/
def Dev.heldFree (d : Dev) (n t : Nat) : Bool := !(d.busy n) && (d.task n).held.any (fun m => Nat.ble m t)

/-- MIN_INTERVAL_EXPIRY: the minimum interval of a held release passes. -/
def execMinIntervalExpiry (task : BitVec 6) (s : State) : Host.Outcome State Fault Refusal :=
  match (s.dev.task task.toNat).held with
  | some m => s.at m (Dev.heldRelease task.toNat m)
  | none => .next s

/-- R41, R42: the pending release of task n is released at MONO t, its run having ended. The release instant of an
event release is the end of its hold; that of a point stays the instant of the point. -/
def Dev.pendRelease (n : Nat) (t : Nat) (d : Dev) : Dev :=
  match (d.task n).pend with
  | some r =>
    let d := d.modTask n (fun k => { k with pend := none })
    let r := if d.kind n = 2 then { d.releaseAt t with late := true } else r
    (d.makeReady t n r).showPend n
  | none => d

/-- R41, R42: task n has a pending release that no run, no READY release and no held release stands before. -/
def Dev.pendFree (d : Dev) (n : Nat) : Bool :=
  (d.task n).pend.isSome && !(d.busy n) && !(d.task n).held.isSome

/-- HELD_RELEASE_DISPATCH: the pending release of a task becomes READY, its run having ended and not before its
minimum interval has passed. -/
def execHeldReleaseDispatch (task : BitVec 6) (s : State) : Host.Outcome State Fault Refusal :=
  if s.dev.pendFree task.toNat then s.at (s.dev.notBefore task.toNat) (Dev.pendRelease task.toNat) else .next s

/-- R76: the first point of the catch-up queue of task n may be released: no run, no READY and no pending release. -/
def Dev.catchFree (d : Dev) (n : Nat) : Bool :=
  !(d.task n).catchup.isEmpty && !(d.busy n) && !(d.task n).pend.isSome

/-- R76: the first point of the catch-up queue of task n is released at MONO t. -/
def Dev.catchRelease (n : Nat) (t : Nat) (d : Dev) : Dev :=
  match (d.task n).catchup with
  | r :: rest =>
    let d := d.modTask n (fun k => { k with catchup := rest })
    ((d.makeReady t n r).incSat Reg.ANG_LATECNT).angEvent t 84
  | [] => d

/-- CATCHUP_RELEASE: the first point of a task's catch-up queue is released. -/
def execCatchupRelease (task : BitVec 6) (s : State) : Host.Outcome State Fault Refusal :=
  if s.dev.catchFree task.toNat then s.upd (Dev.catchRelease task.toNat) else .next s

/-- R46: after a program load the next run of every task has the number 1. -/
def Dev.restartRuns (d : Dev) : Dev := forN 64 (fun n d => d.modTask n (fun k => { k with runNo := 0 })) d

/-! ## Acknowledgement (R64) -/

/-- R64: ACKALL clears OVR, SKIP and OUTLATE of every task. -/
def Dev.ackAll (d : Dev) : Dev :=
  (forN 64 (fun n d =>
    ((d.setFld (F.TSK_STATE_OVR n) 0).setFld (F.TSK_STATE_SKIP n) 0).setFld (F.TSK_STATE_OUTLATE n) 0) d).touch

/-- R64: MAXCLR clears the maximum of task n. -/
def Dev.maxClear (d : Dev) (n : Nat) : Dev := d.modTask n (fun k => { k with maxUsed := 0 })

end Sys2Proof.Machine
end

