-- ==== Sys2Proof/Machine/TimeSync.lean ====
section
/-!
DEFINITION. The discipline of station time: error bound and quality code (R248), servos (R249), selection (R250, R479),
steps and slews (R251, R252), PTP messages (R253 to R256), IRIG-B and PPS (R257, R258), the epoch (R247).
-/
namespace Sys2Proof.Machine

/-- A PTP event source i, 112 to 118, with its bit of PTP_STAT (R270). -/
def Dev.ptpEvent (d : Dev) (t i : Nat) : Dev := d.raiseFlag t i Reg.PTP_STAT (i - 104)

/-- R258: PPS_OUT suppressed: the code at MONO t exceeds QLIM. -/
def Dev.ppsMuted (d : Dev) (t : Nat) : Bool := d.flag F.PTP_PPSOUT_SUPQ && Nat.blt (d.fld F.PTP_PPSOUT_QLIM) (d.tq t)

/-- R258: a pulse of PPS_OUT that is high at MONO t is held low while it is suppressed. -/
def Dev.holdPps (d : Dev) (t : Nat) : Dev :=
  match d.time.ppsUntil with
  | some e =>
    let low := { d with time := { d.time with ppsUntil := none } }
    if e ≤ t then low else if d.ppsMuted t then low.send t .ppsLow else d
  | none => d

/-- R248: the code shown in PTP_STAT follows E at MONO t; source 112 when it changes. -/
def Dev.settleTq (d : Dev) (t : Nat) : Dev :=
  let c := d.tq t
  if d.fld F.PTP_STAT_TQ = c then d
  else (((d.setFld F.PTP_STAT_TQ c).ptpEvent t 112).measureQuality t).holdPps t

/-- TIME_QUALITY_CHANGE: E crosses a class limit as a slew or the holdover goes on (R248); without a crossing to come
nothing happens. -/
def execTimeQualityChange (s : State) : Host.Outcome State Fault Refusal :=
  let d := s.dev
  let p := fun x => d.tq x != d.fld F.PTP_STAT_TQ
  let due := leastFrom p 48 s.mono
  if p due then s.at due (fun t d => d.settleTq t) else .next s

/-! ## Steps and slews -/

/-- The least or greatest 32-bit signed number where i lies outside. -/
def sat32 (i : Int) : Word := ofInt32 (saturate i 32)

/-- R247: the seconds of station time have crossed multiples of 2^48 on their way from old ns to new ns. -/
def Dev.crossEpoch (d : Dev) (t old new : Nat) : Dev :=
  let n := new / (2 ^ 48 * 1000000000) - old / (2 ^ 48 * 1000000000)
  if n = 0 then d else (d.setFld F.PTP_EPOCHEXT_HI (d.fld F.PTP_EPOCHEXT_HI + n)).ptpEvent t 118

/-- R269: the heads of the launch queues that a step of station time from old ns to new ns passes are late. -/
def Dev.passHeads (d : Dev) (old new : Nat) : Dev :=
  { d with net := { d.net with launch := d.net.launch.map (fun q => (q.1,
      match q.2 with
      | [] => []
      | x :: rest => { x with late := x.late || (decide (old < x.at_) && decide (x.at_ < new)) } :: rest)) } }

/-- R72, R83: station time is set at MONO t by f: the synthetic angle corrects the difference under R74, and the count
of time-locked samples restarts. -/
def Dev.changeStation (d : Dev) (t : Nat) (f : Dev → Dev) : Dev :=
  let synth := match d.ang.gen with | .synth => true | .rate _ => false
  let d := f (d.angRebase t)
  let d := { d with ang := { d.ang with s0 := d.station t } }
  let d := if synth && d.ang.loaded then d.synthDeviation t else d
  d.restartTl t

/-- R251: station time steps by o ns at MONO t. -/
def Dev.stepStation (d : Dev) (t : Nat) (o : Int) : Dev :=
  let old := d.station t
  let d := d.changeStation t (fun d =>
    let d := d.stRebase t
    { d with time := { d.time with base := ((d.time.base : Int) + o).toNat, slew := 0 } })
  let d := ((d.wr Reg.PTP_LASTSTEP (sat32 o)).incSat Reg.PTP_STEPCNT).ptpEvent t 114
  let d := (d.crossEpoch t old (d.station t)).passHeads old (d.station t)
  (d.soe t 15 1 (b2n (decide (0 < o))) 0).measureFail t

/-- R251: a slew by o ns begins at MONO t. -/
def Dev.slewStation (d : Dev) (t : Nat) (o : Int) : Dev :=
  let d := d.stRebase t
  { d with time := { d.time with slew := o } }

/-- R251: an offset o of the source that station time follows or starts to follow is taken up at MONO t; code is the
quality code before the source was taken. -/
def Dev.takeOffset (d : Dev) (t code : Nat) (o : Int) : Dev :=
  if code = 3 ∧ 1000 < o.natAbs then d.stepStation t o
  else if d.fld F.PTP_STEPLIM_LIM * 1000 < o.natAbs then d.stepStation t o
  else d.slewStation t o

/-- The rate of station time from MONO t on, in 1/65,536 ppm. -/
def Dev.setRate (d : Dev) (t : Nat) (corr : Int) : Dev :=
  let d := (d.angRebase t).stRebase t
  { d with time := { d.time with corr := corr } }

/-! ## Domains and selection -/

/-- Domain k. -/
def Dev.dom (d : Dev) (k : Nat) : Domain := if k = 0 then d.time.dom0 else d.time.dom1

/-- Domain k changed by f. -/
def Dev.modDom (d : Dev) (k : Nat) (f : Domain → Domain) : Dev :=
  if k = 0 then { d with time := { d.time with dom0 := f d.time.dom0 } }
  else { d with time := { d.time with dom1 := f d.time.dom1 } }

/-- R249: the state of the servo of domain k. -/
def Dev.servo (d : Dev) (k : Nat) : Nat := d.fld (F.PTP_DSTAT_SERVO k)

/-- R248: the bound of domain k. -/
def Dev.domBound (d : Dev) (k : Nat) : Nat :=
  match d.fld (F.PTP_DSTAT_GMCLASS k) with | 6 => 100 | 7 => 1000 | _ => 1000000

/-- R248: the bound of IRIG-B. -/
def Dev.irigBound (d : Dev) : Nat := if d.flag F.PTP_IRIGSTAT_ALIGNED then 1000 else 10000

/-- R248, R250: the quality code of domain k as if it were followed with S = 0. -/
def Dev.domCode (d : Dev) (t k : Nat) : Nat :=
  tqClass (d.domBound k + (if d.servo k = 2 then 0
    else d.fld F.PTP_TQCFG_HOLDPPB * (t - (d.dom k).usableAt) / 1000000000))

/-- R350: the selection of R250 is suspended: the member follows the leader of its stand. -/
def Dev.following (d : Dev) : Bool := d.flag F.STD_STAT_TFOLLOWING

/-- R250: the source that this device itself follows; none while it follows the leader of its stand. -/
def Dev.ownSrc (d : Dev) : Nat := if d.following then 0 else d.fld F.PTP_STAT_SRC

/-- R250: the sources that station time may follow with automatic selection, each with its code: 1 and 2 the domains,
3 IRIG-B. -/
def Dev.candidates (d : Dev) (t : Nat) : List (Nat × Nat) :=
  let doms := [0, 1].filter (fun k => Nat.ble 2 (d.servo k))
  let l := doms.map (fun k => (k + 1, d.domCode t k))
  if [0, 1].any (fun k => d.servo k == 2) then l
  else if d.flag F.PTP_IRIGCFG_IRIGEN && d.flag F.PTP_IRIGSTAT_IRIGOK then l ++ [(3, tqClass d.irigBound)] else l

/-- The candidate with the lowest code, the first of them. -/
def bestOf : List (Nat × Nat) → Option (Nat × Nat)
  | [] => none
  | p :: rest => match bestOf rest with | some q => if q.2 < p.2 then some q else some p | none => some p

/-- R250: the source to follow at MONO t, whatever hold still runs, and whether the hold of SELHOLD applies to it. -/
def Dev.preferred (d : Dev) (t : Nat) : Nat × Bool :=
  let cur := d.ownSrc
  if d.flag F.PTP_CFG_SELAUTO then
    let l := d.candidates t
    match l.find? (fun p => p.1 == cur), bestOf l with
    | some c, some b => if b.2 < c.2 then (b.1, true) else (cur, false)
    | none, some b => (b.1, false)
    | _, none => (0, false)
  else
    let k := d.fld F.PTP_CFG_SELDOM
    if Nat.ble 2 (d.servo k) then (k + 1, false)
    else if !([0, 1].any (fun k => d.servo k == 2)) && d.flag F.PTP_IRIGCFG_IRIGEN && d.flag F.PTP_IRIGSTAT_IRIGOK then
      (3, false)
    else (0, false)

/-- R250: the hold of a strictly better source begins, goes on or ends at MONO t. -/
def Dev.trackSource (d : Dev) (t : Nat) : Dev :=
  let p := d.preferred t
  let b := if p.2 then
      (match d.time.better with
       | some (src, since) => if src = p.1 then some (src, since) else some (p.1, t)
       | none => some (p.1, t))
    else none
  { d with time := { d.time with better := b } }

/-- The source's time minus station time, in ns. -/
def Dev.sourceOfs (d : Dev) (src : Nat) : Int :=
  match src with
  | 1 => sgn (d.rd (Reg.PTP_DOFS 0))
  | 2 => sgn (d.rd (Reg.PTP_DOFS 1))
  | _ => d.time.irigOfs

/-- R248: the bound of a source. -/
def Dev.sourceBound (d : Dev) (src : Nat) : Nat :=
  match src with
  | 1 => d.domBound 0
  | 2 => d.domBound 1
  | _ => d.irigBound

/-- R248: a source is usable. -/
def Dev.sourceUsable (d : Dev) (src : Nat) : Bool :=
  match src with
  | 0 => false
  | 1 => d.servo 0 == 2
  | 2 => d.servo 1 == 2
  | _ => d.flag F.PTP_IRIGSTAT_IRIGOK

/-- PTP_UTC as a source gives it: the offset, its validity and the leap flags LI61 and LI59. -/
def Dev.sourceUtc (d : Dev) (src : Nat) : Word :=
  let ofBest (b : Option Announce) : Word := match b with
    | some a => BitVec.ofNat 32 (a.utcOfs.toNat + b2n a.utcValid * 2 ^ 16 + a.leap.toNat * 2 ^ 17)
    | none => 0
  match src with
  | 0 => d.rd Reg.PTP_UTC
  | 1 => ofBest d.time.dom0.best
  | 2 => ofBest d.time.dom1.best
  | _ => BitVec.ofNat 32 (d.fld F.PTP_IRIGCFG_TAIOFS + 2 ^ 16 + d.time.irigLeap * 2 ^ 17)

/-- PTP_UTC follows the source in use; source 118 when it changes (R270). -/
def Dev.settleUtc (d : Dev) (t : Nat) : Dev :=
  let w := d.sourceUtc d.ownSrc
  if d.rd Reg.PTP_UTC = w then d else (d.wr Reg.PTP_UTC w).ptpEvent t 118

/-- R248: bound and usability follow the source in use at MONO t, and with them the code, the hold of R250 and PTP_UTC. -/
def Dev.settleTime (d : Dev) (t : Nat) : Dev :=
  let src := d.ownSrc
  let d := if d.sourceUsable 1 || d.sourceUsable 2 || d.sourceUsable 3 then d.setFld F.PTP_STAT_EVERLOCKED 1 else d
  let d := if src = 0 then d
    else
      let now := d.sourceUsable src
      { d with time := { d.time with
        bound := if src = 3 && !now then d.time.bound else some (d.sourceBound src), usable := now,
        usableAt := if now then t else if d.time.usable then t else d.time.usableAt } }
  ((d.settleTq t).trackSource t).settleUtc t

/-- R250, R251, R479: station time follows source src from MONO t on; 0 stands for none. -/
def Dev.follow (d : Dev) (src t : Nat) : Dev :=
  if d.fld F.PTP_STAT_SRC = src || d.following then d
  else
    let code := d.tq t
    let ofs := d.sourceOfs src
    let d := (d.setFld F.PTP_STAT_SRC src).ptpEvent t 113
    let d := if src = 0 then
        { d with time := { d.time with usable := false, usableAt := if d.time.usable then t else d.time.usableAt } }
      else
        let d := { d with time := { d.time with lastSrc := src } }
        let d := if src ≤ 2 then d.setRate t (sgn (d.rd (Reg.PTP_DFREQ (src - 1)))) else d
        d.takeOffset t code ofs
    { d with time := { d.time with better := none } }.settleTime t

/-- SOURCE_SELECT: station time changes its source: at once where the one in use is no longer followed or none is, and
for a better one when the hold of SELHOLD is complete (R250). -/
def execSourceSelect (s : State) : Host.Outcome State Fault Refusal :=
  let p := s.dev.preferred s.mono
  match p.2, s.dev.time.better with
  | true, some (_, since) =>
    s.at (since + s.dev.fld F.PTP_CFG_SELHOLD * 1000000000) (fun t d => d.follow (d.preferred t).1 t)
  | true, none => s.upd (fun t d => d.trackSource t)
  | false, _ => s.upd (fun t d => d.follow p.1 t)

/-! ## PTP messages -/

/-- R249: the servo of domain k enters a state at MONO t. -/
def Dev.setServo (d : Dev) (t k st : Nat) : Dev :=
  let was := d.servo k
  let d := d.setFld (F.PTP_DSTAT_SERVO k) st
  let d := if was = 2 ∧ st ≠ 2 then d.modDom k (fun x => { x with usableAt := t }) else d
  if was = st then d else (d.modDom k (fun x => { x with near := 0, far := 0 })).settleTime t

/-- R249: the servo of domain k after a Sync that shows it an offset of its own of e ns. -/
def Dev.servoStep (d : Dev) (t k : Nat) (e : Int) : Dev :=
  let near := if e.natAbs ≤ 50 then (d.dom k).near + 1 else 0
  let far := if 200 < e.natAbs then (d.dom k).far + 1 else 0
  let d := d.modDom k (fun x => { x with near := near, far := far })
  match d.servo k with
  | 1 => if 16 ≤ near then d.setServo t k 2 else d
  | 2 => if 4 ≤ far then d.setServo t k 1 else d.modDom k (fun x => { x with usableAt := t })
  | 3 => if 4 ≤ near then d.setServo t k 2 else d
  | _ => d

/-- R249: the enabled domain with a domainNumber. -/
def Dev.domainOf (d : Dev) (n : BitVec 8) : Option Nat :=
  [0, 1].find? (fun k => d.flag (F.PTP_DCFG_EN k) && d.fld (F.PTP_DCFG_DOMAIN k) == n.toNat)

/-- R253, R271: port p runs PTP in domain k. -/
def Dev.ptpPort (d : Dev) (k p : Nat) : Bool :=
  d.flag (F.ETH_CFG_PTPEN p) && d.flag (F.PTP_DCFG_EN k) && bitOf (d.fld (F.PTP_DCFG_PORTS k)) p

/-- R240: the ingress stamp of a frame whose start-of-frame delimiter reaches the MAC of port p at MONO t. -/
def Dev.rxStamp (d : Dev) (t p : Nat) : Nat := d.station t - d.fld (F.ETH_TSADJ_RXLAT p)

/-- R240: the egress stamp of a frame that leaves the MAC of port p at MONO t. -/
def Dev.txStampAt (d : Dev) (t p : Nat) : Nat := d.station t + d.fld (F.ETH_TSADJ_TXLAT p)

/-- R247, R249: the domain time that a Sync gives at its reception, in ns. -/
def Dev.syncTime (d : Dev) (p : Nat) (sec : BitVec 48) (ns : BitVec 30) (corr : BitVec 64) : Int :=
  ((d.fld F.PTP_EPOCHEXT_HI * 2 ^ 48 + sec.toNat : Nat) : Int) * 1000000000 + ns.toNat + corr.toInt / 65536 +
    (d.rd (Reg.ETH_PDELAY p)).toNat + sgn (d.rd (Reg.ETH_ASYM p))

/-- R249, R251: a Sync, with its Follow_Up where it has one, of domain k on port p at MONO t. servo is the offset from
the grandmaster that the servo then shows and freq its correction: R249 fixes what follows from them and leaves the
loop itself open. After a change of port the offset between the two paths is slewed (R254). -/
def Dev.ptpSync (k p : Nat) (sec : BitVec 48) (ns : BitVec 30) (corr : BitVec 64) (servo freq : Word) (t : Nat)
    (d : Dev) : Dev :=
  if d.ptpPort k p && d.fld (F.PTP_DSTAT_SPORT k) == p then
    let o := d.syncTime p sec ns corr - d.rxStamp t p
    let moved := (d.dom k).moved
    let d := ((d.wr (Reg.PTP_DOFS k) (sat32 o)).wr (Reg.PTP_DFREQ k) freq).incWrap (Reg.PTP_DSYNC k)
    let d := d.modDom k (fun x => { x with lastSync := t, moved := false })
    let code := d.tq t
    let d := d.servoStep t k (sgn servo)
    let d := if d.ownSrc = k + 1 then
        let d := d.setRate t (sgn freq)
        if o.natAbs ≤ 1000 then d else if moved then d.slewStation t o else d.takeOffset t code o
      else d
    d.settleTime t
  else d

/-- f acts on the enabled domain with a domainNumber; a message of another domain has no effect. -/
def Dev.inDomain (n : BitVec 8) (f : Nat → Nat → Dev → Dev) (t : Nat) (d : Dev) : Dev :=
  match d.domainOf n with
  | some k => f k t d
  | none => d

/-- PTP_SYNC: dt ns pass, and a Sync or its Follow_Up arrives (R249). -/
def execPtpSync (dt : Nat) (domain : BitVec 8) (p : BitVec 2) (sec : BitVec 48) (ns : BitVec 30) (corr : BitVec 64)
    (servo freq : Word) (s : State) : Host.Outcome State Fault Refusal :=
  s.event dt (Dev.inDomain domain (fun k => Dev.ptpSync k p.toNat sec ns corr servo freq))

/-- The data set of an Announce in the order in which the default best master clock algorithm compares it. -/
def rankOf (a : Announce) : List Nat :=
  [a.prio1.toNat, a.clockClass.toNat, a.accuracy.toNat, a.variance.toNat, a.prio2.toNat, a.gm.toNat, a.steps.toNat]

/-- The first list is lower, compared entry by entry. -/
def rankLt : List Nat → List Nat → Bool
  | x :: xs, y :: ys => if x = y then rankLt xs ys else decide (x < y)
  | _, _ => false

/-- R255: the clockClass that the 9060 announces at MONO t. -/
def Dev.ownClass (d : Dev) (t k : Nat) : Nat :=
  if 1 < d.tq t then 248
  else if d.fld F.PTP_STAT_SRC = 3 then d.fld (F.PTP_DPRIO_CLASSREF k)
  else if d.fld F.PTP_STAT_SRC = 0 ∧ d.time.lastSrc = 3 then 7
  else 248

/-- R253: the data set of this device's own clock in domain k, as it announces it (assumption 11). -/
def Dev.ownClock (d : Dev) (t k : Nat) : Announce :=
  { prio1 := BitVec.ofNat 8 (d.fld (F.PTP_DPRIO_PRIO1 k)), clockClass := BitVec.ofNat 8 (d.ownClass t k),
    accuracy := Config.clockAccuracy, variance := Config.clockVariance,
    prio2 := BitVec.ofNat 8 (d.fld (F.PTP_DPRIO_PRIO2 k)), gm := Config.clockIdentity, steps := 0,
    utcValid := d.flag F.PTP_UTC_VALID, utcOfs := BitVec.ofNat 16 (d.fld F.PTP_UTC_UTCOFS),
    leap := BitVec.ofNat 2 (b2n (d.flag F.PTP_UTC_LI61) + 2 * b2n (d.flag F.PTP_UTC_LI59)) }

/-- R253: this device is master-capable in domain k, as an ordinary or a boundary clock. -/
def Dev.masterCapable (d : Dev) (k : Nat) : Bool :=
  d.fld (F.PTP_DCFG_ROLE k) == 1 || d.fld (F.PTP_DCFG_ROLE k) == 2

/-- R253: the default best master clock algorithm finds the own clock of domain k the best. -/
def Dev.ownBest (d : Dev) (t k : Nat) : Bool :=
  d.masterCapable k &&
    (match (d.dom k).best with
     | none => true
     | some a => rankLt (rankOf (d.ownClock t k)) (rankOf a))

/-- IEEE 1588 portState of port p in domain k (R253, R255): 3 DISABLED, 4 LISTENING, 6 MASTER, 7 PASSIVE, 9 SLAVE. A clock
whose own clockClass is at most 127 never becomes a slave. -/
def Dev.portState (d : Dev) (t k p : Nat) : Nat :=
  if !(d.ptpPort k p) then 3
  else if d.ownBest t k then (if d.flag F.SWX_STAT_PUBGATE then 6 else 7)
  else if d.masterCapable k && Nat.ble (d.ownClass t k) 127 then 7
  else if !(d.flag (F.PTP_DSTAT_GMVALID k)) then 4
  else if d.fld (F.PTP_DSTAT_SPORT k) = p then 9
  else if d.fld (F.PTP_DCFG_ROLE k) = 2 then 6
  else 7

/-- The port states of both domains at MONO t; source 116 when one changes. -/
def Dev.settlePorts (d : Dev) (t : Nat) : Dev :=
  forN 4 (fun p d =>
    let w := d.portState t 0 p + 16 * d.portState t 1 p
    if bitsOf (d.rd (Reg.PTP_PSTAT p)).toNat 7 0 = w then d
    else (d.wr (Reg.PTP_PSTAT p) (putBits (d.rd (Reg.PTP_PSTAT p)) 7 0 w)).ptpEvent t 116) d

/-- R253, R270: the grandmaster of domain k becomes that of a, or none, at MONO t; source 115 when its identity or
clockClass changes. -/
def Dev.setGm (d : Dev) (t k : Nat) (a : Option Announce) : Dev :=
  let key : Option (BitVec 64 × BitVec 8) := a.map (fun a => (a.gm, a.clockClass))
  let changed := (d.dom k).known != key
  let d := d.modDom k (fun x => { x with best := a, known := key })
  let d := match a with
    | some a =>
      (((d.setFld (F.PTP_DSTAT_GMCLASS k) a.clockClass.toNat).setFld (F.PTP_DSTAT_STEPSRM k) a.steps.toNat).setFld
        (F.PTP_DSTAT_GMVALID k) 1).wr64 (Reg.PTP_DGMID0 k) a.gm.toNat
    | none => d.setFld (F.PTP_DSTAT_GMVALID k) 0
  let d := if changed then d.ptpEvent t 115 else d
  (d.settleTime t).settlePorts t

/-- R253: an Announce of domain k on port p at MONO t: it updates the grandmaster in use or replaces a worse one. -/
def Dev.ptpAnnounce (k p : Nat) (a : Announce) (t : Nat) (d : Dev) : Dev :=
  if d.ptpPort k p then
    let take : Bool := match (d.dom k).best with | none => true | some b => a.gm == b.gm || rankLt (rankOf a) (rankOf b)
    if take then (d.modDom k (fun x => { x with lastAnnounce := t })).setGm t k (some a) else d
  else d

/-- PTP_ANNOUNCE: dt ns pass, and an Announce arrives. -/
def execPtpAnnounce (dt : Nat) (domain : BitVec 8) (p : BitVec 2) (a : Announce) (s : State) :
    Host.Outcome State Fault Refusal :=
  s.event dt (Dev.inDomain domain (fun k => Dev.ptpAnnounce k p.toNat a))

/-- R254: the other port of a pair in PRP mode, when domain k takes Sync from port A or C of it. -/
def Dev.otherPort (d : Dev) (k : Nat) : Option Nat :=
  let p := d.fld (F.PTP_DSTAT_SPORT k)
  if p = 0 ∧ d.fld F.SWX_CFG_MODEAB = 1 ∧ bitOf (d.fld (F.PTP_DCFG_PORTS k)) 1 then some 1
  else if p = 2 ∧ d.fld F.SWX_CFG_MODECD = 1 ∧ bitOf (d.fld (F.PTP_DCFG_PORTS k)) 3 then some 3
  else none

/-- R249: the servo of domain k holds over from LOCKED. -/
def Dev.holdServo (d : Dev) (t k : Nat) : Dev := if d.servo k = 2 then d.setServo t k 3 else d

/-- R249, R253, R254: three Sync intervals without a Sync, or the Announce timeout. -/
def Dev.syncTimeout (k : Nat) (announce : Bool) (t : Nat) (d : Dev) : Dev :=
  if announce then
    let d := d.modDom k (fun x => { x with lastAnnounce := t })
    ((d.setGm t k none).holdServo t k).settlePorts t
  else
    match d.otherPort k with
    | some p =>
      ((d.setFld (F.PTP_DSTAT_SPORT k) p).modDom k (fun x => { x with lastSync := t, moved := true })).settlePorts t
    | none => d.holdServo t k

/-- SYNC_TIMEOUT: 3 s pass since the last Sync of a domain, or since its last Announce (R249, R253). -/
def execSyncTimeout (dom : BitVec 1) (announce : Bool) (s : State) : Host.Outcome State Fault Refusal :=
  let k := dom.toNat
  if s.dev.flag (F.PTP_DCFG_EN k) then
    s.at ((if announce then (s.dev.dom k).lastAnnounce else (s.dev.dom k).lastSync) + 3000000000)
      (Dev.syncTimeout k announce)
  else .next s

/-! ## Epoch and setting -/

/-- R247: the station time in ns at which its seconds next cross a multiple of 2^48. -/
def Dev.epochNext (d : Dev) (t : Nat) : Nat := (d.station t / 1000000000 / 2 ^ 48 + 1) * 2 ^ 48 * 1000000000

/-- EPOCH_CARRY: the seconds of station time cross a multiple of 2^48 (R247). -/
def execEpochCarry (s : State) : Host.Outcome State Fault Refusal :=
  s.at (s.dev.whenStation s.mono (s.dev.epochNext s.mono)) (fun t d => (d.setFld F.PTP_EPOCHEXT_HI (d.fld F.PTP_EPOCHEXT_HI + 1)).ptpEvent t 118)

/-- R252: PTP_CMD is written with v at MONO t. -/
def Dev.ptpCmd (d : Dev) (t : Nat) (v : Word) : Dev :=
  if bitsOf v.toNat 31 16 = 0x71A3 ∧ bitsOf v.toNat 3 0 = 1 then
    if d.tq t = 3 ∧ d.fld F.PTP_STAT_SRC = 0 then
      let new := (d.rd64 Reg.PTP_SETSEC0) * 1000000000 + (d.rd Reg.PTP_SETNS).toNat
      let d := d.stepStation t ((new : Int) - d.station t)
      { d with time := { d.time with bound := none } }.settleTime t
    else d.setFld F.PTP_STAT_REFUSED 1
  else d

/-! ## IRIG-B and PPS -/

/-- Days from 1970-01-01 to the first day of a year from 1970 on, in the Gregorian calendar. -/
def daysToYear (y : Nat) : Nat :=
  (y - 1970) * 365 + ((y - 1) / 4 - 1969 / 4) + (1969 / 100) + (y - 1) / 400 - ((y - 1) / 100 + 1969 / 400)

/-- The year of a day number counted from 1970-01-01; the years tried are n from y on. -/
def yearOfDay (day : Nat) : Nat → Nat → Nat
  | 0, y => y
  | n + 1, y => if day < daysToYear (y + 1) then y else yearOfDay day n (y + 1)

/-- R257: seconds since 1970-01-01 (UTC) of an IRIG-B time; a code without a year takes that of station time. -/
def Dev.irigUtc (d : Dev) (t : Nat) (f : IrigFrame) : Nat :=
  let day := d.station t / 1000000000 / 86400
  let now := yearOfDay day 1000 (1970 + day / 366)
  let y := match f.year with | some yy => now / 100 * 100 + yy.toNat | none => now
  (daysToYear y + f.day.toNat - 1) * 86400 + f.hour.toNat * 3600 + f.minute.toNat * 60 + f.sec.toNat

/-- R258: the PPS_IN edge and the IRIG on-time edge lie within 1 µs of each other. -/
def Dev.edgesAlign (d : Dev) : Bool :=
  match d.time.ppsEdge with
  | some e =>
    let x := if e ≤ d.time.irigEdge then d.time.irigEdge - e else e - d.time.irigEdge
    Nat.ble (min (x % 1000000000) (1000000000 - x % 1000000000)) 1000
  | none => false

/-- R257, R258: IRIGOK, PPSOK and ALIGNED take their values at MONO t; source 117 when one changes. -/
def Dev.setIrig (d : Dev) (t : Nat) (irig pps aligned : Bool) : Dev :=
  let w := b2n irig + 2 * b2n pps + 4 * b2n aligned
  if bitsOf (d.rd Reg.PTP_IRIGSTAT).toNat 2 0 = w then d
  else (d.wr Reg.PTP_IRIGSTAT (putBits (d.rd Reg.PTP_IRIGSTAT) 2 0 w)).ptpEvent t 117

/-- R257: an IRIG-B frame whose on-time edge comes at MONO t. freq is the frequency correction with which station time
follows IRIG-B and takes up an offset of at most 1,000 ns (R251), which leaves the discipline itself open. -/
def Dev.irigFrame (f : IrigFrame) (freq : Word) (t : Nat) (d : Dev) : Dev :=
  if d.flag F.PTP_IRIGCFG_IRIGEN then
    let sec := d.irigUtc t f + d.fld F.PTP_IRIGCFG_TAIOFS
    let ok : Bool := f.parityOk && (match d.time.irigSec with | some x => x + 1 == sec | none => true)
    let d := { d with time := { d.time with
      irigSec := some sec, irigEdge := t, irigOfs := ((sec * 1000000000 : Nat) : Int) - d.station t,
      irigLeap := if d.flag F.PTP_IRIGCFG_C37EXT then f.leap.toNat else 0 } }
    let pps := d.flag F.PTP_IRIGSTAT_PPSOK
    let d : Dev := if ok then
        if d.time.irigBad = 0 then d.setIrig t true pps (pps && d.edgesAlign)
        else { d with time := { d.time with irigBad := d.time.irigBad - 1 } }
      else
        let d := { d with time := { d.time with irigBad := 3 } }
        ((d.incFld F.PTP_IRIGSTAT_ERRCNT).wr Reg.PTP_IRIGSTAT
          (putBits ((d.incFld F.PTP_IRIGSTAT_ERRCNT).rd Reg.PTP_IRIGSTAT) 2 0 (2 * b2n pps))).ptpEvent t 117
    let code := d.tq t
    let d := if d.ownSrc = 3 ∧ ok then
        let d := d.setRate t (sgn freq)
        if 1000 < d.time.irigOfs.natAbs then d.takeOffset t code d.time.irigOfs else d
      else d
    d.settleTime t
  else d

/-- IRIG_FRAME: dt ns pass, and an IRIG-B frame is decoded. -/
def execIrigFrame (dt : Nat) (x : IrigIn) (s : State) : Host.Outcome State Fault Refusal :=
  s.event dt (Dev.irigFrame x.frame x.freq)

/-- R258: a rising edge of PPS_IN at MONO t. -/
def Dev.ppsIn (t : Nat) (d : Dev) : Dev :=
  if d.flag F.PTP_IRIGCFG_PPSEN then
    let irig := d.flag F.PTP_IRIGSTAT_IRIGOK
    let st := d.station t
    let sec := match (if irig then d.time.irigSec else none) with
      | some x => x + (t - d.time.irigEdge + 500000000) / 1000000000
      | none => st / 1000000000
    let d := { d with time := { d.time with ppsEdge := some t } }
    let d := (d.wr Reg.PTP_PPSINNS (BitVec.ofNat 32 (st % 1000000000))).wr Reg.PTP_PPSINSEC0 (BitVec.ofNat 32 sec)
    (d.setIrig t irig true (irig && d.edgesAlign)).settleTime t
  else d

/-- PPS_IN_EDGE: dt ns pass, and PPS_IN rises. -/
def execPpsInEdge (dt : Nat) (s : State) : Host.Outcome State Fault Refusal := s.event dt Dev.ppsIn

/-- IRIG_LOSS: dt ns pass, and it is seen that IRIG-B frames, PPS_IN edges or both have stopped. -/
def execIrigLoss (dt : Nat) (irig pps : Bool) (s : State) : Host.Outcome State Fault Refusal :=
  s.event dt (fun t d =>
    let i := d.flag F.PTP_IRIGSTAT_IRIGOK && !irig
    let p := d.flag F.PTP_IRIGSTAT_PPSOK && !pps
    let d := { d with time := { d.time with
      irigSec := if irig then none else d.time.irigSec, ppsEdge := if pps then none else d.time.ppsEdge } }
    (d.setIrig t i p (d.flag F.PTP_IRIGSTAT_ALIGNED && i && p)).settleTime t)

/-- R258: the station time of the next rise of PPS_OUT after MONO t. -/
def Dev.ppsNext (d : Dev) (t : Nat) : Nat :=
  let o := sgn (d.rd Reg.PTP_PPSOFS)
  ((((d.station t : Int) - o) / 1000000000 + 1) * 1000000000 + o).toNat

/-- R258: PPS_OUT rises at MONO t unless it is off or suppressed. -/
def Dev.ppsOut (t : Nat) (d : Dev) : Dev :=
  if d.flag F.PTP_PPSOUT_EN && !(d.ppsMuted t) then
    let w := d.fld F.PTP_PPSOUT_WIDTH
    ({ d with time := { d.time with ppsUntil := some (t + w * 1000000) } }).send t (.pps w)
  else d

/-- R459: PPS_OUT is low in device reset and in deep sleep. -/
def Dev.ppsStop (d : Dev) (t : Nat) : Dev :=
  if d.time.ppsUntil.isSome then ({ d with time := { d.time with ppsUntil := none } }).send t .ppsLow else d

/-- PPS_OUT_PULSE: the next station-time second plus PTP_PPSOFS is reached. -/
def execPpsOutPulse (s : State) : Host.Outcome State Fault Refusal :=
  s.at (s.dev.whenStation s.mono (s.dev.ppsNext s.mono)) Dev.ppsOut

/-! ## Reset, load and resume -/

/-- R254: the port from which domain k first takes Sync. -/
def Dev.firstPort (d : Dev) (k : Nat) : Nat :=
  match (List.range 4).find? (fun p => bitOf (d.fld (F.PTP_DCFG_PORTS k)) p) with | some p => p | none => 0

/-- R479: the servos of the enabled domains start in ACQ and no source is followed. restart says that the network engine
restarts; a device reset has set every register already. -/
def Dev.restartServos (d : Dev) (t : Nat) : Dev :=
  let d := forN 2 (fun k d =>
    ((d.setFld (F.PTP_DSTAT_SERVO k) (b2n (d.flag (F.PTP_DCFG_EN k)))).setFld (F.PTP_DSTAT_SPORT k) (d.firstPort k)).modDom k
      (fun x => { known := x.known, lastSync := t, lastAnnounce := t })) d
  let d := d.setIrig t false false false
  let d := if d.fld F.PTP_STAT_SRC = 0 then d else (d.setFld F.PTP_STAT_SRC 0).ptpEvent t 113
  let d := { d with time := { d.time with
    usable := false, usableAt := if d.time.usable then t else d.time.usableAt, better := none,
    irigSec := none, irigBad := 0, ppsEdge := none } }
  d.settleTq t

/-- R249: what a write of PTP_DCFG[k] does: a domain that is enabled starts in ACQ, a disabled one is OFF, and the port
in use is the first of PORTS. -/
def Dev.afterDcfg (d : Dev) (t k : Nat) : Dev :=
  let d := d.setFld (F.PTP_DSTAT_SPORT k) (d.firstPort k)
  let start (d : Dev) : Dev := (d.modDom k (fun x => { x with lastSync := t, lastAnnounce := t })).setServo t k 1
  let d := if d.flag (F.PTP_DCFG_EN k) then (if d.servo k = 0 then start d else d) else d.setServo t k 0
  d.settlePorts t

/-- R246: station time is loaded with ns at MONO t, no step and no source; Transit takes the synthetic angle (R73). -/
def Dev.loadStation (d : Dev) (t ns : Nat) : Dev :=
  let d := { d with time := { d.time with base := ns, t0 := t, slew := 0, bound := none } }
  d.loadAngle t

end Sys2Proof.Machine
end

