-- ==== Sys2Proof/Machine/Net.lean ====
section
/-!
DEFINITION. The network engine: ports and their PHYs (R240, R241), the ingress path (R242 to R245), the transparent
clock (R256), subscriptions (R259 to R263), publications (R264 to R267) and the launch-time queues (R268, R269).
-/
namespace Sys2Proof.Machine

/-- Event source n + 4 × p of port p, 88 to 91, with its bit of ETH_STAT (R270). -/
def Dev.ethEvent (d : Dev) (t p n : Nat) : Dev := d.raiseFlag t (n + 4 * p) (Reg.ETH_STAT p) (n - 84)

/-- Event source i, 104 to 111, with its bit of SWX_STAT (R270). -/
def Dev.swxEvent (d : Dev) (t i : Nat) : Dev := d.raiseFlag t i Reg.SWX_STAT (i - 96)

/-! ## PHYs and links (R241) -/

/-- The last poll of port p found the link up. -/
def Dev.phyUp (d : Dev) (p : Nat) : Bool := Sparse.get (fun _ => false) d.net.phyUp p

/-- R241, R271: ANDONE and LINK of port p follow SGMII, its autonegotiation where ETH_CFG.ANEN asks for it, the polled PHY
and the PHY reset at MONO t; source 88 when LINK changes. -/
def Dev.settleLink (d : Dev) (t p : Nat) : Dev :=
  let sgmii := Sparse.get (fun _ => false) d.net.sgmii p
  let d := d.setFld (F.ETH_STAT_ANDONE p) (b2n (sgmii && d.flag (F.ETH_CFG_ANEN p)))
  let up := d.flag F.SWX_PHYCTL_RSTREL && sgmii && (!(d.flag (F.ETH_PHYCFG_POLL p)) || d.phyUp p)
  if d.flag (F.ETH_STAT_LINK p) = up then d
  else (d.setFld (F.ETH_STAT_LINK p) (b2n up)).ethEvent t p 88

/-- R241: SGMII of port p, with its autonegotiation where that is on, is up or not from MONO t on. -/
def Dev.setSgmii (p : Nat) (up : Bool) (t : Nat) (d : Dev) : Dev :=
  ({ d with net := { d.net with sgmii := Sparse.set (fun _ => false) d.net.sgmii p up } }).settleLink t p

/-- LINK_CHANGE: dt ns pass, and SGMII autonegotiation of port p completes or is lost (R241, R270). -/
def execLinkChange (dt : Nat) (p : BitVec 2) (up : Bool) (s : State) : Host.Outcome State Fault Refusal :=
  s.event dt (Dev.setSgmii p.toNat up)

/-- R241: register 1 of the PHY of port p is read and shows the link up or down. -/
def Dev.phyPoll (p : Nat) (up : Bool) (t : Nat) (d : Dev) : Dev :=
  if d.flag (F.ETH_PHYCFG_POLL p) then
    ({ d with net := { d.net with phyUp := Sparse.set (fun _ => false) d.net.phyUp p up } }).settleLink t p
  else d

/-- PHY_POLL: the next 10 ms poll of the PHY of port p finds its link up or down (R241). -/
def execPhyPoll (p : BitVec 2) (up : Bool) (s : State) : Host.Outcome State Fault Refusal :=
  s.at ((s.mono / 10000000 + 1) * 10000000) (Dev.phyPoll p.toNat up)

/-- R241: PHY_INT_N takes a level at MONO t. -/
def Dev.phyInt (low : Bool) (t : Nat) (d : Dev) : Dev :=
  let falls := low && !d.net.phyIntLow
  let d := { d.setFld F.SWX_PHYCTL_INTLVL (b2n low) with net := { d.net with phyIntLow := low } }
  if falls && d.flag F.SWX_PHYCTL_INTEN then d.swxEvent t 111 else d

/-- PHY_INT: dt ns pass, and PHY_INT_N is low or high (R241). -/
def execPhyInt (dt : Nat) (low : Bool) (s : State) : Host.Outcome State Fault Refusal := s.event dt (Dev.phyInt low)

/-- R241: what a write of SWX_PHYCTL does beside storing RSTREL and INTEN: PHY_RST_N follows RSTREL, and its assertion
drops every link. -/
def Dev.afterPhyCtl (d : Dev) (t : Nat) (old : Word) : Dev :=
  let rel := d.flag F.SWX_PHYCTL_RSTREL
  let d := if old.getLsbD 0 = rel then d else d.send t (.phyReset rel)
  forN 4 (fun p d =>
    if rel then d.settleLink t p else Dev.setSgmii p false t d) d

/-- R241: SWX_MDIO is written with v at MONO t: with GO = 1 and no frame in progress one frame is sent. -/
def Dev.mdioWrite (d : Dev) (t : Nat) (v : Word) : Dev :=
  if d.flag F.SWX_MDIO_BUSY then
    if bitOf v.toNat 29 then d else d.wr Reg.SWX_MDIO ((v &&& 0x1FFFFFFF) ||| (d.rd Reg.SWX_MDIO &&& 0xC0000000))
  else
    let d := d.wr Reg.SWX_MDIO ((v &&& 0x1FFFFFFF) ||| (d.rd Reg.SWX_MDIO &&& 0x80000000))
    if bitOf v.toNat 29 then
      { (d.setFld F.SWX_MDIO_BUSY 1).send t (.mdio (v &&& 0x1FFFFFFF)) with
        net := { d.net with mdioEnd := some (t + 52000) } }
    else d

/-- R241: the frame in progress ends; resp is what a PHY answered to a read. OP 0, 2, 3, 6 and 7 are reads. -/
def Dev.mdioDone (resp : Option (BitVec 16)) (d : Dev) : Dev :=
  if d.flag F.SWX_MDIO_BUSY then
    let op := d.fld F.SWX_MDIO_OP
    let d := { d.setFld F.SWX_MDIO_BUSY 0 with net := { d.net with mdioEnd := none } }
    if op = 1 ∨ op = 4 ∨ op = 5 then d
    else
      match resp with
      | some x => (d.setFld F.SWX_MDIO_DATA x.toNat).setFld F.SWX_MDIO_NORESP 0
      | none => (d.setFld F.SWX_MDIO_DATA 0xFFFF).setFld F.SWX_MDIO_NORESP 1
  else d

/-- MDIO_DONE: dt ns pass, no more than the 52 µs of R241, and the management frame ends. -/
def execMdioDone (dt : Nat) (resp : Option (BitVec 16)) (s : State) : Host.Outcome State Fault Refusal :=
  match s.dev.net.mdioEnd with
  | some e => s.at (min (s.mono + dt) e) (fun _ d => d.mdioDone resp)
  | none => .next s

/-! ## Transmission (R240, R242, R269) -/

/-- R242: the mode of the pair of ports A and B or C and D; 3 acts as 0. -/
def Dev.pairMode (d : Dev) (cd : Bool) : Nat :=
  let m := if cd then d.fld F.SWX_CFG_MODECD else d.fld F.SWX_CFG_MODEAB
  if m = 3 then 0 else m

/-- Launch queue q of port p. -/
def Dev.launchQ (d : Dev) (p q : Nat) : List Launch := Sparse.get (fun _ => []) d.net.launch (8 * p + q)

/-- Launch queue q of port p replaced; DEPTH shows its length. -/
def Dev.setLaunchQ (d : Dev) (p q : Nat) (l : List Launch) : Dev :=
  ({ d with net := { d.net with launch := Sparse.set (fun _ => []) d.net.launch (8 * p + q) l } }).setFld
    (F.ETH_LQSTAT_DEPTH p q) l.length

/-- R269: the head that port p sends next: the earliest of its enabled queues, and the highest-numbered queue
among equals. -/
def Dev.nextLaunch (d : Dev) (p : Nat) : Option (Nat × Launch) :=
  (List.range 8).foldl (fun best q =>
    match (if d.flag (F.ETH_LQCFG_EN p q) then d.launchQ p q else []) with
    | [] => best
    | x :: _ =>
      match best with
      | some b => if b.2.at_ < x.at_ then best else some (q, x)
      | none => some (q, x)) none

/-- R269: a launch time of port p lies within its guard band at MONO t: no other frame starts. -/
def Dev.inGuard (d : Dev) (t p : Nat) : Bool :=
  match d.nextLaunch p with
  | some (_, x) => Nat.blt (d.station t) x.at_ && Nat.ble x.at_ (d.station t + d.fld (F.ETH_GUARD_GUARD p))
  | none => false

/-- R269: the frames of port p that wait for the end of a guard band. -/
def Dev.heldFrames (d : Dev) (p : Nat) : List PortMsg := Sparse.get (fun _ => []) d.net.held p

/-- R269: they are replaced. -/
def Dev.setHeld (d : Dev) (p : Nat) (l : List PortMsg) : Dev :=
  { d with net := { d.net with held := Sparse.set (fun _ => []) d.net.held p l } }

/-- R240, R269, R271: an enabled port p sends a frame at MONO t, or after the guard band that is open. -/
def Dev.transmit (t p : Nat) (m : PortMsg) (d : Dev) : Dev :=
  if !(d.flag (F.ETH_CFG_EN p)) then d
  else if d.inGuard t p then d.setHeld p (d.heldFrames p ++ [m])
  else (d.incWrap (Reg.ETH_TXFRAMES p)).send t (.port p m)

/-- R269: the frames that waited for the end of a guard band of port p start at MONO t, unless another is open. -/
def Dev.releaseHeld (t p : Nat) (d : Dev) : Dev :=
  if d.inGuard t p then d else (d.heldFrames p).foldl (fun d m => Dev.transmit t p m d) (d.setHeld p [])

/-- R242: the two ports of a pair. -/
def pairPorts (cd : Bool) : List Nat := if cd then [2, 3] else [0, 1]

/-- R242: the tag of a frame with a sequence number on port p. -/
def tagOn (p : Nat) (n : Option Nat) : Option RedTag := n.map (fun n => { seqNo := BitVec.ofNat 16 n, lanB := p % 2 == 1 })

/-- R242: the sequence number of the next frame that the pair sends, in PRP or HSR mode; it counts on. -/
def Dev.takeSeq (d : Dev) (cd : Bool) : Dev × Option Nat :=
  if d.pairMode cd = 0 then (d, none)
  else
    let n := Sparse.get (fun _ => 0) d.net.txSeq (b2n cd)
    ({ d with net := { d.net with txSeq := Sparse.set (fun _ => 0) d.net.txSeq (b2n cd) ((n + 1) % 2 ^ 16) } }, some n)

/-! ## The ingress path (R244) -/

/-- R244: the pair address of a port, or of its pair. -/
def Dev.pairAddress (d : Dev) (cd : Bool) : Nat :=
  if cd then (d.rd Reg.SWX_MACCD0).toNat + bitsOf (d.rd Reg.SWX_MACCD1).toNat 15 0 * 2 ^ 32
  else (d.rd Reg.SWX_MACAB0).toNat + bitsOf (d.rd Reg.SWX_MACAB1).toNat 15 0 * 2 ^ 32

/-- R244: the destination of a frame is an enabled command address of port p. -/
def Dev.cmdAddress (d : Dev) (p : Nat) (f : Frame) : Bool :=
  (List.range 4).any (fun k =>
    let hi := Reg.ETH_CMDF_HI p k
    bitOf (d.rd hi).toNat 31 && (d.rd (Reg.ETH_CMDF_LO p k)).toNat == f.dmac.toNat % 2 ^ 32 &&
      bitsOf (d.rd hi).toNat 15 0 == f.dmac.toNat / 2 ^ 32 &&
      (!(bitOf (d.rd hi).toNat 28) || bitsOf (d.rd hi).toNat 27 16 == f.vid.toNat))

/-- R244: a reserved frame. -/
def Dev.reserved (d : Dev) (p : Nat) (f : Frame) : Bool :=
  (f.pcp == 7 && f.etherType == 0x88B6 && d.cmdAddress p f) || f.pairMsg || f.etherType == 0x88F7

/-- A bad frame or limiter drop of port p: source 89 for the first since its flag was cleared (R270). -/
def Dev.rxEvent (d : Dev) (t p : Nat) : Dev := if d.bit (Reg.ETH_STAT p) 5 then d else d.ethEvent t p 89

/-- R245: the ingress bucket of port p in bits × 10^-3: its size, and what it holds at MONO t. -/
def Dev.bucketSize (d : Dev) (p : Nat) : Nat := max 2 (min 512 (d.fld (F.ETH_LIM_BURST p))) * 1024 * 8 * 1000

/-- R245: ETH_LIM.RATE in Mbit/s, 1 to 950. -/
def Dev.limRate (d : Dev) (p : Nat) : Nat := max 1 (min 950 (d.fld (F.ETH_LIM_RATE p)))

/-- R245: what the bucket of port p holds at MONO t; it is full at reset. -/
def Dev.bucket (d : Dev) (t p : Nat) : Nat :=
  match d.net.counted.find? (fun q => q.1 == p) with
  | some q => min (d.bucketSize p) (Sparse.get (fun _ => 0) d.net.tokens p + (t - q.2) * d.limRate p)
  | none => d.bucketSize p

/-- R245: the bucket of port p set to x at MONO t. -/
def Dev.setBucket (d : Dev) (t p x : Nat) : Dev :=
  { d with net := { d.net with
    tokens := Sparse.set (fun _ => 0) d.net.tokens p x, counted := Sparse.ins p t d.net.counted } }

/-- R242: a frame that duplicate discard remembers is the same as one from src with tag r on the pair. -/
def Seen.same (x : Seen) (cd : Bool) (src : BitVec 48) (r : RedTag) : Bool :=
  x.cd == cd && x.src == src && x.seqNo == r.seqNo

/-- SWX_NODECNT: distinct source addresses that the pair remembers. -/
def Dev.nodeCount (d : Dev) (cd : Bool) : Nat :=
  ((d.net.seen.filter (fun x => x.cd == cd)).map (fun x => x.src)).eraseDups.length

/-- SWX_NODECNT follows the table. -/
def Dev.showNodes (d : Dev) : Dev :=
  (d.setFld F.SWX_NODECNT_AB (d.nodeCount false)).setFld F.SWX_NODECNT_CD (d.nodeCount true)

/-- SWX_RCNT of counter k, 0 to 3, of a pair. -/
def rcnt (cd : Bool) (k : Nat) : Nat := Reg.SWX_RCNT (k + 4 * b2n cd)

/-- R242: the node table of the pair has room for src: it holds 512 nodes. -/
def Dev.nodeFits (d : Dev) (cd : Bool) (src : BitVec 48) : Bool :=
  Nat.blt (d.nodeCount cd) 512 || d.net.seen.any (fun x => x.cd == cd && x.src == src)

/-- R242, R244: duplicate discard of a frame from src with tag r on port p at MONO t: the device after it, and whether the
frame goes on. A frame on the wrong LAN is counted. -/
def Dev.discard (d : Dev) (t p : Nat) (src : BitVec 48) (r : RedTag) : Dev × Bool :=
  let cd := decide (2 ≤ p)
  let d := if d.pairMode cd = 1 ∧ r.lanB ≠ (p % 2 == 1) then
      (d.incWrap (rcnt cd (1 + p % 2))).swxEvent t 104 else d
  if d.net.seen.any (fun x => x.same cd src r) then
    let seen := d.net.seen.map (fun x => if x.same cd src r then { x with twice := true } else x)
    (({ d with net := { d.net with seen := seen } }).incWrap (rcnt cd 0), false)
  else if !(d.nodeFits cd src) then (d, true)
  else
    let x : Seen := { cd := cd, src := src, seqNo := r.seqNo, at_ := t, twice := false }
    (({ d with net := { d.net with seen := d.net.seen ++ [x] } }).showNodes, true)

/-- ENTRY_FORGET_TIME: the oldest remembered frame reaches its 400 ms; one whose duplicate never came is counted
(R242, R272) and raises source 104 (R270). -/
def Dev.forgetOldest (t : Nat) (d : Dev) : Dev :=
  match d.net.seen with
  | x :: rest =>
    let d := ({ d with net := { d.net with seen := rest } }).showNodes
    if x.twice then d else (d.incWrap (rcnt x.cd 3)).swxEvent t 104
  | [] => d

/-- ENTRY_FORGET_TIME: a table entry is forgotten (R242). -/
def execEntryForgetTime (s : State) : Host.Outcome State Fault Refusal :=
  match s.dev.net.seen with
  | x :: _ => s.at (x.at_ + 400000000) Dev.forgetOldest
  | [] => .next s

/-- R256: Δ in units of 2^-16 ns of an event message that goes through the switch from port p. -/
def Dev.tcDelta (d : Dev) (p : Nat) (f : Frame) (sync : Bool) : Int :=
  ((f.residence : Int) + (if sync then ((d.rd (Reg.ETH_PDELAY p)).toNat : Int) + sgn (d.rd (Reg.ETH_ASYM p)) else 0)) *
    65536

/-- R256: a correctionField with Δ added; a sum beyond the signed range is written as the largest value. -/
def addCorr (c : BitVec 64) (x : Int) : BitVec 64 :=
  if inField (c.toInt + x) 64 then BitVec.ofInt 64 (c.toInt + x) else 0x7FFFFFFFFFFFFFFF

/-- R256: the transparent clock on a PTP message forwarded from port p: the device after it and the field sent on. -/
def Dev.forwardPtp (d : Dev) (p : Nat) (f : Frame) (m : PtpMsg) : Dev × BitVec 64 :=
  if d.flag (F.ETH_CFG_TCEN p) then
    match m.kind with
    | .sync false => (d, addCorr m.corr (d.tcDelta p f true))
    | .sync true =>
      ({ d with net := { d.net with twoStep := (m.key.toNat, d.tcDelta p f true) :: d.net.twoStep } }, m.corr)
    | .followUp =>
      match d.net.twoStep.find? (fun q => q.1 == m.key.toNat) with
      | some q =>
        ({ d with net := { d.net with twoStep := d.net.twoStep.filter (fun x => x.1 != m.key.toNat) } },
         addCorr m.corr q.2)
      | none => (d, m.corr)
    | .event => (d, addCorr m.corr (d.tcDelta p f false))
    | .general => (d, m.corr)
  else (d, m.corr)

/-- R243: the switch bridges a frame from port p: its VLAN is enabled. -/
def Dev.bridged (d : Dev) (f : Frame) : Bool :=
  d.flag F.SWX_CFG_BRIDGE && (List.range 8).any (fun k =>
    bitOf (d.rd (Reg.SWX_BRVLAN k)).toNat 31 && bitsOf (d.rd (Reg.SWX_BRVLAN k)).toNat 11 0 == f.vid.toNat)

/-- R242: a frame from port p travels on along the HSR ring; one to the pair address ends here. -/
def Dev.ringPasses (d : Dev) (p : Nat) (f : Frame) : Bool :=
  let cd := decide (2 ≤ p)
  d.pairMode cd == 2 && f.dmac.toNat != d.pairAddress cd

/-- R243: the proxy node table of a pair: the nodes of the other pair that the RedBox stands for. -/
def Dev.proxyNodes (d : Dev) (cd : Bool) : List (BitVec 48) := Sparse.get (fun _ => []) d.net.proxies (b2n cd)

/-- R243: the RedBox stands for a node toward the pair, while the table of 512 has room. -/
def Dev.learnProxy (d : Dev) (cd : Bool) (src : BitVec 48) : Dev :=
  let l := d.proxyNodes cd
  if d.pairMode cd = 0 ∨ l.contains src ∨ 512 ≤ l.length then d
  else { d with net := { d.net with proxies := Sparse.set (fun _ => []) d.net.proxies (b2n cd) (l ++ [src]) } }

/-- R256: what the transparent clock does to a frame from port p that goes through the switch. -/
def Dev.corrected (d : Dev) (p : Nat) (f : Frame) : Dev × Option (BitVec 64) :=
  match f.ptp with
  | some m => let x := d.forwardPtp p f m; (x.1, some x.2)
  | none => (d, none)

/-- R242: a frame from port p leaves through the other port of its ring at MONO t, its tag unchanged. -/
def Dev.passRing (d : Dev) (t p : Nat) (f : Frame) (corr : Option (BitVec 64)) : Dev :=
  Dev.transmit t (p / 2 * 2 + 1 - p % 2) (.forward p corr f.red) d

/-- R243: a frame from port p leaves through both ports of the other pair at MONO t, with a tag of that pair. -/
def Dev.crossBridge (d : Dev) (t p : Nat) (f : Frame) (corr : Option (BitVec 64)) : Dev :=
  let cd := decide (p < 2)
  let x := (d.learnProxy cd f.smac).takeSeq cd
  (pairPorts cd).foldl (fun d q => Dev.transmit t q (.forward p corr (tagOn q x.2)) d) x.1

/-- R242, R243, R256: a frame from port p goes through the switch at MONO t, on the ring, across the bridge or both. -/
def Dev.forward (d : Dev) (t p : Nat) (f : Frame) (ring bridge : Bool) : Dev :=
  if ring || bridge then
    let x := d.corrected p f
    let d := if ring then x.1.passRing t p f x.2 else x.1
    if bridge then d.crossBridge t p f x.2 else d
  else d

/-- The EtherTypes of GOOSE and Sampled Values (IEC 61850-8-1, 9-2). -/
def subscribedType (x : BitVec 16) : Bool := x == 0x88B8 || x == 0x88BA

/-- Word k of subscription i. -/
def Dev.subWord (d : Dev) (i k : Nat) : Nat := (Sparse.get (fun _ => 0) d.net.subWords (16 * i + k)).toNat

/-- R259: an entry of the subscription table listens on the pair and names the frame's address and VLAN. -/
def Dev.listens (d : Dev) (cd : Bool) (i : Nat) (dmac : BitVec 48) (vid : BitVec 12) : Bool :=
  let w := d.subWord i
  bitOf (w 0) 0 && bitOf (w 0) (if cd then 3 else 2) && w 1 == dmac.toNat % 2 ^ 32 &&
    bitsOf (w 2) 15 0 == dmac.toNat / 2 ^ 32 && bitsOf (w 2) 27 16 == vid.toNat

/-- Subscription i is one of Sampled Values. -/
def Dev.subIsSv (d : Dev) (i : Nat) : Bool := bitOf (d.subWord i 0) 1

/-- R259: the lowest-numbered entry that matches a frame on a pair. -/
def Dev.matchSub (d : Dev) (cd sv : Bool) (f : FrameId) : Option Nat :=
  (List.range 1024).find? (fun i =>
    d.listens cd i f.dmac f.vid && d.subIsSv i == sv && bitsOf (d.subWord i 0) 31 16 == f.appid.toNat &&
      d.subWord i 3 == f.idcrc.toNat)

/-- R259: an entry of the subscription table takes a frame on a pair. -/
def Dev.subscribed (d : Dev) (cd : Bool) (f : Frame) : Bool :=
  match f.app with
  | some a => subscribedType f.etherType &&
      (d.matchSub cd (f.etherType == 0x88BA) { dmac := f.dmac, vid := f.vid, appid := a.1, idcrc := a.2 }).isSome
  | none => false

/-- R240, R244: a frame from port p reaches its consumer at MONO t, with its ingress stamp. -/
def Dev.deliver (d : Dev) (t p : Nat) (f : Frame) : Dev := d.send t (.deliver p f.etherType (d.rxStamp t p))

/-- R242 to R244: step 6: where an ordinary frame from port p goes. What a subscription does with it is a step of its own.
A frame that is consumed is not bridged, and goes on along an HSR ring. -/
def Dev.ordinary (d : Dev) (t p : Nat) (f : Frame) : Dev :=
  let cd := decide (2 ≤ p)
  let taken := d.subscribed cd f || f.dmac.toNat == d.pairAddress cd || f.dmac == 0xFFFFFFFFFFFF
  let ring := d.ringPasses p f
  let bridge := !taken && d.bridged f
  if taken || ring || bridge then (if taken then d.deliver t p f else d).forward t p f ring bridge
  else d.incSat (Reg.ETH_FILTDROP p)

/-- R244: the 8 reserved descriptors of port p: how many are in use when a frame comes. -/
def Dev.rsvInUse (d : Dev) (p : Nat) (f : Frame) : Nat := Sparse.get (fun _ => 0) d.net.rsvUsed p - f.returned

/-- R244: so many reserved descriptors of port p are in use. -/
def Dev.setRsv (d : Dev) (p n : Nat) : Dev :=
  { d with net := { d.net with rsvUsed := Sparse.set (fun _ => 0) d.net.rsvUsed p n } }

/-- R242 to R244: step 5: a reserved frame goes to its consumer in a general descriptor, or in one of the 8 that the port
keeps; it travels on along an HSR ring, and a PTP message also across the bridge (R256). -/
def Dev.toConsumer (d : Dev) (t p : Nat) (f : Frame) : Dev :=
  let used := d.rsvInUse p f
  if f.general || Nat.blt used 8 then
    let d := d.setRsv p (if f.general then used else used + 1)
    (d.deliver t p f).forward t p f (d.ringPasses p f) (f.ptp.isSome && d.bridged f)
  else ((d.setRsv p used).incSat (Reg.ETH_RSVDROP p)).ethEvent t p 91

/-- R270: the HSR ring of a pair is found closed or open at MONO t; source 105 when that changes. -/
def Dev.setRing (d : Dev) (t : Nat) (cd closed : Bool) : Dev :=
  let f := if cd then F.SWX_STAT_RINGCD else F.SWX_STAT_RINGAB
  if d.flag f = closed then d else (d.setFld f (b2n closed)).swxEvent t 105

/-- R242: an own frame has come back round the HSR ring: it is removed, and the ring is closed. -/
def Dev.ownFrame (d : Dev) (t : Nat) (cd : Bool) : Dev :=
  ({ d with net := { d.net with ownSeen := if d.net.ownSeen.contains cd then d.net.ownSeen else cd :: d.net.ownSeen } }).setRing
    t cd true

/-- R244: steps 4 to 6 of a frame from port p. -/
def Dev.accept (d : Dev) (t p : Nat) (f : Frame) (rsv : Bool) : Dev :=
  let cd := decide (2 ≤ p)
  let x := match f.red with
    | some r =>
      if d.pairMode cd = 0 then (d, true)
      else if d.pairMode cd = 2 ∧ (f.smac.toNat = d.pairAddress cd ∨ (d.proxyNodes cd).contains f.smac) then
        (d.ownFrame t cd, false)
      else d.discard t p f.smac r
    | none => (d, true)
  if x.2 then (if rsv then x.1.toConsumer t p f else x.1.ordinary t p f) else x.1

/-- R244: a frame received on port p at MONO t. -/
def Dev.receive (p : Nat) (f : Frame) (t : Nat) (d : Dev) : Dev :=
  if d.flag (F.ETH_CFG_EN p) && d.flag (F.ETH_STAT_LINK p) then
    if !f.fcsOk || Nat.blt 1522 f.len then (d.incSat (Reg.ETH_RXERR p)).rxEvent t p
    else
      let d := d.incWrap (Reg.ETH_RXFRAMES p)
      if d.reserved p f then (d.incWrap (Reg.ETH_RSVFRAMES p)).accept t p f true
      else
        let have_ := d.bucket t p
        let need := f.len * 8 * 1000
        if need ≤ have_ then (d.setBucket t p (have_ - need)).accept t p f false
        else ((d.setBucket t p have_).incSat (Reg.ETH_RXLIMDROP p)).rxEvent t p
  else d

/-- FRAME_RECEIVE: dt ns pass, and a frame arrives on port p (R244). -/
def execFrameReceive (dt : Nat) (p : BitVec 2) (f : Frame) (s : State) : Host.Outcome State Fault Refusal :=
  s.event dt (Dev.receive p.toNat f)

/-- R242, R272: the destination of supervision frames: SWX_CFG.SUPMC is its last byte (assumption 98). -/
def Dev.supervisionAddr (d : Dev) : BitVec 48 := BitVec.ofNat 48 (0x01154E000100 + d.fld F.SWX_CFG_SUPMC)

/-- R242, R243: the supervision frame of a pair on both its ports at MONO t. -/
def Dev.sendSupervision (d : Dev) (t : Nat) (cd : Bool) : Dev :=
  let x := d.takeSeq cd
  (pairPorts cd).foldl (fun e p =>
    Dev.transmit t p (.supervision d.supervisionAddr (d.pairAddress cd) (d.proxyNodes cd) (tagOn p x.2)) e) x.1

/-- R242, R270: at a supervision interval at MONO t a pair in PRP or HSR mode sends its supervision frames; an HSR ring
from which no own frame has come back since the last interval is open (assumption 13). -/
def Dev.supervise (cd : Bool) (t : Nat) (d : Dev) : Dev :=
  if d.pairMode cd = 0 then d
  else
    let d := if d.pairMode cd = 2 then d.setRing t cd (d.net.ownSeen.contains cd) else d
    ({ d with net := { d.net with ownSeen := d.net.ownSeen.filter (fun x => x != cd) } }).sendSupervision t cd

/-- SUPERVISION_FRAME: the next 2,000 ms interval (R242). -/
def execSupervisionFrame (s : State) : Host.Outcome State Fault Refusal :=
  s.at ((s.mono / 2000000000 + 1) * 2000000000) (fun t d => Dev.supervise true t (Dev.supervise false t d))

/-! ## Subscriptions -/

/-- Word k of subscription i replaced. -/
def Dev.setSubWord (d : Dev) (i k : Nat) (v : Word) : Dev :=
  { d with net := { d.net with subWords := Sparse.set (fun _ => 0) d.net.subWords (16 * i + k) v } }

/-- Subscription i beside its words. -/
def Dev.sub (d : Dev) (i : Nat) : Sub := Sparse.get (fun _ => {}) d.net.subs i

/-- Subscription i changed by f. -/
def Dev.modSub (d : Dev) (i : Nat) (f : Sub → Sub) : Dev :=
  { d with net := { d.net with subs := Sparse.set (fun _ => {}) d.net.subs i (f (d.sub i)) } }

/-- R259: STATE of subscription i. -/
def Dev.subState (d : Dev) (i : Nat) : Nat := bitsOf (d.subWord i 8) 2 0

/-- R260: the first input image word of a GOOSE subscription. -/
def Dev.gooseWord (d : Dev) (i : Nat) : Nat := 0x2000 + bitsOf (d.subWord i 5) 10 0

/-- R262: the first input image word of the stream of a subscription. -/
def Dev.svWord (d : Dev) (i : Nat) : Nat := 0x1000 + 0x80 * bitsOf (d.subWord i 5) 4 0

/-- A word of the next input image generation. -/
def Dev.inWord (d : Dev) (w : Nat) : Nat := (Image.rd d.mem.inNext w).toNat

/-- A word of the next input image generation written. -/
def Dev.setInWord (d : Dev) (w v : Nat) : Dev :=
  { d with mem := { d.mem with inNext := Image.wr d.mem.inNext w (BitVec.ofNat 64 v) } }

/-- Bits hi to lo of an input image word replaced. -/
def Dev.putInBits (d : Dev) (w hi lo v : Nat) : Dev :=
  let x := d.inWord w
  d.setInWord w (x - bitsOf x hi lo * 2 ^ lo + v % 2 ^ (hi + 1 - lo) * 2 ^ lo)

/-- R261: the fast bits of GOOSE subscription i set to the low bits of v. -/
def Dev.setFastBits (d : Dev) (i v : Nat) : Dev :=
  let lo := bitsOf (d.subWord i 6) 8 0
  let n := bitsOf (d.subWord i 6) 14 9
  let m := (2 ^ n - 1) * 2 ^ lo
  { d with gooseBits := (d.gooseBits &&& ~~~(BitVec.ofNat 512 m)) ||| BitVec.ofNat 512 (v % 2 ^ n * 2 ^ lo) }

/-- R259, R260, R262: STATE of subscription i becomes s at MONO t, in its words and in the image; STALE, STORM and
CFGERR raise their source when they are entered. -/
def Dev.setSubState (d : Dev) (t i st : Nat) : Dev :=
  let was := d.subState i
  let d := d.setSubWord i 8 (BitVec.ofNat 32 st)
  let d := if d.subIsSv i then d.putInBits (d.svWord i) 6 4 st else d.putInBits (d.gooseWord i) 50 48 st
  let d := d.setMaskBit (Reg.SWX_SUBATTN 0) i (decide (3 ≤ st))
  let d := if d.subIsSv i ∨ st = 2 ∨ st = 5 then d else d.setFastBits i 0
  if was = st then d
  else if st = 3 then d.swxEvent t 106
  else if st = 5 then d.swxEvent t 107
  else if st = 4 then d.swxEvent t 108
  else d

/-- R259: word 11 counts: IGNORED in the low half and GAPS in the high half, saturating. -/
def Dev.subCount (d : Dev) (i n : Nat) (gaps : Bool) : Dev :=
  let w := d.subWord i 11
  let lo := w % 65536
  let hi := w / 65536
  d.setSubWord i 11 (BitVec.ofNat 32
    (if gaps then lo + min 65535 (hi + n) * 65536 else min 65535 (lo + n) + hi * 65536))

/-- R259: the range rules of an entry's words. -/
def subWordsOk (w : Nat → Nat) : Bool :=
  let sv := bitOf (w 0) 1
  let reserved0 := bitsOf (w 0) 15 6 == 0 && bitsOf (w 2) 31 28 == 0 && bitsOf (w 7) 31 24 == 0
  let burst := bitsOf (w 7) 23 16 != 0
  if sv then
    reserved0 && burst && bitsOf (w 5) 7 5 == 0 && bitsOf (w 5) 31 15 == 0 && bitsOf (w 6) 15 0 == 0 &&
      Nat.ble 1 (bitsOf (w 5) 12 8) && Nat.ble (bitsOf (w 5) 12 8) 16 &&
      Nat.ble 1 (bitsOf (w 6) 31 16) && Nat.ble (bitsOf (w 6) 31 16) 1000
  else
    let nmem := bitsOf (w 5) 16 11
    let n := bitsOf (w 6) 14 9
    reserved0 && burst && bitsOf (w 5) 31 17 == 0 && bitsOf (w 6) 31 15 == 0 &&
      Nat.ble 1 nmem && Nat.ble nmem 56 && Nat.ble (bitsOf (w 5) 10 0 + 1 + (nmem + 1) / 2) 0x800 &&
      Nat.ble n 32 && Nat.ble n nmem && Nat.ble (bitsOf (w 6) 8 0 + n) 512

/-- R261: fast bits of the written GOOSE entry are already mapped by another entry. -/
def Dev.fastClash (d : Dev) (i : Nat) (w : Nat → Nat) : Bool :=
  let lo := bitsOf (w 6) 8 0
  let n := bitsOf (w 6) 14 9
  !(bitOf (w 0) 1) && n != 0 && (List.range 1024).any (fun j =>
    j != i && !(d.subIsSv j) && bitsOf (d.subWord j 6) 14 9 != 0 &&
      Nat.blt lo (bitsOf (d.subWord j 6) 8 0 + bitsOf (d.subWord j 6) 14 9) &&
      Nat.blt (bitsOf (d.subWord j 6) 8 0) (lo + n))

/-- R259, R264: a write of an entry's configuration words is accepted in RUN only when it changes EN alone; prog: it is
a write that R481 takes as in PROGRAM. -/
def Dev.onlyEn (d : Dev) (prog : Bool) (old new : Nat → Nat) (n : Nat) : Bool :=
  prog || d.mode != .run || (List.range n).all (fun k => if k = 0 then old 0 / 2 == new 0 / 2 else old k == new k)

/-- R259: subscription i written at MONO t from SWX_SUBDATA; the reference of the mains angle may depend on it (R66). -/
def Dev.writeSub (d : Dev) (prog : Bool) (t i : Nat) : Dev :=
  let w (k : Nat) : Nat := (d.rd (Reg.SWX_SUBDATA k)).toNat
  if subWordsOk w && !(d.fastClash i w) && d.onlyEn prog (d.subWord i) w 8 then
    let d := if d.subState i = 0 then d else (d.setSubState t i 0)
    let d := forN 8 (fun k d => d.setSubWord i k (BitVec.ofNat 32 (w k))) d
    let d := d.modSub i (fun _ => { tokens := bitsOf (w 7) 23 16 * 1000000000, counted := t })
    ((d.setSubState t i (b2n (bitOf (w 0) 0))).setFld F.SWX_SUBCTL_ERR 0).checkRef t
  else d.setFld F.SWX_SUBCTL_ERR 1

/-- R272: SWX_SUBCTL written with v at MONO t; the access completes at once (assumption 12). -/
def Dev.subCtl (d : Dev) (prog : Bool) (t : Nat) (v : Word) : Dev :=
  let i := bitsOf v.toNat 9 0
  let d := (d.setFld F.SWX_SUBCTL_INDEX i).setFld F.SWX_SUBCTL_WR (b2n (bitOf v.toNat 17))
  if bitOf v.toNat 16 then
    if bitOf v.toNat 17 then d.writeSub prog t i
    else forN 12 (fun k d => d.wr (Reg.SWX_SUBDATA k) (BitVec.ofNat 32 (d.subWord i k))) d
  else d

/-- R263: the entry's bucket at MONO t, in 10^-9 frames. -/
def Dev.subTokens (d : Dev) (t i : Nat) : Nat :=
  min (bitsOf (d.subWord i 7) 23 16 * 1000000000) ((d.sub i).tokens + (t - (d.sub i).counted) * bitsOf (d.subWord i 7) 15 0)

/-- R263: the limiter of entry i at MONO t: the device after it, and whether the frame is admitted. -/
def Dev.limitSub (d : Dev) (t i : Nat) : Dev × Bool :=
  if bitsOf (d.subWord i 7) 15 0 = 0 then (d, true)
  else
    let x := d.subTokens t i
    if 1000000000 ≤ x then (d.modSub i (fun k => { k with tokens := x - 1000000000, counted := t }), true)
    else
      let d := d.modSub i (fun k => { k with tokens := x, counted := t, lastDrop := t })
      let d := d.setSubWord i 10 (BitVec.ofNat 32 (satInc 0xFFFFFFFF (d.subWord i 10)))
      (d.setSubState t i 5, false)

/-- R263: while the entry is in STORM and a drop lies less than a second back, its words keep their values. -/
def Dev.stormy (d : Dev) (t i : Nat) : Bool := d.subState i == 5 && Nat.blt t ((d.sub i).lastDrop + 1000000000)

/-- R260: a member as a 32-bit lane, and whether it is of a type that is not decoded. -/
def decodeMember : Member → Nat × Bool
  | .boolean b => (b2n b, false)
  | .bits l => if 32 < l.length then (0, true) else (l.reverse.foldl (fun x b => 2 * x + b2n b) 0, false)
  | .integer w v =>
    ((if w < 32 then (BitVec.ofInt 32 ((v.toNat % 2 ^ w : Nat) - (if bitOf v.toNat (w - 1) then 2 ^ w else 0 : Nat) : Int))
      else v).toNat, false)
  | .unsigned v => (v.toNat, false)
  | .float v => (v.toNat, false)
  | .other => (0, true)

/-- R10: the receive store keeps the words of the last frame of entry i. -/
def Dev.storeFrame (d : Dev) (i : Nat) (l : List Word) : Dev :=
  { d with mem := { d.mem with store := Sparse.set (fun _ => []) d.mem.store i l } }

/-- R260: the members of a frame of entry i enter the next input image. -/
def Dev.putMembers (d : Dev) (i : Nat) (l : List Nat) : Dev :=
  let w0 := d.gooseWord i
  forN (bitsOf (d.subWord i 5) 16 11) (fun m d =>
    let lo := 32 * (m % 2)
    d.putInBits (w0 + 1 + m / 2) (lo + 31) lo (l.getD m 0)) d

/-- R260, R261: a frame of GOOSE subscription i is applied at MONO t. -/
def Dev.applyGoose (d : Dev) (t i : Nat) (f : GooseFrame) : Dev :=
  let n := bitsOf (d.subWord i 5) 16 11
  let ms := (f.members.take n).map decodeMember
  let l := ms.map (fun p => p.1)
  let d := if (d.sub i).applied ∧ f.stNum ≠ BitVec.ofNat 32 (d.subWord i 9) ∧
      f.stNum ≠ BitVec.ofNat 32 (d.subWord i 9 + 1) then d.subCount i 1 true else d
  let d := d.setSubWord i 9 f.stNum
  let d := d.modSub i (fun k => { k with
    sqNum := f.sqNum, applied := true, staleAt := some (t + f.ttl.toNat * 1000000) })
  let d := (d.putMembers i l).storeFrame i (l.map (BitVec.ofNat 32))
  let d := d.setInWord (d.gooseWord i) (f.stNum.toNat + f.sqNum.toNat % 65536 * 2 ^ 32 + b2n f.test * 2 ^ 51 +
    b2n f.sim * 2 ^ 52 + b2n (ms.any (fun p => p.2)) * 2 ^ 53)
  let d := d.setSubState t i 2
  d.setFastBits i ((List.range 32).foldl (fun x m => x + l.getD m 0 % 2 * 2 ^ m) 0)

/-- R260: a GOOSE frame on a pair at MONO t. -/
def Dev.goose (cd : Bool) (f : GooseFrame) (t : Nat) (d : Dev) : Dev :=
  match d.matchSub cd false f.id with
  | none => d
  | some i =>
    let x := d.limitSub t i
    let d := x.1
    if !x.2 || d.stormy t i then d
    else if f.confRev.toNat ≠ d.subWord i 4 ∨ f.ndsCom then d.setSubState t i 4
    else if (f.test && !(bitOf (d.subWord i 0) 4)) || (f.sim && !(bitOf (d.subWord i 0) 5)) ||
        ((d.sub i).applied && f.stNum.toNat == d.subWord i 9 && f.sqNum == (d.sub i).sqNum) then
      d.subCount i 1 false
    else d.applyGoose t i f

/-- GOOSE_RECEIVED: dt ns pass, and a GOOSE frame reaches the subscriptions of a pair (R260). -/
def execGooseReceived (dt : Nat) (cd : Bool) (f : GooseFrame) (s : State) : Host.Outcome State Fault Refusal :=
  s.event dt (Dev.goose cd f)

/-- R262: samples per second of a stream subscription. -/
def Dev.svRate (d : Dev) (i : Nat) : Nat :=
  match bitsOf (d.subWord i 5) 14 13 with | 0 => 4000 | 1 => 4800 | 2 => 12800 | _ => 14400

/-- R262: one ASDU enters the next slot of its stream at MONO t. -/
def Dev.applyAsdu (i t : Nat) (d : Dev) (a : Asdu) : Dev :=
  let w0 := d.svWord i
  let rate := d.svRate i
  let gap := if (d.sub i).applied then (a.smpCnt.toNat + rate - (d.subWord i 9 + 1) % rate) % rate else 0
  let slot := if (d.sub i).applied then (d.inWord w0 % 16 + 1) % 14 else 0
  let st := d.station t
  let ofs := a.smpCnt.toNat * 1000000000 / rate
  let sec := if st / 1000000000 * 1000000000 + ofs ≤ st then st / 1000000000 else st / 1000000000 - 1
  let nch := bitsOf (d.subWord i 5) 12 8
  let lane (c : Nat) : Nat := if c < nch then (a.values.getD c 0).toNat else 0
  let d := if gap = 0 then d else d.subCount i gap true
  let d := d.modSub i (fun k => { k with
    applied := true, missing := min 65535 (k.missing + gap),
    staleAt := some (t + bitsOf (d.subWord i 6) 31 16 * 1000000) })
  let d := d.setSubWord i 9 (a.smpCnt.zeroExtend 32)
  let d := d.setInWord w0 (slot + bitsOf (d.inWord w0) 6 4 * 16 + (d.sub i).missing * 2 ^ 16 + sec % 2 ^ 32 * 2 ^ 32)
  let d := d.setInWord (w0 + 1) (ofs + d.tq t * 2 ^ 30)
  let s0 := w0 + 2 + 9 * slot
  let d := d.setInWord s0 (a.smpCnt.toNat + a.good.toNat * 2 ^ 16 + a.synch.toNat * 2 ^ 48 + 2 ^ 50)
  forN 8 (fun k d => d.setInWord (s0 + 1 + k) (lane (2 * k) + lane (2 * k + 1) * 2 ^ 32)) d

/-- R262: a Sampled Values frame on a pair at MONO t. -/
def Dev.sv (cd : Bool) (f : SvFrame) (t : Nat) (d : Dev) : Dev :=
  match d.matchSub cd true f.id with
  | none => d
  | some i =>
    let x := d.limitSub t i
    let d := x.1
    if !x.2 || d.stormy t i then d
    else if f.confRev.toNat ≠ d.subWord i 4 then d.setSubState t i 4
    else if f.sim && !(bitOf (d.subWord i 0) 5) then d.subCount i 1 false
    else ((f.asdus.foldl (Dev.applyAsdu i t) d).storeFrame i (f.asdus.flatMap (fun a => a.values))).setSubState t i 2

/-- SV_RECEIVED: dt ns pass, and a Sampled Values frame reaches the subscriptions of a pair (R262). -/
def execSvReceived (dt : Nat) (cd : Bool) (f : SvFrame) (s : State) : Host.Outcome State Fault Refusal :=
  s.event dt (Dev.sv cd f)

/-- R260, R262: subscription i becomes STALE at MONO t. -/
def Dev.goStale (i t : Nat) (d : Dev) : Dev :=
  (d.modSub i (fun k => { k with staleAt := none })).setSubState t i 3

/-- GOOSE_STALE: the timeAllowedtoLive of the last applied frame of a GOOSE subscription passes (R260). -/
def execGooseStale (i : BitVec 10) (s : State) : Host.Outcome State Fault Refusal :=
  match (s.dev.sub i.toNat).staleAt, s.dev.subIsSv i.toNat with
  | some m, false => s.at m (Dev.goStale i.toNat)
  | _, _ => .next s

/-- SV_STALE: TIMEOUT ms pass without a sample of a stream (R262). -/
def execSvStale (i : BitVec 10) (s : State) : Host.Outcome State Fault Refusal :=
  match (s.dev.sub i.toNat).staleAt, s.dev.subIsSv i.toNat with
  | some m, true => s.at m (Dev.goStale i.toNat)
  | _, _ => .next s

/-! ## Publications -/

/-- Word k of publication e. -/
def Dev.pubWord (d : Dev) (e k : Nat) : Nat := (Sparse.get (fun _ => 0) d.net.pubWords (32 * e + k)).toNat

/-- Word k of publication e replaced. -/
def Dev.setPubWord (d : Dev) (e k : Nat) (v : Word) : Dev :=
  { d with net := { d.net with pubWords := Sparse.set (fun _ => 0) d.net.pubWords (32 * e + k) v } }

/-- Publication e beside its words. -/
def Dev.pub (d : Dev) (e : Nat) : Pub := Sparse.get (fun _ => {}) d.net.pubs e

/-- Publication e changed by f. -/
def Dev.modPub (d : Dev) (e : Nat) (f : Pub → Pub) : Dev :=
  { d with net := { d.net with pubs := Sparse.set (fun _ => {}) d.net.pubs e (f (d.pub e)) } }

/-- The publication gate (R267). -/
def Dev.gateOpen (d : Dev) : Bool := d.flag F.SWX_STAT_PUBGATE

/-- R264: the encoding of a member of a dataset: its 32-bit value under its MTYPE. -/
def encodeMember (ty : Nat) (v : Word) : Member :=
  let bits (n : Nat) : Member := .bits ((List.range n).map v.getLsbD)
  match ty with
  | 0 => .boolean (v.getLsbD 0)
  | 1 => bits 2
  | 2 => .integer 32 v
  | 3 => .unsigned v
  | 4 => .float v
  | 5 => bits 13
  | _ => bits 32

/-- R265: the output image words of GOOSE dataset e. -/
def Dev.pubWords (d : Dev) (e : Nat) : List Nat :=
  (List.range ((bitsOf (d.pubWord e 6) 5 0 + 1) / 2)).map (fun k => 0x100 + 28 * e + k)

/-- R265: the members of GOOSE dataset e as they are encoded; none while regions that hold them are SAFE. -/
def Dev.members (d : Dev) (e : Nat) : Option (List Member) :=
  if (d.pubWords e).any d.wordSafe then none
  else some ((List.range (bitsOf (d.pubWord e 6) 5 0)).map (fun m =>
    encodeMember (bitsOf (d.pubWord e (8 + m / 8)) (4 * (m % 8) + 3) (4 * (m % 8)))
      (BitVec.ofNat 32 ((Image.rd d.mem.out (0x100 + 28 * e + m / 2)).toNat / 2 ^ (32 * (m % 2))))))

/-- R264: what a frame of publication e takes from its entry and its template. -/
def Dev.pubHead (d : Dev) (e : Nat) : PubHead :=
  { test := bitOf (d.pubWord e 0) 3, pcp := bitsOf (d.pubWord e 0) 6 4, appid := bitsOf (d.pubWord e 0) 31 16,
    dmac := d.pubWord e 1 + bitsOf (d.pubWord e 2) 15 0 * 2 ^ 32, vid := bitsOf (d.pubWord e 2) 27 16,
    confRev := d.pubWord e 3,
    template := Memory.rdBytes d.mem.net (bitsOf (d.pubWord e 5) 15 0 * 64) (bitsOf (d.pubWord e 5) 26 16) }

/-- R264, R267: PSTATE of publication e. -/
def Dev.pstate (d : Dev) (e : Nat) : Nat :=
  if !(bitOf (d.pubWord e 0) 0) then 0
  else if !d.gateOpen then 1
  else if decide (e < 64) && (d.members e).isNone then 3
  else 2

/-- PSTATE of every publication shown in its words. -/
def Dev.showPubs (d : Dev) : Dev :=
  forN 72 (fun e d =>
    if d.pubWord e 30 = d.pstate e then d else d.setPubWord e 30 (BitVec.ofNat 32 (d.pstate e))) d

/-- R264: the range rules of a publication entry. -/
def pubWordsOk (sv : Bool) (w : Nat → Nat) : Bool :=
  let common := bitsOf (w 0) 15 7 == 0 && bitsOf (w 2) 31 28 == 0 && w 7 == 0 && Nat.ble (bitsOf (w 5) 26 16) 1500 &&
    bitsOf (w 5) 31 27 == 0
  if sv then
    common && Nat.ble 1 (bitsOf (w 4) 3 0) && Nat.ble (bitsOf (w 4) 3 0) 8 && Nat.ble 120 (bitsOf (w 4) 19 8) &&
      Nat.ble (bitsOf (w 4) 19 8) 2000 && bitsOf (w 4) 7 4 == 0 && bitsOf (w 4) 31 20 == 0 && w 6 == 0 &&
      (List.range 16).all (fun c => bitsOf (w (8 + c)) 6 5 == 0) && (List.range 4).all (fun k => w (24 + k) == 0)
  else
    let n := bitsOf (w 6) 5 0
    common && Nat.ble 1 (bitsOf (w 4) 15 0) && Nat.ble (bitsOf (w 4) 15 0) 1000 && Nat.ble 100 (bitsOf (w 4) 31 16) &&
      Nat.ble (bitsOf (w 4) 31 16) 60000 && Nat.ble 1 n && Nat.ble n 56 && bitsOf (w 6) 31 6 == 0 &&
      (List.range n).all (fun m => Nat.ble (bitsOf (w (8 + m / 8)) (4 * (m % 8) + 3) (4 * (m % 8))) 6) &&
      (List.range 13).all (fun k => w (15 + k) == 0)

/-- R264: publication e written at MONO t from SWX_PUBDATA. -/
def Dev.writePub (d : Dev) (prog : Bool) (t e : Nat) : Dev :=
  let w (k : Nat) : Nat := (d.rd (Reg.SWX_PUBDATA k)).toNat
  if e < 72 ∧ pubWordsOk (decide (64 ≤ e)) w ∧ d.onlyEn prog (d.pubWord e) w 28 then
    let d := forN 28 (fun k d => d.setPubWord e k (BitVec.ofNat 32 (w k))) d
    let d := d.modPub e (fun p => if bitOf (w 0) 0 then { p with next := if 64 ≤ e then none else some t, step := 0, sent := d.io.tlCount }
      else { p with next := none })
    d.showPubs.setFld F.SWX_PUBCTL_ERR 0
  else d.setFld F.SWX_PUBCTL_ERR 1

/-- R272: SWX_PUBCTL written with v at MONO t; the access completes at once (assumption 12). -/
def Dev.pubCtl (d : Dev) (prog : Bool) (t : Nat) (v : Word) : Dev :=
  let e := bitsOf v.toNat 6 0
  let d := (d.setFld F.SWX_PUBCTL_INDEX e).setFld F.SWX_PUBCTL_WR (b2n (bitOf v.toNat 17))
  if bitOf v.toNat 16 then
    if bitOf v.toNat 17 then d.writePub prog t e
    else forN 32 (fun k d => d.wr (Reg.SWX_PUBDATA k) (BitVec.ofNat 32 (d.pubWord e k))) d
  else d

/-! ## Launch-time queues -/

/-- R264: LATE of a publication. -/
def Dev.pubLate (d : Dev) (t e : Nat) : Dev :=
  (d.setPubWord e 31 (BitVec.ofNat 32 (satInc 0xFFFFFFFF (d.pubWord e 31)))).swxEvent t 110

/-- The publication that a frame belongs to. -/
def LaunchSrc.pub? : LaunchSrc → Option Nat
  | .host _ _ _ => none
  | .goose e _ _ _ _ _ _ => some e
  | .sv e _ _ _ _ => some (64 + e)
  | .ptp _ => none

/-- R268, R269: a descriptor enters queue q of port p, to be late when its predecessor launches after it; a full queue of
64 takes none, and a publication's frame is then dropped. -/
def Dev.post (d : Dev) (t p q : Nat) (x : Launch) : Dev :=
  if d.flag (F.ETH_LQCFG_EN p q) then
    if (d.launchQ p q).length < 64 then
      let behind := match (d.launchQ p q).getLast? with | some y => decide (x.at_ < y.at_) | none => false
      d.setLaunchQ p q (d.launchQ p q ++ [{ x with late := behind }])
    else match x.src.pub? with | some e => d.pubLate t e | none => d
  else d

/-- R264, R267: a publication's frame goes to the launch queues of the ports of its pairs, unless the gate is closed. -/
def Dev.postPub (d : Dev) (t e q : Nat) (x : Launch) : Dev :=
  if d.gateOpen then
    [false, true].foldl (fun d cd =>
      if bitOf (d.pubWord e 0) (1 + b2n cd) then
        let y := d.takeSeq cd
        (pairPorts cd).foldl (fun d p => d.post t p q { x with tag := tagOn p y.2 }) y.1
      else d) d
  else d

/-- R242, R268: a frame that is posted for port p alone, with a tag of its pair. -/
def Dev.postOne (d : Dev) (t p q : Nat) (x : Launch) : Dev :=
  let y := d.takeSeq (decide (2 ≤ p))
  y.1.post t p q { x with tag := tagOn p y.2 }

/-- R329: an egress stamp as two words: nanoseconds, and the low word of the seconds. -/
def stampBytes (ns : Nat) : List Byte := leBytes (ns % 1000000000) 4 ++ leBytes (ns / 1000000000) 4

/-- R247: the low 48 bits of the seconds and the nanoseconds of a stamp in a PTP message. -/
def PtpSent.stamped (m : PtpSent) (ns : Nat) : PtpSent :=
  { m with sec := BitVec.ofNat 48 (ns / 1000000000), ns := ns % 1000000000 }

/-- R255, R267: the closed publication gate stops a frame at its launch queue: GOOSE and SV frames, and the Announce and
Sync messages of a port whose own clock is grandmaster. -/
def Dev.gated (d : Dev) (t : Nat) (x : LaunchSrc) : Bool :=
  !d.gateOpen &&
    (match x with
     | .goose _ _ _ _ _ _ _ => true
     | .sv _ _ _ _ _ => true
     | .host _ _ _ => false
     | .ptp m =>
       (match m.body with
        | .sync _ => true
        | .announce _ => true
        | _ => false) &&
         (match d.domainOf (BitVec.ofNat 8 m.domain) with | some k => d.ownBest t k | none => false))

/-- R240, R253, R268: what a launched frame of port p makes at MONO t beside itself: the egress stamp that its poster asked
for, and the Follow_Up of a Sync in two steps. -/
def Dev.afterLaunch (d : Dev) (t p : Nat) (x : LaunchSrc) (dropped : Bool) : Dev :=
  let stamp := d.txStampAt t p
  match x with
  | .host _ _ (some dest) =>
    if dropped then d.reply t dest 8 [] else (d.send t (.txStamp p stamp)).reply t dest 0 (stampBytes stamp)
  | .ptp m =>
    match m.body with
    | .sync true => if dropped then d else Dev.transmit t p (.ptp ({ m with body := .followUp }.stamped stamp)) d
    | _ => d
  | _ => d

/-- What a frame carries when it leaves port p at MONO t: a PTP message its egress stamp. -/
def Dev.sealSrc (d : Dev) (t p : Nat) : LaunchSrc → LaunchSrc
  | .ptp m => .ptp (m.stamped (d.txStampAt t p))
  | x => x

/-- R269: the head of queue q of port p leaves it at MONO t: in time, or late and sent or dropped; one that the publication
gate stops is not sent. -/
def Dev.launch (p q : Nat) (x : Launch) (t : Nat) (d : Dev) : Dev :=
  let d := d.setLaunchQ p q ((d.launchQ p q).drop 1)
  if d.gated t x.src then Dev.releaseHeld t p d
  else
    let late := x.late || Nat.blt (x.at_ + d.fld (F.ETH_LQCFG_LATETOL p q) * 8) (d.station t)
    let drop := late && d.flag (F.ETH_LQCFG_LATEPOL p q)
    let d := if late then
        let d := (d.incFld (if drop then F.ETH_LQSTAT_DROPCNT p q else F.ETH_LQSTAT_LATECNT p q)).ethEvent t p 90
        match x.src.pub? with | some e => d.pubLate t e | none => d
      else d
    let d := if drop then d
      else (d.incWrap (Reg.ETH_TXFRAMES p)).send t (.frame p (d.sealSrc t p x.src) late x.tag)
    Dev.releaseHeld t p (d.afterLaunch t p x.src drop)

/-- LAUNCH: station time reaches the launch time of the next frame of port p (R269), and SECDED corrects an error of the
network buffers or none (R11). A disabled port sends none. -/
def execLaunch (x : LaunchRead) (s : State) : Host.Outcome State Fault Refusal :=
  let p := x.port.toNat
  match s.dev.nextLaunch p with
  | some (q, l) =>
    if s.dev.flag (F.ETH_CFG_EN p) then
      s.at (s.dev.whenStation s.mono l.at_) (fun t d =>
        Dev.launch p q l t (if x.corrected then d.eccCorrected 3 0 else d))
    else .next s
  | none => .next s

/-! ## PTP messages that the 9060 sends (R253, R255, R256) -/

/-- R253: a PTP message of domain k. -/
def Dev.ptpSent (d : Dev) (k : Nat) (b : PtpBody) : PtpSent :=
  { domain := d.fld (F.PTP_DCFG_DOMAIN k), c37 := d.flag (F.PTP_DCFG_PROFILE k), body := b }

/-- R253, R255: the data set that a port of domain k announces: the own clock, or the foreign grandmaster one step on. -/
def Dev.announced (d : Dev) (t k : Nat) : Announce :=
  match (d.dom k).best with
  | some a => if d.ownBest t k then d.ownClock t k else { a with steps := a.steps + 1 }
  | none => d.ownClock t k

/-- R268: a PTP message enters launch queue 5 of port p at MONO t. -/
def Dev.postPtp (d : Dev) (t p : Nat) (m : PtpSent) : Dev := d.post t p 5 { at_ := d.station t, src := .ptp m }

/-- R253, R255: what the 9060 sends of its own at a message interval: Pdelay_Req on every PTP port, Sync and Announce
on those in state MASTER. -/
def Dev.ptpInterval (t : Nat) (d : Dev) : Dev :=
  let d := d.settlePorts t
  forN 2 (fun k d => forN 4 (fun p d =>
    let st := d.portState t k p
    let d := if st = 3 then d else d.postPtp t p (d.ptpSent k .pdelayReq)
    if st = 6 then
      (d.postPtp t p (d.ptpSent k (.sync (d.flag F.PTP_CFG_TWOSTEP)))).postPtp t p (d.ptpSent k (.announce (d.announced t k)))
    else d) d) d

/-- PTP_MESSAGE_INTERVAL: the next 1 s message interval begins. -/
def execPtpMessageInterval (s : State) : Host.Outcome State Fault Refusal :=
  s.at ((s.mono / 1000000000 + 1) * 1000000000) Dev.ptpInterval

/-- R256: port p answers a Pdelay_Req, and its own exchange of round trip rtt and turnaround turn gives meanLinkDelay. -/
def Dev.pdelay (p rtt turn t : Nat) (d : Dev) : Dev :=
  if d.flag (F.ETH_CFG_PTPEN p) then
    let k := if d.ptpPort 0 p then 0 else 1
    Dev.transmit t p (.ptp ((d.ptpSent k .pdelayResp).stamped (d.txStampAt t p)))
      ((d.wr (Reg.ETH_PDELAY p) (BitVec.ofNat 32 ((rtt - turn) / 2))).setFld (F.PTP_PSTAT_PDVALID p) 1)
  else d

/-- PDELAY_REQ: dt ns pass, and a peer delay exchange completes on port p (R256). -/
def execPdelayReq (dt : Nat) (p : BitVec 2) (rtt turn : Nat) (s : State) : Host.Outcome State Fault Refusal :=
  s.event dt (Dev.pdelay p.toNat rtt turn)

/-! ## GOOSE and SV frames -/

/-- R265: the interval in ms of step k of the retransmission sequence: T1, T1, 2 × T1, 4 × T1 and so on up to TMAX. -/
def Dev.gooseInterval (d : Dev) (e k : Nat) : Nat :=
  let t1 := bitsOf (d.pubWord e 4) 15 0
  let tmax := bitsOf (d.pubWord e 4) 31 16
  min tmax (if k = 0 then t1 else t1 * 2 ^ min 16 (k - 1))

/-- R265: a frame of dataset e with members l is launched at MONO t, with the t of its change; interval ms pass until the
next. -/
def Dev.sendGoose (d : Dev) (t e : Nat) (l : List Member) (interval : Nat) : Dev :=
  let src := LaunchSrc.goose e (d.pubHead e) (BitVec.ofNat 32 (d.pubWord e 28)) (BitVec.ofNat 32 (d.pubWord e 29))
    (2 * interval) (d.pub e).t l
  let x : Launch := { at_ := d.station t, src := src }
  let d := d.modPub e (fun p => { p with
    last := some l, next := some (t + interval * 1000000), interval := interval })
  d.postPub t e 6 x

/-- R265: dataset e starts a new sequence with members l at MONO t. -/
def Dev.newGoose (d : Dev) (t e : Nat) (stNum : Word) (l : List Member) : Dev :=
  let d := (d.setPubWord e 28 stNum).setPubWord e 29 0
  (d.modPub e (fun p => { p with step := 0, t := d.station t })).sendGoose t e l (d.gooseInterval e 0)

/-- R265: after a commit of words ws became effective at MONO t: every dataset that it writes and changes publishes. -/
def Dev.gooseCommit (d : Dev) (t : Nat) (ws : List (Nat × Word64)) : Dev :=
  let d := forN 64 (fun e d =>
    if bitOf (d.pubWord e 0) 0 && ws.any (fun p => Nat.ble (0x100 + 28 * e) p.1 && Nat.blt p.1 (0x11C + 28 * e)) then
      match d.members e with
      | some l => if (d.pub e).last = some l then d else d.newGoose t e (BitVec.ofNat 32 (d.pubWord e 28) + 1) l
      | none => d
    else d) d
  d.showPubs

/-- R265: the next retransmission of dataset e at MONO t; a frozen dataset repeats its last frame at the TMAX
interval. -/
def Dev.gooseAgain (e t : Nat) (d : Dev) : Dev :=
  if bitOf (d.pubWord e 0) 0 then
    let frozen := (d.members e).isNone
    let l := match (d.pub e).last with
      | some l => l
      | none => (match d.members e with | some l => l | none => [])
    let k := (d.pub e).step + 1
    let iv := if frozen then bitsOf (d.pubWord e 4) 31 16 else d.gooseInterval e k
    let d := d.setPubWord e 29 (BitVec.ofNat 32 (d.pubWord e 29) + 1)
    ((d.modPub e (fun p => { p with step := k })).sendGoose t e l iv).showPubs
  else d

/-- GOOSE_RETRANSMIT: the interval to the next frame of a GOOSE dataset expires (R265). -/
def execGooseRetransmit (e : BitVec 6) (s : State) : Host.Outcome State Fault Refusal :=
  match (s.dev.pub e.toNat).next with
  | some m => s.at m (Dev.gooseAgain e.toNat)
  | none => .next s

/-- R266: smpSynch for a time quality code. -/
def smpSynch (tq : Nat) : Nat := if tq ≤ 1 then 2 else if tq = 2 then 1 else 0

/-- R266: the values of one time-locked set, slot k of the window of image im, for stream e, and the channels in
fault. -/
def Dev.svSample (d : Dev) (im : Image) (e k : Nat) : List Word × Nat :=
  let word (w : Nat) : Nat := (Image.rd im w).toNat
  let w0 := 0x910 + 16 * k
  let chans := (List.range 16).filter (fun c => bitOf (d.pubWord (64 + e) (8 + c)) 7)
  let value (c : Nat) : Word :=
    let cfg := d.pubWord (64 + e) (8 + c)
    let a := cfg % 32
    let s := (BitVec.ofNat 32 (word (w0 + 3 + a / 2) / 2 ^ (32 * (a % 2)))).toInt
    ofInt32 (saturate (rnd .rhe (s * (cfg / 256 : Nat)) 8) 32)
  let faults := chans.foldl (fun x c => x + b2n (bitOf (word (w0 + 15)) (d.pubWord (64 + e) (8 + c) % 32)) * 2 ^ c) 0
  (chans.map value, faults)

/-- R266: a frame of stream e with its last NOASDU samples is queued at MONO t. -/
def Dev.svPublish (e t : Nat) (d : Dev) : Dev :=
  let n := bitsOf (d.pubWord (64 + e) 4) 3 0
  let now := d.io.tlCount
  if bitOf (d.pubWord (64 + e) 0) 0 && n != 0 && Nat.ble n (now - (d.pub (64 + e)).sent).toNat then
    let slots := (List.range n).reverse
    let im := d.withSets
    let word (w : Nat) : Nat := (Image.rd im w).toNat
    let last := word 0x912 * 1000000000 + word 0x911 % 2 ^ 30
    let first := word (0x911 + 16 * (n - 1)) / 2 ^ 48
    let src := LaunchSrc.sv e (d.pubHead (64 + e)) first (smpSynch (d.tq t)) (slots.map (d.svSample im e))
    let x : Launch := { at_ := last + bitsOf (d.pubWord (64 + e) 4) 19 8 * 1000, src := src }
    (d.modPub (64 + e) (fun p => { p with sent := now })).postPub t (64 + e) 7 x
  else d

/-- SV_PUBLISH: NOASDU time-locked samples of stream e are gathered, and their frame is queued (R266). -/
def execSvPublish (e : BitVec 3) (s : State) : Host.Outcome State Fault Refusal := s.upd (Dev.svPublish e.toNat)

/-! ## The publication gate (R267) -/

/-- R267, R270: the publication gate opens or closes at MONO t. -/
def Dev.setGate (d : Dev) (t : Nat) (open_ : Bool) : Dev :=
  if d.gateOpen = open_ then d
  else ((((d.setFld F.SWX_STAT_PUBGATE (b2n open_)).swxEvent t 109).showPubs).settlePorts t)

/-- R267: at MONO t a member that takes publication begins every dataset one above the carried stNum. -/
def Dev.takePublication (d : Dev) (t : Nat) (stNum : Nat → Word) : Dev :=
  forN 64 (fun e d =>
    if bitOf (d.pubWord e 0) 0 then
      match d.members e with
      | some l => d.newGoose t e (stNum e + 1) l
      | none => (d.setPubWord e 28 (stNum e + 1)).setPubWord e 29 0
    else d) d

/-- R267: stNum of all 64 datasets. -/
def Dev.stNums (d : Dev) : List Word := (List.range 64).map (fun e => BitVec.ofNat 32 (d.pubWord e 28))

end Sys2Proof.Machine
end

