-- ==== Sys2Proof/Machine/Can.lean ====
section
/-!
DEFINITION. The panel bus: the CAN channels (R274 to R283) and the station engine of the Frelupo satellite protocol
(R284 to R292), and the version negotiation that every link uses (R336, R338).
-/
namespace Sys2Proof

/-- R276: what decides arbitration: the base part, then base before extended, then the extension; the lowest wins. -/
def CanFrame.priority (f : CanFrame) : Nat :=
  if f.ide then f.id.toNat / 2 ^ 18 * 2 ^ 19 + 2 ^ 18 + f.id.toNat % 2 ^ 18 else f.id.toNat % 2 ^ 11 * 2 ^ 19

/-- R276: the frame lies in the command range. -/
def CanFrame.isCommand (f : CanFrame) : Bool := !f.ide && decide (f.id.toNat % 2 ^ 11 < 16)

/-- The type and the station of an engine frame; 0 for a frame in base format. -/
def CanFrame.etype (f : CanFrame) : Nat := if f.ide then bitsOf f.id.toNat 28 25 else 0
def CanFrame.esta (f : CanFrame) : Nat := bitsOf f.id.toNat 24 21

end Sys2Proof

namespace Sys2Proof.Machine

/-! ## Version negotiation (R336, R338) -/

/-- R336: the result of a negotiation of two ranges in the layout of SYS_IFVER, searched over count majors down from
top; none is version parley. -/
def negotiateFrom (a b : Nat) (top : Nat) : Nat → Option (Nat × Nat)
  | 0 => none
  | count + 1 =>
    let hi (r : Nat) : Nat := if top = bitsOf r 15 8 then bitsOf r 7 0 else 255
    let lo (r : Nat) : Nat := if top = bitsOf r 31 24 then bitsOf r 23 16 else 0
    let m := min (hi a) (hi b)
    if lo a ≤ m ∧ lo b ≤ m then some (top, m) else negotiateFrom a b (top - 1) count

/-- R336: MIN_MAJ in [31:24], MIN_MIN in [23:16], MAX_MAJ in [15:8], MAX_MIN in [7:0] of SYS_IFVER. -/
def negotiate (a b : Word) : Option (Nat × Nat) :=
  let top := min (bitsOf a.toNat 15 8) (bitsOf b.toNat 15 8)
  let bottom := max (bitsOf a.toNat 31 24) (bitsOf b.toNat 31 24)
  negotiateFrom a.toNat b.toNat top (top + 1 - bottom)

/-- R338, R339: bit i of HST_PARLEY takes a value at MONO t; source 190 when it changes. -/
def Dev.setParley (d : Dev) (t i : Nat) (b : Bool) : Dev :=
  if d.bit Reg.HST_PARLEY i = b then d else (d.setBit Reg.HST_PARLEY i b).raiseFlag t 190 Reg.HST_EVT 2

/-! ## Channels -/

/-- CAN channel n beside its registers. -/
def Dev.chan (d : Dev) (n : Nat) : Can := Sparse.get (fun _ => {}) d.can n

/-- CAN channel n changed by f. -/
def Dev.modChan (d : Dev) (n : Nat) (f : Can → Can) : Dev :=
  { d with can := Sparse.set (fun _ => {}) d.can n (f (d.chan n)) }

/-- R292: event source 120 + k + 4 × n, k from 0 to 3, with its bit of CANn_STAT.FLAGS. -/
def Dev.canEvent (d : Dev) (t n k : Nat) : Dev := d.raiseFlag t (120 + k + 4 * n) (Reg.CAN_STAT n) (8 + k)

/-- R280: the mode in effect: 0 NORMAL, 1 RESTRICTED, 2 SLEEP, 3 OFF. -/
def Dev.canMode (d : Dev) (n : Nat) : Nat := d.fld (F.CAN_STAT_MODE n)

/-- R283: TMODE; 3 acts as 0, and on CAN3 it acts as 0. -/
def Dev.canTmode (d : Dev) (n : Nat) : Nat :=
  let m := d.fld (F.CAN_CFG_TMODE n)
  if n = 3 ∨ m = 3 then 0 else m

/-- R276: buffer 0 belongs to the engine. -/
def Dev.canEngineOwns (d : Dev) (n : Nat) : Bool := d.flag (F.CAN_CFG_STAEN n) || d.canTmode n == 1

/-- R282: the stamp of a frame that ends at MONO t and whose start of frame lies sof ns before. -/
def canStamp (n t sof : Nat) : Word := BitVec.ofNat 32 (if n = 3 then t - sof else t)

/-- The data bytes that a DLC stands for (ISO 11898-1). -/
def dlcBytes (fdf : Bool) (dlc : Nat) : Nat :=
  if dlc ≤ 8 then dlc
  else if fdf then
    (match dlc with | 9 => 12 | 10 => 16 | 11 => 20 | 12 => 24 | 13 => 32 | 14 => 48 | _ => 64)
  else 8

/-- The smallest DLC whose length holds n bytes. -/
def dlcFor (n : Nat) : Nat :=
  if n ≤ 8 then n
  else if n ≤ 12 then 9 else if n ≤ 16 then 10 else if n ≤ 20 then 11 else if n ≤ 24 then 12
  else if n ≤ 32 then 13 else if n ≤ 48 then 14 else 15

/-! ## Transmission (R276, R277) -/

/-- R274: ESI of a frame that channel n sends now: recessive in an FD frame of an error-passive node. -/
def Dev.canEsi (d : Dev) (n : Nat) (fdf : Bool) : Bool := fdf && d.fld (F.CAN_STAT_ERRSTATE n) == 1

/-- The frame that software buffer b holds; with FDEN = 0 it is a classical one (log 99). -/
def Dev.txFrame (d : Dev) (n b : Nat) : CanFrame :=
  let ide := d.flag (F.CAN_TXCTL_IDE n b)
  let fdf := d.flag (F.CAN_TXCTL_FDF n b) && d.flag (F.CAN_CFG_FDEN n)
  let dlc := d.fld (F.CAN_TXCTL_DLC n b)
  let id := d.fld (F.CAN_TXID_ID n b)
  { ide := ide, id := BitVec.ofNat 29 (if ide then id else id % 2 ^ 11), fdf := fdf,
    brs := fdf && d.flag (F.CAN_TXCTL_BRS n b), esi := d.canEsi n fdf, rtr := false,
    dlc := BitVec.ofNat 4 dlc,
    data := ((List.range 16).flatMap (fun j => leBytes (d.rd (Reg.CAN_TXDATA n b j)).toNat 4)).take (dlcBytes fdf dlc) }

/-- The frame of a list that comes first by a key, the earliest of equals. -/
def firstBy {α : Type} (key : α → Nat) : List α → Option α
  | [] => none
  | x :: rest =>
    match firstBy key rest with
    | some y => if key y < key x then some y else some x
    | none => some x

/-- The buffers with a frame that may be sent now: their number and their frame. -/
def Dev.txReady (d : Dev) (n : Nat) : List (Nat × CanFrame) :=
  let engine :=
    if d.leaseHeld then
      (match firstBy CanFrame.priority (d.chan n).engine with
      | some f => [(0, { f with esi := d.canEsi n f.fdf })]
      | none => [])
    else []
  engine ++ ((List.range 3).filter (fun b =>
    !(b == 0 && d.canEngineOwns n) && d.flag (F.CAN_TXCTL_PEND n b) &&
      (d.leaseHeld || !(d.flag (F.CAN_TXCTL_GATED n b))))).map (fun b => (b, d.txFrame n b))

/-- R276: the buffer that channel n sends next: command frames in identifier order, then by TXORD. -/
def Dev.txNext (d : Dev) (n : Nat) : Option (Nat × CanFrame) :=
  let l := d.txReady n
  match firstBy (fun p => p.2.priority) (l.filter (fun p => p.2.isCommand)) with
  | some p => some p
  | none => if d.flag (F.CAN_CFG_TXORD n) then firstBy (fun p => p.1) l else firstBy (fun p => p.2.priority) l

/-- R276, R277, R293: CANn_TXCTL[b] written with v at MONO t. -/
def Dev.txCtl (d : Dev) (t n b : Nat) (v : Word) : Dev :=
  if b = 0 ∧ d.canEngineOwns n then d.setFld (F.CAN_STAT_REFUSED n) 1
  else
    let x := v.toNat
    let off := Reg.CAN_TXCTL n b
    let w := d.rd off
    let keep := w &&& 0x00005600
    let w1c := v &&& 0x00001400
    let d := d.wr off (((v &&& 0x000020FF) ||| keep) &&& ~~~w1c)
    let d := if bitOf x 8 then d.setFld (F.CAN_TXCTL_PEND n b) 1 else d
    if bitOf x 11 ∧ d.flag (F.CAN_TXCTL_PEND n b) then
      ((d.setFld (F.CAN_TXCTL_PEND n b) 0).setFld (F.CAN_TXCTL_ABORTED n b) 1).canEvent t n 2
    else d

/-- R276, R277: a frame of the engine waits in buffer 0, whether the gate lets it out or not; it takes the place of a
waiting one with the same identifier, and a command that of the same command alone. -/
def Dev.engineQueue (d : Dev) (n : Nat) (f : CanFrame) : Dev :=
  d.modChan n (fun c => { c with
    engine := c.engine.filter (fun g => !(if f.isCommand then g == f else g.ide == f.ide && g.id == f.id)) ++ [f] })

/-! ## The station engine (R284 to R291) -/

/-- Station i of channel n beside its registers. -/
def Dev.station_ (d : Dev) (n i : Nat) : Station := Sparse.get (fun _ => {}) (d.chan n).stations i

/-- Station i of channel n changed by f. -/
def Dev.modStation (d : Dev) (n i : Nat) (f : Station → Station) : Dev :=
  d.modChan n (fun c => { c with stations := Sparse.set (fun _ => {}) c.stations i (f (d.station_ n i)) })

/-- R285: the first input and the first output image word of station i of channel n. -/
def stationIn (n i : Nat) : Nat := 0x2800 + 0x20 * (16 * n + i)
def stationOut (n i : Nat) : Nat := 0x0800 + 0x20 * (16 * n + i)

/-- STATE of a station. -/
def Dev.staState (d : Dev) (n i : Nat) : Nat := d.fld (F.CAN_STASTAT_STATE n i)

/-- R284, R293: major 1 has been negotiated: classical frames, and at most 8 words each way. -/
def Dev.staClassic (d : Dev) (n i : Nat) : Bool := d.fld (F.CAN_STASTAT_VERMAJ n i) == 1

/-- NIN and NOUT in force. -/
def Dev.staNin (d : Dev) (n i : Nat) : Nat :=
  if d.staClassic n i then min 8 (d.fld (F.CAN_STACFG_NIN n i)) else d.fld (F.CAN_STACFG_NIN n i)
def Dev.staNout (d : Dev) (n i : Nat) : Nat :=
  if d.staClassic n i then min 8 (d.fld (F.CAN_STACFG_NOUT n i)) else d.fld (F.CAN_STACFG_NOUT n i)

/-- R285: the low byte of the status word in the input image follows CANn_STASTAT. -/
def Dev.showStation (d : Dev) (n i : Nat) : Dev :=
  d.putInBits (stationIn n i) 7 0 (d.staState n i + 8 * d.fld (F.CAN_STASTAT_STALE n i) +
    16 * d.fld (F.CAN_STASTAT_SAFE n i) + 32 * b2n (d.staState n i == 4))

/-- R292, R312, R338: station i takes a STATE at MONO t: source 123 + 4 × n when it changes, an SOE entry of type 4 when it
becomes or leaves ONLINE with its bit of BIO_SOESTA set, and HST_PARLEY follows. -/
def Dev.setStaState (d : Dev) (t n i st : Nat) : Dev :=
  let was := d.staState n i
  if was = st then d
  else
    let d := ((d.setFld (F.CAN_STASTAT_STATE n i) st).showStation n i).canEvent t n 3
    let d := if (was == 4) != (st == 4) && d.maskBit Reg.BIO_SOESTA0 (16 * n + i) then
        d.soe t 4 (16 * n + i) (b2n (st == 4)) st else d
    d.setParley t 3 ((List.range 4).any (fun m => (List.range 16).any (fun j => d.staState m j == 6)))

/-- R284: an extended frame of the engine; under major 2 an FD frame with bit rate switch, else a classical frame. -/
def engineFrame (fd : Bool) (type sta seq seg last : Nat) (l : List Byte) : CanFrame :=
  let n := dlcFor l.length
  { ide := true, fdf := fd, brs := fd, esi := false, rtr := false,
    id := BitVec.ofNat 29 (type * 2 ^ 25 + sta * 2 ^ 21 + seq % 256 * 2 ^ 13 + seg * 2 ^ 10 + last * 2 ^ 7),
    dlc := BitVec.ofNat 4 (if fd then n else 8), data := padTo (if fd then dlcBytes true n else 8) l }

/-- R284: a command frame for station i. -/
def Dev.stationCommand (d : Dev) (n i op : Nat) : Dev :=
  d.engineQueue n
    { ide := false, id := BitVec.ofNat 29 i, fdf := false, brs := false, esi := false, rtr := false, dlc := 8,
      data := BitVec.ofNat 8 op :: [0, 0, 0] ++ leBytes (d.rd Reg.SYS_UID0).toNat 4 }

/-- R284, R286, R289: a set of words 1 to NOUT for station i, of type 3 OUTPUT or 5 RESYNC; it takes the place of
waiting segments of an older set. -/
def Dev.queueSet (d : Dev) (n i type : Nat) : Dev :=
  let seq := ((d.station_ n i).outSeq + 1) % 256
  let words := (List.range (d.staNout n i)).map (fun k => leBytes (Image.rd d.mem.out (stationOut n i + 1 + k)).toNat 8)
  let per := if d.staClassic n i then 1 else 8
  let count := max 1 ((words.length + per - 1) / per)
  let segs := chunks per count words
  let d := d.modChan n (fun c => { c with
    engine := c.engine.filter (fun f => !((f.etype == 3 || f.etype == 5) && f.esta == i)) })
  let d := d.modStation n i (fun k => { k with outSeq := seq })
  segs.zipIdx.foldl (fun d p =>
    d.engineQueue n (engineFrame (!(d.staClassic n i)) type i seq p.2 (count - 1) p.1.flatten)) d

/-- R290: a task output region that overlaps words 1 to NOUT of station i is in SAFE state. -/
def Dev.staSafe (d : Dev) (n i : Nat) : Bool :=
  (List.range (d.staNout n i)).any (fun k =>
    d.wordSafe (stationOut n i + 1 + k))

/-- R286: an OUTPUT set for station i is made; the gate withholds it on a member without the lease (R277). -/
def Dev.sendOutput (d : Dev) (n i : Nat) : Dev :=
  if (d.chan n).outputsFrom then d.queueSet n i 3 else d

/-- R286, R288 to R290: a commit of words ws became effective at MONO t, as station i of channel n sees it. -/
def Dev.commitStation (d : Dev) (n i : Nat) (ws : List (Nat × Word64)) : Dev :=
  let lo := stationOut n i + 1
  if ws.any (fun p => Nat.ble lo p.1 && Nat.blt p.1 (lo + d.staNout n i)) then
    let st := d.staState n i
    if st = 4 then
      if d.staSafe n i then d
      else
        let d := d.modStation n i (fun k => { k with sent := true })
        let d := d.sendOutput n i
        if (d.station_ n i).held then d.modStation n i (fun k => { k with held := false, releaseDue := true }) else d
    else
      let d := d.incFld (F.CAN_STACNT_DISCARD n i)
      if (st = 2 ∨ st = 3) ∧ (d.station_ n i).released = false then
        let waits := (d.chan n).engine.any (fun f => f.isCommand && f.id.toNat == i && f.data.head? == some 2)
        if waits then
          (d.modChan n (fun c => { c with engine := c.engine.filter (fun f =>
            !(f.isCommand && f.id.toNat == i && f.data.head? == some 2)) })).queueSet n i 5
        else d.modStation n i (fun k => { k with fresh := true })
      else d
  else d

/-- R286: the stations of every channel with the engine on after a commit of words ws became effective. -/
def Dev.canCommit (d : Dev) (ws : List (Nat × Word64)) : Dev :=
  if ws.any (fun p => Nat.ble 0x0800 p.1 && Nat.blt p.1 0x1000) then
    forN 4 (fun n d =>
      let d := if d.leaseHeld then d.modChan n (fun c => { c with outputsFrom := true }) else d
      forN 16 (fun i d => d.commitStation n i ws) d) d
  else d

/-- R288: station i drops out at MONO t. -/
def Dev.dropStation (d : Dev) (t n i : Nat) : Dev :=
  let d := (d.setFld (F.CAN_STASTAT_STALE n i) 1).incFld (F.CAN_STACNT_LOSTCNT n i)
  (d.modStation n i (fun _ => { outSeq := (d.station_ n i).outSeq })).setStaState t n i 5

/-- MISS in force. -/
def Dev.staMiss (d : Dev) (n i : Nat) : Nat := max 1 (d.fld (F.CAN_STACFG_MISS n i))

/-- R288: what a SYNC at MONO t finds of station i. -/
def Dev.syncStation (t n i : Nat) (d : Dev) : Dev :=
  let k := d.station_ n i
  let joined := decide (2 ≤ d.staState n i) && decide (d.staState n i ≤ 4)
  let missed := if k.expected && !k.got then k.missed + 1 else 0
  if joined && Nat.ble (d.staMiss n i) missed then d.dropStation t n i
  else
    let sent := k.sent
    let d := if joined || k != {} then
        d.modStation n i (fun k => { k with segs := [], got := false, expected := joined, missed := missed, sent := false })
      else d
    if d.staState n i = 4 then
      if d.staSafe n i then
        let d := d.modStation n i (fun k => { k with held := true, releaseDue := false })
        d.stationCommand n i 1
      else if sent then d
      else d.sendOutput n i
    else d

/-- R293: CANn_FCYC.PER in ns, within its range. -/
def Dev.syncPeriod (d : Dev) (n : Nat) : Nat := max 250 (min 100000 (d.fld (F.CAN_FCYC_PER n))) * 1000

/-- R286: SYNC of channel n at MONO t. -/
def Dev.sync (n t : Nat) (d : Dev) : Dev :=
  let per := d.syncPeriod n
  let d := forN 16 (Dev.syncStation t n) d
  let seq := (d.fld (F.CAN_FCYC_SEQ n) + 1) % 256
  let d := d.setFld (F.CAN_FCYC_SEQ n) seq
  let d := d.modChan n (fun c => { c with
    nextSync := some (t + per), engine := c.engine.filter (fun f => !(f.etype == 1)) })
  d.engineQueue n (engineFrame false 1 0 seq 0 0 (leBytes (d.rd Reg.SYS_UID0).toNat 4 ++ leBytes (per / 1000) 4))

/-- FRELUPO_SYNC: the SYNC period of channel n ends (R286, R288). -/
def execFrelupoSync (n : BitVec 2) (s : State) : Host.Outcome State Fault Refusal :=
  match (s.dev.chan n.toNat).nextSync with
  | some m => s.at m (Dev.sync n.toNat)
  | none => .next s

/-- R285, R286: a complete INPUT set of station i at MONO t, with its stamp, enters the input image as one update. -/
def Dev.inputSet (d : Dev) (n i seq : Nat) (stamp : Word) (l : List Word64) : Dev :=
  let st := d.staState n i
  if st = 2 ∨ st = 3 ∨ st = 4 then
    let nin := d.staNin n i
    let d := { d with mem := { d.mem with
      inNext := Image.wrs d.mem.inNext (stationIn n i + 1) ((l ++ List.replicate nin 0).take nin) } }
    let d := (d.setFld (F.CAN_STASTAT_STALE n i) 0).setFld (F.CAN_STASTAT_LASTSEQ n i) seq
    let d := (d.putInBits (stationIn n i) 15 8 seq).putInBits (stationIn n i) 63 32 stamp.toNat
    (d.modStation n i (fun k => { k with got := true, missed := 0 })).showStation n i
  else d

/-- The station engine of channel n works: STAEN = 1 and the channel is in NORMAL mode. -/
def Dev.engineOn (d : Dev) (n : Nat) : Bool := d.flag (F.CAN_CFG_STAEN n) && d.canMode n == 0

/-- FRELUPO_INPUT: dt ns pass, and an INPUT set of station i is complete; the stamp of its first segment lies ago ns
back (R285, R286). -/
def execFrelupoInput (dt : Nat) (n : BitVec 2) (i : BitVec 4) (ago : Nat) (seq : BitVec 8) (words : List Word64)
    (s : State) : Host.Outcome State Fault Refusal :=
  s.event dt (fun t d =>
    if d.engineOn n.toNat then d.inputSet n.toNat i.toNat seq.toNat (canStamp n.toNat t ago) words else d)

/-- R289: RESYNC with the committed outputs goes to station i. -/
def Dev.resync (d : Dev) (t n i : Nat) : Dev :=
  let d := d.modStation n i (fun k => { k with fresh := false, released := false })
  (d.queueSet n i 5).setStaState t n i 3

/-- R287: the reply to a HELLO has left at MONO t: with a version the station is resynchronised. -/
def Dev.helloSent (d : Dev) (t n i : Nat) : Dev := if d.staState n i = 2 then d.resync t n i else d

/-- R287: HELLO from station i at MONO t. The master's reply waits for the bus; a member that does not hold the lease
follows the exchange while its own reply is withheld (R277, R290). -/
def Dev.hello (d : Dev) (t n i : Nat) (range : Word) (safe : Bool) (nin nout : Nat) : Dev :=
  let st := d.staState n i
  if st = 1 ∨ st = 5 ∨ st = 6 then
    let d := d.setFld (F.CAN_STASTAT_SAFE n i) (b2n safe)
    let v := negotiate (d.rd (Reg.SYS_IFVER 3)) range
    let limit (x : Nat) : Nat := match v with | some (1, _) => min 8 x | _ => x
    let fits := nin == limit (d.fld (F.CAN_STACFG_NIN n i)) && nout == limit (d.fld (F.CAN_STACFG_NOUT n i))
    match v, fits with
    | some (maj, min), true =>
      let d := (d.setFld (F.CAN_STASTAT_VERMAJ n i) maj).setFld (F.CAN_STASTAT_VERMIN n i) min
      let d := d.modStation n i (fun k => { outSeq := k.outSeq, range := range })
      let d := d.setStaState t n i 2
      let d := d.engineQueue n (engineFrame (decide (2 ≤ maj)) 6 i 0 0 0 [BitVec.ofNat 8 min, BitVec.ofNat 8 maj])
      if d.leaseHeld then d else d.helloSent t n i
    | _, _ =>
      let d := (d.setFld (F.CAN_STASTAT_VERMAJ n i) 0).setFld (F.CAN_STASTAT_VERMIN n i) 0
      let d := if st = 6 then d.showStation n i else d.setStaState t n i 6
      d.engineQueue n (engineFrame false 6 i 0 0 0 [0, 0])
  else d

/-- FRELUPO_HELLO: dt ns pass, and station i sends HELLO (R287). -/
def execFrelupoHello (dt : Nat) (n : BitVec 2) (i : BitVec 4) (range : Word) (safe : Bool) (nin nout : BitVec 8)
    (s : State) : Host.Outcome State Fault Refusal :=
  s.event dt (fun t d =>
    if d.engineOn n.toNat then d.hello t n.toNat i.toNat range safe nin.toNat nout.toNat else d)

/-- R284, R289: STATUS from station i at MONO t. -/
def Dev.status (d : Dev) (t n i : Nat) (safe muted rsyncOk : Bool) : Dev :=
  let st := d.staState n i
  if st = 0 ∨ st = 6 then d
  else
    let d := (d.setFld (F.CAN_STASTAT_SAFE n i) (b2n safe)).setFld (F.CAN_STASTAT_MUTED n i) (b2n muted)
    let d := d.showStation n i
    let k := d.station_ n i
    if st = 3 then
      if rsyncOk && !k.released then
        if k.fresh then d.resync t n i
        else
          let d := d.stationCommand n i 2
          if d.leaseHeld then d else d.modStation n i (fun k => { k with released := true })
      else if !safe && k.released then d.setStaState t n i 4
      else d
    else d

/-- FRELUPO_STATUS: dt ns pass, and station i sends STATUS (R289). -/
def execFrelupoStatus (dt : Nat) (n : BitVec 2) (i : BitVec 4) (safe muted rsyncOk : Bool) (s : State) :
    Host.Outcome State Fault Refusal :=
  s.event dt (fun t d => if d.engineOn n.toNat then d.status t n.toNat i.toNat safe muted rsyncOk else d)

/-- R290: CANn_FCMD is written with v: MUTE or UNMUTE is sent; other values are ignored. -/
def Dev.fcmd (d : Dev) (n : Nat) (v : Word) : Dev :=
  let op := bitsOf v.toNat 11 8
  if d.flag (F.CAN_CFG_STAEN n) ∧ (op = 3 ∨ op = 4) then d.stationCommand n (bitsOf v.toNat 3 0) op else d

/-- R286: a segment of an INPUT set of station i, received at MONO t with its stamp. -/
def Dev.inputSegment (d : Dev) (n i : Nat) (f : CanFrame) (stamp : Word) : Dev :=
  let seq := bitsOf f.id.toNat 20 13
  let seg := bitsOf f.id.toNat 12 10
  let last := bitsOf f.id.toNat 9 7
  let k := d.station_ n i
  let k := if k.segs.isEmpty ∨ k.seq ≠ seq ∨ k.last ≠ last then
      { k with seq := seq, last := last, first := stamp.toNat, segs := [] } else k
  let segs := (k.segs.filter (fun p => p.1 != seg)) ++ [(seg, f.data)]
  if (List.range (last + 1)).all (fun j => segs.any (fun p => p.1 == j)) then
    let bytes := (List.range (last + 1)).flatMap (fun j =>
      match segs.find? (fun p => p.1 == j) with
      | some p => padTo (if d.staClassic n i then 8 else 64) p.2
      | none => [])
    let words := (chunks 8 (bytes.length / 8) bytes).map (fun l => BitVec.ofNat 64 (leNat l))
    let d := d.modStation n i (fun _ => { k with segs := [] })
    d.inputSet n i seq (if n = 3 then BitVec.ofNat 32 k.first else stamp) words
  else d.modStation n i (fun _ => { k with segs := segs })

/-- R278: path 1: a frame for the station engine at MONO t. Frames of the master's own types are not for it. -/
def Dev.toEngine (d : Dev) (t n : Nat) (f : CanFrame) (stamp : Word) : Dev :=
  if d.engineOn n then
    let i := f.esta
    let b (k : Nat) : Nat := (f.data.getD k 0).toNat
    if f.etype = 2 then d.inputSegment n i f stamp
    else if f.etype = 4 then d.status t n i (bitOf (b 0) 0) (bitOf (b 0) 1) (bitOf (b 0) 2)
    else if f.etype = 6 then
      if 7 ≤ f.data.length then
        d.hello t n i (BitVec.ofNat 32 (leNat (f.data.take 4))) (bitOf (b 4) 0) (b 5) (b 6)
      else d
    else d
  else d

/-! ## Reception (R278) -/

/-- R278: words 0 to 19 of the FIFO entry of a frame. -/
def rxWords (f : CanFrame) (cmd : Bool) (filter : Nat) (stamp : Word) : List Word :=
  [BitVec.ofNat 32 (f.id.toNat + b2n f.ide * 2 ^ 29 + b2n f.fdf * 2 ^ 30 + 2 ^ 31),
   BitVec.ofNat 32 (f.dlc.toNat + b2n f.brs * 2 ^ 4 + b2n f.esi * 2 ^ 5 + b2n cmd * 2 ^ 6 + filter * 2 ^ 8 +
     min 64 f.data.length * 2 ^ 16), stamp] ++
  (chunks 4 16 (padTo 64 f.data)).map (fun l => BitVec.ofNat 32 (leNat l)) ++ [0]

/-- The list without its first entry with this CMD. -/
def dropFirst (cmd : Bool) : List (Bool × List Word) → List (Bool × List Word)
  | [] => []
  | x :: rest => if x.1 = cmd then rest else x :: dropFirst cmd rest

/-- R278: a frame enters the FIFO at MONO t: 32 places, 4 of them reserved for command frames. -/
def Dev.fifoStore (d : Dev) (t n : Nat) (cmd : Bool) (w : List Word) : Dev :=
  let l := (d.chan n).fifo
  let ordinary := (l.filter (fun p => !p.1)).length
  let timeUp := if cmd then decide (32 ≤ l.length) else decide (28 ≤ ordinary) || decide (32 ≤ l.length)
  let l' := if timeUp then dropFirst (ordinary == 0) l else l
  let d := d.modChan n (fun c => { c with fifo := l' ++ [(cmd, w)] })
  let d := d.setFld (F.CAN_RXSTAT_COUNT n) (l'.length + 1)
  let d := if timeUp then d.incFld (F.CAN_RXSTAT_LOST n) else d
  if cmd || timeUp then d.canEvent t n 1 else d

/-- R278: filter f of channel n is enabled and matches. -/
def Dev.filterHit (d : Dev) (n f : Nat) (x : CanFrame) : Bool :=
  let a := d.fld (F.CAN_FID_ACTION n f)
  (a == 1 || a == 2) && d.flag (F.CAN_FID_IDE n f) == x.ide &&
    (x.id.toNat ^^^ d.fld (F.CAN_FID_ID n f)) &&& d.fld (F.CAN_FMASK_MASK n f) == 0

/-- R278: path 3: the filters. -/
def Dev.filterFrame (d : Dev) (t n : Nat) (f : CanFrame) (stamp : Word) : Dev :=
  match (List.range 64).find? (fun k => d.filterHit n k f) with
  | some k => if d.fld (F.CAN_FID_ACTION n k) = 1 then d.fifoStore t n false (rxWords f false k stamp) else d
  | none => d.incFld (F.CAN_RXSTAT_NOMATCH n)

/-- R283: own station time of an event that lay ago ns before MONO t. -/
def Dev.stationAgo (d : Dev) (t ago : Nat) : Nat := d.station t - ago

/-- R283: the offset of a master's time, given by its seconds [7:0] and nanoseconds, from an own station time, as
signed ns that saturate. -/
def refOffset (sec ns own : Nat) : Int :=
  let span := 256 * 1000000000
  let x := (sec * 1000000000 + ns + span - own % span) % span
  let y : Int := if x * 2 < span then x else (x : Int) - span
  max (-2147483647) (min 2147483647 y)

/-- R283: a reference message reaches a time slave at MONO t, its start of frame sof ns back. -/
def Dev.refReceived (n sof cycle sec ns t : Nat) (d : Dev) : Dev :=
  if d.canTmode n = 2 ∧ d.canMode n ≤ 1 then
    let d := match (d.chan n).slavePrev with
      | some own =>
        ((d.wr (Reg.CAN_TOFS n) (BitVec.ofInt 32 (refOffset sec ns own))).setFld (F.CAN_TCYC_CYCLE n) cycle).setFld
          (F.CAN_TCYC_VALID n) 1
      | none => d
    d.modChan n (fun c => { c with slavePrev := some (d.stationAgo t sof), refSeen := some t })
  else d

/-- CAN_REF_RECEIVED: dt ns pass, and a reference message arrives (R283). -/
def execCanRefReceived (dt : Nat) (n : BitVec 2) (sof : Nat) (cycle : BitVec 16) (sec : BitVec 8) (ns : Word)
    (s : State) : Host.Outcome State Fault Refusal :=
  s.event dt (Dev.refReceived n.toNat sof cycle.toNat sec.toNat ns.toNat)

/-- R278, R282: channel n has received a frame at MONO t, its start of frame sof ns back; with FDEN = 0 an FD frame is
none (log 99). -/
def Dev.canReceive (n sof : Nat) (f : CanFrame) (t : Nat) (d : Dev) : Dev :=
  if d.canMode n ≤ 1 ∧ d.fld (F.CAN_STAT_ERRSTATE n) ≠ 2 ∧ (f.fdf = true → d.flag (F.CAN_CFG_FDEN n) = true) then
    let stamp := canStamp n t sof
    if f.rtr then d.incFld (F.CAN_RXSTAT_NOMATCH n)
    else
      let d := if !f.ide && f.id.toNat == d.fld (F.CAN_REFCFG_REFID n) then
          Dev.refReceived n sof (leNat (f.data.take 2)) (f.data.getD 3 0).toNat (leNat ((f.data.drop 4).take 4)) t d
        else d
      if d.flag (F.CAN_CFG_STAEN n) && f.ide && Nat.ble 1 f.etype && Nat.ble f.etype 6 && f.id.toNat % 128 == 0 then
        d.toEngine t n f stamp
      else if f.isCommand then d.fifoStore t n true (rxWords f true 0 stamp)
      else d.filterFrame t n f stamp
  else d

/-- CAN_FRAME_RECEIVE: dt ns pass, and a frame ends on channel n, its start of frame sof ns back (R278). -/
def execCanFrameReceive (dt : Nat) (n : BitVec 2) (sof : Nat) (f : CanFrame) (s : State) :
    Host.Outcome State Fault Refusal :=
  s.event dt (Dev.canReceive n.toNat sof f)

/-- R278: a read of CANn_RXF word 0 pops the oldest frame: the words that the requester's latch takes, and the rest. -/
def Dev.rxfPop (d : Dev) (n : Nat) : List Word × Dev :=
  match (d.chan n).fifo with
  | [] => (List.replicate 20 0, d)
  | x :: rest =>
    (x.2, (d.modChan n (fun c => { c with fifo := rest })).setFld (F.CAN_RXSTAT_COUNT n) rest.length)

/-! ## What has been sent -/

/-- R283, R287, R289, R290: what follows when a frame of the engine has left at MONO t. -/
def Dev.engineSent (d : Dev) (t n sof : Nat) (f : CanFrame) : Dev :=
  let i := f.esta
  if f.isCommand then
    let j := f.id.toNat
    if f.data.head? = some 2 ∧ d.staState n j = 3 then d.modStation n j (fun k => { k with released := true }) else d
  else if !f.ide then d.modChan n (fun c => { c with refPrev := some (d.stationAgo t sof) })
  else if f.etype = 6 then d.helloSent t n i
  else if f.etype = 3 ∧ bitsOf f.id.toNat 12 10 = bitsOf f.id.toNat 9 7 ∧ (d.station_ n i).releaseDue then
    (d.modStation n i (fun k => { k with releaseDue := false })).stationCommand n i 2
  else d

/-- R276, R277, R282: channel n sends the frame that comes first, which ends at MONO t. -/
def Dev.txDone (n sof t : Nat) (d : Dev) : Dev :=
  if d.canMode n = 0 ∧ d.fld (F.CAN_STAT_ERRSTATE n) ≠ 2 then
    match d.txNext n with
    | none => d
    | some (b, f) =>
      let own := b == 0 && d.canEngineOwns n
      let d := if own then d.modChan n (fun c => { c with engine := c.engine.erase { f with esi := false } })
        else d.setFld (F.CAN_TXCTL_PEND n b) 0
      let d := (d.wr (Reg.CAN_TXSTAMP n b) (canStamp n t sof)).setFld (F.CAN_TXCTL_DONE n b) 1
      let d := d.send t (.can n f)
      let d := if d.flag (F.CAN_TXCTL_IRQ n b) then d.canEvent t n 2 else d
      if own then d.engineSent t n sof f else d
  else d

/-- CAN_TX_DONE: dt ns pass, and the frame that channel n sends has left, its start of frame sof ns back (R276). -/
def execCanTxDone (dt : Nat) (n : BitVec 2) (sof : Nat) (s : State) : Host.Outcome State Fault Refusal :=
  s.event dt (Dev.txDone n.toNat sof)

/-! ## Error states (R279) -/

/-- R279: the error counters of channel n take values at MONO t; code is the kind of the last error, 0 for none. -/
def Dev.canErrors (n tec rec_ code : Nat) (dataPhase : Bool) (t : Nat) (d : Dev) : Dev :=
  if d.canMode n = 0 ∧ d.fld (F.CAN_STAT_ERRSTATE n) ≠ 2 then
    let st := if 255 < tec then 2 else if 127 < tec ∨ 127 < rec_ then 1 else 0
    let was := d.fld (F.CAN_STAT_ERRSTATE n)
    let d := (d.setFld (F.CAN_ERRCNT_TEC n) (min 255 tec)).setFld (F.CAN_ERRCNT_REC n) (min 127 rec_)
    let d := if code = 0 then d else
      (d.setFld (F.CAN_LASTERR_CODE n) code).setFld (F.CAN_LASTERR_DATA n) (b2n dataPhase)
    let d := d.setFld (F.CAN_STAT_ERRSTATE n) st
    let d := if st = 2 then d.incFld (F.CAN_ERRCNT_BOCNT n) else d
    if st = was then d else d.canEvent t n 0
  else d

/-- CAN_ERROR_STATE_CHANGE: dt ns pass, and an error or a frame moves the counters of channel n (R279). -/
def execCanErrorStateChange (dt : Nat) (n : BitVec 2) (txErr : BitVec 9) (rxErr : BitVec 8) (code : BitVec 3)
    (dataPhase : Bool) (s : State) : Host.Outcome State Fault Refusal :=
  s.event dt (Dev.canErrors n.toNat txErr.toNat rxErr.toNat code.toNat dataPhase)

/-- R279: the recovery of channel n from bus-off ends at MONO t. -/
def Dev.busOffEnd (n t : Nat) (d : Dev) : Dev :=
  if d.fld (F.CAN_STAT_ERRSTATE n) = 2 ∧ d.canMode n ≠ 3 then
    (((d.setFld (F.CAN_STAT_ERRSTATE n) 0).setFld (F.CAN_ERRCNT_TEC n) 0).setFld (F.CAN_ERRCNT_REC n) 0).canEvent t n 0
  else d

/-- CAN_BUSOFF_RECOVERY: dt ns pass, and 128 occurrences of 11 recessive bits are complete (R279). -/
def execCanBusoffRecovery (dt : Nat) (n : BitVec 2) (s : State) : Host.Outcome State Fault Refusal :=
  s.event dt (Dev.busOffEnd n.toNat)

/-! ## Operating modes (R280, R281) -/

/-- R283: CANn_REFCFG.PER in ns, within its range. -/
def Dev.refPeriod (d : Dev) (n : Nat) : Nat := max 100 (min 1000000 (d.fld (F.CAN_REFCFG_PER n))) * 1000

/-- R280, R285: channel n takes a mode at MONO t: in NORMAL with STAEN = 1 the stations in use enter WAIT and the SYNC
cycle runs on multiples of its period in MONO; in every other mode the stations are OFF. -/
def Dev.setCanMode (d : Dev) (t n m : Nat) : Dev :=
  let was := d.canMode n
  let d := d.setFld (F.CAN_STAT_MODE n) m
  if m = 0 then
    let on := d.flag (F.CAN_CFG_STAEN n)
    let per := d.syncPeriod n
    let d := if on && was != 0 then
        forN 16 (fun i d => if d.flag (F.CAN_STACFG_EN n i) then d.setStaState t n i 1 else d)
          (d.modChan n (fun c => { c with nextSync := some ((t / per + 1) * per) }))
      else d
    if d.canTmode n = 1 ∧ was ≠ 0 then d.modChan n (fun c => { c with nextRef := some (t + d.refPeriod n) }) else d
  else
    let d := forN 16 (fun i d =>
      let d := d.modStation n i (fun _ => {})
      if d.staState n i = 0 then d else (d.setFld (F.CAN_STASTAT_STALE n i) 1).setStaState t n i 0) d
    d.modChan n (fun c => { c with
      nextSync := none, nextRef := none, refPrev := none, slavePrev := none, refSeen := none, engine := [] })

/-- R280: CANn_CTL is written with v at MONO t. -/
def Dev.canModeWrite (d : Dev) (t n : Nat) (v : Word) : Dev :=
  let m := bitsOf v.toNat 1 0
  if m = 2 ∧ (d.canTmode n = 1 ∨ (List.range 16).any (fun i => d.staState n i != 0) = true) then
    d.setFld (F.CAN_STAT_REFUSED n) 1
  else
    let d := d.setFld (F.CAN_CTL_MODE n) m
    if d.fld (F.CAN_STAT_ERRSTATE n) = 2 then d.setCanMode t n m else d

/-- CAN_MODE_EFFECT: dt ns pass, and the bus of channel n is idle: a written mode takes effect (R280). -/
def execCanModeEffect (dt : Nat) (n : BitVec 2) (s : State) : Host.Outcome State Fault Refusal :=
  s.event dt (fun t d =>
    let m := d.fld (F.CAN_CTL_MODE n.toNat)
    if d.canMode n.toNat = m then d else d.setCanMode t n.toNat m)

/-- R281: the wake frame of channel n matches. -/
def Dev.wakeHit (d : Dev) (n : Nat) (f : CanFrame) : Bool :=
  let mask := leBytes (d.rd (Reg.CAN_WAKEDM0 n)).toNat 4 ++ leBytes (d.rd (Reg.CAN_WAKEDM1 n)).toNat 4
  let want := leBytes (d.rd (Reg.CAN_WAKED0 n)).toNat 4 ++ leBytes (d.rd (Reg.CAN_WAKED1 n)).toNat 4
  let covered := (List.range 8).foldl (fun x k => if mask.getD k 0 = 0 then x else k + 1) 0
  let idMask := (d.rd (Reg.CAN_WAKEMASK n)).toNat
  (f.id.toNat ^^^ (d.rd (Reg.CAN_WAKEID n)).toNat) &&& idMask &&& 0x1FFFFFFF == 0 &&
    (!(bitOf idMask 29) || bitOf (d.rd (Reg.CAN_WAKEID n)).toNat 29 == f.ide) && Nat.ble covered f.data.length &&
    (List.range 8).all (fun k => (f.data.getD k 0 ^^^ want.getD k 0) &&& mask.getD k 0 == 0)

/-- R281: activity on the bus of a sleeping channel n at MONO t: an error-free frame, or a dominant edge alone. -/
def Dev.canWake (n sof : Nat) (f : Option CanFrame) (t : Nat) (d : Dev) : Dev :=
  if d.canMode n = 2 then
    let wake (d : Dev) : Dev :=
      (((d.setFld (F.CAN_CTL_MODE n) 0).setCanMode t n 0).setFld (F.CAN_STAT_WOKE n) 1).canEvent t n 0
    if d.flag (F.CAN_CFG_WAKEMODE n) then wake d
    else
      match f with
      | some x => if d.wakeHit n x then Dev.canReceive n sof x t (wake d) else d
      | none => d
  else d

/-- CAN_WAKE: dt ns pass, and a sleeping channel sees a frame or an edge (R281). -/
def execCanWake (dt : Nat) (n : BitVec 2) (sof : Nat) (f : Option CanFrame) (s : State) :
    Host.Outcome State Fault Refusal :=
  s.event dt (Dev.canWake n.toNat sof f)

/-- R280: entry into deep sleep: every channel is OFF. -/
def Dev.canSleep (d : Dev) (t : Nat) : Dev := forN 4 (fun n d => d.setCanMode t n 3) d

/-- R280: warm resume: every channel takes the mode that was written, and its stations restart in WAIT. -/
def Dev.canResume (d : Dev) (t : Nat) : Dev := forN 4 (fun n d => d.setCanMode t n (d.fld (F.CAN_CTL_MODE n))) d

/-- R290: a claim: withheld frames leave at once, SYNC among them, and OUTPUT sets start from the next commit. -/
def Dev.canClaim (d : Dev) : Dev :=
  forN 4 (fun n d => d.modChan n (fun c => { c with
    outputsFrom := false, engine := c.engine.filter (fun f => !(f.etype == 3)) })) d

/-! ## Reference messages (R283) -/

/-- R283: a time master's reference message at MONO t. Before the first one has been sent its time is a free value. -/
def Dev.refSend (n t : Nat) (d : Dev) : Dev :=
  let c := d.chan n
  let open_ := c.refPrev.isNone
  let prev := match c.refPrev with | some p => p | none => d.free.toNat
  let f : CanFrame :=
    { ide := false, id := BitVec.ofNat 29 (d.fld (F.CAN_REFCFG_REFID n)), fdf := false, brs := false, esi := false,
      rtr := false, dlc := 8,
      data := leBytes c.refCycle 2 ++ [BitVec.ofNat 8 (d.tq t), BitVec.ofNat 8 (prev / 1000000000)] ++
        leBytes (prev % 1000000000) 4 }
  let d := if open_ then d.nextFree else d
  let d := d.modChan n (fun c => { c with
    refCycle := (c.refCycle + 1) % 65536, nextRef := some (t + d.refPeriod n),
    engine := c.engine.filter (fun g => g.ide || g.isCommand) })
  d.engineQueue n f

/-- CAN_REF_SEND: the reference period of channel n ends (R283). -/
def execCanRefSend (n : BitVec 2) (s : State) : Host.Outcome State Fault Refusal :=
  match (s.dev.chan n.toNat).nextRef with
  | some m => s.at m (Dev.refSend n.toNat)
  | none => .next s

/-- R283: at MONO t no reference message has come for 3 × PER. -/
def Dev.refLost (n t : Nat) (d : Dev) : Dev :=
  ((d.setFld (F.CAN_TCYC_VALID n) 0).modChan n (fun c => { c with slavePrev := none, refSeen := none })).canEvent t n 3

/-- CAN_REF_TIMEOUT: 3 × PER µs pass without a reference message (R283). -/
def execCanRefTimeout (n : BitVec 2) (s : State) : Host.Outcome State Fault Refusal :=
  match (s.dev.chan n.toNat).refSeen with
  | some m => s.at (m + 3 * s.dev.refPeriod n.toNat) (Dev.refLost n.toNat)
  | none => .next s

end Sys2Proof.Machine
end

