-- ==== Sys2Proof/Machine/Segment.lean ====
section
/-!
DEFINITION. The segment that a stand runs on (14_stands.md): admission of its members, their order and routes, time of the
leader, and the acting leader (R343, R344, R347 to R350, R354, R356).
-/
namespace Sys2Proof.Machine

/-- R359: an event of the stand link. -/
def Dev.stdEvent (d : Dev) (t k : Nat) : Dev := d.raiseFlag t (164 + k) Reg.STD_STAT (8 + k)

/-- The stand record changed by f. -/
def Dev.modStand (d : Dev) (f : Stand → Stand) : Dev := { d with stand := f d.stand }

/-- R347: this device's IDENT. -/
def Dev.ident (d : Dev) : StandIdent :=
  { uid := d.uid, topo := BitVec.ofNat 2 d.topo, sidx := BitVec.ofNat 1 d.ownSidx, pos := BitVec.ofNat 3 d.ownPos,
    id0 := d.rd Reg.STD_ID0, hash := d.rd Reg.STD_CFGHASH }

/-- R347: two members agree. -/
def agree (a b : StandIdent) : Bool := a.topo == b.topo && a.id0 == b.id0 && a.hash == b.hash

/-- R344: two devices of one stand stand at one position without being the members of a pair. -/
def Dev.clash (d : Dev) (a b : StandIdent) : Bool :=
  a.uid != b.uid && a.sidx == b.sidx && a.pos == b.pos && !(d.pairedPos a.pos.toNat)

/-- R344, R347: member m is admitted: it agrees, and it does not stand at the position of a member with a lower
identity. -/
def Dev.admitted (d : Dev) (m : StandMember) : Bool :=
  m.reached && agree d.ident m.ident && !(d.clash m.ident d.ident && decide (d.uid < m.ident.uid)) &&
    !(d.stand.members.any (fun x => x.reached && d.clash m.ident x.ident && decide (x.ident.uid < m.ident.uid)))

/-- The members that count for the stand, other than this device. -/
def Dev.peers (d : Dev) : List StandMember := d.stand.members.filter d.admitted

/-- R344: this device gives way to a conflicting one. -/
def Dev.ownClash (d : Dev) : Bool :=
  d.stand.members.any (fun m => m.reached && agree d.ident m.ident && d.clash m.ident d.ident)
def Dev.ownLoses (d : Dev) : Bool :=
  d.stand.members.any (fun m => m.reached && agree d.ident m.ident && d.clash m.ident d.ident && decide (m.ident.uid < d.uid))

/-! ## Order of the segment (R343, R354) -/

/-- Members reached through a port with their distances, the nearest first. -/
def insertHop (x : Nat × StandMember) : List (Nat × StandMember) → List (Nat × StandMember)
  | [] => [x]
  | y :: rest => if x.1 ≤ y.1 then x :: y :: rest else y :: insertHop x rest
def Dev.via (d : Dev) (port : Nat) : List (Nat × StandMember) :=
  (d.stand.members.filterMap (fun m => (if port = 0 then m.hops0 else m.hops1).map (fun h => (h, m)))).foldr insertHop []

/-- The member next to this device through a port. -/
def Dev.neighbour (d : Dev) (port : Nat) : Option StandMember := ((d.via port).find? (fun p => p.1 == 1)).map (fun p => p.2)

/-- The devices of the segment in the order port 1 to port 0; none stands for this device. In a ring it begins with this
device. -/
def Dev.order (d : Dev) : List (Option StandMember) :=
  if d.stand.ring then none :: (d.via 1).map (fun p => some p.2)
  else ((d.via 0).map (fun p => some p.2)).reverse ++ none :: (d.via 1).map (fun p => some p.2)

/-- The IDENT of a device of the segment. -/
def Dev.identOf (d : Dev) : Option StandMember → StandIdent
  | some m => m.ident
  | none => d.ident

/-- Stand indices along the segment change from 1 to 0 so many times. -/
def falls : List Nat → Nat
  | a :: b :: rest => (if b < a then 1 else 0) + falls (b :: rest)
  | _ => 0

/-- R343: the wiring order of the topology is broken where this device can see it. -/
def Dev.wiringBad (d : Dev) : Bool :=
  let pos (p : Nat) : Option Nat := (d.neighbour p).map (fun m => m.ident.pos.toNat)
  match d.topo with
  | 0 => false
  | 1 =>
    d.pairedPos d.ownPos && (pos 0).isSome && (pos 1).isSome && pos 0 != some d.ownPos && pos 1 != some d.ownPos
  | 2 =>
    let mate := if d.ownSidx = 0 then pos 1 else pos 0
    let other := if d.ownSidx = 0 then pos 0 else pos 1
    (mate.isSome && mate != some d.ownPos) || other == some d.ownPos
  | _ =>
    let l := d.order.map (fun x => (d.identOf x).sidx.toNat)
    let n := falls l + (if d.stand.ring then (match l.getLast?, l.head? with
      | some a, some b => if b < a then 1 else 0
      | _, _ => 0) else 0)
    Nat.blt (b2n d.stand.ring) n

/-- R352: a device of the segment sends copies: not a standby member of a pair. -/
def Dev.sends (d : Dev) : Option StandMember → Bool
  | none => d.leaseHeld
  | some m => match m.status with | some s => s.roles.getLsbD 0 | none => true

/-- Prefix counts of the senders. -/
def prefixes (acc : Nat) : List Bool → List Nat
  | [] => []
  | b :: rest => (acc + b2n b) :: prefixes (acc + b2n b) rest

/-- R354: the hop count h and the count k of copies on the busiest link. -/
def Dev.routeHK (d : Dev) : Nat × Nat :=
  let l := d.order.map d.sends
  let n := l.length
  if d.stand.ring then
    let h := n / 2
    let count (len : Nat) : Nat := (List.range n).foldl (fun m i => max m (((l ++ l).drop i |>.take len).filter id).length) 0
    (h, max (count h) (count (n - 1 - h)))
  else
    let up := (prefixes 0 l).take (n - 1)
    let down := (prefixes 0 l.reverse).take (n - 1)
    (n - 1, (up ++ down).foldl max 0)

/-- R344, R354: some link of the segment joins the two members of a pair. -/
def Dev.pairLink (d : Dev) : Bool :=
  d.topo == 2 || (d.topo == 1 && d.fld F.STD_PAIRMASK_MASK != 0)

/-- R352: bytes of a partition that are sent. -/
def Dev.sendLen (d : Dev) : Nat := max 1 (min 512 (d.fld F.STD_CYCLE_LEN)) * 64

/-- R349: the stand cycle in ns. -/
def Dev.cycleNs (d : Dev) : Nat := max 250 (min 100000 (d.fld F.STD_CYCLE_CYCLE)) * 1000

/-- R354: the replication time T in ns. -/
def Dev.replTime (d : Dev) : Nat :=
  let x := d.routeHK
  let wire := x.2 * (d.sendLen + 64) * (if d.pairLink then 4 else 2)
  1200 * x.1 + (wire + 4) / 5

/-! ## Time of the leader (R349, R350) -/

/-- R349: STD_MONOOFS, signed. -/
def Dev.monoOfs (d : Dev) : Int := (BitVec.ofNat 64 (d.rd64 Reg.STD_MONOOFS0)).toInt

/-- STD_MONOOFS set. -/
def Dev.setMonoOfs (d : Dev) (o : Int) : Dev := d.wr64 Reg.STD_MONOOFS0 (o % (2 ^ 64 : Nat)).toNat

/-- The least multiple of c that is at least x. -/
def multipleFrom (c x : Nat) : Nat := (x + c - 1) / c * c

/-- R349: the next boundary after a change of leader or of the cycle, in the MONO of the leader: no cycle is shorter than
CYCLE. -/
def Dev.replan (d : Dev) (t : Nat) : Dev :=
  let from_ : Int := match d.stand.lastB with | some l => (l + d.cycleNs : Nat) | none => (t : Int) + 1
  d.modStand (fun s => { s with nextB := some (multipleFrom d.cycleNs (from_ + d.monoOfs).toNat) })

/-- R350: the member follows the station time of the leader, or stops doing so: the selection of R250 then acts at once. -/
def Dev.setFollowing (d : Dev) (t : Nat) (b : Bool) : Dev :=
  if d.following = b then d
  else if b then d.setFld F.STD_STAT_TFOLLOWING 1
  else
    let d := (d.setFld F.STD_STAT_TFOLLOWING 0).setFld F.PTP_STAT_SRC 0
    let d := { d with time := { d.time with usable := false, usableAt := t } }
    (d.settleTime t).follow (d.preferred t).1 t

/-! ## Admission and the leader (R344, R347, R348) -/

/-- CFGERR takes a code at MONO t; a code other than 0 raises source 167. -/
def Dev.setCfgErr (d : Dev) (t code : Nat) : Dev :=
  if d.fld F.STD_STAT_CFGERR = code then d
  else
    let d := d.setFld F.STD_STAT_CFGERR code
    if code = 0 then d else d.stdEvent t 3

/-- R348: who may lead: position, that it holds the control role, identity. -/
def Dev.leadList (d : Dev) : List (Nat × Bool × BitVec 128) :=
  let one (i : StandIdent) (roles : Nat) : Nat × Bool × BitVec 128 := (i.pos.toNat, bitOf roles 1, i.uid)
  let mine := if d.stand.out then [] else [one d.ident d.roleWord]
  mine ++ (d.peers.filter (fun m => d.topo != 3 || m.ident.sidx == d.ident.sidx)).map (fun m =>
    one m.ident (match m.status with | some s => s.roles.toNat | none => 7))

/-- R348: the better leader of two: the lower position, and at one position the member with the control role. -/
def leadBetter (a b : Nat × Bool × BitVec 128) : Bool := Nat.blt a.1 b.1 || (a.1 == b.1 && a.2.1 && !b.2.1)

/-- R348: the acting leader. -/
def Dev.chooseLeader (d : Dev) : Option (Nat × Bool × BitVec 128) :=
  d.leadList.foldl (fun (x : Option (Nat × Bool × BitVec 128)) c =>
    match x with | some y => if leadBetter c y then some c else some y | none => some c) none

/-- R360: positions reachable in the stand with an index. -/
def Dev.reach (d : Dev) (s : Nat) : Nat :=
  (List.range 8).foldl (fun w p =>
    let own := !d.stand.out && d.ownPos == p && d.ownSidx == s
    let there := d.peers.any (fun m => m.ident.pos.toNat == p && m.ident.sidx.toNat == s)
    w + b2n (own || there) * 2 ^ p) 0

/-- R344, R347, R354: the configuration error of this device. -/
def Dev.standError (d : Dev) : Nat :=
  if d.ownClash then 1
  else if d.stand.members.any (fun m => m.reached && !(agree d.ident m.ident)) && d.peers.isEmpty then 2
  else if d.cycleNs < d.replTime + 10000 then 3
  else if d.wiringBad then 4
  else 0

/-- R347, R348, R356: membership, leader, reach and routing looked at again at MONO t. -/
def Dev.settleStand (d : Dev) (t : Nat) : Dev :=
  if !d.standOn then d
  else
    let d := d.setCfgErr t d.standError
    let e := d.fld F.STD_STAT_CFGERR
    let d := d.modStand (fun s => { s with out := e == 2 || e == 3 || (e == 1 && d.ownLoses) })
    let reach := d.reach d.ownSidx
    let split := (List.range d.npos).any (fun p => !(bitOf reach p))
    let lead := d.chooseLeader
    let uid := lead.map (fun x => x.2.2)
    let changed := d.stand.leader != uid || d.flag F.STD_STAT_SPLIT != split || d.fld F.STD_REACH_OWN != reach ||
      d.fld F.STD_REACH_OTHER != d.reach (1 - d.ownSidx)
    let newLead := d.stand.leader != uid
    let isLead := uid == some d.uid
    let d := ((d.setFld F.STD_REACH_OWN reach).setFld F.STD_REACH_OTHER (d.reach (1 - d.ownSidx))).setFld F.STD_REACH_HOPS
      d.routeHK.1
    let d := ((d.setFld F.STD_STAT_LEADER (match lead with | some x => x.1 | none => 0)).setFld F.STD_STAT_LEADVALID
      (b2n lead.isSome)).setFld F.STD_STAT_ISLEAD (b2n isLead)
    let d := (d.setFld F.STD_STAT_SPLIT (b2n split)).modStand (fun s => { s with leader := uid })
    let d := if newLead then d.modStand (fun s => { s with known := false }) else d
    let d := if isLead && !d.stand.known then ((d.setMonoOfs 0).modStand (fun s => { s with known := true })).replan t else d
    let d := if isLead || lead.isNone || d.stand.out then d.setFollowing t false else d
    (if changed then d.stdEvent t 2 else d).touch

end Sys2Proof.Machine
end

