-- ==== Sys2Proof/Machine/Frp.lean ====
section
/-!
DEFINITION. The fast rung plane: the fast image (R155 to R157), rung groups (R159, R160), the sweep (R161 to R168),
running sets (R169), table check and swap (R171, R172), the stop on a double-bit error (R173) and snapshots (R176).
-/
namespace Sys2Proof.Machine

/-! ## The fast image -/

/-- R156: the program-exported flags; 0 while their task's regions are in SAFE state. -/
def Dev.exportedFlags (d : Dev) : Nat :=
  (List.range 16).foldl (fun x i =>
    x + (match d.outWord (0x10 + i) with | some v => v.toNat | none => 0) * 2 ^ (64 * i)) 0

/-- R155: the external bits of the fast image as they stand. -/
def Dev.external (d : Dev) : BitVec 4096 :=
  BitVec.ofNat 4096
    (d.rd64 Reg.BIO_BI0 + (d.rd Reg.BIO_BI2).toNat * 2 ^ 64 + d.boState.toNat * 2 ^ 96 + d.brb.toNat * 2 ^ 160 +
      (List.range 8).foldl (fun x j => x + (d.rd (Reg.ADC_THRBIT j)).toNat * 2 ^ (256 + 32 * j)) 0 +
      d.gooseBits.toNat * 2 ^ 512 + d.exportedFlags * 2 ^ 2048)

/-- R155: the fast image of a capture and the markers. -/
def withMarkers (cap : BitVec 4096) (mk : BitVec 1024) : BitVec 4096 :=
  cap ||| BitVec.ofNat 4096 (mk.toNat * 2 ^ 1024)

/-- R157: the value of a 13-bit literal over a capture and the markers it sees. -/
def litVal (cap : BitVec 4096) (mk : BitVec 1024) (l : Nat) : Bool :=
  let a := l % 4096
  let v := if a = 0xFFF then false else if 0x400 ≤ a ∧ a < 0x800 then mk.getLsbD (a - 0x400) else cap.getLsbD a
  v != bitOf l 12

/-! ## Rung entries (R159) -/

/-- Bits hi to lo of a rung entry. -/
def Rung.fld (r : Rung) (hi lo : Nat) : Nat := bitsOf r.toNat hi lo

/-- Literal j. -/
def Rung.lit (r : Rung) (j : Nat) : Nat := Rung.fld r (13 * j + 12) (13 * j)

/-- DEST. -/
def Rung.dest (r : Rung) : Nat := Rung.fld r 63 52

/-- PRESET. -/
def Rung.preset (r : Rung) : Nat := Rung.fld r 87 64

/-- TMODE. -/
def Rung.tmode (r : Rung) : Nat := Rung.fld r 89 88

/-- OMODE. -/
def Rung.omode (r : Rung) : Nat := Rung.fld r 91 90

/-- CHAIN. -/
def Rung.chain (r : Rung) : Bool := r.getLsbD 92

/-- ALWAYS. -/
def Rung.always (r : Rung) : Bool := r.getLsbD 93

/-- EN. -/
def Rung.en (r : Rung) : Bool := r.getLsbD 94

/-- ELAPSED. -/
def Rung.elapsed (r : Rung) : Nat := Rung.fld r 119 96

/-- TQ. -/
def Rung.tq (r : Rung) : Bool := r.getLsbD 120

/-- The entry's bits [95:0]. -/
def Rung.config (r : Rung) : BitVec 96 := r.truncate 96

/-- The entry with ELAPSED, TQ and RES as given. -/
def Rung.withState (r : Rung) (elapsed : Nat) (tq res : Bool) : Rung :=
  BitVec.ofNat 128 (r.config.toNat + elapsed % 2 ^ 24 * 2 ^ 96 + b2n tq * 2 ^ 120 + b2n res * 2 ^ 121)

/-- Rung i of a table. -/
def rungAt (t : Sparse Rung) (i : Nat) : Rung := Sparse.get (fun _ => 0) t i

/-- Rung i of a table replaced. -/
def setRung (t : Sparse Rung) (i : Nat) (r : Rung) : Sparse Rung := Sparse.set (fun _ => 0) t i r

/-- The canonical form of a table. -/
def tableWf (t : Sparse Rung) : Bool := Sparse.wf (fun _ => (0 : Rung)) t

/-- R160: the groups of a table. -/
def groupsOf : Sparse Rung → List (List (Nat × Rung))
  | [] => []
  | (i, r) :: rest =>
    if r.en then
      match groupsOf rest with
      | ((j, q) :: g) :: gs =>
        if r.chain && j == i + 1 then ((i, r) :: (j, q) :: g) :: gs else [(i, r)] :: ((j, q) :: g) :: gs
      | gs => [(i, r)] :: gs
    else groupsOf rest

/-- The group end. -/
def groupEnd (g : List (Nat × Rung)) : Rung := match g.getLast? with | some p => p.2 | none => 0

/-- R169: a group runs under FRP_STAT.PLANE = p. -/
def runsUnder (p : Nat) (g : List (Nat × Rung)) : Bool := p == 2 || (p == 1 && (groupEnd g).always)

/-- The groups that run. -/
def Dev.running (d : Dev) : List (List (Nat × Rung)) :=
  (groupsOf d.plane.active).filter (runsUnder (d.fld F.FRP_STAT_PLANE))

/-! ## Outputs and markers of the running groups -/

/-- The fast output that a destination drives. -/
def destOutput (dest : Nat) : Option Nat := if 0x60 ≤ dest ∧ dest < 0xA0 then some (dest - 0x60) else none

/-- The marker that a destination writes. -/
def destMarker (dest : Nat) : Option Nat := if 0x400 ≤ dest ∧ dest < 0x800 then some (dest - 0x400) else none

/-- R165, R166: FOOWN, OMODE, F and the markers follow the running groups: a marker whose group does not run reads 0,
and an output that no running group drives follows T. -/
def Dev.refreshOwn (d : Dev) : Dev :=
  let ends := d.running.map groupEnd
  let own := ends.foldl (fun (x : Word64) r =>
    match destOutput r.dest with | some k => x ||| BitVec.twoPow 64 k | none => x) 0
  let mk := ends.foldl (fun (x : BitVec 1024) r =>
    match destMarker r.dest with | some m => x ||| BitVec.twoPow 1024 m | none => x) 0
  let d := (d.wr64 Reg.FRP_FOOWN0 own.toNat).wr64 Reg.FRP_FO0 (d.fastOut &&& own).toNat
  let d := forN 4 (fun j d => d.wr (Reg.FRP_OMODE j) 0) d
  let d := ends.foldl (fun d r =>
    match destOutput r.dest with
    | some k => d.wr (Reg.FRP_OMODE (k / 16))
        (putBits (d.rd (Reg.FRP_OMODE (k / 16))) (2 * (k % 16) + 1) (2 * (k % 16)) r.omode)
    | none => d) d
  { d with plane := { d.plane with markers := d.plane.markers &&& mk }, outs := { d.outs with dirty := true } }

/-- FRP_STAT.PLANE set to p at MONO t; source 74 when it changes. -/
def Dev.setPlane (d : Dev) (t p : Nat) : Dev :=
  if d.fld F.FRP_STAT_PLANE = p then d
  else ((d.setFld F.FRP_STAT_PLANE p).raiseFlag t 74 Reg.FRP_STAT 10).touch

/-- R169: the value of FRP_STAT.PLANE that phase and mode ask for. -/
def Dev.planeWanted (d : Dev) : Nat :=
  if d.phase = .ready then (match d.mode with | .run => 2 | .remote => 2 | .stop => 1 | .program => 0) else 0

/-- R169: at a boundary the running set changes to that of PLANE = p: groups that start have ELAPSED and TQ 0. -/
def Dev.changeRunning (d : Dev) (t p : Nat) : Dev :=
  let old := d.fld F.FRP_STAT_PLANE
  let starting := (groupsOf d.plane.active).filter (fun g => runsUnder p g && !runsUnder old g)
  let active := starting.foldl (fun tb g =>
    g.foldl (fun tb q => setRung tb q.1 (q.2.withState 0 false (q.2.getLsbD 121))) tb) d.plane.active
  let d := { d with plane := { d.plane with active := active } }
  (d.setPlane t p).refreshOwn

/-- R173: the plane stops on a double-bit error at rung i of the active copy. -/
def Dev.planeFault (d : Dev) (t i : Nat) : Dev :=
  let d := ((d.setFld F.FRP_ECCERR_RUNG i).setFld F.FRP_ECCERR_VALID 1).raiseFlag t 76 Reg.FRP_STAT 12
  (d.setPlane t 3).refreshOwn

/-- R173: an error that the last sweep met in the active copy stops the plane at boundary b. -/
def Dev.faultIfDed (d : Dev) (b : Nat) : Dev :=
  match d.plane.ded with
  | some i =>
    let d := { d with plane := { d.plane with ded := none } }
    if d.fld F.FRP_STAT_PLANE = 3 then d else d.planeFault b i
  | none => d

/-! ## The swap (R172) -/

/-- R172: the entry of the new table at an index: its timer state is that of the old entry where bits [95:0] agree. -/
def carryRung (old new : Rung) : Rung :=
  if old.config = new.config then new.withState old.elapsed old.tq (old.getLsbD 121) else new.withState 0 false false

/-- R172, R193: the shadow copy becomes the active one at MONO t; ELAPSED and TQ of rung carry entries of an exchange take
precedence. A plane in FAULT stays so unless ACTIVATE has asked for the swap (R169). -/
def Dev.swapTables (d : Dev) (t : Nat) : Dev :=
  let active := d.plane.shadow.foldl (fun (tb : Sparse Rung) p =>
    setRung tb p.1 (carryRung (rungAt d.plane.active p.1) p.2)) []
  let active := d.plane.carry.foldl (fun (tb : Sparse Rung) c =>
    let old := rungAt d.plane.active c.1
    setRung tb c.2 ((rungAt tb c.2).withState old.elapsed old.tq ((rungAt tb c.2).getLsbD 121))) active
  let p := if d.fld F.FRP_STAT_PLANE = 3 ∧ d.plane.byExchange = false then 0 else d.fld F.FRP_STAT_PLANE
  let d := { d with plane := { d.plane with
    active := active, shadow := d.plane.active, swapDue := none, carry := [], byExchange := false } }
  let d := (d.setFld F.FRP_TBLCTL_ACTCOPY (1 - d.fld F.FRP_TBLCTL_ACTCOPY)).incWrap Reg.FRP_SWAPCNT
  ((d.raiseFlag t 73 Reg.FRP_STAT 9).setPlane t p).refreshOwn

/-- R172, R173: at boundary t an error of the sweep before stops the plane, and a swap that is due takes place. -/
def Dev.swapIfDue (d : Dev) (t : Nat) : Dev :=
  let d := d.faultIfDed t
  match d.plane.swapDue with | some at_ => if at_ < t then d.swapTables t else d | none => d

/-! ## The sweep (R161 to R163) -/

/-- Where a sweep stands while its rungs are evaluated. -/
structure SweepAt where
  /-- The markers as they stand, and as the rungs of the present step see them. -/
  markers : BitVec 1024
  seen : BitVec 1024
  step : Nat
  /-- R160: RES of the previous rung of the group. -/
  carry : Bool
  table : Sparse Rung
  fo : Word64
  /-- R168: changes of fast outputs with the step in which they come. -/
  changes : List (Nat × Nat × Bool)

/-- R163: the group end: Q and ELAPSED for a group result. -/
def groupResult (r : Rung) (res : Bool) : Bool × Nat :=
  if r.tmode = 1 then
    if res then (Nat.ble r.preset r.elapsed, if r.elapsed < r.preset then r.elapsed + 1 else r.elapsed)
    else (false, 0)
  else if r.tmode = 2 then
    if res then (true, 0)
    else if r.tq && Nat.blt r.elapsed r.preset then (true, r.elapsed + 1)
    else (false, 0)
  else (res, r.elapsed)

/-- R163: the AND of the four literals of a rung. -/
def rungTerm (cap : BitVec 4096) (seen : BitVec 1024) (r : Rung) : Bool :=
  litVal cap seen (r.lit 0) && litVal cap seen (r.lit 1) && litVal cap seen (r.lit 2) && litVal cap seen (r.lit 3)

/-- R168, R314: a change of a fast output joins those of its sweep: in the order of their steps, and within one step of
their outputs. -/
def addChange (c : Nat × Nat × Bool) : List (Nat × Nat × Bool) → List (Nat × Nat × Bool)
  | [] => [c]
  | x :: rest => if c.1 * 64 + c.2.1 < x.1 * 64 + x.2.1 then c :: x :: rest else x :: addChange c rest

/-- R162, R163: one running rung; last says that it is its group's end. -/
def SweepAt.rung (cap : BitVec 4096) (x : SweepAt) (i : Nat) (r : Rung) (last : Bool) : SweepAt :=
  let x := if i / 64 = x.step then x else { x with step := i / 64, seen := x.markers }
  let res := rungTerm cap x.seen r || x.carry
  if last then
    let q := groupResult r res
    let x := { x with carry := false, table := setRung x.table i (r.withState q.2 q.1 res) }
    match destMarker r.dest, destOutput r.dest with
    | some m, _ =>
      { x with markers := if q.1 then x.markers ||| BitVec.twoPow 1024 m else x.markers &&& ~~~(BitVec.twoPow 1024 m) }
    | none, some k =>
      if x.fo.getLsbD k = q.1 then x
      else { x with fo := x.fo ^^^ BitVec.twoPow 64 k, changes := addChange (i / 64, k, q.1) x.changes }
    | none, none => x
  else { x with carry := res, table := setRung x.table i (r.withState 0 false res) }

/-- R163: the rungs of one group in index order. -/
def SweepAt.group (cap : BitVec 4096) : SweepAt → List (Nat × Rung) → SweepAt
  | x, [] => x
  | x, [p] => x.rung cap p.1 p.2 true
  | x, p :: q :: rest => SweepAt.group cap (x.rung cap p.1 p.2 false) (q :: rest)

/-- R163: all running groups over a capture. -/
def Dev.evaluate (d : Dev) (cap : BitVec 4096) : SweepAt :=
  d.running.foldl (SweepAt.group cap)
    { markers := d.plane.markers, seen := d.plane.markers, step := 0, carry := false, table := d.plane.active,
      fo := d.fastOut, changes := [] }

/-- R176: an enabled watch looks at the image at the end of the sweep (assumption 84). -/
def Dev.watch (d : Dev) (t k : Nat) : Dev :=
  let v := d.plane.image.getLsbD (d.fld (F.FRP_WATCH_ADDR k))
  if d.flag (F.FRP_WATCH_EN k) && d.flag (F.FRP_WATCH_VAL k) != v then
    let d := (d.setFld (F.FRP_WATCH_VAL k) (b2n v)).incFld (F.FRP_WATCH_CNT k)
    if d.flag (F.FRP_WATCH_CHG k) then d else (d.setFld (F.FRP_WATCH_CHG k) 1).raiseFlag t 75 Reg.FRP_STAT 11
  else d

/-- The first boundary from MONO t on at which no sweep has begun. -/
def Dev.nextBoundary (d : Dev) (t : Nat) : Nat :=
  let b := (t + 63) / 64 * 64
  match d.plane.last with | some l => if l < b then b else l + 64 | none => b

/-- R169: the running set follows the mode at the first boundary after its change. -/
def Dev.followMode (d : Dev) (b : Nat) : Dev :=
  let p := d.fld F.FRP_STAT_PLANE
  if p = 3 ∨ p = d.planeWanted ∨ ¬ d.plane.modeAt < b then d else d.changeRunning b d.planeWanted

/-- R161 to R163, R168: the capture at boundary b and the evaluation of all running groups; F changes at the ends of the
ticks of the sweep. -/
def Dev.runSweep (d : Dev) (b : Nat) : Dev :=
  let cap := d.external
  let x := d.evaluate cap
  let d := { d with plane := { d.plane with
    active := x.table, markers := x.markers, before := d.plane.image, image := withMarkers cap x.markers,
    last := some b } }
  { d with outs := { d.outs with fPipe := x.changes.map (fun c => (b + c.1 + 1, c.2.1, c.2.2)) } }

/-- R161 to R163, R169, R172, R173: the sweep that begins at boundary b; ecc says what reading rung i of the active
copy met. -/
def Dev.sweep (ecc : Ecc) (i : Nat) (b : Nat) (d : Dev) : Dev :=
  let d := (((d.flushPads b).swapIfDue b).followMode b).runSweep b
  let d := match ecc with
    | .clean => d
    | .corrected => d.eccCorrected 5 0
    | .double => { d with plane := { d.plane with ded := some i } }
  forN 8 (fun k d => d.watch (b + 64) k) d

/-- R170: at entry into deep sleep at MONO t the plane completes the sweep in progress and stops; every marker is 0 and no
output is fast-driven any more. -/
def Dev.stopPlane (d : Dev) (t : Nat) : Dev :=
  let e := match d.plane.last with | some b => max t (b + 64) | none => t
  let d := d.flushF e
  (if d.fld F.FRP_STAT_PLANE = 3 then d else d.setPlane e 0).refreshOwn

/-- SWEEP: the next boundary comes; the sweep that begins there is taken whole. -/
def execSweep (ecc : Ecc) (rung : BitVec 12) (s : State) : Host.Outcome State Fault Refusal :=
  s.at (s.dev.nextBoundary s.mono) (Dev.sweep ecc rung.toNat)

/-! ## The table window and its control (R158, R171) -/

/-- FRP_STAT.WPROT. -/
def Dev.frpWprot (d : Dev) : Dev := d.setFld F.FRP_STAT_WPROT 1

/-- R6, R158, R194: a write of word w of rung i by requester r; bit 31 of word 2 is reserved (R159). While the exchange is
not IDLE the shadow copy belongs to it (assumption 86). -/
def Dev.frpTableWrite (d : Dev) (r : Requester) (i w : Nat) (v : Word) : Dev :=
  if d.progOk r && !(d.flag F.FRP_TBLCTL_BUSY) && d.fld F.XCH_STAT_STATE == 0 then
    if w = 3 then d
    else
      let e := (rungAt d.plane.shadow i).toNat
      let lo := 2 ^ (32 * w)
      let v := if w = 2 then v.toNat % 2 ^ 31 else v.toNat
      let e' := e - bitsOf e (32 * w + 31) (32 * w) * lo + v * lo
      { d with plane := { d.plane with shadow := setRung d.plane.shadow i (BitVec.ofNat 128 e') } }
  else d.frpWprot

/-- R158: a read of word w of rung i. -/
def Dev.frpTableRead (d : Dev) (i w : Nat) : Word :=
  let e := rungAt (if d.flag F.FRP_TBLCTL_RSEL then d.plane.active else d.plane.shadow) i
  BitVec.ofNat 32 (bitsOf e.toNat (32 * w + 31) (32 * w))

/-- R171, R194: ACTIVATE written at MONO t by requester r; refused while an exchange is not IDLE. -/
def Dev.frpActivate (d : Dev) (t : Nat) (r : Requester) : Dev :=
  if d.progOk r && !(d.flag F.FRP_TBLCTL_BUSY) && d.fld F.XCH_STAT_STATE == 0 then
    { d.setFld F.FRP_TBLCTL_BUSY 1 with plane := { d.plane with checkEnd := some (t + 40000) } }
  else d.frpWprot

/-- R171: a literal names a reserved address other than 0xFFF. -/
def badLit (l : Nat) : Bool :=
  let a := l % 4096
  (decide (0xC0 ≤ a) && decide (a < 0x100)) || (decide (0xC00 ≤ a) && decide (a < 0xFFF))

/-- R171: the check code of rung i of table t, with the destinations of the group ends before it; 0 where it passes. Of
several conditions that a rung meets, the one with the lowest code is reported (assumption 85). -/
def checkRung (t : Sparse Rung) (seen : List Nat) (i : Nat) (r : Rung) : Nat :=
  let badChain := r.chain && (i == 4095 || !(rungAt t (i + 1)).en)
  let inside := r.en && r.chain
  if r.en && (badLit (r.lit 0) || badLit (r.lit 1) || badLit (r.lit 2) || badLit (r.lit 3)) then 1
  else if r.en && !r.chain && (destMarker r.dest).isNone && (destOutput r.dest).isNone then 2
  else if r.en && !r.chain && seen.contains r.dest then 3
  else if badChain then 4
  else if r.en && !r.chain && (r.tmode == 3 || r.omode == 3) then 5
  else if r.en && (r.getLsbD 95 ||
      (inside && (r.dest != 0 || r.preset != 0 || r.tmode != 0 || r.omode != 0 || r.always))) then 6
  else 0

/-- R171: the first failing rung of a table and its code. -/
def checkFrom (t : Sparse Rung) : List Nat → Sparse Rung → Option (Nat × Nat)
  | _, [] => none
  | seen, (i, r) :: rest =>
    let c := checkRung t seen i r
    if c = 0 then checkFrom t (if r.en && !r.chain then r.dest :: seen else seen) rest else some (i, c)

/-- R171: the table check: the rung ded with a double-bit error fails it with code 7, whatever else it meets
(assumption 85), unless an earlier rung fails. -/
def checkTable (t : Sparse Rung) (ded : Option Nat) : Option (Nat × Nat) :=
  match checkFrom t [] t, ded with
  | some (i, c), some j => if j ≤ i then some (j, 7) else some (i, c)
  | some p, none => some p
  | none, some j => some (j, 7)
  | none, none => none

/-- R171: FRP_CHK and the failure flag for a result of the check. -/
def Dev.recordCheck (d : Dev) (t : Nat) (x : Option (Nat × Nat)) : Dev :=
  match x with
  | some (i, c) =>
    ((d.setFld F.FRP_CHK_CODE c).setFld F.FRP_CHK_RUNG i).raiseFlag t 72 Reg.FRP_STAT 8
  | none => (d.setFld F.FRP_CHK_CODE 0).setFld F.FRP_CHK_RUNG 0

/-- R11, R171: the check ends at MONO t; ecc says what reading rung i of the shadow copy met. -/
def Dev.frpCheckDone (ecc : Ecc) (i : Nat) (t : Nat) (d : Dev) : Dev :=
  match d.plane.checkEnd with
  | none => d
  | some _ =>
    let x := checkTable d.plane.shadow (if ecc = .double then some i else none)
    let d := if ecc = .corrected then d.eccCorrected 5 0 else d
    let d := ({ d with plane := { d.plane with checkEnd := none } }).setFld F.FRP_TBLCTL_BUSY 0
    let d := d.recordCheck t x
    if x.isNone then { d with plane := { d.plane with swapDue := some t } } else d

/-- FRP_CHECK_DONE: dt ns pass, no more than the 40 µs of R171 from the start of the check, and the check ends. -/
def execFrpCheckDone (x : RungCheck) (s : State) : Host.Outcome State Fault Refusal :=
  match s.dev.plane.checkEnd with
  | some e => s.at (min (s.mono + x.dt) e) (Dev.frpCheckDone x.ecc x.rung.toNat)
  | none => .next s

/-- FRP_SWAP: the swap that is due takes place at the next boundary; the sweep that begins there is a step of its own. -/
def execFrpSwap (s : State) : Host.Outcome State Fault Refusal :=
  match s.dev.plane.swapDue with
  | some at_ => s.at (s.dev.nextBoundary (max s.mono (at_ + 1))) (fun t d => (d.flushPads t).swapIfDue t)
  | none => .next s

/-! ## Fast image reads (R176) -/

/-- R176: the fast image at the end of the last completed sweep, seen at MONO t. -/
def Dev.imageDone (d : Dev) (t : Nat) : BitVec 4096 :=
  match d.plane.last with
  | some b => if b + 64 ≤ t then d.plane.image else d.plane.before
  | none => 0

/-- R176: GO: a snapshot is requested. -/
def Dev.frpSnapGo (d : Dev) : Dev := d.setFld F.FRP_SNAPCTL_BUSY 1

/-- R176: at MONO t, the end of a sweep, the whole image is copied. -/
def Dev.frpSnapTake (t : Nat) (d : Dev) : Dev :=
  if d.flag F.FRP_SNAPCTL_BUSY then
    let im := (d.imageDone t).toNat
    let d := forN 128 (fun k d => d.wr (Reg.FRP_SNAP k) (BitVec.ofNat 32 (im / 2 ^ (32 * k)))) d
    (d.wr Reg.FRP_SNAPSW (BitVec.ofNat 32 (t / 64 - 1))).setFld F.FRP_SNAPCTL_BUSY 0
  else d

/-- FRP_SNAPSHOT_DONE: the sweep in progress ends and the requested snapshot is taken. -/
def execFrpSnapshotDone (s : State) : Host.Outcome State Fault Refusal :=
  if s.dev.flag F.FRP_SNAPCTL_BUSY then s.at ((s.mono / 64 + 1) * 64) Dev.frpSnapTake else .next s

end Sys2Proof.Machine
end

