-- ==== Sys2Proof/Machine/Nvs.lean ====
section
/-!
DEFINITION. Retained memory (15_retained_storage_and_rtc.md): writes and what a power failure leaves of them
(R362 to R365), records (R366 to R372) and the change journal (R373, R374).
-/
namespace Sys2Proof.Machine

/-- An event of NVS: source 172 + k and its flag. -/
def Dev.nvsEvent (d : Dev) (t k : Nat) : Dev := d.raiseFlag t (172 + k) Reg.NVS_STAT (8 + k)

/-- NVS_STAT.READY. -/
def Dev.nvsReady (d : Dev) : Bool := d.flag F.NVS_STAT_READY

/-! ## Writes -/

/-- A byte string from an address on, cut at the 8-byte words. -/
def nvsPieces : Nat → Nat → List Byte → List (Nat × List Byte)
  | 0, _, _ => []
  | n + 1, off, l =>
    if l.isEmpty then []
    else
      let k := 8 - off % 8
      (off, l.take k) :: nvsPieces n (off + k) (l.drop k)

/-- Operations queued behind those in progress: each word takes 50 ns (R362). -/
def Dev.nvsQueue (d : Dev) (t : Nat) (l : List NvsOp) : Dev :=
  let start := match d.nvs.ops.getLast? with | some p => max t p.1 | none => t
  let timed := l.foldl (fun (x : Nat × List (Nat × NvsOp)) o =>
    let e := match o with | .bytes _ _ => x.1 + 50 | .head _ _ => x.1
    (e, x.2 ++ [(e, o)])) (start, [])
  { d with nvs := { d.nvs with ops := d.nvs.ops ++ timed.2 } }

/-- A write of a byte string by the controller's word writes, in ascending order (R365). -/
def Dev.nvsWrite (d : Dev) (t off : Nat) (l : List Byte) : Dev :=
  d.nvsQueue t ((nvsPieces (l.length + 1) off l).map (fun p => .bytes p.1 p.2))

/-- The bytes of NVS as they will be when the writes in progress are complete. -/
def Dev.nvsMem (d : Dev) : Memory :=
  d.nvs.ops.foldl (fun m p => match p.2 with | .bytes off l => Memory.wrBytes m off l | .head _ _ => m) d.mem.nvs

/-- R365: the supply fails at MONO t: the words complete by then read new, the interrupted one reads old or new as a
free value says, and the later ones read old. -/
def Dev.nvsCut (d : Dev) (t : Nat) : Dev :=
  let d := d.nvsFlush t
  match d.nvs.ops with
  | (done, .bytes off l) :: _ =>
    let e := { d with nvs := { d.nvs with ops := [], interrupted := some (off / 8 * 8) } }
    if t + 50 ≤ done then { d with nvs := { d.nvs with ops := [] } }
    else if e.free.getLsbD 0 then (e.nvsOp (.bytes off l)).nextFree else e.nextFree
  | _ => { d with nvs := { d.nvs with ops := [] } }

/-- R394, R401: the word write in progress at MONO t is completed, and no more is accepted. -/
def Dev.nvsComplete (d : Dev) (t : Nat) : Dev :=
  let d := d.nvsFlush t
  let d := match d.nvs.ops with
    | (done, .bytes off l) :: _ => if t + 50 ≤ done then d else d.nvsOp (.bytes off l)
    | _ => d
  { d with nvs := { d.nvs with ops := [] } }

/-- R362: a write below 0xB0000 by the host or a scan core is ignored. -/
def Dev.nvsRefuse (d : Dev) (t : Nat) : Dev := ((d.setFld F.NVS_STAT_PROTERR 1).incFld F.NVS_REFCNT_PROT).nvsEvent t 3

/-- R364: a host access during the recall. -/
def Dev.nvsBusy (d : Dev) : Dev := (d.setFld F.NVS_STAT_HRETRY 1).incFld F.NVS_REFCNT_BUSY

/-- R362 to R365: the host writes a byte string at an address; a write that begins below 0xB0000 loses the part that
lies there. -/
def Dev.nvsHostWrite (off : Nat) (l : List Byte) (t : Nat) (d : Dev) : Dev :=
  if !d.nvsReady then d.nvsBusy.nvsEvent t 3
  else
    let l := l.take (0x100000 - off)
    let low := min l.length (0xB0000 - off)
    let d := if low = 0 then d else d.nvsRefuse t
    d.nvsWrite t (off + low) (l.drop low)

/-- NVS_HOST_WRITE: a host write through BAR2. -/
def execNvsHostWrite (off : BitVec 20) (bytes : List (BitVec 8)) (s : State) : Host.Outcome State Fault Refusal :=
  s.upd (Dev.nvsHostWrite off.toNat bytes)

/-- R363: the effect of an error that a read at an address meets. -/
def Dev.nvsEcc (d : Dev) (t off : Nat) : Ecc → Dev
  | .clean => d
  | .corrected => d.incFld F.NVS_ECC_CORR
  | .double => ((d.setFld F.NVS_STAT_DED 1).wr Reg.NVS_DEDADDR (BitVec.ofNat 32 (off + 2 ^ 31))).nvsEvent t 2

/-- R363, R364: the host reads the word at an address. -/
def Dev.nvsHostRead (off : Nat) (ecc : Ecc) (t : Nat) (d : Dev) : Dev :=
  if !d.nvsReady then { d.nvsBusy with readData := 0xFFFFFFFF }
  else
    let d := { d.nvsEcc t off ecc with readData := Memory.rd32 d.mem.nvs off }
    if ecc = .double then d.send t (.poisoned off) else d

/-- NVS_HOST_READ: a host read through BAR2, with what the memory finds in the word. -/
def execNvsHostRead (off : BitVec 20) (ecc : Ecc) (s : State) : Host.Outcome State Fault Refusal :=
  s.upd (Dev.nvsHostRead (off.toNat / 4 * 4) ecc)

/-! ## Records (R366 to R371) -/

/-- R366: a record directory entry. -/
structure DirEntry where
  en : Bool
  base : Nat
  slots : Nat
  pages : Nat
  rid : Nat
deriving DecidableEq, Repr

/-- Record directory entry r. -/
def dirEntry (m : Memory) (r : Nat) : DirEntry :=
  let w := (Memory.rd32 m (8 * r)).toNat
  { en := bitOf w 31, base := bitsOf w 13 0, slots := bitsOf w 19 14 + 1, pages := bitsOf w 25 20 + 1,
    rid := (Memory.rd32 m (8 * r + 4)).toNat % 65536 }

/-- The bytes of a directory entry. -/
def DirEntry.bytes (e : DirEntry) : List Byte :=
  leBytes (e.base + (e.slots - 1) * 2 ^ 14 + (e.pages - 1) * 2 ^ 20 + b2n e.en * 2 ^ 31) 4 ++ leBytes e.rid 4

/-- The pages of a ring: the first, and the first after it. -/
def DirEntry.ring (e : DirEntry) : Nat × Nat := (e.base, e.base + e.slots * e.pages)

/-- Two rings share a page. -/
def ringsMeet (a b : Nat × Nat) : Bool := Nat.blt a.1 b.2 && Nat.blt b.1 a.2

/-- R366: the enabled entry r is ignored by the scan. -/
def dirIgnored (m : Memory) (r : Nat) : Bool :=
  let e := dirEntry m r
  Nat.blt e.base 32 || Nat.blt 8192 e.ring.2 ||
    (List.range r).any (fun q => (dirEntry m q).en && ringsMeet (dirEntry m q).ring e.ring)

/-- R366: the entry that holds record rid, for an enabled entry that is not ignored. -/
def findRecord (m : Memory) (rid : Nat) : Option Nat :=
  (List.range 256).find? (fun r => (dirEntry m r).en && (dirEntry m r).rid == rid && !(dirIgnored m r))

/-- Byte address of slot j of an entry. -/
def DirEntry.slotAt (e : DirEntry) (j : Nat) : Nat := 64 * (e.base + j * e.pages)

/-- R368: the payload capacity of a slot. -/
def DirEntry.capacity (e : DirEntry) : Nat := 64 * e.pages - 20

/-- R368: the offset of the CRC word in a slot with a payload of len bytes. -/
def crcAt (len : Nat) : Nat := (16 + len + 3) / 4 * 4

/-- SEQ of the slot at an address. -/
def slotSeq (m : Memory) (a : Nat) : Nat := (Memory.rd32 m (a + 4)).toNat

/-- LEN of the slot at an address. -/
def slotLen (m : Memory) (a : Nat) : Nat := Memory.rdLE m (a + 8) 2

/-- R369: the slot at an address is valid. -/
def slotValid (m : Memory) (e : DirEntry) (a : Nat) : Bool :=
  Memory.rdLE m a 2 == e.rid && Memory.rdLE m (a + 3) 1 == 0x5C && Nat.ble (slotLen m a) e.capacity &&
    Memory.rdLE m (a + 10) 6 == 0 &&
    (Memory.rd32 m (a + crcAt (slotLen m a)) == crc32c (Memory.rdBytes m a (16 + slotLen m a)))

/-- R369: sequence number a is newer than b. -/
def seqNewer (a b : Nat) : Bool :=
  let x := (a + 2 ^ 32 - b) % 2 ^ 32
  Nat.ble 1 x && Nat.blt x (2 ^ 31)

/-- R369, R370: the slots that qualify as newest, the lowest index first. -/
def newestSlots (m : Memory) (e : DirEntry) : List Nat :=
  let v := (List.range e.slots).filter (fun j => slotValid m e (e.slotAt j))
  v.filter (fun j => v.all (fun k => !(seqNewer (slotSeq m (e.slotAt k)) (slotSeq m (e.slotAt j)))))

/-- R370: what two tied slots are compared by: FMT, LEN and payload. -/
def slotContents (m : Memory) (a : Nat) : Nat × Nat × List Byte :=
  (Memory.rdLE m (a + 2) 1, slotLen m a, Memory.rdBytes m (a + 16) (slotLen m a))

/-- R370: the tied newest slots differ. -/
def tieDiffers (m : Memory) (e : DirEntry) : List Nat → Bool
  | [] => false
  | j :: rest => rest.any (fun k => slotContents m (e.slotAt k) != slotContents m (e.slotAt j))

/-- R366, R370: the scan of directory entry r fills NVS_RECNEW. -/
def Dev.scanRecord (d : Dev) (t r : Nat) : Dev :=
  let m := d.mem.nvs
  let e := dirEntry m r
  let put (page slot diff cfg none_ valid : Nat) (tie : Nat) : Dev :=
    d.wr (Reg.NVS_RECNEW r) (BitVec.ofNat 32
      (page + slot * 2 ^ 14 + tie * 2 ^ 20 + diff * 2 ^ 28 + cfg * 2 ^ 29 + none_ * 2 ^ 30 + valid * 2 ^ 31))
  let ties := d.fld (F.NVS_RECNEW_TIE r)
  if !e.en then put 0 0 0 0 0 0 0
  else if dirIgnored m r then put 0 0 0 1 0 0 0
  else
    let l := newestSlots m e
    match l with
    | [] => (put 0 0 0 0 1 0 ties).nvsEvent t 1
    | j :: _ =>
      if tieDiffers m e l then (put (e.base + j * e.pages) j 1 0 0 1 (satInc 255 ties)).nvsEvent t 1
      else put (e.base + j * e.pages) j (b2n (d.flag (F.NVS_RECNEW_TIEDIFF r))) 0 0 1 ties

/-! ## Change journal (R373) -/

/-- The bytes of the journal entry in slot j. -/
def journalSlot (m : Memory) (j : Nat) : List Byte := Memory.rdBytes m (0x80000 + 64 * j) 64

/-- A journal entry is whole: its number is not 0 and its CRC is correct. -/
def journalOk (l : List Byte) : Bool := wordAt l 0 != 0 && wordAt l 15 == crc32c (l.take 60)

/-- R373: the newest whole entry: its number and its slot. -/
def journalNewest (m : Memory) : Option (Nat × Nat) :=
  (List.range 2048).foldl (fun best j =>
    let l := journalSlot m j
    if journalOk l then
      let n := (wordAt l 0).toNat
      match best with
      | some b => if seqNewer n b.1 then some (n, j) else best
      | none => some (n, j)
    else best) none

/-- The head of the journal once the entries in progress are complete: number and slot. -/
def Dev.journalHead (d : Dev) : Nat × Nat :=
  d.nvs.ops.foldl (fun h p => match p.2 with | .head n j => (n.toNat, j) | .bytes _ _ => h)
    ((d.rd Reg.NVS_JHEAD).toNat, (d.rd Reg.NVS_JSLOT).toNat)

/-- R373: an entry with these bytes 0x04 to 0x3B is written to the next slot. -/
def Dev.journalPut (d : Dev) (t : Nat) (l : List Byte) : Dev :=
  let h := d.journalHead
  let num := if h.1 + 1 = 2 ^ 32 then 1 else h.1 + 1
  let slot := if h.1 = 0 then 0 else (h.2 + 1) % 2048
  let body := leBytes num 4 ++ l
  let body := body ++ leBytes (crc32c body).toNat 4
  (d.nvsWrite t (0x80000 + 64 * slot) body).nvsQueue t [.head (BitVec.ofNat 32 num) slot]

/-- R373: a journal entry of a kind, port class and detail about the unit at a path; the runtime firmware waits for
READY (R364). -/
def Dev.journalAt (d : Dev) (t kind cls detail : Nat) (path : List Word) (data : List Nat) : Dev :=
  let s := d.station t
  let l := leBytes (kind + cls * 2 ^ 8 + detail * 2 ^ 16) 4 ++ leBytes (d.tnsWord t).toNat 4 ++
    leBytes (s / 1000000000) 8 ++ padTo 16 (wordBytes path) ++ padTo 24 (data.flatMap (fun x => leBytes x 4))
  if d.nvsReady then d.journalPut t l else { d with nvs := { d.nvs with waiting := d.nvs.waiting ++ [l] } }

/-- A journal entry about a change of this device's own state. -/
def Dev.journal (d : Dev) (t kind cls detail : Nat) (data : List Nat) : Dev :=
  d.journalAt t kind cls detail
    [d.rd Reg.SYS_SELFPATH0, d.rd Reg.SYS_SELFPATH1, d.rd Reg.SYS_SELFPATH2, d.rd Reg.SYS_SELFPATH3] data

/-- R373, R416: the class of the port that a request came through; a change by a scan core or by the runtime firmware
itself carries 0. -/
def Requester.cls : Requester → Nat
  | .host => 1
  | .lan => 2
  | _ => 0

/-! ## Recall (R364) -/

/-- R364: the recall ends at MONO t: the scan fills the record and journal registers, and READY rises. -/
def Dev.recallDone (t : Nat) (d : Dev) : Dev :=
  if d.nvsReady then d
  else
    let d := d.setFld F.NVS_STAT_READY 1
    let d := match d.nvs.interrupted with
      | some a => d.wr Reg.NVS_PFADDR (BitVec.ofNat 32 (a + 2 ^ 31))
      | none => d
    let d := d.wr Reg.NVS_RECCNT (BitVec.ofNat 32 ((List.range 256).filter (fun r => (dirEntry d.mem.nvs r).en)).length)
    let d := match journalNewest d.mem.nvs with
      | some (n, j) => (d.wr Reg.NVS_JHEAD (BitVec.ofNat 32 n)).wr Reg.NVS_JSLOT (BitVec.ofNat 32 j)
      | none => (d.wr Reg.NVS_JHEAD 0).wr Reg.NVS_JSLOT 0
    let d := forN 256 (fun r d => d.scanRecord t r) d
    let d := d.nvsEvent t 0
    let l := d.nvs.waiting
    l.foldl (fun d e => d.journalPut t e) { d with nvs := { d.nvs with waiting := [] } }

/-- NVS_RECALL_DONE: the recall and scan end. -/
def execNvsRecallDone (dt : Nat) (s : State) : Host.Outcome State Fault Refusal := s.event dt Dev.recallDone

/-! ## Record writes and slot checks (R371) -/

/-- R371: the newest slot of the record at directory entry r, in a memory. -/
def newestSlot (m : Memory) (r : Nat) : Option Nat := (newestSlots m (dirEntry m r)).head?

/-- R371: the runtime firmware writes record r: payload, CRC word, then the header. -/
def Dev.recordPut (d : Dev) (t r fmt : Nat) (payload : List Byte) : Dev :=
  let m := d.nvsMem
  let e := dirEntry m r
  let j := match newestSlot m r with | some j => (j + 1) % e.slots | none => 0
  let seq := match newestSlot m r with | some j => (slotSeq m (e.slotAt j) + 1) % 2 ^ 32 | none => 1
  let a := e.slotAt j
  let head := leBytes e.rid 2 ++ leBytes fmt 1 ++ leBytes 0x5C 1 ++ leBytes seq 4 ++ leBytes payload.length 2 ++
    List.replicate 6 0
  let d := d.nvsWrite t (a + 16) payload
  let d := d.nvsWrite t (a + crcAt payload.length) (leBytes (crc32c (head ++ payload)).toNat 4)
  let d := d.nvsWrite t a head
  let done := match d.nvs.ops.getLast? with | some p => p.1 | none => t
  { d with nvs := { d.nvs with checks := d.nvs.checks ++ [(r, done - 50 + 2000)] } }

/-- R371: the controller checks the slot of record r whose header has been written: where it is valid and newest,
NVS_RECNEW shows it. -/
def Dev.slotCheck (r : Nat) (d : Dev) : Dev :=
  let d := { d with nvs := { d.nvs with checks := d.nvs.checks.filter (fun p => p.1 != r) } }
  let e := dirEntry d.mem.nvs r
  match newestSlot d.mem.nvs r with
  | some j =>
    (((d.setFld (F.NVS_RECNEW_PAGE r) (e.base + j * e.pages)).setFld (F.NVS_RECNEW_SLOT r) j).setFld (F.NVS_RECNEW_NONE r)
      0).setFld (F.NVS_RECNEW_VALID r) 1
  | none => d

/-- RECORD_SLOT_CHECK: the check that follows a write to bytes 0 to 7 of a slot of record r, at its latest instant. -/
def execRecordSlotCheck (r : BitVec 8) (s : State) : Host.Outcome State Fault Refusal :=
  match s.dev.nvs.checks.find? (fun p => p.1 == r.toNat) with
  | some p => s.at p.2 (fun _ d => d.slotCheck p.1)
  | none => .next s

/-- R372: bytes 0 to 15 of the newest slot of record rid and its payload. -/
def Dev.recordGet (d : Dev) (rid : Nat) : Option (List Byte) :=
  let m := d.nvsMem
  match findRecord m rid with
  | some r => (newestSlot m r).map (fun j =>
      let a := (dirEntry m r).slotAt j
      Memory.rdBytes m a (16 + slotLen m a))
  | none => none

/-- The payload of the newest slot of a record; empty when there is none. -/
def Dev.recordPayload (d : Dev) (rid : Nat) : List Byte :=
  match d.recordGet rid with | some l => l.drop 16 | none => []

/-- SEQ of the newest slot of a record. -/
def Dev.recordSeq (d : Dev) (rid : Nat) : Nat :=
  match d.recordGet rid with | some l => leNat ((l.drop 4).take 4) | none => 0

/-- R367: the lowest free pages for a ring of n pages; none when the record area has no room. -/
def freePages (m : Memory) (n : Nat) : Option Nat :=
  let rings := ((List.range 256).filter (fun r => (dirEntry m r).en)).map (fun r => (dirEntry m r).ring)
  let starts := 32 :: rings.map (·.2)
  (starts.filter (fun b => Nat.ble 32 b && Nat.ble (b + n) 8192 && !(rings.any (ringsMeet (b, b + n))))).foldl
    (fun best b => match best with | some x => some (min x b) | none => some b) none

/-- R367: a directory entry for record rid with rings of this shape, in the lowest free entry, and its CONFIG journal
entry; nothing when there is no room. -/
def Dev.createRecord (d : Dev) (t rid slots pages : Nat) : Dev :=
  let m := d.nvsMem
  match (List.range 256).find? (fun r => !(dirEntry m r).en), freePages m (slots * pages) with
  | some r, some b =>
    let e : DirEntry := { en := true, base := b, slots := slots, pages := pages, rid := rid }
    (d.nvsWrite t (8 * r) e.bytes).journal t 1 0 1 [rid, 0]
  | _, _ => d

/-- R367: the runtime firmware creates the directory entry of a system record that it uses when it is missing: two slots
of pages that hold a payload of len bytes. -/
def Dev.ensureSystem (d : Dev) (t rid len : Nat) : Dev :=
  match findRecord d.nvsMem rid with
  | some _ => d
  | none => d.createRecord t rid 2 ((len + 20 + 63) / 64)

/-- The runtime firmware writes a system record of its own. -/
def Dev.systemRecord (d : Dev) (t rid fmt : Nat) (payload : List Byte) : Dev :=
  let d := d.ensureSystem t rid payload.length
  match findRecord d.nvsMem rid with
  | some r => d.recordPut t r fmt payload
  | none => d

end Sys2Proof.Machine
end

