-- ==== Sys2Proof/Machine/Records.lean ====
section
/-!
DEFINITION. Edge, timer and counter records in task data (R114), and what the carry-over and the mirror write into
them (R183, R184, R226). Addresses are byte addresses of the data memory of all cores.
-/
namespace Sys2Proof.Machine

/-- The byte of data memory that core c sees at address a of its local data (R22). -/
def dataAddr (c a : Nat) : Nat := c * 0x200000 + (a - 0x10000000)

/-- R182: the items of the correspondence map: 0 edge, 1 timer, 2 counter, 3 data region. Size of a record in bytes. -/
def recordSize (item : Nat) : Nat := if item = 0 then 8 else 16

/-- R114: the offset of the word of a record that holds its flags and identity. -/
def recordFlags (item : Nat) : Nat := if item = 0 then 0 else if item = 1 then 12 else 8

/-- The identity of the record at an address. -/
def recordId (m : Memory) (item a : Nat) : Nat := bitsOf (Memory.rd32 m (a + recordFlags item)).toNat 31 16

/-- R183: the bits of the flags word that KEEP takes from the old record: PREV or IN, RUN, Q, INIT. -/
def keepMask (item : Nat) : Word := if item = 1 then 0xF else 0xD

/-- A word with the bits of a mask taken from another. -/
def mixWord (mask old new : Word) : Word := (old &&& mask) ||| (new &&& ~~~mask)

/-- R183: KEEP: the words o0 to o3 of an old record written into the record at an address; identity, preset and
attributes stay those of the new version, and REBIND of an edge record is that of the entry. -/
def keepRecord (m : Memory) (item a : Nat) (o : List Word) (rebind : Bool) : Memory :=
  let w (k : Nat) : Word := o.getD k 0
  if item = 0 then
    let f := mixWord (keepMask 0) (w 0) (Memory.rd32 m a)
    let f := if rebind then f ||| 0x20 else f &&& ~~~0x20
    Memory.wr32 (Memory.wr32 m a f) (a + 4) (w 1)
  else if item = 1 then
    let m := Memory.wr32 (Memory.wr32 m a (w 0)) (a + 4) (w 1)
    Memory.wr32 m (a + 12) (mixWord (keepMask 1) (w 3) (Memory.rd32 m (a + 12)))
  else
    let m := Memory.wr32 m a (w 0)
    let m := Memory.wr32 m (a + 8) (mixWord (keepMask 2) (w 2) (Memory.rd32 m (a + 8)))
    Memory.wr32 m (a + 12) (w 3)

/-- R183: RESET and NEW of a record: INIT becomes 0; a counter's CV becomes 0, or PV when LOADPV = 1. -/
def resetRecord (m : Memory) (item a : Nat) : Memory :=
  let f := Memory.rd32 m (a + recordFlags item)
  let m := Memory.wr32 m (a + recordFlags item) (f &&& ~~~8)
  if item = 2 then Memory.wr32 m a (if f.getLsbD 6 then Memory.rd32 m (a + 4) else 0) else m

/-- The words of the record at an address. -/
def recordWords (m : Memory) (item a : Nat) : List Word :=
  (List.range (recordSize item / 4)).map (fun k => Memory.rd32 m (a + 4 * k))

/-- n 64-bit words copied from one address to another; all are read before any is written. -/
def copyWords (m : Memory) (src dst n : Nat) : Memory := Memory.wrBytes m dst (Memory.rdBytes m src (8 * n))

/-- n 64-bit words set to 0. -/
def zeroWords (m : Memory) (dst n : Nat) : Memory := Memory.wrBytes m dst (List.replicate (8 * n) 0)

/-! ## Conversion (R184) -/

/-- R184: the width in bytes of a type code: I8, U8, I16, U16, I32, U32. -/
def typeBytes (ty : Nat) : Nat := 2 ^ (ty / 2)

/-- The type code is signed. -/
def typeSigned (ty : Nat) : Bool := ty % 2 == 0

/-- An element as a number. -/
def elemValue (ty n : Nat) : Int :=
  let w := 8 * typeBytes ty
  if typeSigned ty && Nat.ble (2 ^ (w - 1)) n then (n : Int) - (2 ^ w : Nat) else n

/-- R184: one element converted under a rule word (word 3 of the map entry): the target bits, and that it clipped. -/
def convertElem (rule : Word) (n : Nat) : Nat × Bool :=
  let r := rule.toNat
  let dest := bitsOf r 22 20
  let v := elemValue (bitsOf r 18 16) n
  let sh := bitsOf r 31 26
  let v : Int := if sh < 32 then v * (2 ^ sh : Nat) else rnd (roundingOf (bitsOf r 25 24)) v (64 - sh)
  let w := 8 * typeBytes dest
  let lo : Int := if typeSigned dest then minOf w else 0
  let hi : Int := if typeSigned dest then maxOf w else ((2 ^ w : Nat) : Int) - 1
  let clip := decide (v < lo) || decide (hi < v)
  let v := if clip && bitOf r 23 then (if v < lo then lo else hi) else v
  ((v % (2 ^ w : Nat)).toNat, clip)

/-- R184: n elements from an address to another, in order; with the count of those that clipped. -/
def convertElems (rule : Word) (src dst : Nat) : Nat → Memory → Nat → Memory × Nat
  | 0, m, clips => (m, clips)
  | n + 1, m, clips =>
    let fb := typeBytes (bitsOf rule.toNat 18 16)
    let tb := typeBytes (bitsOf rule.toNat 22 20)
    let x := convertElem rule (Memory.rdLE m src fb)
    convertElems rule (src + fb) (dst + tb) n (Memory.wrLE m dst tb x.1) (clips + b2n x.2)

end Sys2Proof.Machine
end

