-- ==== Sys2Proof/Machine/Xch.lean ====
section
/-!
DEFINITION. Online program exchange (08_online_exchange.md): the descriptor and its checks (R180 to R188), the boundary
and the switch (R189, R190), the carry-over (R191, R192), window, confirmation and revert (R195 to R198), and the
exchange of a pair (R200, R201).
-/
namespace Sys2Proof.Machine

/-! ## States, results and events -/

/-- XCH_STAT.STATE: 0 IDLE, 1 STAGED, 2 ARMED, 3 WAITCONF, 4 REVARMED, 5 STAGING. -/
def Dev.xst (d : Dev) : Nat := d.fld F.XCH_STAT_STATE

/-- XCH_STAT.STATE and RESULT set. -/
def Dev.xset (d : Dev) (st result : Nat) : Dev := (d.setFld F.XCH_STAT_STATE st).setFld F.XCH_STAT_RESULT result

/-- R202: an event of the exchange: source 168 + k and its flag. -/
def Dev.xchEvent (d : Dev) (t k : Nat) : Dev := d.raiseFlag t (168 + k) Reg.XCH_STAT (8 + k)

/-- The exchange record changed by f. -/
def Dev.modXch (d : Dev) (f : Exch → Exch) : Dev := { d with xch := f d.xch }

/-- R187: a command in a wrong state or mode. -/
def Dev.xchRefuse (d : Dev) (t : Nat) : Dev := (d.setFld F.XCH_STAT_RESULT 8).xchEvent t 1

/-- R198, R373: a journal entry of the exchange carries the staged version, and the one running before the event. -/
def Dev.xchJournal (d : Dev) (t cls detail : Nat) (staged : Word) : Dev :=
  d.journal t 3 cls detail [staged.toNat, (d.rd Reg.XCH_RUNVER).toNat]

/-- The tasks of XCH_TMASK. -/
def Dev.group (d : Dev) : List Nat := (List.range 64).filter (fun n => d.maskBit Reg.XCH_TMASK0 n)

/-! ## Code banks and data spans -/

/-- ENTRY of a TSK_CODE word. -/
def codeEntry (w : Word) : Nat := bitsOf w.toNat 21 0

/-- The offset of TB in local data that a TSK_CODE word names (R45). -/
def codeBase (w : Word) : Nat := bitsOf w.toNat 31 22 * 2048

/-- The core of task n. -/
def Dev.coreOf (d : Dev) (n : Nat) : Nat := d.fld (F.TSK_CFG_CORE n)

/-- The address in data memory of TB of task n under a TSK_CODE word. -/
def Dev.tbAddr (d : Dev) (n : Nat) (code : Word) : Nat := d.coreOf n * 0x200000 + codeBase code

/-- A mask with the code banks of these tasks under these TSK_CODE words. -/
def bankMask (l : List Word) : Nat :=
  (List.range 8).foldl (fun m b => m + b2n (l.any (fun w => codeEntry w / 0x80000 == b)) * 2 ^ b) 0

/-- R178, R203: the banks of core c with running code. -/
def Dev.runBanks (d : Dev) (c : Nat) : Nat := bankMask ((d.coreTasks c).map (fun n => d.rd (Reg.TSK_CODE n)))

/-- R178, R203: the banks of core c with staged or old code: what the exchange holds of a task beside its running code. -/
def Dev.otherBanks (d : Dev) (c : Nat) : Nat :=
  let l := if d.xst = 0 ∨ d.xst = 5 then [] else d.xch.olds ++ d.xch.tasks
  bankMask ((l.filter (fun x => d.coreOf x.task == c && x.code != d.rd (Reg.TSK_CODE x.task))).map (·.code))

/-- XCH_BANKS of core c. -/
def Dev.xchBanks (d : Dev) (c : Nat) : Word := BitVec.ofNat 32 (d.runBanks c + d.otherBanks c * 2 ^ 8)

/-- R178: the recorded data span of running task n, at least its task context. -/
def Dev.spanOf (d : Dev) (n : Nat) : Nat := max 64 (Sparse.get (fun _ => 0) d.xch.spans n)

/-- The carry-over of task n. -/
def Dev.carryOf (d : Dev) (n : Nat) : Option Carry := Sparse.get (fun _ => none) d.xch.carries n

/-- R178, R196: the data spans of core c that are in use, each with its length: those of the running tasks, and those that
a pending carry-over has yet to read. -/
def Dev.takenSpans (d : Dev) (c : Nat) : List (Nat × Nat) :=
  let l := d.coreTasks c
  l.map (fun n => (codeBase (d.rd (Reg.TSK_CODE n)), d.spanOf n)) ++
    l.filterMap (fun n => (d.carryOf n).map (fun k => (k.src - c * 0x200000, k.span)))

/-- R178: at the end of a full load the span of each task reaches from its TB to the end of the task data loaded below the
next TB of its core (assumption 87). -/
def Dev.recordSpans (d : Dev) : Dev :=
  let base (n : Nat) : Nat := codeBase (d.rd (Reg.TSK_CODE n))
  let d := forN 64 (fun n d =>
    let c := d.coreOf n
    let next := (d.coreTasks c).foldl (fun m k => if base n < base k then min m (base k) else m) 0x200000
    let ends := d.xch.loaded.foldl (fun m x =>
      if x.1 = c ∧ x.2.1 < next ∧ base n < x.2.1 + x.2.2 then max m (min next (x.2.1 + x.2.2)) else m) (base n)
    d.modXch (fun x => { x with spans := Sparse.set (fun _ => 0) x.spans n (if d.enabled n then ends - base n else 0) })) d
  d.modXch (fun x => { x with loaded := [] })

/-! ## The descriptor (R180 to R182) -/

/-- A word of the staging area. -/
def Dev.stg (d : Dev) (a : Nat) : Nat := (Memory.rd32 d.mem.staging a).toNat

/-- The size of the staging area in bytes. -/
def stagingSize : Nat := 0x30000

/-- Counts of a descriptor at an offset. -/
structure DescCounts where
  ntask : Nat
  nrgn : Nat
  nrung : Nat
  nfwd : Nat
  ninv : Nat
  frp : Bool
  len : Nat
deriving DecidableEq, Repr

/-- R180: the counts of the descriptor at offset o. -/
def Dev.descCounts (d : Dev) (o : Nat) : DescCounts :=
  { ntask := bitsOf (d.stg (o + 0x18)) 7 0, nrgn := bitsOf (d.stg (o + 0x18)) 15 8,
    nrung := bitsOf (d.stg (o + 0x18)) 31 16, nfwd := bitsOf (d.stg (o + 0x1C)) 15 0,
    ninv := bitsOf (d.stg (o + 0x1C)) 31 16, frp := bitOf (d.stg (o + 0x20)) 0, len := bitsOf (d.stg (o + 0x20)) 31 8 }

/-- R187: the service-core ticks of STAGE. -/
def DescCounts.cost (c : DescCounts) : Nat :=
  50000 + 150 * (c.nrgn + c.nfwd + c.ninv + c.nrung) + (if c.frp then 40000 else 0)

/-- Map entries of a section. -/
def Dev.mapEntries (d : Dev) (a n : Nat) : List MapEntry :=
  (List.range n).map (fun i =>
    let w (k : Nat) : Word := Memory.rd32 d.mem.staging (a + 16 * i + 4 * k)
    { w0 := w 0, w1 := w 1, w2 := w 2, w3 := w 3 })

/-- R181: task entries. -/
def Dev.taskEntries (d : Dev) (a n : Nat) : List XTask :=
  (List.range n).map (fun i =>
    let w (k : Nat) : Word := Memory.rd32 d.mem.staging (a + 32 * i + 4 * k)
    { task := bitsOf (w 0).toNat 5 0, code := w 1, budget := w 2, trgn := w 3, oinst := w 4,
      fwd := (w 5).toNat, inv := (w 6).toNat, bytes := (w 7).toNat })

/-- R181: region entries (k, value). -/
def Dev.rgnEntries (d : Dev) (a n : Nat) : List (Nat × Word) :=
  (List.range n).map (fun i => (bitsOf (d.stg (a + 8 * i)) 7 0, Memory.rd32 d.mem.staging (a + 8 * i + 4)))

/-- R193: rung carry entries (old, new). -/
def Dev.rungEntries (d : Dev) (a n : Nat) : List (Nat × Nat) :=
  (List.range n).map (fun i => (bitsOf (d.stg (a + 4 * i)) 11 0, bitsOf (d.stg (a + 4 * i)) 23 12))

/-- R193: the address of the rung table behind a rung carry section. -/
def rungTableAt (o rungOff nrung : Nat) : Nat := o + (rungOff + 4 * nrung + 15) / 16 * 16

/-- R159: the staged rung table; word 3 of an entry is timer state and starts at 0. -/
def Dev.stagedRungs (d : Dev) (a : Nat) : Sparse Rung :=
  (List.range 4096).foldr (fun i (tb : Sparse Rung) =>
    let r : Rung := BitVec.ofNat 128 (Memory.rdLE d.mem.staging (a + 16 * i) 12)
    if r = 0 then tb else (i, r) :: tb) []

/-! ## Map entries (R182, R183, R185) -/

/-- ACTION, ITEM, TASK, N and the offsets of a map entry. -/
def MapEntry.action (e : MapEntry) : Nat := bitsOf e.w0.toNat 3 0
def MapEntry.item (e : MapEntry) : Nat := bitsOf e.w0.toNat 6 4
def MapEntry.rebind (e : MapEntry) : Bool := e.w0.getLsbD 7
def MapEntry.task (e : MapEntry) : Nat := bitsOf e.w0.toNat 13 8
def MapEntry.newId (e : MapEntry) : Nat := bitsOf e.w0.toNat 31 16
def MapEntry.oldOff (e : MapEntry) : Nat := bitsOf e.w1.toNat 20 0
def MapEntry.newOff (e : MapEntry) : Nat := bitsOf e.w2.toNat 20 0
def MapEntry.oldId (e : MapEntry) : Nat := bitsOf e.w3.toNat 15 0

/-- R183: words moved or written, or elements converted, by an entry. -/
def MapEntry.words (e : MapEntry) : Nat :=
  if e.action = 3 then 0
  else if e.action = 4 then e.oldId
  else if e.item = 3 then e.oldId
  else if e.action = 0 then (if e.item = 0 then 1 else 2)
  else 0

/-- R185: the cost of the entries of task n. -/
def mapCost (l : List MapEntry) (n : Nat) : Nat :=
  ((l.filter (fun e => e.task == n)).map (fun e => 6 + e.words)).sum

/-- R183, R184: an entry applied to data memory; src and dst are the addresses of TB. With the count of clipped elements. -/
def MapEntry.apply (e : MapEntry) (src dst : Nat) (m : Memory) : Memory × Nat :=
  let a := src + e.oldOff
  let b := dst + e.newOff
  match e.action with
  | 0 => if e.item = 3 then (copyWords m a b e.oldId, 0)
         else (keepRecord m e.item b (recordWords m e.item a) e.rebind, 0)
  | 4 => convertElems e.w3 a b e.oldId m 0
  | 3 => (m, 0)
  | _ => if e.item = 3 then (zeroWords m b e.oldId, 0) else (resetRecord m e.item b, 0)

/-- R182 to R184, R188 code MAP: an entry is well formed. src and dst are the addresses of TB of its task in the source
and target version, with the limits of their spans; srcOk says that the task is of the group. -/
def MapEntry.ok (e : MapEntry) (m : Memory) (taskOk : Bool) (src srcLim dst dstLim : Nat) : Bool :=
  let size (conv : Nat) : Nat :=
    if e.item < 3 then recordSize e.item else if e.action = 4 then e.oldId * typeBytes conv else 8 * e.oldId
  let align (conv : Nat) : Nat :=
    if e.item < 3 then recordSize e.item else if e.action = 4 then typeBytes conv else 8
  let from_ := bitsOf e.w3.toNat 18 16
  let dest := bitsOf e.w3.toNat 22 20
  let useSrc := e.action != 2
  let useDst := e.action != 3
  taskOk && Nat.ble e.action 4 && Nat.ble e.item 3 && !(e.action == 4 && e.item != 3) &&
    !(e.rebind && !(e.item == 0 && e.action == 0)) && !(e.action == 4 && (Nat.blt 5 from_ || Nat.blt 5 dest)) &&
    (!useSrc || (e.oldOff % align from_ == 0 && Nat.ble (e.oldOff + size from_) srcLim)) &&
    (!useDst || (e.newOff % align dest == 0 && Nat.ble (e.newOff + size dest) dstLim)) &&
    (e.item == 3 || ((!useSrc || recordId m e.item (src + e.oldOff) == e.oldId) &&
      (!useDst || recordId m e.item (dst + e.newOff) == e.newId)))

/-! ## The staging check (R188) -/

/-- A failed check: code, section, entry. -/
abbrev ChkFail := Nat × Nat × Nat

/-- The first failing index of a list, as a failure of a code and section. -/
def firstFail {α : Type} (code sec : Nat) (bad : α → Bool) (l : List α) : Option ChkFail :=
  (l.findIdx? bad).map (fun i => (code, sec, i))

/-- The exchange record read from the descriptor at offset o; a WINDOW outside its range acts as the nearer limit, and
WINMIN is that of staging (assumption 88). Carry-overs that are still pending stay (R191). -/
def Dev.readDesc (d : Dev) (o cls : Nat) : Exch :=
  let c := d.descCounts o
  let win := d.stg (o + 0x24)
  let minutes := max 1 (min 1440 (d.fld F.XCH_CFG_WINMIN))
  { d.xch with
    cls := cls, tasks := d.taskEntries (o + d.stg (o + 0x28)) c.ntask,
    olds := [], fwd := d.mapEntries (o + d.stg (o + 0x30)) c.nfwd, inv := d.mapEntries (o + d.stg (o + 0x34)) c.ninv,
    regions := (d.rgnEntries (o + d.stg (o + 0x2C)) c.nrgn).map (·.1),
    rungs := d.rungEntries (o + d.stg (o + 0x38)) c.nrung, frp := c.frp,
    newVer := Memory.rd32 d.mem.staging (o + 8), baseVer := Memory.rd32 d.mem.staging (o + 12),
    window := if win = 0 then minutes * 60 else max 60 (min 86400 win), warned := false, expired := false,
    switchAt := [], late := [], reverting := false, confirmDue := none }

/-- R180: MAGIC, FORMAT, section offsets and CRC. -/
def Dev.descFormat (d : Dev) (o : Nat) : Bool :=
  let c := d.descCounts o
  let sec (at_ size : Nat) : Bool := d.stg (o + at_) % 16 == 0 && Nat.ble (d.stg (o + at_) + size) c.len
  d.stg o == 0x44484358 && d.stg (o + 4) == 0x00050000 && sec 0x28 (32 * c.ntask) && sec 0x2C (8 * c.nrgn) &&
    sec 0x30 (16 * c.nfwd) && sec 0x34 (16 * c.ninv) && sec 0x38 (4 * c.nrung) &&
    (!c.frp || Nat.ble (rungTableAt 0 (d.stg (o + 0x38)) c.nrung + 65536) c.len) &&
    crc32c (Memory.rdBytes (Memory.wr32 d.mem.staging (o + 0x3C) 0) o c.len) == Memory.rd32 d.mem.staging (o + 0x3C)

/-- R188 code SPACE. -/
def Dev.descSpace (d : Dev) (o : Nat) : Bool :=
  let c := d.descCounts o
  Nat.ble (o + c.len) stagingSize && Nat.ble c.ntask 64 && Nat.ble c.nrung 1024 && Nat.ble c.nfwd 4096 && Nat.ble c.ninv 4096

/-- The tasks that the descriptor's TMASK names. -/
def Dev.descMask (d : Dev) (o : Nat) : List Nat :=
  (List.range 64).filter (fun n => bitOf (d.stg (o + 0x10 + 4 * (n / 32))) (n % 32))

/-- R188 code TASK: task n may not be exchanged. -/
def Dev.descTaskBad (d : Dev) (l : List XTask) (n : Nat) : Bool :=
  !(d.enabled n) || d.flag (F.TSK_STATE_CFGERR n) || d.fld (F.TSK_STATE_ST n) == 5 || !(l.any (fun x => x.task == n))

/-- R178, R188 code DATA: the data span of a task entry leaves local data or meets one in use. -/
def Dev.descDataBad (d : Dev) (x : XTask) : Bool :=
  let a := codeBase x.code
  Nat.blt 0x200000 (a + x.bytes) || (d.takenSpans (d.coreOf x.task)).any (fun p =>
    Nat.blt a (p.1 + p.2) && Nat.blt p.1 (a + max 64 x.bytes))

/-- R188 code MAP: an entry of the forward (or inverse) map is wrong. -/
def Dev.descMapBad (d : Dev) (x : Exch) (mask : List Nat) (inverse : Bool) (e : MapEntry) : Bool :=
  match x.tasks.find? (fun y => y.task == e.task) with
  | some y =>
    let old := d.tbAddr e.task (d.rd (Reg.TSK_CODE e.task))
    let new := d.tbAddr e.task y.code
    let ok := mask.contains e.task
    if inverse then !(e.ok d.mem.data ok new y.bytes old (d.spanOf e.task))
    else !(e.ok d.mem.data ok old (d.spanOf e.task) new y.bytes)
  | none => true

/-- R193: a rung that is a group end with TMODE 1 or 2. -/
def timedEnd (r : Rung) : Bool := r.en && !r.chain && (r.tmode == 1 || r.tmode == 2)

/-- The four registers of R179 of a task written. -/
def Dev.writeTaskRegs (d : Dev) (x : XTask) : Dev :=
  (((d.wr (Reg.TSK_CODE x.task) x.code).wr (Reg.TSK_BUDGET x.task) x.budget).wr (Reg.IMG_TRGN x.task) x.trgn).wr
    (Reg.IMG_OINST x.task) x.oinst

/-- R181, R188 code RGN: the region entries, and the new regions under R50. -/
def Dev.descRegions (d : Dev) (x : Exch) (rg : List (Nat × Word)) : Option ChkFail :=
  let en := (List.range 64).filter d.enabled
  let used (k : Nat) : Bool := en.any (fun n => (d.inRegions n).contains k || (d.outRegions n).contains k)
  match firstFail 8 2 (fun (p : Nat × Word) => d.flag (F.IMG_RGN_VALID p.1) || used p.1) rg with
  | some f => some f
  | none =>
    let e := rg.foldl (fun d p => d.wr (Reg.IMG_RGN p.1) p.2) d
    let e := x.tasks.foldl (fun d y => d.writeTaskRegs y) e
    match x.tasks.findSome? (fun y => e.badRegion en y.task) with
    | some k => some (8, 2, (rg.findIdx? (fun p => p.1 == k)).getD 0)
    | none => none

/-- R188: the checks of codes 1 to 8 and 10, in the order in which staging makes them. -/
def Dev.checkDesc (d : Dev) (o : Nat) (x : Exch) : Option ChkFail :=
  let c := d.descCounts o
  let mask := d.descMask o
  let idx (n : Nat) : Nat := (x.tasks.findIdx? (fun y => y.task == n)).getD x.tasks.length
  if d.stg o != 0x44484358 || d.stg (o + 4) != 0x00050000 then some (1, 0, 0)
  else if !(d.descSpace o) then some (10, 0, 0)
  else if !(d.descFormat o) then some (1, 0, 0)
  else if x.baseVer != d.rd Reg.XCH_RUNVER then some (2, 0, 0)
  else
    let group := x.tasks.filter (fun y => mask.contains y.task)
    let bad := [
      (mask.find? (d.descTaskBad x.tasks)).map (fun n => ((3, 1, idx n) : ChkFail)),
      (group.find? (fun y => bitOf (d.runBanks (d.coreOf y.task)) (codeEntry y.code / 0x80000))).map
        (fun y => (4, 1, idx y.task)),
      (group.find? d.descDataBad).map (fun y => (5, 1, idx y.task)),
      firstFail 6 3 (d.descMapBad x mask false) x.fwd,
      firstFail 6 4 (d.descMapBad x mask true) x.inv,
      (if c.frp then
        let new := d.stagedRungs (rungTableAt o (d.stg (o + 0x38)) c.nrung)
        firstFail 6 5 (fun (p : Nat × Nat) =>
          !(timedEnd (rungAt d.plane.active p.1)) || !(timedEnd (rungAt new p.2))) x.rungs
       else none),
      (group.find? (fun y => mapCost x.fwd y.task != y.fwd || mapCost x.inv y.task != y.inv)).map
        (fun y => (7, 1, idx y.task)),
      d.descRegions x (d.rgnEntries (o + d.stg (o + 0x2C)) c.nrgn)]
    bad.findSome? id

/-! ## Commands (R187) -/

/-- The peer is reachable and negotiated a major that exchanges together (R200). -/
def Dev.peerJoins (d : Dev) : Bool :=
  d.flag F.HSB_CFG_EN && (d.flag F.HSB_STAT_PATHA || d.flag F.HSB_STAT_PATHB) && d.fld F.HSB_VER_MAJ != 1

/-- R207: words 0 to 3 of this member's pair messages. -/
def Dev.pairHead (d : Dev) : PairHead :=
  let v := (d.rd (Reg.SYS_IFVER 2)).toNat
  { maj := BitVec.ofNat 8 (bitsOf v 15 8), min := BitVec.ofNat 8 (bitsOf v 7 0), seq := d.hsb.seq,
    pairId := d.rd Reg.HSB_PAIRID0, uid := d.rd Reg.SYS_UID0, crcOk := true }

/-- R207: a pair message on path A, path B or both. -/
def Dev.sendOn (d : Dev) (t : Nat) (a b : Bool) (m : PairMsg) : Dev := d.send t (.pair a b d.pairHead m)

/-- R200, R202, R207: an exchange message to the peer, on path A or else on path B; a switch travels on both. Where it
fails on both, source 171 is raised. -/
def Dev.sendExch (d : Dev) (t : Nat) (both : Bool) (m : ExchMsg) : Dev :=
  if d.peerJoins then
    let a := d.flag F.HSB_STAT_PATHA
    d.sendOn t (a || both) (!a || both) (.exch m)
  else if d.flag F.HSB_CFG_EN then
    let d := d.setFld F.XCH_PAIR_ALONE 1
    if d.fld F.HSB_VER_MAJ = 1 then d else d.xchEvent t 3
  else d

/-- This member decides for the pair: it holds control. -/
def Dev.decides (d : Dev) : Bool := d.flag F.HSB_CFG_EN && bitOf d.roleWord 1

/-- The regions of a staging that is given up are no longer valid. -/
def Dev.dropRegions (d : Dev) : Dev :=
  d.xch.regions.foldl (fun d k => d.setFld (F.IMG_RGN_VALID k) 0) d

/-- The exchange becomes IDLE with a result. -/
def Dev.xchIdle (d : Dev) (result : Nat) : Dev :=
  let d := (d.xset 0 result).wr Reg.XCH_OTHERVER 0
  let d := d.setFld F.XCH_STAT_PAIR 0
  d.modXch (fun x => { x with
    tasks := [], olds := [], fwd := [], inv := [], regions := [], rungs := [], frp := false,
    stageEnd := none, btmo := none, winEnd := none, warned := false, expired := false, switchAt := [], late := [],
    reverting := false, confirmDue := none })

/-- R203: seconds left of the window at MONO t. -/
def Dev.winLeft (d : Dev) (t : Nat) : Nat :=
  if d.xst = 3 then (match d.xch.winEnd with | some e => (e - t) / 1000000000 | none => 0) else 0

/-- R187: STAGE of the descriptor at offset o begins at MONO t for port class cls; a staged version is given up. -/
def Dev.stage (d : Dev) (t o cls : Nat) : Dev :=
  let d := if d.xst = 1 then d.dropRegions else d
  let d := d.setFld F.XCH_STAT_STATE 5
  d.modXch (fun x => { x with cls := cls, regions := [], stageEnd := some (t + (d.descCounts o).cost) })

/-- The offset that XCH_DESC names; bits [3:0] are ignored. -/
def Dev.descOffset (d : Dev) : Nat := d.fld F.XCH_DESC_OFFSET / 16 * 16

/-- XCH_CMD with CMD 1. -/
def Dev.xchStage (d : Dev) (t cls : Nat) : Dev :=
  if (d.xst = 0 ∨ d.xst = 1) ∧ (d.mode = .remote ∨ d.mode = .program) then
    let d := d.stage t d.descOffset cls
    let d := d.setFld F.XCH_PAIR_ALONE 0
    if d.decides then
      (d.setFld F.XCH_STAT_PAIR (b2n d.peerJoins)).sendExch t false (.stage (BitVec.ofNat 18 d.descOffset) (d.winLeft t))
    else d
  else d.xchRefuse t

/-- R185: XCH_CCOST of every task. -/
def Dev.writeCosts (d : Dev) (x : Exch) : Dev :=
  forN 64 (fun n d => d.wr (Reg.XCH_CCOST n) (BitVec.ofNat 32 (mapCost x.fwd n))) d

/-- R188: STAGE ends with a failed check. -/
def Dev.stageFail (d : Dev) (t : Nat) (f : ChkFail) : Dev :=
  let d := d.wr Reg.XCH_CHK (BitVec.ofNat 32 (f.1 + f.2.1 * 2 ^ 4 + f.2.2 * 2 ^ 16))
  (d.xchIdle 6).xchEvent t 1

/-- R188: the region entries and the rung table that follow checks that pass: written, and the table then checked under
R171; the regions of a staging that fails with FRP are valid no longer (assumption 89). -/
def Dev.stageWrites (d : Dev) (t o : Nat) (x : Exch) : Dev × Option ChkFail :=
  let c := d.descCounts o
  let d := (d.rgnEntries (o + d.stg (o + 0x2C)) c.nrgn).foldl (fun d p => d.wr (Reg.IMG_RGN p.1) p.2) d
  let d := d.modXch (fun y => { y with regions := x.regions })
  if c.frp then
    let tbl := d.stagedRungs (rungTableAt o (d.stg (o + 0x38)) c.nrung)
    let chk := checkTable tbl none
    let d := ({ d with plane := { d.plane with shadow := tbl } }).recordCheck t chk
    match chk with
    | some p => (d.dropRegions, some (9, 6, p.1))
    | none => (d, none)
  else (d, none)

/-- R188: the version at offset o has passed every check. -/
def Dev.stagePass (d : Dev) (o : Nat) (x : Exch) : Dev :=
  let d := (d.wr Reg.XCH_CHK 0).wr Reg.XCH_TMASK0 (Memory.rd32 d.mem.staging (o + 0x10))
  let d := d.wr Reg.XCH_TMASK1 (Memory.rd32 d.mem.staging (o + 0x14))
  let d := { d with xch := { x with stageEnd := none } }
  (d.wr Reg.XCH_OTHERVER x.newVer).xset 1 12

/-- R188, R198: staging ends at MONO t. -/
def Dev.stageDone (t : Nat) (d : Dev) : Dev :=
  match d.xch.stageEnd with
  | none => d
  | some _ =>
    let o := d.descOffset
    let x := d.readDesc o d.xch.cls
    let d := (d.modXch (fun y => { y with stageEnd := none })).xchJournal t x.cls 1 x.newVer
    let d : Dev := match d.checkDesc o x with
      | some f => (if f.1 = 7 ∨ f.1 = 8 then d.writeCosts x else d).stageFail t f
      | none =>
        let y := (d.writeCosts x).stageWrites t o x
        match y.2 with
        | some f => y.1.stageFail t f
        | none => y.1.stagePass o x
    if d.flag F.HSB_CFG_EN ∧ !d.decides then
      d.sendExch t false (.state (BitVec.ofNat 3 d.xst) x.newVer x.baseVer 0)
    else d

/-- XCH_STAGE_DONE: the time of STAGE has passed. -/
def execXchStageDone (s : State) : Host.Outcome State Fault Refusal :=
  match s.dev.xch.stageEnd with
  | some e => s.at e Dev.stageDone
  | none => .next s

/-- R189: the boundary timeout in ns. -/
def Dev.boundaryTimeout (d : Dev) : Nat := max 1 (d.fld F.XCH_CFG_BTMO) * 10000000

/-- R200: in a pair, ARM needs the peer STAGED with the same versions, unless the exchange goes on alone. -/
def Dev.pairReady (d : Dev) : Bool :=
  !d.decides || !d.peerJoins ||
    (d.fld F.XCH_PAIR_PEER == 1 && d.xch.peerVers == some (d.xch.newVer, d.xch.baseVer))

/-- XCH_CMD with CMD 2. -/
def Dev.xchArm (d : Dev) (t : Nat) : Dev :=
  if d.xst = 1 ∧ (d.mode = .remote ∨ d.mode = .program) then
    if d.pairReady then
      let d := if d.decides ∧ !d.peerJoins then d.setFld F.XCH_PAIR_ALONE 1 else d
      (d.setFld F.XCH_STAT_STATE 2).modXch (fun x => { x with btmo := some (t + d.boundaryTimeout) })
    else (d.setFld F.XCH_STAT_RESULT 10).xchEvent t 1
  else d.xchRefuse t

/-- XCH_CMD with CMD 3. -/
def Dev.xchCancel (d : Dev) (t : Nat) : Dev :=
  if d.xst = 1 then d.dropRegions.xchIdle 9
  else if d.xst = 2 then (d.xset 1 9).modXch (fun x => { x with btmo := none })
  else d.xchRefuse t

/-! ## The switch (R189, R190, R197) -/

/-- R189: a release of task n falls to MONO t. -/
def Dev.releaseDue (d : Dev) (t n : Nat) : Bool :=
  (d.task n).live &&
    match d.kind n with
    | 0 => Nat.ble (d.periodicDue n) t
    | 1 => decide ((d.task n).nextU ≤ d.U t)
    | _ => (d.task n).arrivals.any (fun m => Nat.ble m t)

/-- R189: task n stands at a boundary at MONO t. -/
def Dev.taskIdle (d : Dev) (t n : Nat) : Bool :=
  !(d.busy n) && (d.task n).pend.isNone && (d.task n).held.isNone && (d.task n).catchup.isEmpty && !(d.releaseDue t n)

/-- The present values of the four registers of task n, with its known span. -/
def Dev.taskRegs (d : Dev) (n : Nat) : XTask :=
  { task := n, code := d.rd (Reg.TSK_CODE n), budget := d.rd (Reg.TSK_BUDGET n), trgn := d.rd (Reg.IMG_TRGN n),
    oinst := d.rd (Reg.IMG_OINST n), bytes := Sparse.get (fun _ => 0) d.xch.spans n }

/-- The carry-over of task n set or withdrawn, with its XCH_TPEND bit. -/
def Dev.setCarry (d : Dev) (n : Nat) (c : Option Carry) : Dev :=
  (d.modXch (fun x => { x with carries := Sparse.set (fun _ => none) x.carries n c })).setMaskBit Reg.XCH_TPEND0 n c.isSome

/-- R190, R197: task n of the group takes the registers of x; its first run carries over by a map, unless the forward
carry-over that a revert undoes is still pending. -/
def Dev.switchTask (d : Dev) (x : XTask) (revert : Bool) : Dev :=
  let n := x.task
  let now := d.taskRegs n
  let entries := (if revert then d.xch.inv else d.xch.fwd).filter (fun e => e.task == n)
  let carry : Carry := { entries := entries, src := d.tbAddr n now.code, dst := d.tbAddr n x.code, cost := mapCost entries n,
                          span := d.spanOf n }
  let d := if revert then d else d.modXch (fun y => { y with olds := y.olds ++ [now] })
  let d := if revert && (d.carryOf n).isSome then d.setCarry n none else d.setCarry n (some carry)
  let d := d.modXch (fun y => { y with spans := Sparse.set (fun _ => 0) y.spans n x.bytes })
  ((d.writeTaskRegs x).modTask n (fun k => { k with exch := true })).touchOuts

/-- R193: the rung tables change at the first sweep boundary after MONO t. -/
def Dev.switchRungs (d : Dev) (t : Nat) (revert : Bool) : Dev :=
  if d.xch.frp then
    { d with plane := { d.plane with swapDue := some t, carry := (if revert then [] else d.xch.rungs), byExchange := true } }
  else d

/-- R190: WAITCONF is entered at MONO t with a window of so many seconds. -/
def Dev.enterWaitconf (d : Dev) (t left : Nat) : Dev :=
  let old := d.rd Reg.XCH_RUNVER
  let d := ((d.xchJournal t d.xch.cls 2 d.xch.newVer).wr64 Reg.XCH_SWMONO0 t).xset 3 1
  let d := (d.wr Reg.XCH_RUNVER d.xch.newVer).wr Reg.XCH_OTHERVER old
  let d := (d.incFld F.XCH_COUNT_SWITCHES).modXch (fun x =>
    { x with btmo := none, winEnd := some (t + left * 1000000000), warned := false, reverting := false })
  d.xchEvent t 0

/-- R197: the revert is complete at MONO t. -/
def Dev.revertDone (d : Dev) (t : Nat) : Dev :=
  let expired := d.xch.expired
  let d := (d.xchJournal t d.xch.cls 4 d.xch.newVer).dropRegions
  let d := (d.wr64 Reg.XCH_SWMONO0 t).wr Reg.XCH_RUNVER d.xch.baseVer
  ((d.incFld F.XCH_COUNT_REVERTS).xchIdle (if expired then 4 else 3)).xchEvent t 0

/-- R196: IMG_RGN entries that no task selects are no longer valid. -/
def Dev.freeRegions (d : Dev) : Dev :=
  let en := (List.range 64).filter d.enabled
  let used := en.flatMap (fun n => d.inRegions n ++ d.outRegions n)
  forN 256 (fun k d => if used.contains k then d else d.setFld (F.IMG_RGN_VALID k) 0) d

/-- R196, R198, R436: the exchange is confirmed at MONO t by class cls, and the confirmed version is sealed. -/
def Dev.confirmXch (d : Dev) (t result cls : Nat) : Dev :=
  (((d.xchJournal t cls 3 d.xch.newVer).freeRegions).xchIdle result).sealConfig

/-- R201: the tasks of this member that have yet to switch as its peer did have all switched: a revert is complete, and a
confirmation that has come meanwhile takes effect. -/
def Dev.switchesDone (d : Dev) (t : Nat) : Dev :=
  if d.xch.switchAt.isEmpty && d.xch.late.isEmpty then
    if d.xch.reverting then d.revertDone t
    else match d.xch.confirmDue with
      | some auto => d.confirmXch t (if auto then 5 else 2) 4
      | none => d
  else d

/-- R201: the run numbers at which the peer's tasks switch: TC_RUN of the last run + 1. -/
def Dev.switchRuns (d : Dev) : List (BitVec 6 × BitVec 32) :=
  d.group.map (fun n => (BitVec.ofNat 6 n, (d.task n).runNo + 1))

/-- R201: the tasks that switch late do so at the boundary at MONO t. -/
def Dev.switchLate (d : Dev) (t : Nat) : Dev :=
  let rev := d.xch.reverting
  let l := (if rev then d.xch.olds else d.xch.tasks).filter (fun x => d.xch.late.contains x.task)
  let d := l.foldl (fun d x => d.switchTask x rev) d
  (d.modXch (fun x => { x with late := [] })).switchesDone t

/-- R190: the switch at MONO t. -/
def Dev.switchGroup (d : Dev) (t : Nat) : Dev :=
  let group := d.group
  let runs := d.switchRuns
  let d := (d.xch.tasks.filter (fun x => group.contains x.task)).foldl (fun d x => d.switchTask x false) d
  let d := (d.switchRungs t false).enterWaitconf t d.xch.window
  if d.decides then d.sendExch t true (.switch false runs d.xch.window) else d

/-- R197: the revert at MONO t. -/
def Dev.revertGroup (d : Dev) (t : Nat) : Dev :=
  let runs := d.switchRuns
  let d := (d.xch.olds.foldl (fun d x => d.switchTask x true) d).switchRungs t true
  let d := if d.decides then d.sendExch t true (.switch true runs 0) else d
  d.revertDone t

/-- R189, R190, R197, R201: the boundary is taken at MONO t. -/
def Dev.takeBoundary (t : Nat) (d : Dev) : Dev :=
  if d.group.all (d.taskIdle t) then
    if !d.xch.late.isEmpty then d.switchLate t
    else if d.xst = 2 then d.switchGroup t
    else if d.xst = 4 ∧ d.xch.reverting = false then d.revertGroup t
    else d
  else d

/-- XCH_BOUNDARY: no task of the group is active or pending. -/
def execXchBoundary (s : State) : Host.Outcome State Fault Refusal := s.upd Dev.takeBoundary

/-- R189: no boundary came within BTMO. -/
def Dev.boundaryLate (t : Nat) (d : Dev) : Dev :=
  if d.xst = 2 ∧ d.xch.btmo.isSome then
    ((d.xset 1 7).modXch (fun x => { x with btmo := none })).xchEvent t 1
  else d

/-- XCH_BOUNDARY_TIMEOUT: XCH_CFG.BTMO has passed since ARM. -/
def execXchBoundaryTimeout (s : State) : Host.Outcome State Fault Refusal :=
  match s.dev.xch.btmo with
  | some e => s.at e Dev.boundaryLate
  | none => .next s

/-! ## Confirmation and revert (R195 to R197) -/

/-- XCH_CMD with CMD 4. -/
def Dev.xchConfirm (d : Dev) (t cls : Nat) : Dev :=
  if d.xst = 3 ∧ d.mode ≠ .run then
    let d := if d.decides then d.sendExch t true (.confirm false (d.winLeft t)) else d
    d.confirmXch t 2 cls
  else d.xchRefuse t

/-- XCH_CMD with CMD 5. -/
def Dev.xchRevert (d : Dev) (t cls : Nat) : Dev :=
  if d.xst = 3 ∧ d.mode ≠ .run then
    (d.setFld F.XCH_STAT_STATE 4).modXch (fun x => { x with cls := cls, expired := false, winEnd := none })
  else d.xchRefuse t

/-- R195: WARN minutes of the window remain. -/
def Dev.windowWarn (t : Nat) (d : Dev) : Dev :=
  if d.xst = 3 ∧ !d.xch.warned then (d.modXch (fun x => { x with warned := true })).xchEvent t 2 else d

/-- XCH_WINDOW_WARN: XCH_CFG.WARN minutes of the confirmation window remain. -/
def execXchWindowWarn (s : State) : Host.Outcome State Fault Refusal :=
  match s.dev.xch.winEnd with
  | some e => s.at (e - s.dev.fld F.XCH_CFG_WARN * 60000000000) Dev.windowWarn
  | none => .next s

/-- R195: the window ends at MONO t. A standby leaves the decision to the holder. -/
def Dev.windowEnd (t : Nat) (d : Dev) : Dev :=
  if d.xst = 3 ∧ !(d.flag F.HSB_CFG_EN && !d.decides) then
    let d := ((d.modXch (fun x => { x with winEnd := none })).xchEvent t 2).xchJournal t d.xch.cls 5 d.xch.newVer
    if d.flag F.XCH_CFG_EXPACT then
      let d := if d.decides then d.sendExch t true (.confirm true 0) else d
      d.confirmXch t 5 d.xch.cls
    else (d.setFld F.XCH_STAT_STATE 4).modXch (fun x => { x with expired := true })
  else d

/-- XCH_WINDOW_EXPIRY: the confirmation window ends. -/
def execXchWindowExpiry (s : State) : Host.Outcome State Fault Refusal :=
  match s.dev.xch.winEnd with
  | some e => s.at e Dev.windowEnd
  | none => .next s

/-! ## Carry-over (R191, R192) -/

/-- R183, R184, R192: the carry-over of task n; ecc names the entry in whose read a double-bit error is met. It answers
the effective address of that read, for a run that ends with ECC_DATA (assumption 90); the carry-over is complete either
way (assumption 91). -/
def Dev.runCarry (d : Dev) (n : Nat) (ecc : Option Nat) : Dev × Option Word :=
  match d.carryOf n with
  | none => (d, none)
  | some c =>
    let todo := match ecc with | some i => c.entries.take i | none => c.entries
    let x := todo.foldl (fun (x : Memory × Nat) e =>
      let y := e.apply c.src c.dst x.1
      (y.1, x.2 + y.2)) (d.mem.data, 0)
    let clips := min 0xFFFFFFFF ((d.rd Reg.XCH_CVCLIP).toNat + x.2)
    let d := ({ d with mem := { d.mem with data := x.1 } }).wr Reg.XCH_CVCLIP (BitVec.ofNat 32 clips)
    (d.setCarry n none, (ecc.bind (fun i => c.entries[i]?)).map (fun e =>
      BitVec.ofNat 32 (0x10000000 + (c.src + e.oldOff) % 0x200000)))

/-- R201: task n is dispatched for run number run at MONO t: it switches first when that is its S_n. -/
def Dev.switchAtRun (d : Dev) (t n : Nat) (run : Word) : Dev :=
  match Sparse.get (fun _ => none) d.xch.switchAt n with
  | some s =>
    if s = run then
      let rev := d.xch.reverting
      let d := d.modXch (fun x => { x with switchAt := Sparse.set (fun _ => none) x.switchAt n none })
      let d := match (if rev then d.xch.olds else d.xch.tasks).find? (fun x => x.task == n) with
        | some x => d.switchTask x rev
        | none => d
      d.switchesDone t
    else d
  | none => d

/-! ## Modes, sleep and the peer (R199 to R201) -/

/-- R199: an armed exchange goes back to STAGED, at a mode change to RUN or STOP and at deep sleep. -/
def Dev.xchDisarm (d : Dev) : Dev :=
  if d.xst = 2 then (d.xset 1 9).modXch (fun x => { x with btmo := none }) else d

/-- R201: task n has dispatched run S_n or a later one. -/
def Dev.passedRun (d : Dev) (n : Nat) (s : Word) : Bool :=
  let k := ((d.task n).runNo - s + 1).toNat
  Nat.ble 1 k && Nat.blt k (2 ^ 31)

/-- R201: the holder's switch, or revert, reaches this member at MONO t: each task switches at the dispatch of its run
S_n; a task that has passed it switches at the next boundary, and the pair diverges. -/
def Dev.peerSwitch (d : Dev) (t : Nat) (revert : Bool) (runs : List (BitVec 6 × BitVec 32)) (left : Nat) : Dev :=
  let passed := runs.filter (fun p => d.passedRun p.1.toNat p.2)
  let ahead := runs.filter (fun p => !(d.passedRun p.1.toNat p.2))
  let d := if revert then d.xset 4 1 else d.enterWaitconf t left
  let d := (d.switchRungs t revert).modXch (fun x => { x with
    reverting := revert, late := passed.map (fun p => p.1.toNat), winEnd := (if revert then none else x.winEnd),
    switchAt := ahead.foldl (fun sw p => Sparse.set (fun _ => none) sw p.1.toNat (some p.2)) [] })
  let d := if passed.isEmpty then d else (d.setFld F.XCH_PAIR_DIVERGE 1).xchEvent t 3
  d.switchesDone t

/-- R201: the remaining window that a message carries, for a member in WAITCONF. -/
def Dev.takeLeft (d : Dev) (t left : Nat) : Dev :=
  if d.xst = 3 then d.modXch (fun x => { x with winEnd := some (t + left * 1000000000) }) else d

/-- R200, R201: an exchange message from the peer at MONO t. -/
def Dev.exchMessage (m : ExchMsg) (t : Nat) (d : Dev) : Dev :=
  match m with
  | .stage o left =>
    if d.xst = 0 ∨ d.xst = 1 then
      let d := d.setFld F.XCH_DESC_OFFSET o.toNat
      (d.stage t d.descOffset 4).setFld F.XCH_STAT_PAIR 1
    else d.takeLeft t left
  | .state st nv bv left =>
    let d := if d.decides then d else d.takeLeft t left
    ((d.setFld F.XCH_PAIR_PEER st.toNat).setFld F.XCH_PAIR_PEERVALID 1).modXch (fun x => { x with peerVers := some (nv, bv) })
  | .switch revert runs left =>
    if (!revert ∧ (d.xst = 1 ∨ d.xst = 2)) ∨ (revert ∧ (d.xst = 3 ∨ d.xst = 4)) then d.peerSwitch t revert runs left else d
  | .confirm auto left =>
    if d.xst = 3 then
      ((d.takeLeft t left).modXch (fun x => { x with confirmDue := some auto, reverting := false })).switchesDone t
    else d

end Sys2Proof.Machine
end

