-- ==== Sys2Proof/Machine/Hsb.lean ====
section
/-!
DEFINITION. Hot standby pairs (09_hot_standby.md): heartbeats and paths (R207 to R210), the lease line (R211 to R216),
joining (R217), the publication role (R218 to R221), the mirror (R224 to R227), handover and return (R229 to R232),
versions (R234, R235).
-/
namespace Sys2Proof.Machine

/-! ## Fields and events -/

/-- The member belongs to a pair, and its controller works. -/
def Dev.member (d : Dev) : Bool := d.flag F.HSB_CFG_EN && (d.phase == .ready || d.phase == .prep)

/-- R238: source 156 + k and its flag. -/
def Dev.hsbEvent (d : Dev) (t k : Nat) : Dev := d.raiseFlag t (156 + k) Reg.HSB_EVT k

/-- The controller's record changed by f. -/
def Dev.modHsb (d : Dev) (f : Hsb → Hsb) : Dev := { d with hsb := f d.hsb }

/-- HSB_STAT.ROLE_STATE. -/
def Dev.role (d : Dev) : Nat := d.fld F.HSB_STAT_ROLE_STATE

/-- HSB_STAT.ROLE_STATE set; the unit's role word changes with it. -/
def Dev.setRole (d : Dev) (st : Nat) : Dev := (d.setFld F.HSB_STAT_ROLE_STATE st).touch

/-- Bit i of HSB_STAT.ROLES: 0 LEASE, 1 CONTROL, 2 PUBLICATION, 3 PREFERRED. -/
def Dev.roleBit (d : Dev) (i : Nat) : Bool := d.bit Reg.HSB_STAT i

/-- A path is up. -/
def Dev.pathUp (d : Dev) : Bool := d.flag F.HSB_STAT_PATHA || d.flag F.HSB_STAT_PATHB

/-- R207: a message of the pair on both paths. -/
def Dev.sendPair (d : Dev) (t : Nat) (m : PairMsg) : Dev := d.sendOn t true true m

/-- R206, R212, R348: lease (with control) and publication take these values at MONO t; a change raises source 156, and gates
and the leader of a stand follow. -/
def Dev.setRoles (d : Dev) (t : Nat) (lease pub : Bool) : Dev :=
  let same := d.roleBit 0 == lease && d.roleBit 2 == pub
  let d := (((d.setBit Reg.HSB_STAT 0 lease).setBit Reg.HSB_STAT 1 lease).setBit Reg.HSB_STAT 2 pub).touch.touchOuts
  let d := d.setGate t pub
  if same then d else (d.hsbEvent t 0).settleStand t

/-! ## Self-test and self-diagnosis -/

/-- R214: HSB_STAT.SELFTEST. -/
def Dev.selftest (d : Dev) : Bool :=
  d.flag F.HSB_CFG_EN && d.health != 3 && !((List.range 8).any (fun c => d.tasksHealth (d.coreTasks c) == 3)) &&
    d.fld F.FRP_STAT_PLANE != 3 && d.mode != .program && d.role != 6 && d.hsb.driverOk

/-- Both ports of a pair of ports have lost link. -/
def Dev.linksLost (d : Dev) (p : Nat) : Bool := !(d.flag (F.ETH_STAT_LINK p)) && !(d.flag (F.ETH_STAT_LINK (p + 1)))

/-- R218: HSB_STAT.PUBDIAG. -/
def Dev.pubdiag (d : Dev) (t : Nat) : Bool :=
  let c := (d.rd Reg.HSB_PUBCFG).toNat
  d.flag F.HSB_CFG_EN && !(bitOf c 0 && d.linksLost 0) && !(bitOf c 1 && d.linksLost 2) &&
    !(bitOf c 2 && Nat.blt (bitsOf c 5 4) (d.tq t)) && !(bitOf c 3 && !(d.flag F.ADC_STAT_SELFTEST))

/-- R219: the pattern driven on ROLE0 at MONO t: 0 HOLD, 1 RELINQUISH, 2 FREE, 3 UNABLE; 4 not driven (R459). UNABLE follows
RELINQUISH until publication is taken again (assumption 93). -/
def Dev.role0 (d : Dev) (t : Nat) : Nat :=
  if !(d.flag F.HSB_CFG_EN) || !d.awake || d.phase == .spore then 4
  else if d.roleBit 2 then 0
  else if d.hsb.relinquishEnd.isSome then 1
  else if d.pubdiag t && !d.hsb.unable then 2
  else 3

/-- The word of HSB_STAT as it reads: SELFTEST and PUBDIAG follow their conditions. -/
def Dev.hsbStat (d : Dev) (t : Nat) : Word :=
  putBits (putBits (d.rd Reg.HSB_STAT) 12 12 (b2n d.selftest)) 24 24 (b2n (d.pubdiag t))

/-! ## Synchronisation and hold-off (R227, R231) -/

/-- The cores that have a mirror task. -/
def Dev.mirrorCores (d : Dev) : List Nat := (List.range 8).filter (fun c => d.flag (F.HSB_MTASK_EN c))

/-- The peer runs the same version. -/
def Dev.sameVersion (d : Dev) : Bool :=
  match d.hsb.peer with | some m => m.runver == d.rd Reg.XCH_RUNVER | none => false

/-- R231: the hold-off of the preferred standby runs while it is synchronised and healthy. -/
def Dev.holdoffState (d : Dev) (t : Nat) : Dev :=
  let secs := max 1 (min 3600 (d.fld F.HSB_CFG_HOLDOFF))
  if d.flag F.HSB_CFG_AUTORET && d.roleBit 3 && d.role == 4 && d.flag F.HSB_STAT_SYNCED && d.health == 0 then
    if d.hsb.holdoff.isSome || d.hsb.returnSent then d
    else d.modHsb (fun h => { h with holdoff := some (t + secs * 1000000000) })
  else d.modHsb (fun h => { h with holdoff := none, returnSent := false })

/-- R227: a standby is synchronised or not; a change raises source 160. -/
def Dev.setSynced (d : Dev) (t : Nat) (b : Bool) : Dev :=
  let changed := d.flag F.HSB_STAT_SYNCED != b
  let d := (d.setFld F.HSB_STAT_SYNCED (b2n b)).setRole (if b then 4 else 5)
  let d := if b then d else d.modHsb (fun h => { h with syncCores := 0 })
  (if changed then d.hsbEvent t 4 else d).holdoffState t

/-- R227: the condition of SYNCED looked at again in a standby. A task that has yet to switch after DIVERGE keeps it
UNSYNCED. -/
def Dev.checkSync (d : Dev) (t : Nat) : Dev :=
  if d.role = 4 ∨ d.role = 5 then
    let ok := d.sameVersion && d.flag F.HSB_STAT_PATHA && d.xch.late.isEmpty &&
      d.mirrorCores.all (fun c => d.hsb.syncCores.getLsbD c)
    if ok = d.flag F.HSB_STAT_SYNCED then d.holdoffState t else d.setSynced t ok
  else d.holdoffState t

/-- R227: SYNCED reads 0 in every other role state. -/
def Dev.leaveStandby (d : Dev) (st : Nat) : Dev :=
  ((d.setFld F.HSB_STAT_SYNCED 0).setRole st).modHsb (fun h => { h with syncCores := 0, holdoff := none, returnSent := false })

/-- R234: the runtime firmware of a BARRED member asks for the holder's version. -/
def Dev.askVersion (d : Dev) (t : Nat) : Dev :=
  if d.mode = .remote ∨ d.mode = .program then d.sendPair t .pairload else d

/-- R234: the peer holds the lease and runs another version, and has not shown this member's version since joining. -/
def Dev.otherVersion (d : Dev) : Bool :=
  match d.hsb.peer with
  | some m => m.roles.getLsbD 0 && m.runver != d.rd Reg.XCH_RUNVER && !d.hsb.matched
  | none => false

/-- R234: the member is BARRED at MONO t. -/
def Dev.bar (d : Dev) (t : Nat) : Dev := ((d.leaveStandby 6).hsbEvent t 7).askVersion t

/-- R227, R234: the member becomes standby at MONO t, or BARRED when the holder runs another version. -/
def Dev.becomeStandby (d : Dev) (t : Nat) : Dev :=
  let d := d.modHsb (fun h => { h with slot := none, leaseEnd := none, handover := none, claimEnd := none })
  if d.otherVersion then d.bar t else (d.leaveStandby 5).checkSync t

/-! ## Heartbeats (R207 to R209) -/

/-- The heartbeat of this member at MONO t. Its PREFERRED bit shows the level of PREF, from which each member finds a
conflict (R205; assumption 92). -/
def Dev.heartbeat (d : Dev) (t : Nat) : Heartbeat :=
  let st := d.hsbStat t
  { maj := BitVec.ofNat 8 (bitsOf (d.rd (Reg.SYS_IFVER 2)).toNat 15 8),
    min := BitVec.ofNat 8 (bitsOf (d.rd (Reg.SYS_IFVER 2)).toNat 7 0),
    seq := d.hsb.seq, pairId := d.rd Reg.HSB_PAIRID0, uid := d.rd Reg.SYS_UID0,
    roles := BitVec.ofNat 4 (bitsOf st.toNat 2 0 + 8 * b2n (d.flag F.SYS_STRAPS_PREF)), roleState := BitVec.ofNat 4 (bitsOf st.toNat 7 4),
    health := BitVec.ofNat 2 d.health, selftest := st.getLsbD 12, synced := st.getLsbD 13, pubdiag := st.getLsbD 24,
    mode := BitVec.ofNat 2 d.mode.code, xstate := BitVec.ofNat 3 d.xst, runver := d.rd Reg.XCH_RUNVER, mono := t,
    ns := d.tnsWord t, sec := BitVec.ofNat 32 (d.station t / 1000000000) }

/-- R207: a heartbeat, or in version parley a PARLEY message, leaves on both paths. -/
def Dev.hbSend (t : Nat) (d : Dev) : Dev :=
  if d.member then
    let d := if d.role = 10 then d.sendPair t .parley else d.sendPair t (.heartbeat (d.heartbeat t))
    d.modHsb (fun h => { h with seq := h.seq + 1, nextHb := h.nextHb.map (· + 100000) })
  else d

/-- HEARTBEAT_SEND: 100 µs of MONO have passed since the last heartbeat. -/
def execHeartbeatSend (s : State) : Host.Outcome State Fault Refusal :=
  match s.dev.hsb.nextHb with
  | some e => s.at e Dev.hbSend
  | none => .next s

/-- R209: D into HSB_MONOOFS. -/
def Dev.setD (d : Dev) (ofs : Int) (src : Nat) : Dev :=
  (d.wr64 Reg.HSB_MONOOFS0 (ofs % (2 ^ 64 : Nat)).toNat).wr Reg.HSB_MONOSRC (BitVec.ofNat 32 src)

/-- R209: D, signed. -/
def Dev.pairD (d : Dev) : Int := (BitVec.ofNat 64 (d.rd64 Reg.HSB_MONOOFS0)).toInt

/-- R209: D from a heartbeat of path B: the sender's MONO at a station time less own MONO at that station time. -/
def Dev.dFromB (d : Dev) (t : Nat) (m : Heartbeat) : Int :=
  let own := d.station t
  let sec := own / 1000000000 / 2 ^ 32 * 2 ^ 32 + m.sec.toNat
  (m.mono : Int) - ((t : Int) - ((own : Int) - ((sec * 1000000000 + m.ns.toNat % 2 ^ 30 : Nat) : Int)))

/-- R205: the identity of the peer with low word uid. A heartbeat carries that word alone: the rest is known from the
IDENT frame of a stand member, and is a value of its own otherwise (assumption 94). -/
def Dev.peerIdentity (d : Dev) (uid : Word) : BitVec 128 :=
  match d.stand.members.find? (fun m => m.ident.uid.setWidth 32 == uid) with
  | some m => m.ident.uid
  | none => Config.peerIdentity uid ++ uid

/-- R239: HSB_PEERUID0 to HSB_PEERUID3. -/
def Dev.showPeer (d : Dev) (uid : Word) : Dev :=
  let x := (d.peerIdentity uid).toNat
  (d.wr64 Reg.HSB_PEERUID0 (x % 2 ^ 64)).wr64 Reg.HSB_PEERUID2 (x / 2 ^ 64)

/-- R205: PREFERRED of this member and of the peer: as the PREF levels say, and with equal levels the member with the
lower identity. -/
def Dev.resolvePref (d : Dev) (t : Nat) (uid : Word) (same peerPref : Bool) : Dev :=
  let was := d.roleBit 3
  let own := if same then decide (d.uid < d.peerIdentity uid) else d.flag F.SYS_STRAPS_PREF
  let d := ((d.setBit Reg.HSB_STAT 3 own).setFld F.HSB_STAT_PEERPREF (b2n (if same then !own else peerPref))).writeSelfpath.touch
  if was == own then d else d.settleStand t

/-- R205: the PREF level that the peer shows; equal levels are a conflict. -/
def Dev.checkPref (d : Dev) (t : Nat) (m : Heartbeat) : Dev :=
  let same := d.flag F.SYS_STRAPS_PREF == m.roles.getLsbD 3
  let was := d.flag F.HSB_STAT_PREFCONF
  let d := (d.setFld F.HSB_STAT_PREFCONF (b2n same)).resolvePref t m.uid same (m.roles.getLsbD 3)
  if same && !was then d.hsbEvent t 7 else d

/-- R235, R336: the standby protocol is negotiated with the peer, whose range is taken to begin at 1.0. -/
def Dev.negotiatePair (d : Dev) (t : Nat) (m : Heartbeat) : Dev :=
  let range := BitVec.ofNat 32 (0x01000000 + m.maj.toNat * 2 ^ 8 + m.min.toNat)
  match negotiate (d.rd (Reg.SYS_IFVER 2)) range with
  | some (maj, min) => (d.wr Reg.HSB_VER (BitVec.ofNat 32 (min + maj * 2 ^ 8 + 2 ^ 16))).setParley t 2 false
  | none => (d.wr Reg.HSB_VER 0).setParley t 2 true

/-- R235: the peer has no common major with this member, which enters PARLEY. A holder keeps its lease. -/
def Dev.parley (d : Dev) (t : Nat) : Dev :=
  let d := (d.wr Reg.HSB_VER 0).setParley t 2 true
  if d.role = 10 then d
  else ((d.modHsb (fun h => { h with handover := none, claimEnd := none })).leaveStandby 10).hsbEvent t 7

/-- R213: ROLE_STATE of a holder. -/
def Dev.holderRole (d : Dev) : Nat := if d.pathUp then 2 else 3

/-- R235: a common version has been found again: a member leaves PARLEY. -/
def Dev.leaveParley (d : Dev) (t : Nat) : Dev :=
  if d.roleBit 0 then d.leaveStandby d.holderRole
  else if d.hsb.joined then d.becomeStandby t
  else d.leaveStandby 1

/-- R210: the port of path A outside a stand: port 1 of the member with child index 0, port 0 of the other. -/
def Dev.pathAPort (d : Dev) : Nat :=
  if d.standOn then (if (d.neighbour 0).any (fun m => m.ident.pos.toNat == d.ownPos) then 0 else 1)
  else b2n (d.roleBit 3)

/-- R211: a heartbeat shows the peer in STANDBY, UNSYNCED or BARRED. -/
def standsBy (m : Heartbeat) : Bool := m.roleState == 4 || m.roleState == 5 || m.roleState == 6

/-- R210: path A joins the members over a rhizome port that is up. -/
def Dev.pathOpen (d : Dev) (pathB : Bool) : Bool := pathB || d.flag (F.STD_PORT_UP d.pathAPort)

/-- R208, R211, R220, R221, R234: what the controller takes from a heartbeat of the peer at MONO t. -/
def Dev.noteHeartbeat (d : Dev) (pathB : Bool) (m : Heartbeat) (t : Nat) : Dev :=
  let pub := m.roles.getLsbD 2
  let stands := d.hsb.peerStandFrom.isSome && d.flag F.HSB_STAT_PEERVALID
  d.modHsb (fun h => { h with
    lastA := if pathB then h.lastA else some t, lastB := if pathB then some t else h.lastB, peer := some m,
    peerPub := if pub then t else h.peerPub, gaveUp := h.gaveUp && !pub,
    peerStandFrom := if standsBy m then (if stands then h.peerStandFrom else some t) else none,
    matched := h.matched || (m.roles.getLsbD 0 && m.runver == d.rd Reg.XCH_RUNVER) })

/-- R208: a valid heartbeat of the peer on a path. -/
def Dev.hbReceive (pathB : Bool) (m : Heartbeat) (t : Nat) (d : Dev) : Dev :=
  if !d.member || !d.pathOpen pathB then d
  else if m.pairId ≠ d.rd Reg.HSB_PAIRID0 then d.hsbEvent t 7
  else
    let d := d.noteHeartbeat pathB m t
    let d := (d.setFld (if pathB then F.HSB_STAT_PATHB else F.HSB_STAT_PATHA) 1).setFld F.HSB_STAT_PEERVALID 1
    let d := (d.setFld F.HSB_STAT_PEERSTATE m.roleState.toNat).setFld F.HSB_STAT_PEERHEALTH m.health.toNat
    let d := (d.showPeer m.uid).wr Reg.HSB_PEERVER m.runver
    let d := (d.setFld F.XCH_PAIR_PEER m.xstate.toNat).setFld F.XCH_PAIR_PEERVALID 1
    let d := if pathB && !(d.flag F.HSB_STAT_PATHA) then d.setD (d.dFromB t m) 2 else d
    let d := (d.checkPref t m).negotiatePair t m
    let d := if !(d.flag F.HSB_VER_VALID) then d.parley t else if d.role = 10 then d.leaveParley t else d
    let d := if d.role = 3 then d.setRole 2 else d
    let d := if d.role = 6 && d.sameVersion then d.becomeStandby t else d
    let d := if (d.role == 4 || d.role == 5) && d.otherVersion then d.bar t else d
    (d.checkSync t).touch

/-- HEARTBEAT: a heartbeat arrives on a path; one with a wrong CRC-32C is discarded (R207). -/
def execHeartbeat (dt : Nat) (pathB : Bool) (x : HeartbeatIn) (s : State) : Host.Outcome State Fault Refusal :=
  s.event dt (if x.crcOk then Dev.hbReceive pathB x.body else fun _ d => d)

/-- When a path was last heard. -/
def Dev.lastHb (d : Dev) (pathB : Bool) : Nat := (if pathB then d.hsb.lastB else d.hsb.lastA).getD 0

/-- R208, R209, R213: a path that was up is lost; D from path A is held until path B gives one. -/
def Dev.pathDown (pathB : Bool) (t : Nat) (d : Dev) : Dev :=
  let f := if pathB then F.HSB_STAT_PATHB else F.HSB_STAT_PATHA
  if d.flag f then
    let d := (d.setFld f 0).incFld (if pathB then F.HSB_PATHCNT_BLOSS else F.HSB_PATHCNT_ALOSS)
    let d := d.hsbEvent t 1
    let d := if d.pathUp then d else
      (d.setFld F.HSB_STAT_PEERVALID 0).setFld F.XCH_PAIR_PEERVALID 0
    let d := if pathB && d.pathUp then d else d.wr Reg.HSB_MONOSRC 0
    let d := if !d.pathUp && d.role == 2 then d.setRole 3 else d
    (d.checkSync t).touch
  else d

/-- R208: 300 µs have passed without a heartbeat on a path. -/
def Dev.losePath (pathB : Bool) (t : Nat) (d : Dev) : Dev :=
  if d.lastHb pathB + 300000 ≤ t then d.pathDown pathB t else d

/-- PATH_LOSS: a path has been without a heartbeat for 300 µs. -/
def execPathLoss (pathB : Bool) (s : State) : Host.Outcome State Fault Refusal :=
  if s.dev.flag (if pathB then F.HSB_STAT_PATHB else F.HSB_STAT_PATHA) then
    s.at (s.dev.lastHb pathB + 300000) (Dev.losePath pathB)
  else .next s

/-! ## The lease line (R211 to R213) -/

/-- HSB_STAT.LINE. -/
def Dev.line (d : Dev) : Nat := d.fld F.HSB_STAT_LINE

/-- R211, R214, R216: a line fault: LINE takes a code, the fault is counted and source 158 is raised. -/
def Dev.lineFault (d : Dev) (t code : Nat) : Dev :=
  let d := (d.setFld F.HSB_STAT_LINE code).incFld (if code = 3 then F.HSB_LINECNT_RBERR else F.HSB_LINECNT_BAD)
  d.hsbEvent t 2

/-- R211: the holder decodes its own REFRESH and has seen no PRESENCE for 300 µs while the peer's heartbeats show a
standby. -/
def Dev.presenceMissing (d : Dev) (t : Nat) : Bool :=
  d.hsb.readBack && d.flag F.HSB_STAT_PEERVALID && d.line != 2 &&
    (match d.hsb.peerStandFrom with
     | some e => Nat.ble (max e d.hsb.lastPresence + 300000) t
     | none => false)

/-- R212: the lease timer reloads at a REFRESH that begins at MONO t, and the next slot follows 100 µs later. -/
def Dev.writeRefresh (d : Dev) (t : Nat) : Dev :=
  let d := if d.line = 3 then d.setFld F.HSB_STAT_LINE 0 else d
  (d.modHsb (fun h => { h with leaseEnd := some (t + 500000), slot := some (t + 100000), readBack := true })).send t .refresh

/-- R229: at H, MONO t, the holder writes TRANSFER and closes both gates. -/
def Dev.handoverGive (t : Nat) (d : Dev) : Dev :=
  match d.hsb.handover with
  | some h =>
    if h.out && h.acked && !h.done then
      let d := d.modHsb (fun x => { x with
        handover := some { h with done := true, pub := d.roleBit 2 }, slot := none, leaseEnd := none })
      (d.setRoles t false false).send t .transfer
    else d
  | none => d

/-- R229: MONO t is H of a handover that the peer has acknowledged. -/
def Dev.atHandover (d : Dev) (t : Nat) : Bool :=
  d.hsb.handover.any (fun h => h.out && h.acked && !h.done && Nat.ble h.at_ t)

/-- R211, R213, R229: a refresh slot of the holder at MONO t; at H a TRANSFER takes the place of the REFRESH. -/
def Dev.refreshSlot (t : Nat) (d : Dev) : Dev :=
  if d.roleBit 0 ∧ d.hsb.slot.isSome then
    if d.atHandover t then Dev.handoverGive t d
    else if !d.pathUp ∧ !d.hsb.readBack then
      let d := d.setRoles t false false
      (d.leaveStandby 5).modHsb (fun h => { h with slot := none, leaseEnd := none })
    else (if d.presenceMissing t then d.lineFault t 2 else d).writeRefresh t
  else d

/-- REFRESH_SLOT: the holder's next refresh slot. -/
def execRefreshSlot (s : State) : Host.Outcome State Fault Refusal :=
  match s.dev.hsb.slot with
  | some e => s.at e Dev.refreshSlot
  | none => .next s

/-- R212: the lease timer expires. -/
def Dev.leaseExpiry (t : Nat) (d : Dev) : Dev :=
  match d.hsb.leaseEnd with
  | some e =>
    if e ≤ t then
      ((d.setRoles t false (d.roleBit 2)).leaveStandby 5).modHsb (fun h => { h with slot := none, leaseEnd := none })
    else d
  | none => d

/-- LEASE_EXPIRY: 500 µs have passed since the last REFRESH written. -/
def execLeaseExpiry (s : State) : Host.Outcome State Fault Refusal :=
  match s.dev.hsb.leaseEnd with
  | some e => s.at e Dev.leaseExpiry
  | none => .next s

/-- R211: a REFRESH or TRANSFER of the peer is decoded at its end; a standby owes a PRESENCE 50 µs after the frame's
start, and finds a line fault when it has not decoded the one before. A TRANSFER counts as a REFRESH. -/
def Dev.refreshDecoded (t : Nat) (d : Dev) : Dev :=
  if d.member then
    let d := if d.hsb.presenceSent then (if d.line = 2 then d else d.lineFault t 2) else d.setFld F.HSB_STAT_LINE 0
    let stand := d.role == 4 || d.role == 5 || d.role == 6
    d.modHsb (fun h => { h with
      lastRefresh := t, sawRefresh := true, unreadable := false, presenceSent := false,
      presenceDue := if stand then some (t + 40000) else h.presenceDue })
  else d

/-- REFRESH_DECODED: the pattern REFRESH, or TRANSFER, ends on LEASE_N. -/
def execRefreshDecoded (dt : Nat) (_transfer : Bool) (s : State) : Host.Outcome State Fault Refusal :=
  s.event dt Dev.refreshDecoded

/-- R211: the standby writes a PRESENCE pulse. -/
def Dev.presencePulse (t : Nat) (d : Dev) : Dev :=
  match d.hsb.presenceDue with
  | some _ => (d.modHsb (fun h => { h with presenceDue := none, presenceSent := true })).send t .presence
  | none => d

/-- PRESENCE_PULSE: 50 µs have passed since the start of a decoded REFRESH. -/
def execPresencePulse (s : State) : Host.Outcome State Fault Refusal :=
  match s.dev.hsb.presenceDue with
  | some e => s.at e Dev.presencePulse
  | none => .next s

/-- R211, R217: a PRESENCE is decoded; in JOINING the member's own pulse passes the line driver test. -/
def Dev.presenceDecoded (own : Bool) (t : Nat) (d : Dev) : Dev :=
  if d.member then
    let d := if own && d.role == 1 then d.modHsb (fun h => { h with driverOk := true }) else d
    let d := d.modHsb (fun h => { h with lastPresence := t, presenceSent := false, unreadable := false })
    if d.line = 2 then d.setFld F.HSB_STAT_LINE 0 else d
  else d

/-- PRESENCE_DECODED: a PRESENCE pulse, the member's own or the peer's, is decoded. -/
def execPresenceDecoded (dt : Nat) (own : Bool) (s : State) : Host.Outcome State Fault Refusal :=
  s.event dt (Dev.presenceDecoded own)

/-- R211: the line is found IDLE (1) or UNREADABLE (2), or the holder's last REFRESH does not decode (3). A standby's idle
line is a fault while a path is up (the table of R214). -/
def Dev.lineDecoded (code : Nat) (t : Nat) (d : Dev) : Dev :=
  if !d.member ∨ code = 0 then d
  else if code = 1 then
    let d := d.modHsb (fun h => { h with unreadable := false })
    if d.pathUp && (d.role == 4 || d.role == 5) then d.lineFault t 1 else d.setFld F.HSB_STAT_LINE 1
  else
    (d.lineFault t code).modHsb (fun h => { h with
      unreadable := h.unreadable || code == 2, readBack := h.readBack && code != 3 })

/-- LINE_FAULT: the line decodes as the code of HSB_STAT.LINE says. -/
def execLineFault (dt : Nat) (code : BitVec 2) (s : State) : Host.Outcome State Fault Refusal :=
  s.event dt (Dev.lineDecoded code.toNat)

/-! ## Publication (R218 to R221) -/

/-- R220, R221: the member takes publication at MONO t, each GOOSE dataset going on from these counters. -/
def Dev.takePub (d : Dev) (t : Nat) (stNums : List Word) (degraded : Bool) : Dev :=
  let d := (d.setRoles t (d.roleBit 0) true).setFld F.HSB_STAT_PUBDEG (b2n degraded)
  let d := d.modHsb (fun h => { h with relinquishEnd := none, gaveUp := false, unable := false })
  d.takePublication t (fun e => stNums.getD e 0)

/-- R235: the GOOSE counters that PUB_RELINQUISH and HANDOVER carry; none under minor 0 of major 2. -/
def Dev.countersSent (d : Dev) : List Word :=
  if d.fld F.HSB_VER_MAJ = 2 ∧ d.fld F.HSB_VER_MIN = 0 then [] else d.stNums

/-- R220: the holder of publication gives it up at MONO t. -/
def Dev.giveUpPub (d : Dev) (t : Nat) : Dev :=
  if d.roleBit 2 then
    let d := (d.setRoles t (d.roleBit 0) false).setFld F.HSB_STAT_PUBDEG 0
    let d := d.modHsb (fun h => { h with relinquishEnd := some (t + 2000000), gaveUp := true, peerPub := t })
    (d.sendPair t (.pubRelinquish d.countersSent)).hsbEvent t 6
  else d

/-- PUB_DIAG_FAIL: dt ns pass, and the publication holder finds PUBDIAG = 0 (R218). -/
def execPubDiagFail (dt : Nat) (s : State) : Host.Outcome State Fault Refusal :=
  s.event dt (fun t d => if d.member && !(d.pubdiag t) then d.giveUpPub t else d)

/-- R220: the peer has given up publication: the member picks it up, or refuses. -/
def Dev.peerGaveUp (d : Dev) (t : Nat) (stNums : List Word) : Dev :=
  if !d.member || d.roleBit 2 then d
  else if d.pubdiag t then ((d.takePub t stNums false).sendPair t .pubTaken).hsbEvent t 6
  else (d.sendPair t .pubRefuse).hsbEvent t 6

/-- R204, R207: f acts on a pair message whose pair identity word is this pair's; another raises source 163, and one with
a wrong CRC-32C is discarded. -/
def Dev.pairMsg (h : PairHead) (f : Nat → Dev → Dev) (t : Nat) (d : Dev) : Dev :=
  if !d.member || !h.crcOk then d else if h.pairId = d.rd Reg.HSB_PAIRID0 then f t d else d.hsbEvent t 7

/-- The counters to go on from: those of a message, or those of the last mirror sync when it carries none. -/
def Dev.countersOr (d : Dev) (l : List Word) : List Word := if l.isEmpty then d.hsb.stNums else l

/-- PUB_RELINQUISH: the message of the peer that gives up publication. -/
def execPubRelinquish (dt : Nat) (head : PairHead) (stNums : List (BitVec 32)) (s : State) :
    Host.Outcome State Fault Refusal :=
  s.event dt (Dev.pairMsg head (fun t d => d.peerGaveUp t (d.countersOr stNums)))

/-- R220: the peer has picked up publication. -/
def Dev.pubTaken (t : Nat) (d : Dev) : Dev := d.modHsb (fun h => { h with gaveUp := false, peerPub := t })

/-- PUB_TAKEN: the peer's message. -/
def execPubTaken (dt : Nat) (head : PairHead) (s : State) : Host.Outcome State Fault Refusal :=
  s.event dt (Dev.pairMsg head Dev.pubTaken)

/-- R220: the peer cannot pick up publication: the member takes it back degraded. -/
def Dev.pubRefused (t : Nat) (d : Dev) : Dev :=
  if d.hsb.gaveUp then (d.takePub t d.stNums true).hsbEvent t 6 else d

/-- PUB_REFUSE: the peer's message. -/
def execPubRefuse (dt : Nat) (head : PairHead) (s : State) : Host.Outcome State Fault Refusal :=
  s.event dt (Dev.pairMsg head Dev.pubRefused)

/-- R219, R220: a pattern is decoded on ROLE1. -/
def Dev.roleDecoded (p : Nat) (t : Nat) (d : Dev) : Dev :=
  if !d.member then d
  else
    let d := d.modHsb (fun h => { h with
      role1 := p, peerPub := if p = 0 then t else h.peerPub, gaveUp := h.gaveUp && p != 0 })
    if p = 1 then d.peerGaveUp t d.hsb.stNums else if p = 3 then Dev.pubRefused t d else d

/-- ROLE_PATTERN_DECODED: 0 HOLD, 1 RELINQUISH, 2 FREE, 3 UNABLE, 4 UNREAD on ROLE1. -/
def execRolePatternDecoded (dt : Nat) (pattern : BitVec 3) (s : State) : Host.Outcome State Fault Refusal :=
  s.event dt (Dev.roleDecoded (min 4 pattern.toNat))

/-- R219: RELINQUISH has been driven for 2 ms. -/
def Dev.relinquishOver (_t : Nat) (d : Dev) : Dev :=
  match d.hsb.relinquishEnd with
  | some _ => d.modHsb (fun h => { h with relinquishEnd := none, unable := true })
  | none => d

/-- RELINQUISH_WAVE_END: 2 ms of RELINQUISH have passed. -/
def execRelinquishWaveEnd (s : State) : Host.Outcome State Fault Refusal :=
  match s.dev.hsb.relinquishEnd with
  | some e => s.at e Dev.relinquishOver
  | none => .next s

/-- R221: the lease holder takes a publication that the peer has not been seen to hold for 200 µs. -/
def Dev.orphanTake (t : Nat) (d : Dev) : Dev :=
  if d.member && d.roleBit 0 && !(d.roleBit 2) && d.pubdiag t && d.hsb.role1 != 0 &&
      Nat.ble (d.hsb.peerPub + 200000) t then
    (d.takePub t d.hsb.stNums false).hsbEvent t 6
  else d

/-- PUB_ORPHAN_TAKE: 200 µs have passed since the peer was last seen to hold publication. -/
def execPubOrphanTake (s : State) : Host.Outcome State Fault Refusal :=
  if s.dev.roleBit 0 ∧ !(s.dev.roleBit 2) then s.at (s.dev.hsb.peerPub + 200000) Dev.orphanTake else .next s

/-! ## Claims (R214, R216) -/

/-- R214: when the silence conditions of a claim are met at the earliest. -/
def Dev.claimDue (d : Dev) : Nat :=
  let both := max (d.lastHb false) (d.lastHb true)
  max (max (both + (if d.hsb.unreadable then 2600000 else 600000)) (d.hsb.lastRefresh + 600000)) d.hsb.claimFrom

/-- R216: ROLE_STATE CLAIMING and the first REFRESH at MONO t. -/
def Dev.startClaim (d : Dev) (t : Nat) : Dev :=
  let d := if d.hsb.unreadable then (d.setFld F.HSB_STAT_LINE 2).hsbEvent t 2 else d
  (((d.setFld F.HSB_STAT_SYNCED 0).setRole 7).modHsb (fun h => { h with claimEnd := some (t + 10000) })).send t .refresh

/-- R214: a standby claims when its conditions hold at MONO t. -/
def Dev.claim (t : Nat) (d : Dev) : Dev :=
  if d.member && d.hsb.joined && (d.role == 4 || d.role == 5) && !d.pathUp && d.selftest && Nat.ble d.claimDue t then
    d.startClaim t
  else d

/-- LEASE_CLAIM: the silence and line conditions of a claim have lasted long enough. -/
def execLeaseClaim (s : State) : Host.Outcome State Fault Refusal :=
  if s.dev.hsb.joined ∧ (s.dev.role = 4 ∨ s.dev.role = 5) then s.at s.dev.claimDue Dev.claim else .next s

/-- R237: the leader of the stand that a member pair now gives control to asks, at MONO t, for handovers of the other
member pairs, whose members of this stand do not hold it. -/
def Dev.requestHandovers (d : Dev) (t pos : Nat) : Dev :=
  if d.standOn && d.topo == 2 && d.stand.leader == some d.uid then
    ((List.range d.npos).filter (fun p => p != pos && !bitOf (d.standChild d.ownSidx p).roles 1)).foldl
      (fun d p => d.send t (.handoverRequest p)) d
  else d

/-- R216: the first frame has read back: the roles are taken at MONO t. -/
def Dev.claimWon (d : Dev) (t : Nat) : Dev :=
  let pub := d.pubdiag t
  let d := d.setRoles t true (pub || d.roleBit 2)
  let d := d.modHsb (fun h => { h with claimEnd := none, claimCount := h.claimCount + 1, slot := some (t + 90000),
                                       leaseEnd := some (t + 490000), readBack := true, lastPresence := t })
  let d := d.leaveStandby d.holderRole
  let d := if d.hsb.unreadable then d else d.setFld F.HSB_STAT_LINE 0
  let d := if pub then (d.takePub t d.hsb.stNums false).hsbEvent t 6 else d
  let d := (((d.hsbEvent t 3).incFld F.HSB_CNT_CLAIMS).canClaim).requestHandovers t d.ownPos
  if d.roleBit 3 then d
  else
    let l := t :: d.hsb.claims.filter (fun x => Nat.ble t (x + 3600000000000))
    let d := d.modHsb (fun h => { h with claims := l })
    if 3 ≤ l.length then d.setFld F.HSB_STAT_RETINH 1 else d

/-- R216: the end of the first claim frame. -/
def Dev.claimRead (ok : Bool) (t : Nat) (d : Dev) : Dev :=
  if d.role = 7 then
    if ok then d.claimWon t
    else
      let d := (d.lineFault t 3).modHsb (fun h => { h with claimEnd := none, claimFrom := t + 100000 })
      (d.setRole 5).checkSync t
  else d

/-- CLAIM_READBACK: the first claim frame ends and reads back correctly or not. -/
def execClaimReadback (ok : Bool) (s : State) : Host.Outcome State Fault Refusal :=
  match s.dev.hsb.claimEnd with
  | some e => s.at e (Dev.claimRead ok)
  | none => .next s

/-! ## Joining (R217) -/

/-- HSB_STAT as at reset; RETINH stays until CMD 4 clears it (R231). -/
def Dev.resetHsbStat (d : Dev) : Dev :=
  let keep := d.fld F.HSB_STAT_RETINH
  (d.wr Reg.HSB_STAT (resetWordAt Reg.HSB_STAT)).setFld F.HSB_STAT_RETINH keep

/-- R205, R217: a member starts in JOINING at MONO t: heartbeats begin, one PRESENCE tests the line driver. -/
def Dev.join (d : Dev) (t : Nat) : Dev :=
  if d.flag F.HSB_CFG_EN then
    let d := d.modHsb (fun h => { seq := h.seq, nextHb := some t, joinEnd := some (t + 1000000), peerPub := t,
                                  lastRefresh := t, claims := h.claims, claimCount := h.claimCount,
                                  handoverCount := h.handoverCount, stNums := h.stNums, released := h.released })
    let d := d.resetHsbStat.setBit Reg.HSB_STAT 3 (d.flag F.SYS_STRAPS_PREF)
    let d := (((d.setRole 1).wr Reg.HSB_VER 0).setGate t false).writeSelfpath
    (d.send t .presence).touchOuts
  else d

/-- R204: HSB_CFG has been written: the member joins, or leaves the pair and is ALONE. -/
def Dev.afterHsbCfg (d : Dev) (t : Nat) (was : Bool) : Dev :=
  let now := d.flag F.HSB_CFG_EN
  if now && !was then d.join t
  else if was && !now then
    let d := d.resetHsbStat.modHsb (fun _ => {})
    (((d.setGate t true).writeSelfpath).touch).touchOuts
  else d.holdoffState t

/-- R217: the observation ends at MONO t; a member in PARLEY stays in it. -/
def Dev.joinDone (t : Nat) (d : Dev) : Dev :=
  let d := d.modHsb (fun h => { h with joinEnd := none, joined := true })
  if d.role = 1 then
    let startUp := match d.hsb.peer with
      | some m => d.pathUp && (m.roleState == 1 || m.roleState == 4 || m.roleState == 5 || m.roleState == 6)
      | none => false
    if !d.hsb.sawRefresh && startUp && d.roleBit 3 && d.selftest then d.startClaim t else d.becomeStandby t
  else d

/-- JOINING_END: 1 ms of observation has passed. -/
def execJoiningEnd (s : State) : Host.Outcome State Fault Refusal :=
  match s.dev.hsb.joinEnd with
  | some e => s.at e Dev.joinDone
  | none => .next s

/-- R212, R233: both gates close at MONO t, at deep sleep, a device reset or the last-gasp set. -/
def Dev.dropLease (d : Dev) (t : Nat) : Dev :=
  if d.flag F.HSB_CFG_EN then
    (d.setRoles t false false).modHsb (fun h => { h with slot := none, leaseEnd := none, nextHb := none, claimEnd := none })
  else d

/-! ## Handover (R229 to R232) -/

/-- R229: the taker can accept; sync says that it must report SYNCED. -/
def Dev.takerReady (d : Dev) (sync : Bool) : Bool :=
  match d.hsb.peer with
  | some m =>
    d.flag F.HSB_STAT_PATHA && d.flag F.HSB_STAT_PATHB && d.line == 0 && m.selftest && (m.synced || !sync) &&
      (m.mode == 0 || m.mode == 1) && (d.xst == 0 || d.xst == 3) && (m.xstate == 0 || m.xstate == 3)
  | none => false

/-- The first refresh slot at or after MONO x. -/
def Dev.slotFrom (d : Dev) (x : Nat) : Nat :=
  match d.hsb.slot with
  | some s => if x ≤ s then s else s + (x - s + 99999) / 100000 * 100000
  | none => x

/-- R229: the holder accepts a handover. -/
def Dev.acceptsHandover (d : Dev) (sync : Bool) : Bool := d.role == 2 && d.hsb.handover.isNone && d.takerReady sync

/-- R229: the holder starts a handover at MONO t, or refuses it. -/
def Dev.startHandover (d : Dev) (t : Nat) (sync : Bool) : Dev :=
  if d.member && d.roleBit 0 then
    if d.acceptsHandover sync then
      let h := d.slotFrom (t + 2000000)
      let d := d.modHsb (fun x => { x with handover := some { at_ := h, out := true } })
      (d.setRole 8).sendPair t (.handover h d.countersSent)
    else d.hsbEvent t 5
  else d

/-- R232: a holder in STOP or PROGRAM, or with SELFTEST = 0, starts a handover when its peer can accept it. -/
def Dev.handoverIfUnfit (d : Dev) (t : Nat) : Dev :=
  if d.member && d.roleBit 0 && (d.mode == .stop || d.mode == .program || !d.selftest) && d.acceptsHandover false then
    d.startHandover t false
  else d

/-- RETURN_REQ: the preferred standby asks for the roles (R229); refused while RETINH is set (R231). -/
def execReturnReq (dt : Nat) (head : PairHead) (s : State) : Host.Outcome State Fault Refusal :=
  s.event dt (Dev.pairMsg head (fun t d =>
    if d.roleBit 0 then (if d.flag F.HSB_STAT_RETINH then d.hsbEvent t 5 else d.startHandover t true) else d))

/-- R229: the taker accepts a handover at H of the holder's MONO. -/
def Dev.handoverIn (h : Nat) (stNums : List Word) (t : Nat) (d : Dev) : Dev :=
  if (d.role = 4 ∨ d.role = 5) ∧ d.mode.runs then
    let own := ((h : Int) - d.pairD).toNat
    let d := d.modHsb (fun x => { x with handover := some { at_ := own, out := false, acked := true, stNums := d.countersOr stNums } })
    ((d.setFld F.HSB_STAT_SYNCED 0).setRole 9).sendPair t .handoverAck
  else d

/-- HANDOVER: the holder's message; h is H in the holder's MONO. -/
def execHandover (dt : Nat) (head : PairHead) (h : Nat) (stNums : List (BitVec 32)) (s : State) :
    Host.Outcome State Fault Refusal :=
  s.event dt (Dev.pairMsg head (Dev.handoverIn h stNums))

/-- R229: the taker's acknowledgement. -/
def Dev.handoverAcked (_t : Nat) (d : Dev) : Dev :=
  d.modHsb (fun x => { x with handover := x.handover.map (fun h => if h.out then { h with acked := true } else h) })

/-- HANDOVER_ACK: the taker's message. -/
def execHandoverAck (dt : Nat) (head : PairHead) (s : State) : Host.Outcome State Fault Refusal :=
  s.event dt (Dev.pairMsg head Dev.handoverAcked)

/-- R229: no acknowledgement by H − 500 µs. -/
def Dev.handoverCancel (t : Nat) (d : Dev) : Dev :=
  match d.hsb.handover with
  | some h =>
    if h.out && !h.acked then
      ((d.modHsb (fun x => { x with handover := none })).setRole d.holderRole).hsbEvent t 5
    else d
  | none => d

/-- HANDOVER_ACK_TIMEOUT: H − 500 µs. -/
def execHandoverAckTimeout (s : State) : Host.Outcome State Fault Refusal :=
  match s.dev.hsb.handover with
  | some h => s.at (h.at_ - 500000) Dev.handoverCancel
  | none => .next s

/-- HANDOVER_INSTANT: H. -/
def execHandoverInstant (s : State) : Host.Outcome State Fault Refusal :=
  match s.dev.hsb.handover with
  | some h => if h.out then s.at h.at_ Dev.handoverGive else .next s
  | none => .next s

/-- R229: at H + 1 µs the taker opens its gates; its first REFRESH follows at H + 50 µs. -/
def Dev.handoverTake (t : Nat) (d : Dev) : Dev :=
  match d.hsb.handover with
  | some h =>
    if !h.out && !h.done then
      let pub := d.pubdiag t
      let d := d.setRoles t true (pub || d.roleBit 2)
      let d := d.modHsb (fun x => { x with
        handover := some { h with done := true }, slot := some (h.at_ + 50000), leaseEnd := some (t + 500000),
        readBack := true, lastPresence := t })
      if pub then (d.takePub t h.stNums false).hsbEvent t 6 else d
    else d
  | none => d

/-- HANDOVER_TAKE: H + 1 µs. -/
def execHandoverTake (s : State) : Host.Outcome State Fault Refusal :=
  match s.dev.hsb.handover with
  | some h => if h.out then .next s else s.at (h.at_ + 1000) Dev.handoverTake
  | none => .next s

/-- R229, R230: the outcome of the taker's first REFRESH, at MONO t. -/
def Dev.handoverCheck (ok : Bool) (t : Nat) (d : Dev) : Dev :=
  match d.hsb.handover with
  | some h =>
    if h.done then
      let d := d.modHsb (fun x => { x with handover := none })
      if ok then
        let d := (d.incFld F.HSB_CNT_HANDOVERS).modHsb (fun x => { x with handoverCount := x.handoverCount + 1 })
        (if h.out then d.becomeStandby t else d.leaveStandby d.holderRole).hsbEvent t 5
      else
        let d := d.incFld F.HSB_CNT_HOFAIL
        if h.out then
          let d := ((d.setRoles t true h.pub).modHsb (fun x => { x with readBack := true, lastPresence := t })).writeRefresh t
          (d.setRole d.holderRole).hsbEvent t 5
        else ((d.setRoles t false false).becomeStandby t).hsbEvent t 5
    else d
  | none => d

/-- HANDOVER_FAIL_CHECK: H + 60 µs, or for a former holder that has not decoded the taker's first REFRESH H + 100 µs. -/
def execHandoverFailCheck (ok : Bool) (s : State) : Host.Outcome State Fault Refusal :=
  match s.dev.hsb.handover with
  | some h => if h.done then s.at (h.at_ + (if h.out && !ok then 100000 else 60000)) (Dev.handoverCheck ok) else .next s
  | none => .next s

/-- R231: the hold-off ends. -/
def Dev.holdoffEnd (t : Nat) (d : Dev) : Dev :=
  let d := d.holdoffState t
  match d.hsb.holdoff with
  | some e =>
    if e ≤ t then (d.modHsb (fun h => { h with holdoff := none, returnSent := true })).sendPair t .returnReq else d
  | none => d

/-- HOLDOFF_EXPIRY: the hold-off of the preferred standby ends. -/
def execHoldoffExpiry (s : State) : Host.Outcome State Fault Refusal :=
  match s.dev.hsb.holdoff with
  | some e => s.at e Dev.holdoffEnd
  | none => .next s

/-- HSB_HOLDLEFT at MONO t. -/
def Dev.holdLeft (d : Dev) (t : Nat) : Word :=
  match d.hsb.holdoff with
  | some e => BitVec.ofNat 32 (min 4095 ((e - t + 999999999) / 1000000000) + 4096)
  | none => 0

/-- HSB_LASTHB at MONO t. -/
def Dev.lastHbWord (d : Dev) (t : Nat) : Word :=
  let age (x : Option Nat) : Nat := match x with | some e => min 0xFFFF ((t - e) / 1000) | none => 0xFFFF
  BitVec.ofNat 32 (age d.hsb.lastA + age d.hsb.lastB * 2 ^ 16)

/-- R239: a write of HSB_CMD at MONO t. -/
def Dev.hsbCmd (d : Dev) (t cmd : Nat) : Dev :=
  if !(d.flag F.HSB_CFG_EN) then d
  else if cmd = 1 then d.startHandover t true
  else if cmd = 2 then d.giveUpPub t
  else if cmd = 3 then d.setFld F.HSB_STAT_RETINH 1
  else if cmd = 4 then d.setFld F.HSB_STAT_RETINH 0
  else d

/-- PARLEY: a PARLEY message of the peer. -/
def execParley (dt : Nat) (head : PairHead) (s : State) : Host.Outcome State Fault Refusal :=
  s.event dt (Dev.pairMsg head (fun t d => d.parley t))

/-! ## The mirror (R224 to R226) -/

/-- R224: the mirror table of core c: its entries as word 0 and word 1. -/
def Dev.mirrorTable (d : Dev) (c : Nat) : List (Word × Word) :=
  let n := d.fld (F.HSB_MTASK_TASK c)
  let a := d.tbAddr n (d.rd (Reg.TSK_CODE n)) + d.fld (F.HSB_MTASK_TOFF c)
  (List.range (min 1024 (Memory.rd32 d.mem.data a).toNat)).map (fun i =>
    (Memory.rd32 d.mem.data (a + 8 + 8 * i), Memory.rd32 d.mem.data (a + 12 + 8 * i)))

/-- R224: KIND, TASK and identity or length of a table entry. -/
def mirrorKind (w : Word) : Nat := bitsOf w.toNat 1 0
def mirrorTask (w : Word) : Nat := bitsOf w.toNat 7 2
def mirrorId (w : Word) : Nat := bitsOf w.toNat 31 16

/-- The item of the correspondence map that a mirror kind stands for: timer, counter, edge. -/
def mirrorItem (kind : Nat) : Nat := if kind = 1 then 1 else if kind = 2 then 2 else 0

/-- R225: 64-bit words of an entry. -/
def mirrorWords (w : Word) : Nat := if mirrorKind w = 0 then mirrorId w + 1 else if mirrorKind w = 3 then 1 else 2

/-- The address in data memory of an entry's item. -/
def Dev.mirrorAddr (d : Dev) (e : Word × Word) : Nat :=
  d.tbAddr (mirrorTask e.1) (d.rd (Reg.TSK_CODE (mirrorTask e.1))) + bitsOf e.2.toNat 20 0

/-- R235: under major 1 the mirror carries data regions only. -/
def Dev.mirrorCarries (d : Dev) (e : Word × Word) : Bool := d.fld F.HSB_VER_MAJ != 1 || mirrorKind e.1 == 0

/-- R235: a mirror holds 8,192 words under major 1: entries while their words fit. -/
def withinWords : Nat → List (Word × Word) → List (Word × Word)
  | _, [] => []
  | n, e :: rest => if mirrorWords e.1 ≤ n then e :: withinWords (n - mirrorWords e.1) rest else []

/-- R225, R235: the entries of core c's table that its MIRROR carries. -/
def Dev.mirrorEntries (d : Dev) (c : Nat) : List (Word × Word) :=
  let l := (d.mirrorTable c).filter d.mirrorCarries
  if d.fld F.HSB_VER_MAJ = 1 then withinWords 8192 l else l

/-- R225: the MIRROR message of core c for run number run. -/
def Dev.mirrorMsg (d : Dev) (c : Nat) (run : Word) : Mirror :=
  { core := BitVec.ofNat 3 c, run := run,
    items := (d.mirrorEntries c).map (fun e =>
      { head := e.1, words := (List.range (mirrorWords e.1)).map (fun k =>
          BitVec.ofNat 64 (Memory.rdLE d.mem.data (d.mirrorAddr e + 8 * k) 8)) })
    runs := if d.fld F.HSB_VER_MAJ = 1 then [] else
      ((List.range 64).filter d.enabled).filterMap (fun n =>
        match Sparse.get (fun _ => []) d.hsb.released n with
        | p :: _ => some { task := BitVec.ofNat 6 n, run := p.2, released := p.1 }
        | [] => none)
    stNums := d.stNums }

/-- R225: the words, timers and entries of core c's table, for its costs. -/
def Dev.mirrorCounts (d : Dev) (c : Nat) : Nat × Nat × Nat :=
  let l := d.mirrorTable c
  (l.length, (l.map (fun e => mirrorWords e.1)).sum, (l.filter (fun e => mirrorKind e.1 == 1)).length)

/-- R226: item i of the own table takes its value from the message, or counts as a miss. -/
def Dev.applyItem (d : Dev) (m : Mirror) (i : Nat) (e : Word × Word) : Dev :=
  let a := d.mirrorAddr e
  let miss := d.incFld (F.HSB_MSYNC_MISS m.core.toNat)
  if mirrorKind e.1 = 0 then
    match m.items[i]? with
    | some x =>
      if mirrorKind x.head = 0 ∧ mirrorId x.head = mirrorId e.1 then
        { d with mem := { d.mem with data := Memory.wrBytes d.mem.data a (x.words.flatMap (fun w => leBytes w.toNat 8)) } }
      else miss
    | none => miss
  else
    match m.items.find? (fun x => x.head == e.1) with
    | some x =>
      let l := x.words.flatMap (fun w => leBytes w.toNat 8)
      let item := mirrorItem (mirrorKind e.1)
      let words := (List.range (recordSize item / 4)).map (wordAt l)
      let words := if item = 1 then
          let start : Nat := ((((words.getD 0 0).toNat + (words.getD 1 0).toNat * 2 ^ 32 : Nat) : Int) - d.pairD) % (2 ^ 64 : Nat) |>.toNat
          [BitVec.ofNat 32 start, BitVec.ofNat 32 (start / 2 ^ 32)] ++ words.drop 2
        else words
      { d with mem := { d.mem with data := keepRecord d.mem.data item a words false } }
    | none => miss

/-- The distance of two station times. -/
def farApart (a b : Nat) : Nat := if a ≤ b then b - a else a - b

/-- R226: the run numbers of a task count on from the number that the sender gives the release nearest in station time. -/
def Dev.alignRun (d : Dev) (x : RunLine) : Dev :=
  let n := x.task.toNat
  match firstBy (fun (p : Nat × Word) => farApart p.1 x.released) (Sparse.get (fun _ => []) d.hsb.released n) with
  | some p =>
    let shift := x.run - p.2
    let d := d.modTask n (fun k => { k with runNo := k.runNo + shift })
    let l := (Sparse.get (fun _ => []) d.hsb.released n).map (fun q => (q.1, q.2 + shift))
    d.modHsb (fun h => { h with released := Sparse.set (fun _ => []) h.released n l })
  | none => d

/-- R226: a MIRROR is applied at MONO t. -/
def Dev.applyMirror (d : Dev) (t : Nat) (m : Mirror) : Dev :=
  let c := m.core.toNat
  let tbl := d.mirrorEntries c
  let d := (tbl.zip (List.range tbl.length)).foldl (fun d p => d.applyItem m p.2 p.1) d
  let d := m.runs.foldl Dev.alignRun d
  let d := (d.setFld (F.HSB_MSYNC_WORDS c) ((tbl.map (fun e => mirrorWords e.1)).sum)).setFld (F.HSB_MSYNC_LASTOK c) 1
  let d := d.modHsb (fun h => { h with
    syncCores := h.syncCores ||| BitVec.twoPow 8 c, stNums := m.stNums,
    mirrors := Sparse.set (fun _ => none) h.mirrors c none, waits := Sparse.set (fun _ => none) h.waits c none })
  d.checkSync t

/-- R226: the sync of core c for run number run is discarded at MONO t: its MIRROR is late or damaged. One sync counts
once. -/
def Dev.discardMirror (d : Dev) (t c : Nat) (run : Word) : Dev :=
  if Sparse.get (fun _ => none) d.hsb.lateRuns c = some run then d
  else
    let d := ((d.incFld (F.HSB_MSYNC_LATE c)).setFld (F.HSB_MSYNC_LASTOK c) 0).hsbEvent t 4
    let d := d.modHsb (fun h => { h with lateRuns := Sparse.set (fun _ => none) h.lateRuns c (some run) })
    if d.role = 4 then d.setSynced t false else d.modHsb (fun h => { h with syncCores := 0 })

/-- R225: the member is a standby that waits for the MIRROR of its syncs; a taker is one until H. -/
def Dev.awaitsMirror (d : Dev) : Bool :=
  d.member && !(d.roleBit 0) && (d.role == 4 || d.role == 5 || d.role == 9) && d.flag F.HSB_STAT_PATHA && d.sameVersion

/-- R10: the mirror receive buffer of a core takes a MIRROR. -/
def Dev.storeMirror (d : Dev) (m : Mirror) : Dev :=
  { d with mem := { d.mem with
      mirrorReceive := Sparse.set (fun _ => none) d.mem.mirrorReceive m.core.toNat (some m) } }

/-- R225, R239: the holder sends a MIRROR at MONO t, from the send buffer of its core. -/
def Dev.sendMirror (d : Dev) (t : Nat) (m : Mirror) : Dev :=
  let c := m.core.toNat
  let d := { d with mem := { d.mem with mirrorSend := Sparse.set (fun _ => none) d.mem.mirrorSend c (some m) } }
  let words := (m.items.map (fun x => x.words.length)).sum
  ((d.setFld (F.HSB_MSYNC_WORDS c) words).setFld (F.HSB_MSYNC_LASTOK c) 1).sendOn t true false (.mirror m)

/-- R225: the member sends mirrors: it holds the lease in a pair with a peer on path A. -/
def Dev.sendsMirror (d : Dev) : Bool := d.member && d.roleBit 0

/-- R226: the release of a task at a station time takes a run number. -/
def Dev.noteRelease (d : Dev) (n station : Nat) (run : Word) : Dev :=
  let l := ((station, run) :: Sparse.get (fun _ => []) d.hsb.released n).take 4
  d.modHsb (fun h => { h with released := Sparse.set (fun _ => []) h.released n l })

/-- R200, R201, R227: an exchange message at MONO t; a standby whose pair diverges is UNSYNCED. -/
def Dev.exchSync (m : ExchMsg) (t : Nat) (d : Dev) : Dev :=
  let was := d.flag F.XCH_PAIR_DIVERGE
  let d := Dev.exchMessage m t d
  if d.flag F.XCH_PAIR_DIVERGE && !was && d.role == 4 then d.setSynced t false else d

/-- EXCH_MESSAGE: an exchange message of the peer (R200, R201). -/
def execExchMessage (dt : Nat) (head : PairHead) (m : ExchMsg) (s : State) : Host.Outcome State Fault Refusal :=
  s.event dt (Dev.pairMsg head (Dev.exchSync m))

end Sys2Proof.Machine
end

