-- ==== Sys2Proof/Machine/Modes.lean ====
section
/-!
DEFINITION. Key switch and operating modes (R62, R63): the key pattern, mode changes at task run boundaries, and what a
completed change brings with it.
-/
namespace Sys2Proof.Machine

/-- R36, R37, R58: task n takes part in a start: enabled, without CFGERR, and not fault-stopped. -/
def Dev.startable (d : Dev) (n : Nat) : Bool := d.enabled n && !(d.flag (F.TSK_STATE_CFGERR n)) && d.st n != 5

/-- R63: task n, which is in no run, passes its boundary to the target of a mode change at MONO t. -/
def Dev.passTask (d : Dev) (t n : Nat) (target : Mode) : Dev :=
  if target.runs then
    if (d.task n).live then d else if d.startable n then d.startTask t n false else d
  else d.stopTask n

/-- R63: tasks that pass at once do so at MONO t; the tasks in a run are left. -/
def Dev.passIdle (d : Dev) (t : Nat) (target : Mode) : Dev :=
  forN 64 (fun n d => if d.inRun n then d else d.passTask t n target) d

/-- R58: the fault stops end as the mode enters STOP or PROGRAM. -/
def Dev.endFaultStops (d : Dev) : Dev := forN 64 (fun n d => if d.st n = 5 then d.setSt n 6 else d) d

/-- R46, R178, R373, R436: a full load ends as the mode leaves PROGRAM: its version runs, and the program is sealed. -/
def Dev.loadDone (d : Dev) (t : Nat) : Dev :=
  match d.fullLoad with
  | some (ver, cores, cls) =>
    let d := ({ d with fullLoad := none }.wr Reg.XCH_RUNVER ver).recordSpans.restartRuns
    d.sealConfig.journal t 2 cls 0 [ver.toNat, cores.toNat]
  | none => d

/-- R63: every task has passed: the mode changes at MONO t, and what depends on it follows (R58, R169, R199, R232, R234,
R373, R436). -/
def Dev.finishMode (d : Dev) (t : Nat) (target : Mode) : Dev :=
  let old := d.mode
  let d := ((d.setFld F.SYS_MODE_PEND 0).setFld F.SYS_MODE_MODE target.code).touch
  let d := { d with modeChange := none, plane := { d.plane with modeAt := t } }
  let d := if target.runs then d else d.endFaultStops
  if old = target then d
  else
    let d := if target = .run ∨ target = .stop then d.xchDisarm else d
    let d := if old = .program then d.loadDone t else d
    let d := d.journal t 4 0 0 [old.code, target.code]
    let d := if d.role = 6 then d.askVersion t else d
    if target.runs then d else d.handoverIfUnfit t

/-- R63: a mode change to target begins, or replaces the one that waits, at MONO t. -/
def Dev.beginMode (d : Dev) (t : Nat) (target : Mode) : Dev :=
  if d.modeChange.isNone && d.mode == target then d
  else
    let d := if d.mode = .program ∧ target ≠ .program then d.configCheck else d
    let d := ((d.setFld F.SYS_MODE_TARGET target.code).setFld F.SYS_MODE_PEND 1).passIdle t target
    match (List.range 64).filter d.inRun with
    | [] => d.finishMode t target
    | w => ({ d with modeChange := some { target := target, waiting := w } }).touch

/-- R63: the run of task n has ended at MONO t, which is the boundary of a waiting mode change. -/
def Dev.boundaryPassed (d : Dev) (t n : Nat) : Dev :=
  match d.modeChange with
  | some m =>
    if m.waiting.contains n then
      let d := d.passTask t n m.target
      match m.waiting.filter (· != n) with
      | [] => d.finishMode t m.target
      | w => { d with modeChange := some { m with waiting := w } }
    else d
  | none => d

/-- R62, R481: the filtered pattern selects the mode at MONO t; before the first scan SYS_MODE shows it and nothing else
follows. -/
def Dev.selectMode (d : Dev) (t : Nat) (m : Mode) : Dev :=
  if d.phase = .ready then d.beginMode t m else (d.setFld F.SYS_MODE_MODE m.code).touch

/-- R62: the filtered key pattern has become k at MONO t. -/
def Dev.keyChange (k : BitVec 3) (t : Nat) (d : Dev) : Dev :=
  if d.fld F.SYS_MODE_KEY = k.toNat then d
  else
    let d := d.setFld F.SYS_MODE_KEY k.toNat
    match Mode.ofKey k.toNat with
    | some m => (d.setFld F.SYS_MODE_KEYBAD 0).selectMode t m
    | none => ((d.setFld F.SYS_MODE_KEYBAD 1).incFld F.SYS_MODE_KEYBADCNT).raiseFlag t 150 Reg.SUP_EVT 6

/-- KEY_PATTERN_CHANGE: the key pattern has stood at the pins for their filter time. -/
def execKeyPatternChange (dt : Nat) (pattern : BitVec 3) (s : State) : Host.Outcome State Fault Refusal :=
  ({ s with dev := { s.dev with keyPin := pattern } }).event dt (Dev.keyChange pattern)

/-- R481: the first scan at MONO t: the configuration check, and the key's mode as from PROGRAM. The units change from
STARTING to STOPPED first. -/
def Dev.firstScan (d : Dev) (t : Nat) : Dev :=
  let target := d.mode
  let d := ({ d with phase := .check }).touch.settle
  let d := ({ d with phase := .ready }).configCheck.passIdle t target
  ({ d with plane := { d.plane with modeAt := t } }).touch

end Sys2Proof.Machine
end

