-- ==== Sys2Proof/Machine/Sched.lean ====
section
/-!
DEFINITION. Runs of tasks (R44 to R59): dispatch, input latch, output commit and its output instant, run end and return,
overruns and fault stops, preemption, and the mirror sync that follows the commit of a mirror task (R225).
-/
namespace Sys2Proof.Machine

/-! ## The time of a core -/

/-- TSK_CORELOAD: the counts of busy ticks as they stand in second sec of MONO. -/
def Core.rollBusy (k : Core) (sec : Nat) : Core :=
  if sec ≤ k.busySec then k
  else { k with busyPrev := if sec = k.busySec + 1 then k.busy else 0, busy := 0, busySec := sec }

/-- The core works for n ticks. -/
def Core.spend (k : Core) (n : Nat) : Core :=
  let e := k.time + n
  let k := k.rollBusy (k.time / 1000000000)
  if e / 1000000000 = k.busySec then { k with time := e, busy := k.busy + n }
  else
    let here := (k.busySec + 1) * 1000000000 - k.time
    let k := { k with busy := k.busy + here, time := e }.rollBusy (e / 1000000000)
    { k with busy := k.busy + e % 1000000000 }

/-- R56: n ticks on core c, charged to the run of task n. -/
def Dev.charge (d : Dev) (c n ticks : Nat) : Dev :=
  let used := min 0xFFFFFFFF ((d.rd (Reg.TSK_USED n)).toNat + ticks)
  (d.setCore c ((d.core c).spend ticks)).wr (Reg.TSK_USED n) (BitVec.ofNat 32 used)

/-- The run in progress on core c. -/
def Dev.curRun (d : Dev) (c : Nat) : Option Run :=
  if (d.core c).waiting.isSome then none else (d.core c).runs.head?

/-- The run in progress on core c that executes instructions: its logic has begun and not ended, and it does not wait for
its mirror sync. -/
def Dev.execRun (d : Dev) (c : Nat) : Option Run := (d.curRun c).filter (fun r => !r.sync && r.stage == .logic)

/-- The run in progress on core c replaced. -/
def Dev.setRun (d : Dev) (c : Nat) (r : Run) : Dev :=
  d.setCore c { d.core c with runs := r :: (d.core c).runs.drop 1 }

/-! ## Generations (R47) -/

/-- R47, R79, R302, R307: one generation of the input image closes; the words that show state take their values at its end. -/
def Dev.closeGen (d : Dev) : Dev :=
  let t := (d.mem.gens + 1) * 1000
  let d := d.enterSets t
  let im := Image.wrs (Image.wrs d.mem.inNext 0 d.binaryWords) 0x10 (d.angleWords t)
  ({ d with mem := { d.mem with inNext := im, inCur := im, gens := d.mem.gens + 1 } }).incWrap Reg.IMG_GEN

/-- R47: the generations that close up to MONO t, its clock included; k bounds their number. -/
def Dev.closeGens (t : Nat) : Nat → Dev → Dev
  | 0, d => d
  | k + 1, d => if (d.mem.gens + 1) * 1000 ≤ t then Dev.closeGens t k d.closeGen else d

/-- GENERATION_CLOSE: MONO reaches the next multiple of 1,000 ns. -/
def execGenerationClose (s : State) : Host.Outcome State Fault Refusal :=
  s.at ((s.dev.mem.gens + 1) * 1000) (fun _ d => d.closeGen)

/-! ## Dispatch (R44 to R49) -/

/-- The core of task n. -/
def Dev.coreOfTask (d : Dev) (n : Nat) : Nat := d.fld (F.TSK_CFG_CORE n)

/-- The READY tasks of core c, each with its release. -/
def Dev.readyTasks (d : Dev) (c : Nat) : List (Nat × Release) :=
  (d.coreTasks c).filterMap (fun n => (d.task n).ready.map (fun r => (n, r)))

/-- R54: task n has a higher priority than run r and a strictly lower bank. -/
def Dev.above (d : Dev) (n : Nat) (r : Run) : Bool :=
  Nat.blt (d.fld (F.TSK_CFG_PRIO n)) (d.fld (F.TSK_CFG_PRIO r.task)) && Nat.blt (d.fld (F.TSK_CFG_BANK n)) r.bank

/-- The task of the highest priority among some that are READY. -/
def Dev.highest (d : Dev) (l : List (Nat × Release)) : Option (Nat × Release) :=
  l.foldl (fun (x : Option (Nat × Release)) p =>
    match x with
    | some q => if d.fld (F.TSK_CFG_PRIO p.1) < d.fld (F.TSK_CFG_PRIO q.1) then some p else some q
    | none => some p) none

/-- R54: the task that an idle core c dispatches, and when: at its release or at the end of the run before. -/
def Dev.idleChoice (d : Dev) (c : Nat) : Option (Nat × Release × Nat) :=
  let l := d.readyTasks c
  match l with
  | [] => none
  | p :: rest =>
    let first := rest.foldl (fun m q => min m q.2.mono) p.2.mono
    let t := max (d.core c).time first
    (d.highest (l.filter (fun q => Nat.ble q.2.mono t))).map (fun q => (q.1, q.2, t))

/-- R54: the READY task of core c that may preempt run r at the time that the core has reached. -/
def Dev.preempting (d : Dev) (c : Nat) (r : Run) : Option (Nat × Release) :=
  d.highest ((d.readyTasks c).filter (fun p => Nat.ble p.2.mono (d.core c).time && d.above p.1 r))

/-- R44: 64-bit words of the input regions of task n, of its PRELOAD output regions, and of all its output regions. -/
def Dev.wIn (d : Dev) (n : Nat) : Nat := ((d.inRegions n).map d.rgnLen).sum
def Dev.preRegions (d : Dev) (n : Nat) : List Nat := (d.outRegions n).filter (fun k => d.flag (F.IMG_RGN_PRELOAD k))
def Dev.wPre (d : Dev) (n : Nat) : Nat := ((d.preRegions n).map d.rgnLen).sum
def Dev.wOut (d : Dev) (n : Nat) : Nat := ((d.outRegions n).map d.rgnLen).sum

/-- The address in the image shadows of word w of the input (out false) or output image of core c. -/
def shadowAddr (c : Nat) (out : Bool) (w : Nat) : Nat := c * 0x40000 + b2n out * 0x20000 + 8 * w

/-- R49: words copied from an image into the shadow of core c. -/
def copyToShadow (c : Nat) (out : Bool) (im : Image) (m : Memory) (ws : List Nat) : Memory :=
  ws.foldl (fun m w => Memory.wrLE m (shadowAddr c out w) 8 (Image.rd im w).toNat) m

/-- R47, R49: the input latch of task n on core c; it begins at the core's time, and generations have closed up to then. -/
def Dev.latchInputs (d : Dev) (c n : Nat) : Dev :=
  let m := copyToShadow c false d.mem.inCur d.mem.shadow ((d.inRegions n).flatMap d.rgnWords)
  let m := copyToShadow c true d.mem.out m ((d.preRegions n).flatMap d.rgnWords)
  ({ d with mem := { d.mem with shadow := m } }).charge c n (24 + d.wIn n + d.wPre n)

/-- R45: FL at dispatch: RM and the saturation default of task n, all else 0. -/
def Dev.flAtDispatch (d : Dev) (n : Nat) : Word :=
  BitVec.ofNat 32 (d.fld (F.TSK_CFG_RMDEF n) * 2 ^ 6 + d.fld (F.TSK_CFG_SATDEF n) * 2 ^ 8)

/-- R45: the bank at dispatch. -/
def Dev.bankAtDispatch (d : Dev) (n : Nat) : Bank :=
  { fl := d.flAtDispatch n, pc := BitVec.ofNat 32 (d.fld (F.TSK_CODE_ENTRY n)),
    tb := BitVec.ofNat 32 (0x10000000 + d.fld (F.TSK_CODE_DBASE n) * 2048) }

/-- R46: TC_FLAGS of a run of task n. -/
def Dev.tcFlags (d : Dev) (n : Nat) (r : Release) : Nat :=
  let k := d.task n
  b2n (k.first && !k.exch) + 2 * b2n r.late + 4 * b2n k.exch + 8 * b2n k.resume + 16 * b2n r.tladj +
    32 * b2n (d.isSafe n) + 64 * r.tq

/-- R46: the sixteen words of the task context. -/
def Dev.context (d : Dev) (n : Nat) (r : Release) : List Word :=
  let sec := r.station / 1000000000
  [(d.task n).runNo, BitVec.ofNat 32 (d.tcFlags n r), d.rd Reg.IMG_GEN, r.angle, r.angq,
   BitVec.ofNat 32 (r.station % 1000000000), BitVec.ofNat 32 sec, BitVec.ofNat 32 (sec / 2 ^ 32),
   BitVec.ofNat 32 r.mono, BitVec.ofNat 32 (r.mono / 2 ^ 32), BitVec.ofNat 32 (d.task n).skips, 0, 0, 0, 0, 0]

/-- R46: the task context of task n on core c written. -/
def Dev.writeContext (d : Dev) (c n : Nat) (r : Release) : Dev :=
  let a := dataAddr c (0x10000000 + d.fld (F.TSK_CODE_DBASE n) * 2048)
  { d with mem := { d.mem with data := Memory.wrBytes d.mem.data a (wordBytes (d.context n r)) } }

/-! ## Run end (R54, R56, R58, R63) -/

/-- R64: a run of task n is complete with what it used. -/
def Dev.countRun (d : Dev) (n : Nat) : Dev :=
  let used := d.rd (Reg.TSK_USED n)
  d.modTask n (fun k => { k with
    maxUsed := if k.maxUsed.toNat < used.toNat then used else k.maxUsed,
    total := k.total + BitVec.ofNat 64 used.toNat, runs := k.runs + 1 })

/-- R54: a task may be dispatched above run r on core c at the time that the core has reached, at once or because its
pending release or its first catch-up point is released at the end of the run before. -/
def Dev.takesOver (d : Dev) (c : Nat) (r : Run) : Bool :=
  (d.preempting c r).isSome ||
    (d.coreTasks c).any (fun n => d.above n r &&
      ((d.pendFree n && Nat.ble (d.notBefore n) (d.core c).time) || d.heldFree n (d.core c).time || d.catchFree n))

/-- R44, R54: the preempted run r on core c resumes, at 12 ticks charged to the run of task n that has ended. -/
def Dev.resumeRun (d : Dev) (c n : Nat) (r : Run) : Dev :=
  let d := (d.charge c n 12).setSt r.task 3
  d.setCore c { d.core c with waiting := none }

/-- The run in progress on core c ends, in whatever way; the task's state is IDLE unless it is fault-stopped. -/
def Dev.endRun (d : Dev) (c : Nat) : Dev :=
  match (d.core c).runs with
  | [] => d
  | r :: rest =>
    let n := r.task
    let d := d.setCore c { d.core c with runs := rest, banks := Sparse.set (fun _ => {}) (d.core c).banks r.bank {} }
    let d := if d.st n = 5 then d else d.setSt n (if (d.task n).live then 1 else 6)
    let d := d.boundaryPassed (d.core c).time n
    let d := match rest with
      | [] => d
      | below :: _ =>
        if d.takesOver c below then d.setCore c { d.core c with waiting := some n } else d.resumeRun c n below
    d.countRun n

/-! ## Faults (R58, R109, R110) -/

/-- R58: task n is fault-stopped at MONO t. -/
def Dev.faultStop (d : Dev) (t n : Nat) : Dev :=
  let d := ((d.enterSafe n).clearReleases n).setSt n 5
  (d.setFld (F.TSK_STATE_HALTED n) 1).raise t n

/-- R110: the fault record of core c. -/
def Dev.faultRecord (d : Dev) (c n code : Nat) (inShadow : Bool) (repLeft : Nat) (pc detail : Word) : Dev :=
  let w := BitVec.ofNat 32 (code + n * 2 ^ 4 + b2n inShadow * 2 ^ 10 + repLeft * 2 ^ 16 + 2 ^ 31)
  let d := ((d.wr (Reg.TSK_CFLT0 c) w).wr (Reg.TSK_CFLT1 c) pc).wr (Reg.TSK_CFLT2 c) detail
  if code = 15 then d else d.incFld (F.TSK_CFLT3_COUNT c)

/-- R58, R109: the run in progress on core c ends with fault code code (15 for HALT) at the core's time. -/
def Dev.coreFault (d : Dev) (c code repLeft : Nat) (pc detail : Word) : Dev :=
  match d.curRun c with
  | none => d
  | some r =>
    let t := (d.core c).time
    let inShadow := !(d.bank c r.bank).shadow.isEmpty
    let d := d.faultRecord c r.task code inShadow repLeft pc detail
    let d := if code = 15 then d else d.raise t (64 + c)
    (d.faultStop t r.task).endRun c

/-! ## Dispatch, whole -/

/-- R46: TC_GEN of task n on core c: the generation that its latch takes. -/
def Dev.writeGen (d : Dev) (c n : Nat) : Dev :=
  let a := dataAddr c (0x10000000 + d.fld (F.TSK_CODE_DBASE n) * 2048)
  { d with mem := { d.mem with data := Memory.wr32 d.mem.data (a + 8) (d.rd Reg.IMG_GEN) } }

/-- The run in progress on core c goes on with a step. -/
def Dev.setStage (d : Dev) (c : Nat) (r : Run) (st : Stage) : Dev := d.setRun c { r with stage := st }

/-- R44 to R46, R54, R191, R201: task n with release r is dispatched on core c at MONO t, at cost ticks; the carry-over and
the latch follow. -/
def Dev.dispatchTask (d : Dev) (c n : Nat) (r : Release) (t cost : Nat) (ecc : Option Nat) : Dev :=
  let run := (d.task n).runNo + 1
  let d := ((d.switchAtRun t n run).noteRelease n r.station run).modTask n (fun k => { k with runNo := run, ready := none })
  let d := match (d.core c).runs with | below :: _ => d.setSt below.task 4 | [] => d
  let b := d.fld (F.TSK_CFG_BANK n)
  let stage : Stage := if (d.carryOf n).isSome then .carry ecc else .latch
  let d := d.setCore c { d.core c with
    time := t, waiting := none, runs := { task := n, bank := b, rel := r, stage := stage } :: (d.core c).runs }
  let d := (d.setBank c b (d.bankAtDispatch n)).setSt n 3
  let d := (((d.setFld (F.TSK_STATE_LATE n) (b2n r.late)).wr (Reg.TSK_USED n) 0)).charge c n cost
  (d.writeContext c n r).modTask n (fun k => { k with first := false, exch := false, resume := false, skips := 0 })

/-- R191, R192: the carry-over step of run r on core c; a double-bit error ends the run with ECC_DATA. -/
def Dev.carryStep (d : Dev) (c : Nat) (r : Run) (ecc : Option Nat) : Dev :=
  let cost := match d.carryOf r.task with | some x => x.cost | none => 0
  let x := (d.charge c r.task cost).runCarry r.task ecc
  match x.2 with
  | some a => x.1.coreFault c 10 0 (BitVec.ofNat 32 (d.fld (F.TSK_CODE_ENTRY r.task))) a
  | none => x.1.setStage c r .latch

/-- R47, R49: the latch step of run r on core c, from the generations that have closed by then. -/
def Dev.latchStep (d : Dev) (c : Nat) (r : Run) : Dev :=
  let t := (d.core c).time
  let d := Dev.closeGens t (t / 1000 - d.mem.gens) d
  ((d.writeGen c r.task).latchInputs c r.task).setStage c r .logic

/-! ## Commit (R51 to R53) -/

/-- The words that a commit of task n on core c takes from the output image shadow. -/
def Dev.commitWords (d : Dev) (c n : Nat) : List (Nat × Word64) :=
  ((d.outRegions n).flatMap d.rgnWords).map (fun w =>
    (w, BitVec.ofNat 64 (Memory.rdLE d.mem.shadow (shadowAddr c true w) 8)))

/-- R51, R52: a commit of task n becomes effective at MONO t: the output image, SAFE state and every consumer. -/
def Dev.effective (d : Dev) (t n : Nat) (words : List (Nat × Word64)) : Dev :=
  let out := words.foldl (fun m p => Image.wr m p.1 p.2) d.mem.out
  let d := ({ d with mem := { d.mem with out := out } }).modTask n (fun k => { k with effective := words })
  let d := if d.isSafe n then d.setSafe n false else d
  ((d.gooseCommit t words).canCommit words).touchOuts

/-- R52: the commit of task n that waits for its instant becomes effective at MONO t. -/
def Dev.effectWaiting (d : Dev) (t n : Nat) : Dev :=
  match (d.task n).commit with
  | some w => (d.modTask n (fun k => { k with commit := none })).effective t n w.words
  | none => d

/-- R52: when a commit of task n with release r that ends at MONO t becomes effective: none at once. -/
def Dev.outputDue (d : Dev) (n : Nat) (r : Release) : Option Due :=
  let off := d.fld (F.IMG_OINST_OFFSET n)
  match d.fld (F.IMG_OINST_MODE n) with
  | 1 => some (.time (r.mono + off * 1000))
  | 2 => some (.angle (r.u + off * 256))
  | _ => none

/-- R52: an output instant lies before MONO t, or at it. -/
def Dev.duePast (d : Dev) (t : Nat) : Due → Bool
  | .time m => Nat.blt m t
  | .angle u => decide (u < d.U t)
def Dev.dueNow (d : Dev) (t : Nat) : Due → Bool
  | .time m => m == t
  | .angle u => decide (u = d.U t)

/-- R52: a commit of task n that ends at MONO t after its instant. -/
def Dev.lateOutput (d : Dev) (t n : Nat) : Dev :=
  ((d.setFld (F.TSK_STATE_OUTLATE n) 1).incSat Reg.IMG_LATEOUT).raise t n

/-- R52: a commit of task n, released as r, has ended at MONO t. -/
def Dev.commitEnds (d : Dev) (t n : Nat) (r : Release) (words : List (Nat × Word64)) : Dev :=
  let d := d.effectWaiting t n
  match d.outputDue n r with
  | none => d.effective t n words
  | some due =>
    if d.duePast t due then (d.lateOutput t n).effective t n words
    else if d.dueNow t due then d.effective t n words
    else d.modTask n (fun k => { k with commit := some { due := due, words := words } })

/-- OUTPUT_INSTANT: the commit of a task that waits reaches its instant. -/
def execOutputInstant (task : BitVec 6) (s : State) : Host.Outcome State Fault Refusal :=
  match (s.dev.task task.toNat).commit with
  | some w =>
    match w.due with
    | .time m => s.at m (fun t d => d.effectWaiting t task.toNat)
    | .angle u => s.at (s.dev.whenU s.mono u) (fun t d => d.effectWaiting t task.toNat)
  | none => .next s

/-! ## Overruns (R57) -/

/-- R57: the run of task n overruns at MONO t. -/
def Dev.noteOverrun (d : Dev) (t n : Nat) : Dev :=
  ((((d.setFld (F.TSK_STATE_OVR n) 1).incFld (F.TSK_STATE_OVRCNT n))).raise t n).touch

/-- R57: the overrun of run r on core c: the policy of its task. -/
def Dev.overrun (d : Dev) (c : Nat) (r : Run) : Dev :=
  let n := r.task
  let d := d.noteOverrun (d.core c).time n
  match d.fld (F.TSK_CFG_OVR n) with
  | 0 => d.endRun c
  | 1 => d.setRun c { r with overrun := true }
  | _ => (d.enterSafe n).endRun c

/-- R57: at an instruction boundary run r has used up its budget, for the first time. -/
def Dev.overrunDue (d : Dev) (r : Run) : Bool :=
  !r.overrun && Nat.ble (d.rd (Reg.TSK_BUDGET r.task)).toNat (d.rd (Reg.TSK_USED r.task)).toNat

/-- R57: what is left of the budget of run r is smaller than its commit cost. -/
def Dev.commitTooLong (d : Dev) (r : Run) : Bool :=
  !r.overrun && Nat.blt (d.rd (Reg.TSK_BUDGET r.task)).toNat ((d.rd (Reg.TSK_USED r.task)).toNat + 16 + d.wOut r.task)

/-- R57: the overrun of the run in progress on core c, at the boundary where it is due. -/
def Dev.budgetOverrun (c : Nat) (d : Dev) : Dev :=
  match d.execRun c with
  | some r => if d.overrunDue r then d.overrun c r else d
  | none => d

/-! ## Mirror sync and the end of a run (R225, R226) -/

/-- R223: task n is the mirror task of core c. -/
def Dev.isMirror (d : Dev) (c n : Nat) : Bool := d.flag (F.HSB_MTASK_EN c) && d.fld (F.HSB_MTASK_TASK c) == n

/-- R225: the MIRROR of run number run that the standby has received for core c. -/
def Dev.mirrorFor (d : Dev) (c : Nat) (run : Word) : Option Mirror :=
  (Sparse.get (fun _ => none) d.hsb.mirrors c).filter (fun m => m.run == run)

/-- R225: core c applies MIRROR m at the end of its mirror task n, which ends the run. -/
def Dev.syncWith (d : Dev) (c n : Nat) (m : Mirror) : Dev :=
  let k := d.mirrorCounts c
  let d := d.charge c n (24 + k.1 + k.2.1 + k.2.2)
  (d.applyMirror (d.core c).time m).endRun c

/-- R225, R239: the wait for a MIRROR in µs; 0 acts as 1, and above 200 as 200. -/
def Dev.mirrorWait (d : Dev) : Nat := max 1 (min 200 (d.fld F.HSB_CFG_MWAIT))

/-- R225: the mirror sync that follows the commit of run r on core c. -/
def Dev.mirrorStep (d : Dev) (c : Nat) (r : Run) : Dev :=
  let n := r.task
  if d.sendsMirror then
    let k := d.mirrorCounts c
    let m := d.mirrorMsg c (d.task n).runNo
    let d := d.charge c n (24 + k.1 + k.2.1)
    (d.sendMirror (d.core c).time m).endRun c
  else if d.awaitsMirror then
    match d.mirrorFor c (d.task n).runNo with
    | some m => d.syncWith c n m
    | none =>
      let limit := (d.core c).time + d.mirrorWait * 1000
      let d := d.setRun c { r with sync := true }
      d.modHsb (fun h => { h with waits := Sparse.set (fun _ => none) h.waits c (some ((d.task n).runNo, limit)) })
  else d.endRun c

/-- R44, R57: the commit step of run r on core c, unless the run overruns before it; a mirror task goes on to its sync. -/
def Dev.commitStep (d : Dev) (c : Nat) (r : Run) : Dev :=
  let d1 := if d.commitTooLong r then d.noteOverrun (d.core c).time r.task else d
  if d.commitTooLong r ∧ d.fld (F.TSK_CFG_OVR r.task) = 0 then d1.endRun c
  else if d.commitTooLong r ∧ d.fld (F.TSK_CFG_OVR r.task) ≠ 1 then (d1.enterSafe r.task).endRun c
  else
    let words := d1.commitWords c r.task
    let d := d1.charge c r.task (16 + d1.wOut r.task)
    let d := d.commitEnds (d.core c).time r.task r.rel words
    if d.isMirror c r.task then d.setStage c r .mirror else d.endRun c

/-- R44: the step of run r on core c that comes next, other than its logic. -/
def Dev.stageStep (d : Dev) (c : Nat) (r : Run) : Dev :=
  match r.stage with
  | .carry ecc => d.carryStep c r ecc
  | .latch => d.latchStep c r
  | .logic => d
  | .commit => d.commitStep c r
  | .mirror => d.mirrorStep c r

/-- R44, R55: the run in progress on core c makes the steps that come next, up to its logic, its wait for a MIRROR, or a
boundary at which a READY task preempts it; a run that resumes does the same. -/
def Dev.proceedFor (c : Nat) : Nat → Dev → Dev
  | 0, d => d
  | k + 1, d =>
    match d.curRun c with
    | some r =>
      if r.sync ∨ r.stage = .logic ∨ (d.preempting c r).isSome then d else Dev.proceedFor c k (d.stageStep c r)
    | none => d

/-- A core holds at most 8 runs, each with at most 4 such steps. -/
def Dev.proceed (c : Nat) (d : Dev) : Dev := Dev.proceedFor c 32 d

/-! ## Commands of a core -/

/-- A core command: f acts on a device that is awake, at the local time of core c; the steps that follow are made, and MONO
follows the core. -/
def State.onCore (s : State) (c : Nat) (f : Dev → Dev) : Host.Outcome State Fault Refusal :=
  if s.dev.awake then
    let d := (f (s.dev.upTo (s.dev.core c).time)).proceed c
    let t := (d.core c).time
    .next { s with mono := max s.mono t, dev := (d.settleOuts t).settle }
  else .next s

/-- R54: an idle core c dispatches. -/
def Dev.dispatchIdle (c : Nat) (ecc : Option Nat) (d : Dev) : Dev :=
  match (d.core c).runs with
  | _ :: _ => d
  | [] =>
    match d.idleChoice c with
    | some (n, r, t) => d.dispatchTask c n r t 16 ecc
    | none => d

/-- DISPATCH: an idle core dispatches its highest-priority READY task; ecc names the entry of its carry-over in whose
read a double-bit error is met. -/
def execDispatch (core : BitVec 3) (ecc : Option Nat) (s : State) : Host.Outcome State Fault Refusal :=
  s.onCore core.toNat (Dev.dispatchIdle core.toNat ecc)

/-- R54, R55: core c, at a preemption boundary, dispatches the READY task that may preempt the run that it holds; where
a run has ended above a preempted one and no such task is left, the preempted run resumes. -/
def Dev.dispatchAbove (c : Nat) (ecc : Option Nat) (d : Dev) : Dev :=
  match (d.core c).runs with
  | [] => d
  | r :: _ =>
    if r.sync ∧ (d.core c).waiting.isNone then d
    else
      match d.preempting c r with
      | some (n, rel) => d.dispatchTask c n rel (d.core c).time 28 ecc
      | none =>
        match (d.core c).waiting with
        | some n => if d.takesOver c r then d else d.resumeRun c n r
        | none => d

/-- PREEMPT_DISPATCH: a READY task preempts the run below it. -/
def execPreemptDispatch (core : BitVec 3) (ecc : Option Nat) (s : State) : Host.Outcome State Fault Refusal :=
  s.onCore core.toNat (Dev.dispatchAbove core.toNat ecc)

/-- BUDGET_OVERRUN: at an instruction boundary TSK_USED has reached TSK_BUDGET. -/
def execBudgetOverrun (core : BitVec 3) (s : State) : Host.Outcome State Fault Refusal :=
  s.onCore core.toNat (Dev.budgetOverrun core.toNat)

/-! ## MIRROR messages (R225, R226) -/

/-- R225: the run on core c that waits for its MIRROR: its task. -/
def Dev.syncTask (d : Dev) (c : Nat) : Option Nat := ((d.curRun c).filter (fun r => r.sync)).map (fun r => r.task)

/-- R226: a complete and valid MIRROR that no sync of its core waits for: it is kept for a run that has yet to commit,
and late otherwise. -/
def Dev.keepMirror (d : Dev) (t : Nat) (m : Mirror) : Dev :=
  let c := m.core.toNat
  let n := d.fld (F.HSB_MTASK_TASK c)
  let ahead := (m.run - (d.task n).runNo).toNat
  if ahead < 2 ^ 31 ∧ (ahead ≠ 0 ∨ (d.inRun n ∧ (d.syncTask c).isNone)) then
    d.modHsb (fun h => { h with mirrors := Sparse.set (fun _ => none) h.mirrors c (some m) })
  else d.discardMirror t c m.run

/-- R226: a complete and valid MIRROR arrives at MONO t: it is applied if its core waits for its run and the wait has not
ended. -/
def Dev.mirrorIn (m : Mirror) (t : Nat) (d : Dev) : Dev :=
  let c := m.core.toNat
  if !d.awaitsMirror then d
  else
    let d := d.storeMirror m
    match Sparse.get (fun _ => none) d.hsb.waits c, d.syncTask c with
    | some (run, limit), some n =>
      if run = m.run then
        if t ≤ limit then ((d.charge c n (t - (d.core c).time)).syncWith c n m).proceed c
        else d.discardMirror t c run
      else d.keepMirror t m
    | _, _ => d.keepMirror t m

/-- R226: the run of the mirror task of core c whose sync a damaged MIRROR was meant for: the one that waits or is in
progress, or else the next one. -/
def Dev.mirrorRun (d : Dev) (c : Nat) : Word :=
  let n := d.fld (F.HSB_MTASK_TASK c)
  if d.inRun n then (d.task n).runNo else (d.task n).runNo + 1

/-- R226: a MIRROR arrives; ok says that it is complete and its CRC-32C is right. A damaged one is discarded, and a core
that waits for it goes on waiting until the wait ends. -/
def Dev.mirrorArrives (ok : Bool) (m : Mirror) (t : Nat) (d : Dev) : Dev :=
  if ok then d.mirrorIn m t
  else if d.awaitsMirror then d.discardMirror t m.core.toNat (d.mirrorRun m.core.toNat)
  else d

/-- MIRROR_RECEIVED: a MIRROR of the holder (R226). -/
def execMirrorReceived (dt : Nat) (head : PairHead) (ok : Bool) (m : Mirror) (s : State) :
    Host.Outcome State Fault Refusal :=
  s.event dt (Dev.pairMsg head (Dev.mirrorArrives ok m))

/-- R225, R226: the wait of core c for the MIRROR of a run ends at MONO limit without it: the sync is discarded, the wait
is charged, and the run ends. -/
def Dev.mirrorLate (c : Nat) (run : Word) (limit t : Nat) (d : Dev) : Dev :=
  let d := d.modHsb (fun h => { h with waits := Sparse.set (fun _ => none) h.waits c none })
  let d := match d.syncTask c with
    | some n => ((d.charge c n (limit - (d.core c).time)).endRun c).proceed c
    | none => d
  d.discardMirror t c run

/-- MIRROR_WAIT_TIMEOUT: HSB_CFG.MWAIT has passed since the commit of a mirror task of the standby. -/
def execMirrorWaitTimeout (core : BitVec 3) (s : State) : Host.Outcome State Fault Refusal :=
  match Sparse.get (fun _ => none) s.dev.hsb.waits core.toNat with
  | some (run, limit) => s.at limit (Dev.mirrorLate core.toNat run limit)
  | none => .next s

/-! ## Jumps of the angle (R74, R76, R77) -/

/-- R77: the waiting commits whose angle a jump at MONO t has passed become effective. -/
def Dev.jumpCommits (d : Dev) (t : Nat) : Dev :=
  forN 64 (fun n d =>
    match (d.task n).commit with
    | some w =>
      match w.due with
      | .angle u => if u ≤ d.U t then d.effectWaiting t n else d
      | .time _ => d
    | none => d) d

/-- R74, R76, R77, R82: a confirmed deviation becomes a jump at MONO t; one that ANG_STEPTH has come to cover is slewed. -/
def Dev.angleJump (raw : List (BitVec 24)) (t : Nat) (d : Dev) : Dev :=
  if d.jumpReady t then
    if d.slewable d.ang.jumpSize then d.slewTo t d.ang.jumpSize
    else ((d.jumpU t d.ang.jumpSize raw).jumpCommits t).catchAll t
  else d

/-- ANGLE_JUMP: a deviation beyond ANG_STEPTH is confirmed: at once by the sample or edge that confirms it, or at the end
of the confirmation time of a deviation that a change of generator made. -/
def execAngleJump (raw : List (BitVec 24)) (s : State) : Host.Outcome State Fault Refusal :=
  match s.dev.ang.confirmAt with
  | some m => s.at m (Dev.angleJump raw)
  | none => s.upd (Dev.angleJump raw)

/-! ## Ends from outside (R16, R59, R234) -/

/-- R16, R59: every run that core c holds ends without commit: regions SAFE, no overrun, the task's state st. -/
def Dev.abandonCore (d : Dev) (c st : Nat) : Dev :=
  let runs := (d.core c).runs
  let d := runs.foldl (fun d r => ((d.enterSafe r.task).setSt r.task st).countRun r.task) d
  let d := d.setCore c { d.core c with runs := [], waiting := none, banks := [] }
  d.modHsb (fun h => { h with waits := Sparse.set (fun _ => none) h.waits c none })

/-- R16, R53: the waiting commits of the tasks of core c are withdrawn, and their regions enter SAFE state. -/
def Dev.withdrawCommits (d : Dev) (c : Nat) : Dev :=
  (d.coreTasks c).foldl (fun d n => if (d.task n).commit.isSome then d.enterSafe n else d) d

/-! ## PAIRLOAD (R234) -/

/-- R234: the registers that belong to a program: the settings of its tasks, of the image regions and of the mirror
tasks. -/
def programReg (off : Nat) : Bool :=
  (decide (0x10000 ≤ off) && decide (off < 0x10800)) || (decide (0x13100 ≤ off) && decide (off < 0x14000)) ||
    (decide (0x15080 ≤ off) && decide (off < 0x150A0))

/-- R234: a setting of the holder's version: a register and its word. -/
def Dev.pairSetting (d : Dev) (off : Nat) (v : Word) : Dev :=
  let m := settingMask off
  if programReg off then d.wr off ((d.rd off &&& ~~~m) ||| (v &&& m)) else d

/-- The place of core c that a PAIRLOAD block goes to: 0 code, 1 data, 2 the fast rung table, 3 settings, each as the
offset of its register and its word (assumption 95). -/
def Dev.pairStore (d : Dev) (c space off : Nat) (l : List Byte) : Dev :=
  match space with
  | 0 => { d with mem := { d.mem with code := Memory.wrBytes d.mem.code (c * 0x400000 + off) l } }
  | 1 =>
    { d with mem := { d.mem with data := Memory.wrBytes d.mem.data (c * 0x200000 + off) l },
             xch := { d.xch with loaded := (c, off, l.length) :: d.xch.loaded } }
  | 3 => (chunks 8 (l.length / 8) l).foldl (fun d p => d.pairSetting (wordAt p 0).toNat (wordAt p 1)) d
  | _ =>
    let rungs := (chunks 16 (l.length / 16) l).zip (List.range (l.length / 16))
    let sh := rungs.foldl (fun tb p => setRung tb (off / 16 + p.2) (BitVec.ofNat 128 (leNat p.1))) d.plane.shadow
    { d with plane := { d.plane with shadow := sh } }

/-- R234: the tasks stop for a PAIRLOAD, and the runs in progress end without commit. -/
def Dev.pairStop (d : Dev) : Dev :=
  let d := forN 8 (fun c d => (d.abandonCore c 6).withdrawCommits c) d
  forN 64 (fun n d => d.stopTask n) d

/-- R234: a block of the holder's version arrives at a BARRED member in REMOTE or PROGRAM; the last one completes the
load: the version runs, the journal says so, and the tasks restart in shadow run. -/
def Dev.pairLoad (ver : Word) (c space off : Nat) (l : List Byte) (last : Bool) (t : Nat) (d : Dev) : Dev :=
  if d.role ≠ 6 ∨ ¬ (d.mode = .remote ∨ d.mode = .program) then d
  else
    let cores := match d.hsb.loading with | some m => m | none => 0
    let d := if d.hsb.loading.isNone then d.pairStop else d
    let cores := if space < 2 then cores ||| BitVec.twoPow 8 c else cores
    let d := (d.pairStore c space off l).modHsb (fun h => { h with loading := some cores })
    if last then
      let d := d.modHsb (fun h => { h with loading := none })
      let d := { d with plane := { d.plane with active := d.plane.shadow } }
      let d := ((d.wr Reg.XCH_RUNVER ver).recordSpans.restartRuns.refreshOwn.configCheck).journal t 2 4 1 [ver.toNat, cores.toNat]
      let d := if d.mode.runs then forN 64 (fun n d => if d.startable n then d.startTask t n false else d) d else d
      d.becomeStandby t
    else d

/-- PAIRLOAD: a block of the version that a BARRED member has asked for. -/
def execPairload (dt : Nat) (head : PairHead) (ver : BitVec 32) (core : BitVec 3) (space : BitVec 2) (off : BitVec 32)
    (bytes : List (BitVec 8)) (last : Bool) (s : State) : Host.Outcome State Fault Refusal :=
  s.event dt (Dev.pairMsg head (Dev.pairLoad ver core.toNat space.toNat off.toNat bytes last))

end Sys2Proof.Machine
end

