-- ==== Sys2Proof/Machine/Stand.lean ====
section
/-!
DEFINITION. The stand link (14_stands.md): ports, the frames of other members, time across the stand, and the replication of
the stand-shared space.
-/
namespace Sys2Proof.Machine

/-! ## Joining (R347) -/

/-- R347: at warm resume both ports train again. -/
def Dev.retrainPorts (d : Dev) (t : Nat) : Dev :=
  (forN 2 (fun p d => ((d.setFld (F.STD_PORT_UP p) 0).setFld (F.STD_PORT_PARLEY p) 0).setFld (F.STD_PORT_LANES p) 0) d).setParley t 1 false

/-- R347, R360: this device leaves the stand and joins it afresh at MONO t. -/
def Dev.rejoinStand (d : Dev) (t : Nat) : Dev :=
  let d := d.setFollowing t false
  let d := d.modStand (fun s => { lastB := s.lastB })
  let d := ((d.wr Reg.STD_STAT (BitVec.ofNat 32 (d.fld F.STD_STAT_FLAGS * 2 ^ 8))).wr Reg.STD_REACH 0).setMonoOfs 0
  let d := if d.standOn then
      let d := (d.modStand (fun s => { s with leader := none })).settleStand t
      (d.send t (.standIdent 0 d.ident)).send t (.standIdent 1 d.ident)
    else d
  d.writeSelfpath.touch

/-! ## Ports (R346) -/

/-- R210, R347: the port is trained. -/
def Dev.portUsed (d : Dev) (p : Nat) : Bool := d.standOn || (d.flag F.HSB_CFG_EN && d.pathAPort == p)

/-- R338, R346: port p has trained and deskewed and negotiates with a neighbour of a version range; delay is the measured
link delay. -/
def Dev.trainPort (p : Nat) (range : Word) (delay : Nat) (t : Nat) (d : Dev) : Dev :=
  if d.portUsed p then
    let d := (d.setFld (F.STD_PORT_LANES p) 2).setFld (F.STD_PORT_DELAY p) delay
    let parley (d : Dev) : Dev := d.setParley t 1 (d.flag (F.STD_PORT_PARLEY 0) || d.flag (F.STD_PORT_PARLEY 1))
    match negotiate (d.rd (Reg.SYS_IFVER 1)) range with
    | some v =>
      let d := (d.setFld (F.STD_PORT_UP p) 1).setFld (F.STD_PORT_PARLEY p) 0
      let d := d.modStand (fun s => { s with ranges := Sparse.set (fun _ => 0) s.ranges p range })
      let d := parley (((d.setFld (F.STD_PORT_MAJ p) v.1).setFld (F.STD_PORT_MIN p) v.2).stdEvent t 0)
      if d.standOn then d.send t (.standIdent p d.ident) else d
    | none =>
      let d := parley (((d.setFld (F.STD_PORT_UP p) 0).setFld (F.STD_PORT_PARLEY p) 1).stdEvent t 0)
      if d.pathAPort = p then d.pathDown false t else d
  else d

/-- RHIZOME_TRAIN: a rhizome port trains and negotiates. -/
def execRhizomeTrain (dt : Nat) (port : BitVec 1) (range : BitVec 32) (delay : BitVec 16) (s : State) :
    Host.Outcome State Fault Refusal :=
  s.event dt (Dev.trainPort port.toNat range delay.toNat)

/-- Members are no longer reached through port p. -/
def Stand.cut (s : Stand) (p : Nat) : Stand :=
  { s with ring := false, members := (s.members.map (fun m =>
      if p = 0 then { m with hops0 := none } else { m with hops1 := none })).filter StandMember.reached }

/-- R346, R356: no valid block has come through port p for 3 µs. -/
def Dev.losePort (p : Nat) (t : Nat) (d : Dev) : Dev :=
  if d.flag (F.STD_PORT_UP p) || d.flag (F.STD_PORT_PARLEY p) then
    let d := ((d.setFld (F.STD_PORT_UP p) 0).setFld (F.STD_PORT_PARLEY p) 0).setFld (F.STD_PORT_LANES p) 0
    let d := (d.incFld (if p = 0 then F.STD_LINKCNT_P0 else F.STD_LINKCNT_P1)).stdEvent t 0
    let d := d.setParley t 1 (d.flag (F.STD_PORT_PARLEY (1 - p)))
    let mate := d.pathAPort == p
    let d := d.modStand (fun s => s.cut p)
    let d := if mate then d.pathDown false t else d
    d.settleStand t
  else d

/-- RHIZOME_LINK_LOSS: no valid block has come for 3 µs. -/
def execRhizomeLinkLoss (dt : Nat) (port : BitVec 1) (s : State) : Host.Outcome State Fault Refusal :=
  s.event dt (Dev.losePort port.toNat)

/-! ## Frames of other members -/

/-- A member is heard through port p over so many links. -/
def StandMember.heard (m : StandMember) (p hops : Nat) : StandMember :=
  if p = 0 then { m with hops0 := some hops, seen0 := true } else { m with hops1 := some hops, seen1 := true }

/-- R347, R354: what has come through port p over so many links is passed on through the other port. -/
def Dev.passOn (d : Dev) (p hops : Nat) : Bool :=
  let q := 1 - p
  let n := d.order.length
  d.flag (F.STD_PORT_UP q) &&
    (!d.stand.ring || (if p = 0 then Nat.blt hops (n / 2) else Nat.blt hops (n - 1 - n / 2)))

/-- R347: an IDENT arrives through port p over so many links; the own IDENT comes back where the segment is a ring, and
that of another device is passed on. -/
def Dev.standIdent (p hops : Nat) (i : StandIdent) (t : Nat) (d : Dev) : Dev :=
  if !(d.standOn && d.flag (F.STD_PORT_UP p)) then d
  else
    let d := if i.uid != d.uid && d.passOn p hops then d.send t (.standIdent (1 - p) i) else d
    let d := if i.uid = d.uid then d.modStand (fun s => { s with ring := true })
      else
        let others := d.stand.members.filter (fun m => m.ident.uid != i.uid)
        let old := (d.stand.members.find? (fun m => m.ident.uid == i.uid)).getD { ident := i }
        d.modStand (fun s => { s with members := others ++ [{ old with ident := i }.heard p hops] })
    (d.settleStand t).writeSelfpath

/-- STAND_IDENT: an IDENT frame of a neighbour, or one that a neighbour passes on. -/
def execStandIdent (dt : Nat) (port : BitVec 1) (hops : Nat) (ident : StandIdent) (s : State) :
    Host.Outcome State Fault Refusal :=
  s.event dt (Dev.standIdent port.toNat hops ident)

/-- R237: the STATUS frame m shows that a member of this device's stand has taken control: its position. -/
def Dev.newlyHolds (d : Dev) (m : StandStatus) : Option Nat :=
  match d.stand.members.find? (fun x => x.ident.uid == m.uid && x.ident.sidx.toNat == d.ownSidx) with
  | some x => if bitOf m.roles.toNat 1 && !(bitOf (d.memberView x).roles 1) then some x.ident.pos.toNat else none
  | none => none

/-- R357: a STATUS frame arrives through port p over so many links, and is passed on; the cycle count is that of the
leader. -/
def Dev.standStatus (p hops : Nat) (m : StandStatus) (t : Nat) (d : Dev) : Dev :=
  if !(d.standOn && d.flag (F.STD_PORT_UP p)) then d
  else
    let d := if d.passOn p hops then d.send t (.standPass (1 - p) m) else d
    let took := d.newlyHolds m
    let d := d.modStand (fun s => { s with members := s.members.map (fun x =>
      if x.ident.uid = m.uid then { x with status := some m }.heard p hops else x) })
    let d := if d.stand.leader = some m.uid ∧ !(d.flag F.STD_STAT_ISLEAD) then d.wr Reg.STD_CYCCNT m.cycles else d
    let d := d.settleStand t
    match took with
    | some pos => d.requestHandovers t pos
    | none => d

/-- STAND_STATUS_FRAME: a member's STATUS frame. -/
def execStandStatusFrame (dt : Nat) (port : BitVec 1) (hops : Nat) (status : StandStatus) (s : State) :
    Host.Outcome State Fault Refusal :=
  s.event dt (Dev.standStatus port.toNat hops status)

/-! ## Boundaries and copies (R349 to R356) -/

/-- The address of partition p in the stand-shared space. -/
def partAddr (p : Nat) : Nat := 0x8000 * p

/-- R351: header word 1 of partition p. -/
def headerWord (p index : Nat) (stale : Bool) : Word := BitVec.ofNat 32 (p + 8 * index + 16 * b2n stale)

/-- R351: header word 1 of partition p written. -/
def Dev.setHeader1 (d : Dev) (p index : Nat) (stale : Bool) : Dev :=
  { d with mem := { d.mem with stand := Memory.wr32 d.mem.stand (partAddr p + 4) (headerWord p index stale) } }

/-- The pair member index of this device. -/
def Dev.memberIndex (d : Dev) : Nat := if d.flag F.HSB_CFG_EN then b2n (!(d.roleBit 3)) else 0

/-- R355: the replica of partition q at a boundary at MONO t: a copy that was not applied since the last one is missed. -/
def Dev.checkReplica (t q : Nat) (d : Dev) : Dev :=
  if q = d.ownPos then d
  else if d.flag (F.STD_PSTAT_FRESH q) then d.setFld (F.STD_PSTAT_FRESH q) 0
  else
    let was := d.flag (F.STD_PSTAT_STALE q)
    let d := (d.incFld (F.STD_PSTAT_MISSCNT q)).setFld (F.STD_PSTAT_STALE q) 1
    let d := d.setHeader1 q (d.fld (F.STD_PSTAT_SENDER q)) true
    if was then d else d.stdEvent t 1

/-- R357: this device's STATUS frame. -/
def Dev.ownStatus (d : Dev) : StandStatus :=
  { uid := d.uid, state := BitVec.ofNat 4 d.devState, mode := BitVec.ofNat 2 (d.fld F.SYS_MODE_MODE),
    health := BitVec.ofNat 2 d.health, roles := BitVec.ofNat 8 d.roleWord, ver := d.rd (Reg.SYS_IFVER 0),
    index := BitVec.ofNat 1 d.memberIndex,
    stale := BitVec.ofNat 8 ((List.range d.npos).foldl (fun w p => w + d.fld (F.STD_PSTAT_STALE p) * 2 ^ p) 0),
    cycles := d.rd Reg.STD_CYCCNT, repMax := BitVec.ofNat 24 (d.fld F.STD_REPMAX_NS) }

/-- R352: the copy of the own partition. -/
def Dev.ownCopy (d : Dev) : StandCopy :=
  { pos := BitVec.ofNat 3 d.ownPos, sidx := BitVec.ofNat 1 d.ownSidx, index := BitVec.ofNat 1 d.memberIndex,
    cycle := d.rd Reg.STD_CYCCNT, bytes := Memory.rdBytes d.mem.stand (partAddr d.ownPos + 8) (d.sendLen - 8) }

/-- Members that no frame of the last cycle has shown through a port are no longer reached through it. -/
def Stand.forget (s : Stand) : Stand :=
  { s with members := (s.members.map (fun m => { m with
      hops0 := if m.seen0 then m.hops0 else none, hops1 := if m.seen1 then m.hops1 else none,
      seen0 := false, seen1 := false })).filter StandMember.reached }

/-- R349, R351, R352, R355, R357: a stand cycle boundary at MONO t. -/
def Dev.standBoundary (t : Nat) (d : Dev) : Dev :=
  if !d.standOn || d.stand.out || d.stand.nextB.isNone then d
  else
    let first := d.stand.lastB.isNone
    let d := d.incWrap Reg.STD_CYCCNT
    let d := if first then d else (forN d.npos (Dev.checkReplica t) d).modStand Stand.forget
    let d := d.modStand (fun s => { s with lastB := some t, nextB := s.nextB.map (· + d.cycleNs) })
    let d := { d with mem := { d.mem with stand := Memory.wr32 d.mem.stand (partAddr d.ownPos) (d.rd Reg.STD_CYCCNT) } }
    let d := ((d.setHeader1 d.ownPos d.memberIndex false).setFld (F.STD_PSTAT_STALE d.ownPos) 0).setFld
      (F.STD_PSTAT_SENDER d.ownPos) d.memberIndex
    let d := if d.leaseHeld then d.send t (.standCopy d.ownCopy) else d
    (d.send t (.standStatus d.ownStatus)).settleStand t

/-- R349: the instant of the next boundary in own MONO; none until the offset to the leader's MONO is known. -/
def Dev.boundaryDue (d : Dev) : Option Nat :=
  if d.stand.known then d.stand.nextB.map (fun b => ((b : Int) - d.monoOfs).toNat) else none

/-- STAND_BOUNDARY: the leader's MONO reaches a multiple of the stand cycle. -/
def execStandBoundary (s : State) : Host.Outcome State Fault Refusal :=
  match s.dev.boundaryDue with
  | some m => s.at m Dev.standBoundary
  | none => .next s

/-- R351, R353: the copy replaces the replica of its partition at MONO t. -/
def Dev.applyCopy (d : Dev) (t : Nat) (c : StandCopy) : Dev :=
  let q := c.pos.toNat
  let m := Memory.wr32 d.mem.stand (partAddr q) c.cycle
  let m := Memory.wrBytes m (partAddr q + 8) (c.bytes.take (d.sendLen - 8))
  let d := ({ d with mem := { d.mem with stand := m } }).setHeader1 q c.index.toNat false
  let d := ((d.setFld (F.STD_PSTAT_FRESH q) 1).setFld (F.STD_PSTAT_STALE q) 0).setFld (F.STD_PSTAT_SENDER q) c.index.toNat
  let took := match d.stand.lastB with | some b => t - b | none => 0
  let d := if d.fld F.STD_REPMAX_NS < took then d.setFld F.STD_REPMAX_NS (min (2 ^ 24 - 1) took) else d
  d.touch

/-- R353, R354: a copy arrives at MONO t through port p over so many links. It is passed on as it arrives, and applied only
where its CRC-32C is correct. -/
def Dev.copyArrives (p hops : Nat) (crcOk : Bool) (c : StandCopy) (t : Nat) (d : Dev) : Dev :=
  if !(d.standOn && d.flag (F.STD_PORT_UP p)) then d
  else
    let own := c.pos.toNat = d.ownPos ∧ (d.topo ≠ 3 ∨ c.sidx.toNat = d.ownSidx)
    let d := if !crcOk ∨ own ∨ d.stand.out ∨ (d.topo = 3 ∧ c.sidx.toNat ≠ d.ownSidx) then d else d.applyCopy t c
    if d.passOn p hops then d.send t (.standForward (1 - p) c) else d

/-- STAND_COPY_RECEIVED: a copy of a partition has arrived complete, with a correct CRC-32C or a wrong one. -/
def execStandCopyReceived (dt : Nat) (port : BitVec 1) (hops : Nat) (x : CopyIn) (s : State) :
    Host.Outcome State Fault Refusal :=
  s.event dt (Dev.copyArrives port.toNat hops x.crcOk x.copy)

/-- R355: at warm resume STALE is set on every replica. -/
def Dev.staleAll (d : Dev) : Dev :=
  forN 8 (fun q d =>
    if d.standOn && q == d.ownPos then d
    else (((d.setFld (F.STD_PSTAT_STALE q) 1).setFld (F.STD_PSTAT_FRESH q) 0).setHeader1 q (d.fld (F.STD_PSTAT_SENDER q)) true)) d

/-! ## Link time-stamps (R209, R349, R350) -/

/-- R350: the leader's station time is carried at MONO t. -/
def Dev.carryTime (d : Dev) (t : Nat) (l : LinkLeader) : Dev :=
  let o : Int := (l.station : Int) - d.station t
  let d := d.wr Reg.STD_TOFS (sat32 o)
  if d.flag F.STD_CFG_TFOLLOW && !(d.flag F.STD_STAT_ISLEAD) && d.flag F.STD_STAT_LEADVALID && !d.stand.out then
    let old := d.station t
    let d := d.setFollowing t true
    let d := if 1000 < o.natAbs then d.stepStation t o
      else
        let d := (d.angRebase t).stRebase t
        let d := { d with time := { d.time with base := ((d.time.base : Int) + o).toNat, slew := 0 } }
        let d := { d with ang := { d.ang with s0 := d.station t } }
        let d := d.crossEpoch t old (d.station t)
        match d.ang.gen with | .synth => d.moveSynth t | .rate _ => d
    let d := { d with time := { d.time with bound := l.err.map (· + 5), usable := true, usableAt := t, lastSrc := l.src.toNat } }
    (d.setFld F.PTP_STAT_SRC l.src.toNat).settleTq t
  else d

/-- R209, R349: a time-stamp frame of a neighbour through port p: its MONO less own MONO, and what it carries of the
leader. -/
def Dev.linkStamp (p : Nat) (ofs : Int) (lead : Option LinkLeader) (t : Nat) (d : Dev) : Dev :=
  if !(d.flag (F.STD_PORT_UP p)) then d
  else
    let d := if d.member && d.pathAPort == p && d.flag F.HSB_STAT_PATHA then d.setD ofs 1 else d
    match lead with
    | some l =>
      if d.standOn && !(d.flag F.STD_STAT_ISLEAD) && d.flag F.STD_STAT_LEADVALID then
        let d := d.setMonoOfs (ofs + l.ofs)
        (if d.stand.known then d else (d.modStand (fun s => { s with known := true })).replan t).carryTime t l
      else d
    | none => d

/-- LINK_TIMESTAMP_FRAME: the time-stamp frame that crosses a link every 10 µs. -/
def execLinkTimestampFrame (dt : Nat) (port : BitVec 1) (ofs : Int) (lead : Option LinkLeader) (s : State) :
    Host.Outcome State Fault Refusal :=
  s.event dt (Dev.linkStamp port.toNat ofs lead)

end Sys2Proof.Machine
end

