-- ==== Sys2Proof/Machine/Units.lean ====
section
/-!
DEFINITION. The unit model (R23 to R33, R236, R237, R357): the UCB and child table of every unit that this device maps,
and the resolution of unit paths. Units are numbered as in Ops: 0 the device, 1 to 8 the cores, 9 + 4 × n + g the task
groups, 41 the pair, 42 the stand, 43 the unit above two stands.
-/
namespace Sys2Proof.Machine

/-! ## Version ranges of cores and groups (R23) -/

/-- The executable format of the code in bank b of core c; 0 when none is loaded. -/
def Dev.bankFormat (d : Dev) (c b : Nat) : Nat := (Sparse.get (fun _ => (0 : Word)) d.formats (8 * c + b)).toNat

/-- The format of the first bank of a mask that has one. -/
def Dev.formatOf (d : Dev) (c mask : Nat) : Nat :=
  match (List.range 8).find? (fun b => bitOf mask b && d.bankFormat c b != 0) with
  | some b => d.bankFormat c b
  | none => 0

/-- A format at both ends of a version range. -/
def formatRange (f : Nat) : Nat := f * 2 ^ 16 + f

/-- R23: the version word of core c: the running code, or code that no task is bound to. -/
def Dev.coreRange (d : Dev) (c : Nat) : Nat :=
  let f := d.formatOf c (d.runBanks c)
  formatRange (if f = 0 then d.formatOf c 0xFF else f)

/-- R23: the version word of task group g of core c. -/
def Dev.groupRange (d : Dev) (c g : Nat) : Nat :=
  formatRange (d.formatOf c (bankMask ((d.groupTasks c g).map (fun n => d.rd (Reg.TSK_CODE n)))))

/-! ## Place of the units in the system (R31) -/

/-- The path bytes in four words, byte 0 first. -/
def pathBytes (w0 w1 w2 w3 : Word) : List Nat :=
  ([w0, w1, w2, w3].flatMap (fun w => (List.range 4).map (fun k => bitsOf w.toNat (8 * k + 7) (8 * k)))).takeWhile (· != 0xFF)

/-- The path of this device from its top unit. -/
def Dev.selfPath (d : Dev) : List Nat :=
  pathBytes (d.rd Reg.SYS_SELFPATH0) (d.rd Reg.SYS_SELFPATH1) (d.rd Reg.SYS_SELFPATH2) (d.rd Reg.SYS_SELFPATH3)

/-- R205: the child index of this device in its pair. -/
def Dev.pairIndex (d : Dev) : Nat := b2n (!bitOf d.roleWord 3)

/-- The top unit of the system of this device. -/
def Dev.topUnit (d : Dev) : Nat :=
  if d.standOn then (if Nat.ble 2 d.topo then 43 else 42) else if d.flag F.HSB_CFG_EN then 41 else 0

/-- The number of path bytes from the top unit to unit u. -/
def Dev.unitDepth (d : Dev) (u : Nat) : Nat :=
  let own := d.selfPath.length
  if u = 0 then own
  else if u ≤ 8 then own + 1
  else if u ≤ 40 then own + 2
  else if u = 41 then own - 1
  else if u = 42 then (if Nat.ble 2 d.topo then 1 else 0)
  else 0

/-- R23: INDEX of unit u. -/
def Dev.unitIndex (d : Dev) (u : Nat) : Nat :=
  if u = 0 then (match d.selfPath.getLast? with | some b => b | none => 0xFF)
  else if u ≤ 8 then u - 1
  else if u ≤ 40 then (u - 9) % 4
  else if d.unitDepth u = 0 then 0xFF
  else if u = 41 then d.ownPos
  else d.ownSidx

/-- R23: KIND of unit u. -/
def Dev.unitKind (d : Dev) (u : Nat) : Nat :=
  if u = 0 then 3 else if u ≤ 8 then 2 else if u ≤ 40 then 1 else if u = 41 then 4 else if u = 42 then 5
  else if d.topo = 2 then 6 else 5

/-- R23: CHILD_COUNT of unit u. -/
def Dev.childCount (d : Dev) (u : Nat) : Nat :=
  if u = 0 then 8 else if u ≤ 8 then d.coreChildren (u - 1) else if u ≤ 40 then 0 else if u = 42 then d.npos else 2

/-- R29, R236, R237, R357: the CSR offset of the child table of unit u. -/
def Dev.childTable (d : Dev) (u : Nat) : Nat :=
  if u = 0 then 0x200 else if u ≤ 8 then 0x600 + 0x20 * (u - 1) else if u = 41 then 0x15140 else if u = 42 then 0x16140
  else if d.topo = 2 then 0x151C0 else 0x161C0

/-- R23: the identity words of unit u. -/
def Dev.unitId (d : Dev) (u : Nat) : List Word :=
  if u ≤ 40 then [d.rd Reg.SYS_UID0, d.rd Reg.SYS_UID1, d.rd Reg.SYS_UID2, d.rd Reg.SYS_UID3]
  else if u = 41 ∨ (u = 43 ∧ d.topo = 2) then
    [d.rd Reg.HSB_PAIRID0, d.rd Reg.HSB_PAIRID1, d.rd Reg.HSB_PAIRID2, d.rd Reg.HSB_PAIRID3]
  else [d.rd Reg.STD_ID0, d.rd Reg.STD_ID1, d.rd Reg.STD_ID2, d.rd Reg.STD_ID3]

/-- The fields of unit u that a group derives its own from. -/
def Dev.unitView (d : Dev) (u : Nat) : UnitView :=
  if u = 0 then d.ownView
  else if u ≤ 8 then
    let l := d.coreTasks (u - 1)
    { state := d.tasksState l, mode := d.fld F.SYS_MODE_MODE, health := d.tasksHealth l, roles := d.roleWord % 16,
      ver := d.coreRange (u - 1) }
  else if u ≤ 40 then
    let l := d.groupTasks ((u - 9) / 4) ((u - 9) % 4)
    { state := d.groupState ((u - 9) / 4) ((u - 9) % 4), mode := d.fld F.SYS_MODE_MODE, health := d.tasksHealth l,
      roles := d.roleWord % 16, ver := d.groupRange ((u - 9) / 4) ((u - 9) % 4) }
  else if u = 41 then d.ownPair
  else if u = 42 then d.standUnit d.ownSidx
  else d.twoStands

/-! ## SPEC words -/

/-- A mask of tasks as two words, TASK00 first. -/
def taskWords (l : List Nat) : List Word :=
  let m := l.foldl (fun m n => m + 2 ^ n) 0
  [BitVec.ofNat 32 m, BitVec.ofNat 32 (m / 2 ^ 32), 0, 0]

/-- R236: SPEC0 of a pair whose members show these views, the member with index 0 first. -/
def Dev.pairSpec0 (d : Dev) (t : Nat) (a b : Option UnitView) : Nat :=
  let has (v : Option UnitView) (i : Nat) : Bool := v.any (fun x => bitOf x.roles i)
  let synced := if d.leaseHeld then d.hsb.peer.any (fun m => m.synced) else d.flag F.HSB_STAT_SYNCED
  b2n (!has a 1 && has b 1) + 2 * b2n (has a 1 || has b 1) + 16 * b2n (!has a 2 && has b 2) +
    32 * b2n (has a 2 || has b 2) + 256 * b2n synced + 512 * bitsOf (d.holdLeft t).toNat 12 12 +
    1024 * b2n (d.flag F.HSB_STAT_RETINH) + 2 ^ 12 * d.fld F.HSB_VER_MAJ % 2 ^ 16 + 2 ^ 16 * (d.fld F.HSB_VER_MIN % 16)

/-- R236: the SPEC words of a pair of members or stands. -/
def Dev.pairSpec (d : Dev) (t : Nat) (a b : Option UnitView) : List Word :=
  [BitVec.ofNat 32 (d.pairSpec0 t a b), BitVec.ofNat 32 (bitsOf (d.holdLeft t).toNat 11 0),
   BitVec.ofNat 32 d.hsb.claimCount, BitVec.ofNat 32 d.hsb.handoverCount]

/-- The acting leader's STATUS, when the leader is another member. -/
def Dev.leaderStatus (d : Dev) : Option StandStatus :=
  match d.stand.members.find? (fun m => d.stand.leader == some m.ident.uid) with
  | some m => m.status
  | none => none

/-- R357: the SPEC words of the stand of this device. -/
def Dev.standSpec (d : Dev) : List Word :=
  let own := (List.range 8).foldl (fun m p => m + b2n (d.flag (F.STD_PSTAT_STALE p)) * 2 ^ p) 0
  let s := d.leaderStatus
  let stale := match s with | some s => s.stale.toNat | none => own
  let cycles := match s with | some s => s.cycles | none => d.rd Reg.STD_CYCCNT
  let rep := match s with | some s => s.repMax.toNat | none => d.fld F.STD_REPMAX_NS
  [BitVec.ofNat 32 (d.fld F.STD_STAT_LEADER + 8 * d.fld F.STD_STAT_LEADVALID + 16 * d.fld F.STD_STAT_SPLIT +
     2 ^ 8 * d.fld F.STD_REACH_OWN + 2 ^ 16 * stale),
   BitVec.ofNat 32 (d.cycleNs / 1000), cycles, BitVec.ofNat 32 rep]

/-- R23, R236, R357: the SPEC words of unit u at MONO t. -/
def Dev.unitSpec (d : Dev) (t u : Nat) : List Word :=
  if u = 0 then
    [d.rd Reg.SYS_IDCODE,
     BitVec.ofNat 32 ((List.range 8).foldl (fun m c => m + b2n (!(d.coreTasks c).isEmpty) * 2 ^ c) 0), 0, 0]
  else if u ≤ 8 then taskWords (d.coreTasks (u - 1))
  else if u ≤ 40 then taskWords (d.groupTasks ((u - 9) / 4) ((u - 9) % 4))
  else if u = 41 then
    if d.pairIndex = 0 then d.pairSpec t (some d.ownView) d.peerView else d.pairSpec t d.peerView (some d.ownView)
  else if u = 42 then d.standSpec
  else if d.topo = 2 then d.pairSpec t (some (d.standUnit 0)) (some (d.standUnit 1))
  else [0, 0, 0, 0]

/-! ## UCBs and child tables -/

/-- R23: FIRST_SRC and SRC_VALID of unit u, in place. -/
def Dev.firstWord24 (d : Dev) (u : Nat) : Nat :=
  if u = 0 then d.fld F.INT_FIRST_SRC * 2 ^ 8 + d.fld F.INT_FIRST_VALID * 2 ^ 16
  else match Sparse.get (fun _ => none) d.units.first u with
    | some i => i % 256 * 2 ^ 8 + 2 ^ 16
    | none => 0

/-- R23: the 16 words of the UCB of unit u at MONO t. -/
def Dev.ucb (d : Dev) (t u : Nat) : List Word :=
  let v := d.unitView u
  let kids := d.childCount u
  let state := v.state + v.mode * 2 ^ 8 + b2n v.mixed * 2 ^ 12 + d.fld F.SYS_MODE_PEND * 2 ^ 13
  [BitVec.ofNat 32 (d.unitKind u + 2 ^ 8 + d.unitIndex u * 2 ^ 16 + d.unitDepth u * 2 ^ 24)] ++ d.unitId u ++
  [BitVec.ofNat 32 state, BitVec.ofNat 32 v.ver, BitVec.ofNat 32 kids,
   BitVec.ofNat 32 (if kids = 0 then 0 else d.childTable u), BitVec.ofNat 32 (v.health + d.firstWord24 u),
   BitVec.ofNat 32 (if u ≤ 40 then d.roleWord else v.roles % 16),
   Sparse.get (fun _ => (0 : Word)) d.units.change u] ++ d.unitSpec t u

/-- R29: the CSR offset of the UCB of unit u, for a unit of this device. -/
def localUcb (u : Nat) : Nat :=
  if u = 0 then 0x40 else if u ≤ 8 then 0x400 + 0x40 * (u - 1) else 0x800 + 0x100 * ((u - 9) / 4) + 0x40 * ((u - 9) % 4)

/-- R28: a child entry. -/
def childEntry (kind index : Nat) (v : UnitView) (ptr : Nat) : List Word :=
  [BitVec.ofNat 32 (kind + index * 2 ^ 8 + v.state * 2 ^ 16 + v.health * 2 ^ 20), BitVec.ofNat 32 ptr]

/-- R28, R236, R357: entry k of the child table of unit u. -/
def Dev.childWords (d : Dev) (u k : Nat) : List Word :=
  if u = 0 then childEntry 2 k (d.unitView (1 + k)) (localUcb (1 + k))
  else if u ≤ 8 then
    let g := 9 + 4 * (u - 1) + k
    childEntry 1 k (d.unitView g) (localUcb g)
  else if u = 41 then
    if k = d.pairIndex then childEntry 3 k d.ownView 0x40
    else childEntry 3 k d.peerChild 0
  else if u = 42 then
    let own := k == d.ownPos
    childEntry (if d.pairedPos k then 4 else 3) k (d.standChild d.ownSidx k)
      (if own then (if d.pairedPos k then 0x15100 else 0x40) else 0)
  else childEntry 5 k (d.standUnit k) (if k = d.ownSidx then 0x16100 else 0)

/-- R28: the child table of unit u. -/
def Dev.childTableWords (d : Dev) (u : Nat) : List Word := (List.range (d.childCount u)).flatMap (d.childWords u)

/-- R29, R236, R237, R357: the unit whose UCB holds a CSR offset, and the offset of its word 0. -/
def ucbAt (off : Nat) : Option (Nat × Nat) :=
  if 0x40 ≤ off ∧ off < 0x80 then some (0, 0x40)
  else if 0x400 ≤ off ∧ off < 0x600 then some (1 + (off - 0x400) / 0x40, off / 0x40 * 0x40)
  else if 0x800 ≤ off ∧ off < 0x1000 then
    some (9 + 4 * ((off - 0x800) / 0x100) + off % 0x100 / 0x40, off / 0x40 * 0x40)
  else if 0x15100 ≤ off ∧ off < 0x15140 then some (41, 0x15100)
  else if 0x16100 ≤ off ∧ off < 0x16140 then some (42, 0x16100)
  else if 0x15180 ≤ off ∧ off < 0x151C0 then some (43, 0x15180)
  else if 0x16180 ≤ off ∧ off < 0x161C0 then some (43, 0x16180)
  else none

/-- The unit whose child table holds a CSR offset, and the offset of the table; 16 entries at most. -/
def tableAt (off : Nat) : Option (Nat × Nat) :=
  if 0x200 ≤ off ∧ off < 0x240 then some (0, 0x200)
  else if 0x600 ≤ off ∧ off < 0x700 then some (1 + (off - 0x600) / 0x20, off / 0x20 * 0x20)
  else if 0x15140 ≤ off ∧ off < 0x15150 then some (41, 0x15140)
  else if 0x16140 ≤ off ∧ off < 0x16180 then some (42, 0x16140)
  else if 0x151C0 ≤ off ∧ off < 0x151D0 then some (43, 0x151C0)
  else if 0x161C0 ≤ off ∧ off < 0x161D0 then some (43, 0x161C0)
  else none

/-! ## Which registers there are (R7, R20) -/

/-- R158: the offset lies in the fast rung table window. -/
def inWindow (off : Nat) : Bool := decide (0x100000 ≤ off) && decide (off < 0x110000)

/-- The Ticks entry of an offset (R7); 0 stands for "—", none for an offset that no block assigns. A UCB or child table
word costs 6. -/
def csrTicks (off : Nat) : Option Nat :=
  if inWindow off then some 0
  else if (ucbAt off).isSome || (tableAt off).isSome then some 6
  else (rowOf off).map (fun r => r.ticks)

/-! ## Path resolution (R31 to R33) -/

/-- What this device finds on a path by itself. -/
inductive Resolved where
  /-- The unit named is unit u of this device's own copies. -/
  | found (u : Nat)
  /-- R33 NOCHILD below unit u. -/
  | noChild (u : Nat)
  /-- R33 UNREACH below unit u: this device, which presents u, has no link to the child named. -/
  | unreach (u : Nat)
  /-- The path leaves this device below unit u. -/
  | leaves (u : Nat)
deriving DecidableEq, Repr

/-- The child b of unit u that this device has a copy of; none when another device presents it. -/
def Dev.childUnit (d : Dev) (u b : Nat) : Option Nat :=
  if u = 0 then some (1 + b)
  else if u ≤ 8 then some (9 + 4 * (u - 1) + b)
  else if u = 41 then (if b = d.pairIndex then some 0 else none)
  else if u = 42 then (if b = d.ownPos then (if d.pairedPos b then some 41 else some 0) else none)
  else if b = d.ownSidx then some 42 else none

/-- R33, R210, R347: this device has a link to the child b of group unit u that another device presents. -/
def Dev.linkTo (d : Dev) (u b : Nat) : Bool :=
  let reached (p : StandMember → Bool) : Bool := d.stand.members.any (fun m => m.reached && p m)
  if u = 41 then d.flag F.HSB_STAT_PATHA || d.flag F.HSB_STAT_PATHB
  else if u = 42 then reached (fun m => m.ident.sidx.toNat == d.ownSidx && m.ident.pos.toNat == b)
  else reached (fun m => m.ident.sidx.toNat != d.ownSidx)

/-- R31: a path followed from unit u. -/
def Dev.resolveFrom (d : Dev) (u : Nat) : List Nat → Resolved
  | [] => .found u
  | b :: rest =>
    if 9 ≤ u ∧ u ≤ 40 then .noChild u
    else if d.childCount u ≤ b then .noChild u
    else match d.childUnit u b with
      | some v => Dev.resolveFrom d v rest
      | none => if d.linkTo u b then .leaves u else .unreach u

/-- R31: a path followed from the top unit. -/
def Dev.resolve (d : Dev) (path : List Nat) : Resolved := d.resolveFrom d.topUnit (path.takeWhile (· != 0xFF))

/-- R32: GO: the window captures SYS_PATH0 to SYS_PATH3 at MONO t; ignored while a resolution is in progress. -/
def Dev.pathGo (d : Dev) (t : Nat) : Dev :=
  if d.flag F.SYS_PATHCTL_BUSY then d
  else
    let p := pathBytes (d.rd Reg.SYS_PATH0) (d.rd Reg.SYS_PATH1) (d.rd Reg.SYS_PATH2) (d.rd Reg.SYS_PATH3)
    let d := { d.setFld F.SYS_PATHCTL_BUSY 1 with path := { path := p, asked := some t } }
    match d.resolve p with
    | .leaves _ => d.send t (.pathAsk p)
    | _ => d

/-- R33: a resolution ends with a code, a depth and the UCB of the deepest unit reached. -/
def Dev.pathEnd (d : Dev) (err depth : Nat) (ucb : List Word) : Dev :=
  let d := ((d.setFld F.SYS_PATHCTL_BUSY 0).setFld F.SYS_PATHCTL_ERR err).setFld F.SYS_PATHCTL_DEPTH depth
  let d := forN 16 (fun k d => d.wr (Reg.SYS_UCBWIN k) (ucb.getD k 0)) d
  { d with path := { d.path with asked := none } }

/-- R33: a resolution ends at a unit of this device. -/
def Dev.pathEndAt (d : Dev) (t err u : Nat) : Dev := d.pathEnd err (d.unitDepth u) (d.ucb t u)

/-- R33: ERR of a resolution that has reached unit u of this device: PARLEY for a group unit in version parley (R26). -/
def Dev.foundErr (d : Dev) (u : Nat) : Nat := if Nat.ble 41 u && (d.unitView u).state == 5 then 4 else 0

/-- R32, R33: the resolution in progress ends at MONO t; remote is what the rest of the system answers to a path that
leaves this device. -/
def Dev.pathDone (remote : PathAnswer) (t : Nat) (d : Dev) : Dev :=
  if d.flag F.SYS_PATHCTL_BUSY then
    match d.resolve d.path.path with
    | .found u => d.pathEndAt t (d.foundErr u) u
    | .noChild u => d.pathEndAt t 1 u
    | .unreach u => d.pathEndAt t 2 u
    | .leaves u =>
      if remote.ucb.isEmpty then d.pathEndAt t remote.err.toNat u
      else d.pathEnd remote.err.toNat remote.depth.toNat remote.ucb
  else d

/-- PATH_RESOLUTION_DONE: dt ns pass, and the resolution in progress ends (R32). -/
def execPathResolutionDone (dt : Nat) (remote : PathAnswer) (s : State) : Host.Outcome State Fault Refusal :=
  s.event dt (Dev.pathDone remote)

/-- R33: a unit on the path has not answered for 1 ms; remote names the deepest unit reached. -/
def Dev.pathTimeout (remote : PathAnswer) (t : Nat) (d : Dev) : Dev :=
  if d.flag F.SYS_PATHCTL_BUSY then
    match d.resolve d.path.path with
    | .leaves u => if remote.ucb.isEmpty then d.pathEndAt t 3 u else d.pathEnd 3 remote.depth.toNat remote.ucb
    | .found u => d.pathEndAt t (d.foundErr u) u
    | .noChild u => d.pathEndAt t 1 u
    | .unreach u => d.pathEndAt t 2 u
  else d

/-- PATH_UNIT_TIMEOUT: dt ns pass, and the unit that was asked then has not answered for 1 ms (R32, R33). -/
def execPathUnitTimeout (dt : Nat) (remote : PathAnswer) (s : State) : Host.Outcome State Fault Refusal :=
  match s.dev.path.asked with
  | some t0 => s.at (max (s.mono + dt) (t0 + 1000000)) (Dev.pathTimeout remote)
  | none => s.event dt (fun _ d => d)

/-- R33, R394: deep sleep abandons the resolution in progress: TIMEOUT with the deepest unit reached. -/
def Dev.pathAbandon (d : Dev) (t : Nat) : Dev :=
  if d.flag F.SYS_PATHCTL_BUSY then
    match d.resolve d.path.path with
    | .found u => d.pathEndAt t 3 u
    | .noChild u => d.pathEndAt t 3 u
    | .unreach u => d.pathEndAt t 3 u
    | .leaves u => d.pathEndAt t 3 u
  else d

end Sys2Proof.Machine
end

