-- ==== Sys2Proof/Machine/HostLink.lean ====
section
/-!
DEFINITION. The host link and the service of host commands (R325 to R330, R338, R339, R416 to R421): sessions, PCIe
resets, the doorbell, and what every command goes through before its own effect.
-/
namespace Sys2Proof.Machine

/-! ## Classes and sessions -/

/-- R416: the class of the port behind a channel. -/
def chClass : Channel → Nat
  | .mailbox _ => 1
  | .uart _ => 0
  | .lan _ _ _ => 2
  | .jtag _ => 0
  | .damaged => 3

/-- R416, R420, R421: a command may come over the channel: JTAG carries accesses to registers only, and a frame with a
wrong CRC-32C is discarded. -/
def chCarries : Channel → Bool
  | .jtag _ => false
  | .damaged => false
  | _ => true

/-- The requester of the register accesses that a channel carries. -/
def chRequester : Channel → Requester
  | .mailbox _ => .host
  | .uart _ => .uart
  | .lan _ _ _ => .lan
  | .jtag _ => .uart
  | .damaged => .lan

/-- A channel is a mailbox. -/
def chMailbox : Channel → Option Nat
  | .mailbox m => some m.toNat
  | _ => none

/-- The session of a channel: its version (major in [15:8]) when one is open; none without a session or in parley. -/
def Dev.session (d : Dev) (ch : Channel) : Option Nat :=
  match chMailbox ch with
  | some _ => if d.flag F.HST_SESSION_OPEN then some ((d.rd Reg.HST_SESSION).toNat % 2 ^ 16) else none
  | none => (d.host.sessions.find? (fun x => x.who == chWho ch && !x.parley)).map (fun x => x.ver.toNat)

/-- R338: HST_PARLEY bit 0 follows the sessions. -/
def Dev.showParley (d : Dev) (t : Nat) : Dev :=
  d.setParley t 0 (d.flag F.HST_SESSION_PARLEY || d.host.sessions.any (fun x => x.parley))

/-- The session of a channel opens with a version, or enters parley; source 189 when it opens or closes. -/
def Dev.setSession (d : Dev) (t : Nat) (ch : Channel) (v : Option (Nat × Nat)) : Dev :=
  let was := (d.session ch).isSome
  let ver := match v with | some x => x.1 * 2 ^ 8 + x.2 | none => 0
  let d := match chMailbox ch with
    | some _ =>
      d.wr Reg.HST_SESSION (BitVec.ofNat 32 (ver + b2n v.isSome * 2 ^ 16 + b2n v.isNone * 2 ^ 17))
    | none =>
      { d with host := { d.host with
          sessions := { who := chWho ch, ver := BitVec.ofNat 16 ver, parley := v.isNone } ::
            d.host.sessions.filter (fun x => x.who != chWho ch) } }
  let d := if was = v.isSome then d else d.hstEvent t 1
  d.showParley t

/-- R325, R329: a PCIe reset or a link-down at MONO t closes the host session and aborts every mailbox. -/
def Dev.pcieReset (t : Nat) (d : Dev) : Dev :=
  let open_ := d.flag F.HST_SESSION_OPEN
  let d := (d.wr Reg.HST_SESSION 0).setFld F.HST_MBSTAT_BUSY 0
  let d := { d with host := { d.host with rung := [] }, msix := { sent := d.msix.sent } }
  let d := if open_ then d.hstEvent t 1 else d
  d.showParley t

/-- The PCIe link goes down at MONO t. -/
def Dev.pcieDown (t : Nat) (d : Dev) : Dev :=
  let up := d.flag F.HST_LINK_UP
  let d := (d.wr Reg.HST_LINK 0).pcieReset t
  if up then d.hstEvent t 1 else d

/-- PCIE_RESET: dt ns pass, and the function is reset, or the link goes down (R325, R329). -/
def execPcieReset (dt : Nat) (down : Bool) (s : State) : Host.Outcome State Fault Refusal :=
  s.event dt (if down then Dev.pcieDown else Dev.pcieReset)

/-- PCIE_LINK_UP: dt ns pass, and the link is up at a speed code on 1 or 2 lanes (R325, R339, R341). -/
def execPcieLinkUp (dt : Nat) (speed lanes : BitVec 2) (s : State) : Host.Outcome State Fault Refusal :=
  s.event dt (fun t d =>
    let was := d.flag F.HST_LINK_UP
    let d := d.wr Reg.HST_LINK (BitVec.ofNat 32 (1 + speed.toNat * 2 + lanes.toNat * 8))
    if was then d else d.hstEvent t 1)

/-! ## Privilege of register writes (R418, R419) -/

/-- R418: requester r may write the register at an offset, as far as its class goes. The operate set of class P2 is
R419; that a subscription or publication write changes EN alone is looked at where it is made. -/
def Dev.mayWrite (d : Dev) (r : Requester) (off : Nat) : Bool :=
  match r with
  | .core _ _ => true
  | .svc => true
  | .host => !(decide (0x70000 ≤ off) && decide (off < 0x71000))
  | .uart => d.accessOpen
  | .lan =>
    off == Reg.INT_RAISE || (decide (Reg.INT_PEND 0 ≤ off) && decide (off < Reg.INT_PEND 8)) || off == Reg.SWX_SUBCTL ||
      (decide (Reg.SWX_SUBDATA 0 ≤ off) && decide (off < Reg.SWX_SUBDATA 0 + 64)) || off == Reg.SWX_PUBCTL ||
      (decide (Reg.SWX_PUBDATA 0 ≤ off) && decide (off < Reg.SWX_PUBDATA 0 + 128)) ||
      (List.range 4).any (fun n => off == Reg.CAN_FCMD n) || off == Reg.HSB_CMD ||
      (off == Reg.XCH_CMD && d.mode == .remote)

/-- R418: requester r may read registers. -/
def Dev.mayRead (d : Dev) (r : Requester) : Bool :=
  match r with
  | .uart => d.accessOpen
  | _ => true

/-- R20, R21, R108: an access of the run in bank b of core c to an offset that no scan core may reach is a core fault:
CSR_UNMAPPED where no block assigns the offset, CSR_DENIED where its Ticks entry is "—". -/
def Dev.coreDenied (d : Dev) (c b off : Nat) : Dev :=
  match d.execRun c with
  | some r =>
    if r.bank = b then
      ((d.charge c r.task 1).coreFault c (if (csrTicks off).isNone then 5 else 6) 0 (d.bank c b).pc
        (BitVec.ofNat 32 (0x40000000 + off))).proceed c
    else d
  | none => d

/-- f done where requester r may write the register at an offset (R21, R418, R419). -/
def Dev.access (d : Dev) (r : Requester) (off : Nat) (f : Dev → Dev) : Dev :=
  match r, csrTicks off with
  | .core c b, none => d.coreDenied c b off
  | .core c b, some 0 => d.coreDenied c b off
  | _, _ => if d.mayWrite r off then f d else d

/-! ## The doorbell (R328) -/

/-- R328: mailbox m is rung at MONO t. -/
def Dev.ringOne (t m : Nat) (d : Dev) : Dev :=
  if d.bit Reg.HST_MBSTAT m then d.hstError t
  else { d.setBit Reg.HST_MBSTAT m true with host := { d.host with rung := d.host.rung ++ [m] } }

/-- R328: HST_DBELL is written with a mask at MONO t. -/
def Dev.ring (mask t : Nat) (d : Dev) : Dev := forN 4 (fun m d => if bitOf mask m then d.ringOne t m else d) d

/-- MAILBOX_RING: a write of HST_DBELL. -/
def execMailboxRing (r : Requester) (mask : BitVec 4) (s : State) : Host.Outcome State Fault Refusal :=
  s.upd (fun t d => d.access r Reg.HST_DBELL (Dev.ring mask.toNat t))

/-! ## Service of a command -/

/-- R396, R406: the runtime firmware serves commands. -/
def Dev.serves (d : Dev) : Bool :=
  (d.phase == .prep || d.phase == .check || d.phase == .ready) && !(d.flag F.SUP_STAT_SVCHALT)

/-- R328, R330: the mailbox that is served next; under major 2 only mailbox 0 is served. -/
def Dev.nextMailbox (d : Dev) : Option Nat :=
  d.host.rung.find? (fun m => m == 0 || !(d.flag F.HST_SESSION_OPEN && d.fld F.HST_SESSION_MAJ == 2))

/-- R421: the response that repeats the sender's last completed message. -/
def Dev.repeated (d : Dev) (ch : Channel) : Option (List Byte) :=
  match chSeq ch with
  | some q => (d.host.replies.find? (fun r => r.who == chWho ch && r.seq == q)).map (fun r => r.bytes)
  | none => none

/-- R329, R330, R418: the STATUS with which a command ends before it has any effect. allowed says that the class
permits it. -/
def Dev.refusal (d : Dev) (h : CmdHead) (cmd : Nat) (allowed : Bool) : Option Nat :=
  let major := (d.session h.ch).map (fun v => v / 2 ^ 8)
  if major.isNone && cmd != 1 && cmd != 2 then some 6
  else if cmd = 0x20 ∧ major = some 2 then some 1
  else if !allowed then some 2
  else if major = some 2 ∧ h.path.headD 0xFF ≠ 0xFF then some 7
  else none

/-- R418: P0 commands ask for open access. -/
def Dev.openFor (d : Dev) (ch : Channel) : Bool := chClass ch != 0 || d.accessOpen

/-- What a command answers at its end: a STATUS and response bytes; none when the response comes later. -/
abbrev Answer := Option (Nat × List Byte)

/-- R328: the mailbox of a served command leaves the queue. -/
def Dev.takeMailbox (d : Dev) (ch : Channel) : Dev :=
  match chMailbox ch with
  | some m => { d with host := { d.host with rung := d.host.rung.filter (· != m) } }
  | none => d

/-- R417, R329: a command that names a unit of another device. -/
def Dev.forwardCommand (h : CmdHead) (dest : ReplyTo) (t : Nat) (d : Dev) : Dev :=
  let w := (List.range 16).foldl (fun x k => x + h.path.getD k 0xFF % 256 * 2 ^ (8 * k)) 0
  let d := d.send t (.forwardCmd (BitVec.ofNat 128 w) dest.cmd (chClass h.ch))
  if 1 ≤ h.remote.err.toNat ∧ h.remote.err.toNat ≤ 3 then d.reply t dest 7 [] else d.reply t dest h.remote.status.toNat h.remote.bytes

/-- R329: a command whose work ends at MONO t with its effect f on unit u of this device. -/
def Dev.runCommand (dest : ReplyTo) (u : Nat) (f : ReplyTo → Nat → Nat → Dev → Dev × Answer) (t : Nat) (d : Dev) : Dev :=
  let x := f dest u t d
  match x.2 with
  | some (status, bytes) => x.1.reply t dest status bytes
  | none => x.1

/-- R327 to R330: the service of one command: code cmd, cost ticks, extra ns of an engine, and its effect f on the unit
that its path names. A command that no service core serves, or of a mailbox that is not next, has no effect. -/
def State.serve (s : State) (h : CmdHead) (cmd cost extra : Nat) (allowed : Bool)
    (f : ReplyTo → Nat → Nat → Dev → Dev × Answer) : Host.Outcome State Fault Refusal :=
  let d := s.dev
  let dest : ReplyTo := { ch := h.ch, cmd := cmd, tag := h.tag, cost := cost }
  if !d.serves || !chCarries h.ch then .next s
  else if (chMailbox h.ch).isSome && d.nextMailbox != chMailbox h.ch then .next s
  else match d.repeated h.ch with
    | some bytes => s.upd (fun t d => d.send t (.response h.ch bytes))
    | none =>
      let s := { s with dev := (d.eccCounted 4 0 h.corrected).takeMailbox h.ch }
      match d.refusal h cmd allowed with
      | some st => s.at (s.mono + cost) (fun t d => d.reply t dest st [])
      | none =>
        match d.resolve h.path with
        | .found u => s.at (s.mono + cost + extra) (Dev.runCommand dest u f)
        | .noChild _ => s.at (s.mono + cost) (fun t d => d.reply t dest 7 [])
        | .unreach _ => s.at (s.mono + cost) (fun t d => d.reply t dest 7 [])
        | .leaves _ =>
          let dest := { dest with cost := cost + h.remote.ns }
          s.at (s.mono + cost + h.remote.ns) (Dev.forwardCommand h dest)

/-! ## HELLO, IDENT and UNITREAD -/

/-- R329, R336, R421: HELLO at MONO t: the session of the channel opens or enters parley; a fifth LAN session of a pair
is refused. -/
def Dev.helloHost (ch : Channel) (range : Word) (t : Nat) (d : Dev) : Dev × Answer :=
  let full : Bool := match ch with
    | .lan cd src _ =>
      Nat.ble 4 (d.host.sessions.filter (fun x => match x.who with | some y => y.1 == cd && y.2 != src | none => false)).length
    | _ => false
  if full then (d, some (5, []))
  else
    let v := negotiate (d.rd (Reg.SYS_IFVER 0)) range
    (d.setSession t ch v, some (0, leBytes (match v with | some x => x.1 * 2 ^ 8 + x.2 | none => 0) 4))

/-- HELLO: the host's range (R329). -/
def execHello (h : CmdHead) (range : BitVec 32) (s : State) : Host.Outcome State Fault Refusal :=
  s.serve h 0x01 5000 0 true (fun _ _ t d => d.helloHost h.ch range t)

/-- IDENT: the addressed UCB, then SYS_IFVER[0] to SYS_IFVER[5] (R329). -/
def execIdent (h : CmdHead) (s : State) : Host.Outcome State Fault Refusal :=
  s.serve h 0x02 3000 0 true (fun _ u t d =>
    (d, some (0, wordBytes (d.ucb t u ++ (List.range 6).map (fun i => d.rd (Reg.SYS_IFVER i))))))

/-- UNITREAD: the UCB and the child table of the addressed unit (R329). -/
def execUnitread (h : CmdHead) (s : State) : Host.Outcome State Fault Refusal :=
  s.serve h 0x03 4000 0 (s.dev.openFor h.ch) (fun _ u t d => (d, some (0, wordBytes (d.ucb t u ++ d.childTableWords u))))

end Sys2Proof.Machine
end

