-- ==== Sys2Proof/Machine/Queues.lean ====
section
/-!
DEFINITION. Item queues (R319 to R324) and the interrupt controller (R331 to R335): what a write or a read of their
registers does.
-/
namespace Sys2Proof.Machine

/-! ## Configuration (R319) -/

/-- The depth in items that a word of QUE_CFG asks for; DEPTH 9 to 15 act as 8. -/
def depthOf (v : Word) : Nat := 16 * 2 ^ min 8 (bitsOf v.toNat 3 0)

/-- The depths of the enabled queues but q together. -/
def Dev.otherDepths (d : Dev) (q : Nat) : Nat :=
  ((List.range 32).map (fun k => if k != q && d.flag (F.QUE_CFG_EN k) then d.queueDepth k else 0)).sum

/-- R319: QUE_CFG[q] written by requester r. -/
def Dev.queueConfig (d : Dev) (r : Requester) (q : Nat) (v : Word) : Dev :=
  if q = 0 then d
  else if d.progOk r then
    let depth := if v.getLsbD 8 then depthOf v else 0
    let used := d.otherDepths q + depth
    if v.getLsbD 8 ∧ 16384 < used then d.setFld F.QUE_STAT_CAP 1
    else
      let d := (d.wr (Reg.QUE_CFG q) (v &&& 0x1FF)).wr (Reg.QUE_QLOST q) 0
      let d := { d with queues := { d.queues with pushes := d.queues.pushes.filter (fun x => x.queue != q) } }
      (d.setQueue q []).setFld F.QUE_STAT_USED used
  else d.setFld F.QUE_STAT_WPROT 1

/-- QUEUE_CONFIG: a write of QUE_CFG[q] (R319). -/
def execQueueConfig (r : Requester) (q : BitVec 5) (v : Word) (s : State) : Host.Outcome State Fault Refusal :=
  s.upd (fun _ d => d.access r (Reg.QUE_CFG q.toNat) (fun d => d.queueConfig r q.toNat v))

/-! ## Producers (R321, R135) -/

/-- R321: an item offered to queue q by a producer of a rank, for which the queue is open or not: refused, or pushed. -/
def Dev.offer (d : Dev) (rank q : Nat) (opened : Bool) (i : Item) : Dev :=
  if opened && d.flag (F.QUE_CFG_EN q) && i.type != 0 then d.queuePush rank q i else d.queueRefuse

/-- R323: the place of a requester in the order of service. -/
def pushRank : Requester → Nat
  | .core c _ => 1 + c
  | .svc => 9
  | .host => 10
  | _ => 11

/-- R321: the queue is open to this port. -/
def Dev.openToPort (d : Dev) (r : Requester) (q : Nat) : Bool :=
  match r with
  | .host => d.flag (F.QUE_CFG_HOSTP q)
  | .uart => d.flag (F.QUE_CFG_HOSTP q)
  | _ => false

/-- R321: QUE_QIN[q][w] written by requester r: words 1 to 3 are staged, word 0 offers the item. -/
def Dev.queueIn (d : Dev) (r : Requester) (q w : Nat) (v : Word) : Dev :=
  if w = 0 then
    d.offer (pushRank r) q (d.openToPort r q)
      { w0 := v, w1 := d.latched r (Reg.QUE_QIN q 1), w2 := d.latched r (Reg.QUE_QIN q 2),
        w3 := d.latched r (Reg.QUE_QIN q 3) }
  else d.setLatch r (Reg.QUE_QIN q w) v

/-- QUEUE_OFFER: a write of QUE_QIN[q] word 0 (R321). -/
def execQueueOffer (r : Requester) (q : BitVec 5) (v : Word) (s : State) : Host.Outcome State Fault Refusal :=
  s.upd (fun _ d => d.access r (Reg.QUE_QIN q.toNat 0) (fun d => d.queueIn r q.toNat 0 v))

/-! ## Consumers (R322) -/

/-- R322: requester r may consume from queue q. -/
def Dev.consumes (d : Dev) (r : Requester) (q : Nat) : Bool :=
  match r with
  | .core _ _ => d.flag (F.QUE_CFG_TASKC q)
  | .svc => true
  | _ => d.flag (F.QUE_CFG_HOSTC q)

/-- R322: a read of QUE_QITEM[q] word 0 by requester r. -/
def Dev.queuePop (d : Dev) (r : Requester) (q : Nat) : Dev × Word :=
  let take (d : Dev) (i : Item) : Dev × Word := (d.setLatches r (Reg.QUE_QITEM q 1) [i.w1, i.w2, i.w3], i.w0)
  if d.consumes r q then
    match d.queue q with
    | i :: rest =>
      let d := d.setQueue q rest
      take { d with queues := { d.queues with pops := q :: d.queues.pops } } i
    | [] => take d {}
  else take (d.setFld F.QUE_STAT_DENY 1) {}

/-- R322, R323: the number of items in queue q at the start of the fabric cycle, as QUE_QCOUNT[q] and QCOUNT give it. -/
def Dev.queueCount (d : Dev) (q : Nat) : Word :=
  BitVec.ofNat 32 ((d.queue q).length + (d.queues.pops.filter (· == q)).length)

/-- QUEUE_POP: a read of QUE_QITEM[q] word 0 (R322). -/
def execQueuePop (r : Requester) (q : BitVec 5) (s : State) : Host.Outcome State Fault Refusal :=
  s.upd (fun _ d => if d.mayRead r then let x := d.queuePop r q.toNat; { x.1 with readData := x.2 } else d)

/-! ## Interrupt controller (R331 to R334) -/

/-- R312: the sequence-of-events entry of program event i, with AUX a, where its bit of BIO_SOEPEV is set. -/
def Dev.programSoe (d : Dev) (t i a : Nat) : Dev :=
  if d.maskBit Reg.BIO_SOEPEV0 (i - 192) then d.soe t 3 i 1 a else d

/-- R331: INT_RAISE written: a source from 192 on with the key is raised. -/
def Dev.intRaise (d : Dev) (t src key : Nat) : Dev :=
  if 192 ≤ src ∧ key = 0x4E9B then (d.raise t src).programSoe t src 0xFF else d

/-- INT_RAISE: a write of INT_RAISE (R331). -/
def execIntRaise (r : Requester) (src : BitVec 8) (key : BitVec 16) (s : State) : Host.Outcome State Fault Refusal :=
  s.upd (fun t d => d.access r Reg.INT_RAISE (fun d => d.intRaise t src.toNat key.toNat))

/-- R331, R334: INT_PEND[j] written: each bit that is 1 clears its source. -/
def Dev.intPendClear (d : Dev) (j : Nat) (v : Word) : Dev :=
  forN 32 (fun i d => if v.getLsbD i then d.clearSrc (32 * j + i) else d) d

/-- INT_PEND_CLEAR: a write of INT_PEND[j] (R331, R334). -/
def execIntPendClear (r : Requester) (j : BitVec 3) (v : Word) (s : State) : Host.Outcome State Fault Refusal :=
  s.upd (fun _ d => d.access r (Reg.INT_PEND j.toNat) (fun d => d.intPendClear j.toNat v))

/-- R332: INT_EN[j] written: a bit that becomes set while its source is pending sends the message of the last raise,
unless that raise has had it. -/
def Dev.intEnWrite (d : Dev) (t j : Nat) (v : Word) : Dev :=
  let old := d.rd (Reg.INT_EN j)
  forN 32 (fun i d =>
    if v.getLsbD i && !(old.getLsbD i) && d.pendingSrc (32 * j + i) && !(d.msix.sent.getLsbD (32 * j + i)) then
      d.msixSend t (32 * j + i)
    else d) (d.wr (Reg.INT_EN j) v)

/-- INT_EN_WRITE: a write of INT_EN[j] (R332, R333). -/
def execIntEnWrite (r : Requester) (j : BitVec 3) (v : Word) (s : State) : Host.Outcome State Fault Refusal :=
  s.upd (fun t d => d.access r (Reg.INT_EN j.toNat) (fun d => d.intEnWrite t j.toNat v))

/-- R342: INT_SRCCFG[i] written by requester r: CLASS only in PROGRAM. -/
def Dev.srcCfgWrite (d : Dev) (r : Requester) (i : Nat) (v : Word) : Dev :=
  let d := if d.progOk r then d.setFld (F.INT_SRCCFG_CLASS i) (bitsOf v.toNat 1 0) else d
  (d.setFld (F.INT_SRCCFG_PINS i) (bitsOf v.toNat 15 8)).touch

/-- R332: vector i is unmasked; a message that waits is sent. -/
def Dev.unmask (d : Dev) (t i : Nat) : Dev :=
  let keep : BitVec 256 := ~~~(BitVec.twoPow 256 i)
  let waits := d.msix.pba.getLsbD i
  let d := { d with msix := { d.msix with mask := d.msix.mask &&& keep, pba := d.msix.pba &&& keep } }
  if waits then d.send t (.msix i) else d

/-- MSIX_UNMASK: the host unmasks a vector (R332). -/
def execMsixUnmask (vector : BitVec 8) (s : State) : Host.Outcome State Fault Refusal :=
  s.upd (fun t d => d.unmask t vector.toNat)

end Sys2Proof.Machine
end

