-- ==== Sys2Proof/Machine/Rtc.lean ====
section
/-!
DEFINITION. The backup domain (15_retained_storage_and_rtc.md): crystal pulses and trim (R380 to R382), calendar
(R377 to R379), alarm and periodic wake (R383, R384).
The crystal is taken to deliver 32,768 raw pulses in each second of MONO (assumption 15).
-/
namespace Sys2Proof.Machine

/-- Raw crystal pulses in a trim window. -/
def trimWindow : Nat := 2 ^ 23

/-- Pulses from 2000-01-01 to 2400-01-01 (R377). -/
def calPulses : Nat := 146097 * 86400 * 32768

/-! ## Pulses and trim -/

/-- RTC_TRIM as a signed number. -/
def Dev.trimReg (d : Dev) : Int :=
  let v := d.fld F.RTC_TRIM_T
  if v < 2048 then v else (v : Int) - 4096

/-- Raw pulses since VBK came up, at MONO t. -/
def Rtc.raw (k : Rtc) (t : Nat) : Nat := (k.frac + (t - k.t0) * 32768) / 1000000000

/-- R380: the record moved to the trim window of MONO t; reg is the trim that later windows take up. -/
def Rtc.sync (k : Rtc) (reg : Int) (t : Nat) : Rtc :=
  let w := k.raw t / trimWindow
  if w ≤ k.win then k
  else { k with
    win := w, trim := reg
    base := ((k.base : Int) + trimWindow + k.trim + ((w - k.win - 1 : Nat) : Int) * (trimWindow + reg)).toNat }

/-- R380: the corrections among the first pos raw pulses of a window with trim n. -/
def corrections (n pos : Nat) : Nat := (pos * n + trimWindow - 1) / trimWindow

/-- R380: trimmed pulses since VBK came up, at MONO t, for a record that stands in the window of t. -/
def Rtc.trimmed (k : Rtc) (t : Nat) : Nat :=
  let pos := k.raw t - k.win * trimWindow
  let c : Int := corrections k.trim.natAbs pos
  ((k.base : Int) + pos + (if 0 ≤ k.trim then c else -c)).toNat

/-- Trimmed pulses at MONO t. -/
def Dev.pulses (d : Dev) (t : Nat) : Nat := (d.rtc.sync d.trimReg t).trimmed t

/-- The first MONO from t on at which n trimmed pulses have been counted. -/
def Dev.whenPulses (d : Dev) (t n : Nat) : Nat := leastFrom (fun x => Nat.ble n (d.pulses x)) 58 t

/-! ## Calendar -/

/-- R377: Gregorian leap year. -/
def leapYear (y : Nat) : Bool := (y % 4 == 0 && y % 100 != 0) || y % 400 == 0

/-- Days of month m of year y. -/
def monthDays (y m : Nat) : Nat :=
  if m = 2 then 28 + b2n (leapYear y) else if m = 4 ∨ m = 6 ∨ m = 9 ∨ m = 11 then 30 else 31

/-- The date of a calendar second count since 2000: SEC, MIN, HOUR, DAY, MONTH, YEAR. -/
def calFields (s : Nat) : List Nat :=
  let day := s / 86400
  let y := yearOfDay (10957 + day) 4 (2000 + day / 366)
  let x := (List.range 12).foldl (fun (x : Nat × Nat) k =>
    if x.1 = k + 1 ∧ monthDays y (k + 1) ≤ x.2 then (k + 2, x.2 - monthDays y (k + 1)) else x)
    (1, 10957 + day - daysToYear y)
  [s % 60, s / 60 % 60, s / 3600 % 24, x.2 + 1, x.1, y]

/-- The second count since 2000 of a date. -/
def calSeconds (sec min hour day month year : Nat) : Nat :=
  let days := daysToYear year - 10957 + ((List.range (month - 1)).map (fun k => monthDays year (k + 1))).sum + day - 1
  days * 86400 + hour * 3600 + min * 60 + sec

/-- The offsets of RTC_SEC to RTC_YEAR. -/
def rtcDateRegs : List Nat :=
  [Reg.RTC_SEC, Reg.RTC_MIN, Reg.RTC_HOUR, Reg.RTC_DAY, Reg.RTC_MONTH, Reg.RTC_YEAR]

/-- The calendar stands (R379). -/
def Dev.halted (d : Dev) : Bool := d.flag F.RTC_CTL_HALT

/-- The calendar's pulses since 2000 at MONO t, while it runs. -/
def Dev.cal (d : Dev) (t : Nat) : Nat := (d.rtc.cal + (d.pulses t - d.rtc.calP)) % calPulses

/-- R379: the held count at MONO t. -/
def Dev.held (d : Dev) (t : Nat) : Nat :=
  match d.rtc.haltP with | some p => min 65536 (d.pulses t - p) | none => 0

/-- R378: RTC_SUBSEC to RTC_YEAR at MONO t. -/
def Dev.calWords (d : Dev) (t : Nat) : List Word :=
  if d.halted then d.rd Reg.RTC_SUBSEC :: rtcDateRegs.map d.rd
  else (d.cal t % 32768 :: calFields (d.cal t / 32768)).map (BitVec.ofNat 32 ·)

/-- A date as one number that orders as dates do. -/
def dateKey (f : List Nat) : Nat :=
  match f with
  | [sec, min, hour, day, month, year] =>
    ((((year * 16 + month) * 32 + day) * 32 + hour) * 64 + min) * 64 + sec
  | _ => 0

/-- The calendar's date at MONO t as an ordered number. -/
def Dev.calKey (d : Dev) (t : Nat) : Nat := dateKey (((d.calWords t).drop 1).map (·.toNat))

/-- The alarm's date as an ordered number. -/
def Dev.alarmKey (d : Dev) : Nat :=
  dateKey [d.fld F.RTC_ALM0_SEC, d.fld F.RTC_ALM0_MIN, d.fld F.RTC_ALM0_HOUR, d.fld F.RTC_ALM0_DAY,
    d.fld F.RTC_ALM1_MONTH, d.fld F.RTC_ALM1_YEAR]

/-- R377 to R380: what the passing of pulses up to MONO t has brought: trim windows, the rollover of the calendar, the
overflow of the held count. -/
def Dev.rtcSync (d : Dev) (t : Nat) : Dev :=
  let d := { d with rtc := d.rtc.sync d.trimReg t }
  let p := d.pulses t
  let d :=
    if !d.halted && Nat.ble calPulses (d.rtc.cal + (p - d.rtc.calP)) then
      { d.setFld F.RTC_STAT_VALID 0 with rtc := { d.rtc with cal := d.rtc.cal + (p - d.rtc.calP) - calPulses, calP := p } }
    else d
  match d.rtc.haltP with
  | some h =>
    if 65536 < p - h ∧ !d.rtc.heldOvf then ({ d with rtc := { d.rtc with heldOvf := true } }).rtcError t 2 else d
  | none => d

/-- TRIM_WINDOW: the next trim window starts, with the trim that RTC_TRIM holds. -/
def execTrimWindow (s : State) : Host.Outcome State Fault Refusal :=
  let k := s.dev.rtc
  let need := (k.raw s.mono / trimWindow + 1) * trimWindow * 1000000000 - k.frac
  s.at (k.t0 + (need + 32767) / 32768) (fun t d => d.rtcSync t)

/-- CALENDAR_ROLLOVER: the calendar passes the end of 2399. -/
def execCalendarRollover (s : State) : Host.Outcome State Fault Refusal :=
  let d := s.dev
  if d.halted then .next s
  else s.at (d.whenPulses s.mono (d.rtc.calP + (calPulses - d.rtc.cal))) (fun t d => d.rtcSync t)

/-! ## Freeze (R378) -/

/-- R378: the freeze of requester r at MONO t, if one is in progress. -/
def Dev.freeze (d : Dev) (r : Requester) : Option (Nat × List Word) :=
  Sparse.get (fun _ => none) d.rtc.freezes (reqId r)

/-- The freeze of requester r replaced. -/
def Dev.setFreeze (d : Dev) (r : Requester) (f : Option (Nat × List Word)) : Dev :=
  { d with rtc := { d.rtc with freezes := Sparse.set (fun _ => none) d.rtc.freezes (reqId r) f } }

/-- R378: a freeze of requester r that has lasted 1 ms ends. -/
def Dev.endFreeze (r : Requester) (t : Nat) (d : Dev) : Dev :=
  match d.freeze r with
  | some (t0, _) => if t0 + 1000000 ≤ t then (d.setFreeze r none).rtcError t 3 else d
  | none => d

/-- R378: requester r reads time register k (0 RTC_SUBSEC to 6 RTC_YEAR). -/
def Dev.readTime (d : Dev) (t : Nat) (r : Requester) (k : Nat) : Word × Dev :=
  let d := (d.endFreeze r t).rtcSync t
  let f := match d.freeze r with | some f => f | none => (t, d.calWords t)
  (f.2.getD k 0, d.setFreeze r (if k = 6 then none else some f))

/-- RTC_FREEZE_TIMEOUT: a requester's freeze has lasted 1 ms. -/
def execRtcFreezeTimeout (r : Requester) (s : State) : Host.Outcome State Fault Refusal :=
  match s.dev.freeze r with
  | some (t0, _) => s.at (t0 + 1000000) (Dev.endFreeze r)
  | none => .next s

/-! ## Setting the calendar (R379) -/

/-- R379: HALT becomes 1: the calendar stops and the held count starts from 0. -/
def Dev.haltRtc (d : Dev) (t : Nat) : Dev :=
  if d.halted then d
  else
    let d := d.rtcSync t
    let w := d.calWords t
    let d := ((Reg.RTC_SUBSEC :: rtcDateRegs).zip w).foldl (fun d x => d.wr x.1 x.2) d
    let d := (d.setFld F.RTC_CTL_HALT 1).setFld F.RTC_STAT_HALTED 1
    { d with rtc := { d.rtc with haltP := some (d.pulses t), heldOvf := false } }

/-- R379: the fields written form a valid date. -/
def Dev.dateValid (d : Dev) : Bool :=
  match rtcDateRegs.map (fun o => (d.rd o).toNat) with
  | [sec, min, hour, day, month, year] =>
    Nat.blt sec 60 && Nat.blt min 60 && Nat.blt hour 24 && Nat.ble 1 month && Nat.ble month 12 &&
      Nat.ble 2000 year && Nat.ble year 2399 && Nat.ble 1 day && Nat.ble day (monthDays year month)
  | _ => false

/-- The two words of a calendar date in the layout of RTC_ALM0 and RTC_ALM1, for the journal. -/
def dateWords (f : List Nat) : List Nat :=
  match f with
  | [sec, min, hour, day, month, year] =>
    [sec + min * 2 ^ 8 + hour * 2 ^ 16 + day * 2 ^ 24, month + year * 2 ^ 16]
  | _ => [0, 0]

/-- R383: an armed alarm fires at MONO t. -/
def Dev.fireAlarm (d : Dev) (t : Nat) (late : Bool) : Dev :=
  let d := ((d.setFld F.RTC_ALMCTL_ARM 0).setFld F.RTC_ALMCTL_FIRED 1)
  let d := if late then d.setFld F.RTC_ALMCTL_ALARM_LATE 1 else d
  d.rtcEvent t 0

/-- R379, R383: HALT becomes 0 by a write of port class cls: the calendar adds the held count and runs on, or stays
halted when the date is not valid. -/
def Dev.runRtc (d : Dev) (t cls : Nat) : Dev :=
  if !d.halted then d
  else
    let d := d.rtcSync t
    if !d.dateValid then d.rtcError t 1
    else
      let f := rtcDateRegs.map (fun o => (d.rd o).toNat)
      let held := d.held t
      let p := d.pulses t
      let old := d.rtc.cal + ((match d.rtc.haltP with | some h => h | none => p) - d.rtc.calP)
      let sec := match f with | [s, mi, h, da, mo, y] => calSeconds s mi h da mo y | _ => 0
      let new := sec * 32768 + (d.rd Reg.RTC_SUBSEC).toNat + held
      let d := (d.setFld F.RTC_CTL_HALT 0).setFld F.RTC_STAT_HALTED 0
      let d := { d with rtc := { d.rtc with haltP := none, heldOvf := false, cal := new % calPulses, calP := p } }
      let d := d.setFld F.RTC_STAT_VALID (b2n (Nat.blt new calPulses))
      let d := d.journal t 7 cls 1 (dateWords (calFields (old % calPulses / 32768)) ++
        dateWords (calFields (new % calPulses / 32768)))
      if d.flag F.RTC_ALMCTL_ARM ∧ d.alarmKey ≤ d.calKey t then d.fireAlarm t true else d

/-- R379: a write of time register k (0 RTC_SUBSEC to 6 RTC_YEAR). -/
def Dev.writeTime (d : Dev) (t k : Nat) (v : Word) : Dev :=
  if !d.halted then d.rtcError t 0
  else
    let d := d.rtcSync t
    if k = 0 then
      let d := d.wr Reg.RTC_SUBSEC (v &&& 0x7FFF)
      { d with rtc := { d.rtc with haltP := some (d.pulses t), heldOvf := false } }
    else
      let width := [0, 6, 6, 5, 5, 4, 16].getD k 0
      d.wr (rtcDateRegs.getD (k - 1) 0) (BitVec.ofNat 32 (v.toNat % 2 ^ width))

/-! ## Measurement (R381) -/

/-- R381: MEASGO at MONO t: the window begins at the next whole second of station time. -/
def Dev.measureStart (d : Dev) (t : Nat) : Dev :=
  let from_ := (d.station t / 1000000000 + 1) * 1000000000
  let win := max 64 (min 65536 (d.fld F.RTC_MEASWIN_SEC))
  ({ d with rtc := { d.rtc with meas := some { from_ := from_, dest := from_ + win * 1000000000 } } }).setFld F.RTC_STAT_MEAS 1

/-- R381: the window opens; a time quality code above 1 fails the measurement. -/
def Dev.measureOpen (t : Nat) (d : Dev) : Dev :=
  match d.rtc.meas with
  | some m =>
    let d := { d with rtc := { d.rtc with meas := some { m with opened := true } } }
    if 1 < d.tq t then d.measureFail t else d
  | none => d

/-- RTC_MEASURE_WINDOW_OPEN: station time reaches the second at which the window begins. -/
def execRtcMeasureWindowOpen (s : State) : Host.Outcome State Fault Refusal :=
  match s.dev.rtc.meas with
  | some m => if m.opened then .next s else s.at (s.dev.whenStation s.mono m.from_) Dev.measureOpen
  | none => .next s

/-- R381: the window ends with n raw pulses counted. -/
def Dev.measureEnd (n t : Nat) (d : Dev) : Dev :=
  match d.rtc.meas with
  | some m =>
    if 1 < d.tq t then d.measureFail t
    else
      let n0 := 32768 * ((m.dest - m.from_) / 1000000000)
      let ppb := saturate (rheDiv (((n : Int) - n0) * 1000000000) n0) 32
      let prop := if n = 0 then maxOf 12 + 1 else rheDiv (8388608 * ((n0 : Int) - n)) n
      let d := (d.wr Reg.RTC_MEASPPB (ofInt32 ppb)).wr Reg.RTC_TRIMPROP
        (BitVec.ofNat 32 ((saturate prop 12) % 4096).toNat)
      let d := if inField prop 12 then d else d.rtcError t 6
      let d := { d with rtc := { d.rtc with meas := none } }
      ((d.setFld F.RTC_STAT_MEAS 0).setFld F.RTC_STAT_PROPVALID 1).rtcEvent t 2
  | none => d

/-- RTC_MEASURE_END: the measurement window ends with n raw crystal pulses counted. -/
def execRtcMeasureEnd (n : Nat) (s : State) : Host.Outcome State Fault Refusal :=
  match s.dev.rtc.meas with
  | some m => if m.opened then s.at (s.dev.whenStation s.mono m.dest) (Dev.measureEnd n) else .next s
  | none => .next s

/-- R373, R380: RTC_TRIM takes a value; it acts from the next trim window on. -/
def Dev.setTrim (d : Dev) (t cls v : Nat) : Dev :=
  let d := d.rtcSync t
  let old := d.fld F.RTC_TRIM_T
  (d.setFld F.RTC_TRIM_T v).journal t 7 cls 3 [old, 0, v % 4096, 0]

/-- R381: APPLY copies a valid proposal into RTC_TRIM. -/
def Dev.trimApply (d : Dev) (t cls : Nat) : Dev :=
  if d.flag F.RTC_STAT_PROPVALID then d.setTrim t cls (d.fld F.RTC_TRIMPROP_T) else d

/-- R379, R381: a write of RTC_CTL. -/
def Dev.rtcCtl (d : Dev) (t cls : Nat) (v : Word) : Dev :=
  let d := if v.getLsbD 0 then d.haltRtc t else d.runRtc t cls
  let d := if v.getLsbD 9 then d.measureFail t else d
  let d := if v.getLsbD 8 then d.measureStart t else d
  if v.getLsbD 16 then d.trimApply t cls else d

/-! ## Alarm and periodic wake -/

/-- R383: a write of RTC_ALMCTL.ARM and of the W1C bits beside it. -/
def Dev.alarmCtl (d : Dev) (t : Nat) (v : Word) : Dev :=
  let d := d.wr Reg.RTC_ALMCTL (d.rd Reg.RTC_ALMCTL &&& ~~~(v &&& 6))
  if v.getLsbD 0 then
    if d.alarmKey ≤ d.calKey t then (d.setFld F.RTC_ALMCTL_ARM 0).rtcError t 4 else d.setFld F.RTC_ALMCTL_ARM 1
  else d.setFld F.RTC_ALMCTL_ARM 0

/-- R383: the calendar rolls into the alarm's second. -/
def Dev.alarm (t : Nat) (d : Dev) : Dev :=
  let d := d.rtcSync t
  if d.flag F.RTC_ALMCTL_ARM ∧ !d.halted ∧ d.alarmKey ≤ d.calKey t then d.fireAlarm t false else d

/-- R383: MONO at which the calendar rolls into the alarm's second. -/
def Dev.alarmDue (d : Dev) (t : Nat) : Nat :=
  let s := calSeconds (d.fld F.RTC_ALM0_SEC) (d.fld F.RTC_ALM0_MIN) (d.fld F.RTC_ALM0_HOUR) (d.fld F.RTC_ALM0_DAY)
    (d.fld F.RTC_ALM1_MONTH) (d.fld F.RTC_ALM1_YEAR)
  d.whenPulses t (d.rtc.calP + (s * 32768 - d.rtc.cal))

/-- RTC_ALARM: the calendar rolls into the second of an armed alarm. -/
def execRtcAlarm (s : State) : Host.Outcome State Fault Refusal :=
  if s.dev.flag F.RTC_ALMCTL_ARM ∧ !s.dev.halted then s.at (s.dev.alarmDue s.mono) Dev.alarm else .next s

/-- R384: a write of RTC_WAKEPER restarts the count. -/
def Dev.setWake (d : Dev) (t : Nat) (v : Word) : Dev :=
  let per := v.toNat % 2 ^ 25
  let d := d.wr Reg.RTC_WAKEPER (BitVec.ofNat 32 per)
  { d with rtc := { d.rtc with wakeP := if per = 0 then none else some (d.pulses t + 128 * per) } }

/-- R384: the periodic wakes that fall up to MONO t are counted, and source 177 is raised. -/
def Dev.wake (t : Nat) (d : Dev) : Dev :=
  match d.rtc.wakeP with
  | some p =>
    let now := d.pulses t
    let step := 128 * d.fld F.RTC_WAKEPER_PER
    if p ≤ now ∧ step ≠ 0 then
      let n := (now - p) / step + 1
      let d := d.wr Reg.RTC_WAKECNT (d.rd Reg.RTC_WAKECNT + BitVec.ofNat 32 n)
      ({ d with rtc := { d.rtc with wakeP := some (p + n * step) } }).rtcEvent t 1
    else d
  | none => d

/-- RTC_WAKE: a periodic wake. -/
def execRtcWake (s : State) : Host.Outcome State Fault Refusal :=
  match s.dev.rtc.wakeP with
  | some p => s.at (s.dev.whenPulses s.mono p) Dev.wake
  | none => .next s

/-! ## Collapse of VBK and rebasing -/

/-- R375: backup registers at their reset values, the calendar at 2000-01-01, trim windows from this instant. -/
def Dev.vbkCollapse (t : Nat) (d : Dev) : Dev :=
  let offs := [Reg.RTC_STAT, Reg.RTC_SUBSEC] ++ rtcDateRegs ++ [Reg.RTC_ALM0, Reg.RTC_ALM1, Reg.RTC_ALMCTL, Reg.RTC_WAKEPER,
    Reg.RTC_WAKECNT, Reg.RTC_TRIM, Reg.SUP_RSTCNT, Reg.SUP_CAUSECNT0, Reg.SUP_CAUSECNT1, Reg.SUP_LGSEQ, Reg.WDT_RSTCOUNT] ++
    (List.range 32).map Reg.RTC_BRAM
  let d := offs.foldl (fun d o => d.wr o (resetWordAt o)) d
  let d := d.setFld F.RTC_CTL_HALT 0
  { d with rtc := { t0 := t } }

/-- The backup domain's counts restated so that MONO new stands where MONO old stood. -/
def Dev.rtcRebase (d : Dev) (old new : Nat) : Dev :=
  { d with rtc := { d.rtc with frac := d.rtc.frac + (old - d.rtc.t0) * 32768, t0 := new } }

end Sys2Proof.Machine
end

