-- ==== Sys2Proof/Machine/Tap.lean ====
section
/-!
DEFINITION. The test access port of JTAG (R416, R428, R430, R459, R467).
-/
namespace Sys2Proof.Machine

/-- R428: access for JTAG is open: FIELD_LOCK is intact, or a window runs. -/
def Dev.tapOpen (d : Dev) : Bool := !(d.flag F.SEC_STAT_FIELDLOCK) || d.sec.winEnd.isSome

/-- R467: what IDCODE returns. -/
def tapIdcode : Word := 0x9060B04D

/-- R430, R467: the instruction is executed while access is closed. -/
def tapAlways : TapInstr → Bool
  | .idcode => true
  | .bypass => true
  | _ => false

/-- The test access port takes a new state at MONO t. With EXTEST the boundary cells drive the BO pads; when EXTEST ends,
the pads take the levels of the device again. -/
def Dev.tapDrive (d : Dev) (t : Nat) (k : Tap) : Dev :=
  let was := d.tap.ir == .extest
  let d := { d with tap := k }
  if k.ir = .extest then d.send t (.pads k.cells) else if was then d.send t (.pads d.boState) else d

/-- R430: access has closed at MONO t: an instruction that is not available any more becomes BYPASS. -/
def Dev.tapClose (d : Dev) (t : Nat) : Dev :=
  if d.tapOpen || tapAlways d.tap.ir then d else d.tapDrive t { d.tap with ir := .bypass }

/-- The words of a bit pattern, the lowest first. -/
def patternWords (v n : Nat) : List Word := (List.range n).map (fun k => BitVec.ofNat 32 (v / 2 ^ (32 * k)))

/-- R467: the levels that SAMPLE captures: the BI pins, the BRB pins and the BO pads. -/
def Dev.tapLevels (d : Dev) : List Word :=
  let bo := if d.tap.ir = .extest then d.tap.cells else d.boState
  patternWords d.io.biPin.toNat 3 ++ patternWords d.io.brbPin.toNat 1 ++ patternWords bo.toNat 2

/-- R467: a data register scan at MONO t with the instruction in effect; BYPASS shifts out the 0 that it captures. -/
def Dev.tapShift (bo : BitVec 64) (t : Nat) (d : Dev) : Dev :=
  match d.tap.ir with
  | .idcode => d.send t (.tapData [tapIdcode])
  | .bypass => d.send t (.tapData [0])
  | .sample => (d.send t (.tapData d.tapLevels)).tapDrive t { d.tap with cells := bo }
  | .extest => (d.send t (.tapData d.tapLevels)).tapDrive t { d.tap with cells := bo }

/-- R459, R467: a scan at MONO t. In deep sleep the port is unpowered; in device reset it is operational. -/
def Dev.tapScan (x : TapScan) (t : Nat) (d : Dev) : Dev :=
  if d.phase = .off ∨ d.phase = .sleep then d
  else
    match x with
    | .reset => d.tapDrive t { d.tap with ir := .idcode }
    | .ir i => d.tapDrive t { d.tap with ir := if d.tapOpen || tapAlways i then i else .bypass }
    | .dr bo => d.tapShift bo t

end Sys2Proof.Machine
end

