-- ==== Sys2Proof/Machine/Power.lean ====
section
/-!
DEFINITION. Supply, supervision and watchdogs (16_supervision_and_power.md): telemetry and hold-up, the last-gasp set,
device reset and its release, deep sleep and warm resume, the system watchdog.
-/
namespace Sys2Proof.Machine

/-! ## Events of the always-on domain -/

/-- f acts at MONO t in every phase; what follows in a device that is awake follows. -/
def Dev.doAlways (d : Dev) (t : Nat) (f : Nat → Dev → Dev) : Dev :=
  if d.awake then d.doAwake t f else f t d

/-- An event of the world dt ns on, in every phase. -/
def State.world (s : State) (dt : Nat) (f : Nat → Dev → Dev) : Host.Outcome State Fault Refusal :=
  .next { s with mono := s.mono + dt, dev := s.dev.doAlways (s.mono + dt) f }

/-- An event at an instant that the always-on domain fixes, in every phase. -/
def State.worldAt (s : State) (due : Nat) (f : Nat → Dev → Dev) : Host.Outcome State Fault Refusal :=
  .next { s with mono := max s.mono due, dev := s.dev.doAlways (max s.mono due) f }

/-- R412: bit k of SUP_EVT, and source 144 + k while the device domain runs. -/
def Dev.supEvent (d : Dev) (t k : Nat) : Dev :=
  if d.awake then d.raiseFlag t (144 + k) Reg.SUP_EVT k else d.setBit Reg.SUP_EVT k true

/-- The always-on domain is supplied. -/
def Dev.powered (d : Dev) : Bool := d.phase != .off

/-- The power record changed by f. -/
def Dev.modPower (d : Dev) (f : Power → Power) : Dev := { d with power := f d.power }

/-- HOLD_EN asserted or released. -/
def Dev.setHold (d : Dev) (t : Nat) (b : Bool) : Dev :=
  if d.flag F.PMU_STAT_HOLDEN = b then d else (d.setFld F.PMU_STAT_HOLDEN (b2n b)).send t (.holdEn b)

/-- FAULT_N asserted or released (R401, R404). -/
def Dev.setFaultN (d : Dev) (t : Nat) (b : Bool) : Dev :=
  if d.flag F.SUP_STAT_FAULTN = b then d else (d.setFld F.SUP_STAT_FAULTN (b2n b)).send t (.faultN b)

/-- PMU_STAT.STATE. -/
def Dev.pmuState (d : Dev) : Nat := d.fld F.PMU_STAT_STATE

/-! ## Rails and telemetry (R388 to R391) -/

/-- R414: PMU_STAT.PGOOD and RAILFLT of rail r. -/
def Dev.setRail (d : Dev) (r : Nat) (out : Bool) : Dev :=
  (d.setBit Reg.PMU_STAT (10 + r) out).setBit Reg.PMU_STAT (4 + r) (!out)

/-- R388: rail r is supplied; in deep sleep only VIO33 keeps its voltage. -/
def Dev.railOn (d : Dev) (r : Nat) : Bool := d.powered && (d.phase != .sleep || r == 5)

/-- R390: rail r leaves or re-enters its window. VCORE leaves its window by VCORE_OUT_OF_RANGE, and raises no source when
it returns. -/
def Dev.railFault (r : Nat) (out : Bool) (t : Nat) (d : Dev) : Dev :=
  if 1 ≤ r ∧ r ≤ 5 ∧ d.railOn r ∧ d.bit Reg.PMU_STAT (10 + r) ≠ out then
    let d := d.setRail r out
    (if out then d.incFld F.PMU_RAILCNT_FLT else d).supEvent t 2
  else if r = 0 ∧ !out ∧ d.railOn 0 then d.setRail 0 false
  else d

/-- RAIL_FAULT: dt ns pass, and rail r has been outside its window for 2 µs, or is back in it (R390). -/
def execRailFault (dt : Nat) (r : BitVec 3) (out : Bool) (s : State) : Host.Outcome State Fault Refusal :=
  s.world dt (Dev.railFault r.toNat out)

/-- TEMP_LIMIT: dt ns pass, and a die sensor crosses PMU_TEMPLIM (R390). -/
def execTempLimit (dt : Nat) (s : State) : Host.Outcome State Fault Refusal :=
  s.world dt (fun t d => if d.powered then d.supEvent t 3 else d)

/-- A 16-bit reading is above another, both signed. -/
def above16 (a b : Nat) : Bool := decide ((BitVec.ofNat 16 b).toInt < (BitVec.ofNat 16 a).toInt)

/-- R391: one sample of every rail, of VIN and of the four sensors; a value that the lists lack reads 0. -/
def Dev.telemetry (vin : Nat) (volts curs temps : List (BitVec 16)) (t : Nat) (d : Dev) : Dev :=
  if d.powered then
    let d := (d.setFld F.PMU_VIN_VIN vin).setFld F.PMU_VIN_MIN (min vin (d.fld F.PMU_VIN_MIN))
    let d := forN 6 (fun r d => d.wr (Reg.PMU_TEL r)
      (BitVec.ofNat 32 ((volts.getD r 0).toNat + (curs.getD r 0).toNat * 2 ^ 16))) d
    let d := forN 4 (fun k d =>
      let x := (temps.getD k 0).toNat
      let d := d.setFld (F.PMU_TEMP_TEMP k) x
      if above16 x (d.fld (F.PMU_TEMP_MAX k)) then d.setFld (F.PMU_TEMP_MAX k) x else d) d
    d.modPower (fun p => { p with sampleDue := t + 10000 })
  else d

/-- TELEMETRY_SAMPLE: the next sample, 10 µs after the last one, or after the end of the VIN wait (R391). -/
def execTelemetrySample (vin : BitVec 16) (volts curs temps : List (BitVec 16)) (s : State) :
    Host.Outcome State Fault Refusal :=
  s.worldAt s.dev.power.sampleDue (Dev.telemetry vin.toNat volts curs temps)

/-! ## Hold-up (R392, R393) -/

/-- R414: PMU_HOLDCFG.RIDE and WARN in ns. -/
def Dev.rideNs (d : Dev) : Nat := max 1 (min 1000 (d.fld F.PMU_HOLDCFG_RIDE)) * 1000000
def Dev.warnNs (d : Dev) : Nat := d.fld F.PMU_HOLDCFG_WARN * 1000000

/-- R392: VIN has been below VFAIL for 2 µs at MONO t. -/
def Dev.vinFail (t : Nat) (d : Dev) : Dev :=
  if d.powered ∧ d.pmuState = 1 then
    let d := ((d.setHold t true).setFld F.PMU_STAT_STATE 2).incFld F.PMU_HOLDCNT_HOLDUPS
    (d.modPower (fun p => { p with rideEnd := some (t + d.rideNs), warned := false })).supEvent t 0
  else d

/-- VIN_FAIL: dt ns pass, and VIN has stayed below VFAIL for 2 µs (R392). -/
def execVinFail (dt : Nat) (s : State) : Host.Outcome State Fault Refusal := s.world dt Dev.vinFail

/-- R392: deep sleep entry is near. -/
def Dev.holdupWarn (t : Nat) (d : Dev) : Dev :=
  if d.powered ∧ d.pmuState = 2 ∧ !d.power.warned then (d.modPower (fun p => { p with warned := true })).supEvent t 4 else d

/-- HOLDUP_WARN: WARN ms of the ride-through remain; or, after dt ns, VIN falls below VSLEEP + 500 mV (R392). -/
def execHoldupWarn (vin : Option Nat) (s : State) : Host.Outcome State Fault Refusal :=
  match vin, s.dev.power.rideEnd with
  | some dt, _ => s.world dt Dev.holdupWarn
  | none, some e => s.worldAt (e - s.dev.warnNs) Dev.holdupWarn
  | none, none => .next s

/-- R393: VIN has been back for 10 ms during HOLDUP. -/
def Dev.vinRestore (t : Nat) (d : Dev) : Dev :=
  if d.powered ∧ d.pmuState = 2 then
    ((d.setHold t false).setFld F.PMU_STAT_STATE 1).modPower (fun p => { p with rideEnd := none }) |>.supEvent t 1
  else d

/-- VIN_RESTORE: dt ns pass, and VIN has stayed above VFAIL + HYST for 10 ms (R393). -/
def execVinRestore (dt : Nat) (s : State) : Host.Outcome State Fault Refusal := s.world dt Dev.vinRestore

/-! ## Watchdog (R407 to R409) -/

/-- WDT_CNT at MONO t. -/
def Dev.wdtCnt (d : Dev) (t : Nat) : Nat :=
  match d.power.wdtFrom with | some f => (t - f) / 1000 % 2 ^ 24 | none => d.power.wdtHeld

/-- An event of the watchdog: source 152 + k and its flag. -/
def Dev.wdtEvent (d : Dev) (t k : Nat) : Dev := d.raiseFlag t (152 + k) Reg.WDT_STAT (8 + k)

/-- R407: WDT_CFG is written with v at MONO t. -/
def Dev.wdtConfig (v : Word) (t : Nat) (d : Dev) : Dev :=
  let close := bitsOf v.toNat 29 16
  if d.flag F.WDT_STAT_EN ∨ close < 1 ∨ 16000 < close ∨ close < bitsOf v.toNat 13 0 then d.wdtEvent t 3
  else
    ((d.wr Reg.WDT_CFG (v &&& 0x7FFF3FFF)).setFld F.WDT_STAT_EN 1).modPower (fun p => { p with wdtFrom := some t })

/-! ## Device reset -/

/-- R15, R375, R426, R451: the registers that a device reset leaves: SUP, PMU and RTC, WDT_RSTCOUNT, and the fuses of SEC. -/
def keptOffset (off : Nat) : Bool :=
  (decide (0x1000 ≤ off) && decide (off < 0x2000)) || (decide (0x3000 ≤ off) && decide (off < 0x4000)) ||
    (decide (0x61000 ≤ off) && decide (off < 0x62000)) || off == Reg.WDT_RSTCOUNT ||
    (decide (0x70000 ≤ off) && decide (off < 0x70001)) || (decide (0x70100 ≤ off) && decide (off < 0x70200))

/-- R15: the device domain is reset: memories and registers at their reset state, pads low. NVS, the always-on and the
backup domain, fuses, flash and the levels at the pins stay; the sessions of R442 stay, blocks in flight are lost. -/
def Dev.fresh (d : Dev) (t : Nat) (p : Phase) : Dev :=
  let keep : Dev :=
    { phase := p, csr := d.csr.filter (fun x => keptOffset x.1), mem := { nvs := d.mem.nvs }, keyPin := d.keyPin,
      nvs := { interrupted := d.nvs.interrupted }, rtc := { d.rtc with freezes := [], meas := none },
      io := { biPin := d.io.biPin, brbPin := d.io.brbPin },
      power := { d.power with wdtFrom := none, wdtHeld := 0 },
      sec := { drawn := d.sec.drawn, wasOpen := d.sec.winEnd.isSome || d.sec.wasOpen },
      xch := { lost := d.xst == 3 || d.xst == 4 || d.xch.lost },
      flash := { comps := d.flash.comps.map (fun c => (c.1, { c.2 with winEnd := none, revertAt := none })),
                 oldDir := d.flash.oldDir, companions := d.flash.companions },
      tap := if p = .off then {} else d.tap, readData := d.readData, outbox := (d.ppsStop t).outbox, freeNo := d.freeNo }
  let keep := ((keep.wr Reg.SEC_STAT (keep.rd Reg.SEC_STAT &&& 0xFFF)).setFld F.SUP_STAT_SVCHALT 0).setFld F.SUP_STAT_MONOEST 0
  let keep := keep.setFld F.RTC_STAT_MEAS 0
  let keep := if d.flag F.SWX_PHYCTL_RSTREL then keep.send t (.phyReset false) else keep
  let keep := if d.boState = 0 || keep.tap.ir == .extest then keep else keep.send t (.pads 0)
  keep.tapClose t

/-- R399: the counters of a cause. -/
def Dev.countCause (d : Dev) (cause : Nat) : Dev :=
  let d := if cause = 0 then d else d.incSat Reg.SUP_RSTCNT
  match cause with
  | 1 => d.incFld F.SUP_CAUSECNT0_RESETN
  | 2 => d.incFld F.SUP_CAUSECNT0_SYSRST
  | 3 => (d.incFld F.SUP_CAUSECNT0_WDT).incSat Reg.WDT_RSTCOUNT
  | 4 => d.incFld F.SUP_CAUSECNT0_CLK
  | 5 => d.incFld F.SUP_CAUSECNT1_VCORE
  | 6 => d.incFld F.SUP_CAUSECNT1_CODEECC
  | 7 => d.incFld F.SUP_CAUSECNT1_FSAFE
  | _ => d

/-- R403: the words 0 to 14 of the last-gasp record. -/
def Dev.gaspWords (d : Dev) (t cause mask : Nat) : List Nat :=
  let hot := (List.range 4).foldl (fun x k => if above16 (d.fld (F.PMU_TEMP_TEMP k)) x then d.fld (F.PMU_TEMP_TEMP k) else x)
    (d.fld (F.PMU_TEMP_TEMP 0))
  let sec := d.station t / 1000000000
  let mask8 (p : Nat → Bool) : Nat := (List.range 8).foldl (fun m c => m + b2n (p c) * 2 ^ c) 0
  [0x4C47 + cause * 2 ^ 16 + mask * 2 ^ 24, ((d.rd Reg.SUP_LGSEQ).toNat + 1) % 2 ^ 32, t, t / 2 ^ 32, (d.tnsWord t).toNat,
   sec, sec / 2 ^ 32, (d.rd Reg.SYS_MODE).toNat, d.roleWord, d.fld F.PMU_VIN_VIN + d.fld (F.PMU_TEL_VOLT 0) * 2 ^ 16, hot,
   d.wdtCnt t, (d.queue 0).length,
   mask8 (fun c => !(d.core c).runs.isEmpty) + mask8 (fun c => d.tasksState (d.coreTasks c) == 6) * 2 ^ 8, 0]

/-- R403: SUP writes the record through its own port, the CRC word last. -/
def Dev.gaspRecord (d : Dev) (t cause mask : Nat) : Dev :=
  let seq := d.rd Reg.SUP_LGSEQ + 1
  let body := (d.gaspWords t cause mask).flatMap (fun w => leBytes w 4)
  let l := body ++ leBytes (crc32c body).toNat 4
  { d.wr Reg.SUP_LGSEQ seq with
    mem := { d.mem with nvs := Memory.wrBytes d.mem.nvs (0xA0000 + 64 * (seq.toNat % 4)) l } }

/-- R399, R401: the set for a cause at MONO t, as one step: safe pads, the lease, the NVS word, for a supervisor trigger
the record and FAULT_N, the counters, and device reset. -/
def Dev.resetSet (cause also : Nat) (t : Nat) (d : Dev) : Dev :=
  let trigger := Nat.ble 3 cause
  let mask := (BitVec.ofNat 8 also ||| BitVec.twoPow 8 cause).toNat
  let d := ({ d with outs := { d.outs with forced := true } }).touchOuts
  let d := (((d.dropLease t).settleOuts t).flushPads (t + 1000)).nvsComplete t
  let d := if trigger then ((d.servePushes.setFld F.QUE_STAT_FROZEN 1).gaspRecord t cause mask).setFaultN t true else d
  let d := d.countCause cause
  let d := d.wr Reg.SUP_RSTCAUSE (BitVec.ofNat 32 (cause + mask * 2 ^ 8 + b2n trigger * 2 ^ 16))
  let low := d.power.resetLow || d.power.safeLow
  (d.fresh t .reset).modPower (fun p => { p with
    setEnd := t + 10000, releaseFrom := if low then none else some (t + 1000000) })

/-- R402: the lowest of the causes in a mask of triggers together with one cause. -/
def lowestCause (cause also : Nat) : Nat :=
  match (List.range 8).find? (fun c => Nat.ble 3 c && (c == cause || bitOf also c)) with
  | some c => c
  | none => cause

/-- R395, R399 to R402: a supervisor trigger at MONO t, with the causes detected in the same supervisor clock. -/
def Dev.trigger (cause also : Nat) (t : Nat) (d : Dev) : Dev :=
  let all := (BitVec.ofNat 8 (also / 8 * 8) ||| BitVec.twoPow 8 cause).toNat
  let d := if bitOf all 5 ∧ d.railOn 0 then d.setRail 0 true else d
  if d.awake then d.resetSet (lowestCause cause also) all t
  else if d.phase = .reset ∧ t ≤ d.power.setEnd then
    d.setFld F.SUP_RSTCAUSE_MASK (BitVec.ofNat 8 (d.fld F.SUP_RSTCAUSE_MASK) ||| BitVec.ofNat 8 all).toNat
  else d

/-- MAIN_CLOCK_LOSS: dt ns pass, and SUP detects the loss, with the triggers of a mask in the same clock (R400). -/
def execMainClockLoss (dt : Nat) (also : BitVec 8) (s : State) : Host.Outcome State Fault Refusal :=
  s.world dt (Dev.trigger 4 also.toNat)

/-- VCORE_OUT_OF_RANGE: dt ns pass, and VCORE has been outside its window for 2 µs (R400). -/
def execVcoreOutOfRange (dt : Nat) (also : BitVec 8) (s : State) : Host.Outcome State Fault Refusal :=
  s.world dt (Dev.trigger 5 also.toNat)

/-- CODE_ECC_DOUBLE_ERROR: dt ns pass, and a code fetch of a core meets a double-bit error (R11, R400). -/
def execCodeEccDoubleError (dt : Nat) (core : BitVec 3) (s : State) : Host.Outcome State Fault Refusal :=
  s.world dt (fun t d => if (d.core core.toNat).runs.isEmpty && d.awake then d else d.trigger 6 0 t)

/-- R395: retention ends: the memories are lost, and VIN makes a cold start when it returns, with a cause. -/
def Dev.endRetention (cause : Option Nat) (t : Nat) (d : Dev) : Dev :=
  ((d.fresh t .off).setHold t false).modPower (fun p => { p with
    rideEnd := none, releaseFrom := none, retryAt := none, nextCause := cause })

/-- R395, R399: RESET_N has been low for 1 µs at MONO t. -/
def Dev.resetLow (t : Nat) (d : Dev) : Dev :=
  let d := d.modPower (fun p => { p with resetLow := true })
  if d.awake then d.resetSet 1 0 t
  else if d.phase = .reset then d.modPower (fun p => { p with releaseFrom := none })
  else if d.phase = .sleep then (d.countCause 1).endRetention (some 1) t
  else d

/-- RESET_N: dt ns pass, and RESET_N has been low for 1 µs. -/
def execResetN (dt : Nat) (s : State) : Host.Outcome State Fault Refusal := s.world dt Dev.resetLow

/-- R395, R399: FORCE_SAFE_N has been low for 1 µs at MONO t, with the triggers of a mask in the same clock. -/
def Dev.safeLow (also : Nat) (t : Nat) (d : Dev) : Dev :=
  let d := (d.modPower (fun p => { p with safeLow := true })).setFld F.SUP_STAT_FSAFE 1
  if d.awake then d.trigger 7 also t
  else if d.phase = .reset then (d.trigger 7 also t).modPower (fun p => { p with releaseFrom := none })
  else if d.phase = .sleep then ((d.setFaultN t true).countCause 7).endRetention (some 7) t
  else d

/-- FORCE_SAFE_N: dt ns pass, and FORCE_SAFE_N has been low for 1 µs. -/
def execForceSafeN (dt : Nat) (also : BitVec 8) (s : State) : Host.Outcome State Fault Refusal :=
  s.world dt (Dev.safeLow also.toNat)

/-- R399, R483: RESET_N or FORCE_SAFE_N is released at MONO t; the 1 ms counts once neither is low. -/
def Dev.pinRelease (fsafe : Bool) (t : Nat) (d : Dev) : Dev :=
  let d := d.modPower (fun p => if fsafe then { p with safeLow := false } else { p with resetLow := false })
  let d := if fsafe then d.setFld F.SUP_STAT_FSAFE 0 else d
  if d.phase = .reset ∧ !d.power.resetLow ∧ !d.power.safeLow ∧ d.power.releaseFrom.isNone then
    d.modPower (fun p => { p with releaseFrom := some (t + 1000000) })
  else d

/-- RESET_PIN_RELEASE: dt ns pass, and FORCE_SAFE_N (fsafe) or RESET_N goes high. -/
def execResetPinRelease (dt : Nat) (fsafe : Bool) (s : State) : Host.Outcome State Fault Refusal :=
  s.world dt (Dev.pinRelease fsafe)

/-! ## Release of device reset (R13, R34, R391, R413, R483) -/

/-- R483: device reset is released with the levels of the strap pins (SYS_STRAPS); old is the instant of the release on
the clock that ends, and MONO is 0 from here. -/
def Dev.release (straps : Nat) (old : Nat) (d : Dev) : Dev :=
  let d := { d.rtcRebase old 0 with phase := .rom }
  let d := { d with mem := { d.mem with inCur := bootStations, inNext := bootStations, stand := bootHeaders } }
  let d := ((d.wr Reg.SYS_STRAPS (BitVec.ofNat 32 (straps % 32))).wr Reg.CLK_STAT 0x3F).wr Reg.CLK_RCMEAS 32000
  let d := forN 4 (fun k d => d.setFld (F.PMU_TEMP_MAX k) (d.fld (F.PMU_TEMP_TEMP k))) d
  let d := d.modPower (fun p => { p with
    releaseFrom := none, setEnd := 0, sampleDue := p.sampleDue - old, rideEnd := p.rideEnd.map (fun e => e - old) })
  let closed := d.flag F.SEC_STAT_FIELDLOCK
  let d := (d.setFld F.SEC_STAT_OPEN (b2n (!closed))).setFld F.SEC_STAT_OPENBY (b2n (!closed))
  let d := d.startNv.adoptAllRaw.soe 0 15 0 1 0
  let d := d.setFld F.SYS_MODE_KEY d.keyPin.toNat
  match Mode.ofKey d.keyPin.toNat with
  | some m => (d.setFld F.SYS_MODE_MODE m.code).touch
  | none =>
    (((d.setFld F.SYS_MODE_MODE 2).setFld F.SYS_MODE_KEYBAD 1).setFld F.SYS_MODE_KEYBADCNT 1).supEvent 0 6 |>.touch

/-- DEVICE_RESET_RELEASE: at the earliest instant of R483, and lock ns on until REFCLK is present and the PLL locked,
device reset is released. -/
def execDeviceResetRelease (lock : Nat) (straps : BitVec 5) (s : State) : Host.Outcome State Fault Refusal :=
  match s.dev.power.releaseFrom with
  | some e =>
    if s.dev.phase = .reset then
      .next { s with mono := 0, dev := (s.dev.release straps.toNat (max s.mono (e + lock))).settle }
    else .next s
  | none => .next s

/-! ## Cold start (R389) -/

/-- R389: the rails are sequenced from MONO t on: in us µs they are all in range, or one misses its window. -/
def Dev.sequence (fail : Bool) (us : Nat) (t : Nat) (d : Dev) : Dev :=
  let e := t + us * 1000
  if fail then (d.incFld F.PMU_RAILCNT_SEQFAIL).modPower (fun p => { p with retryAt := some (e + 100000000) })
  else
    let cause := match d.power.nextCause with | some c => c | none => 0
    let d := (d.setFld F.PMU_SEQTIME_US us).wr Reg.SUP_RSTCAUSE (BitVec.ofNat 32 (cause + 2 ^ (8 + cause)))
    let low := d.power.resetLow || d.power.safeLow
    ({ d with phase := .reset }).modPower (fun p => { p with
      retryAt := none, nextCause := none, before := .ready, releaseFrom := if low then none else some e })

/-- R15: the always-on domain starts: SUP and PMU at their reset values but for what the backup domain holds. -/
def Dev.alwaysOnReset (d : Dev) : Dev :=
  let backup := [Reg.SUP_RSTCNT, Reg.SUP_CAUSECNT0, Reg.SUP_CAUSECNT1, Reg.SUP_LGSEQ]
  let d := { d with csr := d.csr.filter (fun x =>
    !((decide (0x1000 ≤ x.1) && decide (x.1 < 0x2000) && !(backup.contains x.1)) ||
      (decide (0x3000 ≤ x.1) && decide (x.1 < 0x4000)))) }
  d.setFld F.SUP_STAT_FSAFE (b2n d.power.safeLow)

/-- R389, R404: VIN returns at MONO t: a cold start, at which FAULT_N is released, or the boot of a pin that ended
retention (R395), for which the always-on domain has kept its state. -/
def Dev.powerUp (fail : Bool) (us : Nat) (t : Nat) (d : Dev) : Dev :=
  let cold := d.power.nextCause.isNone
  let d := if cold then (d.setFaultN t false).alwaysOnReset else d
  ((d.setFld F.PMU_STAT_STATE 1).modPower (fun p => { p with sampleDue := t + 10000 })).sequence fail us t

/-- COLD_START: dt ns pass, and VIN has stayed above 9.0 V for 1 ms; the sequence takes us µs or fails then. -/
def execColdStart (dt : Nat) (fail : Bool) (us : Nat) (s : State) : Host.Outcome State Fault Refusal :=
  s.world dt (fun t d => if d.phase = .off ∧ d.power.retryAt.isNone then d.powerUp fail us t else d)

/-- RAIL_SEQUENCE_RETRY: 100 ms after a failed sequence the PMU tries again. -/
def execRailSequenceRetry (fail : Bool) (us : Nat) (s : State) : Host.Outcome State Fault Refusal :=
  match s.dev.power.retryAt with
  | some e => s.worldAt e (fun t d => if d.phase = .off then d.sequence fail us t else d)
  | none => .next s

/-! ## Deep sleep (R394, R395, R482) -/

/-- R394, R398: the network engine stops, or restarts (R16): links down, nothing remembered or queued. -/
def Dev.netStop (d : Dev) (t : Nat) : Dev :=
  let d := forN 4 (fun p d => Dev.setSgmii p false t d) d
  let d := (d.setRing t false false).setRing t true false
  let d := forN 32 (fun k d => d.setLaunchQ (k / 8) (k % 8) []) d
  { d.setFld F.SWX_MDIO_BUSY 0 with net := { d.net with
      tokens := [], counted := [], seen := [], ownSeen := [], twoStep := [], mdioEnd := none, txSeq := [], proxies := [],
      rsvUsed := [], held := [] } }.showNodes

/-- R15: registers of the network engine whose state is not its own: the PHYs, the gate of the pair, and station time. -/
def outsideNet (off : Nat) : Bool :=
  off == Reg.SWX_PHYCTL || off == Reg.SWX_STAT || off == Reg.PTP_STAT || off == Reg.PTP_UTC || off == Reg.PTP_STEPCNT ||
    off == Reg.PTP_LASTSTEP || off == Reg.PTP_IRIGSTAT || [0, 1, 2, 3].any (fun p => off == Reg.ETH_STAT p)

/-- R15: the status and counters of the network engine take their reset values; its settings, which the runtime firmware
writes again from the configuration set, stay as they are (assumption 62). -/
def Dev.netFresh (d : Dev) : Dev :=
  let l := d.csr.filter (fun p => decide (0x30000 ≤ p.1) && decide (p.1 < 0x36000) && !outsideNet p.1)
  let d := l.foldl (fun d p =>
    let m := settingMask p.1
    d.wr p.1 ((p.2 &&& m) ||| (resetWordAt p.1 &&& ~~~m))) d
  let d := forN 4 (fun p d => d.setFld (F.ETH_STAT_FLAGS p) 0) d
  ({ d with mem := { d.mem with store := [] } }.setFld F.SWX_STAT_FLAGS 0).setFld F.PTP_IRIGSTAT_ERRCNT 0

/-- R15: the subscriptions and publications start afresh at MONO t, as when their entries are written. -/
def Dev.restartTables (d : Dev) (t : Nat) : Dev :=
  let d := ((d.net.subWords.map (fun p => p.1 / 16)).eraseDups).foldl (fun d i =>
    let d := forN 3 (fun k d => d.setSubWord i (9 + k) 0) d
    let d := d.modSub i (fun _ => { tokens := bitsOf (d.subWord i 7) 23 16 * 1000000000, counted := t })
    d.setSubState t i (b2n (bitOf (d.subWord i 0) 0))) d
  let d := ((d.net.pubWords.map (fun p => p.1 / 32)).eraseDups).foldl (fun d e =>
    let d := forN 4 (fun k d => d.setPubWord e (28 + k) 0) d
    let on := bitOf (d.pubWord e 0) 0
    d.modPub e (fun _ => { next := if on && Nat.blt e 64 then some t else none, sent := d.io.tlCount })) d
  d.showPubs

/-- R59, R410: the releases of task n end with deep sleep; it is released again after resume. -/
def Dev.sleepTask (n : Nat) (d : Dev) : Dev :=
  if (d.task n).live then
    let d := d.modTask n (fun k => { k with ready := none, pend := none, held := none, catchup := [], arrivals := [] })
    ((d.showPend n).discardWindow n).setSt n 1
  else d

/-- R59, R394: runs end without commit, waiting commits are withdrawn, and mode changes that waited for the runs go on. -/
def Dev.sleepCores (d : Dev) (t : Nat) : Dev :=
  let running := (List.range 8).flatMap (fun c => (d.core c).runs.map (fun r => r.task))
  let d := forN 8 (fun c d => (d.abandonCore c 1).withdrawCommits c) d
  let d := running.foldl (fun d n => d.boundaryPassed t n) d
  forN 64 Dev.sleepTask d

/-- R394: the steps of the entry at MONO t in a device that is awake. -/
def Dev.sleepAwake (t : Nat) (d : Dev) : Dev :=
  let d := (({ d with outs := { d.outs with forced := true } }).dropLease t).touchOuts
  let d := ((d.settleOuts t).flushPads (t + 1000)).sleepCores t
  let d := (d.stopPlane t).servePushes
  let d := { d with io := { d.io with sleepL := biLevels d } }
  let d := (((d.canSleep t).netStop t).ppsStop t).pcieDown t
  let d := if d.flag F.SWX_PHYCTL_RSTREL then d.send t (.phyReset false) else d
  ((d.pathAbandon t).xchDisarm).nvsComplete t
where
  /-- L of the 96 inputs. -/
  biLevels (d : Dev) : BitVec 96 :=
    BitVec.ofNat 96 ((d.rd Reg.BIO_BI0).toNat + (d.rd Reg.BIO_BI1).toNat * 2 ^ 32 + (d.rd Reg.BIO_BI2).toNat * 2 ^ 64)

/-- R394, R482: deep sleep entry from MONO t on; cap is the instant of the next calendar pulse, at which SUP captures
MONO and the watchdog pauses. -/
def Dev.sleepEntry (t cap : Nat) (d : Dev) : Dev :=
  let before := d.phase
  let d := d.tapDrive t {}
  let d := if d.awake then (d.sleepAwake t).settle else d
  let wdt := d.wdtCnt cap
  let d := (d.setFld F.PMU_STAT_STATE 3).setHold t true
  let d := if d.power.wdtFrom.isSome then d.setFld F.WDT_STAT_PAUSED 1 else d
  ({ d with phase := .sleep }).modPower (fun p => { p with
    before := before, rideEnd := none, entryMono := cap, entryPulses := d.pulses cap,
    wdtHeld := if p.wdtFrom.isSome then wdt else p.wdtHeld, wdtFrom := none })

/-- The entry made, and MONO moved on to the capture. -/
def State.sleep (s : State) (t : Nat) : Host.Outcome State Fault Refusal :=
  if s.dev.powered ∧ s.dev.pmuState = 2 then
    let cap := s.dev.whenPulses t (s.dev.pulses t + 1)
    .next { s with mono := cap, dev := s.dev.sleepEntry t cap }
  else .next { s with mono := t }

/-- DEEP_SLEEP_ENTRY: the ride-through ends; or, after dt ns, VIN falls below VSLEEP (R392, R394). -/
def execDeepSleepEntry (vin : Option Nat) (s : State) : Host.Outcome State Fault Refusal :=
  match vin, s.dev.power.rideEnd with
  | some dt, _ => s.sleep (s.mono + dt)
  | none, some e => s.sleep (max s.mono e)
  | none, none => .next s

/-- RETENTION_END: dt ns pass in deep sleep, and VIN falls below VRET (R395). -/
def execRetentionEnd (dt : Nat) (s : State) : Host.Outcome State Fault Refusal :=
  s.world dt (fun t d => if d.phase = .sleep then d.endRetention none t else d)

/-! ## Warm resume (R396 to R398, R480) -/

/-- R313: the entries of the resume at MONO t. -/
def Dev.resumeEntries (d : Dev) (t : Nat) : Dev :=
  let d := d.soe t 15 2 1 0
  forN 96 (fun n d =>
    let v := d.biLevel n
    if v != d.io.sleepL.getLsbD n && d.biSoe n v then d.soeAt (d.station t) (d.tq t) 1 n (b2n v) 0 1 else d) d

/-- R398: the registers and blocks that a warm resume at MONO t sets anew; old is the MONO of the capture at entry, and
new the MONO loaded. -/
def Dev.resumeBlocks (d : Dev) (old new t : Nat) : Dev :=
  let d := { d with outs := { d.outs with forced := false } }.touchOuts
  let d := { d with time := { d.time with base := (d.stRebase old).time.base + (new - old), t0 := new, slew := d.stSlewLeft old } }
  let d := if d.time.usable then { d with time := { d.time with usable := false, usableAt := old } } else d
  let d := if d.flag F.SUP_STAT_MONOEST then { d with time := { d.time with bound := none } } else d
  let d := (d.restartServos t).resumeAngle t
  let d := forN 8 (fun j d => d.wr (Reg.ADC_THRBIT j) 0) d
  let d := forN 24 (fun c d => d.wr (Reg.ADC_RMS c) 0) d
  let d := { d with io := { d.io with window := [], comparators := d.io.comparators.map (fun (x : Nat × Comparator) => (x.1, { x.2 with count := 0 })),
                                       evaluated := false, sets := [] } }
  let d := ((d.setFld F.ADC_STAT_REFOK 0).setFld F.ADC_STAT_SELFTEST 0).setFld F.NVS_STAT_READY 0
  let d := { d with mem := { d.mem with gens := t / 1000 } }
  let d := if d.flag F.SWX_PHYCTL_RSTREL then d.send t (.phyReset true) else d
  let d := (((((d.canResume t).retrainPorts t).join t).staleAll).rejoinStand t).settlePorts t
  (d.adoptAllRaw).resumeEntries t

/-- R396: the cores are released at MONO t: every task that was being released is released from its first point on, and
what fell into the sleep is raised. -/
def Dev.resumeTasks (d : Dev) (t : Nat) : Dev :=
  let d := forN 8 (fun c d => d.setCore c { d.core c with time := t }) d
  let d := forN 64 (fun n d => if (d.task n).live then d.startTask t n true else d) d
  let d := (Dev.wake t d).rtcSync t
  let d := if d.flag F.RTC_ALMCTL_ARM ∧ !d.halted ∧ d.alarmKey ≤ d.calKey t then d.fireAlarm t true else d
  let d := { d with plane := { d.plane with modeAt := t } }
  (d.supEvent t 1).touch

/-- R396, R397: the MONO loaded at the pulse of the resume, p pulses after the entry. -/
def monoLoaded (entry p : Nat) : Nat := entry + p * 1000000000 / 32768

/-- R396 to R398, R482: warm resume; at is the instant of the release on the clock of the sleep. -/
def State.resume (s : State) (at_ us : Nat) (est : Option Nat) : Host.Outcome State Fault Refusal :=
  let d := s.dev
  let k := d.power
  let real := d.pulses at_ - k.entryPulses
  let p := match est with | some n => n | none => real
  let pulse := match est with | some _ => at_ | none => d.whenPulses k.entryMono (k.entryPulses + real)
  let loaded := monoLoaded k.entryMono p
  let t := loaded + (at_ - pulse)
  let d := ((d.rtcRebase at_ t).setHold at_ false).wr Reg.SUP_SLEEPDUR (BitVec.ofNat 32 p)
  let d := ((d.incWrap Reg.SUP_SLEEPCNT).setFld F.PMU_SEQTIME_US us).setFld F.PMU_STAT_STATE 1
  let d := if est.isSome then d.setFld F.SUP_STAT_MONOEST 1 else d
  let d := { d with phase := k.before }
  let d := d.modPower (fun p => { p with sampleDue := t + (p.sampleDue - at_) })
  if k.before = .reset then
    let low := k.resetLow || k.safeLow
    .next { s with mono := t, dev := d.modPower (fun p => { p with releaseFrom := if low then none else some t }) }
  else
    let paused := d.flag F.WDT_STAT_PAUSED
    let d := if paused then (d.setFld F.WDT_STAT_PAUSED 0).modPower (fun p => { p with wdtFrom := some (t - p.wdtHeld * 1000) })
      else d
    let d := (d.resumeBlocks k.entryMono loaded t).resumeTasks t
    .next { s with mono := t, dev := (d.settleOuts t).settle }

/-- WARM_RESUME: dt ns pass in deep sleep, VIN is confirmed, and us µs later the cores are released. est is the count of
the supervisor oscillator, in pulses of the calendar, when that has delivered no pulse (R397). -/
def execWarmResume (dt us : Nat) (est : Option Nat) (s : State) : Host.Outcome State Fault Refusal :=
  if s.dev.phase = .sleep then s.resume (s.mono + dt + us * 1000) us est else s.world dt (fun _ d => d)

/-! ## FAULT_N, the service core and the collapse of VBK -/

/-- R404: SUP_CTL is written with FAULTCLR and its key. -/
def Dev.faultClear (key : Nat) (t : Nat) (d : Dev) : Dev := if key = 0x3C96 then d.setFaultN t false else d

/-- FAULT_CLEAR: a write of SUP_CTL with FAULTCLR = 1. -/
def execFaultClear (r : Requester) (key : BitVec 16) (s : State) : Host.Outcome State Fault Refusal :=
  s.upd (fun t d => d.access r Reg.SUP_CTL (fun d => d.faultClear key.toNat t))

/-- SERVICE_CORE_HALT: dt ns pass, and a double-bit error or an exception halts the service core (R406). -/
def execServiceCoreHalt (dt : Nat) (s : State) : Host.Outcome State Fault Refusal :=
  s.event dt (fun t d => if d.flag F.SUP_STAT_SVCHALT then d else (d.setFld F.SUP_STAT_SVCHALT 1).supEvent t 7)

/-- R375: without VIN and VBAT the backup domain is reset, and nothing holds the cause of a pin that ended retention. -/
def Dev.backupLost (t : Nat) (d : Dev) : Dev :=
  if d.phase = .off then (d.vbkCollapse t).modPower (fun p => { p with nextCause := none }) else d

/-- VBK_COLLAPSE: dt ns pass without VIN and VBAT (R375). -/
def execVbkCollapse (dt : Nat) (s : State) : Host.Outcome State Fault Refusal := s.world dt Dev.backupLost

/-! ## Watchdog commands -/

/-- WDT_CONFIG: a write of WDT_CFG. -/
def execWdtConfig (r : Requester) (v : BitVec 32) (s : State) : Host.Outcome State Fault Refusal :=
  s.upd (fun t d => d.access r Reg.WDT_CFG (fun d => d.wdtConfig v t))

/-- R408: a service of the watchdog at MONO t. -/
def Dev.wdtServe (key : Nat) (t : Nat) (d : Dev) : Dev :=
  if key ≠ 0xA5C3 ∨ !(d.flag F.WDT_STAT_EN) then d
  else if d.wdtCnt t < d.fld F.WDT_CFG_WIN_OPEN * 1000 then
    let d := (d.incFld F.WDT_EARLY_COUNT).wdtEvent t 0
    if d.flag F.WDT_CFG_EARLYRST then d.trigger 3 0 t else d
  else if d.wdtCnt t ≤ d.fld F.WDT_CFG_WIN_CLOSE * 1000 then
    (d.setFld F.WDT_STAT_STAGE2 0).modPower (fun p => { p with wdtFrom := some t })
  else d

/-- WDT_SERVE: a write of WDT_SERVE. -/
def execWdtServe (r : Requester) (key : BitVec 16) (s : State) : Host.Outcome State Fault Refusal :=
  s.upd (fun t d => d.access r Reg.WDT_SERVE (fun d => d.wdtServe key.toNat t))

/-- R409: the watchdog expires at MONO t. -/
def Dev.wdtExpiry (t : Nat) (d : Dev) : Dev :=
  if d.wdtCnt t ≤ d.fld F.WDT_CFG_WIN_CLOSE * 1000 then d
  else if d.flag F.WDT_STAT_STAGE2 then d.trigger 3 0 t
  else ((d.setFld F.WDT_STAT_STAGE2 1).modPower (fun p => { p with wdtFrom := some t })).wdtEvent t 0

/-- WDT_EXPIRY: WDT_CNT passes WIN_CLOSE × 1,000. -/
def execWdtExpiry (s : State) : Host.Outcome State Fault Refusal :=
  match s.dev.power.wdtFrom with
  | some f => s.at (f + (s.dev.fld F.WDT_CFG_WIN_CLOSE * 1000 + 1) * 1000) Dev.wdtExpiry
  | none => .next s

/-! ## SYS_RESET (R16, R35) -/

/-- R418: the request comes from the host port in RUN or REMOTE. -/
def Dev.hostRunning (d : Dev) (r : Requester) : Bool := r == .host && d.mode.runs

/-- R35: a SYS_RESET request that is refused, or accepted. -/
def Dev.resetAnswer (d : Dev) (refused : Bool) : Dev := d.setBit Reg.SYS_RESET 15 refused

/-- R35: SYS_RESET with KIND 1. -/
def Dev.deviceReset (r : Requester) (t : Nat) (d : Dev) : Dev :=
  if d.hostRunning r then d.resetAnswer true else d.resetSet 2 0 t

/-- R15, R16, R479: SYS_RESET with KIND 2, and the restart that the activation of NETFW makes. -/
def Dev.netRestart (t : Nat) (d : Dev) : Dev :=
  (((((d.resetAnswer false).netFresh).netStop t).restartTables t).restartServos t).settlePorts t

/-- R16, R35: tasks run, and no change to STOP or PROGRAM waits for the runs that are still in progress. -/
def Dev.staysRunning (d : Dev) : Bool :=
  d.mode.runs && (match d.modeChange with | some m => m.target.runs | none => true)

/-- R16: SYS_RESET with KIND 3 for core c: none of its tasks is released until the program is started again. -/
def Dev.coreRestart (c : Nat) (t : Nat) (d : Dev) : Dev :=
  if d.staysRunning then d.resetAnswer true
  else
    let d := d.resetAnswer false
    let running := (d.core c).runs.map (fun r => r.task)
    let d := (d.abandonCore c 6).withdrawCommits c
    let d := (d.coreTasks c).foldl (fun d n => (d.clearReleases n).setSt n (if d.st n = 5 then 5 else 6)) d
    let d := d.setCore c { time := (d.core c).time }
    let d := { d with mem := { d.mem with shadow := d.mem.shadow.filter (fun x => x.1 / 0x40000 != c) } }
    (running.foldl (fun d n => d.boundaryPassed t n) d).touch

/-- R35: a write of SYS_RESET with its KIND, CORE and KEY. -/
def Dev.sysReset (r : Requester) (kind core key : Nat) (t : Nat) (d : Dev) : Dev :=
  d.access r Reg.SYS_RESET (fun d =>
    if key ≠ 0xD1A5 then d
    else if kind = 1 then d.deviceReset r t
    else if kind = 2 then d.netRestart t
    else if kind = 3 then d.coreRestart core t
    else d)

/-- DEVICE_RESET: SYS_RESET with KIND 1. -/
def execDeviceReset (r : Requester) (key : BitVec 16) (s : State) : Host.Outcome State Fault Refusal :=
  s.upd (Dev.sysReset r 1 0 key.toNat)

/-- NETWORK_ENGINE_RESTART: SYS_RESET with KIND 2. -/
def execNetworkEngineRestart (r : Requester) (key : BitVec 16) (s : State) : Host.Outcome State Fault Refusal :=
  s.upd (Dev.sysReset r 2 0 key.toNat)

/-- SCAN_CORE_RESTART: SYS_RESET with KIND 3 and CORE. -/
def execScanCoreRestart (r : Requester) (key : BitVec 16) (core : BitVec 3) (s : State) :
    Host.Outcome State Fault Refusal := s.upd (Dev.sysReset r 3 core.toNat key.toNat)

end Sys2Proof.Machine
end

