-- ==== Sys2Proof/Machine/Sec.lean ====
section
/-!
DEFINITION. Access and identity (R426 to R433, R450, R451): keys, the field lock, challenges, passwords, the access
window and attestation. Each is a block of the command UPDATE.
-/
namespace Sys2Proof.Machine

/-! ## Keys -/

/-- The bytes of a hash, the first one first. -/
def hashBytes (h : BitVec 256) : List Byte := leBytes h.toNat 32

/-- The unit identity, SYS_UID0 first. -/
def Dev.uidBytes (d : Dev) : List Byte :=
  wordBytes [d.rd Reg.SYS_UID0, d.rd Reg.SYS_UID1, d.rd Reg.SYS_UID2, d.rd Reg.SYS_UID3]

/-- The hash in owner slot s. -/
def Dev.slotHash (d : Dev) (s : Nat) : List Byte := wordBytes ((List.range 8).map (fun w => d.rd (Reg.SEC_KEYHASH s w)))

/-- R426: an owner key is valid while its slot is written and not revoked. -/
def Dev.slotValid (d : Dev) (s : Nat) : Bool := bitOf (d.fld F.SEC_STAT_SLOTSET) s && !bitOf (d.fld F.SEC_STAT_SLOTREV) s

/-- An owner slot other than s is valid. -/
def Dev.otherSlotValid (d : Dev) (s : Nat) : Bool := (List.range 4).any (fun k => k != s && d.slotValid k)

/-- R450: event source 180 + k and its bit of SEC_EVT. -/
def Dev.secEvent (d : Dev) (t k : Nat) : Dev := d.raiseFlag t (180 + k) Reg.SEC_EVT k

/-- The SEC record changed by f. -/
def Dev.modSec (d : Dev) (f : Sec → Sec) : Dev := { d with sec := f d.sec }

/-! ## Records of the runtime firmware (R445) -/

/-- R445: the RID under which the runtime firmware reads and writes a record: the companion while an update that
converted it is not confirmed. -/
def Dev.ownRid (d : Dev) (rid : Nat) : Nat := if d.flash.companions.contains rid then rid ^^^ 0x8000 else rid

/-- The payload of a record as the runtime firmware reads it. -/
def Dev.ownPayload (d : Dev) (rid : Nat) : List Byte := d.recordPayload (d.ownRid rid)

/-- A system record that the runtime firmware writes. -/
def Dev.ownRecord (d : Dev) (t rid fmt : Nat) (payload : List Byte) : Dev := d.systemRecord t (d.ownRid rid) fmt payload

/-- R432: k, from record 0xFF02. -/
def Dev.pwdFails (d : Dev) : Nat := leNat ((d.ownPayload 0xFF02).take 4)

/-- R432: the password hash, from record 0xFF03; empty when no password is set. -/
def Dev.pwdHash (d : Dev) : List Byte := d.ownPayload 0xFF03

/-- R432: the delay after k failures in seconds. -/
def pwdDelay (k : Nat) : Nat := if k = 0 then 0 else if 13 ≤ k then 4096 else 2 ^ (k - 1)

/-- R432: MONO before which a password is not checked. -/
def Dev.pwdFrom (d : Dev) : Nat := d.sec.lastFail + pwdDelay d.pwdFails * 1000000000

/-! ## The access window (R428, R433) -/

/-- R428, R451: OPEN and OPENBY follow the fuse and the window. -/
def Dev.showOpen (d : Dev) : Dev :=
  let window := d.sec.winEnd.isSome
  let fuse := d.flag F.SEC_STAT_FIELDLOCK
  let by_ := if !fuse then 1 else if window then d.sec.by_ else 0
  (d.setFld F.SEC_STAT_OPEN (b2n (!fuse || window))).setFld F.SEC_STAT_OPENBY by_

/-- R451: SEC_WINCFG in minutes, within its range. -/
def Dev.secMinutes (d : Dev) : Nat := max 1 (min 1440 (d.fld F.SEC_WINCFG_MIN))

/-- R431 to R433: an unlock by a signature (2) or a password (3) succeeds at MONO t; a window that runs restarts. -/
def Dev.openWindow (d : Dev) (t cls by_ slot : Nat) : Dev :=
  let was := d.sec.winEnd.isSome
  let min := d.secMinutes
  let d := (d.modSec (fun s => { s with winEnd := some (t + min * 60000000000), by_ := by_ })).showOpen
  if was then d else (d.secEvent t 0).journal t 5 cls by_ [slot, min]

/-- R433: the window closes at MONO t, by RELOCK (4) or by expiry (5). -/
def Dev.closeAccess (d : Dev) (t cls detail : Nat) : Dev :=
  if d.sec.winEnd.isSome then
    ((((d.modSec (fun s => { s with winEnd := none })).showOpen).tapClose t).secEvent t 0).journal t 5 cls detail []
  else d

/-- R431, R432: an unlock fails: 0 signature, 1 password. -/
def Dev.unlockFails (d : Dev) (t cls kind : Nat) : Dev :=
  ((d.incFld F.SEC_AUTHCNT_UNLOCKFAIL).secEvent t 1).journal t 5 cls 6 [kind]

/-- SEC_WINLEFT at MONO t. -/
def Dev.secLeft (d : Dev) (t : Nat) : Nat := match d.sec.winEnd with | some e => (e - t) / 1000000000 | none => 0

/-- SEC_PWD at MONO t: k, and the seconds before the next attempt, rounded up. -/
def Dev.pwdWord (d : Dev) (t : Nat) : Word :=
  BitVec.ofNat 32 (min 255 d.pwdFails + (d.pwdFrom - t + 999999999) / 1000000000 * 2 ^ 16)

/-- SEC_STAT as it reads: PWDSET follows the record. -/
def Dev.secStat (d : Dev) : Word := putBits (d.rd Reg.SEC_STAT) 12 12 (b2n (!d.pwdHash.isEmpty))

/-! ## Blocks of UPDATE (R422 to R425) -/

/-- R422, R329: the cost of a block whose data has n bytes. -/
def blockCost (n : Nat) : Nat := 4000 + 3 * (8 + n)

/-- R424: the SEC engine signs an attestation. -/
def Dev.secBusy (d : Dev) : Bool := d.sec.signing.isSome

/-- R430: RELOCK from P0 while access is closed is denied; P1 and P2 may send it. -/
def Dev.relockAllowed (d : Dev) (ch : Channel) : Bool := d.openFor ch

/-- R425: only P0 with open access may send the block. -/
def Dev.p0Open (d : Dev) (ch : Channel) : Bool := chClass ch == 0 && d.accessOpen

/-- R424: a block that needs the SEC engine. -/
def Dev.withSec (d : Dev) (f : Dev → Dev × Answer) : Dev × Answer := if d.secBusy then (d, some (5, [])) else f d

/-- A block ends OK without a response, or FAILED. -/
def ended (d : Dev) (ok : Bool) : Dev × Answer := (d, some (if ok then 0 else 8, []))

/-- A block ends with RANGE. -/
def outOfRange (d : Dev) : Dev × Answer := (d, some (4, []))

/-! ### Challenges -/

/-- R431: a challenge is drawn at MONO t. -/
def Dev.challenge (t : Nat) (d : Dev) : Dev × Answer :=
  let c := Config.challenge d.sec.drawn
  let d := d.modSec (fun s => { s with drawn := s.drawn + 1, chalEnd := some (t + 600000000000) })
  let d := forN 8 (fun w d => d.wr (Reg.SEC_CHAL w) (wordAt (hashBytes c) w)) d
  (d.setFld F.SEC_STAT_CHVALID 1, some (0, hashBytes c))

/-- CHALLENGE: 32 random bytes (R431). -/
def execChallenge (h : CmdHead) (s : State) : Host.Outcome State Fault Refusal :=
  s.serve h 0x30 (blockCost 0) 0 true (fun _ _ t d => d.challenge t)

/-- R431: the challenge is used up, or its time is over. -/
def Dev.dropChallenge (d : Dev) : Dev := (d.modSec (fun s => { s with chalEnd := none })).setFld F.SEC_STAT_CHVALID 0

/-- CHALLENGE_EXPIRY: 10 minutes of MONO after it was drawn (R431). -/
def execChallengeExpiry (s : State) : Host.Outcome State Fault Refusal :=
  match s.dev.sec.chalEnd with
  | some e => s.at e (fun _ d => d.dropChallenge)
  | none => .next s

/-- The bytes of SEC_CHAL. -/
def Dev.chalBytes (d : Dev) : List Byte := wordBytes ((List.range 8).map (fun w => d.rd (Reg.SEC_CHAL w)))

/-- R431: the signature of UNLOCK_SIG is accepted at MONO t. -/
def Dev.sigUnlocks (d : Dev) (t slot : Nat) (pk sig : List Byte) : Bool :=
  (match d.sec.chalEnd with | some e => Nat.blt t e | none => false) && d.slotValid slot &&
    hashBytes (Config.sha256 pk) == d.slotHash slot && Config.slhVerify pk (d.chalBytes ++ d.uidBytes) sig

/-- R431: UNLOCK_SIG at MONO t; the challenge is used up in any case. -/
def Dev.unlockSig (cls slot : Nat) (pk sig : List Byte) (t : Nat) (d : Dev) : Dev × Answer :=
  let ok := d.sigUnlocks t slot pk sig
  let d := d.dropChallenge
  ended (if ok then d.openWindow t cls 2 slot else d.unlockFails t cls 0) ok

/-- UNLOCK_SIG: the signer's public key and a signature over the challenge and the unit identity (R431). -/
def execUnlockSig (h : CmdHead) (slot : BitVec 2) (pk sig : List (BitVec 8)) (s : State) :
    Host.Outcome State Fault Refusal :=
  s.serve h 0x30 (blockCost (4 + pk.length + sig.length)) 5000000 true (fun _ _ t d =>
    if pk.length ≠ 32 ∨ sig.length ≠ 7856 then outOfRange d
    else d.withSec (Dev.unlockSig (chClass h.ch) slot.toNat pk sig t))

/-! ### Passwords -/

/-- R432: k becomes n in record 0xFF02. -/
def Dev.setPwdFails (d : Dev) (t n : Nat) : Dev := d.ownRecord t 0xFF02 1 (leBytes n 4)

/-- R432: UNLOCK_PWD at MONO t; an attempt that is not checked fails too, and leaves k and the delay as they are. -/
def Dev.unlockPwd (cls : Nat) (password : List Byte) (t : Nat) (d : Dev) : Dev × Answer :=
  if d.pwdHash.isEmpty ∨ t < d.pwdFrom then ended (d.unlockFails t cls 1) false
  else if hashBytes (Config.sha256 (d.uidBytes ++ password)) = d.pwdHash then
    ended ((if d.pwdFails = 0 then d else d.setPwdFails t 0).openWindow t cls 3 0) true
  else
    let d := d.setPwdFails t (d.pwdFails + 1)
    ended ((d.modSec (fun s => { s with lastFail := t })).unlockFails t cls 1) false

/-- A password of 8 to 64 bytes. -/
def pwdLen (password : List Byte) : Bool := Nat.ble 8 password.length && Nat.ble password.length 64

/-- UNLOCK_PWD: a password, from P0 alone (R425, R432). -/
def execUnlockPwd (h : CmdHead) (password : List (BitVec 8)) (s : State) : Host.Outcome State Fault Refusal :=
  s.serve h 0x30 (blockCost password.length) 1000000 (chClass h.ch == 0) (fun _ _ t d =>
    if !pwdLen password then outOfRange d else d.withSec (Dev.unlockPwd (chClass h.ch) password t))

/-- R432: SETPWD at MONO t; it fails when the record has no room. -/
def Dev.setPwd (cls : Nat) (password : List Byte) (t : Nat) (d : Dev) : Dev × Answer :=
  let d := d.ownRecord t 0xFF03 1 (hashBytes (Config.sha256 (d.uidBytes ++ password)))
  if (findRecord d.nvsMem (d.ownRid 0xFF03)).isSome then ended ((d.secEvent t 2).journal t 5 cls 9 [0]) true
  else ended d false

/-- SETPWD: a new password (R432). -/
def execSetpwd (h : CmdHead) (password : List (BitVec 8)) (s : State) : Host.Outcome State Fault Refusal :=
  s.serve h 0x30 (blockCost password.length) 1000000 (s.dev.p0Open h.ch) (fun _ _ t d =>
    if !pwdLen password then outOfRange d else d.withSec (Dev.setPwd (chClass h.ch) password t))

/-- RELOCK: the window closes (R433). -/
def execRelock (h : CmdHead) (s : State) : Host.Outcome State Fault Refusal :=
  s.serve h 0x30 (blockCost 0) 0 (s.dev.relockAllowed h.ch) (fun _ _ t d => ended (d.closeAccess t (chClass h.ch) 4) true)

/-- UNLOCK_WINDOW_EXPIRY: the window has had its length (R433). -/
def execUnlockWindowExpiry (s : State) : Host.Outcome State Fault Refusal :=
  match s.dev.sec.winEnd with
  | some e => s.at e (fun t d => d.closeAccess t 0 5)
  | none => .next s

/-! ### Key slots and the field lock -/

/-- R426: KEYSLOT at MONO t. -/
def Dev.keySlot (cls slot : Nat) (hash : List Byte) (t : Nat) (d : Dev) : Dev × Answer :=
  if bitOf (d.fld F.SEC_STAT_SLOTSET) slot then ended d false
  else
    let d := forN 8 (fun w d => d.wr (Reg.SEC_KEYHASH slot w) (wordAt hash w)) d
    ended (((d.setBit Reg.SEC_STAT (4 + slot) true).secEvent t 2).journal t 5 cls 7 [slot]) true

/-- KEYSLOT: a key hash into an empty slot (R426). -/
def execKeyslot (h : CmdHead) (slot : BitVec 2) (hash : List (BitVec 8)) (s : State) : Host.Outcome State Fault Refusal :=
  s.serve h 0x30 (blockCost (4 + hash.length)) 2000000 (s.dev.p0Open h.ch) (fun _ _ t d =>
    if hash.length ≠ 32 then outOfRange d else d.withSec (Dev.keySlot (chClass h.ch) slot.toNat hash t))

/-- R427: REVOKE at MONO t. -/
def Dev.revoke (cls slot : Nat) (t : Nat) (d : Dev) : Dev × Answer :=
  if d.flag F.SEC_STAT_FIELDLOCK ∧ !d.otherSlotValid slot then ended d false
  else ended (((d.setBit Reg.SEC_STAT (8 + slot) true).secEvent t 2).journal t 5 cls 8 [slot]) true

/-- REVOKE: the revocation fuse of a slot (R427). -/
def execRevoke (h : CmdHead) (slot : BitVec 2) (s : State) : Host.Outcome State Fault Refusal :=
  s.serve h 0x30 (blockCost 4) 2000000 (s.dev.p0Open h.ch) (fun _ _ t d =>
    d.withSec (Dev.revoke (chClass h.ch) slot.toNat t))

/-- R430: FIELDLOCK at MONO t; on a fuse already blown it changes nothing. -/
def Dev.fieldLock (cls : Nat) (t : Nat) (d : Dev) : Dev × Answer :=
  if !((List.range 4).any d.slotValid) then ended d false
  else if d.flag F.SEC_STAT_FIELDLOCK then ended d true
  else ended (((((d.setFld F.SEC_STAT_FIELDLOCK 1).showOpen).tapClose t).secEvent t 0).journal t 5 cls 1 []) true

/-- FIELDLOCK: the FIELD_LOCK fuse (R430). -/
def execFieldlock (h : CmdHead) (s : State) : Host.Outcome State Fault Refusal :=
  s.serve h 0x30 (blockCost 0) 2000000 (s.dev.p0Open h.ch) (fun _ _ t d => d.withSec (Dev.fieldLock (chClass h.ch) t))

/-! ### Attestation (R429) -/

/-- The version in the active slot of component c: UPD_ACTVER[c]. -/
def SlotImage.version : SlotImage → Word
  | .empty => 0
  | .factory v => v
  | .signed m _ => wordAt m 9
  | .sealed _ => Config.sealedVersion

/-- UPD_ACTVER[c]. -/
def Dev.actVer (d : Dev) (c : Nat) : Word := (d.comp c).active.version

/-- R429: the message to sign. -/
def Dev.attestMessage (d : Dev) (nonce : List Byte) : List Byte :=
  nonce ++ d.uidBytes ++ wordBytes [d.rd Reg.SYS_IDCODE, d.rd Reg.SYS_ROMVER, d.rd Reg.SYS_FWVER, d.rd Reg.SYS_NETFWVER,
    d.rd Reg.SYS_PMUFWVER, d.actVer 3, d.secStat, d.rd Reg.SEC_SECVER]

/-- R429: ATTEST at MONO t: the signature is ready 60 ms later at the latest. -/
def Dev.attest (nonce : List Byte) (t : Nat) (d : Dev) : Dev × Answer :=
  let m := d.attestMessage nonce
  ended ((d.modSec (fun s => { s with signing := some (t + 60000000, m) })).setFld F.SEC_STAT_ATTBUSY 1) true

/-- ATTEST: signing starts (R429). -/
def execAttest (h : CmdHead) (nonce : List (BitVec 8)) (s : State) : Host.Outcome State Fault Refusal :=
  s.serve h 0x30 (blockCost nonce.length) 0 true (fun _ _ t d =>
    if nonce.length ≠ 32 then outOfRange d else d.withSec (Dev.attest nonce t))

/-- R429: the signature is ready at MONO t. -/
def Dev.attestReady (t : Nat) (d : Dev) : Dev :=
  match d.sec.signing with
  | some (_, m) =>
    let d := d.modSec (fun s => { s with signing := none, signed := some m })
    ((d.setFld F.SEC_STAT_ATTBUSY 0).setFld F.SEC_STAT_ATTRDY 1).secEvent t 3
  | none => d

/-- ATTEST_READY: the signature is ready (R429). -/
def execAttestReady (s : State) : Host.Outcome State Fault Refusal :=
  match s.dev.sec.signing with
  | some (e, _) => s.at e Dev.attestReady
  | none => .next s

/-- R429: the message, its signature and the vendor certificate. -/
def attestReply (m : List Byte) : List Byte := m ++ padTo 17088 (Config.attestSign m) ++ padTo 7856 Config.vendorCert

/-- ATTEST_READ: what was signed last (R429). -/
def execAttestRead (h : CmdHead) (s : State) : Host.Outcome State Fault Refusal :=
  s.serve h 0x30 (blockCost 0) 0 true (fun _ _ _ d =>
    match d.sec.signed with
    | some m => (d, some (0, attestReply m))
    | none => ended d false)

end Sys2Proof.Machine
end

