-- ==== Sys2Proof/Machine/Upd.lean ====
section
/-!
DEFINITION. Field update (R422 to R425, R434 to R447, R450, R452) and spore mode (R448): manifests, blocks, activation,
the confirmation window, and the frames that the boot ROM takes.
-/
namespace Sys2Proof.Machine

/-- R450: event source 184 + k and its bit of UPD_STAT. -/
def Dev.updEvent (d : Dev) (t k : Nat) : Dev := d.raiseFlag t (184 + k) Reg.UPD_STAT (8 + k)

/-! ## Manifests (R434) -/

/-- NBLK of a manifest. -/
def manNblk (m : List Byte) : Nat := (wordAt m 11).toNat

/-- The bytes of block i: 4,096, or LASTLEN for the last one. -/
def manBlockLen (m : List Byte) (i : Nat) : Nat := if i + 1 = manNblk m then (wordAt m 12).toNat else 4096

/-- SIGNER of a manifest. -/
def manSigner (m : List Byte) : Nat := bitsOf (wordAt m 2).toNat 11 8

/-- SECVER of a manifest. -/
def manSecver (m : List Byte) : Nat := bitsOf (wordAt m 10).toNat 5 0

/-- VERSION of a manifest. -/
def manVersion (m : List Byte) : Word := wordAt m 9

/-- The public key of the signer. -/
def manKey (m : List Byte) : List Byte := (m.drop 0x40).take 32

/-- HASH of block i. -/
def manHash (m : List Byte) (i : Nat) : List Byte := (m.drop (0xC0 + 32 * i)).take 32

/-- RANGES: a version of component y is allowed. -/
def manAllows (m : List Byte) (y : Nat) (v : Word) : Bool :=
  let lo := (wordAt m (24 + 2 * y)).toNat
  let hi := (wordAt m (25 + 2 * y)).toNat
  (lo == 0 && hi == 0) || (Nat.ble lo v.toNat && Nat.ble v.toNat hi)

/-- IFACE: the range spoken on interface i. -/
def manIface (m : List Byte) (i : Nat) : Word := wordAt m (32 + i)

/-- The bytes from one offset to another are 0. -/
def zeroBytes (m : List Byte) (lo hi : Nat) : Bool := ((m.drop lo).take (hi - lo)).all (· == 0)

/-- R434, CHK FORMAT: the manifest of component c has its layout. -/
def manFormat (c : Nat) (m : List Byte) : Bool :=
  let n := manNblk m
  wordAt m 0 == 0x4E414D4C && wordAt m 1 == 0x0200 && bitsOf (wordAt m 2).toNat 3 0 == c + 1 &&
    Nat.ble 1 n && Nat.ble n 8192 && Nat.ble 1 (wordAt m 12).toNat && Nat.ble (wordAt m 12).toNat 4096 &&
    (wordAt m 13).toNat == 0xC0 + 32 * n + 7856 && m.length == 0xC0 + 32 * n + 7856 &&
    (c == 3 || wordAt m 14 == 0) && zeroBytes m 0x3C 0x40 && zeroBytes m 0x98 0xC0

/-- R426, R440, CHK SIGNATURE: the signature over all bytes before it. A sealed manifest carries none. -/
def manSigned (m : List Byte) : Bool :=
  let n := 0xC0 + 32 * manNblk m
  manSigner m == 15 || Config.slhVerify (manKey m) (m.take n) (m.drop n)

/-- R426, R435, CHK KEY: the signer is one that the component allows, and the key is that of its slot or root. -/
def Dev.manKeyOk (d : Dev) (c : Nat) (m : List Byte) : Bool :=
  let h := hashBytes (Config.sha256 (manKey m))
  if c < 3 then manSigner m == 0 && h == hashBytes Config.rootHash
  else
    let s := manSigner m
    Nat.ble 1 s && Nat.ble s 4 && d.slotValid (s - 1) && h == d.slotHash (s - 1)

/-- CHK TARGET: the device, and the unit when the image is bound to one. -/
def Dev.manTarget (d : Dev) (m : List Byte) : Bool :=
  wordAt m 3 == d.rd Reg.SYS_IDCODE && (!(wordAt m 4).getLsbD 0 || (m.drop 0x14).take 16 == d.uidBytes)

/-- SEC_SECVER of component c. -/
def Dev.secver (d : Dev) (c : Nat) : Nat := bitsOf (d.rd Reg.SEC_SECVER).toNat (8 * c + 5) (8 * c)

/-- R437: the size of a slot of component c. -/
def Dev.slotSize (d : Dev) (c : Nat) : Nat :=
  match c with
  | 0 => 0x400000
  | 1 => 0x200000
  | 2 => 0x40000
  | _ => min 0x2000000 ((2 ^ (25 + d.fld F.UPD_STAT_FLSIZE) - 12864 * 1024) / 2 / 0x10000 * 0x10000)

/-- CHK SIZE: the manifest, rounded up to 64 KiB, and the blocks fit the slot. -/
def Dev.manFits (d : Dev) (c : Nat) (m : List Byte) : Bool :=
  Nat.ble ((m.length + 0xFFFF) / 0x10000 * 0x10000 + 4096 * manNblk m) (d.slotSize c)

/-- R440: the first check that the manifest of component c fails, as CHK; 0 when it passes. -/
def Dev.checkManifest (d : Dev) (c : Nat) (m : List Byte) : Nat :=
  if !manFormat c m then 1
  else if !manSigned m then 2
  else if !d.manKeyOk c m then 3
  else if !d.manTarget m then 4
  else if manSecver m < d.secver c then 5
  else if !d.manFits c m then 6
  else 0

/-- R441: a block agrees with its HASH entry. -/
def blockOk (m : List Byte) (i : Nat) (b : List Byte) : Bool := hashBytes (Config.sha256 b) == manHash m i

/-- R439: an image verifies as component c at boot. -/
def Dev.imageOk (d : Dev) (c : Nat) : SlotImage → Bool
  | .empty => false
  | .factory _ => true
  | .sealed _ => true
  | .signed m blocks =>
    d.checkManifest c m == 0 && (List.range (manNblk m)).all (fun i =>
      let b := Sparse.get (fun _ => []) blocks i
      b.length == manBlockLen m i && blockOk m i b)

/-! ## Registers (R452) -/

/-- FAILS of the active slot. -/
def Component.fails (k : Component) : Nat := if k.activeB then k.failsB else k.failsA

/-- FAILS of the active slot set. -/
def Component.setFails (k : Component) (n : Nat) : Component :=
  if k.activeB then { k with failsB := n } else { k with failsA := n }

/-- UPD_CSTAT[c]. -/
def Dev.cstatWord (d : Dev) (c : Nat) : Word :=
  let k := d.comp c
  BitVec.ofNat 32 (k.state + b2n k.activeB * 2 ^ 4 + b2n k.otherValid * 2 ^ 5 + k.chk * 2 ^ 8 + k.fails * 2 ^ 12)

/-- UPD_STGVER[c]. -/
def Dev.stgVer (d : Dev) (c : Nat) : Word := if (d.comp c).otherValid then (d.comp c).other.version else 0

/-- Blocks received. -/
def Component.received (k : Component) : Nat :=
  ((List.range (manNblk k.manifest)).filter (fun i => k.bitmap.getLsbD i)).length

/-- UPD_NBLK[c]. -/
def Dev.nblkWord (d : Dev) (c : Nat) : Word :=
  BitVec.ofNat 32 (manNblk (d.comp c).manifest % 2 ^ 14 + (d.comp c).received * 2 ^ 16)

/-- UPD_WINLEFT[c] at MONO t. -/
def Dev.updLeft (d : Dev) (t c : Nat) : Nat :=
  match (d.comp c).winEnd with
  | some e => (e - t) / 1000000000
  | none => if (d.comp c).state = 4 then (d.comp c).winSaved else 0

/-- UPD_STAT.WAITCOMP. -/
def Dev.waitComp (d : Dev) : Nat :=
  match (List.range 4).find? (fun c => (d.comp c).state == 4) with | some c => c + 1 | none => 0

/-- UPD_STAT as it reads. -/
def Dev.updStat (d : Dev) : Word := putBits (d.rd Reg.UPD_STAT) 6 4 d.waitComp

/-- R452: UPD_CFG.WINMIN in seconds, within its range. -/
def Dev.updWindow (d : Dev) : Nat := max 1 (min 1440 (d.fld F.UPD_CFG_WINMIN)) * 60

/-! ## Sessions (R440 to R442) -/

/-- The session of a component is over. -/
def Component.ended (k : Component) : Component := { k with state := 0, parts := [], manifest := [], bitmap := 0 }

/-- Blocks of component c that wait for the flash are dropped. -/
def Dev.dropQueued (d : Dev) (c : Nat) : Dev :=
  { d with flash := { d.flash with queued := d.flash.queued.filter (fun q => q.1 != c) } }

/-- Part i of the manifest that is arriving. -/
def Component.part (k : Component) (i : Nat) : List Byte := Sparse.get (fun _ => []) k.parts i

/-- The parts of a manifest by the MLEN of its first one, 66 at most. -/
def Component.partCount (k : Component) : Nat := min 66 (((wordAt (k.part 0) 13).toNat + 4095) / 4096)

/-- All parts of the manifest have arrived. -/
def Component.whole (k : Component) : Bool :=
  !(k.part 0).isEmpty && (List.range k.partCount).all (fun i => !(k.part i).isEmpty)

/-- A component with one more part of a manifest. -/
def Component.addPart (k : Component) (i : Nat) (part : List Byte) : Component :=
  { k with state := 1, parts := Sparse.set (fun _ => []) k.parts i part }

/-- A part completes the manifest of component c. -/
def Dev.lastPart (d : Dev) (c i : Nat) (part : List Byte) : Bool :=
  Nat.ble (d.comp c).state 1 && ((d.comp c).addPart i part).whole

/-- R440: the manifest of component c is checked at MONO t. -/
def Dev.verifyManifest (d : Dev) (t cls c : Nat) : Dev × Nat :=
  let d0 := d
  let k := d.comp c
  let m := (List.range k.partCount).flatMap k.part
  let chk := d.checkManifest c m
  if chk = 0 then
    let d := d.modComp c (fun k =>
      { k.setOther (.signed m []) with
        state := 2, chk := 0, parts := [], manifest := m, bitmap := 0, otherValid := false, otherConfirmed := false })
    (((d0.keepDir d).updEvent t 0).journal t 6 cls 1 [c + 1, 0, (manVersion m).toNat], 0)
  else
    let d := d.modComp c (fun k => { k.ended with chk := chk })
    let d := if chk = 2 then d.incFld F.SEC_AUTHCNT_SIGFAIL else d
    (if chk = 2 ∨ chk = 3 then d.secEvent t 1 else d.updEvent t 3,
      if chk = 1 ∧ wordAt m 0 = 0x4E414D4C ∧ wordAt m 1 ≠ 0x0200 then 4 else 8)

/-- R440: part i of a manifest of component c arrives at MONO t; the STATUS that follows. -/
def Dev.manifestPart (d : Dev) (t cls c i : Nat) (part : List Byte) : Dev × Nat :=
  let k := d.comp c
  if 66 ≤ i ∨ part.isEmpty ∨ 4096 < part.length then (d, 4)
  else if k.state = 4 then (d, 5)
  else if 2 ≤ k.state then (d, if (k.manifest.drop (4096 * i)).take 4096 = part then 0 else 5)
  else if d.lastPart c i part && d.secBusy then (d, 5)
  else
    let whole := d.lastPart c i part
    let d := d.modComp c (fun k => k.addPart i part)
    if whole then d.verifyManifest t cls c else (d, 0)

/-- R441: block i of the image of component c arrives at MONO t; the STATUS that follows. -/
def Dev.dataBlock (d : Dev) (t c i : Nat) (b : List Byte) : Dev × Nat :=
  let k := d.comp c
  if k.state ≠ 2 ∧ k.state ≠ 3 then (d, 8)
  else if manNblk k.manifest ≤ i ∨ b.length ≠ manBlockLen k.manifest i then (d, 4)
  else if !blockOk k.manifest i b then ((d.incSat Reg.UPD_BLKERR).updEvent t 3, 8)
  else if k.bitmap.getLsbD i || d.flash.queued.any (fun q => q.1 == c && q.2.1 == i) then (d, 0)
  else if 8 ≤ d.flash.queued.length then (d, 5)
  else ({ d with flash := { d.flash with queued := d.flash.queued ++ [(c, i, b)] } }, 0)

/-- R441: a block has been written and read back; the session completes with the last one. -/
def Dev.blockStored (d : Dev) (t c i : Nat) (b : List Byte) : Dev :=
  let d := d.modComp c (fun k =>
    let k := { k with bitmap := k.bitmap ||| BitVec.twoPow 8192 i }
    match k.other with
    | .signed m blocks => k.setOther (.signed m (Sparse.set (fun _ => []) blocks i b))
    | _ => k)
  let k := d.comp c
  if k.state = 2 ∧ k.received = manNblk k.manifest then
    let d := d.keepDir (d.modComp c (fun k => { k with state := 3, otherValid := true }))
    (d.updEvent t 0).journal t 6 0 2 [c + 1, 0, (manVersion k.manifest).toNat]
  else d

/-- R442: ABORT; without a session it fails. -/
def Dev.abortSession (d : Dev) (c : Nat) : Dev × Nat :=
  let k := d.comp c
  if k.state = 0 ∨ k.state = 4 then (d, 8)
  else
    let e := d.modComp c (fun k => { (k.ended).setOther .empty with otherValid := false, otherConfirmed := false })
    ((d.keepDir e).dropQueued c, 0)

/-- R425: the response to STATUS: three words, then the bitmap in whole words. -/
def Dev.statusBytes (d : Dev) (c : Nat) : List Byte :=
  let k := d.comp c
  wordBytes ([d.cstatWord c, d.actVer c, d.stgVer c] ++
    (List.range ((manNblk k.manifest + 31) / 32)).map (fun w => BitVec.ofNat 32 (k.bitmap.toNat / 2 ^ (32 * w))))

/-! ## Compatibility (R443) -/

/-- The manifest of a signed image. -/
def SlotImage.manifest : SlotImage → Option (List Byte)
  | .signed m _ => some m
  | _ => none

/-- R443, COMPAT: manifest m of component x beside the images that the other components run. -/
def compatible (image : Nat → SlotImage) (x : Nat) (m : List Byte) : Bool :=
  (List.range 4).all (fun y =>
    y == x || image y == .empty ||
      (manAllows m y (image y).version &&
        (match (image y).manifest with | some a => manAllows a x (manVersion m) | none => true)))

/-- R443: the version ranges of the peers of interface i: the neighbours at the rhizome ports, the pair peer, the ONLINE
stations. -/
def Dev.ifacePeers (d : Dev) (i : Nat) : List Word :=
  match i with
  | 1 => ((List.range 2).filter (fun p => d.flag (F.STD_PORT_UP p))).map (fun p => Sparse.get (fun _ => 0) d.stand.ranges p)
  | 2 =>
    match d.hsb.peer with
    | some m => if d.flag F.HSB_STAT_PEERVALID then [BitVec.ofNat 32 (0x01000000 + m.maj.toNat * 2 ^ 8 + m.min.toNat)] else []
    | none => []
  | 3 => (List.range 4).flatMap (fun n =>
      ((List.range 16).filter (fun j => d.staState n j == 4)).map (fun j => (d.station_ n j).range))
  | _ => []

/-- R443, IFACE: every peer has a version in common with the image. -/
def Dev.ifaceOk (d : Dev) (m : List Byte) : Bool :=
  [1, 2, 3].all (fun i => manIface m i == 0 || (d.ifacePeers i).all (fun r => (negotiate (manIface m i) r).isSome))

/-- R443: the executable formats of the loaded program lie within the range of the image. -/
def Dev.formatsOk (d : Dev) (m : List Byte) : Bool :=
  d.formats.all (fun (p : Nat × Word) => (negotiate (manIface m 4) (BitVec.ofNat 32 (formatRange p.2.toNat))).isSome)

/-- R443: the compatibility checks of the image with manifest m of component x, as CHK; 0 when it passes. -/
def Dev.checkActivate (d : Dev) (image : Nat → SlotImage) (x : Nat) (m : List Byte) : Nat :=
  if !compatible image x m then 7
  else if !d.ifaceOk m || (x == 0 && !d.formatsOk m) then 8
  else if x = 3 ∧ d.flag F.HSB_CFG_EN ∧ d.hsb.peer.isSome ∧ wordAt m 14 ≠ d.rd Reg.HSB_PEERVER then 9
  else 0

/-- The device holds the control or the publication role; outside a pair it does. -/
def Dev.holdsRole (d : Dev) : Bool := bitOf d.roleWord 1 || bitOf d.roleWord 2

/-! ## Activation and the window (R444 to R446) -/

/-- R444: the running versions as the firmware shows them. -/
def Dev.showVersions (d : Dev) : Dev :=
  ((d.wr Reg.SYS_FWVER (d.actVer 0)).wr Reg.SYS_NETFWVER (d.actVer 1)).wr Reg.SYS_PMUFWVER (d.actVer 2)

/-- R444: the window of component c runs from MONO t on. -/
def Dev.startWindow (t c : Nat) (d : Dev) : Dev :=
  if (d.comp c).state = 4 ∧ (d.comp c).winEnd.isNone then
    d.modComp c (fun k => { k with winEnd := some (t + k.winSaved * 1000000000), savedAt := t, winWarned := false })
  else d

/-- R444: the reset that follows a switch of component c at MONO t, or the restart of the network engine. -/
def Dev.switchRestart (c : Nat) (t : Nat) (d : Dev) : Dev :=
  if c = 1 then ((d.netRestart t).wr Reg.SYS_NETFWVER (d.actVer 1)).startWindow t 1 else d.resetSet 2 0 t

/-- R438: the directory selects the other slot of component c. -/
def Dev.switchSlot (d : Dev) (c : Nat) : Dev :=
  d.keepDir (d.modComp c Component.swapSlots)

/-- R445: the companion of a record is no longer enabled. -/
def Dev.disableRecord (d : Dev) (t rid : Nat) : Dev :=
  match findRecord d.nvsMem rid with
  | some r => d.nvsWrite t (8 * r) ({ dirEntry d.nvsMem r with en := false } : DirEntry).bytes
  | none => d

/-- R445: a revert disables the companions. -/
def Dev.dropCompanions (d : Dev) (t : Nat) : Dev :=
  let d := d.flash.companions.foldl (fun d rid => d.disableRecord t (rid ^^^ 0x8000)) d
  { d with flash := { d.flash with companions := [] } }

/-- R445: CONFIRM copies the companion of a record into its original ring. -/
def Dev.copyCompanion (t : Nat) (d : Dev) (rid : Nat) : Dev :=
  match d.recordGet (rid ^^^ 0x8000), findRecord d.nvsMem rid with
  | some l, some r => (d.recordPut t r ((l.getD 2 0).toNat) (l.drop 16)).disableRecord t (rid ^^^ 0x8000)
  | _, _ => d

/-- R445, R446: the companions are copied. -/
def Dev.takeCompanions (d : Dev) (t : Nat) : Dev :=
  let d := d.flash.companions.foldl (Dev.copyCompanion t) d
  { d with flash := { d.flash with companions := [] } }

/-- SECVER of an image. -/
def SlotImage.secver : SlotImage → Nat
  | .signed m _ => manSecver m
  | _ => 0

/-- R446: SEC_SECVER of component c is raised to that of its active image. -/
def Dev.raiseSecver (d : Dev) (c : Nat) : Dev :=
  d.wr Reg.SEC_SECVER (putBits (d.rd Reg.SEC_SECVER) (8 * c + 5) (8 * c) (max (d.secver c) (d.comp c).active.secver))

/-- R446: component c is confirmed at MONO t. -/
def Dev.confirmComp (d : Dev) (t cls c : Nat) : Dev :=
  let k := d.comp c
  let d := if c = 0 then d.takeCompanions t else d
  let d := (d.raiseSecver c).modComp c (fun k => { k.ended with winEnd := none, winSaved := 0, selfConfirm := false })
  (d.updEvent t 2).journal t 6 cls 4 [c + 1, k.other.version.toNat, k.active.version.toNat]

/-- R446: the directory returns to the old slot of component c at MONO t; detail says why. The reset or restart is the
caller's. -/
def Dev.revertSlot (d : Dev) (t cls c detail : Nat) : Dev :=
  let k := d.comp c
  let d := if c = 0 then d.dropCompanions t else d
  let d := (d.switchSlot c).modComp c (fun k => { k.ended with
    winEnd := none, winSaved := 0, revertAt := none, selfConfirm := false })
  (d.updEvent t 2).journal t 6 cls detail [c + 1, k.active.version.toNat, k.other.version.toNat]

/-- R444: the slot of component c is activated at MONO t, with its window to come; self: it is confirmed at
its first successful boot (R448). -/
def Dev.activateSlot (d : Dev) (t cls c : Nat) (self : Bool) : Dev :=
  let k := d.comp c
  let d := (d.switchSlot c).modComp c (fun k =>
    ({ k with state := 4, winSaved := d.updWindow, winEnd := none, winWarned := false, selfConfirm := self }).setFails 0)
  (d.updEvent t 1).journal t 6 cls 3 [c + 1, k.active.version.toNat, k.other.version.toNat]

/-- R443: an ACTIVATE of component c is refused: its STATUS, and CHK where a check fails. -/
def Dev.refuseActivate (d : Dev) (t cls c status chk : Nat) : Dev × Answer :=
  let d := if chk = 0 then d else d.modComp c (fun k => { k with chk := chk })
  let d := if chk = 0 then d else if chk = 2 ∨ chk = 3 then d.secEvent t 1 else d.updEvent t 3
  ((d.updEvent t 1).journal t 6 cls 8 [c + 1, chk], some (status, []))

/-- R443, R444: ACTIVATE of component c at MONO t; reread says that every block read from the flash again has its hash.
The response leaves before the reset. -/
def Dev.activate (cls c : Nat) (reread : Bool) (dest : ReplyTo) (t : Nat) (d : Dev) : Dev × Answer :=
  let k := d.comp c
  let m := k.manifest
  let chk := d.checkActivate (fun y => (d.comp y).active) c m
  if k.state ≠ 3 then d.refuseActivate t cls c 8 0
  else if !manSigned m then d.refuseActivate t cls c 8 2
  else if !d.manKeyOk c m then d.refuseActivate t cls c 8 3
  else if !reread then d.refuseActivate t cls c 8 10
  else if d.waitComp ≠ 0 ∨ d.fld F.XCH_STAT_STATE ≠ 0 then d.refuseActivate t cls c 5 0
  else if d.mode.runs ∧ d.holdsRole then d.refuseActivate t cls c 3 0
  else if chk ≠ 0 then d.refuseActivate t cls c 8 chk
  else
    let d := (d.activateSlot t cls c false).reply t dest 0 []
    (d.switchRestart c t, none)

/-- R446: the window of component c can still be ended by command at MONO t. -/
def Dev.windowOpen (d : Dev) (t c : Nat) : Bool :=
  (d.comp c).state == 4 && (match (d.comp c).winEnd with | some e => Nat.blt t e | none => true)

/-! ## Commands -/

/-- R425: MANIFEST, DATA, STATUS and ABORT: P0 open, P1, P2. -/
def Dev.blockAllowed (d : Dev) (ch : Channel) : Bool := d.openFor ch

/-- R425: ACTIVATE, CONFIRM and REVERT: P0 open, P1. -/
def Dev.switchAllowed (d : Dev) (ch : Channel) : Bool := chClass ch != 2 && d.openFor ch

/-- R422: f on the component that COMP names. -/
def withComp (comp : BitVec 4) (d : Dev) (f : Nat → Dev → Dev × Answer) : Dev × Answer :=
  if 1 ≤ comp.toNat ∧ comp.toNat ≤ 4 then f (comp.toNat - 1) d else outOfRange d

/-- A STATUS without a response. -/
def statusOnly (x : Dev × Nat) : Dev × Answer := (x.1, some (x.2, []))

/-- MANIFEST: part index of a manifest (R440). -/
def execManifest (h : CmdHead) (comp : BitVec 4) (index : BitVec 32) (part : List (BitVec 8)) (s : State) :
    Host.Outcome State Fault Refusal :=
  let last := s.dev.lastPart (comp.toNat - 1) index.toNat part
  s.serve h 0x30 (blockCost part.length) (if last then 5000000 else 0) (s.dev.blockAllowed h.ch) (fun _ _ t d =>
    withComp comp d (fun c d => statusOnly (d.manifestPart t (chClass h.ch) c index.toNat part)))

/-- DATA: block index of an image (R441). -/
def execUpdData (h : CmdHead) (comp : BitVec 4) (index : BitVec 32) (block : List (BitVec 8)) (s : State) :
    Host.Outcome State Fault Refusal :=
  s.serve h 0x30 (blockCost block.length) 0 (s.dev.blockAllowed h.ch) (fun _ _ t d =>
    withComp comp d (fun c d => statusOnly (d.dataBlock t c index.toNat block)))

/-- STATUS: the state of a component (R425). -/
def execUpdStatus (h : CmdHead) (comp : BitVec 4) (s : State) : Host.Outcome State Fault Refusal :=
  s.serve h 0x30 (blockCost 0) 0 (s.dev.blockAllowed h.ch) (fun _ _ _ d =>
    withComp comp d (fun c d => (d, some (0, d.statusBytes c))))

/-- ABORT: the session ends (R442). -/
def execUpdAbort (h : CmdHead) (comp : BitVec 4) (s : State) : Host.Outcome State Fault Refusal :=
  s.serve h 0x30 (blockCost 0) 0 (s.dev.blockAllowed h.ch) (fun _ _ _ d =>
    withComp comp d (fun c d => statusOnly (d.abortSession c)))

/-- R425: the engine time of ACTIVATE: 5 ms and 2 ms for each MiB of the image. -/
def Dev.activateTime (d : Dev) (comp : BitVec 4) : Nat :=
  let k := d.comp (comp.toNat - 1)
  if k.state = 3 then 5000000 + manNblk k.manifest * 4096 * 2000000 / 2 ^ 20 else 0

/-- ACTIVATE: the image that is COMPLETE becomes the active one (R443, R444). -/
def execActivate (h : CmdHead) (comp : BitVec 4) (reread : Bool) (s : State) : Host.Outcome State Fault Refusal :=
  s.serve h 0x30 (blockCost 0) (s.dev.activateTime comp) (s.dev.switchAllowed h.ch) (fun dest _ t d =>
    withComp comp d (fun c d => d.withSec (Dev.activate (chClass h.ch) c reread dest t)))

/-- CONFIRM: the window ends (R446). -/
def execUpdConfirm (h : CmdHead) (comp : BitVec 4) (s : State) : Host.Outcome State Fault Refusal :=
  s.serve h 0x30 (blockCost 0) 0 (s.dev.switchAllowed h.ch) (fun _ _ t d =>
    withComp comp d (fun c d =>
      if d.windowOpen t c then ended (d.confirmComp t (chClass h.ch) c) true else ended d false))

/-- REVERT: the old slot again (R446); the response leaves before the reset. -/
def execUpdRevert (h : CmdHead) (comp : BitVec 4) (s : State) : Host.Outcome State Fault Refusal :=
  s.serve h 0x30 (blockCost 0) 0 (s.dev.switchAllowed h.ch) (fun dest _ t d =>
    withComp comp d (fun c d =>
      if d.windowOpen t c then
        (((d.revertSlot t (chClass h.ch) c 5).reply t dest 0 []).switchRestart c t, none)
      else ended d false))

/-! ## Events -/

/-- R448: the frames of spore mode. -/
def ackBytes (d : Dev) (status c : Nat) : List Byte :=
  leBytes (status + (d.comp c).chk * 2 ^ 8) 4 ++ leBytes (d.comp c).received 4 ++ leBytes (manNblk (d.comp c).manifest) 4

/-- R448: the components that COMMIT frames have listed are COMPLETE. -/
def Dev.listedComplete (d : Dev) : Bool :=
  !d.flash.listed.isEmpty && d.flash.listed.all (fun c => (d.comp c).state == 3)

/-- R448: the image that component y will run after the commit. -/
def Dev.imageAfter (d : Dev) (y : Nat) : SlotImage :=
  if d.flash.listed.contains y then (d.comp y).other else (d.comp y).active

/-- R443, R448: the first listed component that fails a check, with its CHK. -/
def Dev.commitFails (d : Dev) : Option (Nat × Nat) :=
  (d.flash.listed.map (fun c => (c, d.checkActivate d.imageAfter c (d.comp c).manifest))).find? (fun x => x.2 != 0)

/-- R448: once every listed component is COMPLETE, the directory switches and the device resets; a failed check ends
the commit. The answer says whether the checks passed. -/
def Dev.sporeCommit (t : Nat) (d : Dev) : Dev × Bool :=
  if d.phase = .spore ∧ d.listedComplete then
    match d.commitFails with
    | some (c, chk) =>
      ({ (d.modComp c (fun k => { k with chk := chk })).updEvent t 3 with flash.listed := [] }, false)
    | none =>
      let l := d.flash.listed
      ((l.foldl (fun (d : Dev) c => d.activateSlot t 0 c (!d.imageOk c (d.comp c).active)) { d with flash.listed := [] }).resetSet 2 0 t, true)
  else (d, true)

/-- R441: the flash has written the oldest queued block and read it back, or has failed. -/
def Dev.blockWritten (ok : Bool) (t : Nat) (d : Dev) : Dev :=
  match d.flash.queued with
  | [] => d
  | (c, i, b) :: rest =>
    let d := { d with flash := { d.flash with queued := rest } }
    if ok then ((d.blockStored t c i b).sporeCommit t).1
    else ((d.incSat Reg.UPD_FLASHERR).modComp c (fun k => { k with chk := 11 })).updEvent t 3

/-- UPDATE_BLOCK_WRITTEN: dt ns pass, and the flash has dealt with the oldest queued block (R441). -/
def execUpdateBlockWritten (dt : Nat) (ok : Bool) (s : State) : Host.Outcome State Fault Refusal :=
  s.event dt (Dev.blockWritten ok)

/-- UPDATE_WINDOW_WARN: UPD_CFG.WARN minutes of the window of a component remain (R446). -/
def execUpdateWindowWarn (comp : BitVec 2) (s : State) : Host.Outcome State Fault Refusal :=
  match (s.dev.comp comp.toNat).winEnd with
  | some e => s.at (e - s.dev.fld F.UPD_CFG_WARN * 60000000000) (fun t d =>
      if (d.comp comp.toNat).winWarned then d
      else (d.modComp comp.toNat (fun k => { k with winWarned := true })).updEvent t 2)
  | none => .next s

/-- R446: the revert that follows the expiry of the window of component c. -/
def Dev.expiryRevert (c : Nat) (t : Nat) (d : Dev) : Dev := (d.revertSlot t 0 c 6).switchRestart c t

/-- R446: the window of component c reaches 0 at MONO t: a device that holds a role starts a handover first. -/
def Dev.updExpiry (c : Nat) (t : Nat) (d : Dev) : Dev :=
  let d := d.updEvent t 2
  if d.holdsRole then (d.modComp c (fun k => { k with revertAt := some (t + 1000000000) })).hsbCmd t 1
  else d.expiryRevert c t

/-- UPDATE_WINDOW_EXPIRY: the window of a component reaches 0; after that, the handover has completed or 1 s has passed,
and the device reverts (R446). -/
def execUpdateWindowExpiry (comp : BitVec 2) (s : State) : Host.Outcome State Fault Refusal :=
  let c := comp.toNat
  match (s.dev.comp c).revertAt, (s.dev.comp c).winEnd with
  | some e, _ => if s.dev.holdsRole then s.at e (Dev.expiryRevert c) else s.upd (Dev.expiryRevert c)
  | none, some e => s.at e (Dev.updExpiry c)
  | none, none => .next s

/-- R444: the boot record 0xFF04 is written at MONO t. -/
def Dev.bootRecord (d : Dev) (t : Nat) : Dev :=
  (d.ownRecord t 0xFF04 1 (leBytes (Config.bootRecord d.freeNo).toNat 64)).nextFree

/-- R444: what remains of the window of component c is saved at MONO t. -/
def Dev.saveWindow (c : Nat) (t : Nat) (d : Dev) : Dev :=
  (d.modComp c (fun k => { k with winSaved := d.updLeft t c, savedAt := t })).bootRecord t

/-- UPDATE_WINDOW_SAVE: 10 s after the record was last written (R444). -/
def execUpdateWindowSave (comp : BitVec 2) (s : State) : Host.Outcome State Fault Refusal :=
  match (s.dev.comp comp.toNat).winEnd with
  | some _ => s.at ((s.dev.comp comp.toNat).savedAt + 10000000000) (Dev.saveWindow comp.toNat)
  | none => .next s

end Sys2Proof.Machine
end

