-- ==== Sys2Proof/Machine/CsrRead.lean ====
section
/-!
DEFINITION. Reads of the CSR space (R5 to R8, R18 to R21, R30, R133): what every register returns, computed where no
register holds it, and what the read does: the latch of a first word, the clearing of an RC field, the pop of an item.
-/
namespace Sys2Proof.Machine

/-! ## The map (R18, R20, R21) -/

/-- R20: the first refused access of a host, the service port or the service core is recorded in SYS_BADADDR. -/
def Dev.badAccess (d : Dev) (r : Requester) (off : Nat) (isPartial unmapped : Bool) : Dev :=
  if d.flag F.SYS_BADADDR_VALID then d
  else
    let src := match r with | .host => 0 | .uart => 1 | _ => 2
    d.wr Reg.SYS_BADADDR (BitVec.ofNat 32 (off + src * 2 ^ 24 + b2n isPartial * 2 ^ 28 + b2n unmapped * 2 ^ 29 + 2 ^ 31))

/-! ## Reads -/

/-- The mask of the RC fields of a row. -/
def RegRow.rcMask (r : RegRow) : Word :=
  r.fields.foldl (fun m f => match f.ty with | .rc => m ||| fieldMask f.hi f.lo | _ => m) 0

/-- R5: a register read by its access types: an RC field returns to its reset value. -/
def Dev.readPlain (d : Dev) (off : Nat) : Dev × Word :=
  let w := d.rd off
  match rowOf off with
  | some row =>
    let m := row.rcMask
    if m = 0 then (d, w) else (d.wr off ((w &&& ~~~m) ||| (row.resetWord &&& m)), w)
  | none => (d, w)

/-- R8: the first word of a group is read: the rest of its words are latched from an offset on. -/
def Dev.readFirst (d : Dev) (r : Requester) (w : Word) (off : Nat) (rest : List Word) : Dev × Word :=
  (d.setLatches r off rest, w)

/-- R30: a word of a UCB of unit u, whose word 0 stands at base. -/
def Dev.readUcb (d : Dev) (r : Requester) (t off u base : Nat) : Dev × Word :=
  if off = base then
    match d.ucb t u with
    | w :: rest => d.readFirst r w (base + 4) rest
    | [] => (d, 0)
  else (d, d.latched r off)

/-- A 64-bit number as two words. -/
def words64 (v : Nat) : Word × Word := (BitVec.ofNat 32 v, BitVec.ofNat 32 (v / 2 ^ 32))

/-- The mask of the 32 tasks from m on that satisfy p. -/
def taskMask (m : Nat) (p : Nat → Bool) : Word :=
  BitVec.ofNat 32 ((List.range 32).foldl (fun x i => x + b2n (p (m + i)) * 2 ^ i) 0)

/-- TSK_CORESTAT[c] (R64). -/
def Dev.coreStat (d : Dev) (c : Nat) : Word :=
  let runs := (d.core c).runs
  let head := match d.curRun c with | some x => x.task | none => 0x40
  let held := runs.length - b2n (d.curRun c).isSome
  BitVec.ofNat 32 (head + held * 2 ^ 8 +
    (List.range 8).foldl (fun x b => x + b2n (runs.any (fun y => y.bank == b)) * 2 ^ (16 + b)) 0)

/-- TSK_CORELOAD[c] at MONO t (R64). -/
def Dev.coreLoad (d : Dev) (c t : Nat) : Word :=
  BitVec.ofNat 32 (min 0xFFFF (((d.core c).rollBusy (t / 1000000000)).busyPrev * 65536 / 1000000000))

/-- Registers of blocks SYS to INT that are computed or latched. -/
def Dev.readSys (d : Dev) (r : Requester) (t off : Nat) : Option (Dev × Word) :=
  if off = Reg.SYS_MONO0 then some (d.readFirst r (words64 t).1 Reg.SYS_MONO1 [(words64 t).2])
  else if off = Reg.SYS_MONO1 then some (d, d.latched r off)
  else if off = Reg.WDT_CNT then some (d, BitVec.ofNat 32 (d.wdtCnt t))
  else if Reg.INT_PINCFG 0 ≤ off ∧ off < Reg.INT_PINCFG 8 then
    some (d, putBits (d.rd off) 8 8 (b2n (d.irqActive ((off - Reg.INT_PINCFG 0) / 4))))
  else none

/-- Registers of block TSK that are computed or latched (R64). -/
def Dev.readTsk (d : Dev) (r : Requester) (t off : Nat) : Option (Dev × Word) :=
  if off < 0x10800 ∧ off % 32 = 0x10 then
    let k := d.task ((off - 0x10000) / 32)
    some (d.readFirst r (d.rd off) Reg.TSK_ULATCH0
      [k.maxUsed, (words64 k.total.toNat).1, (words64 k.total.toNat).2, k.runs])
  else if Reg.TSK_ULATCH0 ≤ off ∧ off ≤ Reg.TSK_ULATCH3 then some (d, d.latched r off)
  else if Reg.TSK_CFLT0 0 ≤ off ∧ off < Reg.TSK_CFLT0 8 then
    if off % 16 = 0 then some (d.readFirst r (d.rd off) (off + 4) [d.rd (off + 4), d.rd (off + 8), d.rd (off + 12)])
    else some (d, d.latched r off)
  else if off = Reg.TSK_RUNMASK0 then some (d, taskMask 0 d.busy)
  else if off = Reg.TSK_RUNMASK1 then some (d, taskMask 32 d.busy)
  else if off = Reg.TSK_OVRMASK0 then some (d, taskMask 0 (fun n => d.flag (F.TSK_STATE_OVR n)))
  else if off = Reg.TSK_OVRMASK1 then some (d, taskMask 32 (fun n => d.flag (F.TSK_STATE_OVR n)))
  else if Reg.TSK_CORESTAT 0 ≤ off ∧ off < Reg.TSK_CORESTAT 8 then some (d, d.coreStat ((off - Reg.TSK_CORESTAT 0) / 4))
  else if Reg.TSK_CORELOAD 0 ≤ off ∧ off < Reg.TSK_CORELOAD 8 then some (d, d.coreLoad ((off - Reg.TSK_CORELOAD 0) / 4) t)
  else none

/-- Registers of block ANG that are computed or latched (R86). -/
def Dev.readAng (d : Dev) (r : Requester) (t off : Nat) : Option (Dev × Word) :=
  if off = Reg.ANG_ANGLE then
    let sec := words64 (d.station t / 1000000000)
    some (d.readFirst r (d.angle t) Reg.ANG_TURNS
      [d.turns t, d.angFreq, d.angRocof, d.angQual t, d.tnsWord t, sec.1, sec.2, d.angDev])
  else if Reg.ANG_TURNS ≤ off ∧ off ≤ Reg.ANG_DEV then some (d, d.latched r off)
  else none

/-- Registers of block FRP that are computed, and the table window (R158, R176). -/
def Dev.readFrp (d : Dev) (t off : Nat) : Option (Dev × Word) :=
  if inWindow off then some (d, d.frpTableRead ((off - 0x100000) / 16) (off / 4 % 4))
  else if off = Reg.FRP_SWEEP then some (d, BitVec.ofNat 32 (t / 64))
  else if Reg.FRP_IMG 0 ≤ off ∧ off < Reg.FRP_IMG 128 then
    some (d, BitVec.ofNat 32 ((d.imageDone t).toNat / 2 ^ (32 * ((off - Reg.FRP_IMG 0) / 4))))
  else none

/-- Registers of blocks XCH, HSB and STD that are computed or latched (R203, R239, R360). -/
def Dev.readXch (d : Dev) (r : Requester) (t off : Nat) : Option (Dev × Word) :=
  if off = Reg.XCH_WINLEFT then some (d, BitVec.ofNat 32 (d.winLeft t))
  else if Reg.XCH_BANKS 0 ≤ off ∧ off < Reg.XCH_BANKS 8 then some (d, d.xchBanks ((off - Reg.XCH_BANKS 0) / 4))
  else if off = Reg.HSB_STAT then some (d, d.hsbStat t)
  else if off = Reg.HSB_HOLDLEFT then some (d, d.holdLeft t)
  else if off = Reg.HSB_LASTHB then some (d, d.lastHbWord t)
  else if off = Reg.XCH_SWMONO0 ∨ off = Reg.HSB_MONOOFS0 ∨ off = Reg.STD_MONOOFS0 then
    some (d.readFirst r (d.rd off) (off + 4) [d.rd (off + 4)])
  else if off = Reg.XCH_SWMONO1 ∨ off = Reg.HSB_MONOOFS1 ∨ off = Reg.STD_MONOOFS1 then some (d, d.latched r off)
  else none

/-- Registers of block QUE that are computed, popped or latched (R322, R340). -/
def Dev.readQue (d : Dev) (r : Requester) (off : Nat) : Option (Dev × Word) :=
  if Reg.QUE_QCOUNT 0 ≤ off ∧ off < Reg.QUE_QCOUNT 32 then some (d, d.queueCount ((off - Reg.QUE_QCOUNT 0) / 4))
  else if Reg.QUE_QITEM 0 0 ≤ off ∧ off < Reg.QUE_QITEM 32 0 then
    if off % 16 = 0 then some (d.queuePop r ((off - Reg.QUE_QITEM 0 0) / 16)) else some (d, d.latched r off)
  else if Reg.QUE_QIN 0 0 ≤ off ∧ off < Reg.QUE_QIN 32 0 then some (d, 0)
  else none

/-- Registers of block PTP that are computed or latched (R246, R273). -/
def Dev.readPtp (d : Dev) (r : Requester) (t off : Nat) : Option (Dev × Word) :=
  if off = Reg.PTP_TNS then
    let sec := words64 (d.station t / 1000000000)
    let mono := words64 t
    some (d.readFirst r (d.tnsWord t) Reg.PTP_TSEC0 [sec.1, sec.2, mono.1, mono.2])
  else if Reg.PTP_TSEC0 ≤ off ∧ off ≤ Reg.PTP_TMONO1 then some (d, d.latched r off)
  else if off = Reg.PTP_STAT then some (d, putBits (d.rd off) 4 4 (b2n (d.stSlewLeft t != 0)))
  else if off = Reg.PTP_SLEWLEFT then some (d, sat32 (d.stSlewLeft t))
  else if off = Reg.PTP_ERREST then
    some (d, match d.errBound t with | some e => BitVec.ofNat 32 (min 0xFFFFFFFF e) | none => 0xFFFFFFFF)
  else if off = Reg.PTP_PPSINNS then
    some (d.readFirst r (d.rd off) Reg.PTP_PPSINSEC0 [d.rd Reg.PTP_PPSINSEC0])
  else if off = Reg.PTP_PPSINSEC0 then some (d, d.latched r off)
  else none

/-- R278: word 0 of CANn_RXF is read by requester r: the frame is popped and the rest of its words latched. -/
def Dev.readRxf (d : Dev) (r : Requester) (n : Nat) : Dev × Word :=
  let x := d.rxfPop n
  x.2.readFirst r (x.1.headD 0) (Reg.CAN_RXF n 1) (x.1.drop 1)

/-- Registers of CAN channel n that are computed, popped or latched (R277, R278, R293). -/
def Dev.readCan (d : Dev) (r : Requester) (n off : Nat) : Option (Dev × Word) :=
  let k := off % 0x1000
  if off = Reg.CAN_STAT n then some (d, putBits (d.rd off) 4 4 (b2n d.leaseHeld))
  else if 0x40 ≤ k ∧ k < 0x160 ∧ (k - 0x40) % 0x60 = 4 then
    let b := (k - 0x40) / 0x60
    let own := b == 0 && d.canEngineOwns n
    let pend := if own then !(d.chan n).engine.isEmpty else d.flag (F.CAN_TXCTL_PEND n b)
    let held := pend && (own || d.flag (F.CAN_TXCTL_GATED n b)) && !d.leaseHeld
    some (d, putBits (putBits (d.rd off) 9 9 (b2n pend)) 14 14 (b2n held))
  else if off = Reg.CAN_RXF n 0 then some (d.readRxf r n)
  else if Reg.CAN_RXF n 0 < off ∧ off < Reg.CAN_RXF n 20 then some (d, d.latched r off)
  else none

/-- Registers of block BIO that follow the pads (R167, R300). -/
def Dev.readBio (d : Dev) (t off : Nat) : Option (Dev × Word) :=
  if off = Reg.BIO_BO0 ∨ off = Reg.BIO_BO1 then
    let d := d.flushPads t
    some (d, d.rd off)
  else if off = Reg.BIO_BRB then some (d, d.brb)
  else none

/-- The time register that stands at an offset, 0 RTC_SUBSEC to 6 RTC_YEAR. -/
def timeIndex (off : Nat) : Option Nat :=
  if Reg.RTC_SUBSEC ≤ off ∧ off ≤ Reg.RTC_YEAR then some ((off - Reg.RTC_SUBSEC) / 4) else none

/-- Registers of block RTC that are computed or frozen, and the backup RAM (R376, R378 to R380). -/
def Dev.readRtc (d : Dev) (r : Requester) (t off : Nat) : Option (Dev × Word) :=
  match timeIndex off with
  | some k => let x := d.readTime t r k; some (x.2, x.1)
  | none =>
    if off = Reg.RTC_HELD then some (d, BitVec.ofNat 32 (d.held t))
    else if off = Reg.RTC_TWPOS then some (d, BitVec.ofNat 32 (d.rtc.raw t % trimWindow))
    else if Reg.RTC_BRAM 0 ≤ off ∧ off < Reg.RTC_BRAM 32 then
      some (if d.rtc.parity.getLsbD ((off - Reg.RTC_BRAM 0) / 4) then d.rtcError t 7 else d, d.rd off)
    else none

/-- Word w of a 256-bit number. -/
def word256 (v : BitVec 256) (w : Nat) : Word := BitVec.ofNat 32 (v.toNat / 2 ^ (32 * w))

/-- Registers of blocks SEC and UPD that are computed (R451, R452). -/
def Dev.readSec (d : Dev) (t off : Nat) : Option (Dev × Word) :=
  if off = Reg.SEC_STAT then some (d, d.secStat)
  else if off = Reg.SEC_WINLEFT then some (d, BitVec.ofNat 32 (d.secLeft t))
  else if off = Reg.SEC_PWD then some (d, d.pwdWord t)
  else if Reg.SEC_ROOTHASH 0 ≤ off ∧ off < Reg.SEC_ROOTHASH 8 then
    some (d, word256 Config.rootHash ((off - Reg.SEC_ROOTHASH 0) / 4))
  else if Reg.SEC_ATTPK 0 ≤ off ∧ off < Reg.SEC_ATTPK 8 then
    some (d, word256 Config.attestKey ((off - Reg.SEC_ATTPK 0) / 4))
  else if off = Reg.UPD_STAT then some (d, d.updStat)
  else if 0x71100 ≤ off ∧ off < 0x71180 then
    let c := (off - 0x71100) / 0x20
    match off % 0x20 with
    | 0x00 => some (d, d.cstatWord c)
    | 0x04 => some (d, d.actVer c)
    | 0x08 => some (d, d.stgVer c)
    | 0x0C => some (d, d.nblkWord c)
    | _ => some (d, BitVec.ofNat 32 (d.updLeft t c))
  else none

/-- A register that is computed, latched or popped by its block. -/
def Dev.readBlock (d : Dev) (r : Requester) (t off : Nat) : Option (Dev × Word) :=
  match off / 0x1000 with
  | 0x00 => d.readSys r t off
  | 0x04 => d.readSys r t off
  | 0x05 => d.readSys r t off
  | 0x10 => d.readTsk r t off
  | 0x11 => d.readAng r t off
  | 0x12 => d.readFrp t off
  | 0x14 => d.readXch r t off
  | 0x15 => d.readXch r t off
  | 0x16 => d.readXch r t off
  | 0x20 => d.readQue r off
  | 0x35 => d.readPtp r t off
  | 0x40 => d.readCan r 0 off
  | 0x41 => d.readCan r 1 off
  | 0x42 => d.readCan r 2 off
  | 0x43 => d.readCan r 3 off
  | 0x50 => d.readBio t off
  | 0x61 => d.readRtc r t off
  | 0x70 => d.readSec t off
  | 0x71 => d.readSec t off
  | _ => d.readFrp t off

/-- A read of an assigned offset by requester r at MONO t, with the word that it returns. -/
def Dev.readReg (d : Dev) (r : Requester) (t off : Nat) : Dev × Word :=
  match ucbAt off with
  | some (u, base) => d.readUcb r t off u base
  | none =>
    match tableAt off with
    | some (u, base) => (d, (d.childTableWords u).getD ((off - base) / 4) 0)
    | none =>
      match d.readBlock r t off with
      | some x => x
      | none => d.readPlain off

/-- A read by a port, the service core or a scan core outside an instruction: R20 and R418 come first. -/
def Dev.csrRead (r : Requester) (off t : Nat) (d : Dev) : Dev :=
  if !(d.mayRead r) || off % 4 != 0 then d
  else
    match r, csrTicks off with
    | .core c b, none => d.coreDenied c b off
    | .core c b, some 0 => d.coreDenied c b off
    | _, none => { d.badAccess r off false true with readData := 0 }
    | _, some _ => let x := d.readReg r t off; { x.1 with readData := x.2 }

/-- FIRST_WORD_READ: a read that latches the rest of its group (R8, R30, R133). -/
def execFirstWordRead (r : Requester) (off : BitVec 24) (s : State) : Host.Outcome State Fault Refusal :=
  s.upd (Dev.csrRead r off.toNat)

/-- READ_CLEAR: a read of a register with an RC field (R5). -/
def execReadClear (r : Requester) (off : BitVec 24) (s : State) : Host.Outcome State Fault Refusal :=
  s.upd (Dev.csrRead r off.toNat)

/-- CAN_RXF_POP: a read of CANn_RXF word 0 (R278). -/
def execCanRxfPop (r : Requester) (n : BitVec 2) (s : State) : Host.Outcome State Fault Refusal :=
  s.upd (fun _ d => if d.mayRead r then let x := d.readRxf r n.toNat; { x.1 with readData := x.2 } else d)

/-- RTC_FREEZE_READ: a read of time register k, 0 RTC_SUBSEC to 6 RTC_YEAR (R378). -/
def execRtcFreezeRead (r : Requester) (k : BitVec 3) (s : State) : Host.Outcome State Fault Refusal :=
  s.upd (fun t d =>
    if d.mayRead r ∧ k.toNat ≤ 6 then let x := d.readTime t r k.toNat; { x.2 with readData := x.1 } else d)

/-- HOST_PARTIAL_ACCESS: an access with a byte enable clear: a write is ignored, a read returns the full word; both are
recorded with PARTIAL = 1 (R19). -/
def execHostPartialAccess (r : Requester) (write : Bool) (off : BitVec 24) (s : State) :
    Host.Outcome State Fault Refusal :=
  s.upd (fun t d =>
    let unmapped := (csrTicks off.toNat).isNone
    let d := d.badAccess r off.toNat true unmapped
    if write then d else if unmapped then { d with readData := 0 } else d.csrRead r off.toNat t)

/-- HOST_UNMAPPED_ACCESS: an access to an offset that no block assigns: a read returns 0, a write is ignored; it is
recorded with UNMAPPED = 1 (R20). -/
def execHostUnmappedAccess (r : Requester) (write : Bool) (off : BitVec 24) (s : State) :
    Host.Outcome State Fault Refusal :=
  s.upd (fun _ d =>
    if (csrTicks off.toNat).isSome then d
    else
      let d := d.badAccess r off.toNat false true
      if write then d else { d with readData := 0 })

end Sys2Proof.Machine
end

