-- ==== Sys2Proof/Machine/CsrWrite.lean ====
section
/-!
DEFINITION. Writes of the CSR space (R5 to R8, R18 to R21, R418, R419): what each block stores, refuses or starts. A
write goes to writeFields where no rule says more.
-/
namespace Sys2Proof.Machine

/-! ## Fields (R5, R6) -/

/-- The mask of the fields of a row that a write stores. -/
def RegRow.storeMask (r : RegRow) : Word :=
  r.fields.foldl (fun m f =>
    match f.ty with
    | .rw => m ||| fieldMask f.hi f.lo
    | .rwl => m ||| fieldMask f.hi f.lo
    | .rws => m ||| fieldMask f.hi f.lo
    | _ => m) 0

/-- The mask of the fields of a row whose bits a 1 clears. -/
def RegRow.w1cMask (r : RegRow) : Word :=
  r.fields.foldl (fun m f => match f.ty with | .w1c => m ||| fieldMask f.hi f.lo | _ => m) 0

/-- R5: the word that a write of v leaves in a register of this row that holds w. -/
def RegRow.written (r : RegRow) (w v : Word) : Word :=
  ((w &&& ~~~r.storeMask) ||| (v &&& r.storeMask)) &&& ~~~(v &&& r.w1cMask)

/-- R5, R6: a write stores RW fields, clears W1C bits, and leaves every other bit. -/
def Dev.writeFields (d : Dev) (off : Nat) (v : Word) : Dev :=
  match rowOf off with
  | some row => d.wr off (row.written (d.rd off) v)
  | none => d

/-- R64: a refused write is ignored and sets TSK_GSTAT.WPROT. -/
def Dev.wprot (d : Dev) : Dev := d.setFld F.TSK_GSTAT_WPROT 1

/-- A write that is accepted in PROGRAM, followed by f; any other is handled as in R64. -/
def Dev.progWrite (d : Dev) (r : Requester) (off : Nat) (v : Word) (f : Dev → Dev) : Dev :=
  if d.progOk r then f (d.writeFields off v) else d.wprot

/-! ## SYS to INT -/

/-- Registers of blocks SYS and SUP. -/
def Dev.writeSys (d : Dev) (r : Requester) (t off : Nat) (v : Word) : Dev :=
  let x := v.toNat
  if off = Reg.SYS_PATHCTL then (if v.getLsbD 0 then d.pathGo t else d)
  else if off = Reg.SYS_RESET then Dev.sysReset r (bitsOf x 3 0) (bitsOf x 10 8) (bitsOf x 31 16) t d
  else if off = Reg.SUP_CTL then (if v.getLsbD 0 then Dev.faultClear (bitsOf x 31 16) t d else d)
  else d.writeFields off v

/-- Registers of block PMU (R414). -/
def Dev.writePmu (d : Dev) (r : Requester) (off : Nat) (v : Word) : Dev :=
  if off = Reg.PMU_TEMPLIM then d.writeFields off v
  else if off = Reg.PMU_VINCFG ∨ off = Reg.PMU_HOLDCFG ∨ off = Reg.PMU_RETCFG then d.progWrite r off v id
  else d

/-- Registers of block WDT (R415). -/
def Dev.writeWdt (d : Dev) (r : Requester) (t off : Nat) (v : Word) : Dev :=
  if off = Reg.WDT_CFG then Dev.wdtConfig v t d
  else if off = Reg.WDT_SERVE then Dev.wdtServe (bitsOf v.toNat 15 0) t d
  else if off = Reg.WDT_TMCFG then (if d.progOk r then d.writeFields off v else d)
  else (d.writeFields off v).touch

/-- Registers of block INT (R342). -/
def Dev.writeInt (d : Dev) (r : Requester) (t off : Nat) (v : Word) : Dev :=
  if off = Reg.INT_RAISE then d.intRaise t (bitsOf v.toNat 7 0) (bitsOf v.toNat 31 16)
  else if Reg.INT_PEND 0 ≤ off ∧ off < Reg.INT_PEND 8 then d.intPendClear ((off - Reg.INT_PEND 0) / 4) v
  else if Reg.INT_EN 0 ≤ off ∧ off < Reg.INT_EN 8 then d.intEnWrite t ((off - Reg.INT_EN 0) / 4) v
  else if Reg.INT_SRCCFG 0 ≤ off then d.srcCfgWrite r ((off - Reg.INT_SRCCFG 0) / 4) v
  else d.writeFields off v

/-! ## TSK, ANG, FRP, IMG -/

/-- TSK_CFG[n] has been written: the task is STOPPED when it is enabled and OFF when it is not. -/
def Dev.afterTskCfg (d : Dev) (n : Nat) : Dev := (d.setSt n (if d.enabled n then 6 else 0)).touchOuts

/-- Word k of the register block of task n (R64); TSK_CODE is refused while an exchange is SWITCHING or in WAITCONF. -/
def Dev.writeTaskReg (d : Dev) (r : Requester) (n k : Nat) (v : Word) : Dev :=
  let off := Reg.TSK_CFG n + 4 * k
  if k = 0 then d.progWrite r off v (fun d => d.afterTskCfg n)
  else if k = 5 then (d.writeFields off v).touch
  else if k = 7 then
    (if d.xst = 3 ∨ d.xst = 4 then d.wprot else d.progWrite r off v id)
  else if k = 4 then d
  else d.progWrite r off v id

/-- TSK_GCTL (R64). -/
def Dev.writeGctl (d : Dev) (v : Word) : Dev :=
  let d := if v.getLsbD 0 then d.ackAll else d
  if v.getLsbD 1 then d.maxClear (bitsOf v.toNat 13 8) else d

/-- Registers of block TSK (R64). -/
def Dev.writeTsk (d : Dev) (r : Requester) (off : Nat) (v : Word) : Dev :=
  if off < Reg.TSK_GCTL then d.writeTaskReg r ((off - 0x10000) / 32) (off / 4 % 8) v
  else if off = Reg.TSK_GCTL then d.writeGctl v
  else d.writeFields off v

/-- ANG_SRC written at MONO t (R71). -/
def Dev.angSrcWrite (d : Dev) (t : Nat) (v : Word) : Dev := (d.writeFields Reg.ANG_SRC v).afterSrc t (d.rd Reg.ANG_SRC)

/-- ANG_COMP written at MONO t (R74). -/
def Dev.angCompWrite (d : Dev) (t : Nat) (v : Word) : Dev :=
  (d.writeFields Reg.ANG_COMP v).afterComp t (d.rd Reg.ANG_COMP)

/-- Registers of block ANG that R86 accepts in STOP and PROGRAM. -/
def Dev.angCfgWrite (d : Dev) (t off : Nat) (v : Word) : Dev :=
  if off = Reg.ANG_CFG then
    let before := d.angRebase t
    Dev.afterAngCfg before (before.writeFields off v) t
  else if off = Reg.ANG_SAMP then Dev.afterAngSamp d (d.writeFields off v) t
  else if off = Reg.ANG_ROCLIM then (d.writeFields off v).checkRocof t
  else d.writeFields off v

/-- Registers of block ANG (R86). -/
def Dev.writeAng (d : Dev) (r : Requester) (t off : Nat) (v : Word) : Dev :=
  if off = Reg.ANG_SRC then d.angSrcWrite t v
  else if off = Reg.ANG_COMP then d.angCompWrite t v
  else if off ≤ Reg.ANG_SAMP then
    (if d.stopOk r then d.angCfgWrite t off v else d.angEvent t 87)
  else d.writeFields off v

/-- FRP_WATCH[k] written at MONO t (R176): VAL takes the value of the bit that is watched from now on. -/
def Dev.frpWatchWrite (d : Dev) (t k : Nat) (v : Word) : Dev :=
  let d := d.writeFields (Reg.FRP_WATCH k) v
  d.setFld (F.FRP_WATCH_VAL k) (b2n ((d.imageDone t).getLsbD (d.fld (F.FRP_WATCH_ADDR k))))

/-- FRP_TBLCTL written at MONO t (R158, R171). -/
def Dev.frpTblctl (d : Dev) (r : Requester) (t : Nat) (v : Word) : Dev :=
  let d := d.writeFields Reg.FRP_TBLCTL v
  if v.getLsbD 0 then d.frpActivate t r else d

/-- Registers of block FRP (R176). -/
def Dev.writeFrp (d : Dev) (r : Requester) (t off : Nat) (v : Word) : Dev :=
  if off = Reg.FRP_TBLCTL then d.frpTblctl r t v
  else if off = Reg.FRP_SNAPCTL then (if v.getLsbD 0 then d.frpSnapGo else d)
  else if Reg.FRP_WATCH 0 ≤ off ∧ off < Reg.FRP_WATCH 8 then d.frpWatchWrite t ((off - Reg.FRP_WATCH 0) / 4) v
  else d.writeFields off v

/-- Registers of block IMG (R64). -/
def Dev.writeImg (d : Dev) (r : Requester) (off : Nat) (v : Word) : Dev :=
  if Reg.IMG_TRGN 0 ≤ off then d.progWrite r off v Dev.touchOuts else d

/-! ## XCH, HSB, STD -/

/-- XCH_CMD written at MONO t by requester r (R187, R196, R197): codes 1 to 5. -/
def Dev.xchCmd (d : Dev) (r : Requester) (t cmd key : Nat) : Dev :=
  if key ≠ 0xE8C6 then d
  else
    match cmd with
    | 1 => d.xchStage t (Requester.cls r)
    | 2 => d.xchArm t
    | 3 => d.xchCancel t
    | 4 => d.xchConfirm t (Requester.cls r)
    | 5 => d.xchRevert t (Requester.cls r)
    | _ => d.xchRefuse t

/-- Registers of block XCH (R187, R203). -/
def Dev.writeXch (d : Dev) (r : Requester) (t off : Nat) (v : Word) : Dev :=
  if off = Reg.XCH_CMD then d.xchCmd r t (bitsOf v.toNat 3 0) (bitsOf v.toNat 31 16)
  else if off = Reg.XCH_DESC ∨ off = Reg.XCH_CFG then
    (if d.progOk r || d.mode == .remote then d.writeFields off v else d)
  else d.writeFields off v

/-- HSB_CMD written at MONO t (R229, R220, R231). -/
def Dev.hsbCommand (d : Dev) (t cmd key : Nat) : Dev := if key = 0xB7A2 then d.hsbCmd t cmd else d

/-- HSB_CFG written at MONO t (R239): HOLDOFF and AUTORET in every mode, EN and MWAIT in PROGRAM. -/
def Dev.hsbCfgWrite (d : Dev) (r : Requester) (t : Nat) (v : Word) : Dev :=
  let was := d.flag F.HSB_CFG_EN
  if d.progOk r then (d.writeFields Reg.HSB_CFG v).afterHsbCfg t was
  else
    let old := d.rd Reg.HSB_CFG
    let any : Word := 0xFFF2
    let d := (d.writeFields Reg.HSB_CFG ((v &&& any) ||| (old &&& ~~~any))).afterHsbCfg t was
    if (v ^^^ old) &&& 0xFF0001 = 0 then d else d.wprot

/-- Registers of block HSB (R239). -/
def Dev.writeHsb (d : Dev) (r : Requester) (t off : Nat) (v : Word) : Dev :=
  if off = Reg.HSB_CFG then d.hsbCfgWrite r t v
  else if off = Reg.HSB_CMD then d.hsbCommand t (bitsOf v.toNat 3 0) (bitsOf v.toNat 31 16)
  else if off = Reg.HSB_EVT then d.writeFields off v
  else if off = Reg.HSB_PUBCFG ∨ off = Reg.HSB_VLAN ∨ (Reg.HSB_PAIRID0 ≤ off ∧ off ≤ Reg.HSB_PAIRID3) ∨
      (Reg.HSB_MTASK 0 ≤ off ∧ off < Reg.HSB_MTASK 8) then d.progWrite r off v id
  else d

/-- Registers of block STD (R360). -/
def Dev.writeStd (d : Dev) (r : Requester) (t off : Nat) (v : Word) : Dev :=
  if off ≤ Reg.STD_ID3 then d.progWrite r off v (fun d => d.rejoinStand t) else d.writeFields off v

/-! ## QUE and HST -/

/-- Registers of block QUE (R319, R321, R340). -/
def Dev.writeQue (d : Dev) (r : Requester) (off : Nat) (v : Word) : Dev :=
  if off < Reg.QUE_QCOUNT 0 then d.queueConfig r ((off - Reg.QUE_CFG 0) / 4) v
  else if Reg.QUE_QIN 0 0 ≤ off ∧ off < Reg.QUE_QIN 32 0 then
    d.queueIn r ((off - Reg.QUE_QIN 0 0) / 16) (off / 4 % 4) v
  else d.writeFields off v

/-- Registers of block HST (R328, R341). -/
def Dev.writeHst (d : Dev) (t off : Nat) (v : Word) : Dev :=
  if off = Reg.HST_DBELL then Dev.ring (bitsOf v.toNat 3 0) t d else d.writeFields off v

/-! ## ETH, SWX, PTP -/

/-- Registers of port p, word at k of its block (R271). -/
def Dev.writeEth (d : Dev) (r : Requester) (t p k : Nat) (v : Word) : Dev :=
  let off := Reg.ETH_CFG p + k
  if k = 0x08 then (d.setBucket t p (d.bucket t p)).writeFields off v
  else if k = 0x04 ∨ (0x10 ≤ k ∧ k < 0x30) then d.writeFields off v
  else if k = 0x00 then d.progWrite r off v (fun d => (d.settleLink t p).settlePorts t)
  else if k = 0x5C then d.progWrite r off v (fun d => d.settleLink t p)
  else if k = 0x30 ∨ k = 0x34 then d.progWrite r off v id
  else if k = 0x3C ∨ (0x80 ≤ k ∧ k < 0xA0) then d.progWrite r off v (Dev.releaseHeld t p)
  else d

/-- SWX_PHYCTL written at MONO t (R241). -/
def Dev.phyCtlWrite (d : Dev) (t : Nat) (v : Word) : Dev :=
  (d.writeFields Reg.SWX_PHYCTL v).afterPhyCtl t (d.rd Reg.SWX_PHYCTL)

/-- R419: the first n words of a staged entry differ from the stored ones in EN alone. -/
def enAlone (old new : Nat → Nat) (n : Nat) : Bool :=
  (List.range n).all (fun k => if k = 0 then old 0 / 2 == new 0 / 2 else old k == new k)

/-- SWX_SUBCTL written by requester r at MONO t (R259, R272, R419). -/
def Dev.subAccess (d : Dev) (r : Requester) (t : Nat) (v : Word) : Dev :=
  let fits := enAlone (d.subWord (bitsOf v.toNat 9 0)) (fun k => (d.rd (Reg.SWX_SUBDATA k)).toNat) 8
  if r == .lan && v.getLsbD 16 && v.getLsbD 17 && !fits then d else d.subCtl (d.progOk r) t v

/-- SWX_PUBCTL written by requester r at MONO t (R264, R272, R419). -/
def Dev.pubAccess (d : Dev) (r : Requester) (t : Nat) (v : Word) : Dev :=
  let fits := enAlone (d.pubWord (bitsOf v.toNat 6 0)) (fun k => (d.rd (Reg.SWX_PUBDATA k)).toNat) 28
  if r == .lan && v.getLsbD 16 && v.getLsbD 17 && !fits then d else d.pubCtl (d.progOk r) t v

/-- Registers of block SWX (R272). -/
def Dev.writeSwx (d : Dev) (r : Requester) (t off : Nat) (v : Word) : Dev :=
  if off = Reg.SWX_PHYCTL then d.phyCtlWrite t v
  else if off = Reg.SWX_MDIO then d.mdioWrite t v
  else if off = Reg.SWX_SUBCTL then d.subAccess r t v
  else if off = Reg.SWX_PUBCTL then d.pubAccess r t v
  else if off = Reg.SWX_STAT ∨ Reg.SWX_SUBDATA 0 ≤ off then d.writeFields off v
  else if d.progOk r then d.writeFields off v
  else d

/-- R252, R373: PTP_CMD written by requester r at MONO t; a set of station time is journaled. -/
def Dev.ptpSetTime (d : Dev) (r : Requester) (t : Nat) (v : Word) : Dev :=
  let e := d.ptpCmd t v
  if d.station t = e.station t then e
  else
    e.journal t 7 (Requester.cls r) 2 [d.station t % 1000000000, d.station t / 1000000000, e.station t % 1000000000,
      e.station t / 1000000000]

/-- PTP_IRIGCFG has been written at MONO t: an input that is disabled shows no signal (R257, R258). -/
def Dev.afterIrigCfg (d : Dev) (t : Nat) : Dev :=
  let irig := d.flag F.PTP_IRIGCFG_IRIGEN && d.flag F.PTP_IRIGSTAT_IRIGOK
  let pps := d.flag F.PTP_IRIGCFG_PPSEN && d.flag F.PTP_IRIGSTAT_PPSOK
  (d.setIrig t irig pps (irig && pps && d.flag F.PTP_IRIGSTAT_ALIGNED)).settleTime t

/-- PTP_CFG written at MONO t (R273): TWOSTEP in PROGRAM, every other field in every mode. -/
def Dev.ptpCfgWrite (d : Dev) (r : Requester) (t : Nat) (v : Word) : Dev :=
  let v := if d.progOk r then v else (v &&& ~~~4) ||| (d.rd Reg.PTP_CFG &&& 4)
  ((d.stRebase t).writeFields Reg.PTP_CFG v).settleTime t

/-- Registers of block PTP (R273). -/
def Dev.writePtp (d : Dev) (r : Requester) (t off : Nat) (v : Word) : Dev :=
  let prog (f : Dev → Dev) : Dev := if d.progOk r then f (d.writeFields off v) else d
  if off = Reg.PTP_CFG then d.ptpCfgWrite r t v
  else if off = Reg.PTP_CMD then d.ptpSetTime r t v
  else if off = Reg.PTP_TQCFG then (d.writeFields off v).settleTime t
  else if off = Reg.PTP_PPSOUT then (d.writeFields off v).holdPps t
  else if off = Reg.PTP_DCFG 0 then prog (fun d => d.afterDcfg t 0)
  else if off = Reg.PTP_DCFG 1 then prog (fun d => d.afterDcfg t 1)
  else if off = Reg.PTP_DPRIO 0 ∨ off = Reg.PTP_DPRIO 1 then prog (fun d => d.settlePorts t)
  else if off = Reg.PTP_IRIGCFG then prog (fun d => d.afterIrigCfg t)
  else d.writeFields off v

/-! ## CAN -/

/-- R293: the word at k of a CAN block is a setting that R293 accepts in PROGRAM while MODE = 3. -/
def canSetting (k : Nat) : Bool :=
  k == 0x00 || k == 0x08 || k == 0x0C || k == 0x10 || k == 0x28 || k == 0x34 ||
    (decide (0x200 ≤ k) && decide (k < 0x400)) || (List.range 16).any (fun i => k == Reg.CAN_STACFG 0 i - Reg.CAN_CFG 0)

/-- Word at j of transmit buffer b of channel n (R276, R293): buffer 0 is refused while the engine owns it. -/
def Dev.txBufWrite (d : Dev) (t n b j : Nat) (v : Word) : Dev :=
  if j = 4 then d.txCtl t n b v
  else if b = 0 ∧ d.canEngineOwns n then d.setFld (F.CAN_STAT_REFUSED n) 1
  else d.writeFields (Reg.CAN_TXID n b + j) v

/-- Registers of CAN channel n, word at k of its block (R293). -/
def Dev.writeCan (d : Dev) (r : Requester) (t n k : Nat) (v : Word) : Dev :=
  let off := Reg.CAN_CFG n + k
  if canSetting k then (if d.canMode n = 3 then d.progWrite r off v id else d.wprot)
  else if k = 0x04 then d.canModeWrite t n v
  else if k = 0x24 then d.fcmd n v
  else if 0x40 ≤ k ∧ k < 0x160 then d.txBufWrite t n ((k - 0x40) / 0x60) ((k - 0x40) % 0x60) v
  else d.writeFields off v

/-! ## BIO and ADC -/

/-- R317: a refused write of a BIO setting sets BIO_STAT.CFG and raises source 139. -/
def Dev.bioRefuse (d : Dev) (t : Nat) : Dev := d.raiseFlag t 139 Reg.BIO_STAT 11

/-- BIO_BICFG[n] written by requester r at MONO t (R294, R317). -/
def Dev.biCfgWrite (d : Dev) (r : Requester) (t n : Nat) (v : Word) : Dev :=
  if d.progOk r then (d.writeFields (Reg.BIO_BICFG n) v).afterBiCfg n (d.rd (Reg.BIO_BICFG n)) else d.bioRefuse t

/-- BIO_RBEN written by requester r at MONO t (R301, R317). -/
def Dev.rbenWrite (d : Dev) (r : Requester) (t : Nat) (v : Word) : Dev :=
  if d.progOk r then (d.writeFields Reg.BIO_RBEN v).afterRben t else d.bioRefuse t

/-- Registers of block BIO (R317). -/
def Dev.writeBio (d : Dev) (r : Requester) (t off : Nat) (v : Word) : Dev :=
  let prog (f : Dev → Dev) : Dev := if d.progOk r then f (d.writeFields off v) else d.bioRefuse t
  if off = Reg.BIO_CTL ∨ (Reg.BIO_RBCFG 0 ≤ off ∧ off < Reg.BIO_RBCFG 32) then prog id
  else if off = Reg.BIO_BOSAFE0 ∨ off = Reg.BIO_BOSAFE1 then prog Dev.touchOuts
  else if off = Reg.BIO_RBINV then prog (fun d => forN 32 (fun n d => d.compareBack t n) d)
  else if off = Reg.BIO_RBEN then d.rbenWrite r t v
  else if Reg.BIO_BICFG 0 ≤ off ∧ off < Reg.BIO_BICFG 96 then d.biCfgWrite r t ((off - Reg.BIO_BICFG 0) / 4) v
  else d.writeFields off v

/-- R318: ADC_STAT.CFG is set and source 143 raised. -/
def Dev.adcCfgEvent (d : Dev) (t : Nat) : Dev := d.raiseFlag t 143 Reg.ADC_STAT 11

/-- ADC_CFG has been written at MONO t (R305, R308). -/
def Dev.afterAdcCfg (d : Dev) (t : Nat) : Dev := forN 24 (fun c d => d.refreshChannel t c) (d.settleAdc t)

/-- R318: a write of a comparator by requester r is accepted: in REMOTE, STOP and PROGRAM, and from a task in every mode
that it runs in (log 100). -/
def Dev.thrOk (d : Dev) (r : Requester) : Bool :=
  (match r with | .core _ _ => true | _ => false) || d.stopOk r || d.mode == .remote

/-- R309: words of comparator k written by requester r at MONO t: word 0 waits for word 1, both for the next sample. -/
def Dev.thrWrite (d : Dev) (r : Requester) (t k w : Nat) (v : Word) : Dev :=
  if d.thrOk r then
    let c := d.comparator k
    if w = 0 then
      let d := d.setComparator k { c with held0 := some v }
      if 24 ≤ bitsOf v.toNat 4 0 then d.adcCfgEvent t else d
    else
      let now := match c.held with | some p => p.1 | none => d.rd (Reg.ADC_THR0 k)
      d.setComparator k { c with held := some (c.held0.getD now, v), held0 := none }
  else d.adcCfgEvent t

/-- ADC_RMSCFG has been written at MONO t: a window outside its range sets CFG (R318). -/
def Dev.afterRmsCfg (d : Dev) (t : Nat) : Dev :=
  let w := d.fld F.ADC_RMSCFG_WIN
  if w < 96 ∨ 7680 < w then d.adcCfgEvent t else d

/-- Registers of block ADC (R318). -/
def Dev.writeAdc (d : Dev) (r : Requester) (t off : Nat) (v : Word) : Dev :=
  if off = Reg.ADC_CFG then (if d.progOk r then (d.writeFields off v).afterAdcCfg t else d.adcCfgEvent t)
  else if off = Reg.ADC_RMSCFG then (if d.stopOk r then (d.writeFields off v).afterRmsCfg t else d.adcCfgEvent t)
  else if Reg.ADC_THR0 0 ≤ off then d.thrWrite r t ((off - Reg.ADC_THR0 0) / 8) (off / 4 % 2) v
  else if Reg.ADC_GAIN 0 ≤ off ∧ off < Reg.ADC_GAIN 24 ∧ off % 16 ≠ 12 then
    (if d.stopOk r then d.writeFields off v else d.adcCfgEvent t)
  else d.writeFields off v

/-! ## NVS -/

/-- Registers of block NVS (R365, R386): the reserve forgets the address when VALID of NVS_PFADDR is cleared. -/
def Dev.writeNvs (d : Dev) (off : Nat) (v : Word) : Dev :=
  let d := d.writeFields off v
  if off = Reg.NVS_PFADDR ∧ v.getLsbD 31 then { d with nvs := { d.nvs with interrupted := none } } else d

/-! ## RTC -/

/-- A word of backup RAM written (R376). -/
def Dev.bramWrite (d : Dev) (k : Nat) (v : Word) : Dev :=
  let d := d.wr (Reg.RTC_BRAM k) v
  { d with rtc := { d.rtc with parity := d.rtc.parity &&& ~~~(BitVec.twoPow 32 k) } }

/-- Registers of block RTC (R379 to R387). -/
def Dev.writeRtc (d : Dev) (r : Requester) (t off : Nat) (v : Word) : Dev :=
  match timeIndex off with
  | some k => d.writeTime t k v
  | none =>
    if off = Reg.RTC_CTL then d.rtcCtl t (Requester.cls r) v
    else if off = Reg.RTC_ALM0 ∨ off = Reg.RTC_ALM1 then (d.writeFields off v).setFld F.RTC_ALMCTL_ARM 0
    else if off = Reg.RTC_ALMCTL then d.alarmCtl t v
    else if off = Reg.RTC_WAKEPER then d.setWake t v
    else if off = Reg.RTC_TRIM then d.setTrim t (Requester.cls r) (v.toNat % 4096)
    else if Reg.RTC_BRAM 0 ≤ off then d.bramWrite ((off - Reg.RTC_BRAM 0) / 4) v
    else d.writeFields off v

/-! ## All blocks -/

/-- A write of an assigned offset by requester r at MONO t. -/
def Dev.writeReg (d : Dev) (r : Requester) (t off : Nat) (v : Word) : Dev :=
  if inWindow off then d.frpTableWrite r ((off - 0x100000) / 16) (off / 4 % 4) v
  else
    match off / 0x1000 with
    | 0x00 => d.writeSys r t off v
    | 0x01 => d.writeSys r t off v
    | 0x03 => d.writePmu r off v
    | 0x04 => d.writeWdt r t off v
    | 0x05 => d.writeInt r t off v
    | 0x10 => d.writeTsk r off v
    | 0x11 => d.writeAng r t off v
    | 0x12 => d.writeFrp r t off v
    | 0x13 => d.writeImg r off v
    | 0x14 => d.writeXch r t off v
    | 0x15 => d.writeHsb r t off v
    | 0x16 => d.writeStd r t off v
    | 0x20 => d.writeQue r off v
    | 0x21 => d.writeHst t off v
    | 0x30 => d.writeEth r t 0 (off % 0x1000) v
    | 0x31 => d.writeEth r t 1 (off % 0x1000) v
    | 0x32 => d.writeEth r t 2 (off % 0x1000) v
    | 0x33 => d.writeEth r t 3 (off % 0x1000) v
    | 0x34 => d.writeSwx r t off v
    | 0x35 => d.writePtp r t off v
    | 0x40 => d.writeCan r t 0 (off % 0x1000) v
    | 0x41 => d.writeCan r t 1 (off % 0x1000) v
    | 0x42 => d.writeCan r t 2 (off % 0x1000) v
    | 0x43 => d.writeCan r t 3 (off % 0x1000) v
    | 0x50 => d.writeBio r t off v
    | 0x51 => d.writeAdc r t off v
    | 0x60 => d.writeNvs off v
    | 0x61 => d.writeRtc r t off v
    | _ => d.writeFields off v

/-- A write by a port or the service core, or by a scan core outside an instruction: R20, R21 and R418 come first. -/
def Dev.csrWrite (r : Requester) (off : Nat) (v : Word) (t : Nat) (d : Dev) : Dev :=
  if off % 4 ≠ 0 then d
  else
    match r, csrTicks off with
    | .core c b, none => d.coreDenied c b off
    | .core c b, some 0 => d.coreDenied c b off
    | .uart, none => if d.accessOpen then d.badAccess r off false true else d
    | _, none => d.badAccess r off false true
    | _, some _ => if d.mayWrite r off then d.writeReg r t off v else d

/-! ## Commands -/

/-- CSR_WRITE: a write of a register (R5, R6, R20, R21, R418, R419). -/
def execCsrWrite (r : Requester) (off : BitVec 24) (v : Word) (s : State) : Host.Outcome State Fault Refusal :=
  s.upd (Dev.csrWrite r off.toNat v)

/-- f done where requester r may write the register at an offset (R21, R418, R419). -/
def State.asWrite (s : State) (r : Requester) (off : Nat) (f : Nat → Dev → Dev) : Host.Outcome State Fault Refusal :=
  s.upd (fun t d => d.access r off (f t))

/-- PATH_RESOLVE: SYS_PATHCTL.GO (R32). -/
def execPathResolve (r : Requester) (s : State) : Host.Outcome State Fault Refusal :=
  s.asWrite r Reg.SYS_PATHCTL (fun t d => d.pathGo t)

/-- TASK_ACK_ALL: TSK_GCTL.ACKALL (R64). -/
def execTaskAckAll (r : Requester) (s : State) : Host.Outcome State Fault Refusal :=
  s.asWrite r Reg.TSK_GCTL (fun _ d => d.ackAll)

/-- TASK_MAX_CLEAR: TSK_GCTL.MAXCLR (R64). -/
def execTaskMaxClear (r : Requester) (task : BitVec 6) (s : State) : Host.Outcome State Fault Refusal :=
  s.asWrite r Reg.TSK_GCTL (fun _ d => d.maxClear task.toNat)

/-- ANG_SRC_WRITE (R71). -/
def execAngSrcWrite (r : Requester) (v : Word) (s : State) : Host.Outcome State Fault Refusal :=
  s.asWrite r Reg.ANG_SRC (fun t d => d.angSrcWrite t v)

/-- ANG_COMP_WRITE (R74). -/
def execAngCompWrite (r : Requester) (v : Word) (s : State) : Host.Outcome State Fault Refusal :=
  s.asWrite r Reg.ANG_COMP (fun t d => d.angCompWrite t v)

/-- FRP_TABLE_WRITE: a write of the fast rung table window (R158). -/
def execFrpTableWrite (r : Requester) (rung : BitVec 12) (word : BitVec 2) (v : Word) (s : State) :
    Host.Outcome State Fault Refusal :=
  s.asWrite r (0x100000 + 16 * rung.toNat + 4 * word.toNat) (fun _ d => d.frpTableWrite r rung.toNat word.toNat v)

/-- FRP_ACTIVATE: FRP_TBLCTL.ACTIVATE (R171). -/
def execFrpActivate (r : Requester) (s : State) : Host.Outcome State Fault Refusal :=
  s.asWrite r Reg.FRP_TBLCTL (fun t d => d.frpActivate t r)

/-- FRP_SNAPSHOT: FRP_SNAPCTL.GO (R176). -/
def execFrpSnapshot (r : Requester) (s : State) : Host.Outcome State Fault Refusal :=
  s.asWrite r Reg.FRP_SNAPCTL (fun _ d => d.frpSnapGo)

/-- XCH_STAGE: XCH_CMD code 1 (R187). -/
def execXchStage (r : Requester) (key : BitVec 16) (s : State) : Host.Outcome State Fault Refusal :=
  s.asWrite r Reg.XCH_CMD (fun t d => d.xchCmd r t 1 key.toNat)

/-- XCH_ARM: XCH_CMD code 2 (R187). -/
def execXchArm (r : Requester) (key : BitVec 16) (s : State) : Host.Outcome State Fault Refusal :=
  s.asWrite r Reg.XCH_CMD (fun t d => d.xchCmd r t 2 key.toNat)

/-- XCH_CANCEL: XCH_CMD code 3 (R187). -/
def execXchCancel (r : Requester) (key : BitVec 16) (s : State) : Host.Outcome State Fault Refusal :=
  s.asWrite r Reg.XCH_CMD (fun t d => d.xchCmd r t 3 key.toNat)

/-- XCH_CONFIRM: XCH_CMD code 4 (R196). -/
def execXchConfirm (r : Requester) (key : BitVec 16) (s : State) : Host.Outcome State Fault Refusal :=
  s.asWrite r Reg.XCH_CMD (fun t d => d.xchCmd r t 4 key.toNat)

/-- XCH_REVERT: XCH_CMD code 5 (R197). -/
def execXchRevert (r : Requester) (key : BitVec 16) (s : State) : Host.Outcome State Fault Refusal :=
  s.asWrite r Reg.XCH_CMD (fun t d => d.xchCmd r t 5 key.toNat)

/-- HANDOVER_CMD: HSB_CMD code 1, or the device's own call of a handover when it is no longer fit for control (R229). -/
def execHandoverCmd (cmd : Option (Requester × BitVec 16)) (s : State) : Host.Outcome State Fault Refusal :=
  match cmd with
  | some (r, key) => s.asWrite r Reg.HSB_CMD (fun t d => d.hsbCommand t 1 key.toNat)
  | none => s.upd (fun t d => d.handoverIfUnfit t)

/-- HSB_RELINQUISH_PUB: HSB_CMD code 2 (R220). -/
def execHsbRelinquishPub (r : Requester) (key : BitVec 16) (s : State) : Host.Outcome State Fault Refusal :=
  s.asWrite r Reg.HSB_CMD (fun t d => d.hsbCommand t 2 key.toNat)

/-- HSB_SET_RETINH: HSB_CMD code 3 (R231). -/
def execHsbSetRetinh (r : Requester) (key : BitVec 16) (s : State) : Host.Outcome State Fault Refusal :=
  s.asWrite r Reg.HSB_CMD (fun t d => d.hsbCommand t 3 key.toNat)

/-- HSB_CLEAR_RETINH: HSB_CMD code 4 (R231). -/
def execHsbClearRetinh (r : Requester) (key : BitVec 16) (s : State) : Host.Outcome State Fault Refusal :=
  s.asWrite r Reg.HSB_CMD (fun t d => d.hsbCommand t 4 key.toNat)

/-- PTP_SET_TIME: a write of PTP_CMD (R252). -/
def execPtpSetTime (r : Requester) (v : Word) (s : State) : Host.Outcome State Fault Refusal :=
  s.asWrite r Reg.PTP_CMD (fun t d => d.ptpSetTime r t v)

/-- MDIO_FRAME: a write of SWX_MDIO (R241). -/
def execMdioFrame (r : Requester) (v : Word) (s : State) : Host.Outcome State Fault Refusal :=
  s.asWrite r Reg.SWX_MDIO (fun t d => d.mdioWrite t v)

/-- PHY_RESET_CONTROL: a write of SWX_PHYCTL (R241). -/
def execPhyResetControl (r : Requester) (v : Word) (s : State) : Host.Outcome State Fault Refusal :=
  s.asWrite r Reg.SWX_PHYCTL (fun t d => d.phyCtlWrite t v)

/-- SUB_ACCESS: a write of SWX_SUBCTL (R259, R272). -/
def execSubAccess (r : Requester) (v : Word) (s : State) : Host.Outcome State Fault Refusal :=
  s.asWrite r Reg.SWX_SUBCTL (fun t d => d.subAccess r t v)

/-- PUB_ACCESS: a write of SWX_PUBCTL (R264, R272). -/
def execPubAccess (r : Requester) (v : Word) (s : State) : Host.Outcome State Fault Refusal :=
  s.asWrite r Reg.SWX_PUBCTL (fun t d => d.pubAccess r t v)

/-- CAN_TX_REQUEST: a write of CANn_TXCTL[b] with REQ (R276). -/
def execCanTxRequest (r : Requester) (n b : BitVec 2) (v : Word) (s : State) : Host.Outcome State Fault Refusal :=
  s.asWrite r (Reg.CAN_TXCTL n.toNat b.toNat)
    (fun t d => if b.toNat < 3 then d.txCtl t n.toNat b.toNat (v ||| 0x100) else d)

/-- CAN_TX_ABORT: a write of CANn_TXCTL[b] with ABORT (R276). -/
def execCanTxAbort (r : Requester) (n b : BitVec 2) (v : Word) (s : State) : Host.Outcome State Fault Refusal :=
  s.asWrite r (Reg.CAN_TXCTL n.toNat b.toNat)
    (fun t d => if b.toNat < 3 then d.txCtl t n.toNat b.toNat (v ||| 0x800) else d)

/-- CAN_MODE_WRITE: a write of CANn_CTL (R280). -/
def execCanModeWrite (r : Requester) (n : BitVec 2) (v : Word) (s : State) : Host.Outcome State Fault Refusal :=
  s.asWrite r (Reg.CAN_CTL n.toNat) (fun t d => d.canModeWrite t n.toNat v)

/-- FRELUPO_COMMAND: a write of CANn_FCMD (R290). -/
def execFrelupoCommand (r : Requester) (n : BitVec 2) (v : Word) (s : State) : Host.Outcome State Fault Refusal :=
  s.asWrite r (Reg.CAN_FCMD n.toNat) (fun _ d => d.fcmd n.toNat v)

/-- BI_INV_WRITE: a write of BIO_BICFG[n] (R294). -/
def execBiInvWrite (r : Requester) (n : BitVec 7) (v : Word) (s : State) : Host.Outcome State Fault Refusal :=
  s.asWrite r (Reg.BIO_BICFG n.toNat) (fun t d => if n.toNat < 96 then d.biCfgWrite r t n.toNat v else d)

/-- RBEN_WRITE: a write of BIO_RBEN (R301). -/
def execRbenWrite (r : Requester) (v : Word) (s : State) : Host.Outcome State Fault Refusal :=
  s.asWrite r Reg.BIO_RBEN (fun t d => d.rbenWrite r t v)

/-- THRESHOLD_WRITE: a write of ADC_THR1[t], which takes the word written to ADC_THR0[t] with it (R309). -/
def execThresholdWrite (r : Requester) (t : BitVec 8) (v : Word) (s : State) : Host.Outcome State Fault Refusal :=
  s.asWrite r (Reg.ADC_THR1 t.toNat) (fun now d => d.thrWrite r now t.toNat 1 v)

/-- RTC_HALT: RTC_CTL.HALT is set (R379). -/
def execRtcHalt (r : Requester) (s : State) : Host.Outcome State Fault Refusal :=
  s.asWrite r Reg.RTC_CTL (fun t d => d.rtcCtl t (Requester.cls r) 1)

/-- RTC_RUN: RTC_CTL.HALT is cleared (R379). -/
def execRtcRun (r : Requester) (s : State) : Host.Outcome State Fault Refusal :=
  s.asWrite r Reg.RTC_CTL (fun t d => d.rtcCtl t (Requester.cls r) 0)

/-- RTC_TIME_WRITE: a write of time register k, 0 RTC_SUBSEC to 6 RTC_YEAR (R379). -/
def execRtcTimeWrite (r : Requester) (k : BitVec 3) (v : BitVec 32) (s : State) : Host.Outcome State Fault Refusal :=
  s.asWrite r (Reg.RTC_SUBSEC + 4 * k.toNat) (fun t d => if k.toNat ≤ 6 then d.writeTime t k.toNat v else d)

/-- RTC_ALARM_ARM: RTC_ALMCTL.ARM is set (R383). -/
def execRtcAlarmArm (r : Requester) (s : State) : Host.Outcome State Fault Refusal :=
  s.asWrite r Reg.RTC_ALMCTL (fun t d => d.alarmCtl t 1)

/-- The word of RTC_CTL that keeps HALT and sets one of its command bits. -/
def Dev.ctlWord (d : Dev) (bits : Word) : Word := (d.rd Reg.RTC_CTL &&& 1) ||| bits

/-- RTC_MEASURE_START: RTC_CTL.MEASGO, HALT unchanged (R381). -/
def execRtcMeasureStart (r : Requester) (s : State) : Host.Outcome State Fault Refusal :=
  s.asWrite r Reg.RTC_CTL (fun t d => d.rtcCtl t (Requester.cls r) (d.ctlWord 0x100))

/-- RTC_MEASURE_STOP: RTC_CTL.MEASSTOP, HALT unchanged (R381). -/
def execRtcMeasureStop (r : Requester) (s : State) : Host.Outcome State Fault Refusal :=
  s.asWrite r Reg.RTC_CTL (fun t d => d.rtcCtl t (Requester.cls r) (d.ctlWord 0x200))

/-- RTC_TRIM_APPLY: RTC_CTL.APPLY, HALT unchanged (R381). -/
def execRtcTrimApply (r : Requester) (s : State) : Host.Outcome State Fault Refusal :=
  s.asWrite r Reg.RTC_CTL (fun t d => d.rtcCtl t (Requester.cls r) (d.ctlWord 0x10000))

end Sys2Proof.Machine
end

