-- ==== Sys2Proof/Machine/Flags.lean ====
section
/-!
DEFINITION. The registers of a run as instructions use them (R87 to R91): word, index and accumulator registers, the bit
accumulator stack, FL and its flags, the conditions (R97), the load shadow (R104, R105) and the fitting of exact
results (R95, R139).
-/
namespace Sys2Proof.Machine

/-- An instruction or a repetition ends in a core fault: its CODE and its DETAIL (R108, R110). -/
abbrev Trap := Nat × Word

/-! ## Registers -/

/-- Registers W0 to W15, X0 to X3 and A0 to A3. -/
def Bank.getW (b : Bank) (n : Nat) : Word := Sparse.get (fun _ => 0) b.w n
def Bank.setW (b : Bank) (n : Nat) (v : Word) : Bank := { b with w := Sparse.set (fun _ => 0) b.w n v }
def Bank.getX (b : Bank) (n : Nat) : Word := Sparse.get (fun _ => 0) b.x n
def Bank.setX (b : Bank) (n : Nat) (v : Word) : Bank := { b with x := Sparse.set (fun _ => 0) b.x n v }
def Bank.getA (b : Bank) (n : Nat) : BitVec 72 := Sparse.get (fun _ => 0) b.a n
def Bank.setA (b : Bank) (n : Nat) (v : BitVec 72) : Bank := { b with a := Sparse.set (fun _ => 0) b.a n v }

/-! ## FL (R88) -/

/-- Bits of FL. -/
def flZ : Nat := 0
def flN : Nat := 1
def flC : Nat := 2
def flV : Nat := 3
def flSat : Nat := 4
def flGov : Nat := 5
def flSd : Nat := 8

/-- Flag i of FL. -/
def Bank.flag (b : Bank) (i : Nat) : Bool := b.fl.getLsbD i

/-- Flag i of FL set to v. -/
def Bank.setFlag (b : Bank) (i : Nat) (v : Bool) : Bank :=
  { b with fl := if v then b.fl ||| BitVec.twoPow 32 i else b.fl &&& ~~~(BitVec.twoPow 32 i) }

/-- A sticky flag: set when v, unchanged otherwise. -/
def Bank.stick (b : Bank) (i : Nat) (v : Bool) : Bank := if v then b.setFlag i true else b

/-- FL.RM as a rounding mode. -/
def Bank.rm (b : Bank) : Rounding := roundingOf (b.fl.toNat / 64 % 4)

/-- R88: FL as an instruction reads it, with LS and BD. -/
def Bank.readFl (b : Bank) : Word :=
  (b.fl &&& 0x1FF) ||| BitVec.ofNat 32 (b2n (!b.shadow.isEmpty) * 2 ^ 9 + b.ba.length * 2 ^ 10)

/-- R129: FL written: LS, BD and the reserved bits are ignored. -/
def Bank.writeFl (b : Bank) (v : Word) : Bank := { b with fl := v &&& 0x1FF }

/-- Z and N of a word result. -/
def Bank.zn (b : Bank) (v : Word) : Bank := (b.setFlag flZ (v == 0)).setFlag flN v.msb

/-- R146: Z and N of an accumulator result. -/
def Bank.znAcc (b : Bank) (v : BitVec 72) : Bank := (b.setFlag flZ (v == 0)).setFlag flN v.msb

/-! ## The bit accumulator stack (R89, R112) -/

/-- BT, with BD at least 1. -/
def Bank.bt (b : Bank) : Bool := b.ba.headD false

/-- R112: the least BD with which an instruction may start. -/
def Bank.need (b : Bank) (n : Nat) : Except Trap Unit := if n ≤ b.ba.length then .ok () else .error (11, 0)

/-- push(v). -/
def Bank.push (b : Bank) (v : Bool) : Except Trap Bank :=
  if b.ba.length < 16 then .ok { b with ba := v :: b.ba } else .error (12, 0)

/-- BT replaced, with BD at least 1. -/
def Bank.setBt (b : Bank) (v : Bool) : Bank := { b with ba := v :: b.ba.drop 1 }

/-- BT replaced by f of it. -/
def Bank.mapBt (b : Bank) (f : Bool → Bool) : Except Trap Bank := (b.need 1).map (fun _ => b.setBt (f b.bt))

/-- The top two entries combined into one: f of the second and the top. -/
def Bank.combine (b : Bank) (f : Bool → Bool → Bool) : Except Trap Bank :=
  match b.ba with
  | x :: y :: rest => .ok { b with ba := f y x :: rest }
  | _ => .error (11, 0)

/-- pop(): the entry, and the bank without it. -/
def Bank.pop (b : Bank) : Except Trap (Bool × Bank) :=
  match b.ba with
  | x :: rest => .ok (x, { b with ba := rest })
  | [] => .error (11, 0)

/-! ## Conditions (R97) -/

/-- R97: the condition byte is legal: bits [7:4] are 0, and code 15 is reserved. -/
def condLegal (cc : BitVec 8) : Bool := Nat.ble cc.toNat 14

/-- R97: the condition of a code; a test of BT with BD = 0 is BA_UNDERFLOW (R89). -/
def Bank.test (b : Bank) (cc : Nat) : Except Trap Bool :=
  let z := b.flag flZ
  let n := b.flag flN
  let c := b.flag flC
  let v := b.flag flV
  match cc with
  | 0 => .ok z
  | 1 => .ok (!z)
  | 2 => .ok (n != v)
  | 3 => .ok (n == v)
  | 4 => .ok (!z && n == v)
  | 5 => .ok (z || n != v)
  | 6 => .ok c
  | 7 => .ok (!c)
  | 8 => .ok n
  | 9 => .ok (!n)
  | 10 => .ok v
  | 11 => .ok (!v)
  | 12 => (b.need 1).map (fun _ => b.bt)
  | 13 => (b.need 1).map (fun _ => !b.bt)
  | _ => .ok (b.flag flSat)

/-! ## The load shadow (R104, R105) -/

/-- R104: a load defers the write of its destination to the end of the second instruction that follows it; the end of the
load itself counts down as well. -/
def Bank.defer (b : Bank) (toX : Bool) (reg : Nat) (v : Word) : Bank :=
  { b with shadow := b.shadow ++ [{ toX := toX, reg := reg, value := v, left := 3 }] }

/-- A deferred write done. -/
def Bank.deferred (b : Bank) (p : ShadowWrite) : Bank := if p.toX then b.setX p.reg p.value else b.setW p.reg p.value

/-- R104, R105: an instruction or a repetition ends: the writes that are due land, the oldest first. -/
def Bank.land (b : Bank) : Bank :=
  let b1 := (b.shadow.filter (fun p => Nat.ble p.left 1)).foldl Bank.deferred b
  { b1 with shadow := (b.shadow.filter (fun p => Nat.blt 1 p.left)).map (fun p => { p with left := p.left - 1 }) }

/-! ## Fitting (R95, R139) -/

/-- R139: an exact value in a field of w bits, saturated or wrapped. -/
def fitTo (w : Nat) (sat : Bool) (v : Int) : BitVec w := BitVec.ofInt w (if sat then saturate v w else v)

/-- The two lanes of a dual Q1.15 word, lane 0 first, as integers. -/
def lanes (v : Word) : Int × Int := ((v.extractLsb' 0 16).toInt, (v.extractLsb' 16 16).toInt)

/-- A dual word from its lanes, lane 0 first. -/
def ofLanes (l : BitVec 16 × BitVec 16) : Word := l.2 ++ l.1

/-- The two halves of a dual accumulator, the low one first, as integers. -/
def halves (v : BitVec 72) : Int × Int := ((v.extractLsb' 0 36).toInt, (v.extractLsb' 36 36).toInt)

/-- A dual accumulator from its halves, the low one first. -/
def ofHalves (l : BitVec 36 × BitVec 36) : BitVec 72 := l.2 ++ l.1

/-- What a word operation computes: the value written, C and V where it changes them, and whether it saturated. -/
structure AluOut where
  value : Word
  c : Option Bool := none
  v : Option Bool := none
  sat : Bool := false
deriving DecidableEq, Repr

/-- A flag that an operation may leave unchanged. -/
def Bank.optFlag (b : Bank) (i : Nat) (v : Option Bool) : Bank := match v with | some x => b.setFlag i x | none => b

/-- R140: the result of a word operation written to W register n, with its flags. -/
def Bank.putAlu (b : Bank) (n : Nat) (o : AluOut) : Bank :=
  ((((b.setW n o.value).zn o.value).optFlag flC o.c).optFlag flV o.v).stick flSat o.sat

/-- What an accumulator operation computes: the value, whether it left the range of a field, whether it saturated. -/
structure AccOut where
  value : BitVec 72
  gov : Bool := false
  sat : Bool := false
deriving DecidableEq, Repr

/-- R139: acc() of an exact value in single mode. -/
def accSingle (sat : Bool) (v : Int) : AccOut :=
  { value := fitTo 72 sat v, gov := !(inField v 72), sat := sat && !(inField v 72) }

/-- R139: acc() of the two exact halves in dual mode, the low one first. -/
def accDual (sat : Bool) (v : Int × Int) : AccOut :=
  let out := !(inField v.1 36) || !(inField v.2 36)
  { value := ofHalves (fitTo 36 sat v.1, fitTo 36 sat v.2), gov := out, sat := sat && out }

/-- R146: an accumulator result with SAT and GOV, and nothing else. -/
def Bank.putAccRaw (b : Bank) (n : Nat) (o : AccOut) : Bank :=
  ((b.setA n o.value).stick flSat o.sat).stick flGov o.gov

/-- R146: an accumulator result with Z, N, SAT and GOV. -/
def Bank.putAcc (b : Bank) (n : Nat) (o : AccOut) : Bank := (b.putAccRaw n o).znAcc o.value

end Sys2Proof.Machine
end

