-- ==== Sys2Proof/Machine/Operands.lean ====
section
/-!
DEFINITION. How a scan core executes an instruction (04_instruction_encoding.md): its bytes, its prefixes, the operand
forms, the address map (R22), the costs (R106), repetition, conditions and faults (R92 to R109).
-/
namespace Sys2Proof.Machine

/-! ## Bytes (R92, R93, R99) -/

/-- The bytes of a prefix. -/
def prefixBytes : Prefix → List Byte
  | .sat => [0xF1]
  | .lock => [0xF2]
  | .rnd m => [0xF4 + m.setWidth 8]
  | .space k => [0xF8 + k.setWidth 8]
  | .lane => [0xFC]
  | .rep c => [0xFD, c]
  | .cond cc => [0xFE, cc]
  | .reserved b => [b]
  | .escaped b => [0x0F, b]

/-- R94, R103: how many bytes the core reads of an instruction that it finds illegal before its opcode, when room more
prefixes are allowed: all up to a reserved byte, or to the first byte of a prefix too many; none when it reads it whole. -/
def illegalAfter : Nat → List Prefix → Option Nat
  | _, [] => none
  | 0, p :: _ => some (if p.endsDecode then (prefixBytes p).length else 1)
  | n + 1, p :: l =>
    if p.endsDecode then some (prefixBytes p).length
    else (illegalAfter n l).map (fun k => (prefixBytes p).length + k)

/-- R92: the bytes that the core reads of an instruction with these prefixes whose opcode and operands are own. -/
def fetchedBytes (pre : Fetch) (own : List Byte) : List Byte :=
  let head := pre.prefixes.flatMap prefixBytes
  match illegalAfter 3 pre.prefixes with
  | some n => head.take n
  | none => head ++ own

/-- The operand bytes of each form (R99, R100). -/
def bytesR (f1 f2 : BitVec 4) : List Byte := [f1 ++ f2]
def bytesRS (f1 f2 : BitVec 4) (imm : Byte) : List Byte := [f1 ++ f2, imm]
def bytesRI (f1 f2 : BitVec 4) (imm : Word) : List Byte := (f1 ++ f2) :: leBytes imm.toNat 4
def bytesM (m : MAddr) : List Byte := (m.mode ++ m.xsel ++ m.reg) :: leBytes m.disp.toNat (if m.mode = 3 then 4 else 2)
def bytesB (a : BitVec 24) : List Byte := leBytes a.toNat 3
def bytesJ (disp : BitVec 16) : List Byte := leBytes disp.toNat 2
def bytesA (b0 : Byte) (f1 f2 : BitVec 4) : List Byte := [b0, f1 ++ f2]
def bytesCF (r : Byte) (off : BitVec 24) : List Byte := r :: leBytes off.toNat 3

/-! ## Prefixes (R93 to R98) -/

/-- R94: the kinds of prefix: the four space prefixes form one, and the four RND bytes another. -/
inductive PrefixKind where
  | sat | lock | rnd | space | lane | rep | cond
deriving DecidableEq, Repr

/-- The kind of a prefix; a reserved byte has none. -/
def prefixKind : Prefix → Option PrefixKind
  | .sat => some .sat
  | .lock => some .lock
  | .rnd _ => some .rnd
  | .space _ => some .space
  | .lane => some .lane
  | .rep _ => some .rep
  | .cond _ => some .cond
  | .reserved _ => none
  | .escaped _ => none

/-- R94, R96, R97: the prefix is accepted by an instruction that accepts these kinds, and its argument is legal. -/
def prefixOk (accept : List PrefixKind) (p : Prefix) : Bool :=
  (match prefixKind p with | some k => accept.contains k | none => false) &&
    (match p with | .rep c => c != 0 | .cond cc => condLegal cc | _ => true)

/-- No kind occurs twice. -/
def kindsDistinct : List Prefix → Bool
  | [] => true
  | p :: rest => !(rest.map prefixKind).contains (prefixKind p) && kindsDistinct rest

/-- R94: the prefix sequence is legal for an instruction that accepts these kinds. -/
def prefixesOk (accept : List PrefixKind) (f : Fetch) : Bool :=
  Nat.ble f.prefixes.length 3 && kindsDistinct f.prefixes && f.prefixes.all (prefixOk accept)

/-- What the prefixes ask for. -/
structure Mods where
  sat : Bool := false
  lock : Bool := false
  lane : Bool := false
  rnd : Option Rounding := none
  /-- 0 to 3: input image, output image, retained, stand-shared. -/
  space : Option Nat := none
  rep : Option Nat := none
  cond : Option Nat := none
deriving DecidableEq, Repr

/-- One prefix taken in. -/
def Mods.take (m : Mods) : Prefix → Mods
  | .sat => { m with sat := true }
  | .lock => { m with lock := true }
  | .rnd k => { m with rnd := some (roundingOf k.toNat) }
  | .space k => { m with space := some k.toNat }
  | .lane => { m with lane := true }
  | .rep c => { m with rep := some c.toNat }
  | .cond cc => { m with cond := some cc.toNat }
  | .reserved _ => m
  | .escaped _ => m

/-- The prefixes taken together. -/
def modsOf (f : Fetch) : Mods := f.prefixes.foldl Mods.take {}

/-! ## An instruction in execution -/

/-- What follows the instruction: the next one, the end of the logic phase (YIELD), or the end of the run (HALT). -/
inductive Ending where
  | goes | yields | halts
deriving DecidableEq, Repr

/-- A scan core in an instruction or in one repetition of it: the device with its ticks charged, the run's bank as the
instruction finds it and changes it, the prefixes, and the address to go on at. -/
structure Cpu where
  dev : Dev
  c : Nat
  run : Run
  b : Bank
  m : Mods
  /-- The address of the byte after the instruction; a branch replaces it by its target. -/
  next : Word
  /-- The repetition under REP, from 0. -/
  rep : Nat := 0
  ending : Ending := .goes
  /-- R97: the condition of COND is false. -/
  skip : Bool := false
deriving DecidableEq, Repr

/-- What an instruction does, once. -/
abbrev Body := Cpu → Except Trap Cpu

/-- The instruction's instant: the core's time at its end. -/
def Cpu.t (x : Cpu) : Nat := (x.dev.core x.c).time

/-- R133: the requester of the instruction's register accesses. -/
def Cpu.who (x : Cpu) : Requester := .core x.c x.run.bank

/-- R95: the instruction saturates. -/
def Cpu.sat (x : Cpu) : Bool := x.m.sat || x.b.flag flSd

/-- R95: the rounding mode of the instruction. -/
def Cpu.rm (x : Cpu) : Rounding := x.m.rnd.getD x.b.rm

/-- The bank replaced. -/
def Cpu.withB (x : Cpu) (b : Bank) : Cpu := { x with b := b }

/-- The device replaced. -/
def Cpu.withDev (x : Cpu) (d : Dev) : Cpu := { x with dev := d }

/-- A condition that faults with a CODE and a DETAIL when it does not hold. -/
def orTrap (ok : Bool) (code : Nat) (detail : Word) : Except Trap Unit := if ok then .ok () else .error (code, detail)

/-! ## The address map (R22) -/

/-- The regions of the address map; the two image shadows are one. -/
inductive Region where
  | code | data | shadow | csr | nvs | stand
deriving DecidableEq, Repr

/-- The region of an address. -/
def regionOf (a : Word) : Option Region :=
  let a := a.toNat
  if a < 0x400000 then some .code
  else if 0x10000000 ≤ a ∧ a < 0x10200000 then some .data
  else if 0x20000000 ≤ a ∧ a < 0x20040000 then some .shadow
  else if 0x40000000 ≤ a ∧ a < 0x41000000 then some .csr
  else if 0x50000000 ≤ a ∧ a < 0x50100000 then some .nvs
  else if 0x60000000 ≤ a ∧ a < 0x60040000 then some .stand
  else none

/-- n bytes that the address lies at, of core c's own memories, NVS or the stand-shared space. -/
def Dev.rdMem (d : Dev) (c : Nat) (a : Word) (n : Nat) : Nat :=
  match regionOf a with
  | some .code => Memory.rdLE d.mem.code (c * 0x400000 + a.toNat) n
  | some .data => Memory.rdLE d.mem.data (dataAddr c a.toNat) n
  | some .shadow => Memory.rdLE d.mem.shadow (c * 0x40000 + (a.toNat - 0x20000000)) n
  | some .nvs => Memory.rdLE d.mem.nvs (a.toNat - 0x50000000) n
  | some .stand => Memory.rdLE d.mem.stand (a.toNat - 0x60000000) n
  | _ => 0

/-- n bytes stored at an address of local data, an image shadow or the stand-shared space; nothing elsewhere. -/
def Dev.wrMem (d : Dev) (c : Nat) (a : Word) (n v : Nat) : Dev :=
  match regionOf a with
  | some .data => { d with mem := { d.mem with data := Memory.wrLE d.mem.data (dataAddr c a.toNat) n v } }
  | some .shadow =>
    { d with mem := { d.mem with shadow := Memory.wrLE d.mem.shadow (c * 0x40000 + (a.toNat - 0x20000000)) n v } }
  | some .stand => { d with mem := { d.mem with stand := Memory.wrLE d.mem.stand (a.toNat - 0x60000000) n v } }
  | _ => d

/-- R106: the cost of reaching an address, for a store or not; an address that no access may reach counts 1. -/
def regionTicks (a : Word) (store : Bool) : Nat :=
  match regionOf a with
  | some .stand => 4
  | some .nvs => if store then 80 else 16
  | some .csr => max 1 ((csrTicks (a.toNat / 4 * 4 - 0x40000000)).getD 1)
  | _ => 1

/-! ## Operand forms (R100, R101) -/

/-- R100: base and size of the space of a space prefix. -/
def spaceBase (k : Nat) : Nat := match k with | 0 => 0x20000000 | 1 => 0x20020000 | 2 => 0x50000000 | _ => 0x60000000
def spaceSize (k : Nat) : Nat := match k with | 0 => 0x20000 | 1 => 0x20000 | 2 => 0x100000 | _ => 0x40000

/-- R100: the offset of form M. -/
def Cpu.offset (x : Cpu) (m : MAddr) : Word :=
  let d := m.disp.setWidth 16
  match m.mode.toNat with
  | 0 => (if x.m.space.isSome then 0 else x.b.tb) + d.setWidth 32
  | 3 => m.disp
  | _ => x.b.getX m.xsel.toNat + d.signExtend 32

/-- R100, R124: the address that form M computes. -/
def Cpu.ea (x : Cpu) (m : MAddr) : Word :=
  match x.m.space with
  | some k => BitVec.ofNat 32 (spaceBase k) + x.offset m
  | none => x.offset m

/-- R100: with a space prefix the offset is below the size of its space. -/
def Cpu.inSpace (x : Cpu) (m : MAddr) : Bool :=
  match x.m.space with
  | some k => Nat.blt (x.offset m).toNat (spaceSize k)
  | none => true

/-- R100: MODE 2 adds the access size to its X register, unshadowed. -/
def Cpu.postInc (x : Cpu) (m : MAddr) (size : Nat) : Cpu :=
  if m.mode.toNat = 2 then
    x.withB (x.b.setX m.xsel.toNat (x.b.getX m.xsel.toNat + BitVec.ofNat 32 size))
  else x

/-- R101: the address of the byte of a bit address, without a prefix or in an image shadow. -/
def Cpu.bitByte (x : Cpu) (a : BitVec 24) : Word :=
  (match x.m.space with | some k => BitVec.ofNat 32 (spaceBase k) | none => x.b.tb) + BitVec.ofNat 32 (a.toNat / 8)

/-- R101: the bit address lies in local data or in its image shadow. -/
def Cpu.bitInRange (x : Cpu) (a : BitVec 24) : Bool :=
  match x.m.space with
  | some _ => Nat.blt a.toNat (2 ^ 20)
  | none => regionOf (x.bitByte a) == some .data

/-- R101, R106: the cost of a bit instruction. -/
def bitCost (x : Cpu) : Nat := if x.m.space.isSome then 1 else 2

/-! ## Reads and writes -/

/-- The error that SECDED finds in this repetition, in its first or second memory operand. -/
def Cpu.errOf (x : Cpu) (ecc : Option ReadErr) (second : Bool) : Ecc :=
  match ecc with
  | some e => if e.rep.toNat = x.rep ∧ e.second = second then (if e.double then .double else .corrected) else .clean
  | none => .clean

/-- R11, R108, R363: what an error does that a load from an address meets. -/
def Cpu.meet (x : Cpu) (a : Word) (e : Ecc) : Except Trap Cpu :=
  match e, regionOf a with
  | .clean, _ => .ok x
  | e, some .nvs => .ok (x.withDev (x.dev.nvsEcc x.t (a.toNat - 0x50000000) e))
  | .corrected, some .code => .ok (x.withDev (x.dev.eccCorrected 0 x.c))
  | .corrected, some .data => .ok (x.withDev (x.dev.eccCorrected 1 x.c))
  | .corrected, some .csr => .ok x
  | .corrected, _ => .ok (x.withDev (x.dev.eccCorrected 2 0))
  | .double, some .code => .ok (x.withDev (Dev.trigger 6 0 x.t x.dev))
  | .double, some .csr => .ok x
  | .double, _ => .error (10, a)

/-- R20 to R22, R90, R106: an access of size bytes at an address may take place. -/
def Cpu.mayAccess (x : Cpu) (a : Word) (size : Nat) (inSpace : Bool) : Except Trap Unit := do
  orTrap (a.toNat % size == 0) 3 a
  orTrap inSpace 4 a
  match regionOf a with
  | none => .error (4, a)
  | some .csr =>
    if size ≠ 4 then .error (3, a)
    else match csrTicks (a.toNat - 0x40000000) with
      | none => .error (5, a)
      | some 0 => .error (6, a)
      | some _ => .ok ()
  | some .nvs => orTrap x.dev.nvsReady 9 a
  | _ => .ok ()

/-- A load of size bytes from an address, and what SECDED finds there. -/
def Cpu.load (x : Cpu) (a : Word) (size : Nat) (inSpace : Bool) (e : Ecc) : Except Trap (Cpu × Nat) := do
  x.mayAccess a size inSpace
  let x ← x.meet a e
  if regionOf a = some .csr then
    let y := x.dev.readReg x.who x.t (a.toNat - 0x40000000)
    return (x.withDev y.1, y.2.toNat)
  else return (x, x.dev.rdMem x.c a size)

/-- R351, R360: the address lies in the partition of this device. -/
def Dev.ownPartition (d : Dev) (a : Word) : Bool := (a.toNat - 0x60000000) / 0x8000 == d.ownPos

/-- A store to NVS: below 0xB0000 it is ignored and counted (R362). -/
def Dev.coreNvsStore (d : Dev) (t off n v : Nat) : Dev :=
  if off < 0xB0000 then d.nvsRefuse t else d.nvsOp (.bytes off (leBytes v n))

/-- A store of size bytes at an address; a register is written at the end of the instruction (R122, R132). -/
def Cpu.store (x : Cpu) (a : Word) (size : Nat) (inSpace : Bool) (v : Nat) : Except Trap Cpu := do
  x.mayAccess a size inSpace
  match regionOf a with
  | some .code => .error (7, a)
  | some .csr => .ok (x.withDev (x.dev.writeReg x.who x.t (a.toNat - 0x40000000) (BitVec.ofNat 32 v)))
  | some .nvs => .ok (x.withDev (x.dev.coreNvsStore x.t (a.toNat - 0x50000000) size v))
  | some .stand => if x.dev.ownPartition a then .ok (x.withDev (x.dev.wrMem x.c a size v)) else .error (8, a)
  | _ => .ok (x.withDev (x.dev.wrMem x.c a size v))

/-- R148, R154: the two memory operands at X[p] and X[q]: local data or an image shadow, 4-byte aligned. -/
def Cpu.operandPair (x : Cpu) (p q : Nat) (ecc : Option ReadErr) : Except Trap (Cpu × Word × Word) := do
  let a := x.b.getX p
  let b := x.b.getX q
  let ok (r : Option Region) : Bool := r == some .data || r == some .shadow
  orTrap (a.toNat % 4 == 0) 3 a
  orTrap (b.toNat % 4 == 0) 3 b
  orTrap (ok (regionOf a)) 4 a
  orTrap (ok (regionOf b)) 4 b
  let x ← x.meet a (x.errOf ecc false)
  let x ← x.meet b (x.errOf ecc true)
  return (x, BitVec.ofNat 32 (x.dev.rdMem x.c a 4), BitVec.ofNat 32 (x.dev.rdMem x.c b 4))

/-- R148, R154: 4 added to X[p] and to X[q], once when p = q. -/
def Bank.stepPair (b : Bank) (p q : Nat) : Bank :=
  let b1 := b.setX p (b.getX p + 4)
  if p = q then b1 else b1.setX q (b.getX q + 4)

/-- R150: local data of n bytes at an address aligned to align. -/
def localData (a : Word) (align n : Nat) : Except Trap Unit := do
  orTrap (a.toNat % align == 0) 3 a
  orTrap (decide (0x10000000 ≤ a.toNat) && Nat.ble (a.toNat + n) 0x10200000) 4 a

/-- R114: the record of size bytes at TB + t, with BD at least 1. -/
def Cpu.record (x : Cpu) (t : BitVec 16) (size : Nat) (ecc : Option ReadErr) : Except Trap (Cpu × Word) := do
  let a := x.b.tb + t.setWidth 32
  localData a size size
  let x ← x.meet a (x.errOf ecc false)
  x.b.need 1
  return (x, a)

/-! ## Faults (R106, R109, R110) -/

/-- R110: byte i of the instruction at pc as DETAIL shows it: what lies outside local code has no value. -/
def headByte (d : Dev) (c : Nat) (pc : Word) (bytes : List Byte) (i : Nat) : Byte :=
  let a := pc.toNat + i
  if a < 0x400000 then bytes.getD i (Memory.rd8 d.mem.code (c * 0x400000 + a))
  else d.free.extractLsb' (8 * i) 8

/-- R110: the first four bytes of the instruction at pc. -/
def headWord (d : Dev) (c : Nat) (pc : Word) (bytes : List Byte) : Word :=
  headByte d c pc bytes 3 ++ headByte d c pc bytes 2 ++ headByte d c pc bytes 1 ++ headByte d c pc bytes 0

/-- R106, R109: the instruction faults: 1 tick, the record, and the end of the run. -/
def Dev.instrFault (d : Dev) (c : Nat) (r : Run) (repLeft : Nat) (pc : Word) (f : Trap) : Dev :=
  (d.charge c r.task 1).coreFault c f.1 repLeft pc f.2

/-! ## Execution (R96, R97, R104 to R106) -/

/-- The run after an instruction or a repetition that has ended without a fault: the load shadow counts, PC stands at pc,
and left repetitions are to come. A run that the instruction itself has ended keeps nothing. -/
def Cpu.retire (x : Cpu) (pc : Word) (left : Nat) : Dev :=
  if x.dev.curRun x.c = some x.run then
    x.dev.setBank x.c x.run.bank { x.b.land with pc := pc, repLeft := left, repSkip := x.skip && left != 0 }
  else x.dev

/-- One execution: the ticks are charged, and the instruction takes effect at their end; none when its condition is
false. -/
def Cpu.once (x : Cpu) (cost : Cpu → Nat) (body : Body) : Except Trap Cpu :=
  let y := x.withDev (x.dev.charge x.c x.run.task (cost x))
  if x.skip then .ok y else body y

/-- R96: left repetitions of an instruction at pc, n of them done before; R55: each ends at a preemption boundary. -/
def Dev.repetitions (c : Nat) (m : Mods) (pc next : Word) (skip : Bool) (cost : Cpu → Nat) (body : Body) :
    Nat → Nat → Run → Dev → Dev
  | 0, _, _, d => d
  | left + 1, n, r, d =>
    let x : Cpu := { dev := d, c := c, run := r, b := d.bank c r.bank, m := m, next := next, rep := n, skip := skip }
    match x.once cost body with
    | .error f => d.instrFault c r (if m.rep.isSome then left + 1 else 0) pc f
    | .ok y =>
      match y.ending with
      | .halts => y.dev.coreFault c 15 0 pc 0
      | .yields => y.dev.setStage c r .commit
      | .goes =>
        if left = 0 then y.retire y.next 0
        else
          let d := y.retire pc left
          if d.curRun c = some r then
            let d := if d.overrunDue r then d.overrun c r else d
            match d.execRun c with
            | some r2 =>
              if r2.task = r.task ∧ r2.bank = r.bank ∧ (d.preempting c r2).isNone then
                Dev.repetitions c m pc next skip cost body left (n + 1) r2 d
              else d
            | none => d
          else d

/-- R96: the repetitions that an instruction has to make: those that a preemption has left, or the count of REP. -/
def repsOf (m : Mods) (b : Bank) : Nat :=
  match m.rep with
  | some c => if b.repLeft = 0 then c else b.repLeft
  | none => 1

/-- R97: the condition of COND, tested once before the first repetition; true means that the instruction is skipped. -/
def condFalse (m : Mods) (b : Bank) : Except Trap Bool :=
  match m.cond with
  | some cc => if b.repLeft = 0 then (b.test cc).map (fun v => !v) else .ok b.repSkip
  | none => .ok false

/-- R92 to R109: the run in progress on core c executes an instruction whose opcode and operand bytes are own: legal says
that its operand fields are legal, accept which prefixes it accepts. A core without a run that executes, or at a
boundary at which an overrun or a preemption is due, executes nothing. -/
def Dev.instr (c : Nat) (accept : List PrefixKind) (pre : Fetch) (legal : Bool) (own : List Byte)
    (cost : Cpu → Nat) (body : Body) (d : Dev) : Dev :=
  match d.execRun c with
  | none => d
  | some r =>
    if d.overrunDue r || (d.preempting c r).isSome then d
    else
      let d := d.eccCounted 0 c pre.corrected
      let b := d.bank c r.bank
      let pc := b.pc
      let m := modsOf pre
      let head := pre.prefixes.flatMap prefixBytes
      let bytes := fetchedBytes pre own
      let reps := repsOf m b
      let next := pc + BitVec.ofNat 32 bytes.length
      let reached := if m.rep.isSome ∧ pc.toNat + head.length ≤ 0x400000 then reps else 0
      if 0x400000 < pc.toNat + bytes.length then
        d.nextFree.instrFault c r reached pc (1, headWord d c pc bytes)
      else if !(prefixesOk accept pre && legal) then
        d.nextFree.instrFault c r reached pc (2, headWord d c pc bytes)
      else
        match condFalse m b with
        | .error f => d.instrFault c r reached pc f
        | .ok skip => Dev.repetitions c m pc next skip cost body reps (m.rep.getD 1 - reps) r d

/-- A scan-core instruction as a command. -/
def State.instr (s : State) (c : Nat) (accept : List PrefixKind) (pre : Fetch) (legal : Bool) (own : List Byte)
    (cost : Cpu → Nat) (body : Body) : Host.Outcome State Fault Refusal :=
  s.onCore c (Dev.instr c accept pre legal own cost body)

end Sys2Proof.Machine
end

