-- ==== Sys2Proof/Machine/Logic.lean ====
section
/-!
DEFINITION. Logic, timer and control instructions (05_logic_instructions.md): bit logic, the record instructions, moves,
loads and stores, compares, branches, task control, register, queue and latch access.
-/
namespace Sys2Proof.Machine

/-- A fixed cost (R102). -/
def ticks (n : Nat) : Cpu → Nat := fun _ => n

/-- A body that changes only the bank. -/
def onBank (f : Bank → Except Trap Bank) : Body := fun x => (f x.b).map x.withB

/-- A body that changes only the bank and faults never. -/
def bankDo (f : Bank → Bank) : Body := fun x => .ok (x.withB (f x.b))

/-! ## Task control (R129 to R131) -/

/-- NOP (R129). -/
def execOpNop (core : Nat) (pre : Fetch) (s : State) : Host.Outcome State Fault Refusal :=
  s.instr core [.rep, .cond] pre true [0x00] (ticks 1) (fun x => .ok x)

/-- HALT: the end of the run under R58, with the fault record (R109, R129). -/
def execOpHalt (core : Nat) (pre : Fetch) (s : State) : Host.Outcome State Fault Refusal :=
  s.instr core [.cond] pre true [0x01] (ticks 1) (fun x => .ok { x with ending := .halts })

/-- YIELD: the end of the logic phase; the commit follows (R129). -/
def execOpYield (core : Nat) (pre : Fetch) (s : State) : Host.Outcome State Fault Refusal :=
  s.instr core [.cond] pre true [0x02] (ticks 1) (fun x => .ok { x with ending := .yields })

/-- R130: a check-in of task n, counted while it is monitored. -/
def Dev.checkIn (d : Dev) (n : Nat) : Dev :=
  if d.flag (F.TSK_CHKIN_MON n) then d.incFld (F.TSK_CHKIN_CUR n) else d

/-- CHKIN (R130). -/
def execOpChkin (core : Nat) (pre : Fetch) (s : State) : Host.Outcome State Fault Refusal :=
  s.instr core [.cond] pre true [0x03] (ticks 1) (fun x => .ok (x.withDev (x.dev.checkIn x.run.task)))

/-- EVT: the program event imm8, 0xC0 to 0xFF, is raised (R131), with its sequence-of-events entry (R312). -/
def execOpEvt (core : Nat) (pre : Fetch) (imm : BitVec 8) (s : State) : Host.Outcome State Fault Refusal :=
  s.instr core [.cond] pre (Nat.ble 0xC0 imm.toNat) [0x04, imm] (ticks 2) (fun x =>
    .ok (x.withDev ((x.dev.raise x.t imm.toNat).programSoe x.t imm.toNat x.run.task)))

/-- R129: the field F2 of FLRD, FLWR, MOVI and ADDI is 0. -/
def f2Zero (f2 : BitVec 4) : Bool := f2 == 0

/-- FLRD (R88, R129). -/
def execOpFlrd (core : Nat) (pre : Fetch) (f1 f2 : BitVec 4) (s : State) : Host.Outcome State Fault Refusal :=
  s.instr core [.cond] pre (f2Zero f2) ([0x0F, 0x10] ++ bytesR f1 f2) (ticks 1)
    (bankDo (fun b => b.setW f1.toNat b.readFl))

/-- FLWR (R88, R129). -/
def execOpFlwr (core : Nat) (pre : Fetch) (f1 f2 : BitVec 4) (s : State) : Host.Outcome State Fault Refusal :=
  s.instr core [.cond] pre (f2Zero f2) ([0x0F, 0x11] ++ bytesR f1 f2) (ticks 1)
    (bankDo (fun b => b.writeFl (b.getW f1.toNat)))

/-! ## Bit logic (R112, R113) -/

/-- R101: a space prefix of form B names an image shadow. -/
def bitSpace (pre : Fetch) : Bool := match (modsOf pre).space with | some k => Nat.ble k 1 | none => true

/-- R101: the bit that form B names, after what SECDED finds there. -/
def Cpu.bitOperand (x : Cpu) (a : BitVec 24) (ecc : Option ReadErr) : Except Trap (Cpu × Bool) := do
  orTrap (x.bitInRange a) 4 (x.bitByte a)
  let x ← x.meet (x.bitByte a) (x.errOf ecc false)
  return (x, bitOf (x.dev.rdMem x.c (x.bitByte a) 1) (a.toNat % 8))

/-- A byte with bit i set to v. -/
def byteBit (old i : Nat) (v : Bool) : Nat :=
  ((if v then BitVec.ofNat 8 old ||| BitVec.twoPow 8 i else BitVec.ofNat 8 old &&& ~~~(BitVec.twoPow 8 i)) : Byte).toNat

/-- The bit that form B names written. -/
def Cpu.putBit (x : Cpu) (a : BitVec 24) (v : Bool) : Cpu :=
  let p := x.bitByte a
  x.withDev (x.dev.wrMem x.c p 1 (byteBit (x.dev.rdMem x.c p 1) (a.toNat % 8) v))

/-- LD and LDN: f of the bit is pushed. -/
def loadBit (f : Bool → Bool) (a : BitVec 24) (ecc : Option ReadErr) : Body := fun x => do
  let y ← x.bitOperand a ecc
  let b ← y.1.b.push (f y.2)
  return y.1.withB b

/-- AND to XOR: BT becomes f of BT and the bit. -/
def withBit (f : Bool → Bool → Bool) (a : BitVec 24) (ecc : Option ReadErr) : Body := fun x => do
  let y ← x.bitOperand a ecc
  let b ← y.1.b.mapBt (fun bt => f bt y.2)
  return y.1.withB b

/-- OUT, SET and RST: the bit becomes f of BT and the bit; BT stays. -/
def intoBit (f : Bool → Bool → Bool) (a : BitVec 24) (ecc : Option ReadErr) : Body := fun x => do
  let y ← x.bitOperand a ecc
  y.1.b.need 1
  return y.1.putBit a (f y.1.b.bt y.2)

/-- A bit instruction of form B with its opcode. -/
def State.bitInstr (s : State) (core : Nat) (pre : Fetch) (op : Byte) (a : BitVec 24) (body : Body) :
    Host.Outcome State Fault Refusal :=
  s.instr core [.space, .cond] pre (bitSpace pre) (op :: bytesB a) bitCost body

/-- LD (R112). -/
def execOpLd (core : Nat) (pre : Fetch) (a : BitVec 24) (ecc : Option ReadErr) (s : State) :
    Host.Outcome State Fault Refusal :=
  s.bitInstr core pre 0x10 a (loadBit (fun v => v) a ecc)

/-- LDN (R112). -/
def execOpLdn (core : Nat) (pre : Fetch) (a : BitVec 24) (ecc : Option ReadErr) (s : State) :
    Host.Outcome State Fault Refusal :=
  s.bitInstr core pre 0x11 a (loadBit (fun v => !v) a ecc)

/-- AND (R112). -/
def execOpAnd (core : Nat) (pre : Fetch) (a : BitVec 24) (ecc : Option ReadErr) (s : State) :
    Host.Outcome State Fault Refusal :=
  s.bitInstr core pre 0x12 a (withBit (fun bt v => bt && v) a ecc)

/-- ANDN (R112). -/
def execOpAndn (core : Nat) (pre : Fetch) (a : BitVec 24) (ecc : Option ReadErr) (s : State) :
    Host.Outcome State Fault Refusal :=
  s.bitInstr core pre 0x13 a (withBit (fun bt v => bt && !v) a ecc)

/-- OR (R112). -/
def execOpOr (core : Nat) (pre : Fetch) (a : BitVec 24) (ecc : Option ReadErr) (s : State) :
    Host.Outcome State Fault Refusal :=
  s.bitInstr core pre 0x14 a (withBit (fun bt v => bt || v) a ecc)

/-- ORN (R112). -/
def execOpOrn (core : Nat) (pre : Fetch) (a : BitVec 24) (ecc : Option ReadErr) (s : State) :
    Host.Outcome State Fault Refusal :=
  s.bitInstr core pre 0x15 a (withBit (fun bt v => bt || !v) a ecc)

/-- XOR (R112). -/
def execOpXor (core : Nat) (pre : Fetch) (a : BitVec 24) (ecc : Option ReadErr) (s : State) :
    Host.Outcome State Fault Refusal :=
  s.bitInstr core pre 0x16 a (withBit (fun bt v => bt != v) a ecc)

/-- OUT (R112, R113). -/
def execOpOut (core : Nat) (pre : Fetch) (a : BitVec 24) (ecc : Option ReadErr) (s : State) :
    Host.Outcome State Fault Refusal :=
  s.bitInstr core pre 0x17 a (intoBit (fun bt _ => bt) a ecc)

/-- SET (R112, R113). -/
def execOpSet (core : Nat) (pre : Fetch) (a : BitVec 24) (ecc : Option ReadErr) (s : State) :
    Host.Outcome State Fault Refusal :=
  s.bitInstr core pre 0x18 a (intoBit (fun bt v => bt || v) a ecc)

/-- RST (R112, R113). -/
def execOpRst (core : Nat) (pre : Fetch) (a : BitVec 24) (ecc : Option ReadErr) (s : State) :
    Host.Outcome State Fault Refusal :=
  s.bitInstr core pre 0x19 a (intoBit (fun bt v => !bt && v) a ecc)

/-- ANDB (R112). -/
def execOpAndb (core : Nat) (pre : Fetch) (s : State) : Host.Outcome State Fault Refusal :=
  s.instr core [.cond] pre true [0x1A] (ticks 1) (onBank (fun b => b.combine (fun y x => y && x)))

/-- ORB (R112). -/
def execOpOrb (core : Nat) (pre : Fetch) (s : State) : Host.Outcome State Fault Refusal :=
  s.instr core [.cond] pre true [0x1B] (ticks 1) (onBank (fun b => b.combine (fun y x => y || x)))

/-- XORB (R112). -/
def execOpXorb (core : Nat) (pre : Fetch) (s : State) : Host.Outcome State Fault Refusal :=
  s.instr core [.cond] pre true [0x1C] (ticks 1) (onBank (fun b => b.combine (fun y x => y != x)))

/-- NOT (R112). -/
def execOpNot (core : Nat) (pre : Fetch) (s : State) : Host.Outcome State Fault Refusal :=
  s.instr core [.cond] pre true [0x1D] (ticks 1) (onBank (fun b => b.mapBt (fun v => !v)))

/-- DUP (R112). -/
def execOpDup (core : Nat) (pre : Fetch) (s : State) : Host.Outcome State Fault Refusal :=
  s.instr core [.cond] pre true [0x1E] (ticks 1) (onBank (fun b => (b.need 1).bind (fun _ => b.push b.bt)))

/-- POP (R112). -/
def execOpPop (core : Nat) (pre : Fetch) (s : State) : Host.Outcome State Fault Refusal :=
  s.instr core [.cond] pre true [0x1F] (ticks 1) (onBank (fun b => b.pop.map (fun p => p.2)))

/-! ## Records (R114 to R120) -/

/-- A word of the record at address a. -/
def Cpu.word (x : Cpu) (a : Word) (off : Nat) : Word := BitVec.ofNat 32 (x.dev.rdMem x.c (a + BitVec.ofNat 32 off) 4)

/-- A word of the record at address a written. -/
def Cpu.putWord (x : Cpu) (a : Word) (off : Nat) (v : Word) : Cpu :=
  x.withDev (x.dev.wrMem x.c (a + BitVec.ofNat 32 off) 4 v.toNat)

/-- TC_RUN and TC_MONO, words of the run's task context (R46, R111). -/
def Cpu.tcRun (x : Cpu) : Word := x.word x.b.tb 0
def Cpu.tcMono (x : Cpu) : Nat := (x.word x.b.tb 0x20).toNat + (x.word x.b.tb 0x24).toNat * 2 ^ 32

/-- The ID field of a record's flag word with the bits of a mask of the others kept, and some bits set. -/
def keepFlags (old : Word) (keep : Word) (set : Nat) : Word := (old &&& (0xFFFF0000 ||| keep)) ||| BitVec.ofNat 32 set

/-- R118: the previous input that an edge detector compares with; up says that it is REDGE. -/
def edgePrev (up : Bool) (w0 : Word) (i : Bool) : Bool :=
  if w0.getLsbD 5 then i
  else if !w0.getLsbD 3 && w0.getLsbD 4 then !up
  else if !w0.getLsbD 3 then i
  else w0.getLsbD 0

/-- R118: the edge of an input. -/
def edgeOf (up prev i : Bool) : Bool := if up then i && !prev else prev && !i

/-- R118: REDGE and FEDGE. -/
def edgeBody (up : Bool) (t : BitVec 16) (ecc : Option ReadErr) : Body := fun x => do
  let p ← x.record t 8 ecc
  let (x, a) := p
  let i := x.b.bt
  let w0 := x.word a 0
  let q := edgeOf up (edgePrev up w0 i) i
  let x := (x.putWord a 0 (keepFlags w0 0x10 (b2n i + 4 * b2n q + 8))).putWord a 4 x.tcRun
  return x.withB (x.b.setBt q)

/-- R119: the timers. -/
inductive TimerKind where
  | ton | tof | tp
deriving DecidableEq, Repr

/-- R119: what a timer keeps but for its preset: START, IN, RUN and Q. -/
structure TimerState where
  start : Nat
  input : Bool
  run : Bool
  q : Bool
deriving DecidableEq, Repr

/-- R119: the state that the evaluation starts from, with in the input: first use when INIT is 0. -/
def timerFirst (k : TimerKind) (w3 : Word) (start : Nat) (i : Bool) : TimerState :=
  if w3.getLsbD 3 then { start := start, input := w3.getLsbD 0, run := w3.getLsbD 1, q := w3.getLsbD 2 }
  else { start := start, input := decide (k = .tp) && !w3.getLsbD 4 && i, run := false, q := false }

/-- R119: START ← now; RUN ← 1. -/
def TimerState.restart (r : TimerState) (now : Nat) : TimerState := { r with start := now, run := true }

/-- R119: the elapsed time has reached the preset of pt ns. -/
def TimerState.timeUp (r : TimerState) (now pt : Nat) : Bool := Nat.ble pt (now - r.start)

/-- R119: one evaluation with input i at TC_MONO now and preset pt in ns. -/
def timerEval (k : TimerKind) (now pt : Nat) (i : Bool) (r : TimerState) : TimerState :=
  let r := match k with
    | .ton =>
      if i then
        let r := if r.input then r else r.restart now
        { r with q := r.timeUp now pt }
      else { r with run := false, q := false }
    | .tof =>
      if i then { r with run := false, q := true }
      else
        let r := if r.input then r.restart now else r
        if r.run && r.timeUp now pt then { r with run := false, q := false } else r
    | .tp =>
      let r := if i && !r.input && !r.run && Nat.blt 0 pt then r.restart now else r
      if r.run then (if r.timeUp now pt then { r with run := false, q := false } else { r with q := true }) else r
  { r with input := i }

/-- R119: TON, TOF and TP. -/
def timerBody (k : TimerKind) (t : BitVec 16) (ecc : Option ReadErr) : Body := fun x => do
  let p ← x.record t 16 ecc
  let (x, a) := p
  let i := x.b.bt
  let w3 := x.word a 12
  let r := timerFirst k w3 ((x.word a 0).toNat + (x.word a 4).toNat * 2 ^ 32) i
  let r := timerEval k x.tcMono ((x.word a 8).toNat * 1000) i r
  let x := (x.putWord a 0 (BitVec.ofNat 32 r.start)).putWord a 4 (BitVec.ofNat 32 (r.start / 2 ^ 32))
  let x := x.putWord a 12 (keepFlags w3 0x10 (b2n i + 2 * b2n r.run + 4 * b2n r.q + 8))
  return x.withB (x.b.setBt r.q)

/-- R120: the count after a rising edge. -/
def countEdge (up : Bool) (cv : Int) : Int := if up then min (cv + 1) (maxOf 32) else max (cv - 1) (minOf 32)

/-- R120: CTU and CTD. -/
def counterBody (up : Bool) (t : BitVec 16) (ecc : Option ReadErr) : Body := fun x => do
  let p ← x.record t 16 ecc
  let (x, a) := p
  let i := x.b.bt
  let w := x.word a 8
  let input := if w.getLsbD 3 then w.getLsbD 0 else !w.getLsbD 4 && i
  let cv := sgn (x.word a 0)
  let cv := if i && !input then countEdge up cv else cv
  let q := if up then decide (sgn (x.word a 4) ≤ cv) else decide (cv ≤ 0)
  let x := (x.putWord a 0 (ofInt32 cv)).putWord a 8 (keepFlags w 0x50 (b2n i + 4 * b2n q + 8))
  let x := x.putWord a 12 x.tcRun
  return x.withB (x.b.setBt q)

/-- R120: CRST. -/
def resetBody (t : BitVec 16) (ecc : Option ReadErr) : Body := fun x => do
  let p ← x.record t 16 ecc
  let (x, a) := p
  let w := x.word a 8
  let x := if x.b.bt then x.putWord a 0 (if w.getLsbD 6 then x.word a 4 else 0) else x
  let x := x.putWord a 8 (keepFlags w (if x.b.bt then 0x59 else 0x5D) 0)
  return x.putWord a 12 x.tcRun

/-- A record instruction with its opcode and cost. -/
def State.recordInstr (s : State) (core : Nat) (pre : Fetch) (op : Byte) (cost : Nat) (t : BitVec 16) (body : Body) :
    Host.Outcome State Fault Refusal :=
  s.instr core [.cond] pre true (op :: bytesJ t) (ticks cost) body

/-- REDGE (R118). -/
def execOpRedge (core : Nat) (pre : Fetch) (t : BitVec 16) (ecc : Option ReadErr) (s : State) :
    Host.Outcome State Fault Refusal :=
  s.recordInstr core pre 0x20 3 t (edgeBody true t ecc)

/-- FEDGE (R118). -/
def execOpFedge (core : Nat) (pre : Fetch) (t : BitVec 16) (ecc : Option ReadErr) (s : State) :
    Host.Outcome State Fault Refusal :=
  s.recordInstr core pre 0x21 3 t (edgeBody false t ecc)

/-- TON (R119). -/
def execOpTon (core : Nat) (pre : Fetch) (t : BitVec 16) (ecc : Option ReadErr) (s : State) :
    Host.Outcome State Fault Refusal :=
  s.recordInstr core pre 0x24 6 t (timerBody .ton t ecc)

/-- TOF (R119). -/
def execOpTof (core : Nat) (pre : Fetch) (t : BitVec 16) (ecc : Option ReadErr) (s : State) :
    Host.Outcome State Fault Refusal :=
  s.recordInstr core pre 0x25 6 t (timerBody .tof t ecc)

/-- TP (R119). -/
def execOpTp (core : Nat) (pre : Fetch) (t : BitVec 16) (ecc : Option ReadErr) (s : State) :
    Host.Outcome State Fault Refusal :=
  s.recordInstr core pre 0x26 6 t (timerBody .tp t ecc)

/-- CTU (R120). -/
def execOpCtu (core : Nat) (pre : Fetch) (t : BitVec 16) (ecc : Option ReadErr) (s : State) :
    Host.Outcome State Fault Refusal :=
  s.recordInstr core pre 0x28 4 t (counterBody true t ecc)

/-- CTD (R120). -/
def execOpCtd (core : Nat) (pre : Fetch) (t : BitVec 16) (ecc : Option ReadErr) (s : State) :
    Host.Outcome State Fault Refusal :=
  s.recordInstr core pre 0x29 4 t (counterBody false t ecc)

/-- CRST (R120). -/
def execOpCrst (core : Nat) (pre : Fetch) (t : BitVec 16) (ecc : Option ReadErr) (s : State) :
    Host.Outcome State Fault Refusal :=
  s.recordInstr core pre 0x2A 4 t (resetBody t ecc)

/-! ## Moves, loads and stores (R121 to R125) -/

/-- MOV (R121). -/
def execOpMov (core : Nat) (pre : Fetch) (f1 f2 : BitVec 4) (s : State) : Host.Outcome State Fault Refusal :=
  s.instr core [.cond] pre true (0x30 :: bytesR f1 f2) (ticks 1) (bankDo (fun b => b.setW f1.toNat (b.getW f2.toNat)))

/-- MOVI (R121). -/
def execOpMovi (core : Nat) (pre : Fetch) (f1 f2 : BitVec 4) (imm : BitVec 32) (s : State) :
    Host.Outcome State Fault Refusal :=
  s.instr core [.cond] pre (f2Zero f2) (0x31 :: bytesRI f1 f2 imm) (ticks 1) (bankDo (fun b => b.setW f1.toNat imm))

/-- MOVX (R121). -/
def execOpMovx (core : Nat) (pre : Fetch) (f1 f2 : BitVec 4) (s : State) : Host.Outcome State Fault Refusal :=
  s.instr core [.cond] pre (Nat.ble f1.toNat 3) (0x32 :: bytesR f1 f2) (ticks 1)
    (bankDo (fun b => b.setX f1.toNat (b.getW f2.toNat)))

/-- MOVW (R121). -/
def execOpMovw (core : Nat) (pre : Fetch) (f1 f2 : BitVec 4) (s : State) : Host.Outcome State Fault Refusal :=
  s.instr core [.cond] pre (Nat.ble f2.toNat 3) (0x33 :: bytesR f1 f2) (ticks 1)
    (bankDo (fun b => b.setW f1.toNat (b.getX f2.toNat)))

/-- R106: the cost of a load or store of form M. -/
def memCost (m : MAddr) (store : Bool) : Cpu → Nat := fun x => if x.inSpace m then regionTicks (x.ea m) store else 1

/-- R122: a load of size bytes into W[REG], or X[REG[1:0]]; f says how the bytes make a word. -/
def loadBody (toX : Bool) (size : Nat) (f : Nat → Word) (m : MAddr) (ecc : Option ReadErr) : Body := fun x => do
  let y ← x.load (x.ea m) size (x.inSpace m) (x.errOf ecc false)
  let reg := if toX then m.reg.toNat % 4 else m.reg.toNat
  return (y.1.withB (y.1.b.defer toX reg (f y.2))).postInc m size

/-- A load with its opcode. -/
def State.loadInstr (s : State) (core : Nat) (pre : Fetch) (op : Byte) (m : MAddr) (body : Body) :
    Host.Outcome State Fault Refusal :=
  s.instr core [.space, .rep, .cond] pre true (op :: bytesM m) (memCost m false) body

/-- LDW (R122). -/
def execOpLdw (core : Nat) (pre : Fetch) (m : MAddr) (ecc : Option ReadErr) (s : State) :
    Host.Outcome State Fault Refusal :=
  s.loadInstr core pre 0x34 m (loadBody false 4 (BitVec.ofNat 32) m ecc)

/-- LDH (R122). -/
def execOpLdh (core : Nat) (pre : Fetch) (m : MAddr) (ecc : Option ReadErr) (s : State) :
    Host.Outcome State Fault Refusal :=
  s.loadInstr core pre 0x35 m (loadBody false 2 (BitVec.ofNat 32) m ecc)

/-- LDHS (R122). -/
def execOpLdhs (core : Nat) (pre : Fetch) (m : MAddr) (ecc : Option ReadErr) (s : State) :
    Host.Outcome State Fault Refusal :=
  s.loadInstr core pre 0x36 m (loadBody false 2 (fun n => (BitVec.ofNat 16 n).signExtend 32) m ecc)

/-- LDB (R122). -/
def execOpLdb (core : Nat) (pre : Fetch) (m : MAddr) (ecc : Option ReadErr) (s : State) :
    Host.Outcome State Fault Refusal :=
  s.loadInstr core pre 0x37 m (loadBody false 1 (BitVec.ofNat 32) m ecc)

/-- LDX (R122). -/
def execOpLdx (core : Nat) (pre : Fetch) (m : MAddr) (ecc : Option ReadErr) (s : State) :
    Host.Outcome State Fault Refusal :=
  s.loadInstr core pre 0x3B m (loadBody true 4 (BitVec.ofNat 32) m ecc)

/-- R122, R123: a store of size bytes of W[REG]; clips says that the store saturates when the instruction does. -/
def storeBody (size : Nat) (clips : Bool) (m : MAddr) : Body := fun x => do
  let w := x.b.getW m.reg.toNat
  let clip := clips && x.sat && !(inField (sgn w) (8 * size))
  let v := if clip then ofInt32 (saturate (sgn w) (8 * size)) else w
  let y ← x.store (x.ea m) size (x.inSpace m) (v.toNat % 2 ^ (8 * size))
  return (y.withB (y.b.stick flSat clip)).postInc m size

/-- A store with its opcode. -/
def State.storeInstr (s : State) (core : Nat) (pre : Fetch) (op : Byte) (m : MAddr) (body : Body) :
    Host.Outcome State Fault Refusal :=
  s.instr core [.sat, .space, .rep, .cond] pre true (op :: bytesM m) (memCost m true) body

/-- STW (R122, R123). -/
def execOpStw (core : Nat) (pre : Fetch) (m : MAddr) (s : State) : Host.Outcome State Fault Refusal :=
  s.storeInstr core pre 0x38 m (storeBody 4 false m)

/-- STH (R122, R123). -/
def execOpSth (core : Nat) (pre : Fetch) (m : MAddr) (s : State) : Host.Outcome State Fault Refusal :=
  s.storeInstr core pre 0x39 m (storeBody 2 true m)

/-- STB (R122, R123). -/
def execOpStb (core : Nat) (pre : Fetch) (m : MAddr) (s : State) : Host.Outcome State Fault Refusal :=
  s.storeInstr core pre 0x3A m (storeBody 1 true m)

/-- LEA: the address that form M computes, unchecked (R124). -/
def execOpLea (core : Nat) (pre : Fetch) (m : MAddr) (s : State) : Host.Outcome State Fault Refusal :=
  s.instr core [.space, .cond] pre (m.mode.toNat != 2) (0x3C :: bytesM m) (ticks 1) (fun x =>
    .ok (x.withB (x.b.setX (m.reg.toNat % 4) (x.ea m))))

/-- R98: LOCK is given, and no image space. -/
def lockLegal (pre : Fetch) : Bool :=
  (modsOf pre).lock && (match (modsOf pre).space with | some k => Nat.ble 2 k | none => true)

/-- R125: the cost of a LOCK instruction. -/
def lockCost (x : Cpu) : Nat := match x.m.space with | none => 2 | some 2 => 96 | some _ => 8

/-- R98, R125: XCHGM and ADDM: f of the old word and W[REG] is written, and the old word goes to W[REG]. -/
def lockBody (f : Word → Word → Word) (m : MAddr) (ecc : Option ReadErr) : Body := fun x => do
  let a := x.ea m
  orTrap (a.toNat % 4 == 0) 3 a
  orTrap (x.m.space.isSome || regionOf a == some .data) 4 a
  orTrap (x.inSpace m) 4 a
  orTrap (regionOf a != some .stand || x.dev.ownPartition a) 8 a
  let y ← x.load a 4 (x.inSpace m) (x.errOf ecc false)
  let old := BitVec.ofNat 32 y.2
  let z ← y.1.store a 4 (x.inSpace m) (f old (x.b.getW m.reg.toNat)).toNat
  return (z.withB (z.b.defer false m.reg.toNat old)).postInc m 4

/-- XCHGM (R98, R125). -/
def execOpXchgm (core : Nat) (pre : Fetch) (m : MAddr) (ecc : Option ReadErr) (s : State) :
    Host.Outcome State Fault Refusal :=
  s.instr core [.lock, .space, .cond] pre (lockLegal pre) ([0x0F, 0x20] ++ bytesM m) lockCost
    (lockBody (fun _ w => w) m ecc)

/-- ADDM (R98, R125). -/
def execOpAddm (core : Nat) (pre : Fetch) (m : MAddr) (ecc : Option ReadErr) (s : State) :
    Host.Outcome State Fault Refusal :=
  s.instr core [.lock, .space, .cond] pre (lockLegal pre) ([0x0F, 0x21] ++ bytesM m) lockCost
    (lockBody (fun old w => old + w) m ecc)

/-! ## Compares (R126) -/

/-- R126, R140: the flags of a subtraction: the word, C on borrow, V on signed overflow. -/
def subOut (sat : Bool) (x y : Word) (borrow : Bool) : AluOut :=
  let e := sgn x - sgn y - b2n borrow
  let out := !(inField e 32)
  { value := fitTo 32 sat e, c := some (Nat.blt x.toNat (y.toNat + b2n borrow)), v := some out, sat := sat && out }

/-- CMP (R126). -/
def execOpCmp (core : Nat) (pre : Fetch) (f1 f2 : BitVec 4) (s : State) : Host.Outcome State Fault Refusal :=
  s.instr core [.cond] pre true (0x60 :: bytesR f1 f2) (ticks 1) (bankDo (fun b =>
    let o := subOut false (b.getW f1.toNat) (b.getW f2.toNat) false
    ((b.zn o.value).optFlag flC o.c).optFlag flV o.v))

/-- A compare that pushes f of the two words. -/
def pushCompare (f : Word → Word → Bool) (f1 f2 : BitVec 4) : Body :=
  onBank (fun b => b.push (f (b.getW f1.toNat) (b.getW f2.toNat)))

/-- A pushing compare with its opcode. -/
def State.compareInstr (s : State) (core : Nat) (pre : Fetch) (op : Byte) (f1 f2 : BitVec 4)
    (f : Word → Word → Bool) : Host.Outcome State Fault Refusal :=
  s.instr core [.cond] pre true (op :: bytesR f1 f2) (ticks 1) (pushCompare f f1 f2)

/-- CMPEQ (R126). -/
def execOpCmpeq (core : Nat) (pre : Fetch) (f1 f2 : BitVec 4) (s : State) : Host.Outcome State Fault Refusal :=
  s.compareInstr core pre 0x61 f1 f2 (fun x y => x == y)

/-- CMPNE (R126). -/
def execOpCmpne (core : Nat) (pre : Fetch) (f1 f2 : BitVec 4) (s : State) : Host.Outcome State Fault Refusal :=
  s.compareInstr core pre 0x62 f1 f2 (fun x y => x != y)

/-- CMPLT (R126). -/
def execOpCmplt (core : Nat) (pre : Fetch) (f1 f2 : BitVec 4) (s : State) : Host.Outcome State Fault Refusal :=
  s.compareInstr core pre 0x63 f1 f2 (fun x y => x.slt y)

/-- CMPLE (R126). -/
def execOpCmple (core : Nat) (pre : Fetch) (f1 f2 : BitVec 4) (s : State) : Host.Outcome State Fault Refusal :=
  s.compareInstr core pre 0x64 f1 f2 (fun x y => x.sle y)

/-- CMPGT (R126). -/
def execOpCmpgt (core : Nat) (pre : Fetch) (f1 f2 : BitVec 4) (s : State) : Host.Outcome State Fault Refusal :=
  s.compareInstr core pre 0x65 f1 f2 (fun x y => y.slt x)

/-- CMPGE (R126). -/
def execOpCmpge (core : Nat) (pre : Fetch) (f1 f2 : BitVec 4) (s : State) : Host.Outcome State Fault Refusal :=
  s.compareInstr core pre 0x66 f1 f2 (fun x y => y.sle x)

/-- CMPLTU (R126). -/
def execOpCmpltu (core : Nat) (pre : Fetch) (f1 f2 : BitVec 4) (s : State) : Host.Outcome State Fault Refusal :=
  s.compareInstr core pre 0x67 f1 f2 (fun x y => x.ult y)

/-- CMPGEU (R126). -/
def execOpCmpgeu (core : Nat) (pre : Fetch) (f1 f2 : BitVec 4) (s : State) : Host.Outcome State Fault Refusal :=
  s.compareInstr core pre 0x68 f1 f2 (fun x y => y.ule x)

/-! ## Branches (R127) -/

/-- PC ← next + disp. -/
def Cpu.jump (x : Cpu) (disp : BitVec 16) : Cpu := { x with next := x.next + disp.signExtend 32 }

/-- W15 ← next. -/
def Cpu.link (x : Cpu) : Cpu := x.withB (x.b.setW 15 x.next)

/-- JMP (R127). -/
def execOpJmp (core : Nat) (pre : Fetch) (disp : BitVec 16) (s : State) : Host.Outcome State Fault Refusal :=
  s.instr core [.cond] pre true (0x70 :: bytesJ disp) (ticks 2) (fun x => .ok (x.jump disp))

/-- Bcc: a branch on the condition of its byte (R97, R127). -/
def execOpBcc (core : Nat) (pre : Fetch) (cc : BitVec 8) (disp : BitVec 16) (s : State) :
    Host.Outcome State Fault Refusal :=
  s.instr core [] pre (condLegal cc) (0x71 :: cc :: bytesJ disp) (ticks 2) (fun x =>
    (x.b.test cc.toNat).map (fun v => if v then x.jump disp else x))

/-- JBT and JBF: BT is popped, and a branch is made when it is v. -/
def popJump (v : Bool) (disp : BitVec 16) : Body := fun x =>
  x.b.pop.map (fun p => let y := x.withB p.2; if p.1 = v then y.jump disp else y)

/-- JBT (R127). -/
def execOpJbt (core : Nat) (pre : Fetch) (disp : BitVec 16) (s : State) : Host.Outcome State Fault Refusal :=
  s.instr core [.cond] pre true (0x72 :: bytesJ disp) (ticks 2) (popJump true disp)

/-- JBF (R127). -/
def execOpJbf (core : Nat) (pre : Fetch) (disp : BitVec 16) (s : State) : Host.Outcome State Fault Refusal :=
  s.instr core [.cond] pre true (0x73 :: bytesJ disp) (ticks 2) (popJump false disp)

/-- CALL (R127). -/
def execOpCall (core : Nat) (pre : Fetch) (disp : BitVec 16) (s : State) : Host.Outcome State Fault Refusal :=
  s.instr core [.cond] pre true (0x74 :: bytesJ disp) (ticks 2) (fun x => .ok (x.link.jump disp))

/-- RET (R127). -/
def execOpRet (core : Nat) (pre : Fetch) (s : State) : Host.Outcome State Fault Refusal :=
  s.instr core [.cond] pre true [0x75] (ticks 2) (fun x => .ok { x with next := x.b.getW 15 })

/-- LOOP (R127). -/
def execOpLoop (core : Nat) (pre : Fetch) (x : BitVec 8) (disp : BitVec 16) (s : State) :
    Host.Outcome State Fault Refusal :=
  s.instr core [.cond] pre (Nat.ble x.toNat 3) (0x76 :: x :: bytesJ disp) (ticks 2) (fun y =>
    let v := y.b.getX x.toNat - 1
    let z := y.withB (y.b.setX x.toNat v)
    .ok (if v = 0 then z else z.jump disp))

/-- The bytes of an absolute code address, and that its reserved bits are 0 (R99). -/
def codeAddrLegal (a : BitVec 24) : Bool := Nat.blt a.toNat 0x400000

/-- JMPA (R127). -/
def execOpJmpa (core : Nat) (pre : Fetch) (addr : BitVec 24) (s : State) : Host.Outcome State Fault Refusal :=
  s.instr core [.cond] pre (codeAddrLegal addr) (0x77 :: bytesB addr) (ticks 2) (fun x =>
    .ok { x with next := addr.setWidth 32 })

/-- CALLA (R127). -/
def execOpCalla (core : Nat) (pre : Fetch) (addr : BitVec 24) (s : State) : Host.Outcome State Fault Refusal :=
  s.instr core [.cond] pre (codeAddrLegal addr) (0x78 :: bytesB addr) (ticks 2) (fun x =>
    .ok { x.link with next := addr.setWidth 32 })

/-! ## Register, queue and latch access (R132 to R136) -/

/-- The address of a register in the CSR window. -/
def csrAddr (off : BitVec 24) : Word := 0x40000000 + off.setWidth 32

/-- R132: a register field of the forms CF and Q. -/
def regField (r : BitVec 8) : Bool := Nat.ble r.toNat 15

/-- R99: a queue field of the form Q. -/
def queueField (q : BitVec 8) : Bool := Nat.ble q.toNat 31

/-- CSRR (R132). -/
def execOpCsrr (core : Nat) (pre : Fetch) (r : BitVec 8) (off : BitVec 24) (s : State) :
    Host.Outcome State Fault Refusal :=
  s.instr core [.cond] pre (regField r) (0xA0 :: bytesCF r off) (fun _ => regionTicks (csrAddr off) false) (fun x => do
    let y ← x.load (csrAddr off) 4 true .clean
    return y.1.withB (y.1.b.defer false r.toNat (BitVec.ofNat 32 y.2)))

/-- CSRW (R132). -/
def execOpCsrw (core : Nat) (pre : Fetch) (r : BitVec 8) (off : BitVec 24) (s : State) :
    Host.Outcome State Fault Refusal :=
  s.instr core [.cond] pre (regField r) (0xA1 :: bytesCF r off) (fun _ => regionTicks (csrAddr off) true) (fun x =>
    x.store (csrAddr off) 4 true (x.b.getW r.toNat).toNat)

/-- R135: an item offered by a task of core c to queue q: refused (C), and what it overwrites (V). -/
def Dev.queuePut (d : Dev) (c q : Nat) (i : Item) : Dev × Bool × Bool :=
  let ok := d.flag (F.QUE_CFG_TASKP q) && d.flag (F.QUE_CFG_EN q) && i.type != 0
  let full := Nat.ble (d.queueDepth q) ((d.queue q).length + (d.queues.pushes.filter (fun x => x.queue == q)).length)
  (d.offer (1 + c) q (d.flag (F.QUE_CFG_TASKP q)) i, !ok, ok && full)

/-- QPUT (R135). -/
def execOpQput (core : Nat) (pre : Fetch) (q r : BitVec 8) (s : State) : Host.Outcome State Fault Refusal :=
  s.instr core [.cond] pre (queueField q && Nat.ble r.toNat 12) [0xA2, q, r] (ticks 10) (fun x =>
    let w (k : Nat) := x.b.getW (r.toNat + k)
    let p := x.dev.queuePut core q.toNat { w0 := w 0, w1 := w 1, w2 := w 2, w3 := w 3 }
    .ok ((x.withDev p.1).withB ((x.b.setFlag flC p.2.1).setFlag flV p.2.2)))

/-- QCOUNT (R136). -/
def execOpQcount (core : Nat) (pre : Fetch) (q r : BitVec 8) (s : State) : Host.Outcome State Fault Refusal :=
  s.instr core [.cond] pre (queueField q && regField r) [0xA3, q, r] (ticks 6) (fun x =>
    .ok (x.withB (x.b.defer false r.toNat (x.dev.queueCount q.toNat))))

end Sys2Proof.Machine
end

