-- ==== Sys2Proof/Machine/Arith.lean ====
section
/-!
DEFINITION. Word arithmetic, bitwise instructions, shifts and division (R140 to R144).
-/
namespace Sys2Proof.Machine

/-- A word operation of one lane: the exact result from two operands and the carry flag. -/
abbrev Exact := Int → Int → Int → Int

/-- R140: an exact word result with its carry, in single mode. -/
def wordOut (sat : Bool) (e : Int) (c : Option Bool) : AluOut :=
  let out := !(inField e 32)
  { value := fitTo 32 sat e, c := c, v := some out, sat := sat && out }

/-- R95, R140: an operation of both lanes; the carry flag enters lane 0 only. -/
def laneOut (f : Exact) (sat : Bool) (x y : Word) (c : Bool) : AluOut :=
  let e0 := f (lanes x).1 (lanes y).1 (b2n c)
  let e1 := f (lanes x).2 (lanes y).2 0
  let out := !(inField e0 16) || !(inField e1 16)
  { value := ofLanes (fitTo 16 sat e0, fitTo 16 sat e1), c := some false, v := some out, sat := sat && out }

/-- The carry out of an unsigned sum. -/
def carryOut (x y : Word) (c : Bool) : Bool := Nat.ble (2 ^ 32) (x.toNat + y.toNat + b2n c)

/-- R140: ADD, ADC and ADDI in single mode. -/
def addOut (sat : Bool) (x y : Word) (c : Bool) : AluOut := wordOut sat (sgn x + sgn y + b2n c) (some (carryOut x y c))

/-- A W operation of form R: single gives the result in single mode and f that of each lane; C is used if useC. -/
def aluBody (single : Bool → Word → Word → Bool → AluOut) (f : Exact) (useC : Bool) (f1 f2 : BitVec 4) : Body := fun x =>
  let c := useC && x.b.flag flC
  let a := x.b.getW f1.toNat
  let b := x.b.getW f2.toNat
  .ok (x.withB (x.b.putAlu f1.toNat (if x.m.lane then laneOut f x.sat a b c else single x.sat a b c)))

/-- An instruction of form R on W registers that accepts SAT and LANE. -/
def State.aluInstr (s : State) (core : Nat) (pre : Fetch) (op : Byte) (f1 f2 : BitVec 4) (body : Body) :
    Host.Outcome State Fault Refusal :=
  s.instr core [.sat, .lane, .cond] pre true (op :: bytesR f1 f2) (ticks 1) body

/-- ADD (R140). -/
def execOpAdd (core : Nat) (pre : Fetch) (f1 f2 : BitVec 4) (s : State) : Host.Outcome State Fault Refusal :=
  s.aluInstr core pre 0x40 f1 f2 (aluBody addOut (fun x y c => x + y + c) false f1 f2)

/-- ADC (R140). -/
def execOpAdc (core : Nat) (pre : Fetch) (f1 f2 : BitVec 4) (s : State) : Host.Outcome State Fault Refusal :=
  s.aluInstr core pre 0x41 f1 f2 (aluBody addOut (fun x y c => x + y + c) true f1 f2)

/-- SUB (R140). -/
def execOpSub (core : Nat) (pre : Fetch) (f1 f2 : BitVec 4) (s : State) : Host.Outcome State Fault Refusal :=
  s.aluInstr core pre 0x42 f1 f2 (aluBody subOut (fun x y c => x - y - c) false f1 f2)

/-- SBC (R140). -/
def execOpSbc (core : Nat) (pre : Fetch) (f1 f2 : BitVec 4) (s : State) : Host.Outcome State Fault Refusal :=
  s.aluInstr core pre 0x43 f1 f2 (aluBody subOut (fun x y c => x - y - c) true f1 f2)

/-- NEG (R140). -/
def execOpNeg (core : Nat) (pre : Fetch) (f1 f2 : BitVec 4) (s : State) : Host.Outcome State Fault Refusal :=
  s.aluInstr core pre 0x44 f1 f2
    (aluBody (fun sat _ y _ => wordOut sat (-(sgn y)) (some (y != 0))) (fun _ y _ => -y) false f1 f2)

/-- ABS (R140). -/
def execOpAbs (core : Nat) (pre : Fetch) (f1 f2 : BitVec 4) (s : State) : Host.Outcome State Fault Refusal :=
  s.aluInstr core pre 0x45 f1 f2
    (aluBody (fun sat _ y _ => wordOut sat (max (sgn y) (-(sgn y))) (some false)) (fun _ y _ => max y (-y)) false f1 f2)

/-- MIN and MAX leave C and V: f of the operands, or of each lane. -/
def pickBody (f : Int → Int → Int) (f1 f2 : BitVec 4) : Body := fun x =>
  let a := x.b.getW f1.toNat
  let b := x.b.getW f2.toNat
  let v : Word :=
    if x.m.lane then
      ofLanes (BitVec.ofInt 16 (f (lanes a).1 (lanes b).1), BitVec.ofInt 16 (f (lanes a).2 (lanes b).2))
    else ofInt32 (f (sgn a) (sgn b))
  .ok (x.withB (x.b.putAlu f1.toNat { value := v }))

/-- MIN (R140). -/
def execOpMin (core : Nat) (pre : Fetch) (f1 f2 : BitVec 4) (s : State) : Host.Outcome State Fault Refusal :=
  s.instr core [.lane, .cond] pre true (0x48 :: bytesR f1 f2) (ticks 1) (pickBody min f1 f2)

/-- MAX (R140). -/
def execOpMax (core : Nat) (pre : Fetch) (f1 f2 : BitVec 4) (s : State) : Host.Outcome State Fault Refusal :=
  s.instr core [.lane, .cond] pre true (0x49 :: bytesR f1 f2) (ticks 1) (pickBody max f1 f2)

/-- ADDI (R140). -/
def execOpAddi (core : Nat) (pre : Fetch) (f1 f2 : BitVec 4) (imm : BitVec 32) (s : State) :
    Host.Outcome State Fault Refusal :=
  s.instr core [.sat, .cond] pre (f2Zero f2) (0x4A :: bytesRI f1 f2 imm) (ticks 1) (fun x =>
    .ok (x.withB (x.b.putAlu f1.toNat (addOut x.sat (x.b.getW f1.toNat) imm false))))

/-- MUL (R141). -/
def execOpMul (core : Nat) (pre : Fetch) (f1 f2 : BitVec 4) (s : State) : Host.Outcome State Fault Refusal :=
  s.instr core [.sat, .cond] pre true (0x46 :: bytesR f1 f2) (ticks 1) (fun x =>
    .ok (x.withB (x.b.putAlu f1.toNat
      (wordOut x.sat (sgn (x.b.getW f1.toNat) * sgn (x.b.getW f2.toNat)) (some false)))))

/-- MULHS (R141). -/
def execOpMulhs (core : Nat) (pre : Fetch) (f1 f2 : BitVec 4) (s : State) : Host.Outcome State Fault Refusal :=
  s.instr core [.sat, .rnd, .cond] pre true (0x47 :: bytesR f1 f2) (ticks 2) (fun x =>
    .ok (x.withB (x.b.putAlu f1.toNat
      (wordOut x.sat (rnd x.rm (sgn (x.b.getW f1.toNat) * sgn (x.b.getW f2.toNat)) 31) (some false)))))

/-! ## Bitwise instructions (R142) -/

/-- A bitwise instruction: f of W[F1] and W[F2], with Z and N. -/
def State.bitwiseInstr (s : State) (core : Nat) (pre : Fetch) (op : Byte) (f1 f2 : BitVec 4)
    (f : Word → Word → Word) : Host.Outcome State Fault Refusal :=
  s.instr core [.cond] pre true (op :: bytesR f1 f2) (ticks 1)
    (bankDo (fun b => b.putAlu f1.toNat { value := f (b.getW f1.toNat) (b.getW f2.toNat) }))

/-- ANDW (R142). -/
def execOpAndw (core : Nat) (pre : Fetch) (f1 f2 : BitVec 4) (s : State) : Host.Outcome State Fault Refusal :=
  s.bitwiseInstr core pre 0x50 f1 f2 (fun x y => x &&& y)

/-- ORW (R142). -/
def execOpOrw (core : Nat) (pre : Fetch) (f1 f2 : BitVec 4) (s : State) : Host.Outcome State Fault Refusal :=
  s.bitwiseInstr core pre 0x51 f1 f2 (fun x y => x ||| y)

/-- XORW (R142). -/
def execOpXorw (core : Nat) (pre : Fetch) (f1 f2 : BitVec 4) (s : State) : Host.Outcome State Fault Refusal :=
  s.bitwiseInstr core pre 0x52 f1 f2 (fun x y => x ^^^ y)

/-- NOTW (R142). -/
def execOpNotw (core : Nat) (pre : Fetch) (f1 f2 : BitVec 4) (s : State) : Host.Outcome State Fault Refusal :=
  s.bitwiseInstr core pre 0x53 f1 f2 (fun _ y => ~~~y)

/-- The number of leading zero bits among the low n bits of a number. -/
def leadingZeros : Nat → Nat → Nat
  | 0, _ => 0
  | n + 1, v => if bitOf v n then 0 else leadingZeros n v + 1

/-- CLZ (R142). -/
def execOpClz (core : Nat) (pre : Fetch) (f1 f2 : BitVec 4) (s : State) : Host.Outcome State Fault Refusal :=
  s.bitwiseInstr core pre 0x58 f1 f2 (fun _ y => BitVec.ofNat 32 (leadingZeros 32 y.toNat))

/-! ## Shifts (R143) -/

/-- R143: the reserved bits of a shift count are 0. -/
def shiftLegal (pre : Fetch) (imm : BitVec 8) : Bool := Nat.ble imm.toNat (if (modsOf pre).lane then 15 else 31)

/-- R143: C is bit i of the source; unchanged for k = 0. -/
def lastOut (x : Word) (k i : Nat) : Option Bool := if k = 0 then none else some (x.getLsbD i)

/-- SHL (R143). -/
def shlOut (sat lane : Bool) (x : Word) (k : Nat) : AluOut :=
  if lane then laneOut (fun v _ _ => v * (2 ^ k : Nat)) sat x 0 false
  else wordOut sat (sgn x * (2 ^ k : Nat)) (lastOut x k (32 - k))

/-- SAR (R143). -/
def sarOut (m : Rounding) (lane : Bool) (x : Word) (k : Nat) : AluOut :=
  if lane then laneOut (fun v _ _ => rnd m v k) false x 0 false
  else { value := ofInt32 (rnd m (sgn x) k), c := lastOut x k (k - 1), v := some false }

/-- A shift of form RS: f of the prefixes' modes, W[F2] and the count, to W[F1]. -/
def shiftBody (f : Cpu → Word → Nat → AluOut) (f1 f2 : BitVec 4) (imm : BitVec 8) : Body := fun x =>
  .ok (x.withB (x.b.putAlu f1.toNat (f x (x.b.getW f2.toNat) imm.toNat)))

/-- SHL (R143). -/
def execOpShl (core : Nat) (pre : Fetch) (f1 f2 : BitVec 4) (imm : BitVec 8) (s : State) :
    Host.Outcome State Fault Refusal :=
  s.instr core [.sat, .lane, .cond] pre (shiftLegal pre imm) (0x54 :: bytesRS f1 f2 imm) (ticks 1)
    (shiftBody (fun x v k => shlOut x.sat x.m.lane v k) f1 f2 imm)

/-- SAR (R143). -/
def execOpSar (core : Nat) (pre : Fetch) (f1 f2 : BitVec 4) (imm : BitVec 8) (s : State) :
    Host.Outcome State Fault Refusal :=
  s.instr core [.rnd, .lane, .cond] pre (shiftLegal pre imm) (0x55 :: bytesRS f1 f2 imm) (ticks 1)
    (shiftBody (fun x v k => sarOut x.rm x.m.lane v k) f1 f2 imm)

/-- SHR (R143). -/
def execOpShr (core : Nat) (pre : Fetch) (f1 f2 : BitVec 4) (imm : BitVec 8) (s : State) :
    Host.Outcome State Fault Refusal :=
  s.instr core [.cond] pre (shiftLegal pre imm) (0x56 :: bytesRS f1 f2 imm) (ticks 1)
    (shiftBody (fun _ v k => { value := v >>> k, c := lastOut v k (k - 1) }) f1 f2 imm)

/-- ROR (R143). -/
def execOpRor (core : Nat) (pre : Fetch) (f1 f2 : BitVec 4) (imm : BitVec 8) (s : State) :
    Host.Outcome State Fault Refusal :=
  s.instr core [.cond] pre (shiftLegal pre imm) (0x57 :: bytesRS f1 f2 imm) (ticks 1)
    (shiftBody (fun _ v k => { value := v.rotateRight k, c := some (v.rotateRight k).msb }) f1 f2 imm)

/-! ## Division (R144) -/

/-- R144: quotient, remainder and V of DIVU. -/
def divuOut (x y : Word) : Word × Word × Bool :=
  if y = 0 then (0xFFFFFFFF, x, true) else (BitVec.ofNat 32 (x.toNat / y.toNat), BitVec.ofNat 32 (x.toNat % y.toNat), false)

/-- R144: quotient, remainder and V of DIVS. -/
def divsOut (x y : Word) : Word × Word × Bool :=
  if y = 0 then (if 0 ≤ sgn x then 0x7FFFFFFF else 0x80000000, x, true)
  else if x = 0x80000000 ∧ y = 0xFFFFFFFF then (0x80000000, 0, true)
  else (ofInt32 ((sgn x).tdiv (sgn y)), ofInt32 ((sgn x).tmod (sgn y)), false)

/-- R144: both results are computed from the operands as the instruction finds them. -/
def divBody (f : Word → Word → Word × Word × Bool) (f1 f2 : BitVec 4) : Body := bankDo (fun b =>
  let o := f (b.getW f1.toNat) (b.getW f2.toNat)
  (b.putAlu f1.toNat { value := o.1, c := some false, v := some o.2.2 }).setW (f1.toNat + 1) o.2.1)

/-- DIVS (R144). -/
def execOpDivs (core : Nat) (pre : Fetch) (f1 f2 : BitVec 4) (s : State) : Host.Outcome State Fault Refusal :=
  s.instr core [.cond] pre (!f1.getLsbD 0) ([0x0F, 0x00] ++ bytesR f1 f2) (ticks 34) (divBody divsOut f1 f2)

/-- DIVU (R144). -/
def execOpDivu (core : Nat) (pre : Fetch) (f1 f2 : BitVec 4) (s : State) : Host.Outcome State Fault Refusal :=
  s.instr core [.cond] pre (!f1.getLsbD 0) ([0x0F, 0x01] ++ bytesR f1 f2) (ticks 34) (divBody divuOut f1 f2)

end Sys2Proof.Machine
end

