-- ==== Sys2Proof/Machine/Boot.lean ====
section
/-!
DEFINITION. The boot (R439, R448) and the preparation before the first scan (R246, R405, R406, R436, R445, R481).
-/
namespace Sys2Proof.Machine

/-! ## Slots (R437 to R439) -/

/-- R438: no copy of the directory is valid. -/
def noDirectory (bad : BitVec 10) : Bool := bad.getLsbD 8 && bad.getLsbD 9

/-- R437, R438: what the boot finds in the flash: bit 2 c of bad says that slot A of component c reads damaged, bit
2 c + 1 that slot B does; bit 8 that the newest copy of the directory does, bit 9 that the other copy does. The newest
valid copy is used. -/
def Dev.readFlash (d : Dev) (bad : BitVec 10) : Dev :=
  let old := d.flash.oldDir
  let fallBack := bad.getLsbD 8 && !bad.getLsbD 9
  forN 4 (fun c d => d.modComp c (fun k =>
    let x := if fallBack then old.getD c (false, false, false) else (k.activeB, k.otherValid, k.otherConfirmed)
    { k with slotA := if bad.getLsbD (2 * c) then .empty else k.slotA,
             slotB := if bad.getLsbD (2 * c + 1) then .empty else k.slotB,
             activeB := x.1, otherValid := x.2.1, otherConfirmed := x.2.2 })) d

/-- FAILS of the other slot. -/
def Component.otherFails (k : Component) : Nat := if k.activeB then k.failsA else k.failsB

/-- R439: RUNTIME may be booted from its active slot. -/
def Dev.activeBoots (d : Dev) : Bool := Nat.blt (d.comp 0).fails 3 && d.imageOk 0 (d.comp 0).active

/-- R439: RUNTIME may be booted from its other slot. -/
def Dev.otherBoots (d : Dev) : Bool := Nat.blt (d.comp 0).otherFails 3 && d.imageOk 0 (d.comp 0).other

/-- R9, R439: the blocks of the image in the active RUNTIME slot go to service core memory. -/
def Dev.loadFirmware (d : Dev) : Dev :=
  match (d.comp 0).active with
  | .signed _ blocks => { d with mem := { d.mem with svc := Memory.wrBytes [] 0 (blocks.flatMap (fun x => x.2)) } }
  | _ => d

/-- R439: the boot ROM boots the active slot of RUNTIME at MONO t: FAILS counts up. -/
def Dev.bootSlot (d : Dev) (t : Nat) : Dev :=
  let d := d.loadFirmware
  let d := (d.modComp 0 (fun k => k.setFails (k.fails + 1))).bootRecord t
  let d := d.setFld F.SYS_BOOT_KIND (b2n (d.flag F.SUP_RSTCAUSE_CAUSE))
  (d.setFld F.SYS_BOOT_SLOT (b2n (d.comp 0).activeB)).setFld F.SYS_BOOT_FAILS (d.comp 0).fails

/-- R448: the boot ROM enters spore mode at MONO t; noDir: no copy of the directory is valid, so that images go to
slot A and no other slot counts as valid. -/
def Dev.enterSpore (d : Dev) (t : Nat) (noDir : Bool) : Dev :=
  let d := if noDir then
      forN 4 (fun c d => d.modComp c (fun k => { k with activeB := true, otherValid := false, otherConfirmed := false })) d
    else d
  let d := { d with phase := .spore, flash.helloAt := some t, flash.baud := 115200, flash.listed := [] }
  (((d.setFld F.SYS_BOOT_KIND 2).setFld F.SYS_BOOT_SLOT 0).phyCtlWrite t 1).touch

/-! ## Conversion of records (R445) -/

/-- R445: the directory entry of the companion of record rid exists or is created with the shape of the original; none
when the record area has no room for it. -/
def Dev.ensureCompanion (d : Dev) (t rid : Nat) : Option Dev :=
  let m := d.nvsMem
  match findRecord m (rid ^^^ 0x8000), findRecord m rid with
  | some _, _ => some d
  | none, some r =>
    let e := dirEntry m r
    if (freePages m (e.slots * e.pages)).isSome && (List.range 256).any (fun k => !(dirEntry m k).en) then
      some (d.createRecord t (rid ^^^ 0x8000) e.slots e.pages)
    else none
  | none, none => some d

/-- R445: the companions of all records to be converted. -/
def Dev.ensureCompanions (d : Dev) (t : Nat) : List Conversion → Option Dev
  | [] => some d
  | x :: rest => (d.ensureCompanion t x.rid.toNat).bind (fun d => Dev.ensureCompanions d t rest)

/-- R367: FMT of the newest slot of a record. -/
def Dev.recordFmt (d : Dev) (rid : Nat) : Nat := (((d.recordGet rid).getD []).getD 2 0).toNat

/-- R445: one record of an older FMT is converted: the payload goes to its companion, from which the new RUNTIME reads. -/
def Dev.convertRecord (t : Nat) (d : Dev) (x : Conversion) : Dev :=
  let rid := x.rid.toNat
  match findRecord d.nvsMem rid, findRecord d.nvsMem (rid ^^^ 0x8000) with
  | some _, some r =>
    if d.flash.companions.contains rid ∨ x.fmt.toNat ≤ d.recordFmt rid then d
    else { d.recordPut t r x.fmt.toNat x.payload with flash.companions := d.flash.companions ++ [rid] }
  | _, _ => d

/-- R445: the new RUNTIME converts records at MONO t; where there is no room it converts nothing and is reverted. -/
def Dev.convertRecords (d : Dev) (t : Nat) (l : List Conversion) : Dev :=
  if (d.comp 0).state = 4 then
    match d.ensureCompanions t l with
    | some d => l.foldl (Dev.convertRecord t) d
    | none => (d.revertSlot t 0 0 7).bootSlot t
  else d

/-! ## The configuration set (R435, R436, R481) -/

/-- R171, R481: the rung table of the configuration set is written, checked and made active. -/
def Dev.restoreRungs (d : Dev) (t : Nat) (rungs : Sparse Rung) : Dev :=
  if rungs.isEmpty then d
  else
    let d := ({ d with plane := { d.plane with shadow := rungs } }).frpActivate t .svc
    let d := Dev.frpCheckDone .clean 0 t d
    if d.plane.swapDue.isSome then d.swapTables t else d

/-- R259: the subscription entries of the configuration set are written. -/
def Dev.restoreSubs (d : Dev) (t : Nat) (words : Sparse Word) : Dev :=
  ((words.map (fun p => p.1 / 16)).eraseDups).foldl (fun d i =>
    (forN 8 (fun k d => d.wr (Reg.SWX_SUBDATA k) (Sparse.get (fun _ => 0) words (16 * i + k))) d).writeSub true t i) d

/-- R264: the publication entries of the configuration set are written. -/
def Dev.restorePubs (d : Dev) (t : Nat) (words : Sparse Word) : Dev :=
  ((words.map (fun p => p.1 / 32)).eraseDups).foldl (fun d e =>
    (forN 28 (fun k d => d.wr (Reg.SWX_PUBDATA k) (Sparse.get (fun _ => 0) words (32 * e + k))) d).writePub true t e) d

/-- R309: comparators of which the configuration set names word 0 alone get their word 1. -/
def Dev.restoreThr (d : Dev) (t : Nat) : Dev :=
  forN 256 (fun k d => if (d.comparator k).held0.isSome then d.thrWrite .svc t k 1 (d.rd (Reg.ADC_THR1 k)) else d) d

/-- R435: the program and the settings that the image of a CONFIG slot holds; those of a signed one have the program
version of its manifest. -/
def SlotImage.program : SlotImage → Option Program
  | .sealed p => some p
  | .signed m blocks => some { configProgram (blocks.flatMap (fun x => x.2)) with version := wordAt m 14 }
  | _ => none

/-- R436, R481: the runtime firmware writes the program and the settings of a CONFIG image; ANG_SRC follows the load of
station time (R73). -/
def Dev.restoreProgram (d : Dev) (t : Nat) (p : Program) : Dev :=
  let d := { d with mem := { d.mem with code := p.code, data := p.data }, formats := p.formats,
                    xch := { d.xch with spans := p.spans } }
  let d := d.wr Reg.XCH_RUNVER p.version
  let d := (p.regs.filter (fun x => x.1 != Reg.ANG_SRC)).foldl (fun d x => d.writeReg .svc t x.1 x.2) d
  (((d.restoreThr t).restoreRungs t p.rungs).restoreSubs t p.subWords).restorePubs t p.pubWords

/-- R439: the component c whose active slot fails is taken from its other slot, where that one verifies. -/
def Dev.verifyComp (d : Dev) (t c : Nat) : Dev :=
  if !d.imageOk c (d.comp c).active && d.imageOk c (d.comp c).other then d.revertSlot t 0 c 7 else d

/-- R367: the system records that the runtime firmware uses, each with the length of its payload. -/
def systemRecords : List (Nat × Nat) := [(0xFF01, 20), (0xFF02, 4), (0xFF03, 32), (0xFF04, 64)]

/-- R405: the reset history, NVS record 0xFF01. -/
def Dev.historyRecord (d : Dev) (t : Nat) : Dev :=
  d.ownRecord t 0xFF01 1 (wordBytes
    [d.rd Reg.SUP_RSTCAUSE, d.rd Reg.SUP_RSTCNT, d.rd Reg.SUP_CAUSECNT0, d.rd Reg.SUP_CAUSECNT1, d.rd Reg.WDT_RSTCOUNT])

/-- What the runtime firmware raises at a boot: source 149 after a cause other than COLD (R399), the window that a reset
has closed (R433), and the loss of the backup domain (R375). -/
def Dev.bootEvents (d : Dev) (t : Nat) : Dev :=
  let d := if d.flag F.SUP_RSTCAUSE_CAUSE then d.supEvent t 5 else d
  let d := if d.sec.wasOpen then
      ((d.modSec (fun s => { s with wasOpen := false })).secEvent t 0).journal t 5 0 5 []
    else d
  if d.flag F.RTC_STAT_BKLOST then d.rtcEvent t 3 else d

/-- R199, R481: the runtime firmware starts at MONO t: versions, records, the exchange that a reset has ended, the
configuration set. -/
def Dev.startFirmware (d : Dev) (t : Nat) (converted : List Conversion) : Dev :=
  let d := ({ d with phase := .prep }).touch
  let d := d.convertRecords t converted
  let d := ((d.verifyComp t 1).verifyComp t 2).verifyComp t 3
  let d := systemRecords.foldl (fun d x => d.ensureSystem t (d.ownRid x.1) x.2) d
  let d := (d.showVersions.historyRecord t).bootEvents t
  let d := if d.xch.lost then (d.setFld F.XCH_STAT_RESULT 11).modXch (fun x => { x with lost := false }) else d
  match (d.comp 3).active.program with
  | some p => d.restoreProgram t p
  | none => d

/-- R452, R466: the boot ROM finds a flash of a size code, or none that responds; what then reads damaged. -/
def flashDamage (flash : Option (BitVec 2)) (bad : BitVec 10) : BitVec 10 := if flash.isSome then bad else 0x3FF

/-- R452: UPD_STAT.FLSIZE and FLOK as the boot finds them. -/
def Dev.showFlash (d : Dev) (flash : Option (BitVec 2)) : Dev :=
  (d.setFld F.UPD_STAT_FLSIZE (match flash with | some s => s.toNat | none => 0)).setFld F.UPD_STAT_FLOK (b2n flash.isSome)

/-- R439, R448: the boot ROM at MONO t. What it and the runtime firmware take from NVS is there, so the recall of R366
has ended. -/
def Dev.boot (flash : Option (BitVec 2)) (bad : BitVec 10) (converted : List Conversion) (t : Nat) (d : Dev) : Dev :=
  if d.phase = .rom then
    let bad := flashDamage flash bad
    let d := ((Dev.recallDone t d).showFlash flash).readFlash bad
    if d.flag F.SYS_STRAPS_SPORE || noDirectory bad then d.enterSpore t (noDirectory bad)
    else if d.activeBoots then (d.bootSlot t).startFirmware t converted
    else if d.otherBoots then ((d.revertSlot t 0 0 7).bootSlot t).startFirmware t converted
    else d.enterSpore t false
  else d

/-- BOOT: dt ns after the release of device reset the boot ROM has handed over, or has entered spore mode;
converted are the records that a new RUNTIME converts (R439, R445, R448). -/
def execBoot (dt : Nat) (found : FlashFound) (converted : List Conversion) (s : State) :
    Host.Outcome State Fault Refusal := s.event dt (Dev.boot found.size found.bad converted)

/-! ## The first scan (R246, R406, R439, R444, R481) -/

/-- R246: station time in ns as the calendar and the TAI–UTC offset give it. -/
def Dev.calendarStation (d : Dev) (t : Nat) : Nat :=
  match (d.calWords t).map (·.toNat) with
  | [sub, sec, min, hour, day, month, year] =>
    (calSeconds sec min hour day month year + 946684800 + d.fld F.PTP_IRIGCFG_TAIOFS) * 1000000000 +
      sub * 1000000000 / 32768
  | _ => 0

/-- R439: a boot that reaches its first scan within 5 s of the release has succeeded. -/
def Dev.bootSuccess (d : Dev) (t : Nat) : Dev :=
  if t ≤ 5000000000 then
    let d := (d.modComp 0 (fun k => k.setFails 0)).bootRecord t
    let d := d.setFld F.SYS_BOOT_FAILS 0
    forN 4 (fun c d => if (d.comp c).selfConfirm then d.confirmComp t 0 c else d) d
  else d

/-- R406: the watchdog is enabled before the first scan, with WIN_OPEN 0 and WIN_CLOSE 1,000 ms when the configuration
set holds no setting. -/
def Dev.defaultWdt (d : Dev) (t : Nat) : Dev :=
  if d.flag F.WDT_STAT_EN then d else Dev.wdtConfig (BitVec.ofNat 32 (1000 * 2 ^ 16)) t d

/-- R73: after the load of station time the runtime firmware writes ANG_SRC from the configuration set. -/
def Dev.restoreSrc (d : Dev) (t : Nat) : Dev :=
  match (d.comp 3).active.program with
  | some p => (p.regs.filter (fun x => x.1 == Reg.ANG_SRC)).foldl (fun d x => d.writeReg .svc t x.1 x.2) d
  | none => d

/-- R481: the runtime firmware reaches its first scan, or the ready state, at MONO t. -/
def Dev.reachScan (t : Nat) (d : Dev) : Dev :=
  if d.phase = .prep ∧ !(d.flag F.SUP_STAT_SVCHALT) then
    let d := ((d.defaultWdt t).loadStation t (d.calendarStation t)).restoreSrc t
    let d := (d.firstScan t).bootSuccess t
    forN 4 (Dev.startWindow t) d
  else d

/-- FIRST_SCAN: dt ns pass, and the runtime firmware makes the configuration check and enters the key's mode (R481). -/
def execFirstScan (dt : Nat) (s : State) : Host.Outcome State Fault Refusal := s.event dt Dev.reachScan

end Sys2Proof.Machine
end

