-- ==== Sys2Proof/Machine/Frames.lean ====
section
/-!
DEFINITION. The CSRREAD and CSRWRITE frames of the service UART and the LAN command channel, and what JTAG does in their
place (R416, R418 to R421, R467).
-/
namespace Sys2Proof.Machine

/-- R420, R421: a CSRDATA frame leaves; it is the response that a repeated frame gets. -/
def Dev.csrData (d : Dev) (t : Nat) (ch : Channel) (bytes : List Byte) : Dev :=
  let d := d.send t (.response ch bytes)
  match chSeq ch with
  | some q =>
    { d with host := { d.host with
        replies := { who := chWho ch, seq := q, bytes := bytes } :: d.host.replies.filter (fun r => r.who != chWho ch) } }
  | none => d

/-- R420: a CSRDATA frame with a STATUS. -/
def Dev.csrStatus (d : Dev) (t : Nat) (ch : Channel) (st : Nat) : Dev := d.csrData t ch (leBytes st 4)

/-- R421: a register frame is served with f; a repeated one gets its response again. -/
def Dev.csrFrame (ch : Channel) (f : Nat → Dev → Dev) (t : Nat) (d : Dev) : Dev :=
  if !d.serves || (chMailbox ch).isSome || ch == .damaged then d
  else
    match d.repeated ch with
    | some bytes => d.send t (.response ch bytes)
    | none => f t d

/-- R420, R20: count registers read from an offset on; an unassigned one reads 0. -/
def Dev.readRun (r : Requester) (t : Nat) : Nat → Nat → Dev → Dev × List Word
  | 0, _, d => (d, [])
  | n + 1, off, d =>
    let x : Dev × Word :=
      match csrTicks off with
      | some _ => d.readReg r t off
      | none => (d.badAccess r off false true, 0)
    let y := Dev.readRun r t n (off + 4) x.1
    (y.1, x.2 :: y.2)

/-- R418, R420: a CSRREAD of count registers from an offset on. -/
def Dev.csrreadFrame (ch : Channel) (off count t : Nat) (d : Dev) : Dev :=
  let r := chRequester ch
  if !d.mayRead r then d.csrStatus t ch 2
  else if count < 1 ∨ 64 < count ∨ off % 4 ≠ 0 then d.csrStatus t ch 4
  else
    let x := Dev.readRun r t count off d
    x.1.csrData t ch (wordBytes x.2)

/-- R418, R419, R420, R373: a CSRWRITE; a register that changes is journaled.
A write that resets the device gets no response. -/
def Dev.csrwriteFrame (ch : Channel) (off : Nat) (v : Word) (t : Nat) (d : Dev) : Dev :=
  let r := chRequester ch
  if r == .uart && !d.accessOpen then d.csrStatus t ch 2
  else if off % 4 ≠ 0 then d.csrStatus t ch 4
  else if (csrTicks off).isNone then (d.badAccess r off false true).csrStatus t ch 4
  else if !d.mayWrite r off then d.csrStatus t ch 2
  else
    let old := d.rd off
    let d := d.writeReg r t off v
    if d.serves then
      let d := if d.rd off = old then d else d.journal t 1 (chClass ch) 0 [off, old.toNat, (d.rd off).toNat]
      d.csrStatus t ch 0
    else d

/-- dt ns pass, and a frame with its effect f is complete; a scan of the test access port takes the place of the frame. -/
def State.frameIn (s : State) (dt : Nat) (ch : Channel) (f : Nat → Dev → Dev) : Host.Outcome State Fault Refusal :=
  match ch with
  | .jtag (some x) => s.world dt (Dev.tapScan x)
  | _ => s.event dt (Dev.csrFrame ch f)

/-- CSRREAD_FRAME: dt ns pass, and a CSRREAD frame is complete (R420, R421), or JTAG reads registers (R416). -/
def execCsrreadFrame (dt : Nat) (ch : Channel) (off : BitVec 24) (count : BitVec 8) (s : State) :
    Host.Outcome State Fault Refusal :=
  s.frameIn dt ch (Dev.csrreadFrame ch off.toNat count.toNat)

/-- CSRWRITE_FRAME: dt ns pass, and a CSRWRITE frame is complete (R419 to R421), or JTAG writes a register (R416). -/
def execCsrwriteFrame (dt : Nat) (ch : Channel) (off : BitVec 24) (v : BitVec 32) (s : State) :
    Host.Outcome State Fault Refusal :=
  s.frameIn dt ch (Dev.csrwriteFrame ch off.toNat v)

end Sys2Proof.Machine
end

