-- ==== Sys2Proof/Machine/Spore.lean ====
section
/-!
DEFINITION. Spore mode (R448): what the boot ROM does with the frames of the service UART and of Ethernet port A.
-/
namespace Sys2Proof.Machine

/-- A channel of spore mode: the UART, or port A. -/
def sporeChannel : Channel → Bool
  | .uart _ => true
  | .lan cd _ _ => !cd
  | _ => false

/-- A channel is the UART. -/
def onUart : Channel → Bool
  | .uart _ => true
  | _ => false

/-- R421, R448: an ACK leaves; it is the response that a repeated frame gets. -/
def Dev.sporeAnswer (d : Dev) (t : Nat) (ch : Channel) (status c : Nat) : Dev :=
  let bytes := ackBytes d status c
  let d := d.send t (.sporeAck ch bytes)
  match chSeq ch with
  | some q =>
    { d with host := { d.host with
        replies := { who := chWho ch, seq := q, bytes := bytes } :: d.host.replies.filter (fun r => r.who != chWho ch) } }
  | none => d

/-- R421, R448: a frame with its effect f on the component that COMP names; f gives the STATUS of the ACK. A valid frame
ends the wait for one at a new rate. -/
def Dev.sporeFrame (ch : Channel) (comp : Nat) (f : Nat → Nat → Dev → Dev × Nat) (t : Nat) (d : Dev) : Dev :=
  if d.phase = .spore ∧ sporeChannel ch then
    let d := if onUart ch then { d with flash.baudBack := none } else d
    match d.repeated ch with
    | some bytes => d.send t (.sporeAck ch bytes)
    | none =>
      if 1 ≤ comp ∧ comp ≤ 4 then
        let x := f (comp - 1) t d
        x.1.sporeAnswer t ch x.2 (comp - 1)
      else d.sporeAnswer t ch 4 4
  else d

/-- SPORE_MANIFEST: a part of a manifest (R448). -/
def execSporeManifest (dt : Nat) (ch : Channel) (comp : BitVec 4) (index : BitVec 32) (part : List (BitVec 8)) (s : State) :
    Host.Outcome State Fault Refusal :=
  s.event dt (Dev.sporeFrame ch comp.toNat (fun c t d => d.manifestPart t (chClass ch) c index.toNat part))

/-- SPORE_DATA: a block (R448). -/
def execSporeData (dt : Nat) (ch : Channel) (comp : BitVec 4) (index : BitVec 32) (block : List (BitVec 8)) (s : State) :
    Host.Outcome State Fault Refusal :=
  s.event dt (Dev.sporeFrame ch comp.toNat (fun c t d => d.dataBlock t c index.toNat block))

/-- SPORE_STATUS: the state of a component, in the ACK (R448). -/
def execSporeStatus (dt : Nat) (ch : Channel) (comp : BitVec 4) (s : State) : Host.Outcome State Fault Refusal :=
  s.event dt (Dev.sporeFrame ch comp.toNat (fun _ _ d => (d, 0)))

/-- R448: COMMIT lists component c, and once every listed component is COMPLETE the commit follows; the ACK leaves before
the reset. -/
def Dev.commitFrame (ch : Channel) (c t : Nat) (d : Dev) : Dev :=
  let d := if d.flash.listed.contains c then d else { d with flash.listed := d.flash.listed ++ [c] }
  let x := d.sporeCommit t
  if d.listedComplete ∧ x.2 then ((d.sporeAnswer t ch 0 c).sporeCommit t).1
  else x.1.sporeAnswer t ch (if x.2 then 0 else 8) c

/-- COMMIT: the directory switches, and the device resets, once every listed component is COMPLETE (R448). -/
def execSporeCommit (dt : Nat) (ch : Channel) (comp : BitVec 4) (s : State) : Host.Outcome State Fault Refusal :=
  s.event dt (fun t d =>
    if d.phase = .spore ∧ sporeChannel ch ∧ (d.repeated ch).isNone ∧ 1 ≤ comp.toNat ∧ comp.toNat ≤ 4 then
      (if onUart ch then { d with flash.baudBack := none } else d).commitFrame ch (comp.toNat - 1) t
    else d.sporeFrame ch comp.toNat (fun _ _ d => (d, 0)) t)

/-- The rates of the service UART in spore mode. -/
def sporeRates : List Nat := [115200, 921600, 3000000, 6000000, 12000000]

/-- R448: BAUD: the ACK leaves at the old rate, then the rate changes. -/
def Dev.baudFrame (ch : Channel) (rate : Nat) (t : Nat) (d : Dev) : Dev :=
  if d.phase = .spore ∧ sporeChannel ch ∧ (d.repeated ch).isNone then
    let d := if onUart ch then { d with flash.baudBack := none } else d
    if sporeRates.contains rate then
      let d := d.sporeAnswer t ch 0 4
      { d with flash.baud := rate, flash.baudBack := if rate = 115200 then none else some (t + 2000000000) }
    else d.sporeAnswer t ch 4 4
  else d.sporeFrame ch 0 (fun _ _ d => (d, 0)) t

/-- BAUD: a new rate for the service UART (R448). -/
def execSporeBaud (dt : Nat) (ch : Channel) (rate : BitVec 32) (s : State) : Host.Outcome State Fault Refusal :=
  s.event dt (Dev.baudFrame ch rate.toNat)

/-- BAUD_FALLBACK: 2 s without a valid frame at the new rate (R448). -/
def execBaudFallback (s : State) : Host.Outcome State Fault Refusal :=
  match s.dev.flash.baudBack with
  | some e => s.at e (fun _ d => { d with flash.baud := 115200, flash.baudBack := none })
  | none => .next s

/-- R448: the HELLO of spore mode. -/
def Dev.helloFrame (d : Dev) : Msg := .sporeHello d.uidBytes (d.rd Reg.SYS_IDCODE) (d.rd Reg.SYS_ROMVER) d.dir

/-- SPORE_HELLO: the next HELLO of spore mode, on the UART and on port A (R448). -/
def execSporeHello (s : State) : Host.Outcome State Fault Refusal :=
  match s.dev.flash.helloAt with
  | some e => s.at e (fun t d =>
      if d.phase = .spore then { d.send t d.helloFrame with flash.helloAt := some (t + 1000000000) } else d)
  | none => .next s

end Sys2Proof.Machine
end

