-- ==== Sys2Proof/Machine/HostCmds.lean ====
section
/-!
DEFINITION. The host commands LOAD, DESC, LAUNCH, JOURNAL and RECORD (R329, R372, R374).
-/
namespace Sys2Proof.Machine

/-! ## LOAD and DESC -/

/-- R418: LOAD, DESC and XCH_CMD: P0 open, P1, and P2 in REMOTE alone. -/
def Dev.loadAllowed (d : Dev) (ch : Channel) : Bool := d.openFor ch && (chClass ch != 2 || d.mode == .remote)

/-- The bytes of the memory of one core that LOAD addresses. -/
def loadSize (data : Bool) : Nat := if data then 0x200000 else 0x400000

/-- R178, R196: the bytes from off on lie in banks without running code, or in no data span that is in use. -/
def Dev.stagedPlace (d : Dev) (c : Nat) (data : Bool) (off len : Nat) : Bool :=
  if data then
    (d.takenSpans c).all (fun p => Nat.ble (off + len) p.1 || Nat.ble (p.1 + p.2) off)
  else
    (List.range 8).all (fun b =>
      !(bitOf (d.runBanks c) b) || Nat.ble (off + len) (b * 0x80000) || Nat.ble ((b + 1) * 0x80000) off)

/-- R9, R329: bytes written into the memory of a core, and the format of the code banks that they touch. -/
def Dev.storeLoad (d : Dev) (c : Nat) (data : Bool) (off : Nat) (l : List Byte) (fmt : BitVec 16) : Dev :=
  if data then { d with mem := { d.mem with data := Memory.wrBytes d.mem.data (c * 0x200000 + off) l } }
  else
    let d := { d with mem := { d.mem with code := Memory.wrBytes d.mem.code (c * 0x400000 + off) l } }
    forN 8 (fun b d =>
      if off < (b + 1) * 0x80000 ∧ b * 0x80000 < off + l.length then
        { d with formats := Sparse.set (fun _ => 0) d.formats (8 * c + b) (fmt.setWidth 32) }
      else d) d

/-- R337: a file of this format is accepted. -/
def Dev.formatOk (d : Dev) (fmt : BitVec 16) : Bool :=
  (negotiate (d.rd (Reg.SYS_IFVER 4)) (BitVec.ofNat 32 (formatRange fmt.toNat))).isSome

/-- The file is of executable format 4. -/
def oldFormat (f : ExecFile) : Bool := f.format.toNat / 256 == 4

/-- R178, R329: LOAD with its data. -/
def Dev.load (cls c : Nat) (data : Bool) (off : Nat) (l : List Byte) (file : ExecFile) (d : Dev) : Dev × Answer :=
  let bytes := if oldFormat file then padTo l.length file.converted else l
  if l.length % 8 ≠ 0 ∨ loadSize data < off + l.length ∨ !d.formatOk file.format then outOfRange d
  else if d.mode = .program then
    let cores := match d.fullLoad with | some (_, m, _) => m | none => 0
    let d := d.modXch (fun x => { x with loaded := (if data then [(c, off, l.length)] else []) ++ x.loaded })
    ({ d.storeLoad c data off bytes file.format with
        fullLoad := some (file.ver, cores ||| BitVec.twoPow 8 c, cls) }, some (0, []))
  else if d.mode = .remote then
    if d.xst ≠ 0 then (d, some (5, []))
    else if d.stagedPlace c data off l.length then (d.storeLoad c data off bytes file.format, some (0, []))
    else (d, some (3, []))
  else (d, some (3, []))

/-- LOAD: code or task data of a core (R329). -/
def execHostLoad (h : CmdHead) (core : BitVec 3) (data : Bool) (off : BitVec 32) (bytes : List (BitVec 8)) (file : ExecFile)
    (s : State) : Host.Outcome State Fault Refusal :=
  let n := 8 + bytes.length
  s.serve h 0x10 (2000 + (if oldFormat file then 3 else 2) * n) 0 (s.dev.loadAllowed h.ch) (fun _ _ _ d =>
    d.load (chClass h.ch) core.toNat data off.toNat bytes file)

/-- R329: DESC: descriptor bytes written at XCH_DESC while the exchange is IDLE. -/
def Dev.writeDesc (l : List Byte) (d : Dev) : Dev × Answer :=
  if d.mode ≠ .remote ∧ d.mode ≠ .program then (d, some (3, []))
  else if d.xst ≠ 0 then (d, some (5, []))
  else if stagingSize < d.descOffset + l.length then outOfRange d
  else ({ d with mem := { d.mem with staging := Memory.wrBytes d.mem.staging d.descOffset l } }, some (0, []))

/-- DESC: exchange descriptor bytes (R329). -/
def execDesc (h : CmdHead) (bytes : List (BitVec 8)) (s : State) : Host.Outcome State Fault Refusal :=
  s.serve h 0x11 (2000 + 2 * bytes.length) 0 (s.dev.loadAllowed h.ch) (fun _ _ _ d => d.writeDesc bytes)

/-! ## LAUNCH -/

/-- R418: RECORD writes and LAUNCH: P0 open and P1. -/
def Dev.hostAllowed (d : Dev) (ch : Channel) : Bool := d.openFor ch && chClass ch != 2

/-- R268: the launch time of descriptor words 0 and 1, within the 2^32 seconds nearest to station time s. -/
def launchTime (s ns sec : Nat) : Nat :=
  let now := s / 1000000000
  let base := now / 2 ^ 32 * 2 ^ 32 + sec
  let near := if base + 2 ^ 31 < now then base + 2 ^ 32
    else if now + 2 ^ 31 ≤ base ∧ 2 ^ 32 ≤ base then base - 2 ^ 32 else base
  near * 1000000000 + ns

/-- The place in network buffer memory of frame k that the host posts to queue q of port p. -/
def frameSlot (p q k : Nat) : Nat := ((8 * p + q) * 64 + k) * 2048

/-- The first frame place of queue q of port p that no descriptor of the queue names. -/
def Dev.freeSlot (d : Dev) (p q : Nat) : Option Nat :=
  (List.range 64).find? (fun k => !((d.launchQ p q).any (fun x =>
    match x.src with | .host off _ _ => off == frameSlot p q k | _ => false)))

/-- R268, R329: LAUNCH at MONO t. With TSREQ the response leaves when the frame has left. -/
def Dev.hostLaunch (dest : ReplyTo) (p q : Nat) (ns sec len : Nat) (tsreq : Bool) (frame : List Byte) (t : Nat) (d : Dev) :
    Dev × Answer :=
  if 4 < q ∨ len ≠ frame.length ∨ 1000000000 ≤ ns then outOfRange d
  else if !(d.flag (F.ETH_LQCFG_EN p q)) then ended d false
  else match d.freeSlot p q with
    | none => (d, some (5, []))
    | some k =>
      let off := frameSlot p q k
      let d := { d with mem := { d.mem with net := Memory.wrBytes d.mem.net off frame } }
      (d.postOne t p q { at_ := launchTime (d.station t) ns sec, src := .host off len (if tsreq then some dest else none) },
        if tsreq then none else some (0, []))

/-- LAUNCH: a frame for a launch queue (R329). -/
def execHostLaunch (h : CmdHead) (port : BitVec 2) (queue : BitVec 3) (ns : BitVec 30) (sec : BitVec 32) (len : BitVec 11)
    (tsreq : Bool) (frame : List (BitVec 8)) (s : State) : Host.Outcome State Fault Refusal :=
  s.serve h 0x20 (1500 + 16 + frame.length) 0 (s.dev.hostAllowed h.ch) (fun dest _ t d =>
    d.hostLaunch dest port.toNat queue.toNat ns.toNat sec.toNat len.toNat tsreq frame t)

/-! ## JOURNAL (R374) -/

/-- R373: the whole entries of the journal in NUM order, the oldest first. -/
def Dev.journalEntries (d : Dev) : List (List Byte) :=
  let m := d.nvsMem
  let newest := d.journalHead.2
  ((List.range 2048).map (fun i => journalSlot m ((newest + 1 + i) % 2048))).filter journalOk

/-- R374: the entries from NUM first on, count of them at most. -/
def Dev.journalRange (d : Dev) (first count : Nat) : List (List Byte) :=
  (d.journalEntries.filter (fun l => decide (((wordAt l 0).toNat + 2 ^ 32 - first) % 2 ^ 32 < 2 ^ 31))).take count

/-- R364: a command that works on NVS: the service core waits for READY before it serves one. -/
def State.serveNvs (s : State) (h : CmdHead) (cmd cost : Nat) (allowed : Bool)
    (f : ReplyTo → Nat → Nat → Dev → Dev × Answer) : Host.Outcome State Fault Refusal :=
  if s.dev.nvsReady then s.serve h cmd cost 0 allowed f else .next s

/-- JOURNAL: change-journal entries (R374). -/
def execJournal (h : CmdHead) (first count : BitVec 32) (s : State) : Host.Outcome State Fault Refusal :=
  let l := s.dev.journalRange first.toNat count.toNat
  let ok := Nat.ble 1 count.toNat && Nat.ble count.toNat 1022
  s.serveNvs h 0x40 (2000 + (if ok then 120 * l.length else 0)) (s.dev.openFor h.ch) (fun _ _ _ d =>
    if !ok then outOfRange d
    else (d, some (0, leBytes (match l with | e :: _ => (wordAt e 0).toNat | [] => 0) 4 ++ leBytes l.length 4 ++ l.flatten)))

/-! ## RECORD (R372) -/

/-- RECORD with WR = 0: the newest slot of a record (R372). -/
def execRecordRead (h : CmdHead) (rid : BitVec 16) (s : State) : Host.Outcome State Fault Refusal :=
  let l := s.dev.recordGet (s.dev.ownRid rid.toNat)
  s.serveNvs h 0x41 (3000 + 2 * (l.getD []).length) (s.dev.openFor h.ch) (fun _ _ _ d =>
    match l with
    | some bytes => (d, some (0, bytes))
    | none => ended d false)

/-- R372: RECORD with WR = 1 at MONO t. -/
def Dev.recordWrite (cls rid fmt len : Nat) (payload : List Byte) (t : Nat) (d : Dev) : Dev × Answer :=
  let m := d.nvsMem
  match findRecord m (d.ownRid rid) with
  | none => outOfRange d
  | some r =>
    if (dirEntry m r).capacity < len ∨ len ≠ payload.length then outOfRange d
    else
      let d := d.recordPut t r fmt payload
      (d.journal t 1 cls 1 [rid, d.recordSeq (d.ownRid rid)], some (0, []))

/-- RECORD with WR = 1: a record is written (R371, R372). -/
def execRecordWrite (h : CmdHead) (rid : BitVec 16) (fmt : BitVec 8) (len : BitVec 32) (payload : List (BitVec 8))
    (s : State) : Host.Outcome State Fault Refusal :=
  s.serveNvs h 0x41 (3000 + 2 * payload.length) (s.dev.hostAllowed h.ch) (fun _ _ t d =>
    d.recordWrite (chClass h.ch) rid.toNat fmt.toNat len.toNat payload t)

/-- FRAME_REASSEMBLY_TIMEOUT: dt ns pass, and the segments of a message that stays incomplete are discarded; no command
comes of them (R421, assumption 18). -/
def execFrameReassemblyTimeout (dt : Nat) (s : State) : Host.Outcome State Fault Refusal := s.event dt (fun _ d => d)

end Sys2Proof.Machine
end

