-- ==== Sys2Proof/Machine/Phasor.lean ====
section
/-!
DEFINITION. Accumulator and phasor instructions (R145 to R154).
-/
namespace Sys2Proof.Machine

/-! ## The sine table (R151) -/

/-- R151: sin(2πi / 1,024) × 2^31 rounded to even, for a quarter wave: i = 0 to 256, in eight pieces and the last. -/
def sine0 : List Int :=
  [0, 13176712, 26352928, 39528151, 52701887, 65873638, 79042909, 92209205, 105372028, 118530885, 131685278,
   144834714, 157978697, 171116733, 184248325, 197372981, 210490206, 223599506, 236700388, 249792358, 262874923,
   275947592, 289009871, 302061269, 315101295, 328129457, 341145265, 354148230, 367137861, 380113669, 393075166,
   406021865]
def sine32 : List Int :=
  [418953276, 431868915, 444768294, 457650927, 470516330, 483364019, 496193509, 509004318, 521795963, 534567963,
   547319836, 560051104, 572761285, 585449903, 598116479, 610760536, 623381598, 635979190, 648552838, 661102068,
   673626408, 686125387, 698598533, 711045377, 723465451, 735858287, 748223418, 760560380, 772868706, 785147934,
   797397602, 809617249]
def sine64 : List Int :=
  [821806413, 833964638, 846091463, 858186435, 870249095, 882278992, 894275671, 906238681, 918167572, 930061894,
   941921200, 953745043, 965532978, 977284562, 988999351, 1000676905, 1012316784, 1023918550, 1035481766,
   1047005996, 1058490808, 1069935768, 1081340445, 1092704411, 1104027237, 1115308496, 1126547765, 1137744621,
   1148898640, 1160009405, 1171076495, 1182099496]
def sine96 : List Int :=
  [1193077991, 1204011567, 1214899813, 1225742318, 1236538675, 1247288478, 1257991320, 1268646800, 1279254516,
   1289814068, 1300325060, 1310787095, 1321199781, 1331562723, 1341875533, 1352137822, 1362349204, 1372509294,
   1382617710, 1392674072, 1402678000, 1412629117, 1422527051, 1432371426, 1442161874, 1451898025, 1461579514,
   1471205974, 1480777044, 1490292364, 1499751576, 1509154322]
def sine128 : List Int :=
  [1518500250, 1527789007, 1537020244, 1546193612, 1555308768, 1564365367, 1573363068, 1582301533, 1591180426,
   1599999411, 1608758157, 1617456335, 1626093616, 1634669676, 1643184191, 1651636841, 1660027308, 1668355276,
   1676620432, 1684822463, 1692961062, 1701035922, 1709046739, 1716993211, 1724875040, 1732691928, 1740443581,
   1748129707, 1755750017, 1763304224, 1770792044, 1778213194]
def sine160 : List Int :=
  [1785567396, 1792854372, 1800073849, 1807225553, 1814309216, 1821324572, 1828271356, 1835149306, 1841958164,
   1848697674, 1855367581, 1861967634, 1868497586, 1874957189, 1881346202, 1887664383, 1893911494, 1900087301,
   1906191570, 1912224073, 1918184581, 1924072871, 1929888720, 1935631910, 1941302225, 1946899451, 1952423377,
   1957873796, 1963250501, 1968553292, 1973781967, 1978936331]
def sine192 : List Int :=
  [1984016189, 1989021350, 1993951625, 1998806829, 2003586779, 2008291295, 2012920201, 2017473321, 2021950484,
   2026351522, 2030676269, 2034924562, 2039096241, 2043191150, 2047209133, 2051150040, 2055013723, 2058800036,
   2062508835, 2066139983, 2069693342, 2073168777, 2076566160, 2079885360, 2083126254, 2086288720, 2089372638,
   2092377892, 2095304370, 2098151960, 2100920556, 2103610054]
def sine224 : List Int :=
  [2106220352, 2108751352, 2111202959, 2113575080, 2115867626, 2118080511, 2120213651, 2122266967, 2124240380,
   2126133817, 2127947206, 2129680480, 2131333572, 2132906420, 2134398966, 2135811153, 2137142927, 2138394240,
   2139565043, 2140655293, 2141664948, 2142593971, 2143442326, 2144209982, 2144896910, 2145503083, 2146028480,
   2146473080, 2146836866, 2147119825, 2147321946, 2147443222]
def sine256 : List Int :=
  [2147483648]

/-- R151: the quarter wave. -/
def quarterWave : List Int :=
  sine0 ++ sine32 ++ sine64 ++ sine96 ++ sine128 ++ sine160 ++ sine192 ++ sine224 ++ sine256

/-- R151: the quarter wave continued to the whole table, before it is fitted. -/
def sineExact (i : Nat) : Int :=
  if i ≤ 256 then quarterWave.getD i 0
  else if i ≤ 512 then quarterWave.getD (512 - i) 0
  else if i ≤ 768 then -(quarterWave.getD (i - 512) 0)
  else -(quarterWave.getD (1024 - i) 0)

/-- R151: S[i], i = 0 to 1,023; S[256] is fitted to 0x7FFFFFFF. -/
def sineTable (i : Nat) : Int := saturate (sineExact i) 32

/-- R151: sin(θ), interpolated and rounded. -/
def sinOf (m : Rounding) (θ : Word) : Int :=
  let i := θ.toNat / 2 ^ 22
  let f : Int := (θ.toNat % 2 ^ 22 : Nat)
  sineTable i + rnd m ((sineTable ((i + 1) % 1024) - sineTable i) * f) 22

/-- R151: cos(θ). -/
def cosOf (m : Rounding) (θ : Word) : Int := sinOf m (θ + 0x40000000)

/-! ## Form A (R145) -/

/-- The accumulator of form A. -/
def accField (b0 : BitVec 8) : Nat := b0.toNat % 4

/-- X registers p and q of the memory operands; [3:2] is also the second accumulator of ADDA and SUBA. -/
def pField (b0 : BitVec 8) : Nat := b0.toNat / 4 % 4
def qField (b0 : BitVec 8) : Nat := b0.toNat / 16 % 4

/-- R145: byte 0 holds nothing above its low n bits. -/
def lowBits (n : Nat) (b0 : BitVec 8) : Bool := Nat.blt b0.toNat (2 ^ n)

/-- R145: byte 1 is 0x00. -/
def byteZero (f1 f2 : BitVec 4) : Bool := f1 == 0 && f2 == 0

/-- R145: a pair starts at A0 or A2. -/
def pairOk (b0 : BitVec 8) : Bool := !b0.getLsbD 0

/-! ## Multiply and accumulate (R146 to R148) -/

/-- R147: the accumulator result of factors u and v: with the old accumulator times k, and the product times g. -/
def macOut (sat lane : Bool) (k g : Int) (old : BitVec 72) (u v : Word) : AccOut :=
  if lane then
    accDual sat (k * (halves old).1 + g * ((lanes u).1 * (lanes v).1), k * (halves old).2 + g * ((lanes u).2 * (lanes v).2))
  else accSingle sat (k * old.toInt + g * (sgn u * sgn v))

/-- MPY, MAC and MSU (R147). -/
def macBody (k g : Int) (b0 : BitVec 8) (f1 f2 : BitVec 4) : Body := fun x =>
  let a := accField b0
  .ok (x.withB (x.b.putAcc a (macOut x.sat x.m.lane k g (x.b.getA a) (x.b.getW f1.toNat) (x.b.getW f2.toNat))))

/-- MACM and MSUM (R148). -/
def macMemBody (g : Int) (b0 : BitVec 8) (ecc : Option ReadErr) : Body := fun x => do
  let a := accField b0
  let y ← x.operandPair (pField b0) (qField b0) ecc
  let o := macOut x.sat x.m.lane 1 g (x.b.getA a) y.2.1 y.2.2
  return y.1.withB ((x.b.putAcc a o).stepPair (pField b0) (qField b0))

/-- An instruction of form A that accepts LANE and REP. -/
def State.macInstr (s : State) (core : Nat) (pre : Fetch) (op : Byte) (legal : Bool) (b0 : BitVec 8)
    (f1 f2 : BitVec 4) (body : Body) : Host.Outcome State Fault Refusal :=
  s.instr core [.lane, .rep, .cond] pre legal (op :: bytesA b0 f1 f2) (ticks 1) body

/-- MPY (R147). -/
def execOpMpy (core : Nat) (pre : Fetch) (b0 : BitVec 8) (f1 f2 : BitVec 4) (s : State) :
    Host.Outcome State Fault Refusal :=
  s.macInstr core pre 0x80 (lowBits 2 b0) b0 f1 f2 (macBody 0 1 b0 f1 f2)

/-- MAC (R147). -/
def execOpMac (core : Nat) (pre : Fetch) (b0 : BitVec 8) (f1 f2 : BitVec 4) (s : State) :
    Host.Outcome State Fault Refusal :=
  s.macInstr core pre 0x81 (lowBits 2 b0) b0 f1 f2 (macBody 1 1 b0 f1 f2)

/-- MSU (R147). -/
def execOpMsu (core : Nat) (pre : Fetch) (b0 : BitVec 8) (f1 f2 : BitVec 4) (s : State) :
    Host.Outcome State Fault Refusal :=
  s.macInstr core pre 0x82 (lowBits 2 b0) b0 f1 f2 (macBody 1 (-1) b0 f1 f2)

/-- MACM (R148). -/
def execOpMacm (core : Nat) (pre : Fetch) (b0 : BitVec 8) (f1 f2 : BitVec 4) (ecc : Option ReadErr) (s : State) :
    Host.Outcome State Fault Refusal :=
  s.macInstr core pre 0x83 (lowBits 6 b0 && byteZero f1 f2) b0 f1 f2 (macMemBody 1 b0 ecc)

/-- MSUM (R148). -/
def execOpMsum (core : Nat) (pre : Fetch) (b0 : BitVec 8) (f1 f2 : BitVec 4) (ecc : Option ReadErr) (s : State) :
    Host.Outcome State Fault Refusal :=
  s.macInstr core pre 0x84 (lowBits 6 b0 && byteZero f1 f2) b0 f1 f2 (macMemBody (-1) b0 ecc)

/-! ## Accumulator moves and shifts (R149, R150) -/

/-- CLRA (R149). -/
def execOpClra (core : Nat) (pre : Fetch) (b0 : BitVec 8) (f1 f2 : BitVec 4) (s : State) :
    Host.Outcome State Fault Refusal :=
  s.instr core [.cond] pre (lowBits 2 b0 && byteZero f1 f2) (0x85 :: bytesA b0 f1 f2) (ticks 1)
    (bankDo (fun b => b.putAcc (accField b0) { value := 0 }))

/-- R149: the sum of an accumulator and g times another. -/
def addAccOut (sat lane : Bool) (g : Int) (u v : BitVec 72) : AccOut :=
  if lane then accDual sat ((halves u).1 + g * (halves v).1, (halves u).2 + g * (halves v).2)
  else accSingle sat (u.toInt + g * v.toInt)

/-- ADDA and SUBA (R149). -/
def addAccBody (g : Int) (b0 : BitVec 8) : Body := fun x =>
  .ok (x.withB (x.b.putAcc (accField b0)
    (addAccOut x.sat x.m.lane g (x.b.getA (accField b0)) (x.b.getA (pField b0)))))

/-- ADDA (R149). -/
def execOpAdda (core : Nat) (pre : Fetch) (b0 : BitVec 8) (f1 f2 : BitVec 4) (s : State) :
    Host.Outcome State Fault Refusal :=
  s.instr core [.lane, .cond] pre (lowBits 4 b0 && byteZero f1 f2) (0x89 :: bytesA b0 f1 f2) (ticks 1) (addAccBody 1 b0)

/-- SUBA (R149). -/
def execOpSuba (core : Nat) (pre : Fetch) (b0 : BitVec 8) (f1 f2 : BitVec 4) (s : State) :
    Host.Outcome State Fault Refusal :=
  s.instr core [.lane, .cond] pre (lowBits 4 b0 && byteZero f1 f2) (0x8A :: bytesA b0 f1 f2) (ticks 1) (addAccBody (-1) b0)

/-- R149: a value shifted by a signed count. -/
def shiftAcc (m : Rounding) (k : Int) (v : Int) : Int := if 0 ≤ k then v * (2 ^ k.toNat : Nat) else rnd m v (-k).toNat

/-- R149: the result of SHA. -/
def shaOut (sat lane : Bool) (m : Rounding) (k : Int) (u : BitVec 72) : AccOut :=
  if lane then accDual sat (shiftAcc m k (halves u).1, shiftAcc m k (halves u).2)
  else accSingle sat (shiftAcc m k u.toInt)

/-- R145: the shift count of SHA, -32 to 31. -/
def shaCount (b0 : BitVec 8) : Int := (b0.extractLsb' 2 6).toInt

/-- SHA (R149). -/
def execOpSha (core : Nat) (pre : Fetch) (b0 : BitVec 8) (f1 f2 : BitVec 4) (s : State) :
    Host.Outcome State Fault Refusal :=
  s.instr core [.sat, .rnd, .lane, .cond] pre (byteZero f1 f2) (0x8B :: bytesA b0 f1 f2) (ticks 1) (fun x =>
    .ok (x.withB (x.b.putAcc (accField b0)
      (shaOut x.sat x.m.lane x.rm (shaCount b0) (x.b.getA (accField b0))))))

/-- R149, R150: the word that an accumulator is reduced to, and that it saturated. -/
def reduce (sat lane : Bool) (m : Rounding) (u : BitVec 72) : AluOut :=
  if lane then
    let l := rnd m (halves u).1 15
    let h := rnd m (halves u).2 15
    { value := ofLanes (fitTo 16 sat l, fitTo 16 sat h), sat := sat && (!(inField l 16) || !(inField h 16)) }
  else
    let v := rnd m u.toInt 31
    { value := fitTo 32 sat v, sat := sat && !(inField v 32) }

/-- R149: the accumulator that a word enters with its binary point aligned. -/
def widen (lane : Bool) (w : Word) : BitVec 72 :=
  if lane then ofHalves (BitVec.ofInt 36 ((lanes w).1 * (2 ^ 15 : Nat)), BitVec.ofInt 36 ((lanes w).2 * (2 ^ 15 : Nat)))
  else BitVec.ofInt 72 (sgn w * (2 ^ 31 : Nat))

/-- MOVA: DIR 0 reduces the accumulator to a word, DIR 1 enters a word (R149). -/
def movaBody (b0 : BitVec 8) (f1 : BitVec 4) : Body := fun x =>
  let a := accField b0
  .ok (x.withB (if b0.getLsbD 2 then x.b.putAcc a { value := widen x.m.lane (x.b.getW f1.toNat) }
    else x.b.putAlu f1.toNat (reduce x.sat x.m.lane x.rm (x.b.getA a))))

/-- MOVA (R149). -/
def execOpMova (core : Nat) (pre : Fetch) (b0 : BitVec 8) (f1 f2 : BitVec 4) (s : State) :
    Host.Outcome State Fault Refusal :=
  s.instr core [.sat, .rnd, .lane, .cond] pre (lowBits 3 b0 && f2Zero f2) (0x88 :: bytesA b0 f1 f2) (ticks 1)
    (movaBody b0 f1)

/-- LDA: an accumulator from its raw format (R150). -/
def ldaBody (m : MAddr) (ecc : Option ReadErr) : Body := fun x => do
  let a := x.ea m
  localData a 8 16
  let y ← x.meet a (x.errOf ecc false)
  let y ← y.meet a (x.errOf ecc true)
  let v := BitVec.ofNat 72 (y.dev.rdMem y.c a 9)
  return (y.withB (y.b.putAcc (m.reg.toNat % 4) { value := v })).postInc m 16

/-- LDA (R150). -/
def execOpLda (core : Nat) (pre : Fetch) (m : MAddr) (ecc : Option ReadErr) (s : State) :
    Host.Outcome State Fault Refusal :=
  s.instr core [.cond] pre true (0x86 :: bytesM m) (ticks 2) (ldaBody m ecc)

/-- STA: raw format, 16 bytes, or reduced format, 4 bytes (R150). -/
def staBody (m : MAddr) : Body := fun x => do
  let a := x.ea m
  let u := x.b.getA (m.reg.toNat % 4)
  if m.reg.toNat / 4 = 0 then
    localData a 8 16
    return (x.withDev (x.dev.wrMem x.c a 16 (u.signExtend 128).toNat)).postInc m 16
  else
    localData a 4 4
    let o := reduce x.sat x.m.lane x.rm u
    return ((x.withDev (x.dev.wrMem x.c a 4 o.value.toNat)).withB (x.b.stick flSat o.sat)).postInc m 4

/-- STA (R150). -/
def execOpSta (core : Nat) (pre : Fetch) (m : MAddr) (s : State) : Host.Outcome State Fault Refusal :=
  s.instr core [.sat, .rnd, .lane, .cond] pre (Nat.ble (m.reg.toNat / 4) 1) (0x87 :: bytesM m) (ticks 2) (staBody m)

/-! ## Phasors (R152 to R154) -/

/-- R152: the pair rotated by the angle in W[F1]. -/
def rotBody (b0 : BitVec 8) (f1 : BitVec 4) : Body := fun x =>
  let a := accField b0
  let c := cosOf x.rm (x.b.getW f1.toNat)
  let s := sinOf x.rm (x.b.getW f1.toNat)
  let re := (x.b.getA a).toInt
  let im := (x.b.getA (a + 1)).toInt
  .ok (x.withB ((x.b.putAccRaw a (accSingle x.sat (rnd x.rm (re * c - im * s) 31))).putAccRaw (a + 1)
    (accSingle x.sat (rnd x.rm (re * s + im * c) 31))))

/-- ROT (R152). -/
def execOpRot (core : Nat) (pre : Fetch) (b0 : BitVec 8) (f1 f2 : BitVec 4) (s : State) :
    Host.Outcome State Fault Refusal :=
  s.instr core [.sat, .rnd, .cond] pre (lowBits 2 b0 && pairOk b0 && f2Zero f2) (0x90 :: bytesA b0 f1 f2) (ticks 4)
    (rotBody b0 f1)

/-- R153: √n / 2^40 rounded to an integer. -/
def rootOf (m : Rounding) (n : Nat) : Nat :=
  let q := isqrt 72 n / 2 ^ 40
  let half := ((2 * q + 1) * 2 ^ 40) ^ 2
  match m with
  | .rhu => if half ≤ 4 * n then q + 1 else q
  | .rhe => if half < 4 * n ∨ (half = 4 * n ∧ q % 2 = 1) then q + 1 else q
  | _ => q

/-- R153: the magnitude of a pair. -/
def magOf (m : Rounding) (re im : BitVec 72) : Word :=
  BitVec.ofNat 32 (rootOf m (re.toInt.natAbs ^ 2 + im.toInt.natAbs ^ 2))

/-- MAG (R153). -/
def execOpMag (core : Nat) (pre : Fetch) (b0 : BitVec 8) (f1 f2 : BitVec 4) (s : State) :
    Host.Outcome State Fault Refusal :=
  s.instr core [.rnd, .cond] pre (lowBits 2 b0 && pairOk b0 && f2Zero f2) (0x91 :: bytesA b0 f1 f2) (ticks 18) (fun x =>
    .ok (x.withB (x.b.setW f1.toNat (magOf x.rm (x.b.getA (accField b0)) (x.b.getA (accField b0 + 1))))))

/-- R154: one step of a sliding-window transform. -/
def dftBody (b0 : BitVec 8) (f1 f2 : BitVec 4) (ecc : Option ReadErr) : Body := fun x => do
  let y ← x.operandPair (pField b0) (qField b0) ecc
  let a := accField b0
  let d := sgn y.2.1 - sgn y.2.2
  let w := x.b.getW f1.toNat
  let re := accSingle x.sat ((x.b.getA a).toInt + d * cosOf x.rm w)
  let im := accSingle x.sat ((x.b.getA (a + 1)).toInt - d * sinOf x.rm w)
  let b := ((x.b.putAccRaw a re).putAccRaw (a + 1) im).setW f1.toNat (w + x.b.getW f2.toNat)
  return y.1.withB (b.stepPair (pField b0) (qField b0))

/-- DFT (R154). -/
def execOpDft (core : Nat) (pre : Fetch) (b0 : BitVec 8) (f1 f2 : BitVec 4) (ecc : Option ReadErr) (s : State) :
    Host.Outcome State Fault Refusal :=
  s.instr core [.sat, .rnd, .rep, .cond] pre (lowBits 6 b0 && pairOk b0) (0x92 :: bytesA b0 f1 f2) (ticks 6)
    (dftBody b0 f1 f2 ecc)

end Sys2Proof.Machine
end

