-- ==== Sys2Proof/Machine/Dispatch.lean ====
section
/-!
DEFINITION. The meaning of each command: one arm per constructor of Instr, each a direct call of its meaning.
-/
namespace Sys2Proof.Machine

/-- What the command does to everything but the queue of commands. -/
def exec (i : Instr) (s : State) : Host.Outcome State Fault Refusal :=
  match i with
  | .csrWrite r off v => Sys2Proof.Machine.execCsrWrite r off v s
  | .firstWordRead r off => Sys2Proof.Machine.execFirstWordRead r off s
  | .readClear r off => Sys2Proof.Machine.execReadClear r off s
  | .hostPartialAccess r write off => Sys2Proof.Machine.execHostPartialAccess r write off s
  | .hostUnmappedAccess r write off => Sys2Proof.Machine.execHostUnmappedAccess r write off s
  | .codeEccDoubleError dt core => Sys2Proof.Machine.execCodeEccDoubleError dt core s
  | .deviceReset r key => Sys2Proof.Machine.execDeviceReset r key s
  | .networkEngineRestart r key => Sys2Proof.Machine.execNetworkEngineRestart r key s
  | .scanCoreRestart r key core => Sys2Proof.Machine.execScanCoreRestart r key core s
  | .pathResolve r => Sys2Proof.Machine.execPathResolve r s
  | .pathResolutionDone dt remote => Sys2Proof.Machine.execPathResolutionDone dt remote s
  | .pathUnitTimeout dt remote => Sys2Proof.Machine.execPathUnitTimeout dt remote s
  | .keyPatternChange dt pattern => Sys2Proof.Machine.execKeyPatternChange dt pattern s
  | .firstScan dt => Sys2Proof.Machine.execFirstScan dt s
  | .periodicRelease task => Sys2Proof.Machine.execPeriodicRelease task s
  | .angleRelease task => Sys2Proof.Machine.execAngleRelease task s
  | .eventTaskRelease task => Sys2Proof.Machine.execEventTaskRelease task s
  | .minIntervalExpiry task => Sys2Proof.Machine.execMinIntervalExpiry task s
  | .heldReleaseDispatch task => Sys2Proof.Machine.execHeldReleaseDispatch task s
  | .catchupRelease task => Sys2Proof.Machine.execCatchupRelease task s
  | .dispatch core ecc => Sys2Proof.Machine.execDispatch core ecc s
  | .preemptDispatch core ecc => Sys2Proof.Machine.execPreemptDispatch core ecc s
  | .budgetOverrun core => Sys2Proof.Machine.execBudgetOverrun core s
  | .outputInstant task => Sys2Proof.Machine.execOutputInstant task s
  | .generationClose => Sys2Proof.Machine.execGenerationClose s
  | .taskAckAll r => Sys2Proof.Machine.execTaskAckAll r s
  | .taskMaxClear r task => Sys2Proof.Machine.execTaskMaxClear r task s
  | .meridian => Sys2Proof.Machine.execMeridian s
  | .angSrcWrite r v => Sys2Proof.Machine.execAngSrcWrite r v s
  | .angCompWrite r v => Sys2Proof.Machine.execAngCompWrite r v s
  | .referenceLoss dt outOfRange => Sys2Proof.Machine.execReferenceLoss dt outOfRange s
  | .referenceQualified dt phase x => Sys2Proof.Machine.execReferenceQualified dt phase x s
  | .holdoverExpiry => Sys2Proof.Machine.execHoldoverExpiry s
  | .angleJump raw => Sys2Proof.Machine.execAngleJump raw s
  | .stepFlagClear => Sys2Proof.Machine.execStepFlagClear s
  | .angleSampleSet raw => Sys2Proof.Machine.execAngleSampleSet raw s
  | .timeSampleSet raw => Sys2Proof.Machine.execTimeSampleSet raw s
  | .opNop core pre => Sys2Proof.Machine.execOpNop core pre s
  | .opHalt core pre => Sys2Proof.Machine.execOpHalt core pre s
  | .opYield core pre => Sys2Proof.Machine.execOpYield core pre s
  | .opChkin core pre => Sys2Proof.Machine.execOpChkin core pre s
  | .opEvt core pre imm => Sys2Proof.Machine.execOpEvt core pre imm s
  | .opLd core pre a ecc => Sys2Proof.Machine.execOpLd core pre a ecc s
  | .opLdn core pre a ecc => Sys2Proof.Machine.execOpLdn core pre a ecc s
  | .opAnd core pre a ecc => Sys2Proof.Machine.execOpAnd core pre a ecc s
  | .opAndn core pre a ecc => Sys2Proof.Machine.execOpAndn core pre a ecc s
  | .opOr core pre a ecc => Sys2Proof.Machine.execOpOr core pre a ecc s
  | .opOrn core pre a ecc => Sys2Proof.Machine.execOpOrn core pre a ecc s
  | .opXor core pre a ecc => Sys2Proof.Machine.execOpXor core pre a ecc s
  | .opOut core pre a ecc => Sys2Proof.Machine.execOpOut core pre a ecc s
  | .opSet core pre a ecc => Sys2Proof.Machine.execOpSet core pre a ecc s
  | .opRst core pre a ecc => Sys2Proof.Machine.execOpRst core pre a ecc s
  | .opAndb core pre => Sys2Proof.Machine.execOpAndb core pre s
  | .opOrb core pre => Sys2Proof.Machine.execOpOrb core pre s
  | .opXorb core pre => Sys2Proof.Machine.execOpXorb core pre s
  | .opNot core pre => Sys2Proof.Machine.execOpNot core pre s
  | .opDup core pre => Sys2Proof.Machine.execOpDup core pre s
  | .opPop core pre => Sys2Proof.Machine.execOpPop core pre s
  | .opRedge core pre t ecc => Sys2Proof.Machine.execOpRedge core pre t ecc s
  | .opFedge core pre t ecc => Sys2Proof.Machine.execOpFedge core pre t ecc s
  | .opTon core pre t ecc => Sys2Proof.Machine.execOpTon core pre t ecc s
  | .opTof core pre t ecc => Sys2Proof.Machine.execOpTof core pre t ecc s
  | .opTp core pre t ecc => Sys2Proof.Machine.execOpTp core pre t ecc s
  | .opCtu core pre t ecc => Sys2Proof.Machine.execOpCtu core pre t ecc s
  | .opCtd core pre t ecc => Sys2Proof.Machine.execOpCtd core pre t ecc s
  | .opCrst core pre t ecc => Sys2Proof.Machine.execOpCrst core pre t ecc s
  | .opMov core pre f1 f2 => Sys2Proof.Machine.execOpMov core pre f1 f2 s
  | .opMovi core pre f1 f2 imm => Sys2Proof.Machine.execOpMovi core pre f1 f2 imm s
  | .opMovx core pre f1 f2 => Sys2Proof.Machine.execOpMovx core pre f1 f2 s
  | .opMovw core pre f1 f2 => Sys2Proof.Machine.execOpMovw core pre f1 f2 s
  | .opLdw core pre m ecc => Sys2Proof.Machine.execOpLdw core pre m ecc s
  | .opLdh core pre m ecc => Sys2Proof.Machine.execOpLdh core pre m ecc s
  | .opLdhs core pre m ecc => Sys2Proof.Machine.execOpLdhs core pre m ecc s
  | .opLdb core pre m ecc => Sys2Proof.Machine.execOpLdb core pre m ecc s
  | .opLdx core pre m ecc => Sys2Proof.Machine.execOpLdx core pre m ecc s
  | .opStw core pre m => Sys2Proof.Machine.execOpStw core pre m s
  | .opSth core pre m => Sys2Proof.Machine.execOpSth core pre m s
  | .opStb core pre m => Sys2Proof.Machine.execOpStb core pre m s
  | .opLea core pre m => Sys2Proof.Machine.execOpLea core pre m s
  | .opAdd core pre f1 f2 => Sys2Proof.Machine.execOpAdd core pre f1 f2 s
  | .opAdc core pre f1 f2 => Sys2Proof.Machine.execOpAdc core pre f1 f2 s
  | .opSub core pre f1 f2 => Sys2Proof.Machine.execOpSub core pre f1 f2 s
  | .opSbc core pre f1 f2 => Sys2Proof.Machine.execOpSbc core pre f1 f2 s
  | .opNeg core pre f1 f2 => Sys2Proof.Machine.execOpNeg core pre f1 f2 s
  | .opAbs core pre f1 f2 => Sys2Proof.Machine.execOpAbs core pre f1 f2 s
  | .opMul core pre f1 f2 => Sys2Proof.Machine.execOpMul core pre f1 f2 s
  | .opMulhs core pre f1 f2 => Sys2Proof.Machine.execOpMulhs core pre f1 f2 s
  | .opMin core pre f1 f2 => Sys2Proof.Machine.execOpMin core pre f1 f2 s
  | .opMax core pre f1 f2 => Sys2Proof.Machine.execOpMax core pre f1 f2 s
  | .opAddi core pre f1 f2 imm => Sys2Proof.Machine.execOpAddi core pre f1 f2 imm s
  | .opAndw core pre f1 f2 => Sys2Proof.Machine.execOpAndw core pre f1 f2 s
  | .opOrw core pre f1 f2 => Sys2Proof.Machine.execOpOrw core pre f1 f2 s
  | .opXorw core pre f1 f2 => Sys2Proof.Machine.execOpXorw core pre f1 f2 s
  | .opNotw core pre f1 f2 => Sys2Proof.Machine.execOpNotw core pre f1 f2 s
  | .opShl core pre f1 f2 imm => Sys2Proof.Machine.execOpShl core pre f1 f2 imm s
  | .opSar core pre f1 f2 imm => Sys2Proof.Machine.execOpSar core pre f1 f2 imm s
  | .opShr core pre f1 f2 imm => Sys2Proof.Machine.execOpShr core pre f1 f2 imm s
  | .opRor core pre f1 f2 imm => Sys2Proof.Machine.execOpRor core pre f1 f2 imm s
  | .opClz core pre f1 f2 => Sys2Proof.Machine.execOpClz core pre f1 f2 s
  | .opCmp core pre f1 f2 => Sys2Proof.Machine.execOpCmp core pre f1 f2 s
  | .opCmpeq core pre f1 f2 => Sys2Proof.Machine.execOpCmpeq core pre f1 f2 s
  | .opCmpne core pre f1 f2 => Sys2Proof.Machine.execOpCmpne core pre f1 f2 s
  | .opCmplt core pre f1 f2 => Sys2Proof.Machine.execOpCmplt core pre f1 f2 s
  | .opCmple core pre f1 f2 => Sys2Proof.Machine.execOpCmple core pre f1 f2 s
  | .opCmpgt core pre f1 f2 => Sys2Proof.Machine.execOpCmpgt core pre f1 f2 s
  | .opCmpge core pre f1 f2 => Sys2Proof.Machine.execOpCmpge core pre f1 f2 s
  | .opCmpltu core pre f1 f2 => Sys2Proof.Machine.execOpCmpltu core pre f1 f2 s
  | .opCmpgeu core pre f1 f2 => Sys2Proof.Machine.execOpCmpgeu core pre f1 f2 s
  | .opJmp core pre disp => Sys2Proof.Machine.execOpJmp core pre disp s
  | .opBcc core pre cc disp => Sys2Proof.Machine.execOpBcc core pre cc disp s
  | .opJbt core pre disp => Sys2Proof.Machine.execOpJbt core pre disp s
  | .opJbf core pre disp => Sys2Proof.Machine.execOpJbf core pre disp s
  | .opCall core pre disp => Sys2Proof.Machine.execOpCall core pre disp s
  | .opRet core pre => Sys2Proof.Machine.execOpRet core pre s
  | .opLoop core pre x disp => Sys2Proof.Machine.execOpLoop core pre x disp s
  | .opJmpa core pre addr => Sys2Proof.Machine.execOpJmpa core pre addr s
  | .opCalla core pre addr => Sys2Proof.Machine.execOpCalla core pre addr s
  | .opMpy core pre b0 f1 f2 => Sys2Proof.Machine.execOpMpy core pre b0 f1 f2 s
  | .opMac core pre b0 f1 f2 => Sys2Proof.Machine.execOpMac core pre b0 f1 f2 s
  | .opMsu core pre b0 f1 f2 => Sys2Proof.Machine.execOpMsu core pre b0 f1 f2 s
  | .opMacm core pre b0 f1 f2 ecc => Sys2Proof.Machine.execOpMacm core pre b0 f1 f2 ecc s
  | .opMsum core pre b0 f1 f2 ecc => Sys2Proof.Machine.execOpMsum core pre b0 f1 f2 ecc s
  | .opClra core pre b0 f1 f2 => Sys2Proof.Machine.execOpClra core pre b0 f1 f2 s
  | .opLda core pre m ecc => Sys2Proof.Machine.execOpLda core pre m ecc s
  | .opSta core pre m => Sys2Proof.Machine.execOpSta core pre m s
  | .opMova core pre b0 f1 f2 => Sys2Proof.Machine.execOpMova core pre b0 f1 f2 s
  | .opAdda core pre b0 f1 f2 => Sys2Proof.Machine.execOpAdda core pre b0 f1 f2 s
  | .opSuba core pre b0 f1 f2 => Sys2Proof.Machine.execOpSuba core pre b0 f1 f2 s
  | .opSha core pre b0 f1 f2 => Sys2Proof.Machine.execOpSha core pre b0 f1 f2 s
  | .opRot core pre b0 f1 f2 => Sys2Proof.Machine.execOpRot core pre b0 f1 f2 s
  | .opMag core pre b0 f1 f2 => Sys2Proof.Machine.execOpMag core pre b0 f1 f2 s
  | .opDft core pre b0 f1 f2 ecc => Sys2Proof.Machine.execOpDft core pre b0 f1 f2 ecc s
  | .opCsrr core pre r off => Sys2Proof.Machine.execOpCsrr core pre r off s
  | .opCsrw core pre r off => Sys2Proof.Machine.execOpCsrw core pre r off s
  | .opQput core pre q r => Sys2Proof.Machine.execOpQput core pre q r s
  | .opQcount core pre q r => Sys2Proof.Machine.execOpQcount core pre q r s
  | .opDivs core pre f1 f2 => Sys2Proof.Machine.execOpDivs core pre f1 f2 s
  | .opDivu core pre f1 f2 => Sys2Proof.Machine.execOpDivu core pre f1 f2 s
  | .opFlrd core pre f1 f2 => Sys2Proof.Machine.execOpFlrd core pre f1 f2 s
  | .opFlwr core pre f1 f2 => Sys2Proof.Machine.execOpFlwr core pre f1 f2 s
  | .opXchgm core pre m ecc => Sys2Proof.Machine.execOpXchgm core pre m ecc s
  | .opAddm core pre m ecc => Sys2Proof.Machine.execOpAddm core pre m ecc s
  | .sweep ecc rung => Sys2Proof.Machine.execSweep ecc rung s
  | .frpTableWrite r rung word v => Sys2Proof.Machine.execFrpTableWrite r rung word v s
  | .frpActivate r => Sys2Proof.Machine.execFrpActivate r s
  | .frpCheckDone x => Sys2Proof.Machine.execFrpCheckDone x s
  | .frpSwap => Sys2Proof.Machine.execFrpSwap s
  | .frpSnapshot r => Sys2Proof.Machine.execFrpSnapshot r s
  | .frpSnapshotDone => Sys2Proof.Machine.execFrpSnapshotDone s
  | .xchStage r key => Sys2Proof.Machine.execXchStage r key s
  | .xchStageDone => Sys2Proof.Machine.execXchStageDone s
  | .xchArm r key => Sys2Proof.Machine.execXchArm r key s
  | .xchCancel r key => Sys2Proof.Machine.execXchCancel r key s
  | .xchConfirm r key => Sys2Proof.Machine.execXchConfirm r key s
  | .xchRevert r key => Sys2Proof.Machine.execXchRevert r key s
  | .xchBoundary => Sys2Proof.Machine.execXchBoundary s
  | .xchBoundaryTimeout => Sys2Proof.Machine.execXchBoundaryTimeout s
  | .xchWindowWarn => Sys2Proof.Machine.execXchWindowWarn s
  | .xchWindowExpiry => Sys2Proof.Machine.execXchWindowExpiry s
  | .exchMessage dt head m => Sys2Proof.Machine.execExchMessage dt head m s
  | .heartbeatSend => Sys2Proof.Machine.execHeartbeatSend s
  | .heartbeat dt pathB x => Sys2Proof.Machine.execHeartbeat dt pathB x s
  | .pathLoss pathB => Sys2Proof.Machine.execPathLoss pathB s
  | .linkTimestampFrame dt port ofs lead => Sys2Proof.Machine.execLinkTimestampFrame dt port ofs lead s
  | .refreshSlot => Sys2Proof.Machine.execRefreshSlot s
  | .leaseExpiry => Sys2Proof.Machine.execLeaseExpiry s
  | .refreshDecoded dt transfer => Sys2Proof.Machine.execRefreshDecoded dt transfer s
  | .presencePulse => Sys2Proof.Machine.execPresencePulse s
  | .presenceDecoded dt own => Sys2Proof.Machine.execPresenceDecoded dt own s
  | .lineFault dt code => Sys2Proof.Machine.execLineFault dt code s
  | .leaseClaim => Sys2Proof.Machine.execLeaseClaim s
  | .claimReadback ok => Sys2Proof.Machine.execClaimReadback ok s
  | .joiningEnd => Sys2Proof.Machine.execJoiningEnd s
  | .pubDiagFail dt => Sys2Proof.Machine.execPubDiagFail dt s
  | .pubRelinquish dt head stNums => Sys2Proof.Machine.execPubRelinquish dt head stNums s
  | .pubTaken dt head => Sys2Proof.Machine.execPubTaken dt head s
  | .pubRefuse dt head => Sys2Proof.Machine.execPubRefuse dt head s
  | .rolePatternDecoded dt pattern => Sys2Proof.Machine.execRolePatternDecoded dt pattern s
  | .relinquishWaveEnd => Sys2Proof.Machine.execRelinquishWaveEnd s
  | .pubOrphanTake => Sys2Proof.Machine.execPubOrphanTake s
  | .mirrorReceived dt head ok m => Sys2Proof.Machine.execMirrorReceived dt head ok m s
  | .mirrorWaitTimeout core => Sys2Proof.Machine.execMirrorWaitTimeout core s
  | .handoverCmd cmd => Sys2Proof.Machine.execHandoverCmd cmd s
  | .returnReq dt head => Sys2Proof.Machine.execReturnReq dt head s
  | .handover dt head h stNums => Sys2Proof.Machine.execHandover dt head h stNums s
  | .handoverAck dt head => Sys2Proof.Machine.execHandoverAck dt head s
  | .handoverAckTimeout => Sys2Proof.Machine.execHandoverAckTimeout s
  | .handoverInstant => Sys2Proof.Machine.execHandoverInstant s
  | .handoverTake => Sys2Proof.Machine.execHandoverTake s
  | .handoverFailCheck ok => Sys2Proof.Machine.execHandoverFailCheck ok s
  | .holdoffExpiry => Sys2Proof.Machine.execHoldoffExpiry s
  | .hsbRelinquishPub r key => Sys2Proof.Machine.execHsbRelinquishPub r key s
  | .hsbSetRetinh r key => Sys2Proof.Machine.execHsbSetRetinh r key s
  | .hsbClearRetinh r key => Sys2Proof.Machine.execHsbClearRetinh r key s
  | .pairload dt head ver core space off bytes last => Sys2Proof.Machine.execPairload dt head ver core space off bytes last s
  | .parley dt head => Sys2Proof.Machine.execParley dt head s
  | .frameReceive dt p f => Sys2Proof.Machine.execFrameReceive dt p f s
  | .ptpSync dt domain p sec ns corr servo freq => Sys2Proof.Machine.execPtpSync dt domain p sec ns corr servo freq s
  | .ptpAnnounce dt domain p a => Sys2Proof.Machine.execPtpAnnounce dt domain p a s
  | .pdelayReq dt p rtt turn => Sys2Proof.Machine.execPdelayReq dt p rtt turn s
  | .syncTimeout dom announce => Sys2Proof.Machine.execSyncTimeout dom announce s
  | .sourceSelect => Sys2Proof.Machine.execSourceSelect s
  | .timeQualityChange => Sys2Proof.Machine.execTimeQualityChange s
  | .epochCarry => Sys2Proof.Machine.execEpochCarry s
  | .ptpSetTime r v => Sys2Proof.Machine.execPtpSetTime r v s
  | .irigFrame dt x => Sys2Proof.Machine.execIrigFrame dt x s
  | .ppsInEdge dt => Sys2Proof.Machine.execPpsInEdge dt s
  | .ppsOutPulse => Sys2Proof.Machine.execPpsOutPulse s
  | .mdioFrame r v => Sys2Proof.Machine.execMdioFrame r v s
  | .mdioDone dt resp => Sys2Proof.Machine.execMdioDone dt resp s
  | .phyPoll p up => Sys2Proof.Machine.execPhyPoll p up s
  | .phyInt dt low => Sys2Proof.Machine.execPhyInt dt low s
  | .phyResetControl r v => Sys2Proof.Machine.execPhyResetControl r v s
  | .linkChange dt p up => Sys2Proof.Machine.execLinkChange dt p up s
  | .subAccess r v => Sys2Proof.Machine.execSubAccess r v s
  | .pubAccess r v => Sys2Proof.Machine.execPubAccess r v s
  | .gooseReceived dt cd f => Sys2Proof.Machine.execGooseReceived dt cd f s
  | .svReceived dt cd f => Sys2Proof.Machine.execSvReceived dt cd f s
  | .gooseStale idx => Sys2Proof.Machine.execGooseStale idx s
  | .svStale idx => Sys2Proof.Machine.execSvStale idx s
  | .gooseRetransmit e => Sys2Proof.Machine.execGooseRetransmit e s
  | .svPublish e => Sys2Proof.Machine.execSvPublish e s
  | .launch x => Sys2Proof.Machine.execLaunch x s
  | .canFrameReceive dt n sof f => Sys2Proof.Machine.execCanFrameReceive dt n sof f s
  | .canTxRequest r n b v => Sys2Proof.Machine.execCanTxRequest r n b v s
  | .canTxAbort r n b v => Sys2Proof.Machine.execCanTxAbort r n b v s
  | .canTxDone dt n sof => Sys2Proof.Machine.execCanTxDone dt n sof s
  | .canRxfPop r n => Sys2Proof.Machine.execCanRxfPop r n s
  | .canErrorStateChange dt n txErr rxErr code dataPhase => Sys2Proof.Machine.execCanErrorStateChange dt n txErr rxErr code dataPhase s
  | .canBusoffRecovery dt n => Sys2Proof.Machine.execCanBusoffRecovery dt n s
  | .canModeWrite r n v => Sys2Proof.Machine.execCanModeWrite r n v s
  | .canModeEffect dt n => Sys2Proof.Machine.execCanModeEffect dt n s
  | .canWake dt n sof f => Sys2Proof.Machine.execCanWake dt n sof f s
  | .canRefSend n => Sys2Proof.Machine.execCanRefSend n s
  | .canRefReceived dt n sof cycle sec ns => Sys2Proof.Machine.execCanRefReceived dt n sof cycle sec ns s
  | .canRefTimeout n => Sys2Proof.Machine.execCanRefTimeout n s
  | .frelupoSync n => Sys2Proof.Machine.execFrelupoSync n s
  | .frelupoInput dt n idx ago seq words => Sys2Proof.Machine.execFrelupoInput dt n idx ago seq words s
  | .frelupoHello dt n idx range safe nin nout => Sys2Proof.Machine.execFrelupoHello dt n idx range safe nin nout s
  | .frelupoStatus dt n idx safe muted rsyncOk => Sys2Proof.Machine.execFrelupoStatus dt n idx safe muted rsyncOk s
  | .frelupoCommand r n v => Sys2Proof.Machine.execFrelupoCommand r n v s
  | .biEdge dt n level => Sys2Proof.Machine.execBiEdge dt n level s
  | .biDebounceEnd n => Sys2Proof.Machine.execBiDebounceEnd n s
  | .biInvWrite r n v => Sys2Proof.Machine.execBiInvWrite r n v s
  | .readbackMismatch dt n level => Sys2Proof.Machine.execReadbackMismatch dt n level s
  | .readbackMismatchEnd dt n level => Sys2Proof.Machine.execReadbackMismatchEnd dt n level s
  | .rbenWrite r v => Sys2Proof.Machine.execRbenWrite r v s
  | .thresholdBitChange dt main c raw => Sys2Proof.Machine.execThresholdBitChange dt main c raw s
  | .thresholdWrite r t v => Sys2Proof.Machine.execThresholdWrite r t v s
  | .thresholdApply t => Sys2Proof.Machine.execThresholdApply t s
  | .adcFaultChange dt c overload stuck refOk => Sys2Proof.Machine.execAdcFaultChange dt c overload stuck refOk s
  | .adcOverrange dt c => Sys2Proof.Machine.execAdcOverrange dt c s
  | .adcSelftestEval dt refOk => Sys2Proof.Machine.execAdcSelftestEval dt refOk s
  | .queueConfig r q v => Sys2Proof.Machine.execQueueConfig r q v s
  | .queueOffer r q v => Sys2Proof.Machine.execQueueOffer r q v s
  | .queuePop r q => Sys2Proof.Machine.execQueuePop r q s
  | .mailboxRing r mask => Sys2Proof.Machine.execMailboxRing r mask s
  | .hello h range => Sys2Proof.Machine.execHello h range s
  | .ident h => Sys2Proof.Machine.execIdent h s
  | .unitread h => Sys2Proof.Machine.execUnitread h s
  | .hostLoad h core data off bytes file => Sys2Proof.Machine.execHostLoad h core data off bytes file s
  | .desc h bytes => Sys2Proof.Machine.execDesc h bytes s
  | .hostLaunch h port queue ns sec len tsreq frame => Sys2Proof.Machine.execHostLaunch h port queue ns sec len tsreq frame s
  | .journal h first count => Sys2Proof.Machine.execJournal h first count s
  | .recordRead h rid => Sys2Proof.Machine.execRecordRead h rid s
  | .recordWrite h rid fmt len payload => Sys2Proof.Machine.execRecordWrite h rid fmt len payload s
  | .pcieReset dt down => Sys2Proof.Machine.execPcieReset dt down s
  | .pcieLinkUp dt speed lanes => Sys2Proof.Machine.execPcieLinkUp dt speed lanes s
  | .intRaise r src key => Sys2Proof.Machine.execIntRaise r src key s
  | .intPendClear r j v => Sys2Proof.Machine.execIntPendClear r j v s
  | .intEnWrite r j v => Sys2Proof.Machine.execIntEnWrite r j v s
  | .msixUnmask vector => Sys2Proof.Machine.execMsixUnmask vector s
  | .csrreadFrame dt ch off count => Sys2Proof.Machine.execCsrreadFrame dt ch off count s
  | .csrwriteFrame dt ch off v => Sys2Proof.Machine.execCsrwriteFrame dt ch off v s
  | .frameReassemblyTimeout dt => Sys2Proof.Machine.execFrameReassemblyTimeout dt s
  | .rhizomeTrain dt port range delay => Sys2Proof.Machine.execRhizomeTrain dt port range delay s
  | .rhizomeLinkLoss dt port => Sys2Proof.Machine.execRhizomeLinkLoss dt port s
  | .standIdent dt port hops ident => Sys2Proof.Machine.execStandIdent dt port hops ident s
  | .standBoundary => Sys2Proof.Machine.execStandBoundary s
  | .standCopyReceived dt port hops x => Sys2Proof.Machine.execStandCopyReceived dt port hops x s
  | .standStatusFrame dt port hops status => Sys2Proof.Machine.execStandStatusFrame dt port hops status s
  | .nvsHostWrite off bytes => Sys2Proof.Machine.execNvsHostWrite off bytes s
  | .nvsRecallDone dt => Sys2Proof.Machine.execNvsRecallDone dt s
  | .recordSlotCheck r => Sys2Proof.Machine.execRecordSlotCheck r s
  | .rtcFreezeRead r k => Sys2Proof.Machine.execRtcFreezeRead r k s
  | .rtcFreezeTimeout r => Sys2Proof.Machine.execRtcFreezeTimeout r s
  | .rtcHalt r => Sys2Proof.Machine.execRtcHalt r s
  | .rtcRun r => Sys2Proof.Machine.execRtcRun r s
  | .rtcTimeWrite r k v => Sys2Proof.Machine.execRtcTimeWrite r k v s
  | .rtcAlarmArm r => Sys2Proof.Machine.execRtcAlarmArm r s
  | .rtcAlarm => Sys2Proof.Machine.execRtcAlarm s
  | .rtcWake => Sys2Proof.Machine.execRtcWake s
  | .trimWindow => Sys2Proof.Machine.execTrimWindow s
  | .rtcMeasureStart r => Sys2Proof.Machine.execRtcMeasureStart r s
  | .rtcMeasureWindowOpen => Sys2Proof.Machine.execRtcMeasureWindowOpen s
  | .rtcMeasureEnd n => Sys2Proof.Machine.execRtcMeasureEnd n s
  | .rtcMeasureStop r => Sys2Proof.Machine.execRtcMeasureStop r s
  | .rtcTrimApply r => Sys2Proof.Machine.execRtcTrimApply r s
  | .vbkCollapse dt => Sys2Proof.Machine.execVbkCollapse dt s
  | .coldStart dt fail us => Sys2Proof.Machine.execColdStart dt fail us s
  | .railSequenceRetry fail us => Sys2Proof.Machine.execRailSequenceRetry fail us s
  | .railFault dt r out => Sys2Proof.Machine.execRailFault dt r out s
  | .tempLimit dt => Sys2Proof.Machine.execTempLimit dt s
  | .vinFail dt => Sys2Proof.Machine.execVinFail dt s
  | .holdupWarn vin => Sys2Proof.Machine.execHoldupWarn vin s
  | .vinRestore dt => Sys2Proof.Machine.execVinRestore dt s
  | .deepSleepEntry vin => Sys2Proof.Machine.execDeepSleepEntry vin s
  | .warmResume dt us est => Sys2Proof.Machine.execWarmResume dt us est s
  | .retentionEnd dt => Sys2Proof.Machine.execRetentionEnd dt s
  | .resetN dt => Sys2Proof.Machine.execResetN dt s
  | .forceSafeN dt also => Sys2Proof.Machine.execForceSafeN dt also s
  | .mainClockLoss dt also => Sys2Proof.Machine.execMainClockLoss dt also s
  | .vcoreOutOfRange dt also => Sys2Proof.Machine.execVcoreOutOfRange dt also s
  | .deviceResetRelease lock straps => Sys2Proof.Machine.execDeviceResetRelease lock straps s
  | .boot dt found converted => Sys2Proof.Machine.execBoot dt found converted s
  | .faultClear r key => Sys2Proof.Machine.execFaultClear r key s
  | .serviceCoreHalt dt => Sys2Proof.Machine.execServiceCoreHalt dt s
  | .wdtConfig r v => Sys2Proof.Machine.execWdtConfig r v s
  | .wdtServe r key => Sys2Proof.Machine.execWdtServe r key s
  | .wdtExpiry => Sys2Proof.Machine.execWdtExpiry s
  | .manifest h comp index part => Sys2Proof.Machine.execManifest h comp index part s
  | .updData h comp index block => Sys2Proof.Machine.execUpdData h comp index block s
  | .updateBlockWritten dt ok => Sys2Proof.Machine.execUpdateBlockWritten dt ok s
  | .updStatus h comp => Sys2Proof.Machine.execUpdStatus h comp s
  | .updAbort h comp => Sys2Proof.Machine.execUpdAbort h comp s
  | .activate h comp reread => Sys2Proof.Machine.execActivate h comp reread s
  | .updConfirm h comp => Sys2Proof.Machine.execUpdConfirm h comp s
  | .updRevert h comp => Sys2Proof.Machine.execUpdRevert h comp s
  | .updateWindowWarn comp => Sys2Proof.Machine.execUpdateWindowWarn comp s
  | .updateWindowExpiry comp => Sys2Proof.Machine.execUpdateWindowExpiry comp s
  | .updateWindowSave comp => Sys2Proof.Machine.execUpdateWindowSave comp s
  | .challenge h => Sys2Proof.Machine.execChallenge h s
  | .challengeExpiry => Sys2Proof.Machine.execChallengeExpiry s
  | .unlockSig h slot pk sig => Sys2Proof.Machine.execUnlockSig h slot pk sig s
  | .unlockPwd h password => Sys2Proof.Machine.execUnlockPwd h password s
  | .relock h => Sys2Proof.Machine.execRelock h s
  | .unlockWindowExpiry => Sys2Proof.Machine.execUnlockWindowExpiry s
  | .setpwd h password => Sys2Proof.Machine.execSetpwd h password s
  | .keyslot h slot hash => Sys2Proof.Machine.execKeyslot h slot hash s
  | .revoke h slot => Sys2Proof.Machine.execRevoke h slot s
  | .fieldlock h => Sys2Proof.Machine.execFieldlock h s
  | .attest h nonce => Sys2Proof.Machine.execAttest h nonce s
  | .attestReady => Sys2Proof.Machine.execAttestReady s
  | .attestRead h => Sys2Proof.Machine.execAttestRead h s
  | .sporeHello => Sys2Proof.Machine.execSporeHello s
  | .sporeBaud dt ch rate => Sys2Proof.Machine.execSporeBaud dt ch rate s
  | .baudFallback => Sys2Proof.Machine.execBaudFallback s
  | .sporeManifest dt ch comp index part => Sys2Proof.Machine.execSporeManifest dt ch comp index part s
  | .sporeData dt ch comp index block => Sys2Proof.Machine.execSporeData dt ch comp index block s
  | .sporeCommit dt ch comp => Sys2Proof.Machine.execSporeCommit dt ch comp s
  | .sporeStatus dt ch comp => Sys2Proof.Machine.execSporeStatus dt ch comp s
  | .phaseComparison dt phase freq rms => Sys2Proof.Machine.execPhaseComparison dt phase freq rms s
  | .irigLoss dt irig pps => Sys2Proof.Machine.execIrigLoss dt irig pps s
  | .ptpMessageInterval => Sys2Proof.Machine.execPtpMessageInterval s
  | .supervisionFrame => Sys2Proof.Machine.execSupervisionFrame s
  | .entryForgetTime => Sys2Proof.Machine.execEntryForgetTime s
  | .nvsHostRead off ecc => Sys2Proof.Machine.execNvsHostRead off ecc s
  | .calendarRollover => Sys2Proof.Machine.execCalendarRollover s
  | .resetPinRelease dt fsafe => Sys2Proof.Machine.execResetPinRelease dt fsafe s
  | .telemetrySample vin volts curs temps => Sys2Proof.Machine.execTelemetrySample vin volts curs temps s

end Sys2Proof.Machine
end

