-- ==== Sys2Proof/Safety.lean ====
section
/-!
DEFINITION. What counts as a safe run, and the terms in which the statements speak of a step: every step answers a next
state; the memories stay in their canonical form, so that equal contents are equal data; how a scan-core instruction
starts and how it retires (R92 to R106); and what a device has kept.
-/
namespace Sys2Proof.Machine

/-- The canonical form of every byte memory of the state. -/
def State.memWf (s : State) : Bool :=
  let m := s.dev.mem
  Memory.wf m.code && Memory.wf m.data && Memory.wf m.shadow && Memory.wf m.stand && Memory.wf m.nvs

/-- A step is safe: it answers a next state. -/
def Safe (s : State) : Prop := ∃ t, step s = .next t

/-- R334: INT_FIRST.VALID is set in a device that is awake only while its HEALTH is above OK. -/
def State.firstOk (s : State) : Prop :=
  s.dev.awake = true → s.dev.health = 0 → s.dev.flag F.INT_FIRST_VALID = false

/-! ## What a device has kept -/

/-- Device e holds what device d holds, but for the cores and the memories, for the registers that regs names, and for
what follows by itself from earlier commands: the pads with their pipeline and readback comparison (R167, R298, R301),
the CHANGE counts of the units (R23), and INT_FIRST (R334). -/
structure Aside (d e : Dev) (regs : List Nat) : Prop where
  phase : e.phase = d.phase
  latch : e.latch = d.latch
  tasks : e.tasks = d.tasks
  modeChange : e.modeChange = d.modeChange
  keyPin : e.keyPin = d.keyPin
  fullLoad : e.fullLoad = d.fullLoad
  ang : e.ang = d.ang
  time : e.time = d.time
  net : e.net = d.net
  can : e.can = d.can
  queues : e.queues = d.queues
  msix : e.msix = d.msix
  plane : e.plane = d.plane
  gooseBits : e.gooseBits = d.gooseBits
  path : e.path = d.path
  nvs : e.nvs = d.nvs
  xch : e.xch = d.xch
  hsb : e.hsb = d.hsb
  stand : e.stand = d.stand
  rtc : e.rtc = d.rtc
  power : e.power = d.power
  sec : e.sec = d.sec
  flash : e.flash = d.flash
  tap : e.tap = d.tap
  host : e.host = d.host
  formats : e.formats = d.formats
  readData : e.readData = d.readData
  freeNo : e.freeNo = d.freeNo
  regs : ∀ off, off ∉ regs ++ [Reg.INT_FIRST, Reg.BIO_BO0, Reg.BIO_BO1] → e.rd off = d.rd off

/-! ## Scan-core instructions -/

/-- The device as an instruction of core c finds it: the NVS writes that are complete at the core's time are done. -/
def State.found (s : State) (c : Nat) : Dev := s.dev.upTo (s.dev.core c).time

/-- The bank of run r on core c. -/
def State.bankOf (s : State) (c : Nat) (r : Run) : Bank := (s.found c).bank c r.bank

/-- R92: the length of an instruction of n bytes with its prefixes. -/
def lengthWith (pre : Fetch) (n : Nat) : Nat := (pre.prefixes.flatMap prefixBytes).length + n

/-- Core c is about to execute an instruction of run r: the device is awake; the run is in progress and executes (R54); it
has not used up its budget (R57); no READY task preempts it (R55); no preemption has broken the instruction off (R96). -/
structure Ready (s : State) (c : Nat) (r : Run) : Prop where
  awake : s.dev.awake = true
  runs : (s.found c).execRun c = some r
  budget : (s.found c).overrunDue r = false
  alone : (s.found c).preempting c r = none
  whole : (s.bankOf c r).repLeft = 0

/-- The instruction that run r is about to execute has n bytes and prefixes pre: it lies in local code (R103), its
prefixes are among those it accepts, REP not among them (R94, R96), and no error was corrected in its fetch (of one that
was, see the statement InstructionFaults). -/
structure Reaches (s : State) (c : Nat) (r : Run) (accept : List PrefixKind) (pre : Fetch) (n : Nat) : Prop
    extends Ready s c r where
  inCode : (s.bankOf c r).pc.toNat + lengthWith pre n ≤ 0x400000
  accepted : prefixesOk accept pre = true
  once : (modsOf pre).rep = none
  clean : pre.corrected = 0

/-- The instruction takes effect: the condition of COND, if there is one, is true (R97). -/
structure Starts (s : State) (c : Nat) (r : Run) (accept : List PrefixKind) (pre : Fetch) (n : Nat) : Prop
    extends Reaches s c r accept pre n where
  cond : condFalse (modsOf pre) (s.bankOf c r) = .ok false

/-- The address of the byte after the instruction. -/
def State.after (s : State) (c : Nat) (r : Run) (pre : Fetch) (n : Nat) : Word :=
  (s.bankOf c r).pc + BitVec.ofNat 32 (lengthWith pre n)

/-- R95: the instruction of run r saturates: SAT is given, or FL.SD is set. -/
def State.saturates (s : State) (c : Nat) (r : Run) (pre : Fetch) : Bool :=
  (modsOf pre).sat || (s.bankOf c r).flag flSd

/-- R95: the rounding mode of the instruction: that of RND, or else FL.RM. -/
def State.rounding (s : State) (c : Nat) (r : Run) (pre : Fetch) : Rounding :=
  (modsOf pre).rnd.getD (s.bankOf c r).rm

/-- The core as the instruction finds it. -/
def State.cpu0 (s : State) (c : Nat) (r : Run) (pre : Fetch) (n : Nat) : Cpu :=
  { dev := s.found c, c := c, run := r, b := s.bankOf c r, m := modsOf pre, next := s.after c r pre n }

/-- The core as the instruction takes effect: its ticks are charged (R106). -/
def State.cpu (s : State) (c : Nat) (r : Run) (pre : Fetch) (n ticks : Nat) : Cpu :=
  { dev := (s.found c).charge c r.task ticks, c := c, run := r, b := s.bankOf c r, m := modsOf pre,
    next := s.after c r pre n }

/-- State t is what an instruction of run r on core c leaves behind state s when it has taken n ticks, has changed the
run's bank to b, and goes on at pc: the load shadow has counted (R104); the ticks are charged to the core and to the task
(R56, R106); every other bank and every other core is as it was, and so is everything of Aside. -/
structure Retires (s t : State) (c : Nat) (r : Run) (n : Nat) (b : Bank) (pc : Word) : Prop where
  bank : t.dev.bank c r.bank = { b.land with pc := pc, repLeft := 0, repSkip := false }
  banks : ∀ k, k ≠ r.bank → t.dev.bank c k = s.dev.bank c k
  cores : ∀ e, e ≠ c → t.dev.core e = s.dev.core e
  runs : (t.dev.core c).runs = (s.dev.core c).runs ∧ (t.dev.core c).waiting = (s.dev.core c).waiting
  time : (t.dev.core c).time = (s.dev.core c).time + n
  used : t.dev.rd (Reg.TSK_USED r.task) =
    BitVec.ofNat 32 (min 0xFFFFFFFF (((s.found c).rd (Reg.TSK_USED r.task)).toNat + n))
  mono : t.mono = max s.mono ((s.dev.core c).time + n)
  pending : t.pending = s.pending
  aside : Aside (s.found c) t.dev [Reg.TSK_USED r.task]

/-- Retires for an instruction that stores nothing: every memory is as it was. -/
structure RetiresInRegs (s t : State) (c : Nat) (r : Run) (n : Nat) (b : Bank) (pc : Word) : Prop where
  retires : Retires s t c r n b pc
  mem : t.dev.mem = (s.found c).mem

/-- Instruction i runs from state s: exec answers a next state, in which run r on core c has retired it after n ticks with
a bank that meets P, going on at pc, and no memory has changed. -/
def Gives (s : State) (i : Instr) (c : Nat) (r : Run) (n : Nat) (pc : Word) (P : Bank → Prop) : Prop :=
  ∃ t b, exec i s = .next t ∧ P b ∧ RetiresInRegs s t c r n b pc

/-- R55 to R57, R96: the instruction of n bytes that run r is about to execute carries REP with count k, each repetition for
ticks ticks, and nothing breaks it off: no READY task may preempt the run, and the budget covers all repetitions but the
last. -/
structure StartsRep (s : State) (c : Nat) (r : Run) (accept : List PrefixKind) (pre : Fetch) (n k ticks : Nat) : Prop
    extends Ready s c r where
  inCode : (s.bankOf c r).pc.toNat + lengthWith pre n ≤ 0x400000
  accepted : prefixesOk accept pre = true
  count : (modsOf pre).rep = some k
  cond : condFalse (modsOf pre) (s.bankOf c r) = .ok false
  clean : pre.corrected = 0
  quiet : ∀ p ∈ (s.found c).readyTasks c, (s.found c).above p.1 r = false
  covered : r.overrun = false → ((s.found c).rd (Reg.TSK_USED r.task)).toNat + (k - 1) * ticks <
    ((s.found c).rd (Reg.TSK_BUDGET r.task)).toNat

/-- R96: the bank in which repetition j of k begins, where repetition j − 1 ended with bank bs j. -/
def repBank (bs : Nat → Bank) (k j : Nat) : Bank :=
  if j = 0 then bs 0 else { (bs j).land with repLeft := k - j, repSkip := false }

/-- Gives for an instruction with REP and count k: each repetition, of ticks ticks, changes the bank in which it begins as P
says. -/
def GivesRep (s : State) (i : Instr) (c : Nat) (r : Run) (ticks k : Nat) (pc : Word) (P : Bank → Bank → Prop) : Prop :=
  ∃ t bs, exec i s = .next t ∧ bs 0 = s.bankOf c r ∧ (∀ j, j < k → P (repBank bs k j) (bs (j + 1))) ∧
    RetiresInRegs s t c r (k * ticks) (bs k) pc

/-- Gives for an instruction of n bytes without REP and with it: once, and in each repetition, it changes the bank as P
says. -/
def GivesAll (s : State) (i : Instr) (c : Nat) (r : Run) (accept : List PrefixKind) (pre : Fetch) (n ticks : Nat)
    (P : Bank → Bank → Prop) : Prop :=
  (Starts s c r accept pre n → Gives s i c r ticks (s.after c r pre n) (P (s.bankOf c r))) ∧
  (∀ k, StartsRep s c r accept pre n k ticks → GivesRep s i c r ticks k (s.after c r pre n) P)

/-- State t is what an instruction of run r on core c leaves behind state s when it has brought the device to d, its ticks
charged, has changed the run's bank to b, and goes on at pc; what follows a command by itself is as Aside says. -/
structure RetiresOn (s t : State) (c : Nat) (r : Run) (d : Dev) (b : Bank) (pc : Word) : Prop where
  bank : t.dev.bank c r.bank = { b.land with pc := pc, repLeft := 0, repSkip := false }
  banks : ∀ k, k ≠ r.bank → t.dev.bank c k = d.bank c k
  cores : ∀ e, e ≠ c → t.dev.core e = d.core e
  runs : (t.dev.core c).runs = (d.core c).runs ∧ (t.dev.core c).waiting = (d.core c).waiting
  time : (t.dev.core c).time = (d.core c).time
  mono : t.mono = max s.mono (d.core c).time
  pending : t.pending = s.pending
  mem : t.dev.mem = d.mem
  aside : Aside d t.dev []

/-! ## The instruction set as a table (R94, R99, R102) -/

/-- A scan-core instruction as R102 lists it: its core and prefixes, the prefixes that it accepts, whether its operand
fields are legal, its opcode and operand bytes, and its ticks. -/
structure Form where
  core : Nat
  pre : Fetch
  accept : List PrefixKind
  legal : Bool
  own : List Byte
  ticks : Cpu → Nat

/-- R106: the ticks of an access of form M; an offset outside its space counts 1. -/
def memTicks (x : Cpu) (m : MAddr) (store : Bool) : Nat := if x.inSpace m then regionTicks (x.ea m) store else 1

/-- R101: a space prefix of a bit instruction names an image shadow. -/
def imageBit (pre : Fetch) : Bool := (modsOf pre).space.all (fun k => decide (k ≤ 1))

/-- R98: XCHGM and ADDM carry LOCK, and no image space. -/
def lockOk (pre : Fetch) : Bool := (modsOf pre).lock && (modsOf pre).space.all (fun k => decide (2 ≤ k))

/-- R102: the form of a command that is a scan-core instruction; none for every other command. -/
def formOf : Instr → Option Form
  | .opNop c pre => some ⟨c, pre, [.rep, .cond], true, [0x00], fun _ => 1⟩
  | .opHalt c pre => some ⟨c, pre, [.cond], true, [0x01], fun _ => 1⟩
  | .opYield c pre => some ⟨c, pre, [.cond], true, [0x02], fun _ => 1⟩
  | .opChkin c pre => some ⟨c, pre, [.cond], true, [0x03], fun _ => 1⟩
  | .opEvt c pre imm => some ⟨c, pre, [.cond], decide (0xC0 ≤ imm.toNat), ([0x04] ++ [imm]), fun _ => 2⟩
  | .opLd c pre a _ => some ⟨c, pre, [.space, .cond], imageBit pre, ([0x10] ++ bytesB a), fun x => if x.m.space = none then 2 else 1⟩
  | .opLdn c pre a _ => some ⟨c, pre, [.space, .cond], imageBit pre, ([0x11] ++ bytesB a), fun x => if x.m.space = none then 2 else 1⟩
  | .opAnd c pre a _ => some ⟨c, pre, [.space, .cond], imageBit pre, ([0x12] ++ bytesB a), fun x => if x.m.space = none then 2 else 1⟩
  | .opAndn c pre a _ => some ⟨c, pre, [.space, .cond], imageBit pre, ([0x13] ++ bytesB a), fun x => if x.m.space = none then 2 else 1⟩
  | .opOr c pre a _ => some ⟨c, pre, [.space, .cond], imageBit pre, ([0x14] ++ bytesB a), fun x => if x.m.space = none then 2 else 1⟩
  | .opOrn c pre a _ => some ⟨c, pre, [.space, .cond], imageBit pre, ([0x15] ++ bytesB a), fun x => if x.m.space = none then 2 else 1⟩
  | .opXor c pre a _ => some ⟨c, pre, [.space, .cond], imageBit pre, ([0x16] ++ bytesB a), fun x => if x.m.space = none then 2 else 1⟩
  | .opOut c pre a _ => some ⟨c, pre, [.space, .cond], imageBit pre, ([0x17] ++ bytesB a), fun x => if x.m.space = none then 2 else 1⟩
  | .opSet c pre a _ => some ⟨c, pre, [.space, .cond], imageBit pre, ([0x18] ++ bytesB a), fun x => if x.m.space = none then 2 else 1⟩
  | .opRst c pre a _ => some ⟨c, pre, [.space, .cond], imageBit pre, ([0x19] ++ bytesB a), fun x => if x.m.space = none then 2 else 1⟩
  | .opAndb c pre => some ⟨c, pre, [.cond], true, [0x1A], fun _ => 1⟩
  | .opOrb c pre => some ⟨c, pre, [.cond], true, [0x1B], fun _ => 1⟩
  | .opXorb c pre => some ⟨c, pre, [.cond], true, [0x1C], fun _ => 1⟩
  | .opNot c pre => some ⟨c, pre, [.cond], true, [0x1D], fun _ => 1⟩
  | .opDup c pre => some ⟨c, pre, [.cond], true, [0x1E], fun _ => 1⟩
  | .opPop c pre => some ⟨c, pre, [.cond], true, [0x1F], fun _ => 1⟩
  | .opRedge c pre t _ => some ⟨c, pre, [.cond], true, ([0x20] ++ bytesJ t), fun _ => 3⟩
  | .opFedge c pre t _ => some ⟨c, pre, [.cond], true, ([0x21] ++ bytesJ t), fun _ => 3⟩
  | .opTon c pre t _ => some ⟨c, pre, [.cond], true, ([0x24] ++ bytesJ t), fun _ => 6⟩
  | .opTof c pre t _ => some ⟨c, pre, [.cond], true, ([0x25] ++ bytesJ t), fun _ => 6⟩
  | .opTp c pre t _ => some ⟨c, pre, [.cond], true, ([0x26] ++ bytesJ t), fun _ => 6⟩
  | .opCtu c pre t _ => some ⟨c, pre, [.cond], true, ([0x28] ++ bytesJ t), fun _ => 4⟩
  | .opCtd c pre t _ => some ⟨c, pre, [.cond], true, ([0x29] ++ bytesJ t), fun _ => 4⟩
  | .opCrst c pre t _ => some ⟨c, pre, [.cond], true, ([0x2A] ++ bytesJ t), fun _ => 4⟩
  | .opMov c pre f1 f2 => some ⟨c, pre, [.cond], true, ([0x30] ++ bytesR f1 f2), fun _ => 1⟩
  | .opMovi c pre f1 f2 imm => some ⟨c, pre, [.cond], decide (f2 = 0), ([0x31] ++ bytesRI f1 f2 imm), fun _ => 1⟩
  | .opMovx c pre f1 f2 => some ⟨c, pre, [.cond], decide (f1.toNat ≤ 3), ([0x32] ++ bytesR f1 f2), fun _ => 1⟩
  | .opMovw c pre f1 f2 => some ⟨c, pre, [.cond], decide (f2.toNat ≤ 3), ([0x33] ++ bytesR f1 f2), fun _ => 1⟩
  | .opLdw c pre m _ => some ⟨c, pre, [.space, .rep, .cond], true, ([0x34] ++ bytesM m), fun x => memTicks x m false⟩
  | .opLdh c pre m _ => some ⟨c, pre, [.space, .rep, .cond], true, ([0x35] ++ bytesM m), fun x => memTicks x m false⟩
  | .opLdhs c pre m _ => some ⟨c, pre, [.space, .rep, .cond], true, ([0x36] ++ bytesM m), fun x => memTicks x m false⟩
  | .opLdb c pre m _ => some ⟨c, pre, [.space, .rep, .cond], true, ([0x37] ++ bytesM m), fun x => memTicks x m false⟩
  | .opLdx c pre m _ => some ⟨c, pre, [.space, .rep, .cond], true, ([0x3B] ++ bytesM m), fun x => memTicks x m false⟩
  | .opStw c pre m => some ⟨c, pre, [.sat, .space, .rep, .cond], true, ([0x38] ++ bytesM m), fun x => memTicks x m true⟩
  | .opSth c pre m => some ⟨c, pre, [.sat, .space, .rep, .cond], true, ([0x39] ++ bytesM m), fun x => memTicks x m true⟩
  | .opStb c pre m => some ⟨c, pre, [.sat, .space, .rep, .cond], true, ([0x3A] ++ bytesM m), fun x => memTicks x m true⟩
  | .opLea c pre m => some ⟨c, pre, [.space, .cond], decide (m.mode ≠ 2), ([0x3C] ++ bytesM m), fun _ => 1⟩
  | .opAdd c pre f1 f2 => some ⟨c, pre, [.sat, .lane, .cond], true, ([0x40] ++ bytesR f1 f2), fun _ => 1⟩
  | .opAdc c pre f1 f2 => some ⟨c, pre, [.sat, .lane, .cond], true, ([0x41] ++ bytesR f1 f2), fun _ => 1⟩
  | .opSub c pre f1 f2 => some ⟨c, pre, [.sat, .lane, .cond], true, ([0x42] ++ bytesR f1 f2), fun _ => 1⟩
  | .opSbc c pre f1 f2 => some ⟨c, pre, [.sat, .lane, .cond], true, ([0x43] ++ bytesR f1 f2), fun _ => 1⟩
  | .opNeg c pre f1 f2 => some ⟨c, pre, [.sat, .lane, .cond], true, ([0x44] ++ bytesR f1 f2), fun _ => 1⟩
  | .opAbs c pre f1 f2 => some ⟨c, pre, [.sat, .lane, .cond], true, ([0x45] ++ bytesR f1 f2), fun _ => 1⟩
  | .opMul c pre f1 f2 => some ⟨c, pre, [.sat, .cond], true, ([0x46] ++ bytesR f1 f2), fun _ => 1⟩
  | .opMulhs c pre f1 f2 => some ⟨c, pre, [.sat, .rnd, .cond], true, ([0x47] ++ bytesR f1 f2), fun _ => 2⟩
  | .opMin c pre f1 f2 => some ⟨c, pre, [.lane, .cond], true, ([0x48] ++ bytesR f1 f2), fun _ => 1⟩
  | .opMax c pre f1 f2 => some ⟨c, pre, [.lane, .cond], true, ([0x49] ++ bytesR f1 f2), fun _ => 1⟩
  | .opAddi c pre f1 f2 imm => some ⟨c, pre, [.sat, .cond], decide (f2 = 0), ([0x4A] ++ bytesRI f1 f2 imm), fun _ => 1⟩
  | .opAndw c pre f1 f2 => some ⟨c, pre, [.cond], true, ([0x50] ++ bytesR f1 f2), fun _ => 1⟩
  | .opOrw c pre f1 f2 => some ⟨c, pre, [.cond], true, ([0x51] ++ bytesR f1 f2), fun _ => 1⟩
  | .opXorw c pre f1 f2 => some ⟨c, pre, [.cond], true, ([0x52] ++ bytesR f1 f2), fun _ => 1⟩
  | .opNotw c pre f1 f2 => some ⟨c, pre, [.cond], true, ([0x53] ++ bytesR f1 f2), fun _ => 1⟩
  | .opShl c pre f1 f2 imm => some ⟨c, pre, [.sat, .lane, .cond], decide (imm.toNat ≤ if (modsOf pre).lane then 15 else 31), ([0x54] ++ bytesRS f1 f2 imm), fun _ => 1⟩
  | .opSar c pre f1 f2 imm => some ⟨c, pre, [.rnd, .lane, .cond], decide (imm.toNat ≤ if (modsOf pre).lane then 15 else 31), ([0x55] ++ bytesRS f1 f2 imm), fun _ => 1⟩
  | .opShr c pre f1 f2 imm => some ⟨c, pre, [.cond], decide (imm.toNat ≤ 31), ([0x56] ++ bytesRS f1 f2 imm), fun _ => 1⟩
  | .opRor c pre f1 f2 imm => some ⟨c, pre, [.cond], decide (imm.toNat ≤ 31), ([0x57] ++ bytesRS f1 f2 imm), fun _ => 1⟩
  | .opClz c pre f1 f2 => some ⟨c, pre, [.cond], true, ([0x58] ++ bytesR f1 f2), fun _ => 1⟩
  | .opCmp c pre f1 f2 => some ⟨c, pre, [.cond], true, ([0x60] ++ bytesR f1 f2), fun _ => 1⟩
  | .opCmpeq c pre f1 f2 => some ⟨c, pre, [.cond], true, ([0x61] ++ bytesR f1 f2), fun _ => 1⟩
  | .opCmpne c pre f1 f2 => some ⟨c, pre, [.cond], true, ([0x62] ++ bytesR f1 f2), fun _ => 1⟩
  | .opCmplt c pre f1 f2 => some ⟨c, pre, [.cond], true, ([0x63] ++ bytesR f1 f2), fun _ => 1⟩
  | .opCmple c pre f1 f2 => some ⟨c, pre, [.cond], true, ([0x64] ++ bytesR f1 f2), fun _ => 1⟩
  | .opCmpgt c pre f1 f2 => some ⟨c, pre, [.cond], true, ([0x65] ++ bytesR f1 f2), fun _ => 1⟩
  | .opCmpge c pre f1 f2 => some ⟨c, pre, [.cond], true, ([0x66] ++ bytesR f1 f2), fun _ => 1⟩
  | .opCmpltu c pre f1 f2 => some ⟨c, pre, [.cond], true, ([0x67] ++ bytesR f1 f2), fun _ => 1⟩
  | .opCmpgeu c pre f1 f2 => some ⟨c, pre, [.cond], true, ([0x68] ++ bytesR f1 f2), fun _ => 1⟩
  | .opJmp c pre disp => some ⟨c, pre, [.cond], true, ([0x70] ++ bytesJ disp), fun _ => 2⟩
  | .opBcc c pre cc disp => some ⟨c, pre, [], decide (cc.toNat ≤ 14), ([0x71] ++ (cc :: bytesJ disp)), fun _ => 2⟩
  | .opJbt c pre disp => some ⟨c, pre, [.cond], true, ([0x72] ++ bytesJ disp), fun _ => 2⟩
  | .opJbf c pre disp => some ⟨c, pre, [.cond], true, ([0x73] ++ bytesJ disp), fun _ => 2⟩
  | .opCall c pre disp => some ⟨c, pre, [.cond], true, ([0x74] ++ bytesJ disp), fun _ => 2⟩
  | .opRet c pre => some ⟨c, pre, [.cond], true, [0x75], fun _ => 2⟩
  | .opLoop c pre x disp => some ⟨c, pre, [.cond], decide (x.toNat ≤ 3), ([0x76] ++ (x :: bytesJ disp)), fun _ => 2⟩
  | .opJmpa c pre addr => some ⟨c, pre, [.cond], decide (addr.toNat < 2 ^ 22), ([0x77] ++ bytesB addr), fun _ => 2⟩
  | .opCalla c pre addr => some ⟨c, pre, [.cond], decide (addr.toNat < 2 ^ 22), ([0x78] ++ bytesB addr), fun _ => 2⟩
  | .opMpy c pre b0 f1 f2 => some ⟨c, pre, [.lane, .rep, .cond], decide (b0.toNat < 4), ([0x80] ++ bytesA b0 f1 f2), fun _ => 1⟩
  | .opMac c pre b0 f1 f2 => some ⟨c, pre, [.lane, .rep, .cond], decide (b0.toNat < 4), ([0x81] ++ bytesA b0 f1 f2), fun _ => 1⟩
  | .opMsu c pre b0 f1 f2 => some ⟨c, pre, [.lane, .rep, .cond], decide (b0.toNat < 4), ([0x82] ++ bytesA b0 f1 f2), fun _ => 1⟩
  | .opMacm c pre b0 f1 f2 _ => some ⟨c, pre, [.lane, .rep, .cond], decide (b0.toNat < 64 ∧ f1 = 0 ∧ f2 = 0), ([0x83] ++ bytesA b0 f1 f2), fun _ => 1⟩
  | .opMsum c pre b0 f1 f2 _ => some ⟨c, pre, [.lane, .rep, .cond], decide (b0.toNat < 64 ∧ f1 = 0 ∧ f2 = 0), ([0x84] ++ bytesA b0 f1 f2), fun _ => 1⟩
  | .opClra c pre b0 f1 f2 => some ⟨c, pre, [.cond], decide (b0.toNat < 4 ∧ f1 = 0 ∧ f2 = 0), ([0x85] ++ bytesA b0 f1 f2), fun _ => 1⟩
  | .opLda c pre m _ => some ⟨c, pre, [.cond], true, ([0x86] ++ bytesM m), fun _ => 2⟩
  | .opSta c pre m => some ⟨c, pre, [.sat, .rnd, .lane, .cond], decide (m.reg.toNat < 8), ([0x87] ++ bytesM m), fun _ => 2⟩
  | .opMova c pre b0 f1 f2 => some ⟨c, pre, [.sat, .rnd, .lane, .cond], decide (b0.toNat < 8 ∧ f2 = 0), ([0x88] ++ bytesA b0 f1 f2), fun _ => 1⟩
  | .opAdda c pre b0 f1 f2 => some ⟨c, pre, [.lane, .cond], decide (b0.toNat < 16 ∧ f1 = 0 ∧ f2 = 0), ([0x89] ++ bytesA b0 f1 f2), fun _ => 1⟩
  | .opSuba c pre b0 f1 f2 => some ⟨c, pre, [.lane, .cond], decide (b0.toNat < 16 ∧ f1 = 0 ∧ f2 = 0), ([0x8A] ++ bytesA b0 f1 f2), fun _ => 1⟩
  | .opSha c pre b0 f1 f2 => some ⟨c, pre, [.sat, .rnd, .lane, .cond], decide (f1 = 0 ∧ f2 = 0), ([0x8B] ++ bytesA b0 f1 f2), fun _ => 1⟩
  | .opRot c pre b0 f1 f2 => some ⟨c, pre, [.sat, .rnd, .cond], decide ((b0 = 0 ∨ b0 = 2) ∧ f2 = 0), ([0x90] ++ bytesA b0 f1 f2), fun _ => 4⟩
  | .opMag c pre b0 f1 f2 => some ⟨c, pre, [.rnd, .cond], decide ((b0 = 0 ∨ b0 = 2) ∧ f2 = 0), ([0x91] ++ bytesA b0 f1 f2), fun _ => 18⟩
  | .opDft c pre b0 f1 f2 _ => some ⟨c, pre, [.sat, .rnd, .rep, .cond], decide (b0.toNat < 64 ∧ b0.toNat % 2 = 0), ([0x92] ++ bytesA b0 f1 f2), fun _ => 6⟩
  | .opCsrr c pre r off => some ⟨c, pre, [.cond], decide (r.toNat ≤ 15), ([0xA0] ++ bytesCF r off), fun _ => regionTicks (csrAddr off) false⟩
  | .opCsrw c pre r off => some ⟨c, pre, [.cond], decide (r.toNat ≤ 15), ([0xA1] ++ bytesCF r off), fun _ => regionTicks (csrAddr off) true⟩
  | .opQput c pre q r => some ⟨c, pre, [.cond], decide (q.toNat ≤ 31 ∧ r.toNat ≤ 12), ([0xA2] ++ [q, r]), fun _ => 10⟩
  | .opQcount c pre q r => some ⟨c, pre, [.cond], decide (q.toNat ≤ 31 ∧ r.toNat ≤ 15), ([0xA3] ++ [q, r]), fun _ => 6⟩
  | .opDivs c pre f1 f2 => some ⟨c, pre, [.cond], decide (f1.toNat % 2 = 0), ([0x0F, 0x00] ++ bytesR f1 f2), fun _ => 34⟩
  | .opDivu c pre f1 f2 => some ⟨c, pre, [.cond], decide (f1.toNat % 2 = 0), ([0x0F, 0x01] ++ bytesR f1 f2), fun _ => 34⟩
  | .opFlrd c pre f1 f2 => some ⟨c, pre, [.cond], decide (f2 = 0), ([0x0F, 0x10] ++ bytesR f1 f2), fun _ => 1⟩
  | .opFlwr c pre f1 f2 => some ⟨c, pre, [.cond], decide (f2 = 0), ([0x0F, 0x11] ++ bytesR f1 f2), fun _ => 1⟩
  | .opXchgm c pre m _ => some ⟨c, pre, [.lock, .space, .cond], lockOk pre, ([0x0F, 0x20] ++ bytesM m), fun x => match x.m.space with | none => 2 | some 2 => 96 | some _ => 8⟩
  | .opAddm c pre m _ => some ⟨c, pre, [.lock, .space, .cond], lockOk pre, ([0x0F, 0x21] ++ bytesM m), fun x => match x.m.space with | none => 2 | some 2 => 96 | some _ => 8⟩
  | _ => none

/-- R11: a fetch in which nothing is corrected. -/
def bare (pre : Fetch) : Fetch := { pre with corrected := 0 }

/-! ## Faults and ends of runs (R58, R108 to R110) -/

/-- Core c is one of the eight and holds runs of tasks among the 64, no two of one task (R36, R54); no mode change waits for
the end of a run (R63); and the preempted runs stand in their logic (R55). -/
structure Plain (s : State) (c : Nat) (r : Run) : Prop where
  core : c < 8
  tasks : ∀ q ∈ (s.dev.core c).runs, q.task < 64
  apart : ∀ q ∈ (s.dev.core c).runs.drop 1, q.task ≠ r.task
  calm : s.dev.modeChange = none
  steady : ∀ q ∈ (s.dev.core c).runs.drop 1, q.stage = .logic

/-- State t is what is left when the run in progress on core c, run r, ends with fault code code (15 for HALT) by the
instruction at pc: the fault record of the core, the fault-stopped task, and the core without the run; every register
of the run's bank is discarded, and no memory is changed. -/
structure EndsWith (s t : State) (c : Nat) (r : Run) (code : Nat) (pc detail : Word) : Prop where
  recorded : t.dev.fld (F.TSK_CFLT0_CODE c) = code
  task : t.dev.fld (F.TSK_CFLT0_TASK c) = r.task
  valid : t.dev.fld (F.TSK_CFLT0_VALID c) = 1
  location : t.dev.rd (Reg.TSK_CFLT1 c) = pc
  shown : t.dev.rd (Reg.TSK_CFLT2 c) = detail
  stopped : t.dev.fld (F.TSK_STATE_ST r.task) = 5 ∧ t.dev.fld (F.TSK_STATE_HALTED r.task) = 1
  raised : t.dev.pendingSrc r.task = true ∧ (code ≠ 15 → t.dev.pendingSrc (64 + c) = true)
  runs : (t.dev.core c).runs = (s.dev.core c).runs.drop 1
  bank : t.dev.bank c r.bank = {}
  banks : ∀ k, k ≠ r.bank → t.dev.bank c k = s.dev.bank c k
  cores : ∀ e, e ≠ c → t.dev.core e = s.dev.core e
  mem : t.dev.mem = (s.found c).mem
  pending : t.pending = s.pending

/-! ## Memory -/

/-- Device e holds what device d holds in every memory, but for the n bytes at address a as core c sees it, which hold the
number v. -/
structure Stored (d e : Dev) (c : Nat) (a : Word) (n v : Nat) : Prop where
  value : e.rdMem c a n = v
  bytes : ∀ (c' : Nat) (a' : Word), (regionOf a' ≠ regionOf a ∨ a'.toNat < a.toNat ∨ a.toNat + n ≤ a'.toNat ∨
    (c' ≠ c ∧ regionOf a ≠ some .stand)) → e.rdMem c' a' 1 = d.rdMem c' a' 1
  rest : e.mem = { d.mem with data := e.mem.data, shadow := e.mem.shadow, stand := e.mem.stand }

/-- Retires for an instruction that stores the n bytes of v at address a. -/
structure RetiresStoring (s t : State) (c : Nat) (r : Run) (k : Nat) (b : Bank) (pc : Word) (a : Word) (n v : Nat) : Prop where
  retires : Retires s t c r k b pc
  stored : Stored (s.found c) t.dev c a n v

/-- The words of a record as one number, the first word lowest. -/
def recordOf : List Word → Nat
  | [] => 0
  | w :: l => w.toNat + 2 ^ 32 * recordOf l

/-! ## Fixed-point results (R139) -/

/-- An exact value lies outside a signed field of w bits. -/
def outside (w : Nat) (v : Int) : Bool := decide (v < -((2 ^ (w - 1) : Nat) : Int)) || decide (((2 ^ (w - 1) : Nat) : Int) ≤ v)

/-- R139: what a field of w bits receives of an exact value: the value where it fits; otherwise the nearer limit for an
instruction that saturates, and the low w bits for one that wraps. -/
def fitted (w : Nat) (sat : Bool) (v : Int) : BitVec w :=
  if outside w v && sat then
    if v < 0 then BitVec.ofInt w (-((2 ^ (w - 1) : Nat) : Int)) else BitVec.ofInt w (((2 ^ (w - 1) : Nat) : Int) - 1)
  else BitVec.ofInt w v

/-- R91: lanes 0 and 1 of a dual word as signed numbers. -/
def lane0 (v : Word) : Int := (v.setWidth 16).toInt
def lane1 (v : Word) : Int := ((v >>> 16).setWidth 16).toInt

/-- R91: the low and the high half of a dual accumulator as signed numbers. -/
def half0 (v : BitVec 72) : Int := (v.setWidth 36).toInt
def half1 (v : BitVec 72) : Int := ((v >>> 36).setWidth 36).toInt

/-! ## Banks -/

/-- Bank b' is bank b with word v in W register n and the flags of a word result (R140): Z and N of v, C and V where they
are given, SAT set when sat; nothing else is changed. -/
structure WordResult (b b' : Bank) (n : Nat) (v : Word) (fc fv : Option Bool) (sat : Bool) : Prop where
  w : ∀ k, b'.getW k = if k = n then v else b.getW k
  z : b'.flag flZ = decide (v = 0)
  neg : b'.flag flN = v.msb
  carry : b'.flag flC = fc.getD (b.flag flC)
  ovf : b'.flag flV = fv.getD (b.flag flV)
  sticky : b'.flag flSat = (b.flag flSat || sat)
  fl : ∀ k, 5 ≤ k → b'.flag k = b.flag k
  rest : b'.x = b.x ∧ b'.a = b.a ∧ b'.ba = b.ba ∧ b'.pc = b.pc ∧ b'.tb = b.tb ∧ b'.shadow = b.shadow

/-- Bank b' is bank b with value v in accumulator n and the flags of an accumulator result (R146): Z and N of v, SAT and
GOV set when given; nothing else is changed. -/
structure AccResult (b b' : Bank) (n : Nat) (v : BitVec 72) (gov sat : Bool) : Prop where
  a : ∀ k, b'.getA k = if k = n then v else b.getA k
  z : b'.flag flZ = decide (v = 0)
  neg : b'.flag flN = v.msb
  govd : b'.flag flGov = (b.flag flGov || gov)
  sticky : b'.flag flSat = (b.flag flSat || sat)
  fl : ∀ k, k = flC ∨ k = flV ∨ 6 ≤ k → b'.flag k = b.flag k
  rest : b'.w = b.w ∧ b'.x = b.x ∧ b'.ba = b.ba ∧ b'.pc = b.pc ∧ b'.tb = b.tb ∧ b'.shadow = b.shadow

/-! ## Commands of the blocks -/

/-- The parts of a device, but for what follows every command by itself (see Aside). -/
inductive Part where
  | phase | latch | code | data | shadow | images | standMem | nvsMem | buffers | cores | tasks
  | modes | loading | io | ang | time | net | can | queues | msix | plane | path | nvs
  | xch | hsb | stand | rtc | power | sec | flash | tap | host | readData | free | csr
deriving DecidableEq, Repr

/-- The front end of the inputs without the readback comparison, which follows the pads by itself. -/
def Io.still (i : Io) : Io := { i with readback := [] }

/-- The part is the same in two devices; of the registers, see Only. -/
def Part.same (d e : Dev) : Part → Prop
  | .phase => e.phase = d.phase
  | .latch => e.latch = d.latch
  | .code => e.mem.code = d.mem.code
  | .data => e.mem.data = d.mem.data
  | .shadow => e.mem.shadow = d.mem.shadow
  | .images => e.mem.gens = d.mem.gens ∧ e.mem.inCur = d.mem.inCur ∧ e.mem.inNext = d.mem.inNext ∧ e.mem.out = d.mem.out
  | .standMem => e.mem.stand = d.mem.stand
  | .nvsMem => e.mem.nvs = d.mem.nvs
  | .buffers => e.mem.staging = d.mem.staging ∧ e.mem.mbox = d.mem.mbox ∧ e.mem.net = d.mem.net
  | .cores => e.cores = d.cores
  | .tasks => e.tasks = d.tasks
  | .modes => e.modeChange = d.modeChange ∧ e.keyPin = d.keyPin
  | .loading => e.fullLoad = d.fullLoad ∧ e.formats = d.formats
  | .io => e.io.still = d.io.still
  | .ang => e.ang = d.ang
  | .time => e.time = d.time
  | .net => e.net = d.net
  | .can => e.can = d.can
  | .queues => e.queues = d.queues
  | .msix => e.msix = d.msix
  | .plane => e.plane = d.plane ∧ e.gooseBits = d.gooseBits
  | .path => e.path = d.path
  | .nvs => e.nvs = d.nvs
  | .xch => e.xch = d.xch
  | .hsb => e.hsb = d.hsb
  | .stand => e.stand = d.stand
  | .rtc => e.rtc = d.rtc
  | .power => e.power = d.power
  | .sec => e.sec = d.sec
  | .flash => e.flash = d.flash
  | .tap => e.tap = d.tap
  | .host => e.host = d.host
  | .readData => e.readData = d.readData
  | .free => e.freeNo = d.freeNo
  | .csr => True

/-- Device e holds what device d holds, but for the named parts and the named registers, for all registers where the part
csr is named, and for what follows every command by itself (see Aside). -/
structure Only (d e : Dev) (l : List Part) (r : List Nat) : Prop where
  parts : ∀ p, p ∉ l → Part.same d e p
  regs : Part.csr ∉ l → ∀ off, off ∉ r ++ [Reg.INT_FIRST, Reg.BIO_BO0, Reg.BIO_BO1] → e.rd off = d.rd off

/-- Command i completes at MONO t: exec answers a next state whose device is in relation P to the device as the command
finds it, the NVS writes up to t done. -/
def Does (s : State) (i : Instr) (t : Nat) (P : Dev → Dev → Prop) : Prop :=
  ∃ u, exec i s = .next u ∧ u.mono = t ∧ u.pending = s.pending ∧ P (s.dev.upTo t) u.dev

/-- Command i, which acts in every phase, completes at MONO t: P relates the device as the command finds it to the device that
it leaves. NVS writes go on in a device that is awake alone. -/
def Happens (s : State) (i : Instr) (t : Nat) (P : Dev → Dev → Prop) : Prop :=
  ∃ u, exec i s = .next u ∧ u.mono = t ∧ u.pending = s.pending ∧ P (if s.dev.awake then s.dev.upTo t else s.dev) u.dev

/-- Command i leads to MONO t: P relates the device before it to the device after it. -/
def Leaves (s : State) (i : Instr) (t : Nat) (P : Dev → Dev → Prop) : Prop :=
  ∃ u, exec i s = .next u ∧ u.mono = t ∧ u.pending = s.pending ∧ P s.dev u.dev

/-- The registers that a raise of source i may change (R331 to R334). -/
def raiseRegs (i : Nat) : List Nat := [Reg.INT_SRCCFG i, Reg.INT_PEND 0 + 4 * (i / 32)]

/-- After the raise of source i (R331): it is pending, and a raise that found it pending was counted in CNT, which
saturates. -/
def Raised (d e : Dev) (i : Nat) : Prop :=
  e.pendingSrc i = true ∧
    (d.pendingSrc i = true → e.fld (F.INT_SRCCFG_CNT i) = if d.fld (F.INT_SRCCFG_CNT i) < 255 then d.fld (F.INT_SRCCFG_CNT i) + 1 else 255)

/-- Task m of device e is that of device d, but that releasing sources may have arrived for it (R41). -/
structure SameTask (d e : Dev) (m : Nat) : Prop where
  same : e.task m = { d.task m with arrivals := (e.task m).arrivals }
  grown : (d.task m).arrivals <+: (e.task m).arrivals

/-- Every task but those of list l is the same, but that releasing sources may have arrived for it. -/
def TasksBut (d e : Dev) (l : List Nat) : Prop := ∀ m, m ∉ l → SameTask d e m

/-- The registers that a release of task n may change: its state, and those of the task monitor (R64, R410, R411). -/
def releaseRegs (n : Nat) : List Nat :=
  [Reg.TSK_STATE n, Reg.TSK_CHKIN n, Reg.WDT_TMFLT0 + 4 * (n / 32), Reg.WDT_STAT, Reg.IMG_SAFEMASK0 + 4 * (n / 32)] ++
    raiseRegs 153 ++ raiseRegs 154

/-- Task n has become READY with release r at its release instant (R41, R44). -/
structure IsReady (e : Dev) (n : Nat) (r : Release) : Prop where
  ready : (e.task n).ready = some r
  last : (e.task n).lastRel = some r.mono
  state : e.fld (F.TSK_STATE_ST n) = 2

/-- Command i of core c completes: exec answers a next state, MONO has not gone back and follows the core, and the device
is in relation P to the device as the command finds it. -/
def DoesOn (s : State) (i : Instr) (c : Nat) (P : Dev → Dev → Prop) : Prop :=
  ∃ u, exec i s = .next u ∧ u.mono = max s.mono (u.dev.core c).time ∧ u.pending = s.pending ∧ P (s.found c) u.dev

/-- Requester r may write the register at an offset (R21, R418, R419), and the device is awake. -/
structure Writes (s : State) (r : Requester) (off : Nat) : Prop where
  awake : s.dev.awake = true
  allowed : s.dev.mayWrite r off = true
  reached : csrTicks off = some 0 → ∀ c b, r ≠ .core c b

/-- Task n with release r has been dispatched on core c at instant start, for cost ticks before the latch (R44 to R49, R56,
R64): the run, its bank, its charge, its state, its context and the inputs that it has latched. -/
structure Dispatched (d e : Dev) (c n : Nat) (r : Release) (start cost : Nat) : Prop where
  runs : (e.core c).runs = { task := n, bank := d.fld (F.TSK_CFG_BANK n), rel := r } :: (d.core c).runs
  waiting : (e.core c).waiting = none
  time : (e.core c).time = start + cost + 24 + d.wIn n + d.wPre n
  used : (e.rd (Reg.TSK_USED n)).toNat = cost + 24 + d.wIn n + d.wPre n
  state : e.fld (F.TSK_STATE_ST n) = 3 ∧ e.fld (F.TSK_STATE_LATE n) = if r.late then 1 else 0
  bank : e.bank c (d.fld (F.TSK_CFG_BANK n)) =
    { fl := BitVec.ofNat 32 (d.fld (F.TSK_CFG_RMDEF n) * 2 ^ 6 + d.fld (F.TSK_CFG_SATDEF n) * 2 ^ 8),
      pc := BitVec.ofNat 32 (d.fld (F.TSK_CODE_ENTRY n)),
      tb := BitVec.ofNat 32 (0x10000000 + d.fld (F.TSK_CODE_DBASE n) * 2048) }
  banks : ∀ k, k ≠ d.fld (F.TSK_CFG_BANK n) → e.bank c k = d.bank c k
  task : e.task n = { d.task n with
    runNo := (d.task n).runNo + 1, ready := none, first := false, exch := false, resume := false, skips := 0 }
  context : (List.range 11).map (fun k =>
      Memory.rd32 e.mem.data (dataAddr c (0x10000000 + d.fld (F.TSK_CODE_DBASE n) * 2048) + 4 * k)) =
    [(d.task n).runNo + 1, BitVec.ofNat 32 (d.tcFlags n r), e.rd Reg.IMG_GEN, r.angle, r.angq,
     BitVec.ofNat 32 (r.station % 1000000000), BitVec.ofNat 32 (r.station / 1000000000),
     BitVec.ofNat 32 (r.station / 1000000000 / 2 ^ 32), BitVec.ofNat 32 r.mono, BitVec.ofNat 32 (r.mono / 2 ^ 32),
     BitVec.ofNat 32 (d.task n).skips]
  inputs : ∀ k ∈ d.inRegions n, ∀ w ∈ d.rgnWords k, w < 16384 →
    Memory.rdLE e.mem.shadow (shadowAddr c false w) 8 = (Image.rd e.mem.inCur w).toNat
  gens : e.mem.gens = max d.mem.gens ((start + cost) / 1000)
  others : (∀ k, k ≠ c → e.core k = d.core k) ∧ ∀ m, m ≠ n → e.task m = d.task m
  mem : ∀ a, (a < dataAddr c (0x10000000 + d.fld (F.TSK_CODE_DBASE n) * 2048) ∨
      dataAddr c (0x10000000 + d.fld (F.TSK_CODE_DBASE n) * 2048) + 64 ≤ a) →
    Memory.rd8 e.mem.data a = Memory.rd8 d.mem.data a

/-- The registers that follow the states of the PTP ports (R253, R270). -/
def portRegs : List Nat := Reg.PTP_STAT :: (List.range 4).map Reg.PTP_PSTAT ++ raiseRegs 116

/-- The registers that a move of the publication gate may change (R267, R270). -/
def gateRegs : List Nat := Reg.SWX_STAT :: raiseRegs 109 ++ portRegs

/-- The registers that a frame put into a launch queue may change (R264, R268). -/
def postRegs : List Nat :=
  Reg.SWX_STAT :: (List.range 32).map (fun k => Reg.ETH_LQSTAT (k / 8) (k % 8)) ++ raiseRegs 110

/-- The registers of an SOE entry (R312, R321, R324). -/
def soeRegs : List Nat := [Reg.BIO_SOECNT, Reg.QUE_QLOST 0]

/-- The registers that follow the source of station time: its quality, PTP_UTC, and a measurement of the RTC that a bad
quality fails (R248, R250, R381). -/
def timeRegs : List Nat :=
  [Reg.PTP_STAT, Reg.PTP_UTC, Reg.RTC_STAT, Reg.RTC_ERR] ++ raiseRegs 112 ++ raiseRegs 118 ++ raiseRegs 178 ++ raiseRegs 179

/-- The registers that a step of station time may change beside them (R247, R251). -/
def stepRegs : List Nat := [Reg.PTP_LASTSTEP, Reg.PTP_STEPCNT, Reg.PTP_EPOCHEXT] ++ soeRegs ++ raiseRegs 114

/-- The parts that a step of station time may change (R72, R83, R251, R269, R381). -/
def stepParts : List Part := [.time, .rtc, .ang, .queues, .net, .tasks, .msix]

/-- The registers of a stand's membership, leader and reach (R344, R347 to R349, R360). -/
def standRegs : List Nat :=
  [Reg.STD_STAT, Reg.STD_REACH, Reg.STD_MONOOFS0, Reg.STD_MONOOFS1] ++ raiseRegs 166 ++ raiseRegs 167

/-- The registers of the path to this device (R31, R236). -/
def selfpathRegs : List Nat := [Reg.SYS_SELFPATH0, Reg.SYS_SELFPATH1, Reg.SYS_SELFPATH2, Reg.SYS_SELFPATH3]

/-- Nothing but the parts of list l and the registers of list r has changed, and what a new look at membership and leader of
a stand may change: nothing outside a stand, and station time only where the device followed the leader (R347 to R350). -/
structure Settled (d e : Dev) (l : List Part) (r : List Nat) : Prop where
  tasks : TasksBut d e []
  alone : d.standOn = false → Only d e ([.tasks, .msix] ++ l) r
  calm : d.following = false → Only d e ([.stand, .tasks, .msix] ++ l) (standRegs ++ r)
  only : Only d e (.stand :: stepParts ++ l) (standRegs ++ stepRegs ++ timeRegs ++ raiseRegs 113 ++ r)

/-- The registers that the states of the stations of CAN channel c may change (R288, R292, R312, R338). -/
def stationRegs (c : Nat) : List Nat :=
  [Reg.CAN_STAT c, Reg.HST_PARLEY, Reg.HST_EVT] ++
    (List.range 16).flatMap (fun i => [Reg.CAN_STASTAT c i, Reg.CAN_STACNT c i]) ++ raiseRegs (123 + 4 * c) ++ raiseRegs 190 ++ soeRegs

/-! ## Registers (R5 to R8) -/

/-- The field of a register row that holds bit b. -/
def RegRow.fieldAt (row : RegRow) (b : Nat) : Option FieldRow := row.fields.find? (fun f => decide (f.lo ≤ b ∧ b ≤ f.hi))

/-- R5, R6: bit b of a register that held w after a write of v: a field that stores takes the bit of v, a W1C bit falls where v
has a 1, and every other bit, the reserved ones among them, keeps its value. -/
def RegRow.bitWritten (row : RegRow) (w v : Word) (b : Nat) : Bool :=
  match row.fieldAt b with
  | some f =>
    match f.ty with
    | .rw => v.getLsbD b
    | .rwl => v.getLsbD b
    | .rws => v.getLsbD b
    | .w1c => w.getLsbD b && !v.getLsbD b
    | _ => w.getLsbD b
  | none => w.getLsbD b

/-- R5: bit b of a register that held w after a read: a bit of an RC field returns to its reset value. -/
def RegRow.bitRead (row : RegRow) (w : Word) (b : Nat) : Bool :=
  match row.fieldAt b with
  | some f => if f.ty = .rc then f.reset.testBit (b - f.lo) else w.getLsbD b
  | none => w.getLsbD b

/-- Registers that every mode accepts a write of, and that do nothing but hold what is written: a write follows R5 alone. -/
def plainRegs : List Nat :=
  [Reg.SYS_BADADDR, Reg.SYS_PATH0, Reg.SYS_PATH1, Reg.SYS_PATH2, Reg.SYS_PATH3, Reg.SUP_EVT, Reg.PMU_TEMPLIM, Reg.WDT_STAT,
    Reg.WDT_TMFLT0, Reg.WDT_TMFLT1, Reg.TSK_GSTAT, Reg.TSK_TLCFG, Reg.ANG_STAT, Reg.FRP_STAT, Reg.FRP_ECCERR, Reg.XCH_STAT,
    Reg.XCH_PAIR, Reg.HSB_EVT, Reg.STD_STAT, Reg.QUE_STAT, Reg.HST_MBSTAT, Reg.HST_EVT, Reg.SWX_STAT, Reg.PTP_STEPLIM,
    Reg.PTP_STAT, Reg.PTP_EPOCHEXT, Reg.PTP_SETNS, Reg.PTP_SETSEC0, Reg.PTP_SETSEC1, Reg.PTP_PPSOFS,
    Reg.BIO_STAT, Reg.BIO_MM, Reg.BIO_EVEN0, Reg.BIO_EVEN1, Reg.BIO_EVEN2, Reg.BIO_SOEPEV0, Reg.BIO_SOEPEV1,
    Reg.BIO_SOESTA0, Reg.BIO_SOESTA1, Reg.ADC_STAT, Reg.ADC_OVR, Reg.NVS_STAT, Reg.NVS_DEDADDR,
    Reg.RTC_STAT, Reg.RTC_ERR, Reg.RTC_MEASWIN, Reg.SEC_EVT, Reg.SEC_WINCFG, Reg.UPD_CFG, Reg.UPD_STAT] ++
    (List.range 64).map Reg.TSK_STATE ++ (List.range 8).map Reg.TSK_CFLT0 ++ (List.range 8).map Reg.ADC_THREVT ++
    (List.range 8).map Reg.SWX_SUBDATA ++ (List.range 28).map Reg.SWX_PUBDATA ++
    (List.range 4).flatMap (fun p => Reg.ETH_STAT p ::
      (List.range 4).flatMap (fun k => [Reg.ETH_CMDF_LO p k, Reg.ETH_CMDF_HI p k])) ++
    (List.range 4).flatMap (fun n => [Reg.CAN_STAT n, Reg.CAN_WAKEID n, Reg.CAN_WAKEMASK n, Reg.CAN_WAKED0 n,
      Reg.CAN_WAKED1 n, Reg.CAN_WAKEDM0 n, Reg.CAN_WAKEDM1 n, Reg.CAN_TXID n 1, Reg.CAN_TXID n 2])

/-- R64, R239, R271, R414: registers that are written in PROGRAM alone; a refused write sets TSK_GSTAT.WPROT. -/
def programRegs : List Nat :=
  [Reg.PMU_VINCFG, Reg.PMU_HOLDCFG, Reg.PMU_RETCFG, Reg.HSB_PUBCFG, Reg.HSB_VLAN, Reg.HSB_PAIRID0, Reg.HSB_PAIRID1,
    Reg.HSB_PAIRID2, Reg.HSB_PAIRID3] ++
    (List.range 64).flatMap (fun n => [Reg.TSK_PERIOD n, Reg.TSK_PHASE n, Reg.TSK_BUDGET n, Reg.TSK_CHKIN n,
      Reg.IMG_TRGN n, Reg.IMG_OINST n]) ++
    (List.range 256).map Reg.IMG_RGN ++ (List.range 8).map Reg.HSB_MTASK ++
    (List.range 4).flatMap (fun p => [Reg.ETH_TSADJ p, Reg.ETH_ASYM p])

/-- R293: settings of CAN channel n, which are written in PROGRAM while CANn_CTL.MODE = 3; a refused write sets WPROT. -/
def channelRegs (n : Nat) : List Nat :=
  [Reg.CAN_CFG n, Reg.CAN_NBT n, Reg.CAN_DBT n, Reg.CAN_TDC n, Reg.CAN_REFCFG n, Reg.CAN_FCYC n] ++
    (List.range 64).flatMap (fun k => [Reg.CAN_FID n k, Reg.CAN_FMASK n k]) ++ (List.range 16).map (Reg.CAN_STACFG n)

/-- R272, R415: registers that are written in PROGRAM alone; a refused write is ignored. -/
def silentRegs : List Nat :=
  [Reg.SWX_CFG, Reg.SWX_MACAB0, Reg.SWX_MACAB1, Reg.SWX_MACCD0, Reg.SWX_MACCD1, Reg.WDT_TMCFG] ++
    (List.range 8).map Reg.SWX_BRVLAN

/-- R317: settings of BIO, written in PROGRAM alone; a refused write sets BIO_STAT.CFG and raises source 139. -/
def binaryRegs : List Nat :=
  [Reg.BIO_CTL, Reg.BIO_BOSAFE0, Reg.BIO_BOSAFE1, Reg.BIO_RBINV] ++ (List.range 32).map Reg.BIO_RBCFG

/-- R318: settings of ADC, written in STOP and PROGRAM; a refused write sets ADC_STAT.CFG and raises source 143. -/
def analogRegs : List Nat := (List.range 24).flatMap (fun c => [Reg.ADC_GAIN c, Reg.ADC_OFS c, Reg.ADC_PHASE c])

/-- R5: the registers with an RC field. -/
def clearedRegs : List Nat :=
  [Reg.SYS_ECC, Reg.PMU_VIN, Reg.ANG_LATECNT, Reg.IMG_LATEOUT, Reg.XCH_CVCLIP, Reg.STD_REPMAX, Reg.QUE_REFUSED, Reg.NVS_ECC,
    Reg.NVS_REFCNT] ++ (List.range 32).map Reg.QUE_QLOST ++ (List.range 4).flatMap (fun n => [Reg.CAN_LASTERR n, Reg.CAN_RXSTAT n])

/-- R8, R30, R86, R133: what a read of a first word returns at MONO t, and the words that it latches, from an offset on; none for
every other offset. -/
def firstWord (d : Dev) (t off : Nat) : Option (Word × Nat × List Word) :=
  let mono := words64 t
  let sec := words64 (d.station t / 1000000000)
  if (ucbAt off).any (fun x => x.2 == off) then
    (ucbAt off).map (fun x => ((d.ucb t x.1).headD 0, off + 4, (d.ucb t x.1).drop 1))
  else if off = Reg.SYS_MONO0 then some (mono.1, Reg.SYS_MONO1, [mono.2])
  else if Reg.TSK_CFG 0 ≤ off ∧ off < Reg.TSK_CFG 64 ∧ off % 32 = 16 then
    let k := d.task ((off - Reg.TSK_CFG 0) / 32)
    some (d.rd off, Reg.TSK_ULATCH0, [k.maxUsed, (words64 k.total.toNat).1, (words64 k.total.toNat).2, k.runs])
  else if (List.range 8).any (fun c => off == Reg.TSK_CFLT0 c) then
    some (d.rd off, off + 4, [d.rd (off + 4), d.rd (off + 8), d.rd (off + 12)])
  else if off = Reg.ANG_ANGLE then
    some (d.angle t, Reg.ANG_TURNS,
      [d.turns t, d.angFreq, d.angRocof, d.angQual t, d.tnsWord t, sec.1, sec.2, d.angDev])
  else if off = Reg.PTP_TNS then some (d.tnsWord t, Reg.PTP_TSEC0, [sec.1, sec.2, mono.1, mono.2])
  else if off = Reg.PTP_PPSINNS then some (d.rd off, Reg.PTP_PPSINSEC0, [d.rd Reg.PTP_PPSINSEC0])
  else if off = Reg.XCH_SWMONO0 ∨ off = Reg.HSB_MONOOFS0 ∨ off = Reg.STD_MONOOFS0 then
    some (d.rd off, off + 4, [d.rd (off + 4)])
  else none

/-- R8: the offset holds a later word of a group, which reads as the requester's latch. -/
def laterWord (off : Nat) : Bool :=
  (ucbAt off).any (fun x => x.2 != off) || off == Reg.SYS_MONO1 ||
    (decide (Reg.TSK_ULATCH0 ≤ off) && decide (off ≤ Reg.TSK_ULATCH3)) ||
    (List.range 8).any (fun c => off == Reg.TSK_CFLT1 c || off == Reg.TSK_CFLT2 c || off == Reg.TSK_CFLT3 c) ||
    (decide (Reg.ANG_TURNS ≤ off) && decide (off ≤ Reg.ANG_DEV)) ||
    (decide (Reg.PTP_TSEC0 ≤ off) && decide (off ≤ Reg.PTP_TMONO1)) || off == Reg.PTP_PPSINSEC0 ||
    off == Reg.XCH_SWMONO1 || off == Reg.HSB_MONOOFS1 || off == Reg.STD_MONOOFS1 ||
    (List.range 32).any (fun q => off == Reg.QUE_QITEM q 1 || off == Reg.QUE_QITEM q 2 || off == Reg.QUE_QITEM q 3) ||
    (List.range 4).any (fun n => decide (Reg.CAN_RXF n 0 < off) && decide (off < Reg.CAN_RXF n 20))

/-- A command that is the write of one register: its requester, the offset and the word; none for every other command. -/
def writeForm : Instr → Option (Requester × Nat × Word)
  | .pathResolve r => some (r, Reg.SYS_PATHCTL, 1)
  | .deviceReset r key => some (r, Reg.SYS_RESET, key ++ (0x0001 : BitVec 16))
  | .networkEngineRestart r key => some (r, Reg.SYS_RESET, key ++ (0x0002 : BitVec 16))
  | .scanCoreRestart r key core => some (r, Reg.SYS_RESET, key ++ (0 : BitVec 5) ++ core ++ (0x03 : BitVec 8))
  | .faultClear r key => some (r, Reg.SUP_CTL, key ++ (0x0001 : BitVec 16))
  | .wdtConfig r v => some (r, Reg.WDT_CFG, v)
  | .wdtServe r key => some (r, Reg.WDT_SERVE, (0 : BitVec 16) ++ key)
  | .intRaise r src key => some (r, Reg.INT_RAISE, key ++ (0 : BitVec 8) ++ src)
  | .intPendClear r j v => some (r, Reg.INT_PEND j.toNat, v)
  | .intEnWrite r j v => some (r, Reg.INT_EN j.toNat, v)
  | .taskAckAll r => some (r, Reg.TSK_GCTL, 1)
  | .taskMaxClear r task => some (r, Reg.TSK_GCTL, (0 : BitVec 18) ++ task ++ (0x02 : BitVec 8))
  | .angSrcWrite r v => some (r, Reg.ANG_SRC, v)
  | .angCompWrite r v => some (r, Reg.ANG_COMP, v)
  | .frpTableWrite r rung word v => some (r, 0x100000 + 16 * rung.toNat + 4 * word.toNat, v)
  | .frpSnapshot r => some (r, Reg.FRP_SNAPCTL, 1)
  | .xchStage r key => some (r, Reg.XCH_CMD, key ++ (0x0001 : BitVec 16))
  | .xchArm r key => some (r, Reg.XCH_CMD, key ++ (0x0002 : BitVec 16))
  | .xchCancel r key => some (r, Reg.XCH_CMD, key ++ (0x0003 : BitVec 16))
  | .xchConfirm r key => some (r, Reg.XCH_CMD, key ++ (0x0004 : BitVec 16))
  | .xchRevert r key => some (r, Reg.XCH_CMD, key ++ (0x0005 : BitVec 16))
  | .handoverCmd cmd => cmd.map (fun x => (x.1, Reg.HSB_CMD, x.2 ++ (0x0001 : BitVec 16)))
  | .hsbRelinquishPub r key => some (r, Reg.HSB_CMD, key ++ (0x0002 : BitVec 16))
  | .hsbSetRetinh r key => some (r, Reg.HSB_CMD, key ++ (0x0003 : BitVec 16))
  | .hsbClearRetinh r key => some (r, Reg.HSB_CMD, key ++ (0x0004 : BitVec 16))
  | .queueConfig r q v => some (r, Reg.QUE_CFG q.toNat, v)
  | .queueOffer r q v => some (r, Reg.QUE_QIN q.toNat 0, v)
  | .mailboxRing r mask => some (r, Reg.HST_DBELL, (0 : BitVec 28) ++ mask)
  | .ptpSetTime r v => some (r, Reg.PTP_CMD, v)
  | .mdioFrame r v => some (r, Reg.SWX_MDIO, v)
  | .phyResetControl r v => some (r, Reg.SWX_PHYCTL, v)
  | .subAccess r v => some (r, Reg.SWX_SUBCTL, v)
  | .pubAccess r v => some (r, Reg.SWX_PUBCTL, v)
  | .canTxRequest r n b v => if b.toNat < 3 then some (r, Reg.CAN_TXCTL n.toNat b.toNat, v ||| 0x100) else none
  | .canTxAbort r n b v => if b.toNat < 3 then some (r, Reg.CAN_TXCTL n.toNat b.toNat, v ||| 0x800) else none
  | .canModeWrite r n v => some (r, Reg.CAN_CTL n.toNat, v)
  | .frelupoCommand r n v => some (r, Reg.CAN_FCMD n.toNat, v)
  | .biInvWrite r n v => if n.toNat < 96 then some (r, Reg.BIO_BICFG n.toNat, v) else none
  | .rbenWrite r v => some (r, Reg.BIO_RBEN, v)
  | .thresholdWrite r k v => some (r, Reg.ADC_THR1 k.toNat, v)
  | .rtcHalt r => some (r, Reg.RTC_CTL, 1)
  | .rtcRun r => some (r, Reg.RTC_CTL, 0)
  | .rtcTimeWrite r k v => if k.toNat ≤ 6 then some (r, Reg.RTC_SUBSEC + 4 * k.toNat, v) else none
  | .rtcAlarmArm r => some (r, Reg.RTC_ALMCTL, 1)
  | _ => none

/-- A command that is the read of one register: its requester and the offset; none for every other command. -/
def readForm : Instr → Option (Requester × Nat)
  | .queuePop r q => some (r, Reg.QUE_QITEM q.toNat 0)
  | .canRxfPop r n => some (r, Reg.CAN_RXF n.toNat 0)
  | .rtcFreezeRead r k => if k.toNat ≤ 6 then some (r, Reg.RTC_SUBSEC + 4 * k.toNat) else none
  | .readClear r off => some (r, off.toNat)
  | _ => none

/-! ## Host commands (R327 to R330) -/

/-- A host command as its service sees it: its head, its code, its cost in ticks, and whether its class permits it. -/
structure HostForm where
  head : CmdHead
  code : Nat
  cost : Nat
  allowed : Bool
deriving DecidableEq, Repr

/-- R329, R418, R422, R425: the form of a command that the runtime firmware serves; none for every other command. -/
def hostForm (s : State) : Instr → Option HostForm
  | .hello h _ => some ⟨h, 0x01, 5000, true⟩
  | .ident h => some ⟨h, 0x02, 3000, true⟩
  | .unitread h => some ⟨h, 0x03, 4000, s.dev.openFor h.ch⟩
  | .hostLoad h _ _ _ l f => some ⟨h, 0x10, 2000 + (if oldFormat f then 3 else 2) * (8 + l.length), s.dev.loadAllowed h.ch⟩
  | .desc h l => some ⟨h, 0x11, 2000 + 2 * l.length, s.dev.loadAllowed h.ch⟩
  | .hostLaunch h _ _ _ _ _ _ l => some ⟨h, 0x20, 1516 + l.length, s.dev.hostAllowed h.ch⟩
  | .journal h n k =>
    some ⟨h, 0x40, 2000 + (if 1 ≤ k.toNat ∧ k.toNat ≤ 1022 then 120 * (s.dev.journalRange n.toNat k.toNat).length else 0),
      s.dev.openFor h.ch⟩
  | .recordRead h r =>
    some ⟨h, 0x41, 3000 + 2 * ((s.dev.recordGet (s.dev.ownRid r.toNat)).getD []).length, s.dev.openFor h.ch⟩
  | .recordWrite h _ _ _ l => some ⟨h, 0x41, 3000 + 2 * l.length, s.dev.hostAllowed h.ch⟩
  | .challenge h => some ⟨h, 0x30, blockCost 0, true⟩
  | .unlockSig h _ pk sig => some ⟨h, 0x30, blockCost (4 + pk.length + sig.length), true⟩
  | .unlockPwd h l => some ⟨h, 0x30, blockCost l.length, chClass h.ch == 0⟩
  | .relock h => some ⟨h, 0x30, blockCost 0, s.dev.openFor h.ch⟩
  | .setpwd h l => some ⟨h, 0x30, blockCost l.length, s.dev.p0Open h.ch⟩
  | .keyslot h _ l => some ⟨h, 0x30, blockCost (4 + l.length), s.dev.p0Open h.ch⟩
  | .revoke h _ => some ⟨h, 0x30, blockCost 4, s.dev.p0Open h.ch⟩
  | .fieldlock h => some ⟨h, 0x30, blockCost 0, s.dev.p0Open h.ch⟩
  | .attest h l => some ⟨h, 0x30, blockCost l.length, true⟩
  | .attestRead h => some ⟨h, 0x30, blockCost 0, true⟩
  | .manifest h _ _ l => some ⟨h, 0x30, blockCost l.length, s.dev.openFor h.ch⟩
  | .updData h _ _ l => some ⟨h, 0x30, blockCost l.length, s.dev.openFor h.ch⟩
  | .updStatus h _ => some ⟨h, 0x30, blockCost 0, s.dev.openFor h.ch⟩
  | .updAbort h _ => some ⟨h, 0x30, blockCost 0, s.dev.openFor h.ch⟩
  | .activate h _ _ => some ⟨h, 0x30, blockCost 0, s.dev.switchAllowed h.ch⟩
  | .updConfirm h _ => some ⟨h, 0x30, blockCost 0, s.dev.switchAllowed h.ch⟩
  | .updRevert h _ => some ⟨h, 0x30, blockCost 0, s.dev.switchAllowed h.ch⟩
  | _ => none

/-- R11: the head of a command in whose service no error is corrected. -/
def cleanHead (h : CmdHead) : CmdHead := { h with corrected := 0 }

/-- R11: the second host command is the first one without a correction in its service. -/
inductive Cleaned : Instr → Instr → Prop where
  | hello (h : CmdHead) a : Cleaned (.hello h a) (.hello (cleanHead h) a)
  | ident (h : CmdHead) : Cleaned (.ident h) (.ident (cleanHead h))
  | unitread (h : CmdHead) : Cleaned (.unitread h) (.unitread (cleanHead h))
  | hostLoad (h : CmdHead) a b c x y : Cleaned (.hostLoad h a b c x y) (.hostLoad (cleanHead h) a b c x y)
  | desc (h : CmdHead) a : Cleaned (.desc h a) (.desc (cleanHead h) a)
  | hostLaunch (h : CmdHead) a b c x y z w : Cleaned (.hostLaunch h a b c x y z w) (.hostLaunch (cleanHead h) a b c x y z w)
  | journal (h : CmdHead) a b : Cleaned (.journal h a b) (.journal (cleanHead h) a b)
  | recordRead (h : CmdHead) a : Cleaned (.recordRead h a) (.recordRead (cleanHead h) a)
  | recordWrite (h : CmdHead) a b c x : Cleaned (.recordWrite h a b c x) (.recordWrite (cleanHead h) a b c x)
  | challenge (h : CmdHead) : Cleaned (.challenge h) (.challenge (cleanHead h))
  | unlockSig (h : CmdHead) a b c : Cleaned (.unlockSig h a b c) (.unlockSig (cleanHead h) a b c)
  | unlockPwd (h : CmdHead) a : Cleaned (.unlockPwd h a) (.unlockPwd (cleanHead h) a)
  | relock (h : CmdHead) : Cleaned (.relock h) (.relock (cleanHead h))
  | setpwd (h : CmdHead) a : Cleaned (.setpwd h a) (.setpwd (cleanHead h) a)
  | keyslot (h : CmdHead) a b : Cleaned (.keyslot h a b) (.keyslot (cleanHead h) a b)
  | revoke (h : CmdHead) a : Cleaned (.revoke h a) (.revoke (cleanHead h) a)
  | fieldlock (h : CmdHead) : Cleaned (.fieldlock h) (.fieldlock (cleanHead h))
  | attest (h : CmdHead) a : Cleaned (.attest h a) (.attest (cleanHead h) a)
  | attestRead (h : CmdHead) : Cleaned (.attestRead h) (.attestRead (cleanHead h))
  | manifest (h : CmdHead) a b c : Cleaned (.manifest h a b c) (.manifest (cleanHead h) a b c)
  | updData (h : CmdHead) a b c : Cleaned (.updData h a b c) (.updData (cleanHead h) a b c)
  | updStatus (h : CmdHead) a : Cleaned (.updStatus h a) (.updStatus (cleanHead h) a)
  | updAbort (h : CmdHead) a : Cleaned (.updAbort h a) (.updAbort (cleanHead h) a)
  | activate (h : CmdHead) a b : Cleaned (.activate h a b) (.activate (cleanHead h) a b)
  | updConfirm (h : CmdHead) a : Cleaned (.updConfirm h a) (.updConfirm (cleanHead h) a)
  | updRevert (h : CmdHead) a : Cleaned (.updRevert h a) (.updRevert (cleanHead h) a)

/-- R364: a command that works on NVS waits while NVS is not READY. -/
def waitsForNvs (s : State) : Instr → Bool
  | .journal _ _ _ => !s.dev.nvsReady
  | .recordRead _ _ => !s.dev.nvsReady
  | .recordWrite _ _ _ _ _ => !s.dev.nvsReady
  | _ => false

/-- R328, R396, R416, R421: a command on a channel is served now: the runtime firmware serves commands, commands come over
the channel, and a mailbox is the next in turn and BUSY. -/
structure InTurn (s : State) (ch : Channel) : Prop where
  serves : s.dev.serves = true
  carries : chCarries ch = true
  next : ∀ m, chMailbox ch = some m → s.dev.nextMailbox = some m
  busy : ∀ m, chMailbox ch = some m → s.dev.bit Reg.HST_MBSTAT m = true

/-- R328 to R330, R418, R421: command i takes its effect at unit u of this device: it is served now, repeats no message, and
is neither refused nor sent on; NVS is READY where it works on NVS; no error is corrected during its service (of one that
is, see the statement HostService). -/
structure Served (s : State) (i : Instr) (f : HostForm) (u : Nat) : Prop extends InTurn s f.head.ch where
  form : hostForm s i = some f
  stored : waitsForNvs s i = false
  new : s.dev.repeated f.head.ch = none
  free : s.dev.refusal f.head f.code f.allowed = none
  here : s.dev.resolve f.head.path = .found u
  clean : f.head.corrected = 0

/-- R327, R328, R339, R421: a command has completed at MONO t with a STATUS and a response, in its mailbox or on its line. -/
structure Replies (d e : Dev) (t : Nat) (f : HostForm) (status : Nat) (bytes : List Byte) : Prop where
  count : e.rd Reg.HST_CMDCNT = d.rd Reg.HST_CMDCNT + 1
  last : e.rd Reg.HST_LASTCMD = BitVec.ofNat 32 (f.code + status * 256)
  flags : ∀ m, chMailbox f.head.ch = some m → e.bit Reg.HST_MBSTAT m = false ∧ e.bit Reg.HST_MBSTAT (8 + m) = true ∧
    e.bit Reg.HST_EVT 0 = true ∧ Raised d e 188 ∧ e.host.rung = d.host.rung.filter (fun x => x != m) ∧
    e.host.replies = d.host.replies
  header : ∀ m, chMailbox f.head.ch = some m → Memory.rdBytes e.mem.mbox (m * 0x10000 + 0x18) 12 =
    leBytes (status + f.head.tag.toNat * 2 ^ 16) 4 ++ leBytes bytes.length 4 ++ leBytes f.cost 4
  body : ∀ m, chMailbox f.head.ch = some m → Memory.rdBytes e.mem.mbox (m * 0x10000 + 0x40) bytes.length = bytes
  others : ∀ m a, chMailbox f.head.ch = some m → (a < m * 0x10000 + 0x18 ∨ (m * 0x10000 + 0x24 ≤ a ∧ a < m * 0x10000 + 0x40) ∨
    m * 0x10000 + 0x40 + bytes.length ≤ a) → Memory.rd8 e.mem.mbox a = Memory.rd8 d.mem.mbox a
  line : chMailbox f.head.ch = none → e.mem.mbox = d.mem.mbox ∧ e.host.rung = d.host.rung ∧
    (∃ l, l = leBytes (status + f.head.tag.toNat * 2 ^ 16) 4 ++ leBytes bytes.length 4 ++ leBytes f.cost 4 ++ bytes ∧
      (t, Msg.response f.head.ch l) ∈ e.outbox ∧ e.repeated f.head.ch = some l)
  failed : status = 8 → Raised d e 191 ∧ (e.rd Reg.HST_ERRCNT).toNat = min 0xFFFFFFFF ((d.rd Reg.HST_ERRCNT).toNat + 1)

/-- The parts and the registers that a reply may change. -/
def replyParts : List Part := [.host, .buffers, .tasks, .msix]
def replyRegs : List Nat :=
  [Reg.HST_CMDCNT, Reg.HST_LASTCMD, Reg.HST_MBSTAT, Reg.HST_EVT, Reg.HST_ERRCNT] ++ raiseRegs 188 ++ raiseRegs 191

/-- Only for a command with a reply: of the channels nothing but what Replies says has changed, and of the buffers nothing
but the mailboxes, nor of the tasks. -/
structure OnlyReply (d e : Dev) (l : List Part) (r : List Nat) : Prop where
  only : Only d e (replyParts ++ l) (replyRegs ++ r)
  sessions : e.host.sessions = d.host.sessions
  buffers : e.mem.staging = d.mem.staging ∧ e.mem.net = d.mem.net
  tasks : TasksBut d e []

/-- R441: an image with block i. -/
def SlotImage.withBlock (x : SlotImage) (i : Nat) (b : List Byte) : SlotImage :=
  match x with
  | .signed m y => .signed m (Sparse.set (fun _ => []) y i b)
  | x => x

/-! ## Device reset (R9, R15, R399 to R403, R483) -/

/-- R9, R15: device e has lost what device d loses in a device reset; of the registers that a reset leaves, those of a list
may have changed. -/
structure Cleared (d e : Dev) (regs : List Nat) : Prop where
  memories : e.mem = { nvs := e.mem.nvs }
  lists : e.cores = [] ∧ e.tasks = [] ∧ e.queues = {} ∧ e.can = [] ∧ e.latch = [] ∧ e.formats = []
  parts : e.modeChange = none ∧ e.fullLoad = none ∧ e.ang = {} ∧ e.time = {} ∧ e.net = {} ∧ e.msix = {} ∧ e.plane = {} ∧
    e.gooseBits = 0 ∧ e.path = {} ∧ e.xch = { lost := d.xst == 3 || d.xst == 4 || d.xch.lost } ∧ e.hsb = {} ∧ e.stand = {} ∧ e.host = {}
  pins : e.io.still = { biPin := d.io.biPin, brbPin := d.io.brbPin } ∧ e.keyPin = d.keyPin
  clock : e.rtc = { d.rtc with freezes := [], meas := none } ∧ e.flag F.RTC_STAT_MEAS = false
  nvs : e.nvs = { interrupted := d.nvs.interrupted }
  tap : e.tap = if e.phase = .off then {}
    else if d.flag F.SEC_STAT_FIELDLOCK && !tapAlways d.tap.ir then { d.tap with ir := .bypass } else d.tap
  sec : e.sec = { drawn := d.sec.drawn, wasOpen := d.sec.winEnd.isSome || d.sec.wasOpen } ∧
    e.rd Reg.SEC_STAT = d.rd Reg.SEC_STAT &&& 0xFFF
  flash : (∀ c, e.comp c = { d.comp c with winEnd := none, revertAt := none }) ∧
    e.flash.companions = d.flash.companions ∧ e.flash.oldDir = d.flash.oldDir ∧ e.flash.queued = [] ∧ e.flash.listed = []
  kept : ∀ off, keptOffset off = true → off ∉ [Reg.SUP_STAT, Reg.RTC_STAT, Reg.SEC_STAT] ++ regs → e.rd off = d.rd off
  lost : ∀ off, keptOffset off = false → off ∉ [Reg.INT_FIRST, Reg.BIO_BO0, Reg.BIO_BO1] → e.rd off = resetWordAt off

/-- R399: the counters of a cause, as the causes 1 to 7 number them. -/
def causeFields : List Fld :=
  [F.SUP_CAUSECNT0_RESETN, F.SUP_CAUSECNT0_SYSRST, F.SUP_CAUSECNT0_WDT, F.SUP_CAUSECNT0_CLK, F.SUP_CAUSECNT1_VCORE,
   F.SUP_CAUSECNT1_CODEECC, F.SUP_CAUSECNT1_FSAFE]

/-- R399: the reset counters have counted a cause; they saturate (R405). -/
structure Counted (d e : Dev) (cause : Nat) : Prop where
  all : (e.rd Reg.SUP_RSTCNT).toNat = min 0xFFFFFFFF ((d.rd Reg.SUP_RSTCNT).toNat + 1)
  each : ∀ k, k < 7 → e.fld (causeFields.getD k F.SUP_CAUSECNT0_RESETN) =
    if cause = k + 1 then min 255 (d.fld (causeFields.getD k F.SUP_CAUSECNT0_RESETN) + 1)
    else d.fld (causeFields.getD k F.SUP_CAUSECNT0_RESETN)
  watchdog : (e.rd Reg.WDT_RSTCOUNT).toNat =
    if cause = 3 then min 0xFFFFFFFF ((d.rd Reg.WDT_RSTCOUNT).toNat + 1) else (d.rd Reg.WDT_RSTCOUNT).toNat

/-- R403: the words 0 to 14 of the last-gasp record at MONO t. -/
def gaspList (d : Dev) (t cause mask : Nat) : List Word :=
  let sec := d.station t / 1000000000
  let cores (p : Nat → Bool) : Nat := ((List.range 8).map (fun c => if p c then 2 ^ c else 0)).sum
  let hottest := [d.fld (F.PMU_TEMP_TEMP 1), d.fld (F.PMU_TEMP_TEMP 2), d.fld (F.PMU_TEMP_TEMP 3)].foldl
    (fun x y => if (BitVec.ofNat 16 x).slt (BitVec.ofNat 16 y) then y else x) (d.fld (F.PMU_TEMP_TEMP 0))
  [BitVec.ofNat 32 (0x4C47 + cause * 2 ^ 16 + mask * 2 ^ 24), d.rd Reg.SUP_LGSEQ + 1, BitVec.ofNat 32 t,
   BitVec.ofNat 32 (t / 2 ^ 32), d.tnsWord t, BitVec.ofNat 32 sec, BitVec.ofNat 32 (sec / 2 ^ 32), d.rd Reg.SYS_MODE,
   BitVec.ofNat 32 (d.dropLease t).roleWord, BitVec.ofNat 32 (d.fld F.PMU_VIN_VIN + d.fld (F.PMU_TEL_VOLT 0) * 2 ^ 16),
   BitVec.ofNat 32 hottest, BitVec.ofNat 32 (d.wdtCnt t), BitVec.ofNat 32 (d.servePushes.queue 0).length,
   BitVec.ofNat 32 (cores (fun c => decide ((d.core c).runs ≠ [])) +
     cores (fun c => d.tasksState (d.coreTasks c) == 6) * 2 ^ 8), 0]

/-- R399, R401, R483: the device domain has been reset at MONO t for a cause, with a mask of the causes detected; p is the
supply as the event has left it. -/
structure ResetAs (d e : Dev) (p : Power) (t cause mask : Nat) : Prop where
  held : e.phase = .reset
  power : e.power = { p with
    wdtFrom := none, wdtHeld := 0, setEnd := t + 10000,
    releaseFrom := if p.resetLow || p.safeLow then none else some (t + 1000000) }
  reported : e.rd Reg.SUP_RSTCAUSE = BitVec.ofNat 32 (cause + mask * 2 ^ 8 + (if 3 ≤ cause then 2 ^ 16 else 0))
  counted : Counted d e cause
  stat : e.flag F.SUP_STAT_FAULTN = (d.flag F.SUP_STAT_FAULTN || decide (3 ≤ cause)) ∧ e.flag F.SUP_STAT_SVCHALT = false ∧
    e.flag F.SUP_STAT_MONOEST = false
  faultN : 3 ≤ cause → d.flag F.SUP_STAT_FAULTN = false → (t, Msg.faultN true) ∈ e.outbox
  seq : e.rd Reg.SUP_LGSEQ = if 3 ≤ cause then d.rd Reg.SUP_LGSEQ + 1 else d.rd Reg.SUP_LGSEQ
  record : 3 ≤ cause → ∃ a body, a = 0xA0000 + 64 * ((d.rd Reg.SUP_LGSEQ + 1).toNat % 4) ∧
    body = (gaspList d t cause mask).flatMap (fun w => leBytes w.toNat 4) ∧
    Memory.rdBytes e.mem.nvs a 60 = body ∧ Memory.rd32 e.mem.nvs (a + 60) = crc32c body
  nvs : ∀ a, (3 ≤ cause → a < 0xA0000 + 64 * ((d.rd Reg.SUP_LGSEQ + 1).toNat % 4) ∨
      0xA0000 + 64 * ((d.rd Reg.SUP_LGSEQ + 1).toNat % 4) + 64 ≤ a) →
    Memory.rd8 e.mem.nvs a = Memory.rd8 (d.nvsComplete t).mem.nvs a
  supply : if bitOf mask 5 then e.bit Reg.PMU_STAT 10 = true ∧ e.bit Reg.PMU_STAT 4 = false ∧
      (∀ b, b ≠ 4 → b ≠ 10 → e.bit Reg.PMU_STAT b = d.bit Reg.PMU_STAT b)
    else e.rd Reg.PMU_STAT = d.rd Reg.PMU_STAT
  cleared : Cleared d e [Reg.SUP_RSTCAUSE, Reg.SUP_RSTCNT, Reg.SUP_CAUSECNT0, Reg.SUP_CAUSECNT1, Reg.SUP_LGSEQ,
    Reg.WDT_RSTCOUNT, Reg.PMU_STAT]

/-- R395: retention has ended in a device d in deep sleep; p is the supply as the event has left it, and the next return of
VIN boots with a cause. -/
structure RetentionLost (d e : Dev) (p : Power) (cause : Option Nat) (regs : List Nat) : Prop where
  off : e.phase = .off
  power : e.power = { p with
    wdtFrom := none, wdtHeld := 0, rideEnd := none, releaseFrom := none, retryAt := none, nextCause := cause }
  hold : e.flag F.PMU_STAT_HOLDEN = false
  nvs : e.mem.nvs = d.mem.nvs
  cleared : Cleared d e (Reg.PMU_STAT :: regs)

end Sys2Proof.Machine
end

