-- ==== Sys2Proof/Certificates/Slice0/Obligations.lean ====
section
/-!
DEFINITION. The statements about this model that are to be proved: the spec's rules, instruction by instruction, command
by command, and what holds of every step.
-/
section Obligations
open Sys2Proof Sys2Proof.Machine

/-! ## Scan cores: words -/

/-- R121, R88, R124: MOV, MOVI, MOVX and MOVW copy a register or an immediate, FLRD copies FL, FLWR writes its RW fields, LEA
writes the address that form M computes; each costs 1 tick and changes nothing else. R142: ANDW, ORW, XORW, NOTW and CLZ: the
word written, Z and N from it; C, V and all else are unchanged. -/
def Obligations.RegisterAndBitwiseInstructions : Prop :=
  (∀ (s : State) (c : Nat) (r : Run) (pre : Fetch) (f1 f2 : BitVec 4) (imm : BitVec 32) (m : MAddr),
    let b := s.bankOf c r
    let n := 1 + (bytesM m).length
    (Starts s c r [.cond] pre 2 → Gives s (.opMov c pre f1 f2) c r 1 (s.after c r pre 2)
      (fun b' => b' = b.setW f1.toNat (b.getW f2.toNat))) ∧
    (Starts s c r [.cond] pre 6 → f2 = 0 → Gives s (.opMovi c pre f1 f2 imm) c r 1 (s.after c r pre 6)
      (fun b' => b' = b.setW f1.toNat imm)) ∧
    (Starts s c r [.cond] pre 2 → f1.toNat ≤ 3 → Gives s (.opMovx c pre f1 f2) c r 1 (s.after c r pre 2)
      (fun b' => b' = b.setX f1.toNat (b.getW f2.toNat))) ∧
    (Starts s c r [.cond] pre 2 → f2.toNat ≤ 3 → Gives s (.opMovw c pre f1 f2) c r 1 (s.after c r pre 2)
      (fun b' => b' = b.setW f1.toNat (b.getX f2.toNat))) ∧
    (Starts s c r [.cond] pre 3 → f2 = 0 → Gives s (.opFlrd c pre f1 f2) c r 1 (s.after c r pre 3)
      (fun b' => b' = b.setW f1.toNat ((b.fl &&& 0x1FF) |||
        BitVec.ofNat 32 ((if b.shadow = [] then 0 else 2 ^ 9) + b.ba.length * 2 ^ 10)))) ∧
    (Starts s c r [.cond] pre 3 → f2 = 0 → Gives s (.opFlwr c pre f1 f2) c r 1 (s.after c r pre 3)
      (fun b' => b' = { b with fl := b.getW f1.toNat &&& 0x1FF })) ∧
    (Starts s c r [.space, .cond] pre n → m.mode ≠ 2 → Gives s (.opLea c pre m) c r 1 (s.after c r pre n)
      (fun b' => b' = b.setX (m.reg.toNat % 4) ((s.cpu0 c r pre n).ea m)))) ∧
  (∀ (s : State) (c : Nat) (r : Run) (pre : Fetch) (f1 f2 : BitVec 4), Starts s c r [.cond] pre 2 →
    let b := s.bankOf c r
    let x := b.getW f1.toNat
    let y := b.getW f2.toNat
    let gives (i : Instr) (v : Word) : Prop := Gives s i c r 1 (s.after c r pre 2)
      (fun b' => WordResult b b' f1.toNat v none none false)
    gives (.opAndw c pre f1 f2) (x &&& y) ∧ gives (.opOrw c pre f1 f2) (x ||| y) ∧
    gives (.opXorw c pre f1 f2) (x ^^^ y) ∧ gives (.opNotw c pre f1 f2) (~~~y) ∧
    ∃ z : Nat, gives (.opClz c pre f1 f2) (BitVec.ofNat 32 z) ∧ z ≤ 32 ∧ (z = 32 ↔ y = 0) ∧
      (∀ k, 32 - z ≤ k → y.getLsbD k = false) ∧ (z < 32 → y.getLsbD (31 - z) = true))

/-- R140, R141 without LANE: the word written is the exact result fitted to 32 bits; C is the carry or borrow of the
unsigned operation, V says that the exact signed result lies outside 32 bits, Z and N describe the word written. -/
def Obligations.WordArithmetic : Prop :=
  ∀ (s : State) (c : Nat) (r : Run) (pre : Fetch) (f1 f2 : BitVec 4) (imm : BitVec 32),
    let b := s.bankOf c r
    let x := b.getW f1.toNat
    let y := b.getW f2.toNat
    let cy : Nat := if b.flag flC then 1 else 0
    let sat := s.saturates c r pre
    let gives (i : Instr) (n : Nat) (e : Int) (carry : Bool) : Prop := Gives s i c r 1 (s.after c r pre n)
      (fun b' => WordResult b b' f1.toNat (fitted 32 sat e) (some carry) (some (outside 32 e)) (sat && outside 32 e))
    (Starts s c r [.sat, .lane, .cond] pre 2 → (modsOf pre).lane = false →
      gives (.opAdd c pre f1 f2) 2 (x.toInt + y.toInt) (decide (2 ^ 32 ≤ x.toNat + y.toNat)) ∧
      gives (.opAdc c pre f1 f2) 2 (x.toInt + y.toInt + cy) (decide (2 ^ 32 ≤ x.toNat + y.toNat + cy)) ∧
      gives (.opSub c pre f1 f2) 2 (x.toInt - y.toInt) (decide (x.toNat < y.toNat)) ∧
      gives (.opSbc c pre f1 f2) 2 (x.toInt - y.toInt - cy) (decide (x.toNat < y.toNat + cy)) ∧
      gives (.opNeg c pre f1 f2) 2 (-y.toInt) (decide (y ≠ 0)) ∧
      gives (.opAbs c pre f1 f2) 2 (y.toInt.natAbs : Int) false) ∧
    (Starts s c r [.sat, .cond] pre 6 → f2 = 0 →
      gives (.opAddi c pre f1 f2 imm) 6 (x.toInt + imm.toInt) (decide (2 ^ 32 ≤ x.toNat + imm.toNat))) ∧
    (Starts s c r [.sat, .cond] pre 2 → gives (.opMul c pre f1 f2) 2 (x.toInt * y.toInt) false)

/-- R140: MIN and MAX, single and by lanes; C and V stay. R141: MULHS, in 2 ticks, rounded in the mode of R95. -/
def Obligations.MinMaxMulhs : Prop :=
  ∀ (s : State) (c : Nat) (r : Run) (pre : Fetch) (f1 f2 : BitVec 4),
    let b := s.bankOf c r
    let x := b.getW f1.toNat
    let y := b.getW f2.toNat
    let sat := s.saturates c r pre
    let gives (i : Instr) (v : Word) : Prop := Gives s i c r 1 (s.after c r pre 2)
      (fun b' => WordResult b b' f1.toNat v none none false)
    let e := rnd (s.rounding c r pre) (x.toInt * y.toInt) 31
    (Starts s c r [.lane, .cond] pre 2 →
      ((modsOf pre).lane = false →
        gives (.opMin c pre f1 f2) (if x.toInt ≤ y.toInt then x else y) ∧
        gives (.opMax c pre f1 f2) (if x.toInt ≤ y.toInt then y else x)) ∧
      ((modsOf pre).lane = true →
        gives (.opMin c pre f1 f2) (BitVec.ofInt 16 (min (lane1 x) (lane1 y)) ++ BitVec.ofInt 16 (min (lane0 x) (lane0 y))) ∧
        gives (.opMax c pre f1 f2) (BitVec.ofInt 16 (max (lane1 x) (lane1 y)) ++ BitVec.ofInt 16 (max (lane0 x) (lane0 y))))) ∧
    (Starts s c r [.sat, .rnd, .cond] pre 2 → Gives s (.opMulhs c pre f1 f2) c r 2 (s.after c r pre 2)
      (fun b' => WordResult b b' f1.toNat (fitted 32 sat e) (some false) (some (outside 32 e)) (sat && outside 32 e)))

/-- R95, R140, R143 with LANE: each lane is computed and fitted to 16 bits on its own; the carry enters lane 0 only; C becomes
0 and V says that either lane overflows. -/
def Obligations.LaneArithmetic : Prop :=
  ∀ (s : State) (c : Nat) (r : Run) (pre : Fetch) (f1 f2 : BitVec 4) (k : BitVec 8), (modsOf pre).lane = true →
    let b := s.bankOf c r
    let x := b.getW f1.toNat
    let y := b.getW f2.toNat
    let cy : Int := if b.flag flC then 1 else 0
    let sat := s.saturates c r pre
    let m := s.rounding c r pre
    let gives (i : Instr) (n : Nat) (sat : Bool) (e1 e0 : Int) : Prop := Gives s i c r 1 (s.after c r pre n)
      (fun b' => WordResult b b' f1.toNat (fitted 16 sat e1 ++ fitted 16 sat e0) (some false)
        (some (outside 16 e0 || outside 16 e1)) (sat && (outside 16 e0 || outside 16 e1)))
    (Starts s c r [.sat, .lane, .cond] pre 2 →
      gives (.opAdd c pre f1 f2) 2 sat (lane1 x + lane1 y) (lane0 x + lane0 y) ∧
      gives (.opAdc c pre f1 f2) 2 sat (lane1 x + lane1 y) (lane0 x + lane0 y + cy) ∧
      gives (.opSub c pre f1 f2) 2 sat (lane1 x - lane1 y) (lane0 x - lane0 y) ∧
      gives (.opSbc c pre f1 f2) 2 sat (lane1 x - lane1 y) (lane0 x - lane0 y - cy) ∧
      gives (.opNeg c pre f1 f2) 2 sat (-lane1 y) (-lane0 y) ∧
      gives (.opAbs c pre f1 f2) 2 sat (lane1 y).natAbs (lane0 y).natAbs) ∧
    (Starts s c r [.sat, .lane, .cond] pre 3 → k.toNat ≤ 15 →
      gives (.opShl c pre f1 f2 k) 3 sat (lane1 y * 2 ^ k.toNat) (lane0 y * 2 ^ k.toNat)) ∧
    (Starts s c r [.rnd, .lane, .cond] pre 3 → k.toNat ≤ 15 →
      Gives s (.opSar c pre f1 f2 k) c r 1 (s.after c r pre 3) (fun b' => WordResult b b' f1.toNat
        (BitVec.ofInt 16 (rnd m (lane1 y) k.toNat) ++ BitVec.ofInt 16 (rnd m (lane0 y) k.toNat))
        (some false) (some false) false))

/-- R143 without LANE: the shifts and the rotation by k, with C the last bit shifted out, unchanged for k = 0. -/
def Obligations.Shifts : Prop :=
  ∀ (s : State) (c : Nat) (r : Run) (pre : Fetch) (f1 f2 : BitVec 4) (imm : BitVec 8), imm.toNat ≤ 31 →
    (modsOf pre).lane = false →
    let b := s.bankOf c r
    let y := b.getW f2.toNat
    let k := imm.toNat
    let sat := s.saturates c r pre
    let e := y.toInt * 2 ^ k
    let last (i : Nat) : Option Bool := if k = 0 then none else some (y.getLsbD i)
    let gives (i : Instr) (v : Word) (fc fv : Option Bool) (st : Bool) : Prop := Gives s i c r 1 (s.after c r pre 3)
      (fun b' => WordResult b b' f1.toNat v fc fv st)
    (Starts s c r [.sat, .lane, .cond] pre 3 →
      gives (.opShl c pre f1 f2 imm) (fitted 32 sat e) (last (32 - k)) (some (outside 32 e)) (sat && outside 32 e)) ∧
    (Starts s c r [.rnd, .lane, .cond] pre 3 →
      gives (.opSar c pre f1 f2 imm) (BitVec.ofInt 32 (rnd (s.rounding c r pre) y.toInt k)) (last (k - 1)) (some false) false) ∧
    (Starts s c r [.cond] pre 3 →
      gives (.opShr c pre f1 f2 imm) (y >>> k) (last (k - 1)) none false ∧
      gives (.opRor c pre f1 f2 imm) (y.rotateRight k) (some (y.rotateRight k).msb) none false)

/-- R144: DIVS and DIVU, in 34 ticks, F1 even: the quotient rounded toward zero to W[F1], the remainder to W[F1 + 1], with the
table of the cases that are no exact quotients; a division by zero runs on. -/
def Obligations.Division : Prop :=
  ∀ (s : State) (c : Nat) (r : Run) (pre : Fetch) (f1 f2 : BitVec 4), Starts s c r [.cond] pre 3 →
    f1.toNat % 2 = 0 →
    let b := s.bankOf c r
    let x := b.getW f1.toNat
    let y := b.getW f2.toNat
    let gives (i : Instr) (q m : Word) (v : Bool) : Prop := Gives s i c r 34 (s.after c r pre 3)
      (fun b' => ∃ b1, WordResult b b1 f1.toNat q (some false) (some v) false ∧ b' = b1.setW (f1.toNat + 1) m)
    (y = 0 → gives (.opDivu c pre f1 f2) 0xFFFFFFFF x true) ∧
    (y ≠ 0 → gives (.opDivu c pre f1 f2) (BitVec.ofNat 32 (x.toNat / y.toNat)) (BitVec.ofNat 32 (x.toNat % y.toNat)) false) ∧
    (y = 0 → 0 ≤ x.toInt → gives (.opDivs c pre f1 f2) 0x7FFFFFFF x true) ∧
    (y = 0 → x.toInt < 0 → gives (.opDivs c pre f1 f2) 0x80000000 x true) ∧
    (x = 0x80000000 → y = 0xFFFFFFFF → gives (.opDivs c pre f1 f2) 0x80000000 0 true) ∧
    (y ≠ 0 → ¬(x = 0x80000000 ∧ y = 0xFFFFFFFF) →
      gives (.opDivs c pre f1 f2) (BitVec.ofInt 32 (x.toInt.tdiv y.toInt)) (BitVec.ofInt 32 (x.toInt.tmod y.toInt)) false)

/-- R126: CMP sets Z, N, C and V as a subtraction does and writes no register; CMPEQ to CMPGEU push one bit, with BD at most
15, and change no flag. -/
def Obligations.Compares : Prop :=
  ∀ (s : State) (c : Nat) (r : Run) (pre : Fetch) (f1 f2 : BitVec 4), Starts s c r [.cond] pre 2 →
    let b := s.bankOf c r
    let x := b.getW f1.toNat
    let y := b.getW f2.toNat
    let pushes (i : Instr) (v : Bool) : Prop := Gives s i c r 1 (s.after c r pre 2)
      (fun b' => b' = { b with ba := v :: b.ba })
    (Gives s (.opCmp c pre f1 f2) c r 1 (s.after c r pre 2) (fun b' =>
      b'.flag flZ = decide (x = y) ∧ b'.flag flN = (x - y).msb ∧ b'.flag flC = decide (x.toNat < y.toNat) ∧
      b'.flag flV = outside 32 (x.toInt - y.toInt) ∧ (∀ k, 4 ≤ k → b'.flag k = b.flag k) ∧
      b' = { b with fl := b'.fl })) ∧
    (b.ba.length ≤ 15 →
      pushes (.opCmpeq c pre f1 f2) (decide (x = y)) ∧ pushes (.opCmpne c pre f1 f2) (decide (x ≠ y)) ∧
      pushes (.opCmplt c pre f1 f2) (decide (x.toInt < y.toInt)) ∧
      pushes (.opCmple c pre f1 f2) (decide (x.toInt ≤ y.toInt)) ∧
      pushes (.opCmpgt c pre f1 f2) (decide (y.toInt < x.toInt)) ∧
      pushes (.opCmpge c pre f1 f2) (decide (y.toInt ≤ x.toInt)) ∧
      pushes (.opCmpltu c pre f1 f2) (decide (x.toNat < y.toNat)) ∧
      pushes (.opCmpgeu c pre f1 f2) (decide (y.toNat ≤ x.toNat)))

/-! ## Scan cores: the bit stack and branches -/

/-- R112: ANDB, ORB and XORB combine the top two entries, NOT inverts BT, DUP pushes it, POP drops it; 1 tick each, and no
flag changes. R101, R112, R113: the bit operand is read and, by OUT, SET and RST, written, within 1 tick in an image shadow
and 2 on task data; no flag changes, and no other bit of memory. -/
def Obligations.BitInstructions : Prop :=
  (∀ (s : State) (c : Nat) (r : Run) (pre : Fetch) (x y : Bool) (rest : List Bool), Starts s c r [.cond] pre 1 →
    let b := s.bankOf c r
    let leaves (i : Instr) (l : List Bool) : Prop := Gives s i c r 1 (s.after c r pre 1) (fun b' => b' = { b with ba := l })
    (b.ba = x :: y :: rest → leaves (.opAndb c pre) ((y && x) :: rest) ∧ leaves (.opOrb c pre) ((y || x) :: rest) ∧
      leaves (.opXorb c pre) ((y ^^ x) :: rest)) ∧
    (b.ba = x :: rest → leaves (.opNot c pre) ((!x) :: rest) ∧ leaves (.opPop c pre) rest ∧
      (rest.length ≤ 14 → leaves (.opDup c pre) (x :: x :: rest)))) ∧
  (∀ (s : State) (c : Nat) (r : Run) (pre : Fetch) (a : BitVec 24) (x : Bool) (rest : List Bool),
    Starts s c r [.space, .cond] pre 4 →
    let b := s.bankOf c r
    let byte : Word := (match (modsOf pre).space with
      | some 0 => 0x20000000 | some 1 => 0x20020000 | _ => b.tb) + BitVec.ofNat 32 (a.toNat / 8)
    let old := (s.found c).rdMem c byte 1
    let v := old.testBit (a.toNat % 8)
    let n := if (modsOf pre).space = none then 2 else 1
    let leaves (i : Instr) (l : List Bool) : Prop :=
      Gives s i c r n (s.after c r pre 4) (fun b' => b' = { b with ba := l })
    let writes (i : Instr) (u : Bool) : Prop := ∃ t w, exec i s = .next t ∧
      RetiresStoring s t c r n b (s.after c r pre 4) byte 1 w ∧
      (∀ k, w.testBit k = if k = a.toNat % 8 then u else old.testBit k)
    ((modsOf pre).space = none ∧ regionOf byte = some .data) ∨
      (((modsOf pre).space = some 0 ∨ (modsOf pre).space = some 1) ∧ a.toNat < 2 ^ 20) →
    (b.ba.length ≤ 15 → leaves (.opLd c pre a none) (v :: b.ba) ∧ leaves (.opLdn c pre a none) ((!v) :: b.ba)) ∧
    (b.ba = x :: rest →
      leaves (.opAnd c pre a none) ((x && v) :: rest) ∧ leaves (.opAndn c pre a none) ((x && !v) :: rest) ∧
      leaves (.opOr c pre a none) ((x || v) :: rest) ∧ leaves (.opOrn c pre a none) ((x || !v) :: rest) ∧
      leaves (.opXor c pre a none) ((x ^^ v) :: rest) ∧
      writes (.opOut c pre a none) x ∧ writes (.opSet c pre a none) (v || x) ∧ writes (.opRst c pre a none) (v && !x)))

/-- R127: the branches, 2 ticks each whether or not they branch; none changes a flag. -/
def Obligations.Branches : Prop :=
  ∀ (s : State) (c : Nat) (r : Run) (pre : Fetch) (disp : BitVec 16) (cc x : BitVec 8) (addr : BitVec 24) (v : Bool)
    (rest : List Bool),
    let b := s.bankOf c r
    let next (n : Nat) := s.after c r pre n
    let target (n : Nat) := next n + disp.signExtend 32
    (Starts s c r [.cond] pre 3 → Gives s (.opJmp c pre disp) c r 2 (target 3) (fun b' => b' = b)) ∧
    (Starts s c r [] pre 4 → cc.toNat ≤ 14 → b.test cc.toNat = .ok v →
      Gives s (.opBcc c pre cc disp) c r 2 (if v then target 4 else next 4) (fun b' => b' = b)) ∧
    (Starts s c r [.cond] pre 3 → b.ba = v :: rest →
      Gives s (.opJbt c pre disp) c r 2 (if v then target 3 else next 3) (fun b' => b' = { b with ba := rest }) ∧
      Gives s (.opJbf c pre disp) c r 2 (if v then next 3 else target 3) (fun b' => b' = { b with ba := rest })) ∧
    (Starts s c r [.cond] pre 3 → Gives s (.opCall c pre disp) c r 2 (target 3) (fun b' => b' = b.setW 15 (next 3))) ∧
    (Starts s c r [.cond] pre 1 → Gives s (.opRet c pre) c r 2 (b.getW 15) (fun b' => b' = b)) ∧
    (Starts s c r [.cond] pre 4 → x.toNat ≤ 3 →
      Gives s (.opLoop c pre x disp) c r 2 (if b.getX x.toNat - 1 = 0 then next 4 else target 4)
        (fun b' => b' = b.setX x.toNat (b.getX x.toNat - 1))) ∧
    (Starts s c r [.cond] pre 4 → addr.toNat < 2 ^ 22 →
      Gives s (.opJmpa c pre addr) c r 2 (addr.setWidth 32) (fun b' => b' = b) ∧
      Gives s (.opCalla c pre addr) c r 2 (addr.setWidth 32) (fun b' => b' = b.setW 15 (next 4)))

/-! ## Scan cores: rounding, accumulators and phasors -/

/-- R146, R147: MPY, MAC and MSU: the exact product enters the accumulator through acc(); they accept no SAT, so they
saturate when FL.SD = 1 only. With LANE each half takes the product of its lanes. R148: MACM and MSUM take their factors from
memory at X[p] and X[q], aligned words of local data or an image shadow, and then add 4 to X[p] and X[q], once when p = q.
R96: under REP each repetition does the same; for MACM and MSUM where no load of an X register is still to land. -/
def Obligations.MultiplyAccumulateInstructions : Prop :=
  (∀ (s : State) (c : Nat) (r : Run) (pre : Fetch) (b0 : BitVec 8) (f1 f2 : BitVec 4), b0.toNat < 4 →
    let a := b0.toNat
    let u (b : Bank) := b.getW f1.toNat
    let v (b : Bank) := b.getW f2.toNat
    let single (i : Instr) (e : Bank → Int) : Prop := GivesAll s i c r [.lane, .rep, .cond] pre 3 1 (fun b b' =>
      AccResult b b' a (fitted 72 (b.flag flSd) (e b)) (outside 72 (e b)) (b.flag flSd && outside 72 (e b)))
    let dual (i : Instr) (e1 e0 : Bank → Int) : Prop := GivesAll s i c r [.lane, .rep, .cond] pre 3 1 (fun b b' =>
      AccResult b b' a (fitted 36 (b.flag flSd) (e1 b) ++ fitted 36 (b.flag flSd) (e0 b))
        (outside 36 (e0 b) || outside 36 (e1 b)) (b.flag flSd && (outside 36 (e0 b) || outside 36 (e1 b))))
    ((modsOf pre).lane = false →
      single (.opMpy c pre b0 f1 f2) (fun b => (u b).toInt * (v b).toInt) ∧
      single (.opMac c pre b0 f1 f2) (fun b => (b.getA a).toInt + (u b).toInt * (v b).toInt) ∧
      single (.opMsu c pre b0 f1 f2) (fun b => (b.getA a).toInt - (u b).toInt * (v b).toInt)) ∧
    ((modsOf pre).lane = true →
      dual (.opMpy c pre b0 f1 f2) (fun b => lane1 (u b) * lane1 (v b)) (fun b => lane0 (u b) * lane0 (v b)) ∧
      dual (.opMac c pre b0 f1 f2) (fun b => half1 (b.getA a) + lane1 (u b) * lane1 (v b))
        (fun b => half0 (b.getA a) + lane0 (u b) * lane0 (v b)) ∧
      dual (.opMsu c pre b0 f1 f2) (fun b => half1 (b.getA a) - lane1 (u b) * lane1 (v b))
        (fun b => half0 (b.getA a) - lane0 (u b) * lane0 (v b)))) ∧
  (∀ (s : State) (c : Nat) (r : Run) (pre : Fetch) (b0 : BitVec 8), b0.toNat < 64 →
    let b := s.bankOf c r
    let a := b0.toNat % 4
    let p := b0.toNat / 4 % 4
    let q := b0.toNat / 16 % 4
    let here (x : Word) : Prop := x.toNat % 4 = 0 ∧ (regionOf x = some .data ∨ regionOf x = some .shadow)
    let u (b : Bank) : Word := BitVec.ofNat 32 ((s.found c).rdMem c (b.getX p) 4)
    let v (b : Bank) : Word := BitVec.ofNat 32 ((s.found c).rdMem c (b.getX q) 4)
    let step (b1 b : Bank) : Bank :=
      if p = q then b1.setX p (b.getX p + 4) else (b1.setX p (b.getX p + 4)).setX q (b.getX q + 4)
    let gives (i : Instr) (P : Bank → Bank → Prop) : Prop :=
      (Starts s c r [.lane, .rep, .cond] pre 3 → here (b.getX p) → here (b.getX q) →
        Gives s i c r 1 (s.after c r pre 3) (P b)) ∧
      (∀ k, StartsRep s c r [.lane, .rep, .cond] pre 3 k 1 → (∀ x ∈ b.shadow, x.toX = false) →
        (∀ j, j < k → here (b.getX p + BitVec.ofNat 32 (4 * j)) ∧ here (b.getX q + BitVec.ofNat 32 (4 * j))) →
        GivesRep s i c r 1 k (s.after c r pre 3) P)
    let single (i : Instr) (e : Bank → Int) : Prop := gives i (fun b b' => ∃ b1,
      AccResult b b1 a (fitted 72 (b.flag flSd) (e b)) (outside 72 (e b)) (b.flag flSd && outside 72 (e b)) ∧ b' = step b1 b)
    let dual (i : Instr) (e1 e0 : Bank → Int) : Prop := gives i (fun b b' => ∃ b1,
      AccResult b b1 a (fitted 36 (b.flag flSd) (e1 b) ++ fitted 36 (b.flag flSd) (e0 b))
        (outside 36 (e0 b) || outside 36 (e1 b)) (b.flag flSd && (outside 36 (e0 b) || outside 36 (e1 b))) ∧ b' = step b1 b)
    ((modsOf pre).lane = false →
      single (.opMacm c pre b0 0 0 none) (fun b => (b.getA a).toInt + (u b).toInt * (v b).toInt) ∧
      single (.opMsum c pre b0 0 0 none) (fun b => (b.getA a).toInt - (u b).toInt * (v b).toInt)) ∧
    ((modsOf pre).lane = true →
      dual (.opMacm c pre b0 0 0 none) (fun b => half1 (b.getA a) + lane1 (u b) * lane1 (v b))
        (fun b => half0 (b.getA a) + lane0 (u b) * lane0 (v b)) ∧
      dual (.opMsum c pre b0 0 0 none) (fun b => half1 (b.getA a) - lane1 (u b) * lane1 (v b))
        (fun b => half0 (b.getA a) - lane0 (u b) * lane0 (v b))))

/-- R149: CLRA, ADDA, SUBA and SHA on accumulators, single and by halves. R149: MOVA reduces an accumulator to a word (DIR 0)
or enters a word into an accumulator (DIR 1). -/
def Obligations.AccumulatorInstructions : Prop :=
  (∀ (s : State) (c : Nat) (r : Run) (pre : Fetch) (b0 : BitVec 8),
    let b := s.bankOf c r
    let a := b0.toNat % 4
    let u := b.getA a
    let v := b.getA (b0.toNat / 4 % 4)
    let k := (b0.extractLsb' 2 6).toInt
    let m := s.rounding c r pre
    let shifted (x : Int) : Int := if 0 ≤ k then x * 2 ^ k.toNat else rnd m x (-k).toNat
    let lane := (modsOf pre).lane
    let gives (i : Instr) (sat : Bool) (e e1 e0 : Int) : Prop := Gives s i c r 1 (s.after c r pre 3) (fun b' =>
      if lane then AccResult b b' a (fitted 36 sat e1 ++ fitted 36 sat e0) (outside 36 e0 || outside 36 e1)
        (sat && (outside 36 e0 || outside 36 e1))
      else AccResult b b' a (fitted 72 sat e) (outside 72 e) (sat && outside 72 e))
    (Starts s c r [.cond] pre 3 → b0.toNat < 4 →
      Gives s (.opClra c pre b0 0 0) c r 1 (s.after c r pre 3) (fun b' => AccResult b b' a 0 false false)) ∧
    (Starts s c r [.lane, .cond] pre 3 → b0.toNat < 16 →
      gives (.opAdda c pre b0 0 0) (b.flag flSd) (u.toInt + v.toInt) (half1 u + half1 v) (half0 u + half0 v) ∧
      gives (.opSuba c pre b0 0 0) (b.flag flSd) (u.toInt - v.toInt) (half1 u - half1 v) (half0 u - half0 v)) ∧
    (Starts s c r [.sat, .rnd, .lane, .cond] pre 3 →
      gives (.opSha c pre b0 0 0) (s.saturates c r pre) (shifted u.toInt) (shifted (half1 u)) (shifted (half0 u)))) ∧
  (∀ (s : State) (c : Nat) (r : Run) (pre : Fetch) (b0 : BitVec 8) (f1 : BitVec 4),
    Starts s c r [.sat, .rnd, .lane, .cond] pre 3 → b0.toNat < 8 →
    let b := s.bankOf c r
    let a := b0.toNat % 4
    let u := b.getA a
    let w := b.getW f1.toNat
    let sat := s.saturates c r pre
    let m := s.rounding c r pre
    let e := rnd m u.toInt 31
    let e1 := rnd m (half1 u) 15
    let e0 := rnd m (half0 u) 15
    let gives (P : Bank → Prop) : Prop := Gives s (.opMova c pre b0 f1 0) c r 1 (s.after c r pre 3) P
    (b0.toNat < 4 → (modsOf pre).lane = false →
      gives (fun b' => WordResult b b' f1.toNat (fitted 32 sat e) none none (sat && outside 32 e))) ∧
    (b0.toNat < 4 → (modsOf pre).lane = true →
      gives (fun b' => WordResult b b' f1.toNat (fitted 16 sat e1 ++ fitted 16 sat e0) none none
        (sat && (outside 16 e0 || outside 16 e1)))) ∧
    (4 ≤ b0.toNat → (modsOf pre).lane = false →
      gives (fun b' => AccResult b b' a (BitVec.ofInt 72 (w.toInt * 2 ^ 31)) false false)) ∧
    (4 ≤ b0.toNat → (modsOf pre).lane = true →
      gives (fun b' => AccResult b b' a (BitVec.ofInt 36 (lane1 w * 2 ^ 15) ++ BitVec.ofInt 36 (lane0 w * 2 ^ 15)) false false)))

/-- R150: LDA and STA move an accumulator in raw format (16 bytes, aligned to 8, the bytes 9 to 15 copies of bit 71) and STA
stores it reduced (4 bytes, as MOVA would produce it); MODE 2 adds the size to its X register. -/
def Obligations.AccumulatorLoadsAndStores : Prop :=
  ∀ (s : State) (c : Nat) (r : Run) (pre : Fetch) (m : MAddr),
    let b := s.bankOf c r
    let n := 1 + (bytesM m).length
    let a := (s.cpu0 c r pre n).ea m
    let inc (b1 : Bank) (size : Word) : Bank :=
      if m.mode = 2 then b1.setX m.xsel.toNat (b1.getX m.xsel.toNat + size) else b1
    let raw : Prop := a.toNat % 8 = 0 ∧ 0x10000000 ≤ a.toNat ∧ a.toNat + 16 ≤ 0x10200000
    let reduced : Prop := a.toNat % 4 = 0 ∧ 0x10000000 ≤ a.toNat ∧ a.toNat + 4 ≤ 0x10200000
    let u := b.getA (m.reg.toNat % 4)
    let sat := s.saturates c r pre
    let md := s.rounding c r pre
    let stores (k : Nat) (size v : Nat) (st : Bool) : Prop := m.reg.toNat / 4 = k →
      ∃ t, exec (.opSta c pre m) s = .next t ∧
        RetiresStoring s t c r 2 (inc (if st then b.setFlag flSat true else b) (BitVec.ofNat 32 size)) (s.after c r pre n) a size v
    (Starts s c r [.cond] pre n → raw → Gives s (.opLda c pre m none) c r 2 (s.after c r pre n) (fun b' => ∃ b1,
      AccResult b b1 (m.reg.toNat % 4) (BitVec.ofNat 72 ((s.found c).rdMem c a 9)) false false ∧ b' = inc b1 16)) ∧
    (Starts s c r [.sat, .rnd, .lane, .cond] pre n → raw → stores 0 16 (u.signExtend 128).toNat false) ∧
    (Starts s c r [.sat, .rnd, .lane, .cond] pre n → reduced →
      ((modsOf pre).lane = false → stores 1 4 (fitted 32 sat (rnd md u.toInt 31)).toNat
        (sat && outside 32 (rnd md u.toInt 31))) ∧
      ((modsOf pre).lane = true → stores 1 4 ((fitted 16 sat (rnd md (half1 u) 15) ++ fitted 16 sat (rnd md (half0 u) 15)) : Word).toNat
        (sat && (outside 16 (rnd md (half0 u) 15) || outside 16 (rnd md (half1 u) 15)))))

/-- R152, R154: ROT turns the pair by the angle in W[F1], both results formed from exact products and rounded once; DFT adds
the difference of the two samples, times the cosine and minus the sine, steps the angle, and steps X[p] and X[q], in each
repetition under REP (R96; there where no load of an X register is still to land). Neither changes a flag but SAT and GOV.
R153: MAG writes √(re² + im²) / 2^40, rounded to an integer in the mode of R95, which always fits 32 bits; it changes no
flag and no accumulator, in 18 ticks. -/
def Obligations.RotationDftMagnitude : Prop :=
  (∀ (s : State) (c : Nat) (r : Run) (pre : Fetch) (b0 : BitVec 8) (f1 f2 : BitVec 4),
    let bk := s.bankOf c r
    let a := b0.toNat % 4
    let p := b0.toNat / 4 % 4
    let q := b0.toNat / 16 % 4
    let re (b : Bank) := (b.getA a).toInt
    let im (b : Bank) := (b.getA (a + 1)).toInt
    let m (b : Bank) := (modsOf pre).rnd.getD b.rm
    let cosine (b : Bank) := cosOf (m b) (b.getW f1.toNat)
    let sine (b : Bank) := sinOf (m b) (b.getW f1.toNat)
    let sat (b : Bank) := (modsOf pre).sat || b.flag flSd
    let pair (b b' : Bank) (e f : Int) : Prop :=
      (∀ k, b'.getA k = if k = a then fitted 72 (sat b) e else if k = a + 1 then fitted 72 (sat b) f else b.getA k) ∧
      b'.flag flGov = (b.flag flGov || outside 72 e || outside 72 f) ∧
      b'.flag flSat = (b.flag flSat || (sat b && (outside 72 e || outside 72 f))) ∧
      (∀ k, k ≠ flGov → k ≠ flSat → b'.flag k = b.flag k) ∧
      b'.ba = b.ba ∧ b'.pc = b.pc ∧ b'.tb = b.tb ∧ b'.shadow = b.shadow
    let here (x : Word) : Prop := x.toNat % 4 = 0 ∧ (regionOf x = some .data ∨ regionOf x = some .shadow)
    let d (b : Bank) : Int := (BitVec.ofNat 32 ((s.found c).rdMem c (b.getX p) 4) : Word).toInt -
      (BitVec.ofNat 32 ((s.found c).rdMem c (b.getX q) 4) : Word).toInt
    let dft (b b' : Bank) : Prop := pair b b' (re b + d b * cosine b) (im b - d b * sine b) ∧
      (∀ k, b'.getW k = if k = f1.toNat then b.getW f1.toNat + b.getW f2.toNat else b.getW k) ∧
      (∀ k, b'.getX k = if k = p ∨ k = q then b.getX k + 4 else b.getX k)
    (Starts s c r [.sat, .rnd, .cond] pre 3 → (b0 = 0 ∨ b0 = 2) →
      Gives s (.opRot c pre b0 f1 0) c r 4 (s.after c r pre 3) (fun b' =>
        pair bk b' (rnd (m bk) (re bk * cosine bk - im bk * sine bk) 31)
          (rnd (m bk) (re bk * sine bk + im bk * cosine bk) 31) ∧ b'.w = bk.w ∧ b'.x = bk.x)) ∧
    (b0.toNat < 64 → b0.toNat % 2 = 0 →
      (Starts s c r [.sat, .rnd, .rep, .cond] pre 3 → here (bk.getX p) → here (bk.getX q) →
        Gives s (.opDft c pre b0 f1 f2 none) c r 6 (s.after c r pre 3) (dft bk)) ∧
      (∀ k, StartsRep s c r [.sat, .rnd, .rep, .cond] pre 3 k 6 → (∀ x ∈ bk.shadow, x.toX = false) →
        (∀ j, j < k → here (bk.getX p + BitVec.ofNat 32 (4 * j)) ∧ here (bk.getX q + BitVec.ofNat 32 (4 * j))) →
        GivesRep s (.opDft c pre b0 f1 f2 none) c r 6 k (s.after c r pre 3) dft))) ∧
  (∀ (s : State) (c : Nat) (r : Run) (pre : Fetch) (b0 : BitVec 8) (f1 : BitVec 4),
    Starts s c r [.rnd, .cond] pre 3 → (b0 = 0 ∨ b0 = 2) →
    let b := s.bankOf c r
    let n : Nat := (b.getA b0.toNat).toInt.natAbs ^ 2 + (b.getA (b0.toNat + 1)).toInt.natAbs ^ 2
    ∃ v : Nat, v < 2 ^ 32 ∧
      Gives s (.opMag c pre b0 f1 0) c r 18 (s.after c r pre 3) (fun b' => b' = b.setW f1.toNat (BitVec.ofNat 32 v)) ∧
      match s.rounding c r pre with
      | .rhu => (v = 0 ∨ (2 * v - 1) ^ 2 * 2 ^ 80 ≤ 4 * n) ∧ 4 * n < (2 * v + 1) ^ 2 * 2 ^ 80
      | .rhe => (v = 0 ∨ (2 * v - 1) ^ 2 * 2 ^ 80 ≤ 4 * n) ∧ 4 * n ≤ (2 * v + 1) ^ 2 * 2 ^ 80 ∧
          ((0 < v ∧ (2 * v - 1) ^ 2 * 2 ^ 80 = 4 * n) ∨ 4 * n = (2 * v + 1) ^ 2 * 2 ^ 80 → v % 2 = 0)
      | _ => v ^ 2 * 2 ^ 80 ≤ n ∧ n < (v + 1) ^ 2 * 2 ^ 80)

/-! ## Scan cores: bits and records in memory -/

/-- R118: REDGE and FEDGE replace BT with its edge and keep the record of 8 bytes at TB + t, aligned, in local data. R119:
TON, TOF and TP: START, RUN and Q of the record of 16 bytes at TB + t as the time from START to TC_MONO says; BT becomes Q.
R120: CTU and CTD count rising edges of BT, saturating, and replace BT with Q; CRST resets the count and Q when BT = 1. The
record does not lie in the task context (R116). -/
def Obligations.EdgeDetectorsTimersCounters : Prop :=
  (∀ (s : State) (c : Nat) (r : Run) (pre : Fetch) (t : BitVec 16) (x : Bool) (rest : List Bool),
    Starts s c r [.cond] pre 3 →
    let b := s.bankOf c r
    let a := b.tb + t.setWidth 32
    b.ba = x :: rest → a.toNat % 8 = 0 → 0x10000000 ≤ a.toNat → a.toNat + 8 ≤ 0x10200000 →
    let w : Word := BitVec.ofNat 32 ((s.found c).rdMem c a 4)
    let run : Word := BitVec.ofNat 32 ((s.found c).rdMem c b.tb 4)
    let prev (first : Bool) : Bool :=
      if w.getLsbD 5 then x else if w.getLsbD 3 then w.getLsbD 0 else if w.getLsbD 4 then first else x
    let gives (i : Instr) (q : Bool) : Prop := ∃ u v, exec i s = .next u ∧
      RetiresStoring s u c r 3 { b with ba := q :: rest } (s.after c r pre 3) a 8 (recordOf [v, run]) ∧
      (∀ k, k < 32 → v.getLsbD k = if k = 0 then x else if k = 2 then q else if k = 3 then true
        else if k = 4 ∨ 16 ≤ k then w.getLsbD k else false)
    gives (.opRedge c pre t none) (x && !prev false) ∧ gives (.opFedge c pre t none) (prev true && !x)) ∧
  (∀ (s : State) (c : Nat) (r : Run) (pre : Fetch) (t : BitVec 16) (x : Bool) (rest : List Bool),
    Starts s c r [.cond] pre 3 →
    let b := s.bankOf c r
    let a := b.tb + t.setWidth 32
    b.ba = x :: rest → a.toNat % 16 = 0 → 0x10000000 ≤ a.toNat → a.toNat + 16 ≤ 0x10200000 →
    let word (p : Word) : Nat := (s.found c).rdMem c p 4
    let w : Word := BitVec.ofNat 32 (word (a + 12))
    let start := word a + 2 ^ 32 * word (a + 4)
    let now := word (b.tb + 0x20) + 2 ^ 32 * word (b.tb + 0x24)
    let pt := word (a + 8) * 1000
    let used := w.getLsbD 3
    let in0 (first : Bool) : Bool := if used then w.getLsbD 0 else first
    let run0 := used && w.getLsbD 1
    let q0 := used && w.getLsbD 2
    let gives (i : Instr) (from_ : Nat) (run q : Bool) : Prop := ∃ u v, exec i s = .next u ∧
      RetiresStoring s u c r 6 { b with ba := q :: rest } (s.after c r pre 3) a 16
        (recordOf [BitVec.ofNat 32 from_, BitVec.ofNat 32 (from_ / 2 ^ 32), BitVec.ofNat 32 (word (a + 8)), v]) ∧
      (∀ k, k < 32 → v.getLsbD k = if k = 0 then x else if k = 1 then run else if k = 2 then q else if k = 3 then true
        else if k = 4 ∨ 16 ≤ k then w.getLsbD k else false)
    (if x then
      let f := if in0 false then start else now
      gives (.opTon c pre t none) f (!in0 false || run0) (decide (pt ≤ now - f)) ∧
      gives (.opTof c pre t none) start false true
    else
      let f := if in0 false then now else start
      let runs := in0 false || run0
      let done := runs && decide (pt ≤ now - f)
      gives (.opTon c pre t none) start false false ∧
      gives (.opTof c pre t none) f (runs && !done) (q0 && !done)) ∧
    (let fires := x && !in0 (!w.getLsbD 4 && x) && !run0 && decide (0 < pt)
     let f := if fires then now else start
     let runs := fires || run0
     let done := runs && decide (pt ≤ now - f)
     gives (.opTp c pre t none) f (runs && !done) (if runs then !done else q0))) ∧
  (∀ (s : State) (c : Nat) (r : Run) (pre : Fetch) (t : BitVec 16) (x : Bool) (rest : List Bool),
    Starts s c r [.cond] pre 3 →
    let b := s.bankOf c r
    let a := b.tb + t.setWidth 32
    b.ba = x :: rest → 0x40 ≤ t.toNat → a.toNat % 16 = 0 → 0x10000000 ≤ a.toNat → a.toNat + 16 ≤ 0x10200000 →
    let word (p : Word) : Word := BitVec.ofNat 32 ((s.found c).rdMem c p 4)
    let w := word (a + 8)
    let cv := (word a).toInt
    let pv := (word (a + 4)).toInt
    let counts := x && !(if w.getLsbD 3 then w.getLsbD 0 else !w.getLsbD 4 && x)
    let up := if counts then min (cv + 1) 0x7FFFFFFF else cv
    let down := if counts then max (cv - 1) (-0x80000000) else cv
    let record (u : State) (b' : Bank) (n : Int) (v : Word) : Prop := RetiresStoring s u c r 4 b' (s.after c r pre 3) a 16
      (recordOf [BitVec.ofInt 32 n, word (a + 4), v, word b.tb])
    let gives (i : Instr) (n : Int) (q : Bool) : Prop := ∃ u v, exec i s = .next u ∧
      record u { b with ba := q :: rest } n v ∧
      (∀ k, k < 32 → v.getLsbD k = if k = 0 then x else if k = 2 then q else if k = 3 then true
        else if k = 4 ∨ k = 6 ∨ 16 ≤ k then w.getLsbD k else false)
    gives (.opCtu c pre t none) up (decide (pv ≤ up)) ∧ gives (.opCtd c pre t none) down (decide (down ≤ 0)) ∧
    (∃ u v, exec (.opCrst c pre t none) s = .next u ∧
      record u b (if x then (if w.getLsbD 6 then pv else 0) else cv) v ∧
      (∀ k, k < 32 → v.getLsbD k = if k = 2 then (w.getLsbD 2 && !x)
        else if k = 0 ∨ k = 3 ∨ k = 4 ∨ k = 6 ∨ 16 ≤ k then w.getLsbD k else false)))

/-! ## Scan cores: loads and stores -/

/-- R100, R104, R106, R122: the loads, from every region that holds memory; the destination is written under the load shadow,
and MODE 2 adds the size to its X register at once. R96: under REP, with all addresses in one region, each repetition does
the same. A load of a word from the CSR window reads the register at that offset (R132). -/
def Obligations.Loads : Prop :=
  ∀ (s : State) (c : Nat) (r : Run) (pre : Fetch) (m : MAddr) (g : Region),
    let b := s.bankOf c r
    let n := 1 + (bytesM m).length
    let ea (b : Bank) : Word := { s.cpu0 c r pre n with b := b }.ea m
    let within (b : Bank) : Prop := { s.cpu0 c r pre n with b := b }.inSpace m = true ∧ regionOf (ea b) = some g
    let v (b : Bank) (k : Nat) := (s.found c).rdMem c (ea b) k
    let inc (b : Bank) (size : Word) : Bank :=
      if m.mode = 2 then b.setX m.xsel.toNat (b.getX m.xsel.toNat + size) else b
    let late (b : Bank) (toX : Bool) (reg : Nat) (w : Word) : Bank :=
      { b with shadow := b.shadow ++ [{ toX := toX, reg := reg, value := w, left := 3 }] }
    let cost := if g = .stand then 4 else if g = .nvs then 16 else 1
    let gives (i : Instr) (size : Nat) (toX : Bool) (reg : Nat) (w : Bank → Word) : Prop :=
      let step (b : Bank) : Bank := inc (late b toX reg (w b)) (BitVec.ofNat 32 size)
      (Starts s c r [.space, .rep, .cond] pre n → within b → (ea b).toNat % size = 0 →
        Gives s i c r cost (s.after c r pre n) (fun b' => b' = step b)) ∧
      (∀ (k : Nat) (bs : Nat → Bank), StartsRep s c r [.space, .rep, .cond] pre n k cost → bs 0 = b →
        (∀ j, j < k → within (repBank bs k j) ∧ (ea (repBank bs k j)).toNat % size = 0 ∧ bs (j + 1) = step (repBank bs k j)) →
        ∃ t, exec i s = .next t ∧ RetiresInRegs s t c r (k * cost) (bs k) (s.after c r pre n))
    (g ≠ .csr → (g = .nvs → (s.found c).nvsReady = true) →
      gives (.opLdw c pre m none) 4 false m.reg.toNat (fun b => BitVec.ofNat 32 (v b 4)) ∧
      gives (.opLdh c pre m none) 2 false m.reg.toNat (fun b => BitVec.ofNat 32 (v b 2)) ∧
      gives (.opLdhs c pre m none) 2 false m.reg.toNat (fun b => (BitVec.ofNat 16 (v b 2)).signExtend 32) ∧
      gives (.opLdb c pre m none) 1 false m.reg.toNat (fun b => BitVec.ofNat 32 (v b 1)) ∧
      gives (.opLdx c pre m none) 4 true (m.reg.toNat % 4) (fun b => BitVec.ofNat 32 (v b 4))) ∧
    (∀ k, Starts s c r [.space, .rep, .cond] pre n → within b → g = .csr → (ea b).toNat % 4 = 0 →
      csrTicks ((ea b).toNat - 0x40000000) = some k → 0 < k →
      let read := ((s.found c).charge c r.task k).readReg (.core c r.bank) ((s.dev.core c).time + k) ((ea b).toNat - 0x40000000)
      (∃ t, exec (.opLdw c pre m none) s = .next t ∧
        RetiresOn s t c r read.1 (inc (late b false m.reg.toNat read.2) 4) (s.after c r pre n)) ∧
      (∃ t, exec (.opLdx c pre m none) s = .next t ∧
        RetiresOn s t c r read.1 (inc (late b true (m.reg.toNat % 4) read.2) 4) (s.after c r pre n)))

/-- R100, R122, R123: the stores to local data, an image shadow and the own partition of the stand-shared space; a saturating
STH or STB clips and sets SAT. R96: under REP, with all addresses in one region, each repetition does the same. A store to
NVS writes from 0xB0000 on, and is ignored and counted below it (R362); a store of a word to the CSR window writes the
register at that offset (R132). -/
def Obligations.Stores : Prop :=
  ∀ (s : State) (c : Nat) (r : Run) (pre : Fetch) (m : MAddr) (g : Region),
    let b := s.bankOf c r
    let n := 1 + (bytesM m).length
    let ea (b : Bank) : Word := { s.cpu0 c r pre n with b := b }.ea m
    let within (b : Bank) : Prop := { s.cpu0 c r pre n with b := b }.inSpace m = true ∧ regionOf (ea b) = some g
    let own (b : Bank) : Prop := g = .data ∨ g = .shadow ∨ (g = .stand ∧ (s.found c).ownPartition (ea b) = true)
    let w (b : Bank) := (b.getW m.reg.toNat).toInt
    let sat (b : Bank) := (modsOf pre).sat || b.flag flSd
    let next (b : Bank) (clip : Bool) (size : Nat) : Bank :=
      let b := if clip then b.setFlag flSat true else b
      if m.mode = 2 then b.setX m.xsel.toNat (b.getX m.xsel.toNat + BitVec.ofNat 32 size) else b
    let cost := if g = .stand then 4 else 1
    let d (k : Nat) := (s.found c).charge c r.task k
    let end_ (k : Nat) := (s.dev.core c).time + k
    let gives (i : Instr) (size : Nat) (v : Bank → Nat) (clip : Bank → Bool) : Prop :=
      (Starts s c r [.sat, .space, .rep, .cond] pre n → within b → own b → (ea b).toNat % size = 0 →
        ∃ t, exec i s = .next t ∧
          RetiresStoring s t c r cost (next b (clip b) size) (s.after c r pre n) (ea b) size (v b)) ∧
      (∀ (k : Nat) (bs : Nat → Bank), StartsRep s c r [.sat, .space, .rep, .cond] pre n k cost → bs 0 = b →
        (∀ j, j < k → let b1 := repBank bs k j
          within b1 ∧ own b1 ∧ (ea b1).toNat % size = 0 ∧ bs (j + 1) = next b1 (clip b1) size) →
        ∃ (t : State) (ds : Nat → Dev), exec i s = .next t ∧ ds 0 = s.found c ∧
          (∀ j, j < k → let b1 := repBank bs k j; Stored (ds j) (ds (j + 1)) c (ea b1) size (v b1)) ∧
          Retires s t c r (k * cost) (bs k) (s.after c r pre n) ∧ t.dev.mem = (ds k).mem) ∧
      (Starts s c r [.sat, .space, .rep, .cond] pre n → within b → g = .nvs → (s.found c).nvsReady = true →
        (ea b).toNat % size = 0 →
        let off := (ea b).toNat - 0x50000000
        ∃ t, exec i s = .next t ∧
          RetiresOn s t c r (if off < 0xB0000 then (d 80).nvsRefuse (end_ 80) else (d 80).nvsOp (.bytes off (leBytes (v b) size)))
            (next b (clip b) size) (s.after c r pre n))
    gives (.opStw c pre m) 4 (fun b => (b.getW m.reg.toNat).toNat) (fun _ => false) ∧
    gives (.opSth c pre m) 2 (fun b => (fitted 16 (sat b) (w b)).toNat) (fun b => sat b && outside 16 (w b)) ∧
    gives (.opStb c pre m) 1 (fun b => (fitted 8 (sat b) (w b)).toNat) (fun b => sat b && outside 8 (w b)) ∧
    (∀ k, Starts s c r [.sat, .space, .rep, .cond] pre n → within b → g = .csr → (ea b).toNat % 4 = 0 →
      csrTicks ((ea b).toNat - 0x40000000) = some k → 0 < k →
      let e := (d k).writeReg (.core c r.bank) (end_ k) ((ea b).toNat - 0x40000000) (b.getW m.reg.toNat)
      e.curRun c = some r → ∃ t, exec (.opStw c pre m) s = .next t ∧ RetiresOn s t c r e (next b false 4) (s.after c r pre n))

/-- R98, R125: XCHGM and ADDM on task data, on the own partition of the stand-shared space and on NVS: one indivisible read
and write; W[REG] receives the old word under the load shadow. The write to NVS is that of a store (R362). -/
def Obligations.LockedAccess : Prop :=
  ∀ (s : State) (c : Nat) (r : Run) (pre : Fetch) (m : MAddr),
    let b := s.bankOf c r
    let n := 2 + (bytesM m).length
    let x := s.cpu0 c r pre n
    let a := x.ea m
    let w := b.getW m.reg.toNat
    let old : Word := BitVec.ofNat 32 ((s.found c).rdMem c a 4)
    let inc (b1 : Bank) : Bank := if m.mode = 2 then b1.setX m.xsel.toNat (b1.getX m.xsel.toNat + 4) else b1
    let left : Bank := inc { b with shadow := b.shadow ++ [{ toX := false, reg := m.reg.toNat, value := old, left := 3 }] }
    Starts s c r [.lock, .space, .cond] pre n → (modsOf pre).lock = true → x.inSpace m = true → a.toNat % 4 = 0 →
    let gives (i : Instr) (v : Word) : Prop :=
      (((modsOf pre).space = none ∧ regionOf a = some .data) ∨
          ((modsOf pre).space = some 3 ∧ (s.found c).ownPartition a = true) →
        ∃ t, exec i s = .next t ∧
          RetiresStoring s t c r (if (modsOf pre).space = none then 2 else 8) left (s.after c r pre n) a 4 v.toNat) ∧
      ((modsOf pre).space = some 2 → (s.found c).nvsReady = true →
        let d := (s.found c).charge c r.task 96
        let off := a.toNat - 0x50000000
        ∃ t, exec i s = .next t ∧
          RetiresOn s t c r (if off < 0xB0000 then d.nvsRefuse ((s.dev.core c).time + 96)
            else d.nvsOp (.bytes off (leBytes v.toNat 4))) left (s.after c r pre n))
    gives (.opXchgm c pre m none) w ∧ gives (.opAddm c pre m none) (old + w)

/-! ## Scan cores: registers, queues, events and the end of a run -/

/-- R96, R130 to R136: NOP, with and without REP, CHKIN, EVT, CSRR, CSRW, QPUT and QCOUNT: the effect on the device at the
instruction's end, and the bank; CSRR and QCOUNT write W[r] under the load shadow, QPUT sets C and V only. R323: QPUT pushes
behind the producers before core c, for a full queue counting the pushes that wait for the end of the fabric cycle; QCOUNT
still counts what has been popped in the cycle. -/
def Obligations.DeviceInstructions : Prop :=
  ∀ (s : State) (c : Nat) (r : Run) (pre : Fetch) (imm q w : BitVec 8) (off : BitVec 24) (n : Nat),
    let b := s.bankOf c r
    let d (k : Nat) := (s.found c).charge c r.task k
    let end_ (k : Nat) := (s.dev.core c).time + k
    let gives (i : Instr) (k : Nat) (e : Dev) (b1 : Bank) : Prop :=
      ∃ t, exec i s = .next t ∧ RetiresOn s t c r e b1 (s.after c r pre k)
    let late (b1 : Bank) (reg : Nat) (v : Word) : Bank :=
      { b1 with shadow := b1.shadow ++ [{ toX := false, reg := reg, value := v, left := 3 }] }
    let item : Item :=
      { w0 := b.getW w.toNat, w1 := b.getW (w.toNat + 1), w2 := b.getW (w.toNat + 2), w3 := b.getW (w.toNat + 3) }
    (GivesAll s (.opNop c pre) c r [.rep, .cond] pre 1 1 (fun b b' => b' = b)) ∧
    (Starts s c r [.cond] pre 1 → gives (.opChkin c pre) 1
      (if (d 1).fld (F.TSK_CHKIN_MON r.task) = 0 then d 1
       else (d 1).setFld (F.TSK_CHKIN_CUR r.task) (min 3 ((d 1).fld (F.TSK_CHKIN_CUR r.task) + 1))) b) ∧
    (Starts s c r [.cond] pre 2 → 0xC0 ≤ imm.toNat → gives (.opEvt c pre imm) 2
      (((d 2).raise (end_ 2) imm.toNat).programSoe (end_ 2) imm.toNat r.task) b) ∧
    (Starts s c r [.cond] pre 5 → w.toNat ≤ 15 → off.toNat % 4 = 0 → csrTicks off.toNat = some n → 0 < n →
      (gives (.opCsrr c pre w off) 5 ((d n).readReg (.core c r.bank) (end_ n) off.toNat).1
        (late b w.toNat ((d n).readReg (.core c r.bank) (end_ n) off.toNat).2)) ∧
      (let e := (d n).writeReg (.core c r.bank) (end_ n) off.toNat (b.getW w.toNat)
       e.curRun c = some r → gives (.opCsrw c pre w off) 5 e b)) ∧
    (Starts s c r [.cond] pre 3 → q.toNat ≤ 31 → w.toNat ≤ 12 →
      let taken := (d 10).flag (F.QUE_CFG_TASKP q.toNat) && (d 10).flag (F.QUE_CFG_EN q.toNat) && item.type != 0
      let held := ((d 10).queue q.toNat).length + ((d 10).queues.pushes.filter (fun p => p.queue == q.toNat)).length
      let full := decide ((d 10).queueDepth q.toNat ≤ held)
      gives (.opQput c pre q w) 3 (if taken then (d 10).queuePush (1 + c) q.toNat item else (d 10).queueRefuse)
        ((b.setFlag flC (!taken)).setFlag flV (taken && full))) ∧
    (Starts s c r [.cond] pre 3 → q.toNat ≤ 31 → w.toNat ≤ 15 → gives (.opQcount c pre q w) 3 (d 6)
      (late b w.toNat (BitVec.ofNat 32 (((d 6).queue q.toNat).length + ((d 6).queues.pops.filter (· == q.toNat)).length))))

/-- R58, R109, R110, R129: HALT ends the run with CODE 15: the fault record without an event of the core, the task fault-
stopped, the registers discarded, no memory changed. R44, R51, R53, R129: YIELD ends the logic phase: the words of the task's
output regions go from the output image shadow to the output image, and the run ends. Here the task has no output instant
(R52), is no mirror task (R225), the budget covers the commit (R57), and no READY task preempts the run before it (R55). -/
def Obligations.HaltAndYield : Prop :=
  (∀ (s : State) (c : Nat) (r : Run) (pre : Fetch), Starts s c r [.cond] pre 1 → Plain s c r →
    ∃ t, exec (.opHalt c pre) s = .next t ∧ EndsWith s t c r 15 (s.bankOf c r).pc 0) ∧
  (∀ (s : State) (c : Nat) (r : Run) (pre : Fetch), Starts s c r [.cond] pre 1 → Plain s c r →
    let d := (s.found c).charge c r.task 1
    let words := (d.outRegions r.task).flatMap d.rgnWords
    d.commitTooLong r = false → d.preempting c r = none → d.fld (F.IMG_OINST_MODE r.task) = 0 → d.isMirror c r.task = false →
    (d.task r.task).commit = none →
    ∃ t, exec (.opYield c pre) s = .next t ∧
      (∀ k, Image.rd t.dev.mem.out k =
        if k ∈ words then BitVec.ofNat 64 (Memory.rdLE d.mem.shadow (shadowAddr c true k) 8) else Image.rd d.mem.out k) ∧
      { t.dev.mem with out := d.mem.out } = d.mem ∧
      (t.dev.core c).runs = (s.dev.core c).runs.drop 1 ∧ t.dev.bank c r.bank = {} ∧
      (∀ k, k ≠ r.bank → t.dev.bank c k = s.dev.bank c k) ∧ (∀ e, e ≠ c → t.dev.core e = s.dev.core e) ∧
      t.dev.fld (F.TSK_STATE_ST r.task) = (if d.fld (F.TSK_STATE_ST r.task) = 5 then 5 else if (d.task r.task).live then 1 else 6) ∧
      t.dev.isSafe r.task = false ∧ t.pending = s.pending)

/-- R97: an instruction whose COND is false costs its ticks, counts in the load shadow, and changes nothing else, whichever
instruction it is. -/
def Obligations.ConditionFalse : Prop :=
  ∀ (s : State) (i : Instr) (f : Form) (r : Run), formOf i = some f →
    Reaches s f.core r f.accept f.pre f.own.length → f.legal = true →
    condFalse (modsOf f.pre) (s.bankOf f.core r) = .ok true →
    ∃ t, exec i s = .next t ∧
      RetiresInRegs s t f.core r (f.ticks (s.cpu0 f.core r f.pre f.own.length)) (s.bankOf f.core r)
        (s.after f.core r f.pre f.own.length)

/-- R92, R94, R103, R108 to R110: an instruction that reaches outside local code is FETCH_RANGE, and one with an illegal
operand field or prefix, or a reserved opcode, is ILLEGAL, whichever instruction it is; DETAIL shows its first bytes. R11: an
instruction in whose fetch single-bit errors were corrected runs as without them, in the device whose SYS_ECC has counted
them. R20, R21, R89, R108, R109: the
faults of an operand, each with its CODE and the address as DETAIL: ALIGN, ADDR_UNMAPPED, CSR_UNMAPPED, CSR_DENIED,
CODE_WRITE, SHARED_OWNER and NVS_BUSY of a load or store, ECC_DATA of a load, and BA_UNDERFLOW and BA_OVERFLOW of the bit
stack. -/
def Obligations.InstructionFaults : Prop :=
  (∀ (s : State) (i : Instr) (f : Form) (r : Run), formOf i = some f → Ready s f.core r → Plain s f.core r →
    let bytes := fetchedBytes f.pre f.own
    let pc := (s.bankOf f.core r).pc
    let faults (code : Nat) : Prop := ∃ t v, exec i s = .next t ∧ EndsWith s t f.core r code pc v ∧
      (∀ k, k < 4 → k < bytes.length → pc.toNat + k < 0x400000 → v.extractLsb' (8 * k) 8 = bytes.getD k 0)
    (0x400000 < pc.toNat + bytes.length → faults 1) ∧
    (pc.toNat + bytes.length ≤ 0x400000 → (prefixesOk f.accept f.pre && f.legal) = false → faults 2)) ∧
  (∀ (i : Instr) (f : Form), formOf i = some f → ∃ cost body, ∀ s,
    exec i s = s.onCore f.core (Dev.instr f.core f.accept f.pre f.legal f.own cost body) ∧
    (∀ (d : Dev) (r : Run), d.execRun f.core = some r → d.overrunDue r = false → d.preempting f.core r = none →
      let e := d.eccCounted 0 f.core f.pre.corrected
      Dev.instr f.core f.accept f.pre f.legal f.own cost body d = Dev.instr f.core f.accept (bare f.pre) f.legal f.own cost body e ∧
      e.fld F.SYS_ECC_CORR = min 0xFFFF (d.fld F.SYS_ECC_CORR + f.pre.corrected) ∧
      (0 < f.pre.corrected → e.fld F.SYS_ECC_LASTMEM = 0 ∧ e.fld F.SYS_ECC_LASTCORE = f.core % 8) ∧
      Only d e [] [Reg.SYS_ECC])) ∧
  (∀ (s : State) (c : Nat) (r : Run) (pre : Fetch) (m : MAddr), Plain s c r →
    let b := s.bankOf c r
    let n := 1 + (bytesM m).length
    let x := s.cpu0 c r pre n
    let a := x.ea m
    let csr := a.toNat - 0x40000000
    let faults (i : Instr) (code : Nat) (v : Word) : Prop := ∃ t, exec i s = .next t ∧ EndsWith s t c r code b.pc v
    (Starts s c r [.space, .rep, .cond] pre n →
      (a.toNat % 4 ≠ 0 → faults (.opLdw c pre m none) 3 a ∧ faults (.opStw c pre m) 3 a) ∧
      (a.toNat % 4 = 0 → x.inSpace m = false ∨ regionOf a = none →
        faults (.opLdw c pre m none) 4 a ∧ faults (.opStw c pre m) 4 a) ∧
      (a.toNat % 4 = 0 → x.inSpace m = true →
        (regionOf a = some .csr → csrTicks csr = none → faults (.opLdw c pre m none) 5 a ∧ faults (.opStw c pre m) 5 a) ∧
        (regionOf a = some .csr → csrTicks csr = some 0 → faults (.opLdw c pre m none) 6 a ∧ faults (.opStw c pre m) 6 a) ∧
        (regionOf a = some .code → faults (.opStw c pre m) 7 a) ∧
        (regionOf a = some .stand → (s.found c).ownPartition a = false → faults (.opStw c pre m) 8 a) ∧
        (regionOf a = some .nvs → (s.found c).nvsReady = false →
          faults (.opLdw c pre m none) 9 a ∧ faults (.opStw c pre m) 9 a) ∧
        (regionOf a = some .data ∨ regionOf a = some .shadow ∨ regionOf a = some .stand →
          faults (.opLdw c pre m (some { rep := 0, second := false, double := true })) 10 a))) ∧
    (Starts s c r [.cond] pre 1 →
      (b.ba = [] → faults (.opNot c pre) 11 0 ∧ faults (.opPop c pre) 11 0 ∧ faults (.opDup c pre) 11 0) ∧
      (b.ba.length ≤ 1 → faults (.opAndb c pre) 11 0 ∧ faults (.opOrb c pre) 11 0 ∧ faults (.opXorb c pre) 11 0) ∧
      (b.ba.length = 16 → faults (.opDup c pre) 12 0)))

/-- R104: a load writes its destination at the end of the second instruction that follows it: its own end and the end of the
first leave the register, the end of the second writes it. R89, R97: the conditions of COND and Bcc; a test of BT with an
empty bit accumulator is BA_UNDERFLOW. R138: rnd(v, k) in the four modes, from q = ⌊v / 2^k⌋, r = v − q × 2^k and h = 2^(k −
1); for k = 0 the result is v. -/
def Obligations.ShadowConditionsRounding : Prop :=
  (∀ (b b1 b2 : Bank) (toX : Bool) (reg : Nat) (v : Word), b.shadow = [] →
    let b0 := (b.defer toX reg v).land
    (∀ k, b0.getW k = b.getW k ∧ b0.getX k = b.getX k) ∧
    (b1.shadow = b0.shadow → (∀ k, b1.land.getW k = b1.getW k ∧ b1.land.getX k = b1.getX k) ∧
      (b2.shadow = b1.land.shadow → b2.land.shadow = [] ∧
        (∀ k, b2.land.getW k = if toX = false ∧ k = reg then v else b2.getW k) ∧
        (∀ k, b2.land.getX k = if toX = true ∧ k = reg then v else b2.getX k)))) ∧
  (∀ (b : Bank) (z n c v x : Bool) (rest : List Bool), b.flag flZ = z → b.flag flN = n → b.flag flC = c → b.flag flV = v →
    b.test 0 = .ok z ∧ b.test 1 = .ok (!z) ∧ b.test 2 = .ok (n ^^ v) ∧ b.test 3 = .ok (!(n ^^ v)) ∧
    b.test 4 = .ok (!z && !(n ^^ v)) ∧ b.test 5 = .ok (z || (n ^^ v)) ∧ b.test 6 = .ok c ∧ b.test 7 = .ok (!c) ∧
    b.test 8 = .ok n ∧ b.test 9 = .ok (!n) ∧ b.test 10 = .ok v ∧ b.test 11 = .ok (!v) ∧
    (b.ba = x :: rest → b.test 12 = .ok x ∧ b.test 13 = .ok (!x)) ∧
    (b.ba = [] → b.test 12 = .error (11, 0) ∧ b.test 13 = .error (11, 0)) ∧ b.test 14 = .ok (b.flag flSat)) ∧
  (∀ (m : Rounding) (v q r : Int) (k : Nat), rnd m v 0 = v ∧
    (1 ≤ k → v = q * 2 ^ k + r → 0 ≤ r → r < 2 ^ k →
      rnd .trn v k = q ∧
      rnd .rhu v k = (if 2 ^ (k - 1) ≤ r then q + 1 else q) ∧
      rnd .rhe v k = (if 2 ^ (k - 1) < r ∨ (r = 2 ^ (k - 1) ∧ q % 2 = 1) then q + 1 else q) ∧
      rnd .rtz v k = (if v < 0 ∧ r ≠ 0 then q + 1 else q)))

/-! ## Tasks -/

/-- R38, R39, R41, R42, R46: PERIODIC_RELEASE at the next point of the timeline or of the grid of a running periodic task: the
release becomes READY with its context of R46; it is pending and LATE while the task is busy; it is dropped, counted and
raised while one is pending. -/
def Obligations.PeriodicReleases : Prop :=
  ∀ (s : State) (task : BitVec 6),
    let n := task.toNat
    (s.dev.awake = true → (s.dev.task n).live = true → s.dev.kind n = 0 →
      Does s (.periodicRelease task) (max s.mono (s.dev.periodicDue n)) (fun d e =>
        let r : Release := if d.flag (F.TSK_CFG_TBASE n) then
            { d.releaseAt (d.periodicDue n) with station := (d.stationPoint n).1, tladj := (d.stationPoint n).2.2 }
          else d.releaseAt (d.periodicDue n)
        (e.task n).next = d.periodicDue n + d.period n * 1000 ∧ (e.task n).since = none ∧
        (d.flag (F.TSK_CFG_TBASE n) = false → d.periodicDue n = (d.task n).next) ∧
        (d.flag (F.TSK_CFG_TBASE n) = true → (d.stationPoint n).1 % d.periodNs n = d.phaseNs n % d.periodNs n) ∧
        (d.busy n = false → (d.task n).pend = none → IsReady e n r) ∧
        (d.busy n = true → (d.task n).pend = none →
          (e.task n).ready = (d.task n).ready ∧ e.fld (F.TSK_STATE_PEND n) = 1 ∧
          (e.task n).pend = some { r with late := true }) ∧
        ((d.task n).pend.isSome = true →
          (e.task n).pend = (d.task n).pend ∧ (e.task n).ready = (d.task n).ready ∧
          (e.task n).skips = (d.task n).skips + 1 ∧ e.fld (F.TSK_STATE_SKIP n) = 1 ∧
          e.fld (F.TSK_STATE_SKIPCNT n) = min 255 (d.fld (F.TSK_STATE_SKIPCNT n) + 1) ∧ Raised d e n) ∧
        TasksBut d e [n] ∧
        Only d e [.tasks, .msix] (releaseRegs n ++ raiseRegs n)))

/-- R75, R76, R41, R42: ANGLE_RELEASE at the next point of an angle-bound task, which joins a catch-up queue that is not
empty; EVENT_TASK_RELEASE 8 ticks after the source of an event task; MIN_INTERVAL_EXPIRY, HELD_RELEASE_DISPATCH and
CATCHUP_RELEASE of what has waited. Where nothing of the task is due, the command changes nothing. That an event release
which finds an earlier one READY, its interval passed, is pending is the model's choice (assumption 79). -/
def Obligations.TaskReleases : Prop :=
  ∀ (s : State) (task : BitVec 6),
    let n := task.toNat
    s.dev.awake = true →
    ((s.dev.task n).live = true → s.dev.kind n = 1 →
      Does s (.angleRelease task) (max s.mono (s.dev.whenU s.mono (s.dev.task n).nextU)) (fun d e =>
        let r := d.pointRelease (d.whenU s.mono (d.task n).nextU) (d.task n).nextU
        (e.task n).nextU = d.nextAngle n (d.task n).nextU ∧
        ((d.task n).catchup = [] → d.busy n = false → (d.task n).pend = none → IsReady e n r) ∧
        ((d.task n).catchup = [] → d.busy n = true → (d.task n).pend = none → (e.task n).pend = some { r with late := true }) ∧
        ((d.task n).catchup = [] → (d.task n).pend.isSome = true →
          (e.task n).pend = (d.task n).pend ∧ (e.task n).skips = (d.task n).skips + 1 ∧ Raised d e n) ∧
        ((d.task n).catchup ≠ [] → (d.task n).catchup.length < 256 →
          (e.task n).catchup = (d.task n).catchup ++ [{ r with late := true }] ∧ (e.task n).ready = (d.task n).ready) ∧
        ((d.task n).catchup ≠ [] → 256 ≤ (d.task n).catchup.length →
          (e.task n).catchup = (d.task n).catchup ∧ (e.task n).skips = (d.task n).skips + 1 ∧ Raised d e n ∧ Raised d e 86) ∧
        TasksBut d e [n] ∧
        Only d e [.tasks, .msix] (Reg.ANG_STAT :: releaseRegs n ++ raiseRegs n ++ raiseRegs 86))) ∧
    (∀ m l, (s.dev.task n).arrivals = m :: l →
      Does s (.eventTaskRelease task) (max s.mono m) (fun d e =>
        l <+: (e.task n).arrivals ∧
        ((d.task n).live = true → d.kind n = 2 → d.inRun n = false → (d.task n).held = none → (d.task n).pend = none →
          (d.notBefore n ≤ m → (d.task n).ready = none → IsReady e n (d.releaseAt m)) ∧
          (m < d.notBefore n → (e.task n).held = some (d.notBefore n) ∧ (e.task n).ready = (d.task n).ready ∧
            e.fld (F.TSK_STATE_PEND n) = 1)) ∧
        ((d.task n).live = true → d.kind n = 2 → (d.task n).pend = none →
          (d.inRun n = true ∨ (d.task n).held.isSome = true ∨ (d.notBefore n ≤ m ∧ (d.task n).ready.isSome = true)) →
          (e.task n).pend = some { d.releaseAt m with late := true } ∧ (e.task n).ready = (d.task n).ready ∧
          (e.task n).held = (d.task n).held ∧ e.fld (F.TSK_STATE_PEND n) = 1) ∧
        ((d.task n).live = false ∨ d.kind n ≠ 2 → (e.task n).ready = (d.task n).ready ∧ (e.task n).pend = (d.task n).pend ∧
          (e.task n).held = (d.task n).held) ∧
        ((d.task n).live = true → d.kind n = 2 → (d.task n).pend.isSome = true →
          (e.task n).pend = (d.task n).pend ∧ (e.task n).skips = (d.task n).skips + 1 ∧
          e.fld (F.TSK_STATE_SKIP n) = 1 ∧ Raised d e n) ∧
        TasksBut d e [n] ∧ Only d e [.tasks, .msix] (releaseRegs n ++ raiseRegs n))) ∧
    (∀ m, (s.dev.task n).held = some m →
      Does s (.minIntervalExpiry task) (max s.mono m) (fun d e =>
        if d.busy n then Only d e [] []
        else IsReady e n { d.releaseAt m with late := true } ∧ (e.task n).held = none ∧
          e.fld (F.TSK_STATE_PEND n) = (if (d.task n).pend.isSome then 1 else 0) ∧
          TasksBut d e [n] ∧ Only d e [.tasks, .msix] (releaseRegs n))) ∧
    (∀ r, (s.dev.task n).pend = some r → s.dev.busy n = false → (s.dev.task n).held = none →
      Does s (.heldReleaseDispatch task) (max s.mono (s.dev.notBefore n)) (fun d e =>
        IsReady e n (if d.kind n = 2 then { d.releaseAt (max s.mono (d.notBefore n)) with late := true } else r) ∧
        (e.task n).pend = none ∧ e.fld (F.TSK_STATE_PEND n) = 0 ∧
        TasksBut d e [n] ∧ Only d e [.tasks, .msix] (releaseRegs n))) ∧
    (∀ r l, (s.dev.task n).catchup = r :: l → s.dev.busy n = false → (s.dev.task n).pend = none →
      Does s (.catchupRelease task) s.mono (fun d e =>
        IsReady e n r ∧ (e.task n).catchup = l ∧ Raised d e 84 ∧
        (e.rd Reg.ANG_LATECNT).toNat = min 0xFFFFFFFF ((d.rd Reg.ANG_LATECNT).toNat + 1) ∧
        TasksBut d e [n] ∧ Only d e [.tasks, .msix] (Reg.ANG_LATECNT :: Reg.ANG_STAT :: releaseRegs n ++ raiseRegs 84))) ∧
    ((s.dev.task n).live = false ∨ s.dev.kind n ≠ 0 → exec (.periodicRelease task) s = .next s) ∧
    ((s.dev.task n).live = false ∨ s.dev.kind n ≠ 1 → exec (.angleRelease task) s = .next s) ∧
    ((s.dev.task n).arrivals = [] → exec (.eventTaskRelease task) s = .next s) ∧
    ((s.dev.task n).held = none → exec (.minIntervalExpiry task) s = .next s) ∧
    (s.dev.pendFree n = false → exec (.heldReleaseDispatch task) s = .next s) ∧
    (s.dev.catchFree n = false → exec (.catchupRelease task) s = .next s)

/-- R44 to R49, R54 to R56: DISPATCH takes the READY task of the highest priority that has been released when the idle core
can take it, for 16 ticks before the latch; PREEMPT_DISPATCH takes a READY task of a higher priority and a strictly lower
bank above the run that the core holds, for 28 ticks; a READY task that may preempt the new run by then does so before its
latch. Where none is left above a run that was preempted, that run resumes in its logic for 12 ticks charged to the run that
has ended. R191, R192: a carry-over runs before the latch; a double-bit error in it is ECC_DATA. -/
def Obligations.Dispatches : Prop :=
  ∀ (s : State) (core : BitVec 3) (ecc : Option Nat),
    let c := core.toNat
    let f := s.found c
    let run (p : Nat × Release) (st : Stage) : Run :=
      { task := p.1, bank := f.fld (F.TSK_CFG_BANK p.1), rel := p.2, stage := st }
    let first (p : Nat × Release) (t : Nat) : Prop :=
      ∀ q ∈ f.readyTasks c, q.1 ≠ p.1 → q.2.mono ≤ t → f.above q.1 (run p .latch) = false
    let parts : List Part := [.cores, .tasks, .data, .shadow, .images, .hsb, .io]
    s.dev.awake = true →
    ((f.core c).runs = [] → ∀ n r t, f.idleChoice c = some (n, r, t) → Sparse.get (fun _ => none) s.dev.xch.switchAt n = none →
      (f.carryOf n = none → first (n, r) (t + 16) → DoesOn s (.dispatch core ecc) c (fun d e => Dispatched d e c n r t 16 ∧
        Only d e parts [Reg.TSK_STATE n, Reg.TSK_USED n, Reg.IMG_GEN])) ∧
      (f.carryOf n = none → ¬ first (n, r) (t + 16) → DoesOn s (.dispatch core ecc) c (fun d e =>
        (e.core c).runs = [run (n, r) .latch] ∧ (e.core c).time = t + 16 ∧ (e.task n).ready = none ∧
        e.fld (F.TSK_STATE_ST n) = 3 ∧ e.mem.shadow = d.mem.shadow ∧ e.mem.gens = d.mem.gens)) ∧
      (∀ k, f.carryOf n = some k → first (n, r) (t + 16 + k.cost) →
        (ecc.any (fun i => decide (i < k.entries.length)) = false → DoesOn s (.dispatch core ecc) c (fun d e =>
          (e.core c).runs = [run (n, r) .logic] ∧ (e.core c).time = t + 16 + k.cost + 24 + d.wIn n + d.wPre n ∧
          e.fld (F.TSK_STATE_ST n) = 3 ∧ e.carryOf n = none)) ∧
        (∀ i x, ecc = some i → k.entries[i]? = some x → s.dev.modeChange = none → DoesOn s (.dispatch core ecc) c (fun d e =>
          (e.core c).runs = [] ∧ e.fld (F.TSK_CFLT0_CODE c) = 10 ∧ e.fld (F.TSK_CFLT0_TASK c) = n ∧
          e.rd (Reg.TSK_CFLT2 c) = BitVec.ofNat 32 (0x10000000 + (k.src + x.oldOff) % 0x200000) ∧
          e.fld (F.TSK_STATE_ST n) = 5 ∧ e.fld (F.TSK_STATE_HALTED n) = 1 ∧ e.carryOf n = none ∧
          Raised d e n ∧ Raised d e (64 + c))))) ∧
    ((f.core c).runs = [] → f.idleChoice c = none → DoesOn s (.dispatch core ecc) c (fun d e => Only d e [] [])) ∧
    (∀ r l, (f.core c).runs = r :: l → r.task < 64 → r.stage = .logic → ((f.core c).waiting = none → r.sync = false) →
      (∀ p, f.preempting c r = some p → Sparse.get (fun _ => none) s.dev.xch.switchAt p.1 = none → f.carryOf p.1 = none →
        first p ((f.core c).time + 28) →
        DoesOn s (.preemptDispatch core ecc) c (fun d e => Dispatched d e c p.1 p.2 (d.core c).time 28 ∧
          e.fld (F.TSK_STATE_ST r.task) = 4 ∧
          Only d e parts [Reg.TSK_STATE p.1, Reg.TSK_STATE r.task, Reg.TSK_USED p.1, Reg.IMG_GEN])) ∧
      (∀ n, f.preempting c r = none → (f.core c).waiting = some n → f.takesOver c r = false →
        DoesOn s (.preemptDispatch core ecc) c (fun d e => (e.core c).runs = r :: l ∧ (e.core c).waiting = none ∧
          (e.core c).time = (d.core c).time + 12 ∧ e.fld (F.TSK_STATE_ST r.task) = 3 ∧
          (e.rd (Reg.TSK_USED n)).toNat = min 0xFFFFFFFF ((d.rd (Reg.TSK_USED n)).toNat + 12) ∧
          (∀ k, e.bank c k = d.bank c k) ∧ (∀ k, k ≠ c → e.core k = d.core k) ∧
          Only d e [.cores] [Reg.TSK_STATE r.task, Reg.TSK_USED n])) ∧
      (f.preempting c r = none → (f.core c).waiting = none →
        DoesOn s (.preemptDispatch core ecc) c (fun d e => Only d e [] [])))

/-- R47, R51 to R53, R56 to R58, R62 to R64, R306, R307: BUDGET_OVERRUN under each policy of TSK_CFG.OVR; OUTPUT_INSTANT of a
commit that waits; GENERATION_CLOSE, with which the sample sets that are due enter the input image; TASK_ACK_ALL and
TASK_MAX_CLEAR; and KEY_PATTERN_CHANGE to the pattern shown, to an invalid one and to that of another mode. -/
def Obligations.RunEndsAndModes : Prop :=
  ∀ (s : State) (core : BitVec 3) (task : BitVec 6) (q : Requester) (dt : Nat) (key : BitVec 3),
    let c := core.toNat
    let n := task.toNat
    s.dev.awake = true →
    (∀ r, (s.found c).execRun c = some r → Plain s c r → r.task < 64 → (s.found c).overrunDue r = true →
      DoesOn s (.budgetOverrun core) c (fun d e =>
        e.fld (F.TSK_STATE_OVR r.task) = 1 ∧ e.fld (F.TSK_STATE_OVRCNT r.task) = min 255 (d.fld (F.TSK_STATE_OVRCNT r.task) + 1) ∧
        Raised d e r.task ∧
        (d.fld (F.TSK_CFG_OVR r.task) = 1 → (e.core c).runs = { r with overrun := true } :: (d.core c).runs.drop 1 ∧
          (∀ k, e.bank c k = d.bank c k) ∧ e.fld (F.TSK_STATE_ST r.task) = d.fld (F.TSK_STATE_ST r.task)) ∧
        (d.fld (F.TSK_CFG_OVR r.task) ≠ 1 → (e.core c).runs = (d.core c).runs.drop 1 ∧ e.bank c r.bank = {} ∧
          (∀ k, k ≠ r.bank → e.bank c k = d.bank c k) ∧
          (e.task r.task).runs = (d.task r.task).runs + 1 ∧
          (d.fld (F.TSK_STATE_ST r.task) ≠ 5 → e.fld (F.TSK_STATE_ST r.task) = if (d.task r.task).live then 1 else 6)) ∧
        (2 ≤ d.fld (F.TSK_CFG_OVR r.task) → (e.task r.task).commit = none ∧
          (d.outRegions r.task ≠ [] → e.isSafe r.task = true)) ∧
        (d.fld (F.TSK_CFG_OVR r.task) ≤ 1 → e.isSafe r.task = d.isSafe r.task ∧ (e.task r.task).commit = (d.task r.task).commit) ∧
        (∀ k, k ≠ c → e.core k = d.core k) ∧ TasksBut d e [r.task] ∧
        Only d e [.cores, .tasks, .msix] ((d.core c).runs.flatMap (fun x => [Reg.TSK_STATE x.task]) ++
          [Reg.TSK_USED r.task, Reg.IMG_SAFEMASK0 + 4 * (r.task / 32)] ++ raiseRegs r.task))) ∧
    (∀ w, (s.dev.task n).commit = some w →
      Does s (.outputInstant task) (match w.due with | .time m => max s.mono m | .angle u => max s.mono (s.dev.whenU s.mono u))
        (fun d e => e.mem.out = w.words.foldl (fun m p => Image.wr m p.1 p.2) d.mem.out ∧
          (e.task n).commit = none ∧ (e.task n).effective = w.words ∧ e.isSafe n = false ∧
          TasksBut d e [n] ∧
          Only d e [.tasks, .images, .net, .can, .msix, .csr] [] ∧ e.mem.gens = d.mem.gens ∧ e.mem.inCur = d.mem.inCur ∧
          e.mem.inNext = d.mem.inNext)) ∧
    ((s.dev.task n).commit = none → exec (.outputInstant task) s = .next s) ∧
    Does s .generationClose (max s.mono ((s.dev.mem.gens + 1) * 1000)) (fun d e =>
      let end_ := (d.mem.gens + 1) * 1000
      let due := d.io.sets.filter (fun x => Nat.ble x.due end_)
      e.mem.gens = d.mem.gens + 1 ∧ e.rd Reg.IMG_GEN = d.rd Reg.IMG_GEN + 1 ∧ e.mem.inCur = e.mem.inNext ∧
      (∀ k, k < 7 → Image.rd e.mem.inCur (0x10 + k) = (d.angleWords ((d.mem.gens + 1) * 1000)).getD k 0) ∧
      (∀ k, k < d.binaryWords.length → k < 16 → Image.rd e.mem.inCur k = d.binaryWords.getD k 0) ∧
      (∀ k, 0x17 ≤ k → Image.rd e.mem.inCur k = Image.rd (due.foldl Image.enterSet d.mem.inNext) k) ∧
      e.io.still = { d.io.still with sets := d.io.sets.filter (fun x => !(Nat.ble x.due end_)) } ∧
      e.mem.out = d.mem.out ∧ Only d e [.images, .io] [Reg.IMG_GEN]) ∧
    (Writes s q Reg.TSK_GCTL →
      Does s (.taskAckAll q) s.mono (fun d e =>
        (∀ k, k < 64 → e.fld (F.TSK_STATE_OVR k) = 0 ∧ e.fld (F.TSK_STATE_SKIP k) = 0 ∧ e.fld (F.TSK_STATE_OUTLATE k) = 0 ∧
          e.fld (F.TSK_STATE_ST k) = d.fld (F.TSK_STATE_ST k) ∧ e.fld (F.TSK_STATE_OVRCNT k) = d.fld (F.TSK_STATE_OVRCNT k)) ∧
        Only d e [] ((List.range 64).map Reg.TSK_STATE)) ∧
      Does s (.taskMaxClear q task) s.mono (fun d e => e.task n = { d.task n with maxUsed := 0 } ∧
        (∀ k, k ≠ n → e.task k = d.task k) ∧ Only d e [.tasks] [])) ∧
    (key.toNat = s.dev.fld F.SYS_MODE_KEY → Does s (.keyPatternChange dt key) (s.mono + dt) (fun d e =>
      e.keyPin = key ∧ e.modeChange = d.modeChange ∧ Only d e [.modes] [])) ∧
    (key.toNat ≠ s.dev.fld F.SYS_MODE_KEY → Mode.ofKey key.toNat = none → Does s (.keyPatternChange dt key) (s.mono + dt) (fun d e =>
      e.keyPin = key ∧ e.modeChange = d.modeChange ∧ e.fld F.SYS_MODE_KEY = key.toNat ∧ e.fld F.SYS_MODE_KEYBAD = 1 ∧
      e.fld F.SYS_MODE_KEYBADCNT = min 65535 (d.fld F.SYS_MODE_KEYBADCNT + 1) ∧ e.mode = d.mode ∧ Raised d e 150 ∧
      TasksBut d e [] ∧ Only d e [.modes, .tasks, .msix] ([Reg.SYS_MODE, Reg.SUP_EVT] ++ raiseRegs 150))) ∧
    (∀ m, Mode.ofKey key.toNat = some m → key.toNat ≠ s.dev.fld F.SYS_MODE_KEY →
      (s.dev.phase ≠ .ready → Does s (.keyPatternChange dt key) (s.mono + dt) (fun d e =>
        e.keyPin = key ∧ e.modeChange = d.modeChange ∧ e.mode = m ∧ e.fld F.SYS_MODE_KEY = key.toNat ∧ e.fld F.SYS_MODE_KEYBAD = 0 ∧
        Only d e [.modes] [Reg.SYS_MODE])) ∧
      (s.dev.phase = .ready → s.dev.modeChange = none → m ≠ s.dev.mode → 
        Does s (.keyPatternChange dt key) (s.mono + dt) (fun d e =>
          e.keyPin = key ∧ e.fld F.SYS_MODE_KEY = key.toNat ∧ e.fld F.SYS_MODE_KEYBAD = 0 ∧
          e.fld F.SYS_MODE_TARGET = m.code ∧
          ((List.range 64).filter d.inRun = [] → e.mode = m ∧ e.fld F.SYS_MODE_PEND = 0 ∧ e.modeChange = none ∧
            (∀ k, k < 64 → d.enabled k = true → m.runs = false → (e.task k).live = false ∧ (e.task k).ready = none ∧
              e.fld (F.TSK_STATE_ST k) = 6)) ∧
          ((List.range 64).filter d.inRun ≠ [] → e.mode = d.mode ∧ e.fld F.SYS_MODE_PEND = 1 ∧
            e.modeChange = some { target := m, waiting := (List.range 64).filter d.inRun }) ∧
          (∀ k, k < 64 → d.inRun k = false → m.runs = true → d.mode ≠ .program → d.startable k = true → (d.task k).live = false →
            (e.task k).live = true ∧ (e.task k).first = true ∧ e.fld (F.TSK_STATE_ST k) = 1) ∧
          Only d e [.csr, .tasks, .modes, .msix, .hsb, .xch, .plane, .nvs, .flash, .loading] [])))

/-! ## Transit -/

/-- R68 to R74, R78, R84: the angle tracker: MERIDIAN, REFERENCE_LOSS, REFERENCE_QUALIFIED, HOLDOVER_EXPIRY, PHASE_COMPARISON,
ANG_SRC_WRITE, ANG_COMP_WRITE, ANGLE_JUMP and STEP_FLAG_CLEAR. A comparison whose frequency, level or edges fail a condition of
R70 makes the reference invalid. Of these only a jump changes U at its instant. -/
def Obligations.AngleTracker : Prop :=
  ∀ (s : State) (q : Requester) (v : Word) (dt : Nat) (out : Bool) (phase freq rms : Word) (freq' : Option Word)
    (raw : List (BitVec 24)),
    let t := s.mono + dt
    let regs := [Reg.ANG_STATE, Reg.ANG_STAT] ++ raiseRegs 80
    let lossRegs := Reg.ANG_LOSSCNT :: regs ++ raiseRegs 82 ++ raiseRegs 83
    let lost (d e : Dev) (out : Bool) : Prop :=
      e.ang.valid = false ∧ e.angRocof = 0 ∧
      (d.ang.valid = true → e.ang.freq = none ∧
        (e.rd Reg.ANG_LOSSCNT).toNat = min 0xFFFFFFFF ((d.rd Reg.ANG_LOSSCNT).toNat + 1) ∧
        Raised d e 82 ∧ (out = true → Raised d e 83) ∧
        (d.angState ≠ 1 → e.angState = d.angState ∧ e.ang.gen = d.ang.gen) ∧
        (d.angState = 1 → d.fld F.ANG_HOLD_HOLDMS ≠ 0 → e.angState = 2 ∧ e.ang.gen = .rate d.holdRate ∧ e.ang.holdFrom = t) ∧
        (d.angState = 1 → d.fld F.ANG_HOLD_HOLDMS = 0 → e.angState = 3 ∧ e.ang.gen = .synth) ∧
        (d.angState = 1 → Raised d e 80)) ∧
      (d.ang.valid = false → e.angState = d.angState ∧ e.ang.gen = d.ang.gen) ∧ e.U t = d.U t
    let good (d : Dev) (f : Option Word) : Prop := freqBad (d.cycleFreqAt t f) = false ∧ d.levelBad t rms = false
    let bad (d : Dev) (f : Option Word) : Bool := freqBad (d.cycleFreqAt t f)
    let measured (d e : Dev) (f : Option Word) : Prop :=
      e.ang.valid = true ∧ e.ang.freq = d.cycleFreqAt t f ∧ e.ang.dev = d.compPhase phase - d.angle t ∧
      e.ang.lastPhase = some (d.compPhase phase) ∧ (d.fld F.ANG_SRC_KIND = 3 → e.ang.lastEdge = some t)
    let corrected (e : Dev) (n : Nat) : Prop :=
      (∀ x, e.ang.freq = some x → e.ang.gen = .rate x.toNat) ∧
      (e.slewable e.ang.dev.toInt = true → e.ang.slew = e.ang.dev.toInt ∧ e.ang.confirm = 0) ∧
      (e.slewable e.ang.dev.toInt = false → e.ang.slew = 0 ∧ e.ang.confirm = n + 1 ∧ e.ang.jumpSize = e.ang.dev.toInt)
    s.dev.awake = true →
    Does s .meridian (max s.mono (s.dev.whenU s.mono ((s.dev.U s.mono / 2 ^ 32 + 1) * 2 ^ 32))) (fun d e => Only d e [] []) ∧
    (s.dev.ang.valid = false → Does s (.referenceLoss dt out) t (fun d e => Only d e [] [])) ∧
    (s.dev.ang.valid = true → Does s (.referenceLoss dt out) t (fun d e =>
      lost d e out ∧ TasksBut d e [] ∧ Only d e [.ang, .tasks, .msix] lossRegs)) ∧
    (s.dev.refExists = false →
      Does s (.referenceQualified dt phase ⟨freq, rms⟩) t (fun d e => Only d e [] []) ∧
      Does s (.phaseComparison dt phase freq' rms) t (fun d e => Only d e [] [])) ∧
    (s.dev.refExists = true →
      Does s (.referenceQualified dt phase ⟨freq, rms⟩) t (fun d e =>
        (good d (some freq) → measured d e (some freq) ∧ e.U t = d.U t ∧
          (d.angState = 0 ∨ d.angState = 2 → e.angState = 1 ∧ corrected e 0 ∧ Raised d e 80) ∧
          (d.angState = 3 → e.angState = 0 ∧ Raised d e 80) ∧ (d.angState = 1 → e.angState = 1)) ∧
        (¬ good d (some freq) → lost d e (bad d (some freq))) ∧
        TasksBut d e [] ∧ Only d e [.ang, .tasks, .msix] (lossRegs ++ raiseRegs 85)) ∧
      Does s (.phaseComparison dt phase freq' rms) t (fun d e =>
        (good d freq' → measured d e freq' ∧ e.U t = d.U t ∧
          e.angState = (if d.angState = 3 then 0 else d.angState) ∧ (d.angState = 1 → corrected e d.ang.confirm)) ∧
        (¬ good d freq' → lost d e (bad d freq')) ∧
        TasksBut d e [] ∧ Only d e [.ang, .tasks, .msix] (lossRegs ++ raiseRegs 85))) ∧
    (s.dev.angState = 2 →
      Does s .holdoverExpiry (max s.mono (s.dev.ang.holdFrom + min 2000 (s.dev.fld F.ANG_HOLD_HOLDMS) * 1000000)) (fun d e =>
        e.angState = 3 ∧ e.ang.gen = .synth ∧ Raised d e 80 ∧ TasksBut d e [] ∧
        Only d e [.ang, .tasks, .msix] regs)) ∧
    (s.dev.angState ≠ 2 → exec .holdoverExpiry s = .next s) ∧
    (Writes s q Reg.ANG_SRC → Does s (.angSrcWrite q v) s.mono (fun d e =>
      e.rd Reg.ANG_SRC = v &&& 0xF1F03 ∧ e.angState = (if e.fld F.ANG_SRC_KIND = 0 then 3 else 0) ∧ e.ang.gen = .synth ∧
      (e.rd Reg.ANG_SRC ≠ d.rd Reg.ANG_SRC → e.ang.valid = false ∧ (d.ang.valid = true →
        (e.rd Reg.ANG_LOSSCNT).toNat = min 0xFFFFFFFF ((d.rd Reg.ANG_LOSSCNT).toNat + 1) ∧ Raised d e 82)) ∧
      (e.fld F.ANG_SRC_KIND = 1 → 24 ≤ e.fld F.ANG_SRC_CH → Raised d e 87) ∧ e.U s.mono = d.U s.mono ∧
      TasksBut d e [] ∧ Only d e [.ang, .tasks, .msix] (Reg.ANG_SRC :: lossRegs ++ raiseRegs 87))) ∧
    (Writes s q Reg.ANG_COMP → Does s (.angCompWrite q v) s.mono (fun d e =>
      let delta := v - d.rd Reg.ANG_COMP
      let left : Int := ((if d.ang.confirm = 0 then BitVec.ofInt 32 (d.angSlewLeft s.mono) else BitVec.ofInt 32 d.ang.jumpSize) + delta).toInt
      e.rd Reg.ANG_COMP = v ∧ e.ang.valid = d.ang.valid ∧
      (d.ang.valid = true → e.ang.dev = d.ang.dev + delta) ∧
      (d.ang.valid = true → d.angState = 1 → delta ≠ 0 →
        (d.slewable left = true → e.ang.slew = left ∧ e.ang.confirm = 0) ∧
        (d.slewable left = false → e.ang.slew = 0 ∧ e.ang.confirm = d.ang.confirm ∧ e.ang.jumpSize = left)) ∧
      (d.ang.valid = false → e.ang = d.ang) ∧ e.U s.mono = d.U s.mono ∧ Only d e [.ang] [Reg.ANG_COMP])) ∧
    (let u := max s.mono (s.dev.ang.confirmAt.getD 0)
     (s.dev.jumpReady u = true → s.dev.slewable s.dev.ang.jumpSize = false → Does s (.angleJump raw) u (fun d e =>
        e.U u = d.U u + d.ang.jumpSize ∧
        e.ang.stepU = some (e.U u) ∧ e.ang.confirm = 0 ∧ e.ang.confirmAt = none ∧
        e.ang.slew = 0 ∧ e.rd Reg.ANG_LASTSTEP = BitVec.ofInt 32 d.ang.jumpSize ∧
        (e.rd Reg.ANG_STEPCNT).toNat = min 0xFFFFFFFF ((d.rd Reg.ANG_STEPCNT).toNat + 1) ∧
        e.rd Reg.ANG_STEPMONO = BitVec.ofNat 32 u ∧
        e.fld F.ANG_SSTAT_NVLEFT = d.alRate ∧ Raised d e 81 ∧
        Only d e [.ang, .tasks, .images, .io, .net, .can, .msix, .csr] [])) ∧
     (s.dev.jumpReady u = true → s.dev.slewable s.dev.ang.jumpSize = true → Does s (.angleJump raw) u (fun d e =>
        e.U u = d.U u ∧ e.ang.slew = d.ang.jumpSize ∧ e.ang.confirm = 0 ∧ e.ang.confirmAt = none ∧ Only d e [.ang] [])) ∧
     (s.dev.jumpReady u = false → Does s (.angleJump raw) u (fun d e => Only d e [] []))) ∧
    (∀ u, s.dev.ang.stepU = some u → Does s .stepFlagClear (max s.mono (s.dev.whenU s.mono (u + 2 ^ 32))) (fun d e =>
      e.ang = { d.ang with stepU := none } ∧ Only d e [.ang] [])) ∧
    (s.dev.ang.stepU = none → exec .stepFlagClear s = .next s)

/-- R80, R81, R83, R304 to R307: ANGLE_SAMPLE_SET and TIME_SAMPLE_SET: the next set of its kind is produced at its point or
instant, with its count, its words, and the samples calibrated; it enters the input image 168 µs later (assumption 104); a
raw code at a limit sets its bit of ADC_OVR; and the next point, or the next sample of station time that has not been
produced, follows. Image.enterSet: a set that enters takes slot 0 of its window, every older set of the window moves one slot
down, the word of its kind shows its COUNT, and no other word of the image changes. -/
def Obligations.SampleSets : Prop :=
  (∀ (s : State) (raw : List (BitVec 24)), s.dev.awake = true →
    let samples (d : Dev) : List (BitVec 24) := (List.range 24).map (fun c => d.calibrate c (raw.getD c 0))
    let clipped (d : Dev) (c : Nat) : Bool := d.chEnabled c && atLimit (raw.getD c 0)
    let clips (d : Dev) : Nat := (List.range 24).foldl (fun x c => x + b2n (clipped d c) * 2 ^ c) 0
    let limits (d e : Dev) : Prop := (∀ c, c < 24 → e.bit Reg.ADC_OVR c = (d.bit Reg.ADC_OVR c || clipped d c)) ∧
      ((∃ c, c < 24 ∧ d.bit Reg.ADC_OVR c = false ∧ clipped d c = true) → e.pendingSrc 141 = true ∧ e.bit Reg.ADC_STAT 9 = true) ∧
      TasksBut d e []
    let regs := [Reg.ADC_OVR, Reg.ADC_STAT] ++ raiseRegs 141
    Does s (.angleSampleSet raw) (max s.mono (s.dev.whenU s.mono (s.dev.pointU s.dev.ang.nextPoint))) (fun d e =>
      let t := max s.mono (d.whenU s.mono (d.pointU d.ang.nextPoint))
      e.ang = { d.ang with nextPoint := d.ang.nextPoint + 1 } ∧
      e.fld F.ANG_SSTAT_NVLEFT = d.fld F.ANG_SSTAT_NVLEFT - 1 ∧
      e.io.still = { d.io.still with alCount := d.io.alCount + 1, sets := d.io.sets ++ [{
        due := t + 168000, angle := true, count := d.io.alCount + 1,
        words := setWords (BitVec.ofInt 32 (d.pointU d.ang.nextPoint)) (d.io.alCount + 1) (d.tnsWord t)
          (d.flag F.ANG_SSTAT_NVLEFT) false d.angState (d.ang.nextPoint % d.alRate).toNat (d.station t / 1000000000)
          (samples d) (d.fld F.ADC_FAULT_FAULT) (clips d) }] } ∧
      limits d e ∧ Only d e [.ang, .io, .tasks, .msix] (Reg.ANG_SSTAT :: regs)) ∧
    Does s (.timeSampleSet raw) (max s.mono (s.dev.whenStation s.mono s.dev.tlDue)) (fun d e =>
      let t := max s.mono (d.whenStation s.mono d.tlDue)
      let k := d.ang.tlSecond * d.tlRate + d.ang.tlNext
      let k' := e.ang.tlSecond * d.tlRate + e.ang.tlNext
      e.ang = { d.ang with tlSecond := e.ang.tlSecond, tlNext := e.ang.tlNext, tlMade := joinMade k d.ang.tlMade } ∧
      e.ang.tlNext < d.tlRate ∧ k < k' ∧ (∀ p ∈ e.ang.tlMade, ¬ (p.1 ≤ k' ∧ k' ≤ p.2)) ∧
      ((∀ p ∈ d.ang.tlMade, p.2 ≤ k) → k' = k + 1) ∧
      e.io.still = { d.io.still with tlCount := d.io.tlCount + 1, sets := d.io.sets ++ [{
        due := t + 168000, angle := false, count := d.io.tlCount + 1,
        words := setWords (d.angle t) (d.io.tlCount + 1) (d.tnsWord t) false false d.angState d.ang.tlNext
          (d.station t / 1000000000) (samples d) (d.fld F.ADC_FAULT_FAULT) (clips d) }] } ∧
      limits d e ∧ Only d e [.ang, .io, .tasks, .msix] regs)) ∧
  (∀ (im : Image) (x : SampleSet) (k : Nat), Image.wf im = true → x.words.length = 16 →
    let lo := if x.angle then 0x110 else 0x910
    let hi := if x.angle then 0x910 else 0xF10
    let at_ := if x.angle then 0x100 else 0x101
    Image.rd (im.enterSet x) k =
      if k = at_ then BitVec.ofNat 64 (x.count.toNat * 2 ^ 32)
      else if lo ≤ k ∧ k < lo + 16 then x.words.getD (k - lo) 0
      else if lo + 16 ≤ k ∧ k < hi then Image.rd im (k - 16) else Image.rd im k)

/-! ## Fast rung plane -/

/-- R155 to R163, R168, R173, R175, R176: a sweep of a plane that goes on as it is: the capture, the groups evaluated over it,
the changes of fast outputs with the ends of their ticks, the timers of the table and the image; a change of F as it comes:
its bit, its SOE entry and source 77; the stop on a double-bit error that the sweep before met; the result of a rung and of
a group end. -/
def Obligations.FastRungSweep : Prop :=
  ∀ (s : State) (ecc : Ecc) (rung : BitVec 12) (cap : BitVec 4096) (mk : BitVec 1024) (l : BitVec 13) (r : Rung) (res : Bool)
    (dev : Dev) (m k t : Nat) (v : Bool) (rest : List (Nat × Nat × Bool)),
    let b := max s.mono (s.dev.nextBoundary s.mono)
    let a := l.toNat % 4096
    (s.dev.awake = true → s.dev.plane.swapDue = none → s.dev.plane.ded = none →
      (s.dev.fld F.FRP_STAT_PLANE = 3 ∨ s.dev.fld F.FRP_STAT_PLANE = s.dev.planeWanted) →
      Does s (.sweep ecc rung) b (fun d e =>
        let x := (d.flushPads b).evaluate (d.flushPads b).external
        e.plane = { d.plane with
          active := x.table, markers := x.markers, before := d.plane.image,
          image := withMarkers (d.flushPads b).external x.markers, last := some b,
          ded := if ecc = .double then some rung.toNat else none } ∧
        e.fastOut = d.fastOut ∧ e.outs.fPipe = x.changes.map (fun c => (b + c.1 + 1, c.2.1, c.2.2)) ∧
        (ecc = .corrected → e.fld F.SYS_ECC_LASTMEM = 5 ∧ e.fld F.SYS_ECC_CORR = min 65535 (d.fld F.SYS_ECC_CORR + 1)) ∧
        TasksBut d e [] ∧
        Only d e [.plane, .tasks, .msix] ((List.range 8).map Reg.FRP_WATCH ++
          [Reg.FRP_STAT, Reg.SYS_ECC] ++ raiseRegs 75))) ∧
    (∀ i, i < 4096 → s.dev.awake = true → s.dev.plane.swapDue = none → s.dev.plane.ded = some i →
      s.dev.fld F.FRP_STAT_PLANE ≠ 3 →
      Does s (.sweep .clean rung) b (fun d e =>
        e.fld F.FRP_STAT_PLANE = 3 ∧ e.fld F.FRP_ECCERR_RUNG = i ∧ e.fld F.FRP_ECCERR_VALID = 1 ∧ Raised d e 76 ∧
        Raised d e 74 ∧ e.plane.ded = none ∧ e.plane.markers = 0 ∧ e.plane.active = d.plane.active ∧ e.fastOut = 0 ∧
        e.fastOwn = 0 ∧ TasksBut d e [] ∧
        Only d e [.plane, .tasks, .msix] ((List.range 8).map Reg.FRP_WATCH ++
          [Reg.FRP_STAT, Reg.FRP_ECCERR, Reg.FRP_FOOWN0, Reg.FRP_FOOWN1, Reg.FRP_FO0, Reg.FRP_FO1] ++
          (List.range 4).map Reg.FRP_OMODE ++ raiseRegs 74 ++ raiseRegs 75 ++ raiseRegs 76))) ∧
    (k < 64 → dev.outs.fPipe = (m, k, v) :: rest → m ≤ t →
      let d := { dev with outs := { dev.outs with fPipe := rest } }
      let e := d.setF m k v
      dev.flushF t = e.flushF t ∧ (∀ j, j < 64 → e.fastOut.getLsbD j = if j = k then v else d.fastOut.getLsbD j) ∧
        e.bit Reg.FRP_STAT 13 = true ∧ Raised d e 77 ∧
        (d.flag F.BIO_CTL_SOEEN = true → d.flag F.QUE_STAT_FROZEN = false → ∃ w, e.queues.pushes = (d.soe m 2 k (b2n v) 0).queues.pushes ∧
          w ∈ e.queues.pushes ∧ w.queue = 0 ∧ w.rank = 0 ∧ bitsOf w.item.w0.toNat 11 0 = k ∧ bitsOf w.item.w0.toNat 15 12 = 2 ∧
          w.item.w0.getLsbD 16 = v) ∧
        TasksBut d e [] ∧
        Only d e [.tasks, .msix, .queues] ([Reg.FRP_FO0, Reg.FRP_FO1, Reg.FRP_STAT] ++ soeRegs ++ raiseRegs 77)) ∧
    litVal cap mk l.toNat = ((if a = 0xFFF then false else if 0x400 ≤ a ∧ a < 0x800 then mk.getLsbD (a - 0x400) else cap.getLsbD a)
      ^^ l.getLsbD 12) ∧
    (r.tmode = 0 → groupResult r res = (res, r.elapsed)) ∧
    (r.tmode = 1 → res = false → groupResult r res = (false, 0)) ∧
    (r.tmode = 1 → res = true →
      groupResult r res = (decide (r.preset ≤ r.elapsed), if r.elapsed < r.preset then r.elapsed + 1 else r.elapsed)) ∧
    (r.tmode = 2 → res = true → groupResult r res = (true, 0)) ∧
    (r.tmode = 2 → res = false → r.tq = true → r.elapsed < r.preset → groupResult r res = (true, r.elapsed + 1)) ∧
    (r.tmode = 2 → res = false → (r.tq = false ∨ r.preset ≤ r.elapsed) → groupResult r res = (false, 0))

/-- R6, R158, R171, R172, R176, R194: FRP_TABLE_WRITE, FRP_ACTIVATE, FRP_CHECK_DONE, FRP_SWAP of a table without rung carry,
FRP_SNAPSHOT and FRP_SNAPSHOT_DONE: what each changes, when it is refused, and that the last three without their cause
change nothing. -/
def Obligations.FastRungTables : Prop :=
  ∀ (s : State) (q : Requester) (rung : BitVec 12) (word : BitVec 2) (v : Word) (dt : Nat) (ecc : Ecc),
    let i := rung.toNat
    let w := word.toNat
    (Writes s q (0x100000 + 16 * i + 4 * w) →
      Does s (.frpTableWrite q rung word v) s.mono (fun d e =>
        (d.progOk q = true → d.flag F.FRP_TBLCTL_BUSY = false → d.xst = 0 → w ≠ 3 →
          (∀ k, k < 4 → (rungAt e.plane.shadow i).extractLsb' (32 * k) 32 =
            if k = w then (if w = 2 then v &&& 0x7FFFFFFF else v) else (rungAt d.plane.shadow i).extractLsb' (32 * k) 32) ∧
          (∀ j, j ≠ i → rungAt e.plane.shadow j = rungAt d.plane.shadow j) ∧ e.plane.active = d.plane.active ∧
          Only d e [.plane] []) ∧
        (d.progOk q = true → d.flag F.FRP_TBLCTL_BUSY = false → d.xst = 0 → w = 3 → Only d e [] []) ∧
        ((d.progOk q = false ∨ d.flag F.FRP_TBLCTL_BUSY = true ∨ d.xst ≠ 0) →
          e.fld F.FRP_STAT_WPROT = 1 ∧ Only d e [] [Reg.FRP_STAT]))) ∧
    (Writes s q Reg.FRP_TBLCTL →
      Does s (.frpActivate q) s.mono (fun d e =>
        (d.progOk q = true → d.flag F.FRP_TBLCTL_BUSY = false → d.xst = 0 →
          e.fld F.FRP_TBLCTL_BUSY = 1 ∧ e.plane = { d.plane with checkEnd := some (s.mono + 40000) } ∧
          Only d e [.plane] [Reg.FRP_TBLCTL]) ∧
        ((d.progOk q = false ∨ d.flag F.FRP_TBLCTL_BUSY = true ∨ d.xst ≠ 0) →
          e.fld F.FRP_STAT_WPROT = 1 ∧ Only d e [] [Reg.FRP_STAT]))) ∧
    (s.dev.awake = true → ∀ m, s.dev.plane.checkEnd = some m →
      Does s (.frpCheckDone ⟨dt, ecc, rung⟩) (max s.mono (min (s.mono + dt) m)) (fun d e =>
        let found := checkTable d.plane.shadow (if ecc = .double then some i else none)
        e.fld F.FRP_TBLCTL_BUSY = 0 ∧ e.plane.checkEnd = none ∧ e.plane.shadow = d.plane.shadow ∧
        (found = none → e.fld F.FRP_CHK_CODE = 0 ∧ e.fld F.FRP_CHK_RUNG = 0 ∧
          e.plane.swapDue = some (max s.mono (min (s.mono + dt) m))) ∧
        (ecc = .corrected → e.fld F.SYS_ECC_LASTMEM = 5 ∧ e.fld F.SYS_ECC_CORR = min 65535 (d.fld F.SYS_ECC_CORR + 1)) ∧
        (∀ p, found = some p → e.fld F.FRP_CHK_CODE = p.2 % 16 ∧
          e.fld F.FRP_CHK_RUNG = p.1 % 4096 ∧ e.plane.swapDue = d.plane.swapDue ∧ Raised d e 72) ∧
        TasksBut d e [] ∧
        Only d e [.plane, .tasks, .msix] ([Reg.FRP_TBLCTL, Reg.FRP_CHK, Reg.FRP_STAT, Reg.SYS_ECC] ++ raiseRegs 72))) ∧
    (s.dev.plane.checkEnd = none → exec (.frpCheckDone ⟨dt, ecc, rung⟩) s = .next s) ∧
    (s.dev.awake = true → s.dev.plane.ded = none → ∀ m, s.dev.plane.swapDue = some m →
      Does s .frpSwap (max s.mono (s.dev.nextBoundary (max s.mono (m + 1)))) (fun d e =>
        e.plane.shadow = d.plane.active ∧ e.plane.swapDue = none ∧ e.plane.carry = [] ∧ e.plane.byExchange = false ∧
        (tableWf d.plane.shadow = true → d.plane.carry = [] →
          rungAt e.plane.active i = if rungAt d.plane.shadow i = 0 then 0 else
            if (rungAt d.plane.active i).config = (rungAt d.plane.shadow i).config then
              (rungAt d.plane.shadow i).withState (rungAt d.plane.active i).elapsed (rungAt d.plane.active i).tq
                ((rungAt d.plane.active i).getLsbD 121)
            else (rungAt d.plane.shadow i).withState 0 false false) ∧
        e.fld F.FRP_TBLCTL_ACTCOPY = 1 - d.fld F.FRP_TBLCTL_ACTCOPY ∧
        e.rd Reg.FRP_SWAPCNT = d.rd Reg.FRP_SWAPCNT + 1 ∧ Raised d e 73 ∧
        e.fld F.FRP_STAT_PLANE = (if d.fld F.FRP_STAT_PLANE = 3 ∧ d.plane.byExchange = false then 0 else d.fld F.FRP_STAT_PLANE) ∧
        TasksBut d e [] ∧
        Only d e [.plane, .tasks, .msix] ([Reg.FRP_TBLCTL, Reg.FRP_SWAPCNT, Reg.FRP_STAT, Reg.FRP_FOOWN0, Reg.FRP_FOOWN1,
          Reg.FRP_FO0, Reg.FRP_FO1] ++ (List.range 4).map Reg.FRP_OMODE ++ raiseRegs 73 ++ raiseRegs 74))) ∧
    (s.dev.plane.swapDue = none → exec .frpSwap s = .next s) ∧
    (Writes s q Reg.FRP_SNAPCTL → Does s (.frpSnapshot q) s.mono (fun d e =>
      e.fld F.FRP_SNAPCTL_BUSY = 1 ∧ Only d e [] [Reg.FRP_SNAPCTL])) ∧
    (s.dev.awake = true → s.dev.flag F.FRP_SNAPCTL_BUSY = true →
      Does s .frpSnapshotDone ((s.mono / 64 + 1) * 64) (fun d e =>
        (∀ k, k < 128 → e.rd (Reg.FRP_SNAP k) = (d.imageDone ((s.mono / 64 + 1) * 64)).extractLsb' (32 * k) 32) ∧
        e.rd Reg.FRP_SNAPSW = BitVec.ofNat 32 (s.mono / 64) ∧ e.fld F.FRP_SNAPCTL_BUSY = 0 ∧
        Only d e [] ([Reg.FRP_SNAPCTL, Reg.FRP_SNAPSW] ++ (List.range 128).map Reg.FRP_SNAP))) ∧
    (s.dev.flag F.FRP_SNAPCTL_BUSY = false → exec .frpSnapshotDone s = .next s)

/-! ## Online exchange -/

/-- R180, R187, R188, R196 to R199: the commands of XCH_CMD and the end of the staging check. A wrong key changes nothing; a
command in a wrong state or mode is refused with RESULT 8 and source 169. R185, R188: the end of STAGE in a device outside a
pair: with a failed check of codes 1 to 8 or 10, with code 9 after the region entries and the rung table are written, and
with success. -/
def Obligations.ExchangeCommands : Prop :=
  ∀ (s : State) (q : Requester) (key : BitVec 16),
    let t := s.mono
    let refused (d e : Dev) : Prop := e.fld F.XCH_STAT_RESULT = 8 ∧ e.xst = d.xst ∧ Raised d e 169 ∧ TasksBut d e [] ∧
      Only d e [.tasks, .msix] (Reg.XCH_STAT :: raiseRegs 169)
    let open_ (d : Dev) : Prop := d.mode = .remote ∨ d.mode = .program
    let drops (d : Dev) : List Nat := d.xch.regions.map Reg.IMG_RGN
    (Writes s q Reg.XCH_CMD → key ≠ 0xE8C6 →
      Does s (.xchStage q key) t (fun d e => Only d e [] []) ∧ Does s (.xchArm q key) t (fun d e => Only d e [] []) ∧
      Does s (.xchCancel q key) t (fun d e => Only d e [] []) ∧ Does s (.xchConfirm q key) t (fun d e => Only d e [] []) ∧
      Does s (.xchRevert q key) t (fun d e => Only d e [] [])) ∧
    (Writes s q Reg.XCH_CMD → key = 0xE8C6 →
      Does s (.xchStage q key) t (fun d e =>
        ((d.xst = 0 ∨ d.xst = 1) ∧ open_ d → e.xst = 5 ∧
          e.xch.stageEnd = some (t + (d.descCounts d.descOffset).cost) ∧ e.xch.cls = Requester.cls q ∧ e.xch.regions = [] ∧
          TasksBut d e [] ∧
          Only d e [.xch, .tasks, .msix] ([Reg.XCH_STAT, Reg.XCH_PAIR] ++ drops d ++ raiseRegs 171)) ∧
        (¬((d.xst = 0 ∨ d.xst = 1) ∧ open_ d) → refused d e)) ∧
      Does s (.xchArm q key) t (fun d e =>
        (d.xst = 1 → open_ d → d.pairReady = true → e.xst = 2 ∧
          e.xch = { d.xch with btmo := some (t + max 1 (d.fld F.XCH_CFG_BTMO) * 10000000) } ∧
          Only d e [.xch] [Reg.XCH_STAT, Reg.XCH_PAIR]) ∧
        (d.xst = 1 → open_ d → d.pairReady = false → e.xst = 1 ∧ e.fld F.XCH_STAT_RESULT = 10 ∧ Raised d e 169 ∧
          TasksBut d e [] ∧ Only d e [.tasks, .msix] (Reg.XCH_STAT :: raiseRegs 169)) ∧
        (¬(d.xst = 1 ∧ open_ d) → refused d e)) ∧
      Does s (.xchCancel q key) t (fun d e =>
        (d.xst = 1 → e.xst = 0 ∧ e.fld F.XCH_STAT_RESULT = 9 ∧ e.rd Reg.XCH_OTHERVER = 0 ∧ e.xch.tasks = [] ∧
          Only d e [.xch] ([Reg.XCH_STAT, Reg.XCH_OTHERVER] ++ drops d)) ∧
        (d.xst = 2 → e.xst = 1 ∧ e.fld F.XCH_STAT_RESULT = 9 ∧ e.xch = { d.xch with btmo := none } ∧
          Only d e [.xch] [Reg.XCH_STAT]) ∧
        (d.xst ≠ 1 → d.xst ≠ 2 → refused d e)) ∧
      Does s (.xchConfirm q key) t (fun d e =>
        (d.xst = 3 → d.mode ≠ .run → e.xst = 0 ∧ e.fld F.XCH_STAT_RESULT = 2 ∧ e.rd Reg.XCH_OTHERVER = 0 ∧
          e.xch.winEnd = none ∧ e.rd Reg.XCH_RUNVER = d.rd Reg.XCH_RUNVER ∧
          (e.comp 3).active.program.map (fun p => (p.version, p.code, p.data)) =
            some (d.rd Reg.XCH_RUNVER, d.mem.code, d.mem.data) ∧
          TasksBut d e [] ∧
          Only d e [.xch, .nvs, .flash, .tasks, .msix] ([Reg.XCH_STAT, Reg.XCH_OTHERVER, Reg.XCH_PAIR] ++
            (List.range 256).map Reg.IMG_RGN ++ raiseRegs 171)) ∧
        (¬(d.xst = 3 ∧ d.mode ≠ .run) → refused d e)) ∧
      Does s (.xchRevert q key) t (fun d e =>
        (d.xst = 3 → d.mode ≠ .run → e.xst = 4 ∧
          e.xch = { d.xch with cls := Requester.cls q, expired := false, winEnd := none } ∧ Only d e [.xch] [Reg.XCH_STAT]) ∧
        (¬(d.xst = 3 ∧ d.mode ≠ .run) → refused d e))) ∧
    (s.dev.awake = true → s.dev.flag F.HSB_CFG_EN = false → ∀ m, s.dev.xch.stageEnd = some m →
      Does s .xchStageDone (max t m) (fun d e =>
        let o := d.descOffset
        let x := d.readDesc o d.xch.cls
        let c := d.descCounts o
        let table := checkTable (d.stagedRungs (rungTableAt o (d.stg (o + 0x38)) c.nrung)) none
        let costs := ∀ n, n < 64 → e.rd (Reg.XCH_CCOST n) = BitVec.ofNat 32 (mapCost x.fwd n)
        e.xch.stageEnd = none ∧
        (∀ f, d.checkDesc o x = some f → e.xst = 0 ∧ e.fld F.XCH_STAT_RESULT = 6 ∧
          e.rd Reg.XCH_CHK = BitVec.ofNat 32 (f.1 + f.2.1 * 2 ^ 4 + f.2.2 * 2 ^ 16) ∧ Raised d e 169 ∧
          ((f.1 = 7 ∨ f.1 = 8) → costs)) ∧
        (d.checkDesc o x = none → c.frp = true → ∀ p, table = some p → e.xst = 0 ∧ e.fld F.XCH_STAT_RESULT = 6 ∧
          e.rd Reg.XCH_CHK = BitVec.ofNat 32 (9 + 6 * 2 ^ 4 + p.1 * 2 ^ 16) ∧ Raised d e 169 ∧ Raised d e 72 ∧ costs ∧
          e.fld F.FRP_CHK_CODE = p.2 % 16 ∧ e.fld F.FRP_CHK_RUNG = p.1 % 4096 ∧
          (∀ k, k ∈ x.regions → k < 256 → e.fld (F.IMG_RGN_VALID k) = 0)) ∧
        (d.checkDesc o x = none → (c.frp = false ∨ table = none) → e.xst = 1 ∧ e.fld F.XCH_STAT_RESULT = 12 ∧ e.rd Reg.XCH_CHK = 0 ∧
          e.xch = { x with stageEnd := none } ∧ e.rd Reg.XCH_OTHERVER = x.newVer ∧
          e.rd Reg.XCH_TMASK0 = Memory.rd32 d.mem.staging (d.descOffset + 0x10) ∧
          e.rd Reg.XCH_TMASK1 = Memory.rd32 d.mem.staging (d.descOffset + 0x14) ∧
          costs ∧ (c.frp = true → e.plane.shadow = d.stagedRungs (rungTableAt o (d.stg (o + 0x38)) c.nrung))) ∧
        TasksBut d e [] ∧ e.plane.active = d.plane.active ∧
        Only d e [.xch, .plane, .nvs, .tasks, .msix] ([Reg.XCH_CHK, Reg.XCH_STAT, Reg.XCH_OTHERVER, Reg.XCH_TMASK0,
          Reg.XCH_TMASK1, Reg.FRP_CHK, Reg.FRP_STAT] ++ (List.range 64).map Reg.XCH_CCOST ++
          (List.range 256).map Reg.IMG_RGN ++ raiseRegs 169 ++ raiseRegs 72))) ∧
    (s.dev.xch.stageEnd = none → exec .xchStageDone s = .next s)

/-- R189, R190, R193, R195, R197: in a device outside a pair the boundary at which an armed exchange, or a revert, switches
(the registers of a group of one task), the boundary timeout, the warning and the end of the confirmation window. R200,
R201, R234: in a pair the exchange messages of the peer (a switch that names no run) and PAIRLOAD. -/
def Obligations.ExchangeSwitch : Prop :=
  ∀ (s : State) (dt : Nat) (nv bv : Word) (st : BitVec 3) (auto_ : Bool) (o : BitVec 18) (ver off : BitVec 32)
    (core : BitVec 3) (space : BitVec 2) (bytes : List (BitVec 8)) (last : Bool) (h : PairHead) (left : Nat),
    let t := s.mono
    let idle := (s.dev.upTo t).group.all ((s.dev.upTo t).taskIdle t)
    s.dev.awake = true →
    (s.dev.xst ≠ 2 → s.dev.xst ≠ 4 → s.dev.xch.late = [] → Does s .xchBoundary t (fun d e => Only d e [] [])) ∧
    (idle = false → Does s .xchBoundary t (fun d e => Only d e [] [])) ∧
    (s.dev.flag F.HSB_CFG_EN = false → s.dev.xch.late = [] → idle = true →
      (s.dev.xst = 2 → Does s .xchBoundary t (fun d e =>
        e.xst = 3 ∧ e.fld F.XCH_STAT_RESULT = 1 ∧ e.rd Reg.XCH_RUNVER = d.xch.newVer ∧
        e.rd Reg.XCH_OTHERVER = d.rd Reg.XCH_RUNVER ∧
        e.fld F.XCH_COUNT_SWITCHES = min 65535 (d.fld F.XCH_COUNT_SWITCHES + 1) ∧
        e.rd64 Reg.XCH_SWMONO0 = t % 2 ^ 64 ∧ e.xch.winEnd = some (t + d.xch.window * 1000000000) ∧
        e.xch.btmo = none ∧ Raised d e 168 ∧
        (∀ x, d.xch.tasks = [x] → x.task < 64 → d.group.contains x.task = true →
          e.rd (Reg.TSK_CODE x.task) = x.code ∧ e.rd (Reg.TSK_BUDGET x.task) = x.budget ∧
          e.rd (Reg.IMG_TRGN x.task) = x.trgn ∧ e.rd (Reg.IMG_OINST x.task) = x.oinst ∧
          (e.task x.task).exch = true ∧ e.maskBit Reg.XCH_TPEND0 x.task = true ∧
          (e.carryOf x.task).map (fun k => k.entries) = some (d.xch.fwd.filter (fun y => y.task == x.task)) ∧
          e.xch.olds = d.xch.olds ++ [d.taskRegs x.task]) ∧
        (d.xch.frp = true → e.plane.swapDue = some t ∧ e.plane.carry = d.xch.rungs ∧ e.plane.byExchange = true) ∧
        (∀ k, k ∉ d.xch.tasks.map (fun x => x.task) → SameTask d e k) ∧
        Only d e [.xch, .plane, .nvs, .tasks, .msix] ([Reg.XCH_STAT, Reg.XCH_RUNVER, Reg.XCH_OTHERVER, Reg.XCH_COUNT,
          Reg.XCH_SWMONO0, Reg.XCH_SWMONO1] ++ raiseRegs 168 ++ d.xch.tasks.flatMap (fun x => [Reg.TSK_CODE x.task,
          Reg.TSK_BUDGET x.task, Reg.IMG_TRGN x.task, Reg.IMG_OINST x.task, Reg.XCH_TPEND0 + 4 * (x.task / 32)])))) ∧
      (s.dev.xst = 4 → s.dev.xch.reverting = false → s.dev.xch.olds.all (fun x => decide (x.task < 64)) = true →
        s.dev.xch.regions.all (fun k => decide (k < 256)) = true → Does s .xchBoundary t (fun d e =>
        e.xst = 0 ∧ e.fld F.XCH_STAT_RESULT = (if d.xch.expired then 4 else 3) ∧ e.rd Reg.XCH_RUNVER = d.xch.baseVer ∧
        e.rd Reg.XCH_OTHERVER = 0 ∧ e.fld F.XCH_COUNT_REVERTS = min 65535 (d.fld F.XCH_COUNT_REVERTS + 1) ∧
        Raised d e 168 ∧
        (∀ x, d.xch.olds = [x] →
          e.rd (Reg.TSK_CODE x.task) = x.code ∧ e.rd (Reg.TSK_BUDGET x.task) = x.budget ∧
          e.rd (Reg.IMG_TRGN x.task) = x.trgn ∧ e.rd (Reg.IMG_OINST x.task) = x.oinst ∧ (e.task x.task).exch = true) ∧
        Only d e [.xch, .plane, .nvs, .tasks, .msix, .csr] []))) ∧
    (∀ m, s.dev.xch.btmo = some m → s.dev.xst = 2 → Does s .xchBoundaryTimeout (max t m) (fun d e =>
      e.xst = 1 ∧ e.fld F.XCH_STAT_RESULT = 7 ∧ e.xch = { d.xch with btmo := none } ∧ Raised d e 169 ∧ TasksBut d e [] ∧
      Only d e [.xch, .tasks, .msix] (Reg.XCH_STAT :: raiseRegs 169))) ∧
    (s.dev.xch.btmo = none → exec .xchBoundaryTimeout s = .next s) ∧
    (∀ m, s.dev.xch.winEnd = some m → s.dev.xst = 3 →
      (s.dev.xch.warned = false → Does s .xchWindowWarn (max t (m - s.dev.fld F.XCH_CFG_WARN * 60000000000)) (fun d e =>
        e.xst = 3 ∧ e.xch = { d.xch with warned := true } ∧ Raised d e 170 ∧ TasksBut d e [] ∧
        Only d e [.xch, .tasks, .msix] (Reg.XCH_STAT :: raiseRegs 170))) ∧
      (s.dev.flag F.HSB_CFG_EN = false → Does s .xchWindowExpiry (max t m) (fun d e =>
        e.xch.winEnd = none ∧ Raised d e 170 ∧ TasksBut d e [] ∧
        (d.flag F.XCH_CFG_EXPACT = true → e.xst = 0 ∧ e.fld F.XCH_STAT_RESULT = 5) ∧
        (d.flag F.XCH_CFG_EXPACT = false → e.xst = 4 ∧ e.xch.expired = true) ∧
        Only d e [.xch, .tasks, .msix, .nvs, .flash] ([Reg.XCH_STAT, Reg.XCH_OTHERVER] ++ raiseRegs 170 ++
          (List.range 256).map Reg.IMG_RGN)))) ∧
    (s.dev.xch.winEnd = none → exec .xchWindowWarn s = .next s ∧ exec .xchWindowExpiry s = .next s) ∧
    (s.dev.member = true → h.crcOk = true → h.pairId = s.dev.rd Reg.HSB_PAIRID0 →
      Does s (.exchMessage dt h (.state st nv bv left)) (t + dt) (fun d e =>
        e.fld F.XCH_PAIR_PEER = st.toNat ∧ e.fld F.XCH_PAIR_PEERVALID = 1 ∧
        e.xch = { d.xch with
          peerVers := some (nv, bv)
          winEnd := if d.xst = 3 ∧ d.decides = false then some (t + dt + left * 1000000000) else d.xch.winEnd } ∧
        Only d e [.xch] [Reg.XCH_PAIR]) ∧
      Does s (.exchMessage dt h (.confirm auto_ left)) (t + dt) (fun d e =>
        (d.xst = 3 → d.xch.switchAt = [] → d.xch.late = [] → e.xst = 0 ∧ e.fld F.XCH_STAT_RESULT = (if auto_ then 5 else 2)) ∧
        (d.xst = 3 → (d.xch.switchAt ≠ [] ∨ d.xch.late ≠ []) → e.xch = { d.xch with
          confirmDue := some auto_, reverting := false, winEnd := some (t + dt + left * 1000000000) } ∧ Only d e [.xch] []) ∧
        (d.xst ≠ 3 → Only d e [] []) ∧
        Only d e [.xch, .nvs, .flash] ([Reg.XCH_STAT, Reg.XCH_OTHERVER] ++ (List.range 256).map Reg.IMG_RGN)) ∧
      Does s (.exchMessage dt h (.stage o left)) (t + dt) (fun d e =>
        ((d.xst = 0 ∨ d.xst = 1) → e.xst = 5 ∧ e.fld F.XCH_DESC_OFFSET = o.toNat ∧ e.fld F.XCH_STAT_PAIR = 1 ∧
          e.xch.stageEnd.isSome = true ∧ Only d e [.xch] ([Reg.XCH_STAT, Reg.XCH_DESC] ++ d.xch.regions.map Reg.IMG_RGN)) ∧
        (d.xst = 3 → e.xch = { d.xch with winEnd := some (t + dt + left * 1000000000) } ∧ Only d e [.xch] []) ∧
        (d.xst ≠ 0 → d.xst ≠ 1 → d.xst ≠ 3 → Only d e [] [])) ∧
      (s.dev.xch.confirmDue = none → Does s (.exchMessage dt h (.switch false [] left)) (t + dt) (fun d e =>
        ((d.xst = 1 ∨ d.xst = 2) → e.xst = 3 ∧ e.rd Reg.XCH_RUNVER = d.xch.newVer ∧
          e.xch.winEnd = some (t + dt + left * 1000000000)) ∧ (d.xst ≠ 1 → d.xst ≠ 2 → Only d e [] []) ∧
        Only d e [.xch, .plane, .nvs, .tasks, .msix] ([Reg.XCH_STAT, Reg.XCH_RUNVER, Reg.XCH_OTHERVER, Reg.XCH_COUNT,
          Reg.XCH_SWMONO0, Reg.XCH_SWMONO1] ++ raiseRegs 168))) ∧
      Does s (.pairload dt h ver core space off bytes last) (t + dt) (fun d e =>
        (d.role ≠ 6 → Only d e [] []) ∧
        (d.mode ≠ .remote → d.mode ≠ .program → Only d e [] []) ∧
        Only d e [.cores, .tasks, .msix, .hsb, .xch, .plane, .nvs, .code, .data, .csr] [] ∧
        (d.role = 6 → (d.mode = .remote ∨ d.mode = .program) →
          (last = true → e.hsb.loading = none ∧ e.rd Reg.XCH_RUNVER = ver) ∧
          (last = false → e.hsb.loading.isSome = true ∧ (∀ c, c < 8 → (e.core c).runs = [] ∨ d.hsb.loading.isSome = true)) ∧
          (space = 0 → ∀ k, k < bytes.length → Memory.rd8 e.mem.code (core.toNat * 0x400000 + off.toNat + k) = bytes.getD k 0) ∧
          (space = 1 → ∀ k, k < bytes.length → Memory.rd8 e.mem.data (core.toNat * 0x200000 + off.toNat + k) = bytes.getD k 0))))

/-! ## Hot standby pairs -/

/-- R205, R207 to R209, R234, R235: the heartbeats of a member, sent and received on the two paths, the loss of a path, the
clock difference D that a link time-stamp gives (assumption 105), and version parley. A message of another pair raises source
163; one with a wrong CRC-32C, one on path A over a port that is down, and one to a block that belongs to no pair are
discarded. -/
def Obligations.PairPaths : Prop :=
  ∀ (s : State) (dt : Nat) (b : Bool) (h : Heartbeat) (port : BitVec 1) (ofs : Int) (x : PairHead),
    let t := s.mono + dt
    let up := if b then F.HSB_STAT_PATHB else F.HSB_STAT_PATHA
    let foreign (i : Instr) : Prop := Does s i t (fun d e => e.flag F.HSB_CFG_EN = true ∧ Raised d e 163 ∧ TasksBut d e [] ∧
      Only d e [.tasks, .msix] (Reg.HSB_EVT :: raiseRegs 163))
    s.dev.awake = true →
    (∀ m, s.dev.hsb.nextHb = some m → s.dev.member = true →
      Does s .heartbeatSend (max s.mono m) (fun d e =>
        e.hsb = { d.hsb with seq := d.hsb.seq + 1, nextHb := some (m + 100000) } ∧
        (d.role ≠ 10 → (max s.mono m, Msg.pair true true d.pairHead (.heartbeat (d.heartbeat (max s.mono m)))) ∈ e.outbox) ∧
        (d.role = 10 → (max s.mono m, Msg.pair true true d.pairHead .parley) ∈ e.outbox) ∧
        Only d e [.hsb] [])) ∧
    (s.dev.hsb.nextHb = none → exec .heartbeatSend s = .next s) ∧
    (s.dev.member = true → s.dev.pathOpen b = true → h.pairId ≠ s.dev.rd Reg.HSB_PAIRID0 → foreign (.heartbeat dt b ⟨true, h⟩)) ∧
    Does s (.heartbeat dt b ⟨false, h⟩) t (fun d e => Only d e [] []) ∧
    ((s.dev.member = false ∨ s.dev.pathOpen b = false) →
      Does s (.heartbeat dt b ⟨true, h⟩) t (fun d e => Only d e [] [])) ∧
    (s.dev.member = true → s.dev.pathOpen b = true → h.pairId = s.dev.rd Reg.HSB_PAIRID0 →
      Does s (.heartbeat dt b ⟨true, h⟩) t (fun d e =>
        let same := d.flag F.SYS_STRAPS_PREF == h.roles.getLsbD 3
        let lower := decide (d.uid < d.peerIdentity h.uid)
        e.fld up = 1 ∧ e.fld F.HSB_STAT_PEERVALID = 1 ∧ e.fld F.HSB_STAT_PEERSTATE = h.roleState.toNat ∧
        e.fld F.HSB_STAT_PEERHEALTH = h.health.toNat ∧
        e.rd64 Reg.HSB_PEERUID0 = (d.peerIdentity h.uid).toNat % 2 ^ 64 ∧
        e.rd64 Reg.HSB_PEERUID2 = (d.peerIdentity h.uid).toNat / 2 ^ 64 ∧ e.rd Reg.HSB_PEERVER = h.runver ∧
        e.fld F.XCH_PAIR_PEER = h.xstate.toNat ∧ e.fld F.XCH_PAIR_PEERVALID = 1 ∧
        e.hsb.peer = some h ∧ (if b then e.hsb.lastB else e.hsb.lastA) = some t ∧
        (if b then e.hsb.lastA = d.hsb.lastA else e.hsb.lastB = d.hsb.lastB) ∧
        e.hsb.peerPub = (if h.roles.getLsbD 2 then t else d.hsb.peerPub) ∧
        e.flag F.HSB_STAT_PREFCONF = same ∧ e.roleBit 3 = (if same then lower else d.flag F.SYS_STRAPS_PREF) ∧
        e.flag F.HSB_STAT_PEERPREF = (if same then !lower else h.roles.getLsbD 3) ∧
        (same = true → d.flag F.HSB_STAT_PREFCONF = false → e.pendingSrc 163 = true) ∧
        (b = false → e.rd64 Reg.HSB_MONOOFS0 = d.rd64 Reg.HSB_MONOOFS0 ∧ e.rd Reg.HSB_MONOSRC = d.rd Reg.HSB_MONOSRC) ∧
        (b = true → d.flag F.HSB_STAT_PATHA = false →
          e.rd64 Reg.HSB_MONOOFS0 = (d.dFromB t h % (2 ^ 64 : Nat)).toNat ∧ e.rd Reg.HSB_MONOSRC = 2) ∧
        (d.rd (Reg.SYS_IFVER 2) = 0x01000201 → h.maj = 2 → h.min = 0 → e.fld F.HSB_VER_VALID = 1 ∧
          e.fld F.HSB_VER_MAJ = 2 ∧ e.fld F.HSB_VER_MIN = 0 ∧ (d.role = 3 → e.role = 2) ∧
          (d.role = 2 ∨ d.role = 8 ∨ d.role = 9 → e.role = d.role) ∧
          (d.role = 10 → d.roleBit 0 = true → e.role = 2) ∧
          (d.role = 6 → h.runver = d.rd Reg.XCH_RUNVER → e.role = 4 ∨ e.role = 5) ∧
          ((d.role = 4 ∨ d.role = 5) → h.roles.getLsbD 0 = true → h.runver ≠ d.rd Reg.XCH_RUNVER → d.hsb.matched = false →
            e.role = 6 ∧ e.fld F.HSB_STAT_SYNCED = 0 ∧ e.pendingSrc 163 = true)) ∧
        (negotiate (d.rd (Reg.SYS_IFVER 2)) (BitVec.ofNat 32 (0x01000000 + h.maj.toNat * 2 ^ 8 + h.min.toNat)) = none →
          e.rd Reg.HSB_VER = 0 ∧ e.role = 10 ∧ e.roleBit 0 = d.roleBit 0 ∧ e.bit Reg.HST_PARLEY 2 = true) ∧
        Settled d e [.hsb] ([Reg.HSB_STAT, Reg.HSB_PEERUID0, Reg.HSB_PEERUID0 + 4, Reg.HSB_PEERUID2, Reg.HSB_PEERUID2 + 4,
          Reg.HSB_PEERVER, Reg.XCH_PAIR, Reg.HSB_MONOOFS0, Reg.HSB_MONOOFS1, Reg.HSB_MONOSRC, Reg.HSB_VER, Reg.HSB_EVT,
          Reg.HST_PARLEY, Reg.HST_EVT] ++ selfpathRegs ++ raiseRegs 160 ++ raiseRegs 163 ++ raiseRegs 190))) ∧
    (s.dev.flag up = true →
      Does s (.pathLoss b) (max s.mono (s.dev.lastHb b + 300000)) (fun d e =>
        e.fld up = 0 ∧
        (if b then e.fld F.HSB_PATHCNT_BLOSS = min 65535 (d.fld F.HSB_PATHCNT_BLOSS + 1)
          else e.fld F.HSB_PATHCNT_ALOSS = min 65535 (d.fld F.HSB_PATHCNT_ALOSS + 1)) ∧ Raised d e 157 ∧
        (d.flag (if b then F.HSB_STAT_PATHA else F.HSB_STAT_PATHB) = false → e.fld F.HSB_STAT_PEERVALID = 0 ∧
          e.fld F.XCH_PAIR_PEERVALID = 0 ∧ e.rd Reg.HSB_MONOSRC = 0 ∧ (d.role = 2 → e.role = 3)) ∧
        (b = false → e.rd Reg.HSB_MONOSRC = 0 ∧ (d.role = 4 → d.flag F.HSB_STAT_SYNCED = true →
          e.role = 5 ∧ e.fld F.HSB_STAT_SYNCED = 0 ∧ Raised d e 160)) ∧
        TasksBut d e [] ∧
        Only d e [.hsb, .tasks, .msix] ([Reg.HSB_STAT, Reg.HSB_PATHCNT, Reg.XCH_PAIR, Reg.HSB_MONOSRC, Reg.HSB_EVT] ++
          raiseRegs 157 ++ raiseRegs 160))) ∧
    (s.dev.flag up = false → exec (.pathLoss b) s = .next s) ∧
    (s.dev.flag (F.STD_PORT_UP port.toNat) = true → s.dev.member = true → s.dev.pathAPort = port.toNat →
      s.dev.flag F.HSB_STAT_PATHA = true → Does s (.linkTimestampFrame dt port ofs none) t (fun d e =>
        e.rd64 Reg.HSB_MONOOFS0 = (ofs % (2 ^ 64 : Nat)).toNat ∧ e.rd Reg.HSB_MONOSRC = 1 ∧
        Only d e [] [Reg.HSB_MONOOFS0, Reg.HSB_MONOOFS1, Reg.HSB_MONOSRC])) ∧
    (s.dev.flag (F.STD_PORT_UP port.toNat) = false →
      Does s (.linkTimestampFrame dt port ofs none) t (fun d e => Only d e [] [])) ∧
    (s.dev.member = true → x.crcOk = true → x.pairId ≠ s.dev.rd Reg.HSB_PAIRID0 → foreign (.parley dt x)) ∧
    ((s.dev.member = false ∨ x.crcOk = false) → Does s (.parley dt x) t (fun d e => Only d e [] [])) ∧
    (s.dev.member = true → x.crcOk = true → x.pairId = s.dev.rd Reg.HSB_PAIRID0 →
      Does s (.parley dt x) t (fun d e =>
        e.rd Reg.HSB_VER = 0 ∧ e.bit Reg.HST_PARLEY 2 = true ∧ e.role = 10 ∧ (∀ k, k < 4 → e.roleBit k = d.roleBit k) ∧
        (d.role = 10 → e.hsb = d.hsb) ∧
        (d.role ≠ 10 → e.fld F.HSB_STAT_SYNCED = 0 ∧ e.hsb.holdoff = none ∧ e.hsb.handover = none ∧ e.hsb.claimEnd = none ∧
          Raised d e 163) ∧
        TasksBut d e [] ∧
        Only d e [.hsb, .tasks, .msix] ([Reg.HSB_VER, Reg.HST_PARLEY, Reg.HST_EVT, Reg.HSB_STAT, Reg.HSB_EVT] ++
          raiseRegs 163 ++ raiseRegs 190)))

/-- R211 to R214, R216, R217, R229: the lease line: the holder's refresh slots, at H of a handover a TRANSFER, the lease
timer, what is decoded on LEASE_N, a missing PRESENCE, a claim and its first frame, and the end of the observation of a
joining member. -/
def Obligations.LeaseLine : Prop :=
  ∀ (s : State) (dt : Nat) (transfer own ok : Bool) (code : BitVec 2),
    let t := s.mono + dt
    let member := s.dev.member = true
    s.dev.awake = true →
    (∀ m, s.dev.hsb.slot = some m → s.dev.roleBit 0 = true → s.dev.atHandover (max s.mono m) = false →
      ((s.dev.pathUp = true ∨ s.dev.hsb.readBack = true) → Does s .refreshSlot (max s.mono m) (fun d e =>
        e.hsb = { d.hsb with leaseEnd := some (max s.mono m + 500000), slot := some (max s.mono m + 100000), readBack := true } ∧
        (max s.mono m, Msg.refresh) ∈ e.outbox ∧ TasksBut d e [] ∧
        (d.presenceMissing (max s.mono m) = false → e.line = (if d.line = 3 then 0 else d.line) ∧
          Only d e [.hsb] [Reg.HSB_STAT]) ∧
        (d.presenceMissing (max s.mono m) = true → e.line = 2 ∧ Raised d e 158 ∧
          e.fld F.HSB_LINECNT_BAD = min 65535 (d.fld F.HSB_LINECNT_BAD + 1)) ∧
        Only d e [.hsb, .tasks, .msix] ([Reg.HSB_STAT, Reg.HSB_LINECNT, Reg.HSB_EVT] ++ raiseRegs 158))) ∧
      (s.dev.pathUp = false → s.dev.hsb.readBack = false → Does s .refreshSlot (max s.mono m) (fun d e =>
        e.roleBit 0 = false ∧ e.roleBit 1 = false ∧ e.roleBit 2 = false ∧ e.role = 5 ∧ e.hsb.slot = none ∧
        e.hsb.leaseEnd = none ∧ e.fld F.HSB_STAT_SYNCED = 0 ∧ Raised d e 156 ∧
        Settled d e [.hsb, .net] (Reg.HSB_STAT :: Reg.HSB_EVT :: raiseRegs 156 ++ gateRegs)))) ∧
    (∀ m h, s.dev.hsb.slot = some m → s.dev.roleBit 0 = true → s.dev.atHandover (max s.mono m) = true →
      s.dev.hsb.handover = some h → Does s .refreshSlot (max s.mono m) (fun d e =>
        e.roleBit 0 = false ∧ e.roleBit 1 = false ∧ e.roleBit 2 = false ∧ (max s.mono m, Msg.transfer) ∈ e.outbox ∧
        (∀ x, x ∈ e.outbox → x ∉ d.outbox → x.2 ≠ Msg.refresh) ∧ e.hsb = { d.hsb with
          handover := some { h with done := true, pub := d.roleBit 2 }, slot := none, leaseEnd := none } ∧ Raised d e 156 ∧
        Settled d e [.hsb, .net] (Reg.HSB_STAT :: Reg.HSB_EVT :: raiseRegs 156 ++ gateRegs))) ∧
    (s.dev.hsb.slot = none → exec .refreshSlot s = .next s) ∧
    (∀ m, s.dev.hsb.leaseEnd = some m →
      Does s .leaseExpiry (max s.mono m) (fun d e =>
        e.roleBit 0 = false ∧ e.roleBit 1 = false ∧ e.roleBit 2 = d.roleBit 2 ∧ e.role = 5 ∧ e.hsb.slot = none ∧
        e.hsb.leaseEnd = none ∧ e.fld F.HSB_STAT_SYNCED = 0 ∧
        (d.roleBit 0 = true → Raised d e 156) ∧
        Settled d e [.hsb, .net] (Reg.HSB_STAT :: Reg.HSB_EVT :: raiseRegs 156 ++ gateRegs))) ∧
    (s.dev.hsb.leaseEnd = none → exec .leaseExpiry s = .next s) ∧
    (member → Does s (.refreshDecoded dt transfer) t (fun d e =>
      e.hsb = { d.hsb with
        lastRefresh := t, sawRefresh := true, unreadable := false, presenceSent := false,
        presenceDue := if d.role = 4 ∨ d.role = 5 ∨ d.role = 6 then some (t + 40000) else d.hsb.presenceDue } ∧
      (d.hsb.presenceSent = false → e.line = 0 ∧ Only d e [.hsb] [Reg.HSB_STAT]) ∧
      (d.hsb.presenceSent = true → e.line = 2 ∧ (d.line ≠ 2 → Raised d e 158 ∧
        e.fld F.HSB_LINECNT_BAD = min 65535 (d.fld F.HSB_LINECNT_BAD + 1))) ∧ TasksBut d e [] ∧
      Only d e [.hsb, .tasks, .msix] ([Reg.HSB_STAT, Reg.HSB_LINECNT, Reg.HSB_EVT] ++ raiseRegs 158))) ∧
    (∀ m, s.dev.hsb.presenceDue = some m →
      Does s .presencePulse (max s.mono m) (fun d e =>
        e.hsb = { d.hsb with presenceDue := none, presenceSent := true } ∧ (max s.mono m, Msg.presence) ∈ e.outbox ∧ Only d e [.hsb] [])) ∧
    (s.dev.hsb.presenceDue = none → exec .presencePulse s = .next s) ∧
    (member → Does s (.presenceDecoded dt own) t (fun d e =>
      e.line = (if d.line = 2 then 0 else d.line) ∧ e.hsb = { d.hsb with
        lastPresence := t, presenceSent := false, unreadable := false, driverOk := d.hsb.driverOk || (own && decide (d.role = 1)) } ∧ Only d e [.hsb] [Reg.HSB_STAT])) ∧
    (member → code ≠ 0 → Does s (.lineFault dt code) t (fun d e =>
      e.line = code.toNat ∧
      (code = 1 → e.hsb = { d.hsb with unreadable := false }) ∧
      (code = 1 → (d.pathUp = false ∨ (d.role ≠ 4 ∧ d.role ≠ 5)) → Only d e [.hsb] [Reg.HSB_STAT]) ∧
      (code = 1 → d.pathUp = true → (d.role = 4 ∨ d.role = 5) → Raised d e 158 ∧
        e.fld F.HSB_LINECNT_BAD = min 65535 (d.fld F.HSB_LINECNT_BAD + 1)) ∧
      (code = 2 → Raised d e 158 ∧ e.fld F.HSB_LINECNT_BAD = min 65535 (d.fld F.HSB_LINECNT_BAD + 1) ∧
        e.hsb = { d.hsb with unreadable := true }) ∧
      (code = 3 → Raised d e 158 ∧ e.fld F.HSB_LINECNT_RBERR = min 65535 (d.fld F.HSB_LINECNT_RBERR + 1) ∧
        e.hsb = { d.hsb with readBack := false }) ∧
      TasksBut d e [] ∧
      Only d e [.hsb, .tasks, .msix] ([Reg.HSB_STAT, Reg.HSB_LINECNT, Reg.HSB_EVT] ++ raiseRegs 158))) ∧
    (member → Does s (.lineFault dt 0) t (fun d e => Only d e [] [])) ∧
    (s.dev.hsb.joined = true → (s.dev.role = 4 ∨ s.dev.role = 5) →
      Does s .leaseClaim (max s.mono s.dev.claimDue) (fun d e =>
        (d.member = true → d.pathUp = false → d.selftest = true → e.role = 7 ∧
          e.hsb = { d.hsb with claimEnd := some (max s.mono d.claimDue + 10000) } ∧
          (max s.mono d.claimDue, Msg.refresh) ∈ e.outbox ∧ (d.hsb.unreadable = true → e.line = 2 ∧ Raised d e 158) ∧
          (d.hsb.unreadable = false → e.line = d.line ∧ Only d e [.hsb] [Reg.HSB_STAT])) ∧
        ((d.member = false ∨ d.pathUp = true ∨ d.selftest = false) → Only d e [] []) ∧
        TasksBut d e [] ∧ Only d e [.hsb, .tasks, .msix] (Reg.HSB_STAT :: Reg.HSB_EVT :: raiseRegs 158))) ∧
    ((s.dev.hsb.joined = false ∨ (s.dev.role ≠ 4 ∧ s.dev.role ≠ 5)) → exec .leaseClaim s = .next s) ∧
    (∀ m, s.dev.hsb.claimEnd = some m → s.dev.role = 7 →
      Does s (.claimReadback ok) (max s.mono m) (fun d e =>
        (ok = true → e.roleBit 0 = true ∧ e.roleBit 1 = true ∧
          e.roleBit 2 = (d.pubdiag (max s.mono m) || d.roleBit 2) ∧ e.role = (if d.pathUp then 2 else 3) ∧
          e.line = (if d.hsb.unreadable then d.line else 0) ∧
          e.hsb.slot = some (max s.mono m + 90000) ∧ e.hsb.leaseEnd = some (max s.mono m + 490000) ∧
          e.hsb.claimEnd = none ∧ e.hsb.claimCount = d.hsb.claimCount + 1 ∧
          e.fld F.HSB_CNT_CLAIMS = min 65535 (d.fld F.HSB_CNT_CLAIMS + 1) ∧ e.pendingSrc 159 = true ∧
          (d.roleBit 3 = true → e.hsb.claims = d.hsb.claims ∧ e.flag F.HSB_STAT_RETINH = d.flag F.HSB_STAT_RETINH) ∧
          (d.roleBit 3 = false → e.hsb.claims =
              max s.mono m :: d.hsb.claims.filter (fun x => decide (max s.mono m ≤ x + 3600000000000)) ∧
            e.flag F.HSB_STAT_RETINH = (d.flag F.HSB_STAT_RETINH || decide (3 ≤ e.hsb.claims.length))) ∧
          Settled d e [.hsb, .net, .can] ([Reg.HSB_STAT, Reg.HSB_EVT, Reg.HSB_CNT] ++ raiseRegs 156 ++ raiseRegs 159 ++
            raiseRegs 162 ++ gateRegs ++ postRegs)) ∧
        (ok = false → (e.role = 4 ∨ e.role = 5) ∧ e.line = 3 ∧ Raised d e 158 ∧
          e.fld F.HSB_LINECNT_RBERR = min 65535 (d.fld F.HSB_LINECNT_RBERR + 1) ∧ e.hsb.claimEnd = none ∧
          e.hsb.claimFrom = max s.mono m + 100000 ∧ e.roleBit 0 = d.roleBit 0 ∧ TasksBut d e [] ∧
          Only d e [.hsb, .tasks, .msix] ([Reg.HSB_STAT, Reg.HSB_LINECNT, Reg.HSB_EVT] ++ raiseRegs 158 ++ raiseRegs 160)))) ∧
    (s.dev.hsb.claimEnd = none → exec (.claimReadback ok) s = .next s) ∧
    (∀ m, s.dev.hsb.joinEnd = some m → s.dev.role = 1 →
      Does s .joiningEnd (max s.mono m) (fun d e =>
        e.hsb.joinEnd = none ∧ e.hsb.joined = true ∧
        ((d.hsb.sawRefresh = true ∨ d.roleBit 3 = false ∨ d.hsb.peer = none ∨ d.pathUp = false ∨ d.selftest = false) →
          (e.role = 4 ∨ e.role = 5 ∨ e.role = 6) ∧ e.hsb.slot = none ∧ e.hsb.leaseEnd = none) ∧
        (d.hsb.sawRefresh = false → d.roleBit 3 = true → d.selftest = true → d.pathUp = true →
          d.hsb.peer.any (fun p => p.roleState = 1 || p.roleState = 4 || p.roleState = 5 || p.roleState = 6) = true →
          e.role = 7 ∧ e.hsb.claimEnd = some (max s.mono m + 10000)) ∧
        TasksBut d e [] ∧
        Only d e [.hsb, .tasks, .msix] (Reg.HSB_STAT :: Reg.HSB_EVT :: raiseRegs 158 ++ raiseRegs 160 ++ raiseRegs 163))) ∧
    (∀ m, s.dev.hsb.joinEnd = some m → s.dev.role ≠ 1 → Does s .joiningEnd (max s.mono m) (fun d e =>
      e.hsb = { d.hsb with joinEnd := none, joined := true } ∧ Only d e [.hsb] [])) ∧
    (s.dev.hsb.joinEnd = none → exec .joiningEnd s = .next s)

/-- R204, R218 to R221, R239, R267: publication: given up, taken with every dataset one above the carried stNum, refused and
taken back degraded, taken from a peer that no longer holds it; the pattern on ROLE0; HSB_CMD codes 2 to 4. A message of
another pair raises source 163; one with a wrong CRC-32C, or to a block in no pair, is discarded. -/
def Obligations.Publication : Prop :=
  ∀ (s : State) (dt : Nat) (x : PairHead) (l : List Word) (p : BitVec 3) (q : Requester) (key : BitVec 16),
    let t := s.mono + dt
    let foreign (i : Instr) : Prop := Does s i t (fun d e => Raised d e 163 ∧ TasksBut d e [] ∧
      Only d e [.tasks, .msix] (Reg.HSB_EVT :: raiseRegs 163))
    let frame (d e : Dev) : Prop := Settled d e [.hsb, .net]
      (Reg.HSB_STAT :: Reg.HSB_EVT :: raiseRegs 156 ++ raiseRegs 162 ++ gateRegs ++ postRegs)
    let taken (d e : Dev) (c : List Word) (degraded : Bool) : Prop :=
      e.roleBit 2 = true ∧ e.gateOpen = true ∧ e.roleBit 0 = d.roleBit 0 ∧ e.flag F.HSB_STAT_PUBDEG = degraded ∧
      e.hsb.relinquishEnd = none ∧ e.hsb.gaveUp = false ∧ e.hsb.unable = false ∧ e.role0 t = 0 ∧ Raised d e 162 ∧
      (∀ k, k < 64 → bitOf (d.pubWord k 0) 0 = true →
        e.pubWord k 28 = (c.getD k 0 + 1).toNat ∧ e.pubWord k 29 = 0) ∧ frame d e
    let given (d e : Dev) (m : Nat) : Prop :=
      e.roleBit 2 = false ∧ e.gateOpen = false ∧ e.roleBit 0 = d.roleBit 0 ∧ e.fld F.HSB_STAT_PUBDEG = 0 ∧
      e.hsb = { d.hsb with relinquishEnd := some (m + 2000000), gaveUp := true, peerPub := m } ∧
      (m, Msg.pair true true d.pairHead (.pubRelinquish d.countersSent)) ∈ e.outbox ∧ (d.role0 m ≠ 4 → e.role0 m = 1) ∧
      Raised d e 156 ∧ Raised d e 162 ∧ frame d e
    let refused (d e : Dev) : Prop := (t, Msg.pair true true d.pairHead .pubRefuse) ∈ e.outbox ∧ Raised d e 162 ∧ TasksBut d e [] ∧
      e.roleBit 2 = d.roleBit 2 ∧ Only d e [.hsb, .tasks, .msix] (Reg.HSB_EVT :: raiseRegs 162)
    let same (d e : Dev) : Prop := Only d e [] []
    s.dev.awake = true →
    (s.dev.member = true → x.crcOk = true → x.pairId ≠ s.dev.rd Reg.HSB_PAIRID0 →
      foreign (.pubRelinquish dt x l) ∧ foreign (.pubTaken dt x) ∧ foreign (.pubRefuse dt x)) ∧
    (s.dev.member = true → s.dev.pubdiag t = false → s.dev.roleBit 2 = true →
      Does s (.pubDiagFail dt) t (fun d e => given d e t)) ∧
    ((s.dev.pubdiag t = true ∨ s.dev.roleBit 2 = false) → Does s (.pubDiagFail dt) t same) ∧
    (s.dev.member = true → x.crcOk = true → x.pairId = s.dev.rd Reg.HSB_PAIRID0 →
      Does s (.pubRelinquish dt x l) t (fun d e =>
        (d.roleBit 2 = true → same d e) ∧
        (d.roleBit 2 = false → d.pubdiag t = true →
          taken d e (if l.isEmpty then d.hsb.stNums else l) false ∧
            (t, Msg.pair true true d.pairHead .pubTaken) ∈ e.outbox) ∧
        (d.roleBit 2 = false → d.pubdiag t = false → refused d e ∧ e.hsb = d.hsb)) ∧
      Does s (.pubTaken dt x) t (fun d e => e.hsb = { d.hsb with gaveUp := false, peerPub := t } ∧ Only d e [.hsb] []) ∧
      Does s (.pubRefuse dt x) t (fun d e =>
        (d.hsb.gaveUp = true → taken d e d.stNums true) ∧ (d.hsb.gaveUp = false → same d e))) ∧
    (s.dev.member = true →
      Does s (.rolePatternDecoded dt p) t (fun d e =>
        e.hsb.role1 = min 4 p.toNat ∧ e.hsb.peerPub = (if p = 0 then t else d.hsb.peerPub) ∧
        (p = 1 → d.roleBit 2 = false → d.pubdiag t = true →
          taken d e d.hsb.stNums false ∧ (t, Msg.pair true true d.pairHead .pubTaken) ∈ e.outbox) ∧
        (p = 1 → d.roleBit 2 = false → d.pubdiag t = false → refused d e) ∧
        (p = 3 → d.hsb.gaveUp = true → taken d e d.stNums true) ∧
        ((p = 1 ∧ d.roleBit 2 = true ∨ p = 3 ∧ d.hsb.gaveUp = false ∨ p ≠ 1 ∧ p ≠ 3) →
          e.hsb = { d.hsb with
            role1 := min 4 p.toNat, peerPub := if p = 0 then t else d.hsb.peerPub, gaveUp := d.hsb.gaveUp && p != 0 } ∧
          Only d e [.hsb] []))) ∧
    (s.dev.member = false → Does s (.rolePatternDecoded dt p) t same) ∧
    ((s.dev.member = false ∨ x.crcOk = false) → Does s (.pubRelinquish dt x l) t same ∧ Does s (.pubTaken dt x) t same ∧
      Does s (.pubRefuse dt x) t same) ∧
    (∀ m, s.dev.hsb.relinquishEnd = some m →
      Does s .relinquishWaveEnd (max s.mono m) (fun d e =>
        e.hsb = { d.hsb with relinquishEnd := none, unable := true } ∧
        (d.roleBit 2 = false → d.role0 (max s.mono m) ≠ 4 → e.role0 (max s.mono m) = 3) ∧ Only d e [.hsb] [])) ∧
    (s.dev.hsb.relinquishEnd = none → exec .relinquishWaveEnd s = .next s) ∧
    (s.dev.roleBit 0 = true → s.dev.roleBit 2 = false →
      Does s .pubOrphanTake (max s.mono (s.dev.hsb.peerPub + 200000)) (fun d e =>
        let due := d.member && d.pubdiag (max s.mono (d.hsb.peerPub + 200000)) && d.hsb.role1 != 0
        (due = true → taken d e d.hsb.stNums false) ∧ (due = false → same d e))) ∧
    ((s.dev.roleBit 0 = false ∨ s.dev.roleBit 2 = true) → exec .pubOrphanTake s = .next s) ∧
    (Writes s q Reg.HSB_CMD → (key ≠ 0xB7A2 ∨ s.dev.flag F.HSB_CFG_EN = false) →
      Does s (.hsbRelinquishPub q key) s.mono same ∧ Does s (.hsbSetRetinh q key) s.mono same ∧
      Does s (.hsbClearRetinh q key) s.mono same) ∧
    (Writes s q Reg.HSB_CMD → key = 0xB7A2 → s.dev.flag F.HSB_CFG_EN = true →
      Does s (.hsbRelinquishPub q key) s.mono (fun d e =>
        (d.roleBit 2 = true → s.dev.member = true → given d e s.mono) ∧ (d.roleBit 2 = false → same d e)) ∧
      Does s (.hsbSetRetinh q key) s.mono (fun d e => e.fld F.HSB_STAT_RETINH = 1 ∧
        (∀ k, k ≠ 15 → e.bit Reg.HSB_STAT k = d.bit Reg.HSB_STAT k) ∧ Only d e [] [Reg.HSB_STAT]) ∧
      Does s (.hsbClearRetinh q key) s.mono (fun d e => e.fld F.HSB_STAT_RETINH = 0 ∧
        (∀ k, k ≠ 15 → e.bit Reg.HSB_STAT k = d.bit Reg.HSB_STAT k) ∧ Only d e [] [Reg.HSB_STAT]))

/-- R225 to R227, R229 to R232: a handover called, refused, accepted, cancelled, carried out and checked; the return of
control; MIRROR messages (a table of one data region) and the wait for one. A message of another pair raises source 163;
one with a wrong CRC-32C, or to a block in no pair, is discarded. -/
def Obligations.HandoverAndMirror : Prop :=
  ∀ (s : State) (dt : Nat) (p : PairHead) (h : Nat) (l : List Word) (q : Requester) (key : BitVec 16) (ok : Bool) (m : Mirror),
    let t := s.mono + dt
    let u := s.dev.upTo s.mono
    let c := m.core.toNat
    let same (d e : Dev) : Prop := Only d e [] []
    let foreign (i : Instr) : Prop := Does s i t (fun d e => Raised d e 163 ∧ TasksBut d e [] ∧
      Only d e [.tasks, .msix] (Reg.HSB_EVT :: raiseRegs 163))
    let starts (d e : Dev) (x : Nat) (sync : Bool) : Prop :=
      (d.roleBit 0 = true → d.acceptsHandover sync = true →
        e.role = 8 ∧ e.hsb = { d.hsb with handover := some { at_ := d.slotFrom (x + 2000000), out := true } } ∧
        (x, Msg.pair true true d.pairHead (.handover (d.slotFrom (x + 2000000)) d.countersSent)) ∈ e.outbox ∧
        Only d e [.hsb] [Reg.HSB_STAT]) ∧
      (d.roleBit 0 = true → d.acceptsHandover sync = false →
        Raised d e 161 ∧ TasksBut d e [] ∧ Only d e [.tasks, .msix] (Reg.HSB_EVT :: raiseRegs 161)) ∧
      (d.roleBit 0 = false → same d e)
    let lateRun (d : Dev) : Option Word := Sparse.get (fun _ => none) d.hsb.lateRuns c
    let late (d e : Dev) (run : Word) : Prop :=
      e.fld (F.HSB_MSYNC_LATE c) = min 255 (d.fld (F.HSB_MSYNC_LATE c) + 1) ∧ e.fld (F.HSB_MSYNC_LASTOK c) = 0 ∧
      e.pendingSrc 160 = true ∧ e.fld F.HSB_STAT_SYNCED = (if d.role = 4 then 0 else d.fld F.HSB_STAT_SYNCED) ∧
      e.role = (if d.role = 4 then 5 else d.role) ∧ e.hsb.syncCores = 0 ∧ lateRun e = some run
    let syncRegs : List Nat := [Reg.HSB_MSYNC c, Reg.HSB_STAT, Reg.HSB_EVT] ++ raiseRegs 160
    s.dev.awake = true →
    (s.dev.member = true → p.crcOk = true → p.pairId ≠ s.dev.rd Reg.HSB_PAIRID0 →
      foreign (.returnReq dt p) ∧ foreign (.handover dt p h l) ∧ foreign (.handoverAck dt p) ∧
      foreign (.mirrorReceived dt p ok m)) ∧
    ((s.dev.member = false ∨ p.crcOk = false) →
      Does s (.returnReq dt p) t same ∧ Does s (.handover dt p h l) t same ∧ Does s (.handoverAck dt p) t same ∧
      Does s (.mirrorReceived dt p ok m) t same) ∧
    (Writes s q Reg.HSB_CMD → (key ≠ 0xB7A2 ∨ s.dev.flag F.HSB_CFG_EN = false) →
      Does s (.handoverCmd (some (q, key))) s.mono same) ∧
    (Writes s q Reg.HSB_CMD → key = 0xB7A2 → s.dev.member = true →
      Does s (.handoverCmd (some (q, key))) s.mono (fun d e => starts d e s.mono true)) ∧
    (s.dev.member = true →
      ((s.dev.mode = .stop ∨ s.dev.mode = .program ∨ u.selftest = false) → s.dev.roleBit 0 = true →
        s.dev.acceptsHandover false = true → Does s (.handoverCmd none) s.mono (fun d e => starts d e s.mono false)) ∧
      (s.dev.mode ≠ .stop → s.dev.mode ≠ .program → u.selftest = true → Does s (.handoverCmd none) s.mono same) ∧
      ((s.dev.roleBit 0 = false ∨ s.dev.acceptsHandover false = false) → Does s (.handoverCmd none) s.mono same)) ∧
    (s.dev.member = true → p.crcOk = true → p.pairId = s.dev.rd Reg.HSB_PAIRID0 →
      Does s (.returnReq dt p) t (fun d e =>
        (d.flag F.HSB_STAT_RETINH = false → starts d e t true) ∧ (d.roleBit 0 = false → same d e) ∧
        (d.roleBit 0 = true → d.flag F.HSB_STAT_RETINH = true → Raised d e 161 ∧ TasksBut d e [] ∧
          Only d e [.tasks, .msix] (Reg.HSB_EVT :: raiseRegs 161))) ∧
      Does s (.handover dt p h l) t (fun d e =>
        ((d.role = 4 ∨ d.role = 5) → d.mode.runs = true → e.role = 9 ∧ e.fld F.HSB_STAT_SYNCED = 0 ∧
          e.hsb = { d.hsb with
            handover := some { at_ := ((h : Int) - d.pairD).toNat, out := false, acked := true, stNums := d.countersOr l } } ∧
          (t, Msg.pair true true d.pairHead .handoverAck) ∈ e.outbox ∧ Only d e [.hsb] [Reg.HSB_STAT]) ∧
        ((d.role ≠ 4 ∧ d.role ≠ 5 ∨ d.mode.runs = false) → same d e)) ∧
      Does s (.handoverAck dt p) t (fun d e =>
        e.hsb = { d.hsb with handover := d.hsb.handover.map (fun x => { x with acked := x.acked || x.out }) } ∧
        Only d e [.hsb] [])) ∧
    (∀ x, s.dev.hsb.handover = some x →
      Does s .handoverAckTimeout (max s.mono (x.at_ - 500000)) (fun d e =>
        (x.out = true → x.acked = false → e.role = d.holderRole ∧ e.hsb = { d.hsb with handover := none } ∧ Raised d e 161) ∧
        ((x.out = false ∨ x.acked = true) → same d e) ∧ TasksBut d e [] ∧
        Only d e [.hsb, .tasks, .msix] (Reg.HSB_STAT :: Reg.HSB_EVT :: raiseRegs 161)) ∧
      (x.out = true → x.acked = true → x.done = false → Does s .handoverInstant (max s.mono x.at_) (fun d e =>
        e.roleBit 0 = false ∧ e.roleBit 1 = false ∧ e.roleBit 2 = false ∧ e.gateOpen = false ∧ e.role = d.role ∧
        e.hsb = { d.hsb with handover := some { x with done := true, pub := d.roleBit 2 }, slot := none, leaseEnd := none } ∧
        (max s.mono x.at_, Msg.transfer) ∈ e.outbox ∧
        Settled d e [.hsb, .net] (Reg.HSB_STAT :: Reg.HSB_EVT :: raiseRegs 156 ++ gateRegs))) ∧
      (x.out = true → (x.acked = false ∨ x.done = true) → Does s .handoverInstant (max s.mono x.at_) same) ∧
      (x.out = false → exec .handoverInstant s = .next s) ∧
      (x.out = false → x.done = false → Does s .handoverTake (max s.mono (x.at_ + 1000)) (fun d e =>
        let pub := d.pubdiag (max s.mono (x.at_ + 1000))
        e.roleBit 0 = true ∧ e.roleBit 1 = true ∧ e.roleBit 2 = (pub || d.roleBit 2) ∧ e.gateOpen = (pub || d.roleBit 2) ∧
        e.role = d.role ∧ e.hsb.slot = some (x.at_ + 50000) ∧
        e.hsb.leaseEnd = some (max s.mono (x.at_ + 1000) + 500000) ∧ e.hsb.handover = some { x with done := true } ∧
        (pub = true → Raised d e 162 ∧ ∀ k, k < 64 → bitOf (d.pubWord k 0) 0 = true →
          e.pubWord k 28 = (x.stNums.getD k 0 + 1).toNat) ∧
        Settled d e [.hsb, .net]
          (Reg.HSB_STAT :: Reg.HSB_EVT :: raiseRegs 156 ++ raiseRegs 162 ++ gateRegs ++ postRegs))) ∧
      (x.out = true → exec .handoverTake s = .next s) ∧
      (x.done = true →
        Does s (.handoverFailCheck ok) (max s.mono (x.at_ + (if x.out && !ok then 100000 else 60000))) (fun d e =>
          e.hsb.handover = none ∧ e.pendingSrc 161 = true ∧
          (ok = true → e.fld F.HSB_CNT_HANDOVERS = min 255 (d.fld F.HSB_CNT_HANDOVERS + 1) ∧
            e.hsb.handoverCount = d.hsb.handoverCount + 1 ∧ e.roleBit 0 = d.roleBit 0 ∧ e.roleBit 2 = d.roleBit 2 ∧
            (x.out = true → e.role = 4 ∨ e.role = 5 ∨ e.role = 6) ∧ (x.out = false → e.role = d.holderRole)) ∧
          (ok = false → e.fld F.HSB_CNT_HOFAIL = min 255 (d.fld F.HSB_CNT_HOFAIL + 1) ∧ e.roleBit 0 = x.out ∧
            e.roleBit 2 = (x.out && x.pub) ∧ e.gateOpen = (x.out && x.pub) ∧
            (x.out = true → e.role = d.holderRole ∧ e.hsb.slot = some (max s.mono (x.at_ + 100000) + 100000) ∧
              (max s.mono (x.at_ + 100000), Msg.refresh) ∈ e.outbox) ∧
            (x.out = false → e.role = 4 ∨ e.role = 5 ∨ e.role = 6)) ∧
          Settled d e [.hsb, .net] (Reg.HSB_STAT :: Reg.HSB_EVT :: Reg.HSB_CNT ::
            raiseRegs 156 ++ raiseRegs 160 ++ raiseRegs 161 ++ raiseRegs 163 ++ gateRegs)))) ∧
    (s.dev.hsb.handover = none → exec .handoverAckTimeout s = .next s ∧ exec .handoverInstant s = .next s ∧
      exec .handoverTake s = .next s ∧ exec (.handoverFailCheck ok) s = .next s) ∧
    (∀ x, s.dev.hsb.holdoff = some x → Does s .holdoffExpiry (max s.mono x) (fun d e =>
      let runs := d.flag F.HSB_CFG_AUTORET && d.roleBit 3 && decide (d.role = 4) && d.flag F.HSB_STAT_SYNCED &&
        decide (d.health = 0)
      (runs = true → e.hsb = { d.hsb with holdoff := none, returnSent := true } ∧
        (max s.mono x, Msg.pair true true d.pairHead .returnReq) ∈ e.outbox) ∧
      (runs = false → e.hsb = { d.hsb with holdoff := none, returnSent := false }) ∧ Only d e [.hsb] [])) ∧
    (s.dev.hsb.holdoff = none → exec .holdoffExpiry s = .next s) ∧
    (s.dev.member = true → p.crcOk = true → p.pairId = s.dev.rd Reg.HSB_PAIRID0 →
      let w := Sparse.get (fun _ => none) s.dev.hsb.waits c
      (s.dev.awaitsMirror = false → Does s (.mirrorReceived dt p ok m) t same) ∧
      (s.dev.awaitsMirror = true → Does s (.mirrorReceived dt p false m) t (fun d e =>
        (lateRun d ≠ some (d.mirrorRun c) → late d e (d.mirrorRun c)) ∧ (lateRun d = some (d.mirrorRun c) → same d e) ∧
        Sparse.get (fun _ => none) e.hsb.waits c = w ∧ TasksBut d e [] ∧ Only d e [.hsb, .tasks, .msix] syncRegs)) ∧
      (s.dev.awaitsMirror = true → (∀ x, w = some x → x.1 ≠ m.run) → Does s (.mirrorReceived dt p true m) t (fun d e =>
        let n := d.fld (F.HSB_MTASK_TASK c)
        let ahead := (m.run - (d.task n).runNo).toNat
        let early := decide (ahead < 2 ^ 31) && (decide (ahead ≠ 0) || (d.inRun n && (d.syncTask c).isNone))
        Sparse.get (fun _ => none) e.mem.mirrorReceive c = some m ∧
        (early = true → Sparse.get (fun _ => none) e.hsb.mirrors c = some m ∧ Only d e [.hsb] []) ∧
        (early = false → lateRun d ≠ some m.run → late d e m.run) ∧ (early = false → lateRun d = some m.run → same d e) ∧
        TasksBut d e [] ∧ Only d e [.hsb, .tasks, .msix] syncRegs)) ∧
      (s.dev.awaitsMirror = true → ∀ x n, w = some x → x.1 = m.run → x.2 < t → s.dev.syncTask c = some n →
        Does s (.mirrorReceived dt p true m) t (fun d e =>
          (lateRun d ≠ some m.run → late d e m.run) ∧ (lateRun d = some m.run → same d e) ∧
          Sparse.get (fun _ => none) e.hsb.waits c = w ∧ TasksBut d e [] ∧ Only d e [.hsb, .tasks, .msix] syncRegs)) ∧
      (s.dev.awaitsMirror = true → s.dev.modeChange = none → ∀ x n, w = some x → x.1 = m.run → t ≤ x.2 → m.runs = [] →
        (s.dev.core c).runs.all (fun x => decide (x.task < 64)) = true →
        ((s.dev.core c).runs.drop 1).all (fun x => !x.sync && x.stage == .logic) = true → s.dev.syncTask c = some n →
          Does s (.mirrorReceived dt p true m) t (fun d e =>
          (e.core c).runs = (d.core c).runs.drop 1 ∧ e.fld (F.HSB_MSYNC_LASTOK c) = 1 ∧ e.hsb.stNums = m.stNums ∧
          (d.flag F.HSB_STAT_SYNCED = false → e.hsb.syncCores.getLsbD c = true) ∧
          Sparse.get (fun _ => none) e.hsb.waits c = none ∧
          (d.mirrorTable c = [] → e.mem.data = d.mem.data) ∧
          (∀ x, d.mirrorTable c = [x] → d.fld F.HSB_VER_MAJ ≠ 1 → mirrorKind x.1 = 0 → ∀ y, m.items = [y] →
            mirrorKind y.head = 0 → mirrorId y.head = mirrorId x.1 → ∀ k, k < y.words.length →
              Memory.rdLE e.mem.data (d.mirrorAddr x + 8 * k) 8 = (y.words.getD k 0).toNat) ∧
          (∀ k, k ≠ c → e.core k = d.core k) ∧
          Only d e [.hsb, .cores, .tasks, .msix, .data] (syncRegs ++ Reg.TSK_USED n ::
            (d.core c).runs.map (fun x => Reg.TSK_STATE x.task))))) ∧
    (∀ w, Sparse.get (fun _ => none) s.dev.hsb.waits c = some w → s.dev.modeChange = none →
      (s.dev.core c).runs.all (fun x => decide (x.task < 64)) = true →
      ((s.dev.core c).runs.drop 1).all (fun x => !x.sync && x.stage == .logic) = true →
      ∀ n, s.dev.syncTask c = some n → Does s (.mirrorWaitTimeout m.core) (max s.mono w.2) (fun d e =>
        (lateRun d ≠ some w.1 → late d e w.1) ∧ Sparse.get (fun _ => none) e.hsb.waits c = none ∧ (e.core c).runs = (d.core c).runs.drop 1 ∧
        (∀ k, k ≠ c → e.core k = d.core k) ∧
        Only d e [.hsb, .cores, .tasks, .msix] (syncRegs ++ Reg.TSK_USED n ::
          (d.core c).runs.map (fun x => Reg.TSK_STATE x.task)))) ∧
    (Sparse.get (fun _ => none) s.dev.hsb.waits c = none → exec (.mirrorWaitTimeout m.core) s = .next s)

/-! ## Network -/

/-- R240 to R245, R256, R267 to R270: a frame received on a port, with what it makes the other ports send, the PHYs and
links, management frames, supervision frames, the table that remembers frames, and the launch of a queued frame. -/
def Obligations.NetworkPorts : Prop :=
  ∀ (s : State) (dt : Nat) (port : BitVec 2) (f : Frame) (b : Bool) (q : Requester) (v : Word) (resp : Option (BitVec 16)),
    let t := s.mono + dt
    let p := port.toNat
    let cd := decide (2 ≤ p)
    let incs (d e : Dev) (off : Nat) : Prop := (e.rd off).toNat = min 0xFFFFFFFF ((d.rd off).toNat + 1)
    let sgmii (d : Dev) : Bool := Sparse.get (fun _ => false) d.net.sgmii p
    let linked (d e : Dev) (an up : Bool) : Prop :=
      e.flag (F.ETH_STAT_ANDONE p) = (an && d.flag (F.ETH_CFG_ANEN p)) ∧
      e.flag (F.ETH_STAT_LINK p) = (d.flag F.SWX_PHYCTL_RSTREL && an && (!d.flag (F.ETH_PHYCFG_POLL p) || up)) ∧
      (e.flag (F.ETH_STAT_LINK p) ≠ d.flag (F.ETH_STAT_LINK p) → Raised d e (88 + 4 * p)) ∧ TasksBut d e [] ∧
      Only d e [.net, .tasks, .msix] (Reg.ETH_STAT p :: raiseRegs (88 + 4 * p))
    s.dev.awake = true →
    Does s (.frameReceive dt port f) t (fun d e =>
      let live := d.flag (F.ETH_CFG_EN p) && d.flag (F.ETH_STAT_LINK p)
      let good := f.fcsOk && decide (f.len ≤ 1522)
      let need := f.len * 8000
      let taken := d.subscribed cd f || decide (f.dmac.toNat = d.pairAddress cd) || decide (f.dmac = 0xFFFFFFFFFFFF)
      let ring := d.ringPasses p f
      let bridge := !taken && d.bridged f
      let rsv := d.rsvInUse p f
      let given : Prop := (t, Msg.deliver p f.etherType (d.rxStamp t p)) ∈ e.outbox
      let sends (q : Nat) (tag : Option RedTag) : Prop := d.flag (F.ETH_CFG_EN q) = true → d.inGuard t q = false →
        e.rd (Reg.ETH_TXFRAMES q) = d.rd (Reg.ETH_TXFRAMES q) + 1 ∧
          (t, Msg.port q (.forward p (d.corrected p f).2 tag)) ∈ e.outbox
      let other := !cd
      let seqNo := if d.pairMode other = 0 then none else some (Sparse.get (fun _ => 0) d.net.txSeq (b2n other))
      let ownTag := decide (d.pairMode cd = 2) && (decide (f.smac.toNat = d.pairAddress cd) || (d.proxyNodes cd).contains f.smac)
      let known (r : RedTag) := d.net.seen.any (fun x => x.same cd f.smac r)
      (live = false → Only d e [] []) ∧
      (live = true → good = false → incs d e (Reg.ETH_RXERR p) ∧
        (d.bit (Reg.ETH_STAT p) 5 = false → Raised d e (89 + 4 * p)) ∧ e.net = d.net) ∧
      (live = true → good = true → e.rd (Reg.ETH_RXFRAMES p) = d.rd (Reg.ETH_RXFRAMES p) + 1) ∧
      (live = true → good = true → d.reserved p f = true → e.rd (Reg.ETH_RSVFRAMES p) = d.rd (Reg.ETH_RSVFRAMES p) + 1 ∧
        (f.red = none → (f.general = true ∨ rsv < 8) → given ∧ e.net.rsvUsed = (d.setRsv p (if f.general then rsv else rsv + 1)).net.rsvUsed) ∧
        (f.red = none → f.general = false → 8 ≤ rsv → incs d e (Reg.ETH_RSVDROP p) ∧ Raised d e (91 + 4 * p))) ∧
      (live = true → good = true → d.reserved p f = false → d.bucket t p < need → incs d e (Reg.ETH_RXLIMDROP p) ∧
        (d.bit (Reg.ETH_STAT p) 5 = false → Raised d e (89 + 4 * p))) ∧
      (live = true → good = true → d.reserved p f = false → need ≤ d.bucket t p → e.bucket t p = d.bucket t p - need ∧
        (f.red = none → taken = true → given) ∧
        (f.red = none → ring = true → sends (p / 2 * 2 + 1 - p % 2) none) ∧
        (f.red = none → bridge = true → (∀ q ∈ pairPorts other, sends q (tagOn q seqNo)) ∧
          (d.pairMode other ≠ 0 → (d.proxyNodes other).length < 512 → (e.proxyNodes other).contains f.smac = true)) ∧
        (f.red = none → taken = false → ring = false → bridge = false → incs d e (Reg.ETH_FILTDROP p)) ∧
        (∀ r, f.red = some r → d.pairMode cd ≠ 0 → ownTag = false →
          (d.pairMode cd = 1 → r.lanB ≠ (p % 2 == 1) → e.rd (rcnt cd (1 + p % 2)) = d.rd (rcnt cd (1 + p % 2)) + 1 ∧ Raised d e 104) ∧
          (known r = true → e.rd (rcnt cd 0) = d.rd (rcnt cd 0) + 1 ∧ e.net.seen.length = d.net.seen.length) ∧
          (known r = false → d.nodeFits cd f.smac = true →
            e.net.seen = d.net.seen ++ [{ cd := cd, src := f.smac, seqNo := r.seqNo, at_ := t, twice := false }]) ∧
          (known r = false → taken = true → given) ∧
          (known r = false → ring = true → sends (p / 2 * 2 + 1 - p % 2) (some r))) ∧
        (∀ r, f.red = some r → ownTag = true →
          e.flag (if cd then F.SWX_STAT_RINGCD else F.SWX_STAT_RINGAB) = true ∧ e.net.seen = d.net.seen)) ∧
      (d.flag (F.ETH_CFG_TCEN p) = true → ∀ m, f.ptp = some m → m.kind = .sync false →
        (d.corrected p f).2 = some (addCorr m.corr
          (65536 * ((f.residence : Int) + (d.rd (Reg.ETH_PDELAY p)).toNat + sgn (d.rd (Reg.ETH_ASYM p)))))) ∧
      (f.ptp = none → (d.corrected p f).2 = none) ∧
      TasksBut d e [] ∧
      Only d e [.net, .tasks, .msix] ([Reg.ETH_STAT p, Reg.ETH_RXERR p, Reg.ETH_RXFRAMES p, Reg.ETH_RXLIMDROP p,
        Reg.ETH_RSVFRAMES p, Reg.ETH_RSVDROP p, Reg.ETH_FILTDROP p, Reg.SWX_STAT, Reg.SWX_NODECNT] ++
        (List.range 4).map Reg.ETH_TXFRAMES ++ (List.range 8).map Reg.SWX_RCNT ++ raiseRegs (89 + 4 * p) ++ raiseRegs (91 + 4 * p) ++ raiseRegs 104 ++
        raiseRegs 105)) ∧
    Does s (.linkChange dt port b) t (fun d e => sgmii e = b ∧ linked d e b (d.phyUp p)) ∧
    Does s (.phyPoll port b) ((s.mono / 10000000 + 1) * 10000000) (fun d e =>
      (d.flag (F.ETH_PHYCFG_POLL p) = true → e.phyUp p = b ∧ linked d e (sgmii d) b) ∧
      (d.flag (F.ETH_PHYCFG_POLL p) = false → Only d e [] [])) ∧
    Does s (.phyInt dt b) t (fun d e =>
      e.flag F.SWX_PHYCTL_INTLVL = b ∧ e.net = { d.net with phyIntLow := b } ∧
      (b = true → d.net.phyIntLow = false → d.flag F.SWX_PHYCTL_INTEN = true → Raised d e 111) ∧
      ((b = false ∨ d.net.phyIntLow = true ∨ d.flag F.SWX_PHYCTL_INTEN = false) → Only d e [.net] [Reg.SWX_PHYCTL]) ∧
      TasksBut d e [] ∧ Only d e [.net, .tasks, .msix] (Reg.SWX_PHYCTL :: Reg.SWX_STAT :: raiseRegs 111)) ∧
    (Writes s q Reg.SWX_PHYCTL → Does s (.phyResetControl q v) s.mono (fun d e =>
      e.flag F.SWX_PHYCTL_RSTREL = v.getLsbD 0 ∧ e.flag F.SWX_PHYCTL_INTEN = v.getLsbD 1 ∧
      e.fld F.SWX_PHYCTL_INTLVL = d.fld F.SWX_PHYCTL_INTLVL ∧
      (d.flag F.SWX_PHYCTL_RSTREL ≠ v.getLsbD 0 → (s.mono, Msg.phyReset (v.getLsbD 0)) ∈ e.outbox) ∧
      (v.getLsbD 0 = false → e.flag (F.ETH_STAT_LINK p) = false ∧ e.flag (F.ETH_STAT_ANDONE p) = false ∧
        (d.flag (F.ETH_STAT_LINK p) = true → Raised d e (88 + 4 * p))) ∧
      (v.getLsbD 0 = true → e.net = d.net ∧ e.flag (F.ETH_STAT_ANDONE p) = (sgmii d && d.flag (F.ETH_CFG_ANEN p)) ∧
        e.flag (F.ETH_STAT_LINK p) = (sgmii d && (!d.flag (F.ETH_PHYCFG_POLL p) || d.phyUp p))) ∧ TasksBut d e [] ∧
      Only d e [.net, .tasks, .msix] (Reg.SWX_PHYCTL :: (List.range 4).flatMap (fun k =>
        Reg.ETH_STAT k :: raiseRegs (88 + 4 * k))))) ∧
    (Writes s q Reg.SWX_MDIO → Does s (.mdioFrame q v) s.mono (fun d e =>
      (d.flag F.SWX_MDIO_BUSY = true → v.getLsbD 29 = true → Only d e [] []) ∧
      (d.flag F.SWX_MDIO_BUSY = false → v.getLsbD 29 = true → e.flag F.SWX_MDIO_BUSY = true ∧
        e.fld F.SWX_MDIO_OP = bitsOf v.toNat 28 26 ∧ e.fld F.SWX_MDIO_PHYAD = bitsOf v.toNat 25 21 ∧
        e.fld F.SWX_MDIO_REGAD = bitsOf v.toNat 20 16 ∧ e.fld F.SWX_MDIO_DATA = bitsOf v.toNat 15 0 ∧
        e.net = { d.net with mdioEnd := some (s.mono + 52000) } ∧ (s.mono, Msg.mdio (v &&& 0x1FFFFFFF)) ∈ e.outbox) ∧
      Only d e [.net] [Reg.SWX_MDIO])) ∧
    (∀ m, s.dev.net.mdioEnd = some m → s.dev.flag F.SWX_MDIO_BUSY = true →
      Does s (.mdioDone dt resp) (max s.mono (min t m)) (fun d e =>
        let op := d.fld F.SWX_MDIO_OP
        e.flag F.SWX_MDIO_BUSY = false ∧ e.net = { d.net with mdioEnd := none } ∧
        ((op = 1 ∨ op = 4 ∨ op = 5) → e.fld F.SWX_MDIO_DATA = d.fld F.SWX_MDIO_DATA) ∧
        (op ≠ 1 → op ≠ 4 → op ≠ 5 → e.flag F.SWX_MDIO_NORESP = resp.isNone ∧
          e.fld F.SWX_MDIO_DATA = (resp.getD 0xFFFF).toNat) ∧
        Only d e [.net] [Reg.SWX_MDIO])) ∧
    (s.dev.net.mdioEnd = none → exec (.mdioDone dt resp) s = .next s) ∧
    Does s .supervisionFrame ((s.mono / 2000000000 + 1) * 2000000000) (fun d e =>
      let m := (s.mono / 2000000000 + 1) * 2000000000
      (d.pairMode b ≠ 0 → ∀ k ∈ pairPorts b, d.flag (F.ETH_CFG_EN k) = true → d.inGuard m k = false →
        e.rd (Reg.ETH_TXFRAMES k) = d.rd (Reg.ETH_TXFRAMES k) + 1 ∧
        (m, Msg.port k (.supervision d.supervisionAddr (d.pairAddress b) (d.proxyNodes b)
          (tagOn k (some (Sparse.get (fun _ => 0) d.net.txSeq (b2n b)))))) ∈ e.outbox) ∧
      (d.pairMode b = 2 → e.flag (if b then F.SWX_STAT_RINGCD else F.SWX_STAT_RINGAB) = d.net.ownSeen.contains b ∧
        (e.rd Reg.SWX_STAT ≠ d.rd Reg.SWX_STAT → e.pendingSrc 105 = true)) ∧
      (d.pairMode false = 0 → d.pairMode true = 0 → Only d e [] []) ∧
      TasksBut d e [] ∧ Only d e [.net, .tasks, .msix] (Reg.SWX_STAT :: (List.range 4).map Reg.ETH_TXFRAMES ++ raiseRegs 105)) ∧
    (∀ x l, s.dev.net.seen = x :: l → Does s .entryForgetTime (max s.mono (x.at_ + 400000000)) (fun d e =>
      e.net = { d.net with seen := l } ∧
      e.fld F.SWX_NODECNT_AB = e.nodeCount false % 1024 ∧ e.fld F.SWX_NODECNT_CD = e.nodeCount true % 1024 ∧
      (x.twice = false → e.rd (rcnt x.cd 3) = d.rd (rcnt x.cd 3) + 1 ∧ Raised d e 104) ∧
      (x.twice = true → Only d e [.net] [Reg.SWX_NODECNT]) ∧
      TasksBut d e [] ∧
      Only d e [.net, .tasks, .msix] ([Reg.SWX_NODECNT, Reg.SWX_STAT, rcnt x.cd 3] ++ raiseRegs 104))) ∧
    (s.dev.net.seen = [] → exec .entryForgetTime s = .next s) ∧
    (∀ r, s.dev.nextLaunch p = some r → s.dev.flag (F.ETH_CFG_EN p) = true →
      let m := max s.mono (s.dev.whenStation s.mono r.2.at_)
      Does s (.launch ⟨port, b⟩) m (fun d e =>
        let late := r.2.late || decide (r.2.at_ + d.fld (F.ETH_LQCFG_LATETOL p r.1) * 8 < d.station m)
        let drop := late && d.flag (F.ETH_LQCFG_LATEPOL p r.1)
        let gone := d.gated m r.2.src
        let alone := d.heldFrames p = [] ∧ ∀ x, r.2.src ≠ .ptp x
        e.launchQ p r.1 = (d.launchQ p r.1).drop 1 ∧
        (b = true → e.fld F.SYS_ECC_LASTMEM = 3 ∧ e.fld F.SYS_ECC_CORR = min 65535 (d.fld F.SYS_ECC_CORR + 1)) ∧
        (gone = true → d.heldFrames p = [] → Only d e [.net] [Reg.ETH_LQSTAT p r.1, Reg.SYS_ECC]) ∧
        (gone = false → drop = false → (m, Msg.frame p (d.sealSrc m p r.2.src) late r.2.tag) ∈ e.outbox ∧
          (alone → e.rd (Reg.ETH_TXFRAMES p) = d.rd (Reg.ETH_TXFRAMES p) + 1)) ∧
        (drop = true → alone → e.rd (Reg.ETH_TXFRAMES p) = d.rd (Reg.ETH_TXFRAMES p)) ∧
        (gone = false → drop = false → ∀ x, r.2.src = .ptp x → x.body = .sync true → d.heldFrames p = [] →
          let follow : PortMsg := .ptp ({ x with body := .followUp }.stamped (d.txStampAt m p))
          (m, Msg.port p follow) ∈ e.outbox ∨ e.heldFrames p = [follow]) ∧
        (r.1 < 8 → gone = false → drop = true → e.fld (F.ETH_LQSTAT_DROPCNT p r.1) = min 255 (d.fld (F.ETH_LQSTAT_DROPCNT p r.1) + 1)) ∧
        (r.1 < 8 → gone = false → late = true → drop = false →
          e.fld (F.ETH_LQSTAT_LATECNT p r.1) = min 255 (d.fld (F.ETH_LQSTAT_LATECNT p r.1) + 1)) ∧
        (gone = false → late = true → Raised d e (90 + 4 * p)) ∧
        (gone = false → late = true → ∀ k, r.2.src.pub? = some k → k < 72 → e.pubWord k 31 = min 0xFFFFFFFF (d.pubWord k 31 + 1) ∧
          Raised d e 110) ∧
        (∀ k, k ≠ 8 * p + r.1 → Sparse.get (fun _ => []) e.net.launch k = Sparse.get (fun _ => []) d.net.launch k) ∧
        TasksBut d e [] ∧
        (r.2.src.pub?.isSome = true → Only d e [.net, .tasks, .msix] ([Reg.ETH_TXFRAMES p, Reg.ETH_LQSTAT p r.1,
          Reg.ETH_STAT p, Reg.SWX_STAT, Reg.SYS_ECC] ++ raiseRegs (90 + 4 * p) ++ raiseRegs 110)))) ∧
    ((s.dev.nextLaunch p = none ∨ s.dev.flag (F.ETH_CFG_EN p) = false) → exec (.launch ⟨port, b⟩) s = .next s)

/-- R66, R259 to R267, R272, R419: the tables of subscriptions and publications, GOOSE and Sampled Values received and stale, and
the frames that publications send. -/
def Obligations.SubscriptionsAndPublications : Prop :=
  ∀ (s : State) (dt : Nat) (q : Requester) (v : Word) (cd : Bool) (g : GooseFrame) (x : SvFrame) (sub : BitVec 10)
    (ds : BitVec 6) (str : BitVec 3) (p : BitVec 2),
    let t := s.mono + dt
    let i := bitsOf v.toNat 9 0
    let k := bitsOf v.toNat 6 0
    let si := sub.toNat
    let ei := ds.toNat
    let fromLan := q == .lan && v.getLsbD 16 && v.getLsbD 17
    let lossRegs := [Reg.ANG_LOSSCNT, Reg.ANG_STATE, Reg.ANG_STAT] ++ raiseRegs 80 ++ raiseRegs 82
    let subRegs (n : Nat) : List Nat := [Reg.SWX_SUBATTN (n / 32), Reg.SWX_STAT] ++ raiseRegs 106 ++ raiseRegs 107 ++ raiseRegs 108
    let entered (d e : Dev) (n st src : Nat) : Prop := e.subState n = st ∧
      (d.subState n ≠ st → Raised d e src) ∧ TasksBut d e [] ∧
      Only d e [.net, .images, .plane, .tasks, .msix] (subRegs n)
    let open_ (d : Dev) (e q : Nat) : Bool := d.gateOpen && bitOf (d.pubWord e 0) (1 + p.toNat / 2) &&
      d.flag (F.ETH_LQCFG_EN p.toNat q) && decide ((d.launchQ p.toNat q).length < 64)
    s.dev.awake = true →
    (Writes s q Reg.SWX_SUBCTL → Does s (.subAccess q v) s.mono (fun d e =>
      let w (n : Nat) : Nat := (d.rd (Reg.SWX_SUBDATA n)).toNat
      let ok := subWordsOk w && !d.fastClash i w && d.onlyEn (d.progOk q) (d.subWord i) w 8
      ((fromLan && !enAlone (d.subWord i) w 8) = true → Only d e [] []) ∧
      ((fromLan && !enAlone (d.subWord i) w 8) = false → e.fld F.SWX_SUBCTL_INDEX = i ∧
      (v.getLsbD 16 = false → Only d e [] [Reg.SWX_SUBCTL]) ∧
      (v.getLsbD 16 = true → v.getLsbD 17 = false →
        (∀ n, n < 12 → e.rd (Reg.SWX_SUBDATA n) = BitVec.ofNat 32 (d.subWord i n)) ∧
        Only d e [] (Reg.SWX_SUBCTL :: (List.range 12).map Reg.SWX_SUBDATA)) ∧
      (v.getLsbD 16 = true → v.getLsbD 17 = true → ok = true →
        (∀ n, n < 8 → e.subWord i n = w n) ∧ e.subState i = (if bitOf (w 0) 0 then 1 else 0) ∧
        e.fld F.SWX_SUBCTL_ERR = 0 ∧ (∀ j n, j ≠ i → n < 16 → e.subWord j n = d.subWord j n) ∧
        (e.refExists = true ∨ d.ang.valid = false → Only d e [.net, .images, .plane] [Reg.SWX_SUBCTL, Reg.SWX_SUBATTN (i / 32)]) ∧
        (e.refExists = false → d.ang.valid = true → e.ang.valid = false ∧ Raised d e 82) ∧ TasksBut d e [] ∧
        Only d e [.net, .images, .plane, .ang, .tasks, .msix]
          ([Reg.SWX_SUBCTL, Reg.SWX_SUBATTN (i / 32)] ++ lossRegs)) ∧
      (v.getLsbD 16 = true → v.getLsbD 17 = true → ok = false →
        e.fld F.SWX_SUBCTL_ERR = 1 ∧ Only d e [] [Reg.SWX_SUBCTL])))) ∧
    (Writes s q Reg.SWX_PUBCTL → Does s (.pubAccess q v) s.mono (fun d e =>
      let w (n : Nat) : Nat := (d.rd (Reg.SWX_PUBDATA n)).toNat
      let ok := decide (k < 72) && pubWordsOk (decide (64 ≤ k)) w && d.onlyEn (d.progOk q) (d.pubWord k) w 28
      ((fromLan && !enAlone (d.pubWord k) w 28) = true → Only d e [] []) ∧
      ((fromLan && !enAlone (d.pubWord k) w 28) = false → e.fld F.SWX_PUBCTL_INDEX = k ∧
      (v.getLsbD 16 = false → Only d e [] [Reg.SWX_PUBCTL]) ∧
      (v.getLsbD 16 = true → v.getLsbD 17 = false →
        (∀ n, n < 32 → e.rd (Reg.SWX_PUBDATA n) = BitVec.ofNat 32 (d.pubWord k n)) ∧
        Only d e [] (Reg.SWX_PUBCTL :: (List.range 32).map Reg.SWX_PUBDATA)) ∧
      (v.getLsbD 16 = true → v.getLsbD 17 = true → ok = true →
        (∀ n, n < 28 → e.pubWord k n = w n) ∧ e.pubWord k 30 = e.pstate k ∧ e.fld F.SWX_PUBCTL_ERR = 0 ∧
        (∀ j n, j ≠ k → n < 28 → e.pubWord j n = d.pubWord j n) ∧ Only d e [.net] [Reg.SWX_PUBCTL]) ∧
      (v.getLsbD 16 = true → v.getLsbD 17 = true → ok = false →
        e.fld F.SWX_PUBCTL_ERR = 1 ∧ Only d e [] [Reg.SWX_PUBCTL])))) ∧
    (s.dev.matchSub cd false g.id = none → Does s (.gooseReceived dt cd g) t (fun d e => Only d e [] [])) ∧
    (∀ n, s.dev.matchSub cd false g.id = some n →
      Does s (.gooseReceived dt cd g) t (fun d e =>
        let free := bitsOf (d.subWord n 7) 15 0 = 0
        let admitted := free ∧ d.subState n ≠ 5
        let bad := decide (g.confRev.toNat ≠ d.subWord n 4) || g.ndsCom
        let again := (g.test && !bitOf (d.subWord n 0) 4) || (g.sim && !bitOf (d.subWord n 0) 5) ||
          ((d.sub n).applied && decide (g.stNum.toNat = d.subWord n 9) && decide (g.sqNum = (d.sub n).sqNum))
        let l := (g.members.take (bitsOf (d.subWord n 5) 16 11)).map (fun y => (decodeMember y).1)
        (¬free → d.subTokens t n < 1000000000 → entered d e n 5 107 ∧
          e.subWord n 10 = min 0xFFFFFFFF (d.subWord n 10 + 1) ∧ e.subWord n 9 = d.subWord n 9) ∧
        (admitted → bad = true → entered d e n 4 108 ∧ e.subWord n 9 = d.subWord n 9) ∧
        (admitted → bad = false → again = true → e.subState n = d.subState n ∧
          e.subWord n 11 % 65536 = min 65535 (d.subWord n 11 % 65536 + 1) ∧ Only d e [.net] []) ∧
        (admitted → bad = false → again = false → e.subState n = 2 ∧ e.subWord n 9 = g.stNum.toNat ∧
          (e.sub n).sqNum = g.sqNum ∧ (e.sub n).applied = true ∧ (e.sub n).staleAt = some (t + g.ttl.toNat * 1000000) ∧
          (∀ m, m < bitsOf (d.subWord n 5) 16 11 →
            bitsOf (e.inWord (e.gooseWord n + 1 + m / 2)) (32 * (m % 2) + 31) (32 * (m % 2)) = l.getD m 0 % 2 ^ 32) ∧
          bitsOf (e.inWord (e.gooseWord n)) 31 0 = g.stNum.toNat ∧ bitsOf (e.inWord (e.gooseWord n)) 50 48 = 2 ∧
          bitsOf (e.inWord (e.gooseWord n)) 47 32 = g.sqNum.toNat % 65536 ∧
          Sparse.get (fun _ => []) e.mem.store n = l.map (BitVec.ofNat 32) ∧
          (∀ m, m < bitsOf (d.subWord n 6) 14 9 → m < 32 → bitsOf (d.subWord n 6) 8 0 + m < 512 →
            e.gooseBits.getLsbD (bitsOf (d.subWord n 6) 8 0 + m) = bitOf (l.getD m 0) 0) ∧
          Only d e [.net, .images, .plane] [Reg.SWX_SUBATTN (n / 32)]) ∧
        TasksBut d e [] ∧ e.mem.gens = d.mem.gens ∧ e.mem.inCur = d.mem.inCur ∧ e.mem.out = d.mem.out ∧
        Only d e [.net, .images, .plane, .tasks, .msix] (subRegs n))) ∧
    (s.dev.matchSub cd true x.id = none → Does s (.svReceived dt cd x) t (fun d e => Only d e [] [])) ∧
    (∀ n, s.dev.matchSub cd true x.id = some n →
      Does s (.svReceived dt cd x) t (fun d e =>
        let free := bitsOf (d.subWord n 7) 15 0 = 0
        let admitted := free ∧ d.subState n ≠ 5
        let bad := decide (x.confRev.toNat ≠ d.subWord n 4)
        let sim := x.sim && !bitOf (d.subWord n 0) 5
        let w0 := d.svWord n
        let slot := if (d.sub n).applied then (d.inWord w0 % 16 + 1) % 14 else 0
        (¬free → d.subTokens t n < 1000000000 → entered d e n 5 107) ∧
        (admitted → bad = true → entered d e n 4 108) ∧
        (admitted → bad = false → sim = true → e.subState n = d.subState n ∧ Only d e [.net] []) ∧
        (admitted → bad = false → sim = false → ∀ a, x.asdus = [a] →
          e.subState n = 2 ∧ e.subWord n 9 = a.smpCnt.toNat ∧
          (e.sub n).staleAt = some (t + bitsOf (d.subWord n 6) 31 16 * 1000000) ∧
          bitsOf (e.inWord w0) 3 0 = slot ∧ bitsOf (e.inWord w0) 6 4 = 2 ∧
          Sparse.get (fun _ => []) e.mem.store n = a.values ∧
          e.inWord (w0 + 2 + 9 * slot) = a.smpCnt.toNat + a.good.toNat * 2 ^ 16 + a.synch.toNat * 2 ^ 48 + 2 ^ 50 ∧
          (∀ c, c < 16 → bitsOf (e.inWord (w0 + 3 + 9 * slot + c / 2)) (32 * (c % 2) + 31) (32 * (c % 2)) =
            if c < bitsOf (d.subWord n 5) 12 8 then (a.values.getD c 0).toNat else 0)) ∧
        TasksBut d e [] ∧ e.mem.gens = d.mem.gens ∧ e.mem.inCur = d.mem.inCur ∧ e.mem.out = d.mem.out ∧
        Only d e [.net, .images, .plane, .tasks, .msix] (subRegs n))) ∧
    (∀ m, (s.dev.sub si).staleAt = some m → s.dev.subIsSv si = false →
      Does s (.gooseStale sub) (max s.mono m) (fun d e => (e.sub si).staleAt = none ∧ entered d e si 3 106 ∧
        ∀ j, j < bitsOf (d.subWord si 6) 14 9 → bitsOf (d.subWord si 6) 8 0 + j < 512 →
          e.gooseBits.getLsbD (bitsOf (d.subWord si 6) 8 0 + j) = false) ∧ exec (.svStale sub) s = .next s) ∧
    (∀ m, (s.dev.sub si).staleAt = some m → s.dev.subIsSv si = true →
      Does s (.svStale sub) (max s.mono m) (fun d e => (e.sub si).staleAt = none ∧ entered d e si 3 106 ∧
        e.gooseBits = d.gooseBits) ∧ exec (.gooseStale sub) s = .next s) ∧
    ((s.dev.sub si).staleAt = none → exec (.gooseStale sub) s = .next s ∧ exec (.svStale sub) s = .next s) ∧
    (∀ m, (s.dev.pub ei).next = some m → bitOf (s.dev.pubWord ei 0) 0 = true →
      Does s (.gooseRetransmit ds) (max s.mono m) (fun d e =>
        e.pubWord ei 29 = (d.pubWord ei 29 + 1) % 2 ^ 32 ∧ e.pubWord ei 28 = d.pubWord ei 28 ∧
        (e.pub ei).step = (d.pub ei).step + 1 ∧
        (e.pub ei).next = some (max s.mono m + 1000000 * (if (d.members ei).isNone then bitsOf (d.pubWord ei 4) 31 16 else
          min (bitsOf (d.pubWord ei 4) 31 16) (bitsOf (d.pubWord ei 4) 15 0 * 2 ^ min 16 (d.pub ei).step))) ∧
        (open_ d ei 6 = true → (e.launchQ p.toNat 6).length = (d.launchQ p.toNat 6).length + 1 ∧
          ((e.launchQ p.toNat 6).drop (d.launchQ p.toNat 6).length).map (fun y => (y.at_, y.src.pub?)) =
            [(d.station (max s.mono m), some ei)]) ∧
        TasksBut d e [] ∧ Only d e [.net, .tasks, .msix] postRegs)) ∧
    ((s.dev.pub ei).next = none → exec (.gooseRetransmit ds) s = .next s) ∧
    Does s (.svPublish str) s.mono (fun d e =>
      let j := 64 + str.toNat
      let n := bitsOf (d.pubWord j 4) 3 0
      let due := bitOf (d.pubWord j 0) 0 && decide (n ≠ 0) && decide (n ≤ (d.io.tlCount - (d.pub j).sent).toNat)
      (due = false → Only d e [] []) ∧
      (due = true → (e.pub j).sent = d.io.tlCount) ∧
      (due = true → open_ d j 7 = true → (e.launchQ p.toNat 7).length = (d.launchQ p.toNat 7).length + 1) ∧
      TasksBut d e [] ∧ Only d e [.net, .tasks, .msix] postRegs)

/-! ## Station time -/

/-- R247 to R258: the discipline of station time: a Sync, an Announce, a peer delay exchange, the timeouts of a domain,
the choice of the source, a change of the quality code, the epoch, a set of station time, IRIG-B and PPS, and what the
device sends at a message interval. -/
def Obligations.StationTime : Prop :=
  ∀ (s : State) (dt : Nat) (dom : BitVec 1) (domain : BitVec 8) (port : BitVec 2) (sec : BitVec 48) (ns : BitVec 30) (corr : BitVec 64)
    (servo freq v : Word) (a : Announce) (rtt turn : Nat) (ann irig pps : Bool) (q : Requester) (g : IrigFrame),
    let t := s.mono + dt
    let k := dom.toNat
    let p := port.toNat
    let stepped (d e : Dev) (m : Nat) (o : Int) : Prop := e.station m = ((d.station m : Int) + o).toNat ∧ e.time.slew = 0 ∧
      e.rd Reg.PTP_LASTSTEP = sat32 o ∧ (e.rd Reg.PTP_STEPCNT).toNat = min 0xFFFFFFFF ((d.rd Reg.PTP_STEPCNT).toNat + 1) ∧
      Raised d e 114
    let jump (d : Dev) (m : Nat) (o : Int) : Bool :=
      (decide (d.tq m = 3) && decide (1000 < o.natAbs)) || decide (d.fld F.PTP_STEPLIM_LIM * 1000 < o.natAbs)
    let taken (d e : Dev) (m : Nat) (o : Int) : Prop := (jump d m o = true → stepped d e m o) ∧
      (jump d m o = false → e.station m = d.station m ∧ e.time.slew = o)
    let frame (d e : Dev) (l : List Nat) : Prop := TasksBut d e [] ∧ Only d e [.time, .rtc, .tasks, .msix] (timeRegs ++ l)
    let wide (d e : Dev) (l : List Nat) : Prop := TasksBut d e [] ∧
      Only d e stepParts (timeRegs ++ stepRegs ++ l)
    s.dev.awake = true →
    (s.dev.domainOf domain = none →
      Does s (.ptpSync dt domain port sec ns corr servo freq) t (fun d e => Only d e [] []) ∧
      Does s (.ptpAnnounce dt domain port a) t (fun d e => Only d e [] [])) ∧
    (∀ k, s.dev.domainOf domain = some k → Does s (.ptpSync dt domain port sec ns corr servo freq) t (fun d e =>
      let live := d.ptpPort k p && decide (d.fld (F.PTP_DSTAT_SPORT k) = p)
      let o := d.syncTime p sec ns corr - d.rxStamp t p
      let near := if (sgn servo).natAbs ≤ 50 then (d.dom k).near + 1 else 0
      let far := if 200 < (sgn servo).natAbs then (d.dom k).far + 1 else 0
      (live = false → Only d e [] []) ∧
      (live = true → e.rd (Reg.PTP_DOFS k) = sat32 o ∧ e.rd (Reg.PTP_DFREQ k) = freq ∧
        e.rd (Reg.PTP_DSYNC k) = d.rd (Reg.PTP_DSYNC k) + 1 ∧ (e.dom k).lastSync = t ∧ (e.dom k).moved = false ∧
        e.fld F.PTP_STAT_TQ = e.tq t ∧ e.fld F.PTP_STAT_SRC = d.fld F.PTP_STAT_SRC ∧
        (d.servo k = 1 → e.servo k = if 16 ≤ near then 2 else 1) ∧
        (d.servo k = 2 → e.servo k = if 4 ≤ far then 1 else 2) ∧
        (d.servo k = 3 → e.servo k = if 4 ≤ near then 2 else 3) ∧
        (d.ownSrc ≠ k + 1 → e.station t = d.station t ∧ e.time.corr = d.time.corr) ∧
        (d.ownSrc = k + 1 → e.time.corr = sgn freq ∧
          (o.natAbs ≤ 1000 → e.station t = d.station t) ∧
          (1000 < o.natAbs → (d.dom k).moved = true → e.station t = d.station t ∧ e.time.slew = o) ∧
          (1000 < o.natAbs → (d.dom k).moved = false → taken d e t o)) ∧
        ((d.ownSrc ≠ k + 1 ∨ o.natAbs ≤ 1000) → Only d e [.time, .rtc, .tasks, .msix, .ang] (timeRegs ++
          [Reg.PTP_DOFS k, Reg.PTP_DFREQ k, Reg.PTP_DSYNC k, Reg.PTP_DSTAT k]))) ∧
      wide d e [Reg.PTP_DOFS k, Reg.PTP_DFREQ k, Reg.PTP_DSYNC k, Reg.PTP_DSTAT k])) ∧
    (∀ k, s.dev.domainOf domain = some k → Does s (.ptpAnnounce dt domain port a) t (fun d e =>
      let live := d.ptpPort k p
      let takes := (d.dom k).best.all (fun b => a.gm == b.gm || rankLt (rankOf a) (rankOf b))
      ((live = false ∨ takes = false) → Only d e [] []) ∧
      (live = true → takes = true → (e.dom k).best = some a ∧ (e.dom k).lastAnnounce = t ∧
        e.fld (F.PTP_DSTAT_GMVALID k) = 1 ∧ e.fld (F.PTP_DSTAT_GMCLASS k) = a.clockClass.toNat ∧
        e.fld (F.PTP_DSTAT_STEPSRM k) = a.steps.toNat ∧ e.rd64 (Reg.PTP_DGMID0 k) = a.gm.toNat ∧
        e.station t = d.station t ∧ e.fld F.PTP_STAT_TQ = e.tq t ∧
        ((d.dom k).known ≠ some (a.gm, a.clockClass) → Raised d e 115) ∧
        ((d.dom k).known = some (a.gm, a.clockClass) → e.pendingSrc 115 = d.pendingSrc 115)) ∧
      frame d e ([Reg.PTP_DSTAT k, Reg.PTP_DGMID0 k, Reg.PTP_DGMID0 k + 4] ++ portRegs ++ raiseRegs 115))) ∧
    Does s (.pdelayReq dt port rtt turn) t (fun d e =>
      (d.flag (F.ETH_CFG_PTPEN p) = true → e.rd (Reg.ETH_PDELAY p) = BitVec.ofNat 32 ((rtt - turn) / 2) ∧
        e.fld (F.PTP_PSTAT_PDVALID p) = 1 ∧
        (d.flag (F.ETH_CFG_EN p) = true → d.inGuard t p = false → e.rd (Reg.ETH_TXFRAMES p) = d.rd (Reg.ETH_TXFRAMES p) + 1 ∧
          (t, Msg.port p (.ptp ((d.ptpSent (if d.ptpPort 0 p then 0 else 1) .pdelayResp).stamped (d.txStampAt t p)))) ∈ e.outbox)) ∧
      (d.flag (F.ETH_CFG_PTPEN p) = false → Only d e [] []) ∧
      Only d e [.net] [Reg.ETH_PDELAY p, Reg.PTP_PSTAT p, Reg.ETH_TXFRAMES p]) ∧
    (s.dev.flag (F.PTP_DCFG_EN k) = true →
      let m := max s.mono ((if ann then (s.dev.dom k).lastAnnounce else (s.dev.dom k).lastSync) + 3000000000)
      Does s (.syncTimeout dom ann) m (fun d e =>
        (ann = true → (e.dom k).best = none ∧ (e.dom k).lastAnnounce = m ∧ e.fld (F.PTP_DSTAT_GMVALID k) = 0 ∧
          ((d.dom k).known ≠ none → Raised d e 115)) ∧
        (ann = false → (d.otherPort k).isSome = true → some (e.fld (F.PTP_DSTAT_SPORT k)) = d.otherPort k ∧
          (e.dom k).lastSync = m ∧ (e.dom k).moved = true ∧ e.servo k = d.servo k) ∧
        ((ann = true ∨ d.otherPort k = none) → e.servo k = if d.servo k = 2 then 3 else d.servo k) ∧
        e.station m = d.station m ∧ frame d e (Reg.PTP_DSTAT k :: portRegs ++ raiseRegs 115))) ∧
    (s.dev.flag (F.PTP_DCFG_EN k) = false → exec (.syncTimeout dom ann) s = .next s) ∧
    (let h := s.dev.preferred s.mono
      let follows (d e : Dev) (m : Nat) : Prop :=
        let r := (d.preferred m).1
        let o := d.sourceOfs r
        (d.following = true → e.fld F.PTP_STAT_SRC = d.fld F.PTP_STAT_SRC ∧ e.station m = d.station m) ∧
        (d.following = false → e.fld F.PTP_STAT_SRC = r) ∧
        (d.following = false → d.fld F.PTP_STAT_SRC ≠ r → Raised d e 113 ∧
          e.fld F.PTP_STAT_TQ = e.tq m ∧ (d.sourceUsable r = true → e.fld F.PTP_STAT_EVERLOCKED = 1) ∧
          (r = 0 → e.station m = d.station m ∧ e.time.usable = false) ∧
          (r ≠ 0 → e.time.lastSrc = r ∧ taken d e m o)) ∧
        ((d.following = true ∨ d.fld F.PTP_STAT_SRC = r) → Only d e [] []) ∧ wide d e (raiseRegs 113);
      (h.2 = false → Does s .sourceSelect s.mono (fun d e => follows d e s.mono)) ∧
      (h.2 = true → s.dev.time.better = none → Does s .sourceSelect s.mono (fun d e =>
        e.time = { d.time with better := some (h.1, s.mono) } ∧ Only d e [.time] [])) ∧
      (h.2 = true → ∀ b, s.dev.time.better = some b →
        let m := max s.mono (b.2 + s.dev.fld F.PTP_CFG_SELHOLD * 1000000000)
        Does s .sourceSelect m (fun d e => follows d e m))) ∧
    (let due := leastFrom (fun x => s.dev.tq x != s.dev.fld F.PTP_STAT_TQ) 48 s.mono;
      (s.dev.tq due ≠ s.dev.fld F.PTP_STAT_TQ → Does s .timeQualityChange (max s.mono due) (fun d e =>
        e.fld F.PTP_STAT_TQ = d.tq due ∧ Raised d e 112 ∧ e.time = { d.time with ppsUntil := e.time.ppsUntil } ∧
        (∀ x, d.time.ppsUntil = some x → max s.mono due < x → d.ppsMuted (max s.mono due) = true →
          e.time.ppsUntil = none ∧ (max s.mono due, Msg.ppsLow) ∈ e.outbox) ∧
        TasksBut d e [] ∧ Only d e [.time, .rtc, .tasks, .msix] timeRegs)) ∧
      (s.dev.tq due = s.dev.fld F.PTP_STAT_TQ → exec .timeQualityChange s = .next s)) ∧
    Does s .epochCarry (max s.mono (s.dev.whenStation s.mono (s.dev.epochNext s.mono))) (fun d e =>
      e.fld F.PTP_EPOCHEXT_HI = (d.fld F.PTP_EPOCHEXT_HI + 1) % 65536 ∧ Raised d e 118 ∧ e.time = d.time ∧ TasksBut d e [] ∧
      Only d e [.tasks, .msix] ([Reg.PTP_EPOCHEXT, Reg.PTP_STAT] ++ raiseRegs 118)) ∧
    (Writes s q Reg.PTP_CMD → Does s (.ptpSetTime q v) s.mono (fun d e =>
      let set_ := decide (bitsOf v.toNat 31 16 = 0x71A3) && decide (bitsOf v.toNat 3 0 = 1)
      let new := d.rd64 Reg.PTP_SETSEC0 * 1000000000 + (d.rd Reg.PTP_SETNS).toNat
      (set_ = false → Only d e [] []) ∧
      (set_ = true → d.tq s.mono = 3 → d.fld F.PTP_STAT_SRC = 0 →
        stepped d e s.mono ((new : Int) - d.station s.mono) ∧ e.station s.mono = new ∧ e.tq s.mono = 3) ∧
      (set_ = true → (d.tq s.mono ≠ 3 ∨ d.fld F.PTP_STAT_SRC ≠ 0) → e.fld F.PTP_STAT_REFUSED = 1 ∧
        Only d e [] [Reg.PTP_STAT]) ∧ TasksBut d e [] ∧
      Only d e (.nvs :: stepParts) (timeRegs ++ stepRegs))) ∧
    Does s (.irigFrame dt ⟨g, freq⟩) t (fun d e =>
      let x := d.irigUtc t g + d.fld F.PTP_IRIGCFG_TAIOFS
      let o := ((x * 1000000000 : Nat) : Int) - d.station t
      let good := g.parityOk && d.time.irigSec.all (fun y => decide (y + 1 = x))
      (d.flag F.PTP_IRIGCFG_IRIGEN = false → Only d e [] []) ∧
      (d.flag F.PTP_IRIGCFG_IRIGEN = true → e.time.irigSec = some x ∧ e.time.irigEdge = t ∧ e.time.irigOfs = o ∧
        e.fld F.PTP_STAT_TQ = e.tq t ∧
        (good = true → d.time.irigBad = 0 → e.flag F.PTP_IRIGSTAT_IRIGOK = true ∧ e.time.irigBad = 0 ∧
          (d.flag F.PTP_IRIGSTAT_IRIGOK = false → Raised d e 117)) ∧
        (good = true → d.time.irigBad ≠ 0 → e.time.irigBad = d.time.irigBad - 1 ∧
          e.rd Reg.PTP_IRIGSTAT = d.rd Reg.PTP_IRIGSTAT) ∧
        (good = false → e.time.irigBad = 3 ∧ e.flag F.PTP_IRIGSTAT_IRIGOK = false ∧
          e.flag F.PTP_IRIGSTAT_ALIGNED = false ∧ e.flag F.PTP_IRIGSTAT_PPSOK = d.flag F.PTP_IRIGSTAT_PPSOK ∧
          e.fld F.PTP_IRIGSTAT_ERRCNT = min 255 (d.fld F.PTP_IRIGSTAT_ERRCNT + 1) ∧ Raised d e 117) ∧
        ((d.ownSrc ≠ 3 ∨ good = false) → e.station t = d.station t ∧ e.time.corr = d.time.corr ∧
          frame d e (Reg.PTP_IRIGSTAT :: raiseRegs 117)) ∧
        (d.ownSrc = 3 → good = true → e.time.corr = sgn freq ∧ (o.natAbs ≤ 1000 → e.station t = d.station t) ∧
          (1000 < o.natAbs → taken d e t o))) ∧
      wide d e (Reg.PTP_IRIGSTAT :: raiseRegs 117)) ∧
    Does s (.irigLoss dt irig pps) t (fun d e =>
      e.flag F.PTP_IRIGSTAT_IRIGOK = (d.flag F.PTP_IRIGSTAT_IRIGOK && !irig) ∧
      e.flag F.PTP_IRIGSTAT_PPSOK = (d.flag F.PTP_IRIGSTAT_PPSOK && !pps) ∧
      e.flag F.PTP_IRIGSTAT_ALIGNED = (d.flag F.PTP_IRIGSTAT_ALIGNED && e.flag F.PTP_IRIGSTAT_IRIGOK &&
        e.flag F.PTP_IRIGSTAT_PPSOK) ∧
      e.time.irigSec = (if irig then none else d.time.irigSec) ∧ e.time.ppsEdge = (if pps then none else d.time.ppsEdge) ∧
      e.station t = d.station t ∧ frame d e (Reg.PTP_IRIGSTAT :: raiseRegs 117)) ∧
    Does s (.ppsInEdge dt) t (fun d e =>
      (d.flag F.PTP_IRIGCFG_PPSEN = false → Only d e [] []) ∧
      (d.flag F.PTP_IRIGCFG_PPSEN = true → e.time.ppsEdge = some t ∧ e.flag F.PTP_IRIGSTAT_PPSOK = true ∧
        e.flag F.PTP_IRIGSTAT_IRIGOK = d.flag F.PTP_IRIGSTAT_IRIGOK ∧
        (d.flag F.PTP_IRIGSTAT_PPSOK = false → Raised d e 117) ∧
        e.rd Reg.PTP_PPSINNS = BitVec.ofNat 32 (d.station t % 1000000000) ∧
        (d.flag F.PTP_IRIGSTAT_IRIGOK = false →
          e.rd Reg.PTP_PPSINSEC0 = BitVec.ofNat 32 (d.station t / 1000000000) ∧ e.flag F.PTP_IRIGSTAT_ALIGNED = false)) ∧
      e.station t = d.station t ∧ frame d e ([Reg.PTP_IRIGSTAT, Reg.PTP_PPSINNS, Reg.PTP_PPSINSEC0] ++ raiseRegs 117)) ∧
    (let m := max s.mono (s.dev.whenStation s.mono (s.dev.ppsNext s.mono));
      Does s .ppsOutPulse m (fun d e =>
        (d.flag F.PTP_PPSOUT_EN = true → (d.flag F.PTP_PPSOUT_SUPQ = false ∨ d.tq m ≤ d.fld F.PTP_PPSOUT_QLIM) →
          (m, Msg.pps (d.fld F.PTP_PPSOUT_WIDTH)) ∈ e.outbox ∧
          e.time = { d.time with ppsUntil := some (m + d.fld F.PTP_PPSOUT_WIDTH * 1000000) }) ∧
        ((d.flag F.PTP_PPSOUT_EN = false ∨ d.ppsMuted m = true) → Only d e [] []) ∧ Only d e [.time] [])) ∧
    (let m := (s.mono / 1000000000 + 1) * 1000000000;
      Does s .ptpMessageInterval m (fun d e =>
        let posted (b : PtpBody) : Prop := d.flag (F.ETH_LQCFG_EN p 5) = true → (d.launchQ p 5).length + 6 ≤ 64 →
          ∃ x ∈ e.launchQ p 5, x.at_ = d.station m ∧ x.src = .ptp (d.ptpSent k b)
        (d.portState m k p ≠ 3 → posted .pdelayReq) ∧
        (d.portState m k p = 6 → posted (.sync (d.flag F.PTP_CFG_TWOSTEP)) ∧ posted (.announce (d.announced m k))) ∧
        bitsOf (e.rd (Reg.PTP_PSTAT p)).toNat 7 0 = d.portState m 0 p + 16 * d.portState m 1 p ∧
        TasksBut d e [] ∧ Only d e [.net, .tasks, .msix] (portRegs ++ (List.range 4).map (fun p => Reg.ETH_LQSTAT p 5))))

/-! ## Panel bus -/

/-- R276 to R293: the CAN channels and the station engine: frames received, stored and sent, aborts, error states, modes and
wake-up, reference messages, and the SYNC, INPUT, HELLO, STATUS and command frames of the stations. -/
def Obligations.PanelBus : Prop :=
  ∀ (s : State) (dt : Nat) (n b : BitVec 2) (sof : Nat) (f : CanFrame) (q : Requester) (v : Word) (tec : BitVec 9)
    (rec_ : BitVec 8) (code : BitVec 3) (data : Bool) (sta : BitVec 4) (ago : Nat) (seq nin nout : BitVec 8)
    (l : List Word64) (safe muted ok : Bool) (cycle : BitVec 16) (sec : BitVec 8) (ns : Word),
    let t := s.mono + dt
    let c := n.toNat
    let i := sta.toNat
    let ctl := Reg.CAN_TXCTL c b.toNat
    let same (d e : Dev) : Prop := Only d e [] []
    let tx (d e : Dev) (pend ended : Bool) : Prop :=
      (b.toNat = 0 → d.canEngineOwns c = true → e.fld (F.CAN_STAT_REFUSED c) = 1 ∧ Only d e [] [Reg.CAN_STAT c]) ∧
      ((b.toNat ≠ 0 ∨ d.canEngineOwns c = false) → e.rd ctl &&& 0x20FF = v &&& 0x20FF ∧
        e.flag (F.CAN_TXCTL_PEND c b.toNat) = (pend && !ended) ∧
        (pend = true → ended = true → e.flag (F.CAN_TXCTL_ABORTED c b.toNat) = true ∧ Raised d e (122 + 4 * c)) ∧
        ((pend && ended) = false → Only d e [] [ctl])) ∧
      TasksBut d e [] ∧ Only d e [.tasks, .msix] (ctl :: Reg.CAN_STAT c :: raiseRegs (122 + 4 * c))
    s.dev.awake = true →
    Does s (.canFrameReceive dt n sof f) t (fun d e =>
      let live := decide (d.canMode c ≤ 1) && decide (d.fld (F.CAN_STAT_ERRSTATE c) ≠ 2) && (!f.fdf || d.flag (F.CAN_CFG_FDEN c))
      let plain := live && !f.rtr && (f.ide || decide (f.id.toNat ≠ d.fld (F.CAN_REFCFG_REFID c))) &&
        !(d.flag (F.CAN_CFG_STAEN c))
      let hit := (List.range 64).find? (fun k => d.filterHit c k f)
      let old := (d.chan c).fifo
      let room := if f.isCommand then decide (old.length < 32) else
        decide ((old.filter (fun p => !p.1)).length < 28) && decide (old.length < 32)
      let stored (k : Nat) : Prop :=
        (e.chan c).fifo.getLast? = some (f.isCommand, rxWords f f.isCommand k (canStamp c t sof)) ∧
        (room = true → (e.chan c).fifo.length = old.length + 1 ∧ e.fld (F.CAN_RXSTAT_COUNT c) = (old.length + 1) % 64 ∧
          e.fld (F.CAN_RXSTAT_LOST c) = d.fld (F.CAN_RXSTAT_LOST c)) ∧
        (room = false → (e.chan c).fifo.length = old.length ∧
          e.fld (F.CAN_RXSTAT_LOST c) = min 65535 (d.fld (F.CAN_RXSTAT_LOST c) + 1)) ∧
        ((f.isCommand || !room) = true → Raised d e (121 + 4 * c)) ∧ e.mem = d.mem
      let missed : Prop := e.fld (F.CAN_RXSTAT_NOMATCH c) = min 255 (d.fld (F.CAN_RXSTAT_NOMATCH c) + 1) ∧
        Only d e [] [Reg.CAN_RXSTAT c]
      (live = false → same d e) ∧ (live = true → f.rtr = true → missed) ∧
      (plain = true → f.isCommand = true → stored 0) ∧
      (plain = true → f.isCommand = false → hit = none → missed) ∧
      (plain = true → f.isCommand = false → ∀ k, hit = some k →
        (d.fld (F.CAN_FID_ACTION c k) = 1 → stored k) ∧ (d.fld (F.CAN_FID_ACTION c k) = 2 → same d e)) ∧
      (plain = true → TasksBut d e [] ∧
        Only d e [.can, .tasks, .msix] (Reg.CAN_RXSTAT c :: Reg.CAN_STAT c :: raiseRegs (121 + 4 * c))) ∧
      (live = true → f.rtr = false → f.ide = false → f.id.toNat = d.fld (F.CAN_REFCFG_REFID c) → d.canTmode c = 2 →
        (e.chan c).slavePrev = some (d.stationAgo t sof) ∧ (e.chan c).refSeen = some t)) ∧
    (Writes s q ctl →
      (b.toNat = 3 → Does s (.canTxRequest q n b v) s.mono same ∧ Does s (.canTxAbort q n b v) s.mono same) ∧
      (b.toNat < 3 → Does s (.canTxRequest q n b v) s.mono (fun d e => tx d e true (v.getLsbD 11)) ∧
        Does s (.canTxAbort q n b v) s.mono (fun d e =>
          tx d e (d.flag (F.CAN_TXCTL_PEND c b.toNat) || v.getLsbD 8) true))) ∧
    Does s (.canTxDone dt n sof) t (fun d e =>
      let live := decide (d.canMode c = 0) && decide (d.fld (F.CAN_STAT_ERRSTATE c) ≠ 2)
      ((live = false ∨ d.txNext c = none) → same d e) ∧
      (live = true → ∀ p, d.txNext c = some p →
        e.rd (Reg.CAN_TXSTAMP c p.1) = canStamp c t sof ∧ e.flag (F.CAN_TXCTL_DONE c p.1) = true ∧
        (t, Msg.can c p.2) ∈ e.outbox ∧
        (d.flag (F.CAN_TXCTL_IRQ c p.1) = true → Raised d e (122 + 4 * c)) ∧
        ((p.1 ≠ 0 ∨ d.canEngineOwns c = false) → e.flag (F.CAN_TXCTL_PEND c p.1) = false ∧ TasksBut d e [] ∧
          Only d e [.tasks, .msix] ([Reg.CAN_TXCTL c p.1, Reg.CAN_TXSTAMP c p.1, Reg.CAN_STAT c] ++ raiseRegs (122 + 4 * c)))) ∧
      (∀ k, k ≠ c → e.chan k = d.chan k)) ∧
    (s.dev.mayRead q = true → Does s (.canRxfPop q n) s.mono (fun d e =>
      ((d.chan c).fifo = [] → e.readData = 0 ∧ Only d e [.readData, .latch] []) ∧
      (∀ x r, (d.chan c).fifo = x :: r → e.chan c = { d.chan c with fifo := r } ∧
        e.fld (F.CAN_RXSTAT_COUNT c) = r.length % 64 ∧ e.readData = x.2.headD 0 ∧
        (∀ k, k < 19 → x.2.length = 20 → e.latched q (Reg.CAN_RXF c (k + 1)) = x.2.getD (k + 1) 0)) ∧
      Only d e [.can, .readData, .latch] [Reg.CAN_RXSTAT c])) ∧
    Does s (.canErrorStateChange dt n tec rec_ code data) t (fun d e =>
      let live := decide (d.canMode c = 0) && decide (d.fld (F.CAN_STAT_ERRSTATE c) ≠ 2)
      let st := if 255 < tec.toNat then 2 else if 127 < tec.toNat ∨ 127 < rec_.toNat then 1 else 0
      (live = false → same d e) ∧
      (live = true → e.fld (F.CAN_STAT_ERRSTATE c) = st ∧ e.fld (F.CAN_ERRCNT_TEC c) = min 255 tec.toNat ∧
        e.fld (F.CAN_ERRCNT_REC c) = min 127 rec_.toNat ∧
        e.fld (F.CAN_LASTERR_CODE c) = (if code = 0 then d.fld (F.CAN_LASTERR_CODE c) else code.toNat) ∧
        (code ≠ 0 → e.flag (F.CAN_LASTERR_DATA c) = data) ∧
        e.fld (F.CAN_ERRCNT_BOCNT c) = (if st = 2 then min 65535 (d.fld (F.CAN_ERRCNT_BOCNT c) + 1) else d.fld (F.CAN_ERRCNT_BOCNT c)) ∧
        (st ≠ d.fld (F.CAN_STAT_ERRSTATE c) → Raised d e (120 + 4 * c))) ∧
      TasksBut d e [] ∧ Only d e [.tasks, .msix] ([Reg.CAN_STAT c, Reg.CAN_ERRCNT c, Reg.CAN_LASTERR c] ++ raiseRegs (120 + 4 * c))) ∧
    Does s (.canBusoffRecovery dt n) t (fun d e =>
      let live := decide (d.canMode c ≠ 3) && decide (d.fld (F.CAN_STAT_ERRSTATE c) = 2)
      (live = false → same d e) ∧
      (live = true → e.fld (F.CAN_STAT_ERRSTATE c) = 0 ∧ e.fld (F.CAN_ERRCNT_TEC c) = 0 ∧
        e.fld (F.CAN_ERRCNT_REC c) = 0 ∧ Raised d e (120 + 4 * c)) ∧
      TasksBut d e [] ∧ Only d e [.tasks, .msix] (Reg.CAN_STAT c :: Reg.CAN_ERRCNT c :: raiseRegs (120 + 4 * c))) ∧
    (Writes s q (Reg.CAN_CTL c) → Does s (.canModeWrite q n v) s.mono (fun d e =>
      let m := bitsOf v.toNat 1 0
      let refused := decide (m = 2) && (decide (d.canTmode c = 1) || (List.range 16).any (fun k => d.staState c k != 0))
      (refused = true → e.fld (F.CAN_STAT_REFUSED c) = 1 ∧ Only d e [] [Reg.CAN_STAT c]) ∧
      (refused = false → d.fld (F.CAN_STAT_ERRSTATE c) ≠ 2 → e.fld (F.CAN_CTL_MODE c) = m ∧ Only d e [] [Reg.CAN_CTL c]) ∧
      (refused = false → d.fld (F.CAN_STAT_ERRSTATE c) = 2 → e.fld (F.CAN_CTL_MODE c) = m ∧ e.canMode c = m) ∧
      TasksBut d e [] ∧ Only d e [.can, .images, .queues, .tasks, .msix] (Reg.CAN_CTL c :: stationRegs c))) ∧
    Does s (.canModeEffect dt n) t (fun d e =>
      let m := d.fld (F.CAN_CTL_MODE c)
      e.canMode c = m ∧ (d.canMode c = m → same d e) ∧
      (d.canMode c ≠ m → m ≠ 0 → e.staState c i = 0 ∧ (e.chan c).nextSync = none ∧ (e.chan c).nextRef = none ∧
        (e.chan c).engine = [] ∧ (d.staState c i ≠ 0 → e.fld (F.CAN_STASTAT_STALE c i) = 1 ∧ e.pendingSrc (123 + 4 * c) = true)) ∧
      (d.canMode c ≠ m → m = 0 → d.flag (F.CAN_CFG_STAEN c) = true →
        (e.chan c).nextSync = some ((t / d.syncPeriod c + 1) * d.syncPeriod c) ∧
        e.staState c i = if d.flag (F.CAN_STACFG_EN c i) then 1 else d.staState c i) ∧
      TasksBut d e [] ∧ Only d e [.can, .images, .queues, .tasks, .msix] (stationRegs c)) ∧
    Does s (.canWake dt n sof none) t (fun d e =>
      let wakes := decide (d.canMode c = 2) && d.flag (F.CAN_CFG_WAKEMODE c)
      (wakes = true → e.canMode c = 0 ∧ e.fld (F.CAN_CTL_MODE c) = 0 ∧ e.flag (F.CAN_STAT_WOKE c) = true ∧ Raised d e (120 + 4 * c)) ∧
      (wakes = false → same d e) ∧ TasksBut d e [] ∧
      Only d e [.can, .images, .queues, .tasks, .msix] (Reg.CAN_CTL c :: stationRegs c ++ raiseRegs (120 + 4 * c))) ∧
    Does s (.canWake dt n sof (some f)) t (fun d e =>
      let wakes := decide (d.canMode c = 2) && (d.flag (F.CAN_CFG_WAKEMODE c) || d.wakeHit c f)
      (wakes = true → e.canMode c = 0 ∧ e.fld (F.CAN_CTL_MODE c) = 0 ∧ e.flag (F.CAN_STAT_WOKE c) = true ∧
        e.pendingSrc (120 + 4 * c) = true) ∧ (wakes = false → same d e)) ∧
    (∀ m, (s.dev.chan c).nextRef = some m → Does s (.canRefSend n) (max s.mono m) (fun d e =>
      (e.chan c).refCycle = ((d.chan c).refCycle + 1) % 65536 ∧
      (e.chan c).nextRef = some (max s.mono m + d.refPeriod c) ∧
      ((e.chan c).engine.getLast?.map (fun g => (g.ide, g.id.toNat, g.dlc, g.data.take 3))) =
        some (false, d.fld (F.CAN_REFCFG_REFID c), 8, leBytes (d.chan c).refCycle 2 ++ [BitVec.ofNat 8 (d.tq (max s.mono m))]) ∧
      (∀ x, (d.chan c).refPrev = some x → e.freeNo = d.freeNo ∧
        (e.chan c).engine.getLast?.map (fun g => g.data.drop 3) =
          some (BitVec.ofNat 8 (x / 1000000000) :: leBytes (x % 1000000000) 4)) ∧
      ((d.chan c).refPrev = none → e.freeNo = d.freeNo + 1) ∧ (∀ k, k ≠ c → e.chan k = d.chan k) ∧
      Only d e [.can, .free] [])) ∧
    ((s.dev.chan c).nextRef = none → exec (.canRefSend n) s = .next s) ∧
    Does s (.canRefReceived dt n sof cycle sec ns) t (fun d e =>
      let live := decide (d.canTmode c = 2) && decide (d.canMode c ≤ 1)
      (live = false → same d e) ∧
      (live = true → (e.chan c).slavePrev = some (d.stationAgo t sof) ∧ (e.chan c).refSeen = some t ∧
        (∀ x, (d.chan c).slavePrev = some x → e.rd (Reg.CAN_TOFS c) = BitVec.ofInt 32 (refOffset sec.toNat ns.toNat x) ∧
          e.fld (F.CAN_TCYC_CYCLE c) = cycle.toNat ∧ e.fld (F.CAN_TCYC_VALID c) = 1)) ∧
      Only d e [.can] [Reg.CAN_TOFS c, Reg.CAN_TCYC c]) ∧
    (∀ m, (s.dev.chan c).refSeen = some m →
      Does s (.canRefTimeout n) (max s.mono (m + 3 * s.dev.refPeriod c)) (fun d e =>
        e.fld (F.CAN_TCYC_VALID c) = 0 ∧ e.chan c = { d.chan c with slavePrev := none, refSeen := none } ∧
        Raised d e (123 + 4 * c) ∧ TasksBut d e [] ∧
        Only d e [.can, .tasks, .msix] (Reg.CAN_TCYC c :: Reg.CAN_STAT c :: raiseRegs (123 + 4 * c)))) ∧
    ((s.dev.chan c).refSeen = none → exec (.canRefTimeout n) s = .next s) ∧
    (∀ m, (s.dev.chan c).nextSync = some m → Does s (.frelupoSync n) (max s.mono m) (fun d e =>
      let k := d.station_ c i
      let joined := decide (2 ≤ d.staState c i) && decide (d.staState c i ≤ 4)
      let missed := if k.expected && !k.got then k.missed + 1 else 0
      e.fld (F.CAN_FCYC_SEQ c) = (d.fld (F.CAN_FCYC_SEQ c) + 1) % 256 ∧
      (e.chan c).nextSync = some (max s.mono m + d.syncPeriod c) ∧
      (e.chan c).engine.getLast? = some (engineFrame false 1 0 ((d.fld (F.CAN_FCYC_SEQ c) + 1) % 256) 0 0
        (leBytes (d.rd Reg.SYS_UID0).toNat 4 ++ leBytes (d.syncPeriod c / 1000) 4)) ∧
      (joined = true → d.staMiss c i ≤ missed → e.staState c i = 5 ∧ e.fld (F.CAN_STASTAT_STALE c i) = 1 ∧
        e.fld (F.CAN_STACNT_LOSTCNT c i) = min 65535 (d.fld (F.CAN_STACNT_LOSTCNT c i) + 1) ∧
        e.pendingSrc (123 + 4 * c) = true) ∧
      (joined = true → missed < d.staMiss c i → e.staState c i = d.staState c i ∧ (e.station_ c i).missed = missed ∧
        (e.station_ c i).expected = true ∧ (e.station_ c i).got = false) ∧
      TasksBut d e [] ∧ Only d e [.can, .images, .queues, .tasks, .msix] (Reg.CAN_FCYC c :: stationRegs c))) ∧
    ((s.dev.chan c).nextSync = none → exec (.frelupoSync n) s = .next s) ∧
    Does s (.frelupoInput dt n sta ago seq l) t (fun d e =>
      let live := d.engineOn c && (decide (d.staState c i = 2) || decide (d.staState c i = 3) || decide (d.staState c i = 4))
      (live = false → same d e) ∧
      (live = true → (∀ k, k < d.staNin c i → e.inWord (stationIn c i + 1 + k) = (l.getD k 0).toNat) ∧
        e.fld (F.CAN_STASTAT_STALE c i) = 0 ∧ e.fld (F.CAN_STASTAT_LASTSEQ c i) = seq.toNat ∧
        bitsOf (e.inWord (stationIn c i)) 15 8 = seq.toNat ∧
        bitsOf (e.inWord (stationIn c i)) 63 32 = (canStamp c t ago).toNat ∧
        bitsOf (e.inWord (stationIn c i)) 2 0 = d.staState c i ∧
        (e.station_ c i).got = true ∧ (e.station_ c i).missed = 0) ∧
      e.mem.gens = d.mem.gens ∧ e.mem.inCur = d.mem.inCur ∧ e.mem.out = d.mem.out ∧
      Only d e [.can, .images] [Reg.CAN_STASTAT c i]) ∧
    Does s (.frelupoHello dt n sta v safe nin nout) t (fun d e =>
      let live := d.engineOn c && (decide (d.staState c i = 1) || decide (d.staState c i = 5) || decide (d.staState c i = 6))
      let ver := negotiate (d.rd (Reg.SYS_IFVER 3)) v
      let limit (x : Nat) : Nat := if ver.any (fun y => y.1 == 1) then min 8 x else x
      let fits := decide (nin.toNat = limit (d.fld (F.CAN_STACFG_NIN c i))) && decide (nout.toNat = limit (d.fld (F.CAN_STACFG_NOUT c i)))
      (live = false → same d e) ∧
      (live = true → e.flag (F.CAN_STASTAT_SAFE c i) = safe) ∧
      (live = true → fits = true → ∀ maj least, ver = some (maj, least) →
        e.fld (F.CAN_STASTAT_VERMAJ c i) = maj % 16 ∧ e.fld (F.CAN_STASTAT_VERMIN c i) = least % 16 ∧
        e.staState c i = (if d.leaseHeld then 2 else 3) ∧
        (d.leaseHeld = true → (e.chan c).engine.getLast? =
          some (engineFrame (decide (2 ≤ maj)) 6 i 0 0 0 [BitVec.ofNat 8 least, BitVec.ofNat 8 maj]))) ∧
      (live = true → (fits = false ∨ ver = none) →
        e.staState c i = 6 ∧ e.fld (F.CAN_STASTAT_VERMAJ c i) = 0 ∧ e.fld (F.CAN_STASTAT_VERMIN c i) = 0 ∧
        e.bit Reg.HST_PARLEY 3 = (d.bit Reg.HST_PARLEY 3 || decide (d.staState c i ≠ 6)) ∧
        (e.chan c).engine.getLast? = some (engineFrame false 6 i 0 0 0 [0, 0])) ∧
      TasksBut d e [] ∧ Only d e [.can, .images, .queues, .tasks, .msix] (stationRegs c)) ∧
    Does s (.frelupoStatus dt n sta safe muted ok) t (fun d e =>
      let st := d.staState c i
      let k := d.station_ c i
      let live := d.engineOn c && decide (st ≠ 0) && decide (st ≠ 6)
      (live = false → same d e) ∧
      (live = true → e.flag (F.CAN_STASTAT_SAFE c i) = safe ∧ e.flag (F.CAN_STASTAT_MUTED c i) = muted ∧
        (st ≠ 3 → e.staState c i = st ∧ e.can = d.can) ∧
        (st = 3 → ok = true → k.released = false → k.fresh = false → e.staState c i = 3 ∧
          (d.leaseHeld = false → (e.station_ c i).released = true) ∧
          (e.chan c).engine.getLast?.map (fun g => (g.ide, g.id.toNat, g.data.head?)) = some (false, i, some 2)) ∧
        (st = 3 → ok = false → safe = false → k.released = true → e.staState c i = 4 ∧ Raised d e (123 + 4 * c))) ∧
      TasksBut d e [] ∧ Only d e [.can, .images, .queues, .tasks, .msix] (stationRegs c)) ∧
    (Writes s q (Reg.CAN_FCMD c) → Does s (.frelupoCommand q n v) s.mono (fun d e =>
      let op := bitsOf v.toNat 11 8
      let live := d.flag (F.CAN_CFG_STAEN c) && (decide (op = 3) || decide (op = 4))
      (live = false → same d e) ∧
      (live = true → ∃ g, (e.chan c).engine = (d.chan c).engine.filter (fun h => h != g) ++ [g] ∧ g.ide = false ∧
        g.id = BitVec.ofNat 29 (bitsOf v.toNat 3 0) ∧
        g.data = BitVec.ofNat 8 op :: [0, 0, 0] ++ leBytes (d.rd Reg.SYS_UID0).toNat 4) ∧
      (∀ k, k ≠ c → e.chan k = d.chan k) ∧ Only d e [.can] []))

/-! ## Inputs and the analog front end -/

/-- R294 to R297, R300, R301, R303 to R305, R308, R309, R317, R318: a level at a binary input, the end of its debounce time, a
write of its configuration; a readback level that disagrees or agrees again, a write of BIO_RBEN; samples at the comparators,
a write of comparator words and their use; a fault, an overrange and the self-test of the analog front end. -/
def Obligations.InputsAndComparators : Prop :=
  ∀ (s : State) (dt : Nat) (n : BitVec 7) (k c : BitVec 5) (x : BitVec 8) (level main : Bool) (q : Requester) (v : Word)
    (raw : List (BitVec 24)) (code : BitVec 24) (ovl stuck ok : Bool),
    let t := s.mono + dt
    let i := n.toNat
    let h := c.toNat
    let j := x.toNat
    let same (d e : Dev) : Prop := Only d e [] []
    let accepted (d e : Dev) (b : Bool) : Prop := e.biLevel i = b ∧ e.episode i = none ∧
      (e.rd Reg.BIO_SOECNT = if d.biSoe i b && d.flag F.BIO_CTL_SOEEN then d.rd Reg.BIO_SOECNT + 1 else d.rd Reg.BIO_SOECNT) ∧
      (d.maskBit Reg.BIO_EVEN0 i = true → Raised d e 136 ∧ e.bit Reg.BIO_STAT 8 = true)
    let inRegs := [Reg.BIO_BI0 + 4 * (i / 32), Reg.BIO_STAT] ++ soeRegs ++ raiseRegs 136
    let still : Prop := s.dev.outs.dirty = false ∧ s.dev.outs.tPipe = [] ∧ s.dev.outs.padPipe = [] ∧ s.dev.outs.fPipe = [] ∧ s.dev.nvs.ops = [] ∧
      s.dev.queues.pushes = [] ∧ s.dev.queues.pops = []
    let shown := s.dev.bit Reg.BIO_MMLIVE k.toNat
    let differs := (level != s.dev.bit Reg.BIO_RBINV k.toNat) != s.dev.boState.getLsbD k.toNat
    let start := ((s.dev.readback k.toNat).since).getD (max t (s.dev.readback k.toNat).settleEnd)
    let thrBits := (List.range 8).map Reg.ADC_THRBIT
    s.dev.awake = true →
    Does s (.biEdge dt n level) (t + 2) (fun d e =>
      let b := level != d.flag (F.BIO_BICFG_INV i)
      ((95 < i ∨ d.io.biPin.getLsbD i = level) → same d e) ∧
      (i < 96 → d.io.biPin.getLsbD i ≠ level →
        (∀ l, l < 96 → e.io.biPin.getLsbD l = if l = i then level else d.io.biPin.getLsbD l) ∧
        e.maskBit Reg.BIO_BIRAW0 i = b ∧
        (∀ y, d.episode i = some y → e.episode i = some { y with due := t + 2 + y.deb } ∧ e.biLevel i = d.biLevel i) ∧
        (d.episode i = none → b = d.biLevel i → e.episode i = none ∧ e.biLevel i = b) ∧
        (d.episode i = none → b ≠ d.biLevel i → d.debounce i = 0 → accepted d e b) ∧
        (d.episode i = none → b ≠ d.biLevel i → d.debounce i ≠ 0 → e.biLevel i = d.biLevel i ∧ e.episode i = some
          { stamp := d.station t, tq := d.tq t, deb := d.debounce i, due := t + 2 + d.debounce i })) ∧
      TasksBut d e [] ∧ Only d e [.io, .queues, .tasks, .msix] ((Reg.BIO_BIRAW0 + 4 * (i / 32)) :: inRegs)) ∧
    (∀ y, s.dev.episode i = some y → Does s (.biDebounceEnd n) (max s.mono y.due) (fun d e =>
      (d.biRaw i = d.biLevel i → e.biLevel i = d.biLevel i ∧ e.episode i = none ∧
        (e.rd Reg.BIO_REJCNT).toNat = min 0xFFFFFFFF ((d.rd Reg.BIO_REJCNT).toNat + 1) ∧
        e.rd Reg.BIO_SOECNT = d.rd Reg.BIO_SOECNT ∧
        (d.maskBit Reg.BIO_EVEN0 i = true → Raised d e 138 ∧ e.bit Reg.BIO_STAT 10 = true)) ∧
      (d.biRaw i ≠ d.biLevel i → accepted d e (d.biRaw i) ∧ e.rd Reg.BIO_REJCNT = d.rd Reg.BIO_REJCNT) ∧
      e.io.biPin = d.io.biPin ∧ TasksBut d e [] ∧
      Only d e [.io, .queues, .tasks, .msix] (Reg.BIO_REJCNT :: inRegs ++ raiseRegs 138))) ∧
    (s.dev.episode i = none → exec (.biDebounceEnd n) s = .next s) ∧
    (Writes s q (Reg.BIO_BICFG i) → i < 96 → Does s (.biInvWrite q n v) s.mono (fun d e =>
      let b := d.io.biPin.getLsbD i != v.getLsbD 18
      (d.progOk q = false → Raised d e 139 ∧ e.bit Reg.BIO_STAT 11 = true ∧ TasksBut d e [] ∧
        Only d e [.tasks, .msix] (Reg.BIO_STAT :: raiseRegs 139)) ∧
      (d.progOk q = true → e.flag (F.BIO_BICFG_INV i) = v.getLsbD 18 ∧
        (d.flag (F.BIO_BICFG_INV i) ≠ v.getLsbD 18 → e.biLevel i = b ∧ e.maskBit Reg.BIO_BIRAW0 i = b ∧ e.episode i = none) ∧
        (d.flag (F.BIO_BICFG_INV i) = v.getLsbD 18 → Only d e [] [Reg.BIO_BICFG i]) ∧
        Only d e [.io] [Reg.BIO_BICFG i, Reg.BIO_BI0 + 4 * (i / 32), Reg.BIO_BIRAW0 + 4 * (i / 32)]))) ∧
    (still → s.dev.bit Reg.BIO_RBEN k.toNat = true → differs = true → shown = false →
      Does s (.readbackMismatch dt k level) (max t (start + 1000)) (fun d e =>
        e.bit Reg.BIO_MMLIVE k.toNat = true ∧ e.bit Reg.BIO_MM k.toNat = true ∧
        (e.rd Reg.BIO_MMCNT).toNat = min 0xFFFFFFFF ((d.rd Reg.BIO_MMCNT).toNat + 1) ∧ (e.readback k.toNat).since = none ∧
        (e.rd Reg.BIO_SOECNT = if d.flag F.BIO_CTL_SOEEN then d.rd Reg.BIO_SOECNT + 1 else d.rd Reg.BIO_SOECNT) ∧
        Raised d e 137 ∧ TasksBut d e [] ∧ Only d e [.io, .queues, .tasks, .msix]
          ([Reg.BIO_MMLIVE, Reg.BIO_MM, Reg.BIO_MMCNT, Reg.BIO_STAT] ++ soeRegs ++ raiseRegs 137)) ∧
      Does s (.readbackMismatchEnd dt k level) t (fun d e => (e.readback k.toNat).since = some start ∧ Only d e [.io] [])) ∧
    (still → s.dev.bit Reg.BIO_RBEN k.toNat = true → differs = false → shown = true →
      Does s (.readbackMismatchEnd dt k level) (max t (start + 1000)) (fun d e =>
        e.bit Reg.BIO_MMLIVE k.toNat = false ∧ (e.readback k.toNat).since = none ∧
        (e.rd Reg.BIO_SOECNT = if d.flag F.BIO_CTL_SOEEN then d.rd Reg.BIO_SOECNT + 1 else d.rd Reg.BIO_SOECNT) ∧
        Only d e [.io, .queues] (Reg.BIO_MMLIVE :: soeRegs)) ∧
      Does s (.readbackMismatch dt k level) t (fun d e => (e.readback k.toNat).since = some start ∧ Only d e [.io] [])) ∧
    (still → (s.dev.bit Reg.BIO_RBEN k.toNat = false ∨ differs = shown) →
      Does s (.readbackMismatch dt k level) t (fun d e => (e.readback k.toNat).since = none ∧ Only d e [.io] []) ∧
      Does s (.readbackMismatchEnd dt k level) t (fun d e => (e.readback k.toNat).since = none ∧ Only d e [.io] [])) ∧
    (Writes s q Reg.BIO_RBEN → Does s (.rbenWrite q v) s.mono (fun d e =>
      (d.progOk q = false → Raised d e 139 ∧ e.bit Reg.BIO_STAT 11 = true ∧ e.rd Reg.BIO_RBEN = d.rd Reg.BIO_RBEN ∧
        TasksBut d e [] ∧ Only d e [.tasks, .msix] (Reg.BIO_STAT :: raiseRegs 139)) ∧
      (d.progOk q = true → e.rd Reg.BIO_RBEN = v ∧
        (∀ l, l < 32 → e.bit Reg.BIO_MMLIVE l = (d.bit Reg.BIO_MMLIVE l && v.getLsbD l)) ∧
        Only d e [.queues] ([Reg.BIO_RBEN, Reg.BIO_MMLIVE] ++ soeRegs)))) ∧
    Does s (.thresholdBitChange dt main c raw) t (fun d e =>
      (24 ≤ h → same d e) ∧ (raw = [] → same d e) ∧ (main = false → ∀ l, e.window l = d.window l) ∧ TasksBut d e [] ∧
      Only d e [.io, .tasks, .msix] ([Reg.ADC_SAMP h, Reg.ADC_RMS h, Reg.ADC_OVR, Reg.ADC_STAT] ++ thrBits ++
        (List.range 256).flatMap (fun l => [Reg.ADC_THR0 l, Reg.ADC_THR1 l]) ++ raiseRegs 141 ++ raiseRegs 142)) ∧
    (h < 24 → Does s (.thresholdBitChange dt false c [code]) t (fun d e =>
      let y := (d.calibrate h code).toInt
      (d.chEnabled h = true → atLimit code = true → d.bit Reg.ADC_OVR h = false → e.bit Reg.ADC_OVR h = true ∧ Raised d e 141) ∧
      (d.chEnabled h = true → d.chFaulty h = false → (d.comparator j).held = none → d.fld (F.ADC_THR0_CH j) = h →
        (d.fld (F.ADC_THR0_KIND j) = 1 ∨ d.fld (F.ADC_THR0_KIND j) = 2) →
        let z : Int := if d.fld (F.ADC_THR0_KIND j) = 1 then y.natAbs else y
        let count := (d.comparator j).count + 1
        let was := d.maskBit (Reg.ADC_THRBIT 0) j
        let now := if d.thrLevel j ≤ z then decide (max 1 (d.fld (F.ADC_THR1_CNT j)) ≤ count) || was
          else if z < d.thrLevel j - (d.fld (F.ADC_THR1_HYST j) : Int) then false else was;
        e.maskBit (Reg.ADC_THRBIT 0) j = now ∧
        (now ≠ was → d.maskBit (Reg.ADC_THREVT 0) j = true → e.pendingSrc 142 = true ∧ e.bit Reg.ADC_STAT 10 = true)))) ∧
    (h < 24 → Does s (.thresholdBitChange dt true c [code]) t (fun d e =>
      let l := (d.calibrate h code :: d.window h).take 7680
      e.window h = l ∧ e.rd (Reg.ADC_SAMP h) = (d.calibrate h code).signExtend 32 ∧
      e.rd (Reg.ADC_RMS h) = BitVec.ofNat 32 (rmsOf d.rmsWin l))) ∧
    (Writes s q (Reg.ADC_THR1 j) → Does s (.thresholdWrite q x v) s.mono (fun d e =>
      let open_ := d.stopOk q || d.mode == .remote
      (open_ = true → e.comparator j = { d.comparator j with
          held := some ((d.comparator j).held0.getD (((d.comparator j).held.map (·.1)).getD (d.rd (Reg.ADC_THR0 j))), v)
          held0 := none } ∧ (∀ l, l ≠ j → e.comparator l = d.comparator l) ∧ Only d e [.io] []) ∧
      (open_ = false → Raised d e 143 ∧ e.bit Reg.ADC_STAT 11 = true ∧ TasksBut d e [] ∧
        Only d e [.tasks, .msix] (Reg.ADC_STAT :: raiseRegs 143)))) ∧
    (∀ w, (s.dev.comparator j).held = some w →
      Does s (.thresholdApply x) (max s.mono (nextSample (bitsOf w.1.toNat 6 5 == 3) s.mono)) (fun d e =>
        let z := bitsOf w.1.toNat 4 0
        let live := decide (z < 24) && d.chEnabled z && decide (bitsOf w.1.toNat 6 5 ≠ 0)
        e.rd (Reg.ADC_THR0 j) = w.1 ∧ e.rd (Reg.ADC_THR1 j) = w.2 ∧
        e.comparator j = { d.comparator j with held := none, count := 0 } ∧
        (live = false → e.maskBit (Reg.ADC_THRBIT 0) j = false) ∧
        (live = true → d.chFaulty z = false → e.maskBit (Reg.ADC_THRBIT 0) j = d.maskBit (Reg.ADC_THRBIT 0) j) ∧
        (∀ l, l ≠ j → e.comparator l = d.comparator l) ∧ TasksBut d e [] ∧
        Only d e [.io, .tasks, .msix] ([Reg.ADC_THR0 j, Reg.ADC_THR1 j, Reg.ADC_STAT] ++ thrBits ++ raiseRegs 142))) ∧
    ((s.dev.comparator j).held = none → exec (.thresholdApply x) s = .next s) ∧
    Does s (.adcFaultChange dt c ovl stuck ok) t (fun d e =>
      let faulty := (ovl || stuck) && d.chEnabled h
      e.io.refIn = ok ∧
      (h < 24 → e.io.overload.getLsbD h = ovl ∧ e.io.stuck.getLsbD h = stuck ∧ e.chFaulty h = faulty ∧
        (faulty = true → d.chFaulty h = false → Raised d e 140 ∧ ∀ l, l < 256 → d.fld (F.ADC_THR0_CH l) = h →
          d.fld (F.ADC_THR0_KIND l) ≠ 0 → e.maskBit (Reg.ADC_THRBIT 0) l = d.flag (F.ADC_THR0_FAILV l)) ∧
        (faulty = false → d.chFaulty h = true → Raised d e 140)) ∧
      (d.io.evaluated = true → e.flag F.ADC_STAT_REFOK = ok ∧ e.flag F.ADC_STAT_SELFTEST = e.selfTest) ∧
      (d.io.evaluated = false → e.flag F.ADC_STAT_SELFTEST = d.flag F.ADC_STAT_SELFTEST) ∧ TasksBut d e [] ∧
      Only d e [.io, .tasks, .msix] ([Reg.ADC_FAULT, Reg.ADC_STAT] ++ thrBits ++ raiseRegs 140 ++ raiseRegs 142)) ∧
    Does s (.adcOverrange dt c) t (fun d e =>
      ((d.chEnabled h = false ∨ d.bit Reg.ADC_OVR h = true) → same d e) ∧
      (d.chEnabled h = true → d.bit Reg.ADC_OVR h = false → e.bit Reg.ADC_OVR h = true ∧ e.bit Reg.ADC_STAT 9 = true ∧
        Raised d e 141) ∧ TasksBut d e [] ∧ Only d e [.tasks, .msix] ([Reg.ADC_OVR, Reg.ADC_STAT] ++ raiseRegs 141)) ∧
    Does s (.adcSelftestEval dt ok) t (fun d e =>
      let good := ok && (d.io.stuck &&& BitVec.ofNat 24 (d.fld F.ADC_CFG_CHEN)) == 0
      e.io.refIn = ok ∧ e.io.evaluated = true ∧ e.flag F.ADC_STAT_REFOK = ok ∧ e.flag F.ADC_STAT_SELFTEST = good ∧
      (d.io.evaluated = false → good = false → Raised d e 140) ∧
      (d.io.evaluated = false → good = true → Only d e [.io] [Reg.ADC_STAT]) ∧
      (d.io.evaluated = true → d.flag F.ADC_STAT_SELFTEST ≠ good → Raised d e 140) ∧ TasksBut d e [] ∧
      Only d e [.io, .tasks, .msix] ([Reg.ADC_FAULT, Reg.ADC_STAT] ++ thrBits ++ raiseRegs 140 ++ raiseRegs 142))

/-! ## Queues, interrupts and the host link -/

/-- R319, R321 to R323, R325, R328, R331 to R334, R339: the configuration of an item queue, an item offered and an item taken;
INT_RAISE, INT_PEND and INT_EN; the unmasking of an MSI-X vector; the doorbell; a PCIe reset, a link that goes down or up. -/
def Obligations.QueuesAndInterrupts : Prop :=
  ∀ (s : State) (dt : Nat) (r : Requester) (q : BitVec 5) (v : Word) (mask : BitVec 4) (x : BitVec 8) (key : BitVec 16)
    (j : BitVec 3) (n : Nat) (down : Bool) (speed lanes : BitVec 2),
    let t := s.mono + dt
    let k := q.toNat
    let i := x.toNat
    let w := j.toNat
    let lineRegs := [Reg.HST_SESSION, Reg.HST_MBSTAT, Reg.HST_PARLEY, Reg.HST_EVT] ++ raiseRegs 189 ++ raiseRegs 190
    s.dev.awake = true →
    (Writes s r (Reg.QUE_CFG k) → Does s (.queueConfig r q v) s.mono (fun d e =>
      let depth := if v.getLsbD 8 then depthOf v else 0
      let used := d.otherDepths k + depth
      (k = 0 → Only d e [] []) ∧
      (k ≠ 0 → d.progOk r = false → e.fld F.QUE_STAT_WPROT = 1 ∧ Only d e [] [Reg.QUE_STAT]) ∧
      (k ≠ 0 → d.progOk r = true → v.getLsbD 8 = true → 16384 < used →
        e.fld F.QUE_STAT_CAP = 1 ∧ Only d e [] [Reg.QUE_STAT]) ∧
      (k ≠ 0 → d.progOk r = true → (v.getLsbD 8 = false ∨ used ≤ 16384) →
        e.rd (Reg.QUE_CFG k) = v &&& 0x1FF ∧ e.queue k = [] ∧ e.queues.pushes = d.queues.pushes.filter (fun y => y.queue != k) ∧
        e.rd (Reg.QUE_QLOST k) = 0 ∧
        e.fld F.QUE_STAT_USED = used % 65536 ∧ (∀ l, l ≠ k → e.queue l = d.queue l) ∧
        Only d e [.queues] [Reg.QUE_CFG k, Reg.QUE_QLOST k, Reg.QUE_STAT]))) ∧
    (Writes s r (Reg.QUE_QIN k 0) → Does s (.queueOffer r q v) s.mono (fun d e =>
      let item : Item := { w0 := v, w1 := d.latched r (Reg.QUE_QIN k 1), w2 := d.latched r (Reg.QUE_QIN k 2), w3 := d.latched r (Reg.QUE_QIN k 3) }
      let takes := (r == .host || r == .uart) && d.flag (F.QUE_CFG_HOSTP k) && d.flag (F.QUE_CFG_EN k) &&
        decide (bitsOf v.toNat 15 12 ≠ 0)
      let l := d.queue k
      let rank := if r == .host then 10 else 11
      (takes = true → e.queues.pushes = addPush ⟨k, rank, item⟩ d.queues.pushes ∧ Only d e [.queues] []) ∧
      (takes = true → d.queues.pushes = [] → ∀ m, m / 2 ≠ s.mono / 2 →
        (l.length < d.queueDepth k → (e.queuesTo m).queue k = l ++ [item] ∧ Only d (e.queuesTo m) [.queues] []) ∧
        (d.queueDepth k ≤ l.length → (e.queuesTo m).queue k = l.drop 1 ++ [item] ∧
          ((e.queuesTo m).rd (Reg.QUE_QLOST k)).toNat = min 0xFFFFFFFF ((d.rd (Reg.QUE_QLOST k)).toNat + 1) ∧
          Only d (e.queuesTo m) [.queues] [Reg.QUE_QLOST k])) ∧
      (takes = false → (e.rd Reg.QUE_REFUSED).toNat = min 0xFFFFFFFF ((d.rd Reg.QUE_REFUSED).toNat + 1) ∧
        e.fld F.QUE_STAT_DENY = 1 ∧ Only d e [] [Reg.QUE_REFUSED, Reg.QUE_STAT]) ∧
      (∀ y, e.queue y = d.queue y))) ∧
    (s.dev.mayRead r = true → Does s (.queuePop r q) s.mono (fun d e =>
      let may : Bool := match r with | .core _ _ => d.flag (F.QUE_CFG_TASKC k) | .svc => true | _ => d.flag (F.QUE_CFG_HOSTC k)
      let given (y : Item) : Prop := e.readData = y.w0 ∧ e.latched r (Reg.QUE_QITEM k 1) = y.w1 ∧
        e.latched r (Reg.QUE_QITEM k 2) = y.w2 ∧ e.latched r (Reg.QUE_QITEM k 3) = y.w3;
      (may = true → d.queue k = [] → given {} ∧ Only d e [.readData, .latch] []) ∧
      (may = true → ∀ y l, d.queue k = y :: l → given y ∧ e.queue k = l ∧ e.queueCount k = d.queueCount k ∧
        e.queues.pushes = d.queues.pushes ∧ Only d e [.queues, .readData, .latch] []) ∧
      (may = false → given {} ∧ e.fld F.QUE_STAT_DENY = 1 ∧ Only d e [.readData, .latch] [Reg.QUE_STAT]) ∧
      (∀ y, y ≠ k → e.queue y = d.queue y))) ∧
    (Writes s r Reg.INT_RAISE → Does s (.intRaise r x key) s.mono (fun d e =>
      let live := decide (192 ≤ i) && decide (key = 0x4E9B)
      (live = false → Only d e [] []) ∧
      (live = true → Raised d e i ∧
        ((d.health = 0 ∧ e.health ≠ 0 ∧ d.flag F.INT_FIRST_VALID = false) → e.fld F.INT_FIRST_SRC = i ∧ e.fld F.INT_FIRST_VALID = 1) ∧
        (d.maskBit (Reg.INT_EN 0) i = true → d.msix.enable = true →
          (d.msix.mask.getLsbD i = false → (s.mono, Msg.msix i) ∈ e.outbox) ∧
          (d.msix.mask.getLsbD i = true → e.msix.pba.getLsbD i = true)) ∧
        (∀ m, m < 64 → (d.task m).live = true → d.fld (F.TSK_CFG_KIND m) = 2 → d.fld (F.TSK_CFG_SRC m) = i →
          (e.task m).arrivals = (d.task m).arrivals ++ [s.mono + 8]) ∧
        (d.maskBit Reg.BIO_SOEPEV0 (i - 192) = true → d.flag F.BIO_CTL_SOEEN = true →
          e.rd Reg.BIO_SOECNT = d.rd Reg.BIO_SOECNT + 1) ∧ TasksBut d e [] ∧
        Only d e [.tasks, .msix, .queues] (raiseRegs i ++ soeRegs)))) ∧
    (Writes s r (Reg.INT_PEND w) → Does s (.intPendClear r j v) s.mono (fun d e =>
      (∀ m, m < 32 → e.pendingSrc (32 * w + m) = (d.pendingSrc (32 * w + m) && !(v.getLsbD m)) ∧
        e.fld (F.INT_SRCCFG_CNT (32 * w + m)) =
          if v.getLsbD m && d.pendingSrc (32 * w + m) then 0 else d.fld (F.INT_SRCCFG_CNT (32 * w + m))) ∧
      Only d e [] (Reg.INT_PEND w :: (List.range 32).map (fun m => Reg.INT_SRCCFG (32 * w + m))))) ∧
    (Writes s r (Reg.INT_EN w) → Does s (.intEnWrite r j v) s.mono (fun d e =>
      e.rd (Reg.INT_EN w) = v ∧
      (∀ m, m < 32 → v.getLsbD m = true → (d.rd (Reg.INT_EN w)).getLsbD m = false → d.pendingSrc (32 * w + m) = true →
        d.msix.sent.getLsbD (32 * w + m) = false → d.msix.enable = true →
        e.msix.sent.getLsbD (32 * w + m) = true ∧
        (d.msix.mask.getLsbD (32 * w + m) = false → (s.mono, Msg.msix (32 * w + m)) ∈ e.outbox) ∧
        (d.msix.mask.getLsbD (32 * w + m) = true → e.msix.pba.getLsbD (32 * w + m) = true)) ∧
      (d.msix.enable = false → e.msix = d.msix) ∧ Only d e [.msix] [Reg.INT_EN w])) ∧
    Does s (.msixUnmask x) s.mono (fun d e =>
      e.msix.mask.getLsbD i = false ∧ e.msix.pba.getLsbD i = false ∧
      (d.msix.pba.getLsbD i = true → (s.mono, Msg.msix i) ∈ e.outbox) ∧
      (n ≠ i → e.msix.mask.getLsbD n = d.msix.mask.getLsbD n ∧ e.msix.pba.getLsbD n = d.msix.pba.getLsbD n) ∧
      e.msix.enable = d.msix.enable ∧ e.msix.sent = d.msix.sent ∧ Only d e [.msix] []) ∧
    (Writes s r Reg.HST_DBELL → Does s (.mailboxRing r mask) s.mono (fun d e =>
      let fresh := (List.range 4).filter (fun m => bitOf mask.toNat m && !(d.bit Reg.HST_MBSTAT m))
      let busy := (List.range 4).filter (fun m => bitOf mask.toNat m && d.bit Reg.HST_MBSTAT m)
      (∀ m, m < 4 → e.bit Reg.HST_MBSTAT m = (bitOf mask.toNat m || d.bit Reg.HST_MBSTAT m)) ∧
      e.host = { d.host with rung := d.host.rung ++ fresh } ∧
      (e.rd Reg.HST_ERRCNT).toNat = min 0xFFFFFFFF ((d.rd Reg.HST_ERRCNT).toNat + busy.length) ∧
      (busy = [] → Only d e [.host] [Reg.HST_MBSTAT]) ∧ (busy ≠ [] → e.pendingSrc 191 = true ∧ e.bit Reg.HST_EVT 3 = true) ∧
      TasksBut d e [] ∧
      Only d e [.host, .tasks, .msix] ([Reg.HST_MBSTAT, Reg.HST_ERRCNT, Reg.HST_EVT] ++ raiseRegs 191))) ∧
    Does s (.pcieReset dt down) t (fun d e =>
      e.rd Reg.HST_SESSION = 0 ∧ e.fld F.HST_MBSTAT_BUSY = 0 ∧ e.host = { d.host with rung := [] } ∧
      e.session (.mailbox 0) = none ∧ e.bit Reg.HST_PARLEY 0 = d.host.sessions.any (fun y => y.parley) ∧
      (d.flag F.HST_SESSION_OPEN = true ∨ (down = true ∧ d.flag F.HST_LINK_UP = true) → e.pendingSrc 189 = true ∧
        e.bit Reg.HST_EVT 1 = true) ∧
      (down = true → e.rd Reg.HST_LINK = 0) ∧ (down = false → e.rd Reg.HST_LINK = d.rd Reg.HST_LINK) ∧ TasksBut d e [] ∧
      Only d e [.host, .tasks, .msix] (Reg.HST_LINK :: lineRegs)) ∧
    Does s (.pcieLinkUp dt speed lanes) t (fun d e =>
      e.flag F.HST_LINK_UP = true ∧ e.fld F.HST_LINK_SPEED = speed.toNat ∧ e.fld F.HST_LINK_WIDTH = lanes.toNat ∧
      (d.flag F.HST_LINK_UP = false → Raised d e 189 ∧ e.bit Reg.HST_EVT 1 = true) ∧
      (d.flag F.HST_LINK_UP = true → Only d e [] [Reg.HST_LINK]) ∧ TasksBut d e [] ∧
      Only d e [.tasks, .msix] (Reg.HST_LINK :: Reg.HST_EVT :: raiseRegs 189))

/-! ## Host commands -/

/-- R11, R327 to R330, R364, R396, R416 to R418, R421: the service of a host command, whichever it is: nothing happens where
no service core serves it, or while a command that works on NVS finds NVS not READY; an error corrected in the service core's
memory during its service is counted, and changes nothing else; a repeated message has its response again; a command without
a session, of a class that does not permit it, LAUNCH under major 2, or a path under major 2 ends with its STATUS; a path
that leads nowhere, or to a device out of reach, ends with NOPATH; a path that leaves the device has the answer of the device
named. -/
def Obligations.HostService : Prop :=
  ∀ (s : State) (i : Instr) (f : HostForm), hostForm s i = some f →
    let ch := f.head.ch
    let t := s.mono + f.cost
    let major := (s.dev.session ch).map (fun v => v / 256)
    let why : Option Nat := if major.isNone && f.code != 1 && f.code != 2 then some 6
      else if f.code = 0x20 ∧ major = some 2 then some 1
      else if f.allowed = false then some 2
      else if major = some 2 ∧ f.head.path.headD 0xFF ≠ 0xFF then some 7 else none
    (s.dev.serves = false → exec i s = .next s) ∧
    (s.dev.serves = true → ∀ m, chMailbox ch = some m → s.dev.nextMailbox ≠ some m → exec i s = .next s) ∧
    (waitsForNvs s i = true → exec i s = .next s) ∧
    (waitsForNvs s i = false → InTurn s ch → s.dev.repeated ch = none →
      ∀ j, Cleaned i j → exec i s = exec j { s with dev := s.dev.eccCounted 4 0 f.head.corrected }) ∧
    (waitsForNvs s i = false → InTurn s ch → ∀ l, s.dev.repeated ch = some l → Does s i s.mono (fun d e =>
      (s.mono, Msg.response ch l) ∈ e.outbox ∧ Only d e [] [])) ∧
    (waitsForNvs s i = false → f.head.corrected = 0 → InTurn s ch → s.dev.repeated ch = none →
      (∀ x, why = some x → Does s i t (fun d e => Replies d e t f x [] ∧ OnlyReply d e [] [])) ∧
      (why = none → ∀ u, s.dev.resolve f.head.path = .noChild u →
        Does s i t (fun d e => Replies d e t f 7 [] ∧ OnlyReply d e [] [])) ∧
      (why = none → ∀ u, s.dev.resolve f.head.path = .unreach u →
        Does s i t (fun d e => Replies d e t f 7 [] ∧ OnlyReply d e [] [])) ∧
      (why = none → ∀ u, s.dev.resolve f.head.path = .leaves u →
        let a := f.head.remote
        let m := t + a.ns
        let g := { f with cost := f.cost + a.ns }
        Does s i m (fun d e =>
          (1 ≤ a.err.toNat → a.err.toNat ≤ 3 → Replies d e m g 7 []) ∧
          ((a.err.toNat = 0 ∨ 3 < a.err.toNat) → Replies d e m g a.status.toNat a.bytes) ∧ OnlyReply d e [] [])))

/-- R9, R178, R268, R329, R336, R338, R339, R371 to R374: HELLO, IDENT, UNITREAD, LOAD, DESC, LAUNCH, JOURNAL and RECORD at this
device. -/
def Obligations.HostCommands : Prop :=
  ∀ (s : State) (f : HostForm) (u : Nat) (h : CmdHead) (range off n count rlen : Word) (c : BitVec 3) (data : Bool)
    (l : List Byte) (file : ExecFile) (port : BitVec 2) (queue : BitVec 3) (ns : BitVec 30) (sec : Word) (len : BitVec 11)
    (ts : Bool) (rid : BitVec 16) (fmt : Byte),
    let t := s.mono + f.cost
    let p := port.toNat
    let q := queue.toNat
    let ends (d e : Dev) (x : Nat) : Prop := Replies d e t f x [] ∧ OnlyReply d e [] []
    (Served s (.hello h range) f u → Does s (.hello h range) t (fun d e =>
      let v := negotiate (d.rd (Reg.SYS_IFVER 0)) range
      let ver := v.map (fun x => x.1 * 256 + x.2)
      let full : Bool := match h.ch with | .lan cd src _ => decide (4 ≤ (d.host.sessions.filter (fun x => match x.who with | some y => y.1 == cd && y.2 != src | none => false)).length) | _ => false
      let own : Bool := match h.ch with | .mailbox _ => v.isNone | _ => d.flag F.HST_SESSION_PARLEY
      (full = true → ends d e 5) ∧
      (full = false → Replies d e t f 0 (leBytes (ver.getD 0) 4) ∧ e.session h.ch = ver ∧
        ((d.session h.ch).isSome ≠ v.isSome → Raised d e 189 ∧ e.bit Reg.HST_EVT 1 = true) ∧
        e.bit Reg.HST_PARLEY 0 = (own || e.host.sessions.any (fun x => x.parley)) ∧
        (d.bit Reg.HST_PARLEY 0 ≠ e.bit Reg.HST_PARLEY 0 → Raised d e 190) ∧
        e.mem.staging = d.mem.staging ∧ e.mem.net = d.mem.net ∧ TasksBut d e [] ∧
        Only d e replyParts (replyRegs ++ [Reg.HST_SESSION, Reg.HST_PARLEY] ++ raiseRegs 189 ++ raiseRegs 190)))) ∧
    (Served s (.ident h) f u → Does s (.ident h) t (fun d e =>
      Replies d e t f 0 (wordBytes (d.ucb t u ++ (List.range 6).map (fun x => d.rd (Reg.SYS_IFVER x)))) ∧
      OnlyReply d e [] [])) ∧
    (Served s (.unitread h) f u → Does s (.unitread h) t (fun d e =>
      Replies d e t f 0 (wordBytes (d.ucb t u ++ d.childTableWords u)) ∧ OnlyReply d e [] [])) ∧
    (Served s (.hostLoad h c data off l file) f u → Does s (.hostLoad h c data off l file) t (fun d e =>
      let k := c.toNat
      let size := if data then 0x200000 else 0x400000
      let fits := decide (l.length % 8 = 0) && decide (off.toNat + l.length ≤ size) && d.formatOk file.format
      let bytes := if file.format.toNat / 256 = 4 then padTo l.length file.converted else l
      let place := d.mode == .program || (d.mode == .remote && d.xst == 0 && d.stagedPlace k data off.toNat l.length)
      let kept := if data then e.mem.code = d.mem.code else e.mem.data = d.mem.data
      (fits = false → ends d e 4) ∧
      (fits = true → place = false → ends d e (if d.mode = .remote ∧ d.xst ≠ 0 then 5 else 3)) ∧
      (fits = true → place = true → Replies d e t f 0 [] ∧ kept ∧
        (∀ a, (if data then Memory.rd8 e.mem.data a else Memory.rd8 e.mem.code a) =
          if k * size + off.toNat ≤ a ∧ a < k * size + off.toNat + l.length then bytes.getD (a - (k * size + off.toNat)) 0
          else if data then Memory.rd8 d.mem.data a else Memory.rd8 d.mem.code a) ∧
        (∀ b, Sparse.get (fun _ => 0) e.formats b =
          if data = false ∧ b / 8 = k ∧ off.toNat < (b % 8 + 1) * 0x80000 ∧ b % 8 * 0x80000 < off.toNat + l.length
          then file.format.setWidth 32 else Sparse.get (fun _ => 0) d.formats b) ∧
        (d.mode = .program → e.fullLoad = some (file.ver,
          ((d.fullLoad.map (fun x => x.2.1)).getD 0) ||| BitVec.twoPow 8 k, chClass h.ch)) ∧
        (d.mode = .remote → e.fullLoad = d.fullLoad) ∧ 
        e.xch = (if d.mode = .program ∧ data = true then { d.xch with loaded := (k, off.toNat, l.length) :: d.xch.loaded } else d.xch) ∧
        OnlyReply d e [.code, .data, .loading, .xch] []))) ∧
    (Served s (.desc h l) f u → Does s (.desc h l) t (fun d e =>
      let may := d.mode == .remote || d.mode == .program
      (may = false → ends d e 3) ∧ (may = true → d.xst ≠ 0 → ends d e 5) ∧
      (may = true → d.xst = 0 → stagingSize < d.descOffset + l.length → ends d e 4) ∧
      (may = true → d.xst = 0 → d.descOffset + l.length ≤ stagingSize → Replies d e t f 0 [] ∧
        (∀ a, Memory.rd8 e.mem.staging a = if d.descOffset ≤ a ∧ a < d.descOffset + l.length then l.getD (a - d.descOffset) 0
          else Memory.rd8 d.mem.staging a) ∧ e.mem.net = d.mem.net ∧ e.host.sessions = d.host.sessions ∧ TasksBut d e [] ∧
        Only d e replyParts replyRegs))) ∧
    (Served s (.hostLaunch h port queue ns sec len ts l) f u →
      Does s (.hostLaunch h port queue ns sec len ts l) t (fun d e =>
        let bad := decide (4 < q) || decide (len.toNat ≠ l.length) || decide (1000000000 ≤ ns.toNat)
        let dest : ReplyTo := { ch := h.ch, cmd := 0x20, tag := h.tag, cost := f.cost }
        (bad = true → ends d e 4) ∧ (bad = false → d.flag (F.ETH_LQCFG_EN p q) = false → ends d e 8) ∧
        (bad = false → d.flag (F.ETH_LQCFG_EN p q) = true → d.freeSlot p q = none → ends d e 5) ∧
        (bad = false → d.flag (F.ETH_LQCFG_EN p q) = true → (d.launchQ p q).length < 64 → ∀ k, d.freeSlot p q = some k →
          (∃ x, e.launchQ p q = d.launchQ p q ++ [x] ∧ x.at_ = launchTime (d.station t) ns.toNat sec.toNat ∧
            x.src = .host (frameSlot p q k) len.toNat (if ts then some dest else none) ∧
            x.tag = (if d.pairMode (decide (2 ≤ p)) = 0 then none else
              some { seqNo := BitVec.ofNat 16 (Sparse.get (fun _ => 0) d.net.txSeq (p / 2)), lanB := decide (p % 2 = 1) }) ∧
            x.late = (d.launchQ p q).getLast?.any (fun y => decide (x.at_ < y.at_))) ∧
          (ts = false → Replies d e t f 0 []) ∧ (ts = true → e.rd Reg.HST_CMDCNT = d.rd Reg.HST_CMDCNT) ∧
          (∀ a, Memory.rd8 e.mem.net a = if frameSlot p q k ≤ a ∧ a < frameSlot p q k + l.length
            then l.getD (a - frameSlot p q k) 0 else Memory.rd8 d.mem.net a) ∧
          e.mem.staging = d.mem.staging ∧ e.host.sessions = d.host.sessions ∧ TasksBut d e [] ∧
          Only d e (.net :: replyParts) (Reg.ETH_LQSTAT p q :: replyRegs)))) ∧
    (Served s (.journal h n count) f u → Does s (.journal h n count) t (fun d e =>
      let ok := decide (1 ≤ count.toNat) && decide (count.toNat ≤ 1022)
      let x := s.dev.journalRange n.toNat count.toNat
      (ok = false → ends d e 4) ∧
      (ok = true → OnlyReply d e [] [] ∧
        Replies d e t f 0 (leBytes ((x.head?.map (fun y => (wordAt y 0).toNat)).getD 0) 4 ++ leBytes x.length 4 ++ x.flatten)))) ∧
    (Served s (.recordRead h rid) f u → Does s (.recordRead h rid) t (fun d e =>
      (s.dev.recordGet (s.dev.ownRid rid.toNat) = none → ends d e 8) ∧
      (∀ x, s.dev.recordGet (s.dev.ownRid rid.toNat) = some x →
        Replies d e t f 0 x ∧ OnlyReply d e [] []))) ∧
    (Served s (.recordWrite h rid fmt rlen l) f u → Does s (.recordWrite h rid fmt rlen l) t (fun d e =>
      let r := findRecord d.nvsMem (d.ownRid rid.toNat)
      (r = none → ends d e 4) ∧
      (∀ x, r = some x →
        let bad := decide ((dirEntry d.nvsMem x).capacity < rlen.toNat) || decide (rlen.toNat ≠ l.length)
        (bad = true → ends d e 4) ∧
        (bad = false → Replies d e t f 0 [] ∧ (d.nvs.ops <+: e.nvs.ops) ∧ (d.nvs.checks <+: e.nvs.checks) ∧
          (e.nvs.checks.map (fun y => y.1)) = (d.nvs.checks.map (fun y => y.1)) ++ [x] ∧
          (e.journalHead.1 = if d.journalHead.1 + 1 = 2 ^ 32 then 1 else d.journalHead.1 + 1) ∧
          OnlyReply d e [.nvs] []))))

/-! ## The stand link -/

/-- R209, R344, R346 to R355, R357, R360: the stand link: a port that trains or is lost, an IDENT, a STATUS frame, a copy of a
partition, each passed on round the segment, a cycle boundary, and a time-stamp frame that carries the acting leader. After each that may change it, membership, leader
and reach are those of the members known. -/
def Obligations.StandLink : Prop :=
  ∀ (s : State) (dt : Nat) (port : BitVec 1) (range : Word) (delay : BitVec 16) (hops : Nat) (crcOk : Bool) (i : StandIdent)
    (m : StandStatus) (c : StandCopy) (ofs : Int) (l : LinkLeader),
    let t := s.mono + dt
    let p := port.toNat
    let same (d e : Dev) : Prop := Only d e [] []
    let live (d : Dev) : Bool := d.standOn && d.flag (F.STD_PORT_UP p)
    let passes (d : Dev) : Prop := live d = true ∧ d.flag (F.STD_PORT_UP (1 - p)) = true ∧
      (d.stand.ring = false ∨ hops < (if p = 0 then d.order.length / 2 else d.order.length - 1 - d.order.length / 2))
    let near (x : StandMember) : StandMember := if p = 0 then { x with hops0 := some hops, seen0 := true }
      else { x with hops1 := some hops, seen1 := true }
    let settled (e : Dev) : Prop := e.fld F.STD_STAT_CFGERR = e.standError ∧
      e.stand.out = (decide (e.standError = 2 ∨ e.standError = 3) || (decide (e.standError = 1) && e.ownLoses)) ∧
      e.fld F.STD_REACH_OWN = e.reach e.ownSidx ∧ e.fld F.STD_REACH_OTHER = e.reach (1 - e.ownSidx) ∧
      e.stand.leader = e.chooseLeader.map (fun x => x.2.2) ∧
      e.fld F.STD_STAT_LEADER = ((e.chooseLeader.map (fun x => x.1)).getD 0) ∧
      e.flag F.STD_STAT_LEADVALID = e.chooseLeader.isSome ∧ e.flag F.STD_STAT_ISLEAD = (e.stand.leader == some e.uid) ∧
      e.flag F.STD_STAT_SPLIT = (List.range e.npos).any (fun x => !(bitOf (e.fld F.STD_REACH_OWN) x))
    let moved (d e : Dev) : Prop := (d.stand.leader ≠ e.stand.leader ∨ d.fld F.STD_REACH_OWN ≠ e.fld F.STD_REACH_OWN) →
      Raised d e 166 ∧ e.bit Reg.STD_STAT 10 = true
    let frame (d e : Dev) (a : List Part) (r : List Nat) : Prop :=
      TasksBut d e [] ∧ (d.following = false → Only d e ([.stand, .tasks, .msix] ++ a) (standRegs ++ r)) ∧
      Only d e (.stand :: stepParts ++ a) (standRegs ++ r ++ timeRegs ++ stepRegs ++ raiseRegs 113)
    let parleyRegs := [Reg.HST_PARLEY, Reg.HST_EVT] ++ raiseRegs 190
    let lost (d e : Dev) : Prop := d.flag F.HSB_STAT_PATHA = true → e.flag F.HSB_STAT_PATHA = false ∧
      e.fld F.HSB_PATHCNT_ALOSS = min 65535 (d.fld F.HSB_PATHCNT_ALOSS + 1) ∧ e.pendingSrc 157 = true
    s.dev.awake = true →
    Does s (.rhizomeTrain dt port range delay) t (fun d e =>
      let v := negotiate (d.rd (Reg.SYS_IFVER 1)) range
      (d.portUsed p = false → same d e) ∧
      (d.portUsed p = true → e.fld (F.STD_PORT_LANES p) = 2 ∧ e.fld (F.STD_PORT_DELAY p) = delay.toNat ∧
        Raised d e 164 ∧ e.bit Reg.STD_STAT 8 = true ∧
        e.bit Reg.HST_PARLEY 1 = (e.flag (F.STD_PORT_PARLEY 0) || e.flag (F.STD_PORT_PARLEY 1)) ∧
        (∀ x, v = some x → e.flag (F.STD_PORT_UP p) = true ∧ e.flag (F.STD_PORT_PARLEY p) = false ∧
          e.fld (F.STD_PORT_MAJ p) = x.1 % 16 ∧ e.fld (F.STD_PORT_MIN p) = x.2 % 16 ∧
          Sparse.get (fun _ => 0) e.stand.ranges p = range ∧
          (d.standOn = true → (t, Msg.standIdent p d.ident) ∈ e.outbox)) ∧
        (v = none → e.flag (F.STD_PORT_UP p) = false ∧ e.flag (F.STD_PORT_PARLEY p) = true ∧
          (d.pathAPort = p → lost d e)) ∧
        ((v.isSome = true ∨ d.pathAPort ≠ p) →
          Only d e [.stand, .tasks, .msix] (Reg.STD_PORT p :: Reg.STD_STAT :: raiseRegs 164 ++ parleyRegs)))) ∧
    Does s (.rhizomeLinkLoss dt port) t (fun d e =>
      let was := d.flag (F.STD_PORT_UP p) || d.flag (F.STD_PORT_PARLEY p)
      let cnt := if p = 0 then F.STD_LINKCNT_P0 else F.STD_LINKCNT_P1
      (was = false → same d e) ∧
      (was = true → e.flag (F.STD_PORT_UP p) = false ∧ e.flag (F.STD_PORT_PARLEY p) = false ∧
        e.fld (F.STD_PORT_LANES p) = 0 ∧ e.fld cnt = min 65535 (d.fld cnt + 1) ∧ Raised d e 164 ∧ e.stand.ring = false ∧
        e.stand.members = (d.stand.members.map (fun x => if p = 0 then { x with hops0 := none } else { x with hops1 := none })).filter
          (fun x => x.hops0.isSome || x.hops1.isSome) ∧
        (d.pathAPort = p → lost d e) ∧ (d.standOn = true → settled e) ∧
        (d.pathAPort ≠ p → frame d e [] ([Reg.STD_PORT p, Reg.STD_LINKCNT] ++ raiseRegs 164 ++ parleyRegs)))) ∧
    Does s (.standIdent dt port hops i) t (fun d e =>
      (live d = false → same d e) ∧
      (live d = true → settled e ∧ moved d e ∧
        (i.uid = d.uid → e.stand.ring = true ∧ e.stand.members = d.stand.members) ∧
        (i.uid ≠ d.uid → e.stand.members = d.stand.members.filter (fun x => x.ident.uid != i.uid) ++
          [near { (d.stand.members.find? (fun x => x.ident.uid == i.uid)).getD { ident := i } with ident := i }]) ∧
        (i.uid ≠ d.uid → passes d → (t, Msg.standIdent (1 - p) i) ∈ e.outbox) ∧
        ((d.topo = 0 ∨ (d.topo = 1 ∧ d.pairedPos d.ownPos = false)) →
          e.rd Reg.SYS_SELFPATH0 = BitVec.ofNat 32 (d.ownPos + 0xFFFFFF00)) ∧
        (d.topo = 1 → d.pairedPos d.ownPos = true → e.rd Reg.SYS_SELFPATH0 =
          BitVec.ofNat 32 (d.ownPos + (if bitOf e.roleWord 3 then 0 else 1) * 256 + 0xFFFF0000)) ∧
        (2 ≤ d.topo → e.rd Reg.SYS_SELFPATH0 = BitVec.ofNat 32 (d.ownSidx + d.ownPos * 256 + 0xFFFF0000))) ∧
      frame d e [] selfpathRegs) ∧
    Does s (.standStatusFrame dt port hops m) t (fun d e =>
      (live d = false → same d e) ∧
      (live d = true → settled e ∧ moved d e ∧
        e.stand.members = d.stand.members.map (fun x => if x.ident.uid = m.uid then near { x with status := some m } else x) ∧
        e.rd Reg.STD_CYCCNT = if d.stand.leader = some m.uid ∧ d.flag F.STD_STAT_ISLEAD = false then m.cycles else d.rd Reg.STD_CYCCNT) ∧
      (passes d → (t, Msg.standPass (1 - p) m) ∈ e.outbox) ∧
      frame d e [] [Reg.STD_CYCCNT]) ∧
    Does s (.standCopyReceived dt port hops ⟨crcOk, c⟩) t (fun d e =>
      let q := c.pos.toNat
      let here := decide (d.topo ≠ 3) || decide (c.sidx.toNat = d.ownSidx)
      let takes := live d && crcOk && !d.stand.out && here && decide (q ≠ d.ownPos)
      let bytes := c.bytes.take (d.sendLen - 8)
      let took := (d.stand.lastB.map (fun b => t - b)).getD 0
      (takes = false → same d e) ∧
      (takes = true → Memory.rd32 e.mem.stand (0x8000 * q) = c.cycle ∧
        Memory.rd32 e.mem.stand (0x8000 * q + 4) = BitVec.ofNat 32 (q + 8 * c.index.toNat) ∧
        Memory.rdBytes e.mem.stand (0x8000 * q + 8) bytes.length = bytes ∧
        (∀ a, (a < 0x8000 * q ∨ 0x8000 * q + 8 + bytes.length ≤ a) → Memory.rd8 e.mem.stand a = Memory.rd8 d.mem.stand a) ∧
        e.fld (F.STD_PSTAT_FRESH q) = 1 ∧ e.fld (F.STD_PSTAT_STALE q) = 0 ∧ e.fld (F.STD_PSTAT_SENDER q) = c.index.toNat ∧
        e.fld F.STD_REPMAX_NS = max (d.fld F.STD_REPMAX_NS) (min 0xFFFFFF took) ∧
        Only d e [.standMem] [Reg.STD_PSTAT q, Reg.STD_REPMAX]) ∧
      (passes d → (t, Msg.standForward (1 - p) c) ∈ e.outbox)) ∧
    (s.dev.boundaryDue = none → exec .standBoundary s = .next s) ∧
    (∀ b, s.dev.boundaryDue = some b → Does s .standBoundary (max s.mono b) (fun d e =>
      let n := max s.mono b
      let runs := d.standOn && !d.stand.out
      let own := 0x8000 * d.ownPos
      (runs = false → same d e) ∧
      (runs = true → settled e ∧ moved d e ∧ e.rd Reg.STD_CYCCNT = d.rd Reg.STD_CYCCNT + 1 ∧ e.stand.lastB = some n ∧
        (e.stand.leader = d.stand.leader → e.stand.nextB = d.stand.nextB.map (fun x => x + d.cycleNs)) ∧
        Memory.rd32 e.mem.stand own = d.rd Reg.STD_CYCCNT + 1 ∧
        Memory.rd32 e.mem.stand (own + 4) = BitVec.ofNat 32 (d.ownPos + 8 * d.memberIndex) ∧
        e.fld (F.STD_PSTAT_STALE d.ownPos) = 0 ∧ e.fld (F.STD_PSTAT_SENDER d.ownPos) = d.memberIndex ∧
        (∀ a, 8 ≤ a % 0x8000 → Memory.rd8 e.mem.stand a = Memory.rd8 d.mem.stand a) ∧
        (d.leaseHeld = true → (e.outbox.any (fun y => y.1 == n && (match y.2 with
          | .standCopy x => x.pos.toNat == d.ownPos && x.cycle == d.rd Reg.STD_CYCCNT + 1 &&
              x.bytes == Memory.rdBytes d.mem.stand (own + 8) (d.sendLen - 8)
          | _ => false))) = true) ∧
        (e.outbox.any (fun y => y.1 == n && (match y.2 with
          | .standStatus x => x.uid == d.uid && x.cycles == d.rd Reg.STD_CYCCNT + 1 && x.roles.toNat == d.roleWord % 256
          | _ => false))) = true ∧
        (∀ q, q < d.npos → q ≠ d.ownPos → d.stand.lastB.isSome = true →
          e.fld (F.STD_PSTAT_FRESH q) = 0 ∧
          (d.fld (F.STD_PSTAT_FRESH q) = 1 → e.rd (Reg.STD_PSTAT q) = d.rd (Reg.STD_PSTAT q) &&& ~~~1) ∧
          (d.fld (F.STD_PSTAT_FRESH q) = 0 → e.fld (F.STD_PSTAT_STALE q) = 1 ∧
            e.fld (F.STD_PSTAT_MISSCNT q) = min 65535 (d.fld (F.STD_PSTAT_MISSCNT q) + 1) ∧
            (d.fld (F.STD_PSTAT_STALE q) = 0 → e.pendingSrc 165 = true ∧ e.bit Reg.STD_STAT 9 = true)))) ∧
      frame d e [.standMem] (Reg.STD_CYCCNT :: (List.range 8).map Reg.STD_PSTAT ++ raiseRegs 165))) ∧
    (s.dev.flag (F.STD_PORT_UP p) = true → s.dev.standOn = true → s.dev.flag F.STD_STAT_ISLEAD = false →
      s.dev.flag F.STD_STAT_LEADVALID = true → Does s (.linkTimestampFrame dt port ofs (some l)) t (fun d e =>
        let o : Int := (l.station : Int) - d.station t
        let follows := d.flag F.STD_CFG_TFOLLOW && !d.stand.out
        e.rd64 Reg.STD_MONOOFS0 = ((ofs + l.ofs) % (2 ^ 64 : Nat)).toNat ∧ e.stand.known = true ∧
        e.rd Reg.STD_TOFS = sat32 o ∧
        (follows = false → e.station t = d.station t ∧ e.time = d.time) ∧
        (follows = true → e.following = true ∧ e.station t = l.station ∧ e.time.bound = l.err.map (fun x => x + 5) ∧
          e.time.usable = true ∧ e.fld F.PTP_STAT_SRC = l.src.toNat ∧ e.fld F.PTP_STAT_TQ = e.tq t ∧
          (1000 < o.natAbs → Raised d e 114 ∧ e.rd Reg.PTP_LASTSTEP = sat32 o)) ∧ TasksBut d e [] ∧
        Only d e (.stand :: stepParts) ([Reg.STD_STAT, Reg.STD_MONOOFS0, Reg.STD_MONOOFS1,
          Reg.STD_TOFS, Reg.HSB_MONOOFS0, Reg.HSB_MONOOFS1, Reg.HSB_MONOSRC] ++ timeRegs ++ stepRegs)))

/-! ## Retained memory and the calendar -/

/-- R362 to R364, R366 to R372: a write and a read of the retained memory by the host, the end of the recall, and the check
of a record after its header was written, which shows a newest slot where there is one. -/
def Obligations.RetainedMemory : Prop :=
  ∀ (s : State) (dt : Nat) (off : BitVec 20) (l : List Byte) (ecc : Ecc) (rec_ : BitVec 8),
    let t := s.mono + dt
    let o := off.toNat
    let w := o / 4 * 4
    let turnedAway (d e : Dev) : Prop := e.flag F.NVS_STAT_HRETRY = true ∧
      e.fld F.NVS_REFCNT_BUSY = min 65535 (d.fld F.NVS_REFCNT_BUSY + 1)
    let scanned (d e : Dev) (r : Nat) : Prop :=
      let m := d.mem.nvs
      let x := dirEntry m r
      let v := (e.rd (Reg.NVS_RECNEW r)).toNat;
      (x.en = false → v = 0) ∧ (x.en = true → dirIgnored m r = true → v = 2 ^ 29) ∧
      (x.en = true → dirIgnored m r = false → newestSlots m x = [] → bitOf v 30 = true ∧ bitOf v 31 = false ∧
        e.pendingSrc 173 = true) ∧
      (x.en = true → dirIgnored m r = false → ∀ j y, newestSlots m x = j :: y → bitOf v 31 = true ∧ bitOf v 30 = false ∧
        bitsOf v 13 0 = x.base + j * x.pages ∧ bitsOf v 19 14 = j ∧
        (tieDiffers m x (j :: y) = true → bitOf v 28 = true ∧ e.pendingSrc 173 = true ∧
          bitsOf v 27 20 = min 255 (d.fld (F.NVS_RECNEW_TIE r) + 1)))
    s.dev.awake = true →
    (s.dev.nvsReady = false →
      Does s (.nvsHostWrite off l) s.mono (fun d e => turnedAway d e ∧ Raised d e 175 ∧ TasksBut d e [] ∧
        Only d e [.tasks, .msix] ([Reg.NVS_STAT, Reg.NVS_REFCNT] ++ raiseRegs 175)) ∧
      Does s (.nvsHostRead off ecc) s.mono (fun d e => turnedAway d e ∧ e.readData = 0xFFFFFFFF ∧
        Only d e [.readData] [Reg.NVS_STAT, Reg.NVS_REFCNT])) ∧
    (s.dev.nvsReady = true → Does s (.nvsHostWrite off l) s.mono (fun d e =>
      let refused := decide (o < 0xB0000) && decide (l ≠ [])
      let fresh := e.nvs.ops.drop d.nvs.ops.length
      let start := (d.nvs.ops.getLast?.map (fun p => max s.mono p.1)).getD s.mono
      (∀ a, Memory.rd8 e.nvsMem a = if o ≤ a ∧ a < o + l.length ∧ 0xB0000 ≤ a ∧ a < 0x100000 then l.getD (a - o) 0
        else Memory.rd8 d.nvsMem a) ∧
      d.nvs.ops <+: e.nvs.ops ∧ fresh.map (fun p => p.1) = (List.range fresh.length).map (fun k => start + 50 * (k + 1)) ∧
      fresh.all (fun p => match p.2 with | .bytes a b => decide (b ≠ []) && a / 8 == (a + b.length - 1) / 8 | _ => false) = true ∧
      (refused = true → e.flag F.NVS_STAT_PROTERR = true ∧ e.fld F.NVS_REFCNT_PROT = min 65535 (d.fld F.NVS_REFCNT_PROT + 1) ∧
        Raised d e 175) ∧
      (refused = false → Only d e [.nvs] []) ∧ e.nvs.checks = d.nvs.checks ∧ TasksBut d e [] ∧
      Only d e [.nvs, .tasks, .msix] ([Reg.NVS_STAT, Reg.NVS_REFCNT] ++ raiseRegs 175)) ∧
      Does s (.nvsHostRead off ecc) s.mono (fun d e => e.readData = Memory.rd32 d.mem.nvs w ∧
        (ecc = .clean → Only d e [.readData] []) ∧
        (ecc = .corrected → e.fld F.NVS_ECC_CORR = min 65535 (d.fld F.NVS_ECC_CORR + 1) ∧
          Only d e [.readData] [Reg.NVS_ECC]) ∧
        (ecc = .double → e.flag F.NVS_STAT_DED = true ∧ e.rd Reg.NVS_DEDADDR = BitVec.ofNat 32 (w + 2 ^ 31) ∧
          Raised d e 174 ∧ (s.mono, Msg.poisoned w) ∈ e.outbox ∧ TasksBut d e [] ∧
          Only d e [.readData, .tasks, .msix] ([Reg.NVS_STAT, Reg.NVS_DEDADDR] ++ raiseRegs 174)))) ∧
    Does s (.nvsRecallDone dt) t (fun d e =>
      let count := ((List.range 256).filter (fun r => (dirEntry d.mem.nvs r).en)).length
      (d.nvsReady = true → Only d e [] []) ∧
      (d.nvsReady = false → e.nvsReady = true ∧ e.rd Reg.NVS_RECCNT = BitVec.ofNat 32 count ∧
        e.rd Reg.NVS_JHEAD = BitVec.ofNat 32 (((journalNewest d.mem.nvs).map (fun x => x.1)).getD 0) ∧
        e.rd Reg.NVS_JSLOT = BitVec.ofNat 32 (((journalNewest d.mem.nvs).map (fun x => x.2)).getD 0) ∧
        e.nvs.interrupted = d.nvs.interrupted ∧ (∀ a, d.nvs.interrupted = some a → e.rd Reg.NVS_PFADDR = BitVec.ofNat 32 (a + 2 ^ 31)) ∧
        (d.nvs.interrupted = none → e.rd Reg.NVS_PFADDR = d.rd Reg.NVS_PFADDR) ∧
        e.nvs.waiting = [] ∧ (e.nvs.ops.filter (fun p => match p.2 with | .head _ _ => true | _ => false)).length =
          (d.nvs.ops.filter (fun p => match p.2 with | .head _ _ => true | _ => false)).length + d.nvs.waiting.length ∧
        (∀ r, r < 256 → scanned d e r) ∧ Raised d e 172) ∧ TasksBut d e [] ∧
      Only d e [.nvs, .tasks, .msix] ([Reg.NVS_STAT, Reg.NVS_RECCNT, Reg.NVS_JHEAD, Reg.NVS_JSLOT, Reg.NVS_PFADDR] ++
        (List.range 256).map Reg.NVS_RECNEW ++ raiseRegs 172 ++ raiseRegs 173)) ∧
    (∀ p, s.dev.nvs.checks.find? (fun p => p.1 == rec_.toNat) = some p →
      Does s (.recordSlotCheck rec_) (max s.mono p.2) (fun d e =>
        let r := rec_.toNat
        let x := dirEntry d.mem.nvs r;
        (∀ j, newestSlot d.mem.nvs r = some j → e.fld (F.NVS_RECNEW_PAGE r) = (x.base + j * x.pages) % 2 ^ 14 ∧
          e.fld (F.NVS_RECNEW_SLOT r) = j % 64 ∧ e.flag (F.NVS_RECNEW_NONE r) = false ∧
          e.flag (F.NVS_RECNEW_VALID r) = true ∧ e.fld (F.NVS_RECNEW_TIE r) = d.fld (F.NVS_RECNEW_TIE r)) ∧
        (newestSlot d.mem.nvs r = none → e.rd (Reg.NVS_RECNEW r) = d.rd (Reg.NVS_RECNEW r)) ∧
        e.nvs = { d.nvs with checks := d.nvs.checks.filter (fun x => x.1 != r) } ∧
        Only d e [.nvs] [Reg.NVS_RECNEW r])) ∧
    (s.dev.nvs.checks.find? (fun p => p.1 == rec_.toNat) = none → exec (.recordSlotCheck rec_) s = .next s)

/-- R375 to R385: the calendar: a frozen read and its timeout, HALT, the setting of the time and the way back to RUN, the
alarm, the periodic wake, the trim window, the rollover, a measurement of the crystal, the use of its proposal, and the
collapse of VBK. -/
def Obligations.Calendar : Prop :=
  ∀ (s : State) (dt n : Nat) (r : Requester) (k : BitVec 3) (v : Word),
    let t := s.mono
    let i := k.toNat
    let dates := Reg.RTC_SUBSEC :: rtcDateRegs
    let errRegs := [Reg.RTC_STAT, Reg.RTC_ERR] ++ raiseRegs 179
    let calm (d e : Dev) (p : List Part) (x : List Nat) : Prop := TasksBut d e [] ∧ Only d e ([.rtc, .tasks, .msix] ++ p) (errRegs ++ x)
    let failed (d e : Dev) : Prop := e.rtc.meas = none ∧ e.flag F.RTC_STAT_MEAS = false ∧
      e.flag F.RTC_ERR_MEASFAIL = true ∧ Raised d e 178 ∧ Raised d e 179 ∧ calm d e [] (raiseRegs 178)
    let entry (d e : Dev) : Prop := (d.nvsReady = true → e.journalHead.1 = if d.journalHead.1 + 1 = 2 ^ 32 then 1 else d.journalHead.1 + 1) ∧
      (d.nvsReady = false → e.nvs.waiting.length = d.nvs.waiting.length + 1)
    let window := (s.dev.rtc.raw t / 2 ^ 23 + 1) * 2 ^ 23
    let trimAt := max t (s.dev.rtc.t0 + (window * 1000000000 - s.dev.rtc.frac + 32767) / 32768)
    (s.dev.phase = .off → Happens s (.vbkCollapse dt) (t + dt) (fun d e => e.rtc = { t0 := t + dt } ∧
      e.power = { d.power with nextCause := none } ∧ e.halted = false ∧
      (∀ x, x ∈ [Reg.RTC_STAT, Reg.RTC_ALM0, Reg.RTC_ALM1, Reg.RTC_ALMCTL, Reg.RTC_WAKEPER, Reg.RTC_TRIM, Reg.RTC_BRAM (i * 4)] →
        e.rd x = resetWordAt x) ∧ e.calWords (t + dt) = [0, 0, 0, 0, 1, 1, 2000] ∧
      Only d e [.rtc, .power] ([Reg.RTC_CTL, Reg.RTC_STAT, Reg.RTC_ALM0, Reg.RTC_ALM1, Reg.RTC_ALMCTL, Reg.RTC_WAKEPER,
        Reg.RTC_WAKECNT, Reg.RTC_TRIM, Reg.SUP_RSTCNT, Reg.SUP_CAUSECNT0, Reg.SUP_CAUSECNT1, Reg.SUP_LGSEQ,
        Reg.WDT_RSTCOUNT] ++ dates ++ (List.range 32).map Reg.RTC_BRAM))) ∧
    (s.dev.phase ≠ .off → Happens s (.vbkCollapse dt) (t + dt) (fun d e => Only d e [] [])) ∧
    (s.dev.awake = true →
    (s.dev.mayRead r = true → i ≤ 6 → Does s (.rtcFreezeRead r k) t (fun d e =>
      let live := (d.freeze r).any (fun f => decide (t < f.1 + 1000000))
      let kept := if live then d.freeze r else some (t, d.calWords t)
      some e.readData = kept.map (fun f => f.2.getD i 0) ∧ e.freeze r = (if i = 6 then none else kept) ∧
      (live = false → (d.freeze r).isSome = true → e.flag F.RTC_ERR_FRZTMO = true ∧ e.pendingSrc 179 = true) ∧
      calm d e [.readData] [])) ∧
    (∀ f, s.dev.freeze r = some f → Does s (.rtcFreezeTimeout r) (max t (f.1 + 1000000)) (fun d e =>
      e.freeze r = none ∧ e.flag F.RTC_ERR_FRZTMO = true ∧ Raised d e 179 ∧ calm d e [] [])) ∧
    (s.dev.freeze r = none → exec (.rtcFreezeTimeout r) s = .next s) ∧
    (Writes s r Reg.RTC_CTL → Does s (.rtcHalt r) t (fun d e =>
      (d.halted = true → Only d e [] []) ∧
      (d.halted = false → e.halted = true ∧ e.flag F.RTC_STAT_HALTED = true ∧ e.rtc.haltP = some (d.pulses t) ∧
        dates.map e.rd = d.calWords t ∧ e.held t = 0 ∧ calm d e [] (Reg.RTC_CTL :: dates)))) ∧
    (Writes s r Reg.RTC_CTL → Does s (.rtcRun r) t (fun d e =>
      let new := calSeconds (d.rd Reg.RTC_SEC).toNat (d.rd Reg.RTC_MIN).toNat (d.rd Reg.RTC_HOUR).toNat (d.rd Reg.RTC_DAY).toNat
        (d.rd Reg.RTC_MONTH).toNat (d.rd Reg.RTC_YEAR).toNat * 32768 + (d.rd Reg.RTC_SUBSEC).toNat + d.held t
      let late := d.flag F.RTC_ALMCTL_ARM && decide (e.alarmKey ≤ e.calKey t)
      (d.halted = false → Only d e [] []) ∧
      (d.halted = true → d.dateValid = false → e.halted = true ∧ e.flag F.RTC_ERR_BADTIME = true ∧
        e.pendingSrc 179 = true ∧ e.rtc.haltP = d.rtc.haltP ∧ calm d e [] []) ∧
      (d.halted = true → d.dateValid = true → e.halted = false ∧ e.flag F.RTC_STAT_HALTED = false ∧ e.rtc.haltP = none ∧
        e.cal t = new % calPulses ∧ e.flag F.RTC_STAT_VALID = decide (new < calPulses) ∧ entry d e ∧
        (late = true → e.flag F.RTC_ALMCTL_ARM = false ∧ e.flag F.RTC_ALMCTL_FIRED = true ∧
          e.flag F.RTC_ALMCTL_ALARM_LATE = true ∧ Raised d e 176) ∧
        (late = false → e.rd Reg.RTC_ALMCTL = d.rd Reg.RTC_ALMCTL)) ∧
      calm d e [.nvs] ([Reg.RTC_CTL, Reg.RTC_ALMCTL] ++ raiseRegs 176))) ∧
    (Writes s r (Reg.RTC_SUBSEC + 4 * i) → Does s (.rtcTimeWrite r k v) t (fun d e =>
      let width := [15, 6, 6, 5, 5, 4, 16].getD i 0
      (6 < i → Only d e [] []) ∧
      (i ≤ 6 → d.halted = false → e.flag F.RTC_ERR_WNOHALT = true ∧ Raised d e 179 ∧ calm d e [] []) ∧
      (i ≤ 6 → d.halted = true → e.rd (dates.getD i 0) = BitVec.ofNat 32 (v.toNat % 2 ^ width) ∧
        (i = 0 → e.rtc.haltP = some (d.pulses t) ∧ e.held t = 0) ∧ (i ≠ 0 → e.rtc.haltP = d.rtc.haltP) ∧
        calm d e [] [dates.getD i 0]))) ∧
    (Writes s r Reg.RTC_ALMCTL → Does s (.rtcAlarmArm r) t (fun d e =>
      (d.alarmKey ≤ d.calKey t → e.flag F.RTC_ALMCTL_ARM = false ∧ e.flag F.RTC_ERR_ALMPAST = true ∧ Raised d e 179) ∧
      (d.calKey t < d.alarmKey → e.flag F.RTC_ALMCTL_ARM = true ∧ Only d e [] [Reg.RTC_ALMCTL]) ∧
      (e.flag F.RTC_ALMCTL_FIRED = d.flag F.RTC_ALMCTL_FIRED) ∧ calm d e [] [Reg.RTC_ALMCTL])) ∧
    (s.dev.flag F.RTC_ALMCTL_ARM = true → s.dev.halted = false →
      Does s .rtcAlarm (max t (s.dev.alarmDue t)) (fun d e =>
        (d.alarmKey ≤ d.calKey (max t (s.dev.alarmDue t)) → e.flag F.RTC_ALMCTL_ARM = false ∧
          e.flag F.RTC_ALMCTL_FIRED = true ∧ e.flag F.RTC_ALMCTL_ALARM_LATE = d.flag F.RTC_ALMCTL_ALARM_LATE ∧ Raised d e 176) ∧
        (d.calKey (max t (s.dev.alarmDue t)) < d.alarmKey → e.rd Reg.RTC_ALMCTL = d.rd Reg.RTC_ALMCTL) ∧
        calm d e [] (Reg.RTC_ALMCTL :: raiseRegs 176))) ∧
    ((s.dev.flag F.RTC_ALMCTL_ARM = false ∨ s.dev.halted = true) → exec .rtcAlarm s = .next s) ∧
    (∀ p, s.dev.rtc.wakeP = some p → Does s .rtcWake (max t (s.dev.whenPulses t p)) (fun d e =>
      let now := d.pulses (max t (s.dev.whenPulses t p))
      let step := 128 * d.fld F.RTC_WAKEPER_PER
      ((now < p ∨ step = 0) → Only d e [] []) ∧
      (p ≤ now → step ≠ 0 → e.rd Reg.RTC_WAKECNT = d.rd Reg.RTC_WAKECNT + BitVec.ofNat 32 ((now - p) / step + 1) ∧
        e.rtc = { d.rtc with wakeP := some (p + ((now - p) / step + 1) * step) } ∧ Raised d e 177 ∧ TasksBut d e [] ∧
        Only d e [.rtc, .tasks, .msix] ([Reg.RTC_WAKECNT, Reg.RTC_STAT] ++ raiseRegs 177)))) ∧
    (s.dev.rtc.wakeP = none → exec .rtcWake s = .next s) ∧
    Does s .trimWindow trimAt (fun d e => d.rtc.raw trimAt = window ∧ e.pulses trimAt = d.pulses trimAt ∧
      e.calWords trimAt = d.calWords trimAt ∧
      (d.rtc.win < window / 2 ^ 23 → e.rtc.win = window / 2 ^ 23 ∧ e.rtc.trim = d.trimReg) ∧ calm d e [] []) ∧
    (s.dev.halted = false → let m := max t (s.dev.whenPulses t (s.dev.rtc.calP + (calPulses - s.dev.rtc.cal)))
      Does s .calendarRollover m (fun d e => e.calWords m = d.calWords m ∧
        (calPulses ≤ d.rtc.cal + (d.pulses m - d.rtc.calP) → e.flag F.RTC_STAT_VALID = false) ∧ calm d e [] [])) ∧
    (s.dev.halted = true → exec .calendarRollover s = .next s) ∧
    (Writes s r Reg.RTC_CTL → Does s (.rtcMeasureStart r) t (fun d e =>
      let from_ := (d.station t / 1000000000 + 1) * 1000000000
      let sec := max 64 (min 65536 (d.fld F.RTC_MEASWIN_SEC))
      e.rtc = { d.rtc with meas := some { from_ := from_, dest := from_ + sec * 1000000000 } } ∧
      e.flag F.RTC_STAT_MEAS = true ∧ Only d e [.rtc] [Reg.RTC_STAT]) ∧
      Does s (.rtcMeasureStop r) t (fun d e =>
        (d.rtc.meas = none → Only d e [] []) ∧ (d.rtc.meas.isSome = true → failed d e)) ∧
      Does s (.rtcTrimApply r) t (fun d e =>
        (d.flag F.RTC_STAT_PROPVALID = false → Only d e [] []) ∧
        (d.flag F.RTC_STAT_PROPVALID = true → e.fld F.RTC_TRIM_T = d.fld F.RTC_TRIMPROP_T ∧
          e.pulses t = d.pulses t ∧ entry d e) ∧ calm d e [.nvs] [Reg.RTC_TRIM])) ∧
    (∀ m, s.dev.rtc.meas = some m →
      let opens := max t (s.dev.whenStation t m.from_)
      let ends := max t (s.dev.whenStation t m.dest);
      (m.opened = false → exec (.rtcMeasureEnd n) s = .next s ∧ Does s .rtcMeasureWindowOpen opens (fun d e =>
        (d.tq opens ≤ 1 → e.rtc = { d.rtc with meas := some { m with opened := true } } ∧ Only d e [.rtc] []) ∧
        (1 < d.tq opens → failed d e))) ∧
      (m.opened = true → exec .rtcMeasureWindowOpen s = .next s ∧ Does s (.rtcMeasureEnd n) ends (fun d e =>
        let n0 := 32768 * ((m.dest - m.from_) / 1000000000)
        let prop := rheDiv (8388608 * ((n0 : Int) - n)) n;
        (1 < d.tq ends → failed d e) ∧
        (d.tq ends ≤ 1 → e.rtc = { d.rtc with meas := none } ∧ e.flag F.RTC_STAT_MEAS = false ∧
          e.flag F.RTC_STAT_PROPVALID = true ∧ Raised d e 178 ∧
          e.rd Reg.RTC_MEASPPB = BitVec.ofInt 32 (max (-2147483648) (min 2147483647 (rheDiv (((n : Int) - n0) * 1000000000) n0))) ∧
          (n ≠ 0 → -2048 ≤ prop → prop ≤ 2047 → e.fld F.RTC_TRIMPROP_T = (prop % 4096).toNat ∧
            e.rd Reg.RTC_ERR = d.rd Reg.RTC_ERR) ∧
          ((n = 0 ∨ prop < -2048 ∨ 2047 < prop) → e.flag F.RTC_ERR_TRIMSAT = true ∧ Raised d e 179) ∧
          calm d e [] ([Reg.RTC_MEASPPB, Reg.RTC_TRIMPROP] ++ raiseRegs 178))))) ∧
    (s.dev.rtc.meas = none → exec .rtcMeasureWindowOpen s = .next s ∧ exec (.rtcMeasureEnd n) s = .next s))

/-- R389 to R398, R404, R482: the supply: a cold start and its retry, rails, die temperature and telemetry, hold-up and the return
of VIN, the entry into deep sleep, warm resume, and the end of retention. -/
def Obligations.SupplyAndSleep : Prop :=
  ∀ (s : State) (dt us : Nat) (r : BitVec 3) (out fail : Bool) (vin : BitVec 16) (volts curs temps : List (BitVec 16))
    (est : Option Nat),
    let t := s.mono + dt
    let i := r.toNat
    let k := s.dev.power
    let low := k.resetLow || k.safeLow
    let event (d e : Dev) (b : Nat) (p : List Part) (x : List Nat) : Prop := e.bit Reg.SUP_EVT b = true ∧
      (d.awake = true → Raised d e (144 + b)) ∧ TasksBut d e [] ∧
      Only d e ([.tasks, .msix] ++ p) ([Reg.SUP_EVT] ++ raiseRegs (144 + b) ++ x)
    let sequenced (d e : Dev) (k : Power) (x : Nat) : Prop :=
      let cause := k.nextCause.getD 0;
      (fail = true → e.phase = .off ∧ e.fld F.PMU_RAILCNT_SEQFAIL = min 65535 (d.fld F.PMU_RAILCNT_SEQFAIL + 1) ∧
        e.power = { k with retryAt := some (x + us * 1000 + 100000000) }) ∧
      (fail = false → e.phase = .reset ∧ e.fld F.PMU_SEQTIME_US = us % 65536 ∧
        e.rd Reg.SUP_RSTCAUSE = BitVec.ofNat 32 (cause + 2 ^ (8 + cause)) ∧
        e.power = { k with
          retryAt := none, nextCause := none, before := .ready,
          releaseFrom := if low then none else some (x + us * 1000) })
    let supplied := s.dev.powered && (decide (s.dev.phase ≠ .sleep) || i == 5)
    let moves := decide (1 ≤ i) && decide (i ≤ 5) && supplied && (s.dev.bit Reg.PMU_STAT (10 + i) != out)
    let coreBack := i == 0 && !out && supplied
    let sampleAt := max s.mono k.sampleDue
    let holdup := s.dev.powered && s.dev.pmuState == 2
    let near (d e : Dev) : Prop :=
      (holdup = true → k.warned = false → e.power = { k with warned := true } ∧ event d e 4 [.power] []) ∧
      ((holdup = false ∨ k.warned = true) → Only d e [] [])
    let asleep (t : Nat) (e : Dev) : Prop :=
      let d := s.dev
      let cap := d.whenPulses t (d.pulses t + 1)
      e.phase = .sleep ∧ e.pmuState = 3 ∧ e.flag F.PMU_STAT_HOLDEN = true ∧
      e.power = { k with
        before := d.phase, rideEnd := none, entryMono := cap, entryPulses := d.pulses cap,
        wdtHeld := if k.wdtFrom.isSome then d.wdtCnt cap else k.wdtHeld, wdtFrom := none } ∧
      e.flag F.WDT_STAT_PAUSED = (k.wdtFrom.isSome || d.flag F.WDT_STAT_PAUSED) ∧
      e.tap = {} ∧
      (d.awake = false → Only d e [.phase, .power, .tap] [Reg.PMU_STAT, Reg.WDT_STAT]) ∧
      (d.awake = true → (List.range 8).all (fun c => (d.core c).runs.all (fun r => decide (r.task < 64))) = true →
        (∀ c, c < 8 → (e.core c).runs = [] ∧ (e.core c).waiting = none) ∧
        (∀ n, n < 64 → (e.task n).ready = none ∨ (d.task n).live = false) ∧
        (∀ n, n < 64 → (d.task n).live = true → e.st n = 1 ∨ (e.task n).live = false) ∧
        e.outs.forced = true ∧ (d.flag F.HSB_CFG_EN = true → e.roleBit 0 = false ∧ e.roleBit 1 = false ∧ e.roleBit 2 = false) ∧
        (∀ p, p < 4 → e.flag (F.ETH_STAT_LINK p) = false ∧ e.flag (F.ETH_STAT_ANDONE p) = false ∧
          e.canMode p = 3) ∧ e.rd Reg.HST_LINK = 0 ∧ e.flag F.SYS_PATHCTL_BUSY = false ∧
        (d.flag F.SYS_PATHCTL_BUSY = true → e.fld F.SYS_PATHCTL_ERR = 3) ∧
        e.fld F.FRP_STAT_PLANE = (if d.fld F.FRP_STAT_PLANE = 3 then 3 else 0) ∧
        e.rd64 Reg.FRP_FOOWN0 = 0 ∧ e.rd64 Reg.FRP_FO0 = 0 ∧ e.plane.markers = 0 ∧
        (d.fld F.FRP_STAT_PLANE ≠ 0 → d.fld F.FRP_STAT_PLANE ≠ 3 → e.pendingSrc 74 = true) ∧
        e.flag F.SWX_STAT_RINGAB = false ∧ e.flag F.SWX_STAT_RINGCD = false ∧
        (d.flag F.SWX_PHYCTL_RSTREL = true → (t, Msg.phyReset false) ∈ e.outbox) ∧
        e.queues.pushes = [] ∧ e.nvs.ops = [] ∧ e.mem.nvs = (d.nvsComplete t).mem.nvs ∧
        Only d e [.phase, .images, .shadow, .nvsMem, .buffers, .cores, .tasks, .modes, .loading, .io, .time, .net, .can,
          .queues, .msix, .plane, .path, .nvs, .xch, .hsb, .rtc, .power, .flash, .tap, .host, .free, .csr] [])
    let sleeps (i : Instr) (t : Nat) : Prop :=
      (holdup = true → Leaves s i (s.dev.whenPulses t (s.dev.pulses t + 1)) (fun _ e => asleep t e)) ∧
      (holdup = false → exec i s = .next { s with mono := t })
    let wakes := t + us * 1000
    let real := s.dev.pulses wakes - k.entryPulses
    let p := est.getD real
    let pulse := if est.isSome then wakes else s.dev.whenPulses k.entryMono (k.entryPulses + real)
    let new := k.entryMono + p * 1000000000 / 32768 + (wakes - pulse)
    let resumed (d e : Dev) : Prop :=
      e.phase = k.before ∧ e.pmuState = 1 ∧ e.flag F.PMU_STAT_HOLDEN = false ∧ e.rd Reg.SUP_SLEEPDUR = BitVec.ofNat 32 p ∧
      e.rd Reg.SUP_SLEEPCNT = d.rd Reg.SUP_SLEEPCNT + 1 ∧ e.fld F.PMU_SEQTIME_US = us % 65536 ∧
      e.flag F.SUP_STAT_MONOEST = (est.isSome || d.flag F.SUP_STAT_MONOEST) ∧
      (k.before = .reset → e.power = { k with
          sampleDue := new + (k.sampleDue - wakes), releaseFrom := if low then none else some new } ∧
        Only d e [.phase, .power, .rtc] [Reg.PMU_STAT, Reg.SUP_SLEEPDUR, Reg.SUP_SLEEPCNT, Reg.PMU_SEQTIME, Reg.SUP_STAT]) ∧
      (Dev.awake { d with phase := k.before } = true → e.flag F.WDT_STAT_PAUSED = false ∧
        e.power = { k with
          sampleDue := new + (k.sampleDue - wakes),
          wdtFrom := if d.flag F.WDT_STAT_PAUSED then some (new - k.wdtHeld * 1000) else k.wdtFrom } ∧
        e.outs.forced = false ∧ e.nvsReady = false ∧ e.angState = (if d.flag F.ANG_SRC_KIND then 0 else 3) ∧
        e.io.sets = [] ∧ e.flag F.ADC_STAT_REFOK = false ∧ e.flag F.ADC_STAT_SELFTEST = false ∧
        (∀ j, j < 24 → e.rd (Reg.ADC_RMS j) = 0 ∧ e.rd (Reg.ADC_THRBIT (j / 3)) = 0) ∧
        (∀ c, c < 8 → (e.core c).time = new) ∧
        (∀ n, n < 64 → (d.task n).live = true → e.st n = 1 ∧ (e.task n).live = true ∧ (e.task n).resume = true ∧
          (e.task n).ready = none ∧ (e.task n).window = false) ∧
        (∀ n, n < 64 → (d.task n).live = false → (e.task n).live = false) ∧
        (∀ q, q < 4 → e.canMode q = d.fld (F.CAN_CTL_MODE q)) ∧
        (d.flag F.SWX_PHYCTL_RSTREL = true → (new, Msg.phyReset true) ∈ e.outbox) ∧ e.bit Reg.SUP_EVT 1 = true ∧ Raised d e 145 ∧
        Only d e [.phase, .images, .standMem, .buffers, .cores, .tasks, .modes, .io, .ang, .time, .net, .can, .queues, .msix,
          .plane, .nvs, .xch, .hsb, .stand, .rtc, .power, .host, .free, .csr] [] ∧
        (∀ x, 0x1000 ≤ x → x < 0x2000 → x ∉ [Reg.SUP_STAT, Reg.SUP_EVT, Reg.SUP_SLEEPDUR, Reg.SUP_SLEEPCNT] → e.rd x = d.rd x) ∧
        (∀ x, 0x3000 ≤ x → x < 0x4000 → x ∉ [Reg.PMU_STAT, Reg.PMU_SEQTIME] → e.rd x = d.rd x) ∧
        e.rd Reg.SYS_BOOT = d.rd Reg.SYS_BOOT);
    Happens s (.coldStart dt fail us) t (fun d e =>
      ((d.phase ≠ .off ∨ k.retryAt.isSome = true) → Only d e [] []) ∧
      (d.phase = .off → k.retryAt = none → e.pmuState = 1 ∧
        (k.nextCause = none → sequenced (d.wr Reg.PMU_RAILCNT 0) e { k with sampleDue := t + 10000 } t ∧
          e.flag F.SUP_STAT_FAULTN = false ∧ e.flag F.SUP_STAT_FSAFE = k.safeLow ∧
          (d.flag F.SUP_STAT_FAULTN = true → (t, Msg.faultN false) ∈ e.outbox) ∧
          (∀ x, (0x1000 ≤ x ∧ x < 0x2000 ∨ 0x3000 ≤ x ∧ x < 0x4000) →
            x ∉ [Reg.SUP_RSTCNT, Reg.SUP_CAUSECNT0, Reg.SUP_CAUSECNT1, Reg.SUP_LGSEQ, Reg.SUP_STAT, Reg.SUP_RSTCAUSE,
              Reg.PMU_RAILCNT, Reg.PMU_SEQTIME, Reg.PMU_STAT] → e.rd x = resetWordAt x) ∧
          (∀ b, 2 < b → e.bit Reg.PMU_STAT b = (resetWordAt Reg.PMU_STAT).getLsbD b) ∧
          (∀ x, (x < 0x1000 ∨ 0x2000 ≤ x ∧ x < 0x3000 ∨ 0x4000 ≤ x) → e.rd x = d.rd x) ∧
          (∀ x, x ∈ [Reg.SUP_RSTCNT, Reg.SUP_CAUSECNT0, Reg.SUP_CAUSECNT1, Reg.SUP_LGSEQ] → e.rd x = d.rd x) ∧
          Only d e [.phase, .power, .csr] []) ∧
        (k.nextCause ≠ none → sequenced d e { k with sampleDue := t + 10000 } t ∧
          (∀ b, 2 < b → e.bit Reg.PMU_STAT b = d.bit Reg.PMU_STAT b) ∧
          Only d e [.phase, .power] [Reg.PMU_STAT, Reg.PMU_RAILCNT, Reg.PMU_SEQTIME, Reg.SUP_RSTCAUSE]))) ∧
    (k.retryAt = none → exec (.railSequenceRetry fail us) s = .next s) ∧
    (∀ x, k.retryAt = some x → Happens s (.railSequenceRetry fail us) (max s.mono x) (fun d e =>
      (d.phase ≠ .off → Only d e [] []) ∧
      (d.phase = .off → sequenced d e k (max s.mono x) ∧
        Only d e [.phase, .power] [Reg.PMU_RAILCNT, Reg.PMU_SEQTIME, Reg.SUP_RSTCAUSE]))) ∧
    Happens s (.railFault dt r out) t (fun d e =>
      (moves = false → coreBack = false → Only d e [] []) ∧
      ((moves = true ∨ coreBack = true) → e.bit Reg.PMU_STAT (10 + i) = out ∧ e.bit Reg.PMU_STAT (4 + i) = !out ∧
        (∀ b, b ≠ 4 + i → b ≠ 10 + i → e.bit Reg.PMU_STAT b = d.bit Reg.PMU_STAT b)) ∧
      (coreBack = true → Only d e [] [Reg.PMU_STAT]) ∧
      (moves = true →
        e.fld F.PMU_RAILCNT_FLT = (if out then min 65535 (d.fld F.PMU_RAILCNT_FLT + 1) else d.fld F.PMU_RAILCNT_FLT) ∧
        e.fld F.PMU_RAILCNT_SEQFAIL = d.fld F.PMU_RAILCNT_SEQFAIL ∧ event d e 2 [] [Reg.PMU_STAT, Reg.PMU_RAILCNT])) ∧
    Happens s (.tempLimit dt) t (fun d e =>
      (d.powered = false → Only d e [] []) ∧ (d.powered = true → event d e 3 [] [])) ∧
    Happens s (.telemetrySample vin volts curs temps) sampleAt (fun d e =>
      (d.powered = false → Only d e [] []) ∧
      (d.powered = true → e.power = { k with sampleDue := sampleAt + 10000 } ∧ e.fld F.PMU_VIN_VIN = vin.toNat ∧
        e.fld F.PMU_VIN_MIN = min vin.toNat (d.fld F.PMU_VIN_MIN) ∧
        (∀ q, q < 6 → e.fld (F.PMU_TEL_VOLT q) = (volts.getD q 0).toNat ∧ e.fld (F.PMU_TEL_CUR q) = (curs.getD q 0).toNat) ∧
        (∀ q, q < 4 → let x := temps.getD q 0
          let m := BitVec.ofNat 16 (d.fld (F.PMU_TEMP_MAX q))
          e.fld (F.PMU_TEMP_TEMP q) = x.toNat ∧ e.fld (F.PMU_TEMP_MAX q) = (if m.slt x then x else m).toNat) ∧
        Only d e [.power] ([Reg.PMU_VIN] ++ (List.range 6).map Reg.PMU_TEL ++ (List.range 4).map Reg.PMU_TEMP))) ∧
    Happens s (.vinFail dt) t (fun d e =>
      let fails := d.powered && d.pmuState == 1;
      (fails = false → Only d e [] []) ∧
      (fails = true → e.pmuState = 2 ∧ e.flag F.PMU_STAT_HOLDEN = true ∧
        (d.flag F.PMU_STAT_HOLDEN = false → (t, Msg.holdEn true) ∈ e.outbox) ∧
        (∀ b, 3 < b → e.bit Reg.PMU_STAT b = d.bit Reg.PMU_STAT b) ∧
        e.fld F.PMU_HOLDCNT_HOLDUPS = min 65535 (d.fld F.PMU_HOLDCNT_HOLDUPS + 1) ∧
        e.power = { k with rideEnd := some (t + max 1 (min 1000 (d.fld F.PMU_HOLDCFG_RIDE)) * 1000000), warned := false } ∧
        event d e 0 [.power] [Reg.PMU_STAT, Reg.PMU_HOLDCNT])) ∧
    Happens s (.holdupWarn (some dt)) t near ∧
    (∀ x, k.rideEnd = some x →
      Happens s (.holdupWarn none) (max s.mono (x - s.dev.fld F.PMU_HOLDCFG_WARN * 1000000)) near) ∧
    (k.rideEnd = none → exec (.holdupWarn none) s = .next s) ∧
    Happens s (.vinRestore dt) t (fun d e =>
      (holdup = false → Only d e [] []) ∧
      (holdup = true → e.pmuState = 1 ∧ e.flag F.PMU_STAT_HOLDEN = false ∧
        (d.flag F.PMU_STAT_HOLDEN = true → (t, Msg.holdEn false) ∈ e.outbox) ∧
        (∀ b, 3 < b → e.bit Reg.PMU_STAT b = d.bit Reg.PMU_STAT b) ∧ e.power = { k with rideEnd := none } ∧
        event d e 1 [.power] [Reg.PMU_STAT])) ∧
    sleeps (.deepSleepEntry (some dt)) t ∧
    (∀ x, k.rideEnd = some x → sleeps (.deepSleepEntry none) (max s.mono x)) ∧
    (k.rideEnd = none → exec (.deepSleepEntry none) s = .next s) ∧
    (s.dev.phase = .sleep → Leaves s (.warmResume dt us est) new resumed) ∧
    (s.dev.phase ≠ .sleep → Happens s (.warmResume dt us est) t (fun d e => Only d e [] [])) ∧
    Happens s (.retentionEnd dt) t (fun d e =>
      (d.phase ≠ .sleep → Only d e [] []) ∧ (d.phase = .sleep → RetentionLost d e k none []))

/-- R15, R16, R35, R390, R399 to R409, R412, R439, R448, R452, R481, R483: the reset pins and the supervisor triggers, SYS_RESET
and its three kinds, the release of device reset, the boot, the first scan, FAULT_N, the halt of the service core, and the
system watchdog. -/
def Obligations.ResetsAndWatchdog : Prop :=
  ∀ (s : State) (dt lock : Nat) (also : BitVec 8) (q : Requester) (key : BitVec 16) (core : BitVec 3) (fsafe : Bool)
    (straps : BitVec 5) (flash : Option (BitVec 2)) (bad : BitVec 10) (conv : List Conversion) (v : Word),
    let t := s.mono + dt
    let now := s.mono
    let k := s.dev.power
    let c := core.toNat
    let mask (x a : Nat) : Nat := (BitVec.ofNat 8 (a / 8 * 8) ||| BitVec.twoPow 8 x).toNat
    let lowest (x a : Nat) : Nat := (([3, 4, 5, 6, 7] : List Nat).find? (fun y => y == x || bitOf a y)).getD x
    let added (d e : Dev) (m : Nat) : Prop := e.fld F.SUP_RSTCAUSE_MASK = d.fld F.SUP_RSTCAUSE_MASK ||| m ∧
      e.fld F.SUP_RSTCAUSE_CAUSE = d.fld F.SUP_RSTCAUSE_CAUSE ∧
      e.flag F.SUP_RSTCAUSE_LGVALID = d.flag F.SUP_RSTCAUSE_LGVALID
    let running := s.dev.phase = .reset ∧ t ≤ k.setEnd
    let core5 (d e : Dev) (m : Nat) : Prop :=
      if bitOf m 5 ∧ d.phase ≠ .off ∧ d.phase ≠ .sleep then e.bit Reg.PMU_STAT 10 = true ∧ e.bit Reg.PMU_STAT 4 = false ∧
        (∀ b, b ≠ 4 → b ≠ 10 → e.bit Reg.PMU_STAT b = d.bit Reg.PMU_STAT b)
      else e.rd Reg.PMU_STAT = d.rd Reg.PMU_STAT
    let triggered (x a : Nat) (d e : Dev) : Prop :=
      (d.awake = true → ResetAs d e k t (lowest x a) (mask x a)) ∧
      (running → added d e (mask x a)) ∧
      (d.awake = false → core5 d e (mask x a) ∧
        Only d e [] (if running then [Reg.SUP_RSTCAUSE, Reg.PMU_STAT] else [Reg.PMU_STAT]))
    let counters := [Reg.SUP_RSTCNT, Reg.SUP_CAUSECNT0, Reg.SUP_CAUSECNT1, Reg.WDT_RSTCOUNT]
    let event (d e : Dev) (off bit src : Nat) (p : List Part) (x : List Nat) : Prop := e.bit off bit = true ∧
      Raised d e src ∧ TasksBut d e [] ∧ Only d e ([.tasks, .msix] ++ p) ([off] ++ raiseRegs src ++ x)
    let busy := s.dev.mode.runs && s.dev.modeChange.all (fun m => m.target.runs)
    let opens := s.dev.fld F.WDT_CFG_WIN_OPEN * 1000
    let closes := s.dev.fld F.WDT_CFG_WIN_CLOSE * 1000;
    Happens s (.resetN dt) t (fun d e =>
      let p := { k with resetLow := true };
      (d.awake = true → ResetAs d e p t 1 2) ∧
      (d.phase = .reset → e.power = { p with releaseFrom := none } ∧ Only d e [.power] []) ∧
      (d.phase = .sleep → RetentionLost d e p (some 1) counters ∧ Counted d e 1 ∧
        e.flag F.SUP_STAT_FAULTN = d.flag F.SUP_STAT_FAULTN) ∧
      (d.phase = .off → e.power = p ∧ Only d e [.power] [])) ∧
    Happens s (.forceSafeN dt also) t (fun d e =>
      let p := { k with safeLow := true };
      e.flag F.SUP_STAT_FSAFE = true ∧
      (d.awake = true → ResetAs d e p t (lowest 7 also.toNat) (mask 7 also.toNat)) ∧
      (d.phase = .reset → e.power = { p with releaseFrom := none } ∧ (running → added d e (mask 7 also.toNat)) ∧
        (¬ running → e.rd Reg.SUP_RSTCAUSE = d.rd Reg.SUP_RSTCAUSE) ∧ core5 d e (mask 7 also.toNat) ∧
        Only d e [.power] [Reg.SUP_STAT, Reg.SUP_RSTCAUSE, Reg.PMU_STAT]) ∧
      (d.phase = .sleep → RetentionLost d e p (some 7) counters ∧ Counted d e 7 ∧ e.flag F.SUP_STAT_FAULTN = true ∧
        (d.flag F.SUP_STAT_FAULTN = false → (t, Msg.faultN true) ∈ e.outbox)) ∧
      (d.phase = .off → e.power = p ∧ Only d e [.power] [Reg.SUP_STAT])) ∧
    Happens s (.mainClockLoss dt also) t (triggered 4 also.toNat) ∧
    Happens s (.vcoreOutOfRange dt also) t (triggered 5 also.toNat) ∧
    Happens s (.codeEccDoubleError dt core) t (fun d e =>
      (d.awake = true → (d.core c).runs = [] → Only d e [] []) ∧
      ((d.awake = false ∨ (d.core c).runs ≠ []) → triggered 6 0 d e)) ∧
    Happens s (.resetPinRelease dt fsafe) t (fun d e =>
      let p := if fsafe then { k with safeLow := false } else { k with resetLow := false }
      let free := decide (d.phase = .reset) && !p.resetLow && !p.safeLow && k.releaseFrom.isNone
      e.power = (if free then { p with releaseFrom := some (t + 1000000) } else p) ∧
      (fsafe = true → e.flag F.SUP_STAT_FSAFE = false) ∧
      Only d e [.power] (if fsafe then [Reg.SUP_STAT] else [])) ∧
    ((s.dev.phase ≠ .reset ∨ k.releaseFrom = none) → exec (.deviceResetRelease lock straps) s = .next s) ∧
    (∀ x, k.releaseFrom = some x → s.dev.phase = .reset → Leaves s (.deviceResetRelease lock straps) 0 (fun d e =>
      let old := max s.mono (x + lock)
      let open_ := !d.flag F.SEC_STAT_FIELDLOCK
      e.phase = .rom ∧ e.mem = { d.mem with inCur := bootStations, inNext := bootStations, stand := bootHeaders } ∧
      e.rtc = { d.rtc with frac := d.rtc.frac + (old - d.rtc.t0) * 32768, t0 := 0 } ∧
      e.power = { k with
        releaseFrom := none, setEnd := 0, sampleDue := k.sampleDue - old, rideEnd := k.rideEnd.map (fun y => y - old) } ∧
      e.rd Reg.SYS_STRAPS = BitVec.ofNat 32 straps.toNat ∧ e.rd Reg.CLK_STAT = 0x3F ∧ e.rd Reg.CLK_RCMEAS = 32000 ∧
      (∀ j, j < 4 → e.fld (F.PMU_TEMP_MAX j) = d.fld (F.PMU_TEMP_TEMP j) ∧
        e.fld (F.PMU_TEMP_TEMP j) = d.fld (F.PMU_TEMP_TEMP j)) ∧
      e.fld F.ANG_SSTAT_NVLEFT = d.alRate % 2 ^ 8 ∧ e.flag F.SEC_STAT_OPEN = open_ ∧ e.fld F.SEC_STAT_OPENBY = (if open_ then 1 else 0) ∧
      (∀ n, n < 96 → e.biLevel n = d.biRaw n) ∧ e.fld F.SYS_MODE_KEY = d.keyPin.toNat ∧
      (∀ m, Mode.ofKey d.keyPin.toNat = some m → e.mode = m ∧ e.flag F.SYS_MODE_KEYBAD = d.flag F.SYS_MODE_KEYBAD) ∧
      (Mode.ofKey d.keyPin.toNat = none → e.mode = .stop ∧ e.flag F.SYS_MODE_KEYBAD = true ∧
        e.fld F.SYS_MODE_KEYBADCNT = 1 ∧ e.bit Reg.SUP_EVT 6 = true ∧ Raised d e 150) ∧ TasksBut d e [] ∧
      Only d e [.phase, .images, .standMem, .tasks, .io, .queues, .msix, .rtc, .power] ([Reg.SYS_STRAPS, Reg.CLK_STAT,
        Reg.CLK_RCMEAS, Reg.ANG_SSTAT, Reg.SEC_STAT, Reg.SYS_MODE, Reg.SUP_EVT, Reg.BIO_BIRAW0, Reg.BIO_BIRAW1, Reg.BIO_BIRAW2, Reg.BIO_BI0,
        Reg.BIO_BI1, Reg.BIO_BI2, Reg.BIO_SOECNT, Reg.QUE_QLOST 0] ++ (List.range 4).map Reg.PMU_TEMP ++
        raiseRegs 150))) ∧
    (s.dev.awake = true →
    (Writes s q Reg.SYS_RESET →
      Does s (.deviceReset q key) now (fun d e =>
        let refused := q == .host && d.mode.runs;
        (key ≠ 0xD1A5 → Only d e [] []) ∧
        (key = 0xD1A5 → refused = true → e.flag F.SYS_RESET_REFUSED = true ∧ Only d e [] [Reg.SYS_RESET]) ∧
        (key = 0xD1A5 → refused = false → ResetAs d e k now 2 4)) ∧
      Does s (.networkEngineRestart q key) now (fun d e =>
        (key ≠ 0xD1A5 → Only d e [] []) ∧
        (key = 0xD1A5 → e.flag F.SYS_RESET_REFUSED = false ∧ e.flag F.SWX_STAT_RINGAB = false ∧
          e.flag F.SWX_STAT_RINGCD = false ∧ e.flag F.SWX_MDIO_BUSY = false ∧ e.net.tokens = [] ∧ e.net.seen = [] ∧
          e.net.ownSeen = [] ∧ e.net.twoStep = [] ∧ e.net.mdioEnd = none ∧ e.net.txSeq = [] ∧ e.net.proxies = [] ∧
          e.net.held = [] ∧ e.net.rsvUsed = [] ∧ e.mem.store = [] ∧ e.rd Reg.SWX_NODECNT = 0 ∧
          (∀ j, j < 8 → e.rd (Reg.SWX_RCNT j) = 0) ∧
          (∀ p, p < 4 → ∀ x, x ∈ [Reg.ETH_PDELAY p, Reg.ETH_RXFRAMES p, Reg.ETH_RXERR p, Reg.ETH_RXLIMDROP p,
            Reg.ETH_RSVFRAMES p, Reg.ETH_RSVDROP p, Reg.ETH_FILTDROP p, Reg.ETH_TXFRAMES p] → e.rd x = 0) ∧
          (∀ x, 0x30000 ≤ x → x < 0x36000 → e.rd x &&& settingMask x = d.rd x &&& settingMask x) ∧
          (∀ j w, w < 8 → e.subWord j w = d.subWord j w) ∧ (∀ j w, w < 28 → e.pubWord j w = d.pubWord j w) ∧
          (∀ p, p < 4 → e.flag (F.ETH_STAT_ANDONE p) = false ∧ e.flag (F.ETH_STAT_LINK p) = false ∧
            ∀ j, j < 8 → e.fld (F.ETH_LQSTAT_DEPTH p j) = 0 ∧ Sparse.get (fun _ => []) e.net.launch (8 * p + j) = []) ∧
          (∀ j, j < 2 → e.fld (F.PTP_DSTAT_SERVO j) = b2n (d.flag (F.PTP_DCFG_EN j))) ∧ e.fld F.PTP_STAT_SRC = 0 ∧
          e.time.usable = false ∧ e.time.base = d.time.base ∧ e.time.t0 = d.time.t0 ∧ e.time.slew = d.time.slew ∧
          TasksBut d e [] ∧ Only d e [.net, .time, .rtc, .images, .plane, .tasks, .msix, .csr] [])) ∧
      Does s (.scanCoreRestart q key core) now (fun d e =>
        (key ≠ 0xD1A5 → Only d e [] []) ∧
        (key = 0xD1A5 → busy = true → e.flag F.SYS_RESET_REFUSED = true ∧ Only d e [] [Reg.SYS_RESET]) ∧
        (key = 0xD1A5 → busy = false → s.dev.modeChange.all (fun m => !m.target.runs) = true →
          (d.core c).runs.all (fun r => decide (r.task < 64)) = true →
          e.flag F.SYS_RESET_REFUSED = false ∧ e.core c = { time := (d.core c).time } ∧
          (∀ j, j ≠ c → e.core j = d.core j) ∧
          (∀ n, n < 64 → d.fld (F.TSK_CFG_CORE n) = c → d.enabled n = true → (e.task n).live = false ∧
            (e.task n).ready = none ∧ (e.task n).commit = none ∧ e.inRun n = false) ∧
          (∀ a, Memory.rd8 e.mem.shadow a = if a / 0x40000 = c then 0 else Memory.rd8 d.mem.shadow a) ∧
          (d.modeChange = none → Only d e [.cores, .tasks, .shadow, .hsb] (Reg.SYS_RESET :: Reg.IMG_SAFEMASK0 ::
            Reg.IMG_SAFEMASK1 :: (List.range 64).flatMap (fun n => [Reg.TSK_STATE n, Reg.TSK_CHKIN n])))))) ∧
    (Writes s q Reg.SUP_CTL → Does s (.faultClear q key) now (fun d e =>
      (key = 0x3C96 → e.flag F.SUP_STAT_FAULTN = false ∧
        (d.flag F.SUP_STAT_FAULTN = true → (now, Msg.faultN false) ∈ e.outbox) ∧ Only d e [] [Reg.SUP_STAT]) ∧
      (key ≠ 0x3C96 → Only d e [] []))) ∧
    Does s (.serviceCoreHalt dt) t (fun d e =>
      (d.flag F.SUP_STAT_SVCHALT = true → Only d e [] []) ∧
      (d.flag F.SUP_STAT_SVCHALT = false → e.flag F.SUP_STAT_SVCHALT = true ∧
        event d e Reg.SUP_EVT 7 151 [] [Reg.SUP_STAT])) ∧
    (Writes s q Reg.WDT_CFG → Does s (.wdtConfig q v) now (fun d e =>
      let close := bitsOf v.toNat 29 16
      let good := !d.flag F.WDT_STAT_EN && decide (1 ≤ close) && decide (close ≤ 16000) && decide (bitsOf v.toNat 13 0 ≤ close);
      (good = false → event d e Reg.WDT_STAT 11 155 [] [] ∧ e.flag F.WDT_STAT_EN = d.flag F.WDT_STAT_EN) ∧
      (good = true → e.fld F.WDT_CFG_WIN_OPEN = bitsOf v.toNat 13 0 ∧ e.fld F.WDT_CFG_WIN_CLOSE = close ∧
        e.flag F.WDT_CFG_EARLYRST = bitOf v.toNat 30 ∧ e.flag F.WDT_STAT_EN = true ∧
        e.power = { k with wdtFrom := some now } ∧ e.wdtCnt now = 0 ∧
        Only d e [.power] [Reg.WDT_CFG, Reg.WDT_STAT]))) ∧
    (Writes s q Reg.WDT_SERVE → Does s (.wdtServe q key) now (fun d e =>
      let n := d.wdtCnt now
      let serves := decide (key = 0xA5C3) && d.flag F.WDT_STAT_EN;
      (serves = false → Only d e [] []) ∧
      (serves = true → n < opens → d.flag F.WDT_CFG_EARLYRST = false → event d e Reg.WDT_STAT 8 152 [] [Reg.WDT_EARLY] ∧
        e.fld F.WDT_EARLY_COUNT = min 65535 (d.fld F.WDT_EARLY_COUNT + 1)) ∧
      (serves = true → n < opens → d.flag F.WDT_CFG_EARLYRST = true → ResetAs d e k now 3 8) ∧
      (serves = true → opens ≤ n → n ≤ closes → e.wdtCnt now = 0 ∧ e.power = { k with wdtFrom := some now } ∧
        e.flag F.WDT_STAT_STAGE2 = false ∧ Only d e [.power] [Reg.WDT_STAT]) ∧
      (serves = true → opens ≤ n → closes < n → Only d e [] []))) ∧
    (k.wdtFrom = none → exec .wdtExpiry s = .next s) ∧
    (∀ f, k.wdtFrom = some f → let x := max now (f + closes * 1000 + 1000)
      Does s .wdtExpiry x (fun d e =>
        (d.wdtCnt x ≤ closes → Only d e [] []) ∧
        (closes < d.wdtCnt x → d.flag F.WDT_STAT_STAGE2 = false → e.flag F.WDT_STAT_STAGE2 = true ∧
          e.power = { k with wdtFrom := some x } ∧ event d e Reg.WDT_STAT 8 152 [.power] []) ∧
        (closes < d.wdtCnt x → d.flag F.WDT_STAT_STAGE2 = true → ResetAs d e k x 3 8))) ∧
    Does s (.boot dt ⟨flash, bad⟩ conv) t (fun d e =>
      let hurt := if flash.isSome then bad else 0x3FF
      let lost := hurt.getLsbD 8 && hurt.getLsbD 9
      let f := d.readFlash hurt
      let spore := d.flag F.SYS_STRAPS_SPORE || lost || !(f.activeBoots || f.otherBoots)
      let r0 := f.comp 0
      let noSet := decide ((f.comp 3).slotA.program = none) && decide ((f.comp 3).slotB.program = none)
      let size := e.flag F.UPD_STAT_FLOK = flash.isSome ∧ e.fld F.UPD_STAT_FLSIZE = (flash.map (fun x => x.toNat)).getD 0;
      (d.phase ≠ .rom → Only d e [] []) ∧
      (d.phase = .rom → spore = true → e.phase = .spore ∧ e.fld F.SYS_BOOT_KIND = 2 ∧ e.fld F.SYS_BOOT_SLOT = 0 ∧
        e.flash.helloAt = some t ∧ e.flash.baud = 115200 ∧ e.flash.listed = [] ∧ size ∧
        (lost = true → ∀ c, c < 4 → (e.comp c).activeB = true ∧ (e.comp c).otherValid = false)) ∧
      (d.phase = .rom → spore = false → noSet = true → r0.state ≠ 4 → e.phase = .prep ∧ size ∧
        e.fld F.SYS_BOOT_KIND = b2n (d.flag F.SUP_RSTCAUSE_CAUSE) ∧ e.nvsReady = true ∧
        (∀ m b, (e.comp 0).active = .signed m b → e.mem.svc = Memory.wrBytes [] 0 (b.flatMap (fun x => x.2))) ∧
        (d.xch.lost = true → e.fld F.XCH_STAT_RESULT = 11 ∧ e.xch.lost = false) ∧
        (d.flag F.SUP_RSTCAUSE_CAUSE = true → e.bit Reg.SUP_EVT 5 = true ∧ e.pendingSrc 149 = true) ∧
        (f.activeBoots = true → e.fld F.SYS_BOOT_SLOT = b2n r0.activeB ∧ e.fld F.SYS_BOOT_FAILS = r0.fails + 1 ∧
          e.comp 0 = r0.setFails (r0.fails + 1)) ∧
        (f.activeBoots = false → e.fld F.SYS_BOOT_SLOT = b2n (!r0.activeB) ∧ (e.comp 0).activeB = !r0.activeB ∧
          e.fld F.SYS_BOOT_FAILS = r0.otherFails + 1 ∧ (e.comp 0).fails = r0.otherFails + 1))) ∧
    (∀ p x, (s.dev.comp 3).active.program = some p → p.regs = [] → s.dev.imageOk 3 (s.dev.comp 3).active = true →
      Does s (.boot dt ⟨some x, 0⟩ conv) t (fun d e =>
      d.phase = .rom → d.flag F.SYS_STRAPS_SPORE = false → d.activeBoots = true → (d.comp 0).state ≠ 4 →
        e.mem.code = p.code ∧ e.mem.data = p.data ∧ e.formats = p.formats ∧ e.xch.spans = p.spans ∧ e.rd Reg.XCH_RUNVER = p.version)) ∧
    Does s (.firstScan dt) t (fun d e =>
      let ready := decide (d.phase = .prep) && !d.flag F.SUP_STAT_SVCHALT;
      (ready = false → Only d e [] []) ∧
      (ready = true → e.phase = .ready ∧ e.mode = d.mode ∧ e.flag F.WDT_STAT_EN = true ∧
        (d.flag F.WDT_STAT_EN = false → e.fld F.WDT_CFG_WIN_OPEN = 0 ∧ e.fld F.WDT_CFG_WIN_CLOSE = 1000 ∧
          e.power = { k with wdtFrom := some t }) ∧
        (d.flag F.WDT_STAT_EN = true → e.power = k) ∧
        e.time.base = d.calendarStation t ∧ e.time.t0 = t ∧ e.time.slew = 0 ∧ e.ang.loaded = true ∧
        (t ≤ 5000000000 → e.fld F.SYS_BOOT_FAILS = 0 ∧ (e.comp 0).fails = 0) ∧
        (∀ p v, (d.comp 3).active.program = some p → p.regs.filter (fun x => x.1 == Reg.ANG_SRC) = [(Reg.ANG_SRC, v)] →
          e.fld F.ANG_SRC_KIND = bitsOf v.toNat 1 0 ∧ e.fld F.ANG_SRC_CH = bitsOf v.toNat 12 8) ∧
        (∀ n, n < 64 → d.inRun n = false → d.st n ≠ 5 → d.enabled n = true → (d.task n).live = false →
          (d.mode.runs = true → e.flag (F.TSK_STATE_CFGERR n) = false → (e.task n).live = true ∧ e.st n = 1) ∧
          (d.mode.runs = false → (e.task n).live = false ∧ e.st n = 6)) ∧
        (∀ x, x < 4 → (d.comp x).state = 4 → (d.comp x).selfConfirm = false → (e.comp x).winEnd.isSome = true))))

/-- R422 to R433, R450, R451, R467: access and identity: CHALLENGE, UNLOCK_SIG, UNLOCK_PWD, RELOCK, SETPWD, KEYSLOT, REVOKE,
FIELDLOCK, ATTEST and ATTEST_READ at this device, and what MONO ends: the challenge, the access window, the signing. Where
access closes, a test instruction that needs it becomes BYPASS. The outcome of a signature and of a hash is that of Config.slhVerify and Config.sha256. -/
def Obligations.SecurityCommands : Prop :=
  ∀ (s : State) (f : HostForm) (u : Nat) (h : CmdHead) (k : BitVec 2) (pk sig pwd hash : List Byte),
    let t (ns : Nat) : Nat := s.mono + f.cost + ns
    let j := k.toNat
    let bytes (off : Nat → Nat) : List Byte := wordBytes ((List.range 8).map (fun w => s.dev.rd (off w)))
    let uid := wordBytes [s.dev.rd Reg.SYS_UID0, s.dev.rd Reg.SYS_UID1, s.dev.rd Reg.SYS_UID2, s.dev.rd Reg.SYS_UID3]
    let digest (l : List Byte) : List Byte := leBytes (Config.sha256 l).toNat 32
    let busy := s.dev.sec.signing.isSome
    let locked := s.dev.flag F.SEC_STAT_FIELDLOCK
    let window := max 1 (min 1440 (s.dev.fld F.SEC_WINCFG_MIN)) * 60000000000
    let usable (n : Nat) : Bool := s.dev.bit Reg.SEC_STAT (4 + n) && !s.dev.bit Reg.SEC_STAT (8 + n)
    let ends (d e : Dev) (x y : Nat) : Prop := Replies d e x f y [] ∧ OnlyReply d e [] []
    let entry (d e : Dev) : Prop :=
      (d.nvsReady = true → e.journalHead.1 = if d.journalHead.1 + 1 = 2 ^ 32 then 1 else d.journalHead.1 + 1) ∧
      (d.nvsReady = false → e.nvs.waiting.length = d.nvs.waiting.length + 1)
    let event (d e : Dev) (n : Nat) : Prop := e.bit Reg.SEC_EVT n = true ∧ Raised d e (180 + n)
    let opened (e : Dev) (b : Bool) (y : Nat) : Prop := e.flag F.SEC_STAT_OPEN = b ∧ e.fld F.SEC_STAT_OPENBY = y
    let events := Reg.SEC_EVT :: (raiseRegs 180 ++ raiseRegs 181 ++ raiseRegs 182 ++ raiseRegs 183)
    let changed (d e : Dev) (x : List Nat) : Prop := OnlyReply d e [.sec, .nvs] (Reg.SEC_STAT :: (events ++ x))
    let bypassed (d e : Dev) (shut : Bool) : Prop := e.tap =
      if shut && !tapAlways d.tap.ir then { d.tap with ir := .bypass } else d.tap
    let closed (d e : Dev) : Prop := bypassed d e (locked && d.sec.winEnd.isSome) ∧ e.sec = { d.sec with winEnd := none } ∧ opened e (!locked) (if locked then 0 else 1) ∧
      (d.sec.winEnd.isSome = true → event d e 0 ∧ entry d e)
    (Served s (.challenge h) f u → Does s (.challenge h) (t 0) (fun d e =>
      let c := Config.challenge d.sec.drawn
      Replies d e (t 0) f 0 (leBytes c.toNat 32) ∧ e.flag F.SEC_STAT_CHVALID = true ∧
      (∀ w, w < 8 → e.rd (Reg.SEC_CHAL w) = BitVec.extractLsb' (32 * w) 32 c) ∧
      e.sec = { d.sec with drawn := d.sec.drawn + 1, chalEnd := some (t 0 + 600000000000) } ∧
      OnlyReply d e [.sec] (Reg.SEC_STAT :: (List.range 8).map Reg.SEC_CHAL))) ∧
    (Served s (.unlockSig h k pk sig) f u → Does s (.unlockSig h k pk sig) (t 5000000) (fun d e =>
      let ok := d.sec.chalEnd.any (fun x => decide (t 5000000 < x)) && usable j &&
        decide (digest pk = bytes (Reg.SEC_KEYHASH j)) && Config.slhVerify pk (bytes Reg.SEC_CHAL ++ uid) sig
      let fits := decide (pk.length = 32) && decide (sig.length = 7856);
      (fits = false → ends d e (t 5000000) 4) ∧ (fits = true → busy = true → ends d e (t 5000000) 5) ∧
      (fits = true → busy = false → Replies d e (t 5000000) f (if ok then 0 else 8) [] ∧
        e.flag F.SEC_STAT_CHVALID = false ∧
        e.sec = { d.sec with
          chalEnd := none, winEnd := if ok then some (t 5000000 + window) else d.sec.winEnd,
          by_ := if ok then 2 else d.sec.by_ } ∧
        (if ok then opened e true (if locked then 2 else 1)
          else opened e (d.flag F.SEC_STAT_OPEN) (d.fld F.SEC_STAT_OPENBY)) ∧
        e.fld F.SEC_AUTHCNT_UNLOCKFAIL = (if ok then d.fld F.SEC_AUTHCNT_UNLOCKFAIL
          else min 65535 (d.fld F.SEC_AUTHCNT_UNLOCKFAIL + 1)) ∧
        (d.sec.winEnd = none → event d e (if ok then 0 else 1) ∧ entry d e) ∧ changed d e [Reg.SEC_AUTHCNT]))) ∧
    (Served s (.unlockPwd h pwd) f u → Does s (.unlockPwd h pwd) (t 1000000) (fun d e =>
      let fits := decide (8 ≤ pwd.length) && decide (pwd.length ≤ 64)
      let n := leNat ((d.recordPayload (d.ownRid 0xFF02)).take 4)
      let set := d.recordPayload (d.ownRid 0xFF03)
      let free := d.sec.lastFail + (if n = 0 then 0 else if 13 ≤ n then 4096 else 2 ^ (n - 1)) * 1000000000
      let ok := decide (digest (uid ++ pwd) = set)
      let stored := if ok && n == 0 then d else d.ownRecord (t 1000000) 0xFF02 1 (leBytes (if ok then 0 else n + 1) 4)
      (fits = false → ends d e (t 1000000) 4) ∧ (fits = true → busy = true → ends d e (t 1000000) 5) ∧
      (fits = true → busy = false → (set = [] ∨ t 1000000 < free) → Replies d e (t 1000000) f 8 [] ∧ e.sec = d.sec ∧
        e.fld F.SEC_AUTHCNT_UNLOCKFAIL = min 65535 (d.fld F.SEC_AUTHCNT_UNLOCKFAIL + 1) ∧ event d e 1 ∧ entry d e ∧
        e.nvs.checks = d.nvs.checks ∧ changed d e [Reg.SEC_AUTHCNT]) ∧
      (fits = true → busy = false → set ≠ [] → free ≤ t 1000000 → Replies d e (t 1000000) f (if ok then 0 else 8) [] ∧
        e.sec = (if ok then { d.sec with winEnd := some (t 1000000 + window), by_ := 3 }
          else { d.sec with lastFail := t 1000000 }) ∧
        (if ok then opened e true (if locked then 3 else 1)
          else opened e (d.flag F.SEC_STAT_OPEN) (d.fld F.SEC_STAT_OPENBY)) ∧
        e.nvs.checks = stored.nvs.checks ∧ stored.nvs.ops <+: e.nvs.ops ∧
        e.fld F.SEC_AUTHCNT_UNLOCKFAIL = (if ok then d.fld F.SEC_AUTHCNT_UNLOCKFAIL
          else min 65535 (d.fld F.SEC_AUTHCNT_UNLOCKFAIL + 1)) ∧
        (d.sec.winEnd = none → event d e (if ok then 0 else 1) ∧ entry stored e) ∧ changed d e [Reg.SEC_AUTHCNT]))) ∧
    (Served s (.relock h) f u → Does s (.relock h) (t 0) (fun d e => Replies d e (t 0) f 0 [] ∧
      (d.sec.winEnd = none → OnlyReply d e [] []) ∧ (d.sec.winEnd.isSome = true → closed d e) ∧
      OnlyReply d e [.sec, .nvs, .tap] (Reg.SEC_STAT :: events))) ∧
    (Served s (.setpwd h pwd) f u → Does s (.setpwd h pwd) (t 1000000) (fun d e =>
      let fits := decide (8 ≤ pwd.length) && decide (pwd.length ≤ 64)
      let stored := d.ownRecord (t 1000000) 0xFF03 1 (digest (uid ++ pwd))
      (fits = false → ends d e (t 1000000) 4) ∧ (fits = true → busy = true → ends d e (t 1000000) 5) ∧
      (fits = true → busy = false → (findRecord stored.nvsMem (d.ownRid 0xFF03)).isSome = true →
        Replies d e (t 1000000) f 0 [] ∧ event d e 2 ∧ entry stored e ∧ e.nvs.checks = stored.nvs.checks ∧
        stored.nvs.ops <+: e.nvs.ops ∧ OnlyReply d e [.nvs] events) ∧
      (fits = true → busy = false → findRecord stored.nvsMem (d.ownRid 0xFF03) = none → ends d e (t 1000000) 8))) ∧
    (Served s (.keyslot h k hash) f u → Does s (.keyslot h k hash) (t 2000000) (fun d e =>
      let set := d.bit Reg.SEC_STAT (4 + j)
      (hash.length ≠ 32 → ends d e (t 2000000) 4) ∧ (hash.length = 32 → busy = true → ends d e (t 2000000) 5) ∧
      (hash.length = 32 → busy = false → set = true → ends d e (t 2000000) 8) ∧
      (hash.length = 32 → busy = false → set = false → Replies d e (t 2000000) f 0 [] ∧
        wordBytes ((List.range 8).map (fun w => e.rd (Reg.SEC_KEYHASH j w))) = hash ∧
        e.rd Reg.SEC_STAT = d.rd Reg.SEC_STAT ||| BitVec.twoPow 32 (4 + j) ∧ event d e 2 ∧ entry d e ∧ e.sec = d.sec ∧
        changed d e ((List.range 8).map (fun w => Reg.SEC_KEYHASH j w))))) ∧
    (Served s (.revoke h k) f u → Does s (.revoke h k) (t 2000000) (fun d e =>
      let last := locked && !(([0, 1, 2, 3] : List Nat).any (fun n => n != j && usable n));
      (busy = true → ends d e (t 2000000) 5) ∧ (busy = false → last = true → ends d e (t 2000000) 8) ∧
      (busy = false → last = false → Replies d e (t 2000000) f 0 [] ∧
        e.rd Reg.SEC_STAT = d.rd Reg.SEC_STAT ||| BitVec.twoPow 32 (8 + j) ∧ event d e 2 ∧ entry d e ∧ e.sec = d.sec ∧
        changed d e []))) ∧
    (Served s (.fieldlock h) f u → Does s (.fieldlock h) (t 2000000) (fun d e =>
      let any := ([0, 1, 2, 3] : List Nat).any usable;
      (busy = true → ends d e (t 2000000) 5) ∧ (busy = false → any = false → ends d e (t 2000000) 8) ∧
      (busy = false → any = true → locked = true → ends d e (t 2000000) 0) ∧
      (busy = false → any = true → locked = false → Replies d e (t 2000000) f 0 [] ∧ e.flag F.SEC_STAT_FIELDLOCK = true ∧
        opened e d.sec.winEnd.isSome (if d.sec.winEnd.isSome then d.sec.by_ % 4 else 0) ∧ event d e 0 ∧ entry d e ∧
        bypassed d e (decide (d.sec.winEnd = none)) ∧ e.sec = d.sec ∧
        OnlyReply d e [.sec, .nvs, .tap] (Reg.SEC_STAT :: events)))) ∧
    (Served s (.attest h hash) f u → Does s (.attest h hash) (t 0) (fun d e =>
      let stat := putBits (d.rd Reg.SEC_STAT) 12 12 (b2n (decide (d.recordPayload (d.ownRid 0xFF03) ≠ [])))
      let m := hash ++ uid ++ wordBytes [d.rd Reg.SYS_IDCODE, d.rd Reg.SYS_ROMVER, d.rd Reg.SYS_FWVER,
        d.rd Reg.SYS_NETFWVER, d.rd Reg.SYS_PMUFWVER, d.actVer 3, stat, d.rd Reg.SEC_SECVER];
      (hash.length ≠ 32 → ends d e (t 0) 4) ∧ (hash.length = 32 → busy = true → ends d e (t 0) 5) ∧
      (hash.length = 32 → busy = false → Replies d e (t 0) f 0 [] ∧ e.flag F.SEC_STAT_ATTBUSY = true ∧
        e.sec = { d.sec with signing := some (t 0 + 60000000, m) } ∧ OnlyReply d e [.sec] [Reg.SEC_STAT]))) ∧
    (Served s (.attestRead h) f u → Does s (.attestRead h) (t 0) (fun d e =>
      (d.sec.signed = none → ends d e (t 0) 8) ∧
      (∀ m, d.sec.signed = some m → OnlyReply d e [] [] ∧
        Replies d e (t 0) f 0 (m ++ padTo 17088 (Config.attestSign m) ++ padTo 7856 Config.vendorCert)))) ∧
    (s.dev.awake = true →
      (∀ x, s.dev.sec.chalEnd = some x → Does s .challengeExpiry (max s.mono x) (fun d e =>
        e.flag F.SEC_STAT_CHVALID = false ∧ e.sec = { d.sec with chalEnd := none } ∧ Only d e [.sec] [Reg.SEC_STAT])) ∧
      (∀ x, s.dev.sec.winEnd = some x → Does s .unlockWindowExpiry (max s.mono x) (fun d e => closed d e ∧
        TasksBut d e [] ∧ Only d e [.sec, .nvs, .tap, .tasks, .msix] ([Reg.SEC_STAT, Reg.SEC_EVT] ++ raiseRegs 180))) ∧
      (∀ x, s.dev.sec.signing = some x → Does s .attestReady (max s.mono x.1) (fun d e =>
        e.flag F.SEC_STAT_ATTBUSY = false ∧ e.flag F.SEC_STAT_ATTRDY = true ∧
        e.sec = { d.sec with signing := none, signed := some x.2 } ∧ event d e 3 ∧ TasksBut d e [] ∧
        Only d e [.sec, .tasks, .msix] ([Reg.SEC_STAT, Reg.SEC_EVT] ++ raiseRegs 183)))) ∧
    (s.dev.sec.chalEnd = none → exec .challengeExpiry s = .next s) ∧
    (s.dev.sec.winEnd = none → exec .unlockWindowExpiry s = .next s) ∧
    (s.dev.sec.signing = none → exec .attestReady s = .next s)

/-- R423 to R425, R434 to R447, R452: field update: MANIFEST, DATA, STATUS, ABORT, ACTIVATE, CONFIRM and REVERT at this
device, a block that the flash has written, and the warning, the expiry and the saving of a confirmation window. The
outcome of a signature and of a hash is that of Config.slhVerify and Config.sha256. -/
def Obligations.FieldUpdate : Prop :=
  ∀ (s : State) (f : HostForm) (u dt : Nat) (h : CmdHead) (comp : BitVec 4) (index : Word) (l : List Byte) (ok : Bool)
    (k : BitVec 2),
    let c := comp.toNat - 1
    let named := decide (1 ≤ comp.toNat) && decide (comp.toNat ≤ 4)
    let i := index.toNat
    let t (ns : Nat) : Nat := s.mono + f.cost + ns
    let now := s.mono + dt
    let old := s.dev.comp c
    let busy := s.dev.sec.signing.isSome
    let ends (d e : Dev) (x y : Nat) : Prop := Replies d e x f y [] ∧ OnlyReply d e [] []
    let others (d e : Dev) (c : Nat) : Prop := ∀ y, y ≠ c → e.comp y = d.comp y
    let entry (d e : Dev) : Prop :=
      (d.nvsReady = true → e.journalHead.1 = if d.journalHead.1 + 1 = 2 ^ 32 then 1 else d.journalHead.1 + 1) ∧
      (d.nvsReady = false → e.nvs.waiting.length = d.nvs.waiting.length + 1)
    let event (d e : Dev) (n : Nat) : Prop := e.bit Reg.UPD_STAT (8 + n) = true ∧ Raised d e (184 + n)
    let events := Reg.UPD_STAT :: Reg.SEC_EVT :: ((List.range 4).flatMap (fun n => raiseRegs (184 + n)) ++ raiseRegs 181)
    let changed (d e : Dev) (x : List Nat) : Prop := OnlyReply d e [.flash, .nvs] (events ++ x)
    let role := s.dev.roleBit 1 || s.dev.roleBit 2 || !s.dev.flag F.HSB_CFG_EN
    let kept (d e : Dev) : Prop := e.flash.oldDir = if e.dir = d.dir then d.flash.oldDir else d.dir
    let winLen (k : Component) : Nat := k.winSaved * 1000000000
    let answered (e : Dev) (x : Nat) : Prop := chMailbox h.ch = none →
      (x, Msg.response h.ch (leBytes (h.tag.toNat * 2 ^ 16) 4 ++ leBytes 0 4 ++ leBytes f.cost 4)) ∈ e.outbox
    let restarted (d e : Dev) : Prop := e.rd Reg.SYS_NETFWVER = (e.comp 1).active.version ∧
      (∀ p, p < 4 → e.flag (F.ETH_STAT_ANDONE p) = false ∧ e.flag (F.ETH_STAT_LINK p) = false) ∧ e.fld F.PTP_STAT_SRC = 0 ∧
      others d e 1
    let reverted (x : Component) : Component := { x with
      activeB := !x.activeB, otherValid := decide (x.active ≠ .empty),
      otherConfirmed := decide (x.active ≠ .empty) && decide (x.state ≠ 4), state := 0, parts := [], manifest := [], bitmap := 0,
      winEnd := none, winSaved := 0, revertAt := none, selfConfirm := false }
    let windowed (n x : Nat) : Bool := (s.dev.comp n).state == 4 && (s.dev.comp n).winEnd.all (fun e => decide (x < e));
    (Served s (.manifest h comp index l) f u → named = true →
      let part := { old with state := 1, parts := Sparse.set (fun _ => []) old.parts i l }
      let at_ (k : Component) (n : Nat) : List Byte := Sparse.get (fun _ => []) k.parts n
      let count := min 66 (((wordAt (at_ part 0) 13).toNat + 4095) / 4096)
      let whole := decide (at_ part 0 ≠ []) && (List.range count).all (fun n => decide (at_ part n ≠ []))
      let last := decide (old.state ≤ 1) && whole
      let x := t (if last then 5000000 else 0)
      let bad := decide (66 ≤ i) || decide (l = []) || decide (4096 < l.length)
      let m := (List.range count).flatMap (at_ part)
      Does s (.manifest h comp index l) x (fun d e =>
        let chk := d.checkManifest c m;
        (bad = true → ends d e x 4) ∧ (bad = false → old.state = 4 → ends d e x 5) ∧
        (bad = false → 2 ≤ old.state → old.state ≠ 4 →
          ends d e x (if (old.manifest.drop (4096 * i)).take 4096 = l then 0 else 5)) ∧
        (bad = false → last = true → busy = true → ends d e x 5) ∧
        (bad = false → old.state ≤ 1 → whole = false → Replies d e x f 0 [] ∧ e.comp c = part ∧ others d e c ∧
          OnlyReply d e [.flash] []) ∧
        (bad = false → last = true → busy = false →
          Replies d e x f (if chk = 0 then 0 else if chk = 1 ∧ wordAt m 0 = 0x4E414D4C ∧ wordAt m 1 ≠ 0x0200 then 4 else 8) [] ∧
          e.comp c = (if chk = 0 then { part.setOther (.signed m []) with
              state := 2, chk := 0, parts := [], manifest := m, bitmap := 0, otherValid := false, otherConfirmed := false }
            else { old with state := 0, parts := [], manifest := [], bitmap := 0, chk := chk }) ∧ others d e c ∧ kept d e ∧
          (if chk = 0 then event d e 0 ∧ entry d e
            else if chk = 2 ∨ chk = 3 then e.bit Reg.SEC_EVT 1 = true ∧ Raised d e 181 else event d e 3) ∧
          e.fld F.SEC_AUTHCNT_SIGFAIL = (if chk = 2 then min 65535 (d.fld F.SEC_AUTHCNT_SIGFAIL + 1)
            else d.fld F.SEC_AUTHCNT_SIGFAIL) ∧ changed d e [Reg.SEC_AUTHCNT]))) ∧
    (Served s (.updData h comp index l) f u → named = true → Does s (.updData h comp index l) (t 0) (fun d e =>
      let n := (wordAt old.manifest 11).toNat
      let size := if i + 1 = n then (wordAt old.manifest 12).toNat else 4096
      let good := decide (leBytes (Config.sha256 l).toNat 32 = (old.manifest.drop (0xC0 + 32 * i)).take 32)
      let open_ := old.state == 2 || old.state == 3
      let have_ := old.bitmap.getLsbD i || d.flash.queued.any (fun q => q.1 == c && q.2.1 == i)
      let full := decide (8 ≤ d.flash.queued.length)
      let fits := decide (i < n) && decide (l.length = size);
      (open_ = false → ends d e (t 0) 8) ∧ (open_ = true → fits = false → ends d e (t 0) 4) ∧
      (open_ = true → fits = true →
        Replies d e (t 0) f (if good then if have_ then 0 else if full then 5 else 0 else 8) [] ∧
        e.flash = (if good && !have_ && !full then { d.flash with queued := d.flash.queued ++ [(c, i, l)] } else d.flash) ∧
        (e.rd Reg.UPD_BLKERR).toNat = (if good then (d.rd Reg.UPD_BLKERR).toNat
          else min 0xFFFFFFFF ((d.rd Reg.UPD_BLKERR).toNat + 1)) ∧
        (if good then OnlyReply d e [.flash] [] else event d e 3 ∧ OnlyReply d e [] (Reg.UPD_BLKERR :: events))))) ∧
    (Served s (.updStatus h comp) f u → named = true → Does s (.updStatus h comp) (t 0) (fun d e =>
      let stat := old.state + b2n old.activeB * 2 ^ 4 + b2n old.otherValid * 2 ^ 5 + old.chk * 2 ^ 8 + old.fails * 2 ^ 12
      let staged := if old.otherValid then old.other.version else 0
      Replies d e (t 0) f 0 (wordBytes ([BitVec.ofNat 32 stat, old.active.version, staged] ++
        (List.range (((wordAt old.manifest 11).toNat + 31) / 32)).map (fun w => BitVec.ofNat 32 (old.bitmap.toNat / 2 ^ (32 * w))))) ∧
      OnlyReply d e [] [])) ∧
    (Served s (.updAbort h comp) f u → named = true → Does s (.updAbort h comp) (t 0) (fun d e =>
      ((old.state = 0 ∨ old.state = 4) → ends d e (t 0) 8) ∧
      (old.state ≠ 0 → old.state ≠ 4 → Replies d e (t 0) f 0 [] ∧
        e.comp c = { old.setOther .empty with
          state := 0, parts := [], manifest := [], bitmap := 0, otherValid := false, otherConfirmed := false } ∧
        others d e c ∧ kept d e ∧
        e.flash.queued = d.flash.queued.filter (fun q => q.1 != c) ∧ OnlyReply d e [.flash] []))) ∧
    (Served s (.activate h comp ok) f u → named = true →
      let x := t (if old.state = 3 then 5000000 + (wordAt old.manifest 11).toNat * 4096 * 2000000 / 2 ^ 20 else 0)
      let image (y : Nat) : SlotImage := (s.dev.comp y).active
      let found := s.dev.checkActivate image c old.manifest
      let blocked := ([0, 1, 2, 3] : List Nat).any (fun y => (s.dev.comp y).state == 4) || s.dev.fld F.XCH_STAT_STATE != 0
      let why : Option (Nat × Nat) := if old.state ≠ 3 then some (8, 0) else if !manSigned old.manifest then some (8, 2)
        else if !s.dev.manKeyOk c old.manifest then some (8, 3) else if !ok then some (8, 10) else if blocked then some (5, 0)
        else if s.dev.mode.runs && role then some (3, 0) else if found ≠ 0 then some (8, found) else none
      let new := ({ old with
        activeB := !old.activeB, otherValid := decide (old.active ≠ .empty),
        otherConfirmed := decide (old.active ≠ .empty), state := 4,
        winSaved := max 1 (min 1440 (s.dev.fld F.UPD_CFG_WINMIN)) * 60, winEnd := none, winWarned := false,
        selfConfirm := false } : Component).setFails 0
      Does s (.activate h comp ok) x (fun d e =>
        (busy = true → ends d e x 5) ∧
        (busy = false → if why = none then
          (c ≠ 1 → ResetAs (d.activateSlot x (chClass h.ch) c false) e s.dev.power x 2 4 ∧ e.comp c = new ∧ answered e x) ∧
          (c = 1 → restarted d e ∧ Replies d e x f 0 [] ∧ event d e 1 ∧ entry d e ∧
            e.comp c = { new with winEnd := some (x + winLen new), savedAt := x } ∧ kept d e)
        else
          let y := why.getD (0, 0)
          Replies d e x f y.1 [] ∧ event d e 1 ∧ entry d e ∧
          e.comp c = (if y.2 = 0 then old else { old with chk := y.2 }) ∧ others d e c ∧
          (if y.2 = 0 then True else if y.2 = 2 ∨ y.2 = 3 then e.bit Reg.SEC_EVT 1 = true ∧ Raised d e 181
            else event d e 3) ∧ changed d e []))) ∧
    (Served s (.updConfirm h comp) f u → named = true → Does s (.updConfirm h comp) (t 0) (fun d e =>
      (windowed c (t 0) = false → ends d e (t 0) 8) ∧
      (windowed c (t 0) = true → (c = 0 → d.flash.companions = []) → Replies d e (t 0) f 0 [] ∧ event d e 2 ∧ entry d e ∧
        e.comp c = { old with
          state := 0, parts := [], manifest := [], bitmap := 0, winEnd := none, winSaved := 0, selfConfirm := false } ∧
        others d e c ∧ bitsOf (e.rd Reg.SEC_SECVER).toNat (8 * c + 5) (8 * c) =
          max (bitsOf (d.rd Reg.SEC_SECVER).toNat (8 * c + 5) (8 * c)) old.active.secver ∧
        changed d e [Reg.SEC_SECVER]) ∧
      (windowed c (t 0) = true → c = 0 → e.flash.companions = []))) ∧
    (Served s (.updRevert h comp) f u → named = true → Does s (.updRevert h comp) (t 0) (fun d e =>
      (windowed c (t 0) = false → ends d e (t 0) 8) ∧
      (windowed c (t 0) = true → c ≠ 1 → ResetAs (d.revertSlot (t 0) (chClass h.ch) c 5) e s.dev.power (t 0) 2 4 ∧
        e.comp c = reverted old ∧ answered e (t 0) ∧ (c = 0 → e.flash.companions = [])) ∧
      (windowed c (t 0) = true → c = 1 → restarted d e ∧ Replies d e (t 0) f 0 [] ∧ event d e 2 ∧ entry d e ∧
        e.comp c = reverted old ∧ kept d e))) ∧
    (named = false →
      (Served s (.manifest h comp index l) f u → decide (old.state ≤ 1) && (old.addPart i l).whole = false →
        Does s (.manifest h comp index l) (t 0) (fun d e => ends d e (t 0) 4)) ∧
      (Served s (.updData h comp index l) f u → Does s (.updData h comp index l) (t 0) (fun d e => ends d e (t 0) 4)) ∧
      (Served s (.updStatus h comp) f u → Does s (.updStatus h comp) (t 0) (fun d e => ends d e (t 0) 4)) ∧
      (Served s (.updAbort h comp) f u → Does s (.updAbort h comp) (t 0) (fun d e => ends d e (t 0) 4)) ∧
      (Served s (.activate h comp ok) f u → old.state ≠ 3 →
        Does s (.activate h comp ok) (t 0) (fun d e => ends d e (t 0) 4)) ∧
      (Served s (.updConfirm h comp) f u → Does s (.updConfirm h comp) (t 0) (fun d e => ends d e (t 0) 4)) ∧
      (Served s (.updRevert h comp) f u → Does s (.updRevert h comp) (t 0) (fun d e => ends d e (t 0) 4))) ∧
    (s.dev.awake = true → s.dev.phase ≠ .spore → Does s (.updateBlockWritten dt ok) now (fun d e =>
      (d.flash.queued = [] → Only d e [] []) ∧
      (∀ b r, d.flash.queued = b :: r → e.flash.queued = r ∧ others d e b.1 ∧ TasksBut d e [] ∧
        (ok = false → (e.rd Reg.UPD_FLASHERR).toNat = min 0xFFFFFFFF ((d.rd Reg.UPD_FLASHERR).toNat + 1) ∧
          e.comp b.1 = { d.comp b.1 with chk := 11 } ∧ event d e 3 ∧
          Only d e [.flash, .tasks, .msix] ([Reg.UPD_FLASHERR, Reg.UPD_STAT] ++ raiseRegs 187)) ∧
        (ok = true → (e.comp b.1).bitmap = (d.comp b.1).bitmap ||| BitVec.twoPow 8192 b.2.1 ∧
          (e.comp b.1).other = (d.comp b.1).other.withBlock b.2.1 b.2.2 ∧
          ((d.comp b.1).state = 2 → (e.comp b.1).received = (wordAt (e.comp b.1).manifest 11).toNat →
            (e.comp b.1).state = 3 ∧ (e.comp b.1).otherValid = true ∧ kept d e ∧ event d e 0 ∧ entry d e) ∧
          (((d.comp b.1).state ≠ 2 ∨ (e.comp b.1).received ≠ (wordAt (e.comp b.1).manifest 11).toNat) →
            (e.comp b.1).state = (d.comp b.1).state ∧ Only d e [.flash] []) ∧
          Only d e [.flash, .nvs, .tasks, .msix] (Reg.UPD_STAT :: raiseRegs 184))))) ∧
    (s.dev.awake = true → ∀ y, (s.dev.comp k.toNat).winEnd = some y →
      let n := k.toNat
      let own := s.dev.comp n
      let warns := max s.mono (y - s.dev.fld F.UPD_CFG_WARN * 60000000000)
      let saves := max s.mono (own.savedAt + 10000000000);
      Does s (.updateWindowWarn k) warns (fun d e =>
        (own.winWarned = true → Only d e [] []) ∧
        (own.winWarned = false → e.comp n = { own with winWarned := true } ∧ others d e n ∧ event d e 2 ∧ TasksBut d e [] ∧
          Only d e [.flash, .tasks, .msix] (Reg.UPD_STAT :: raiseRegs 186))) ∧
      Does s (.updateWindowSave k) saves (fun d e =>
        e.comp n = { own with winSaved := (y - saves) / 1000000000, savedAt := saves } ∧ others d e n ∧
        e.freeNo = d.freeNo + 1 ∧ (findRecord d.nvsMem (d.ownRid 0xFF04) ≠ none →
          e.nvs.checks.length = d.nvs.checks.length + 1 ∧ Only d e [.flash, .nvs, .free] [])) ∧
      (own.revertAt = none → role = true → Does s (.updateWindowExpiry k) (max s.mono y) (fun d e =>
        e.comp n = { own with revertAt := some (max s.mono y + 1000000000) } ∧ others d e n ∧ event d e 2 ∧
        Only d e [.flash, .hsb, .net, .nvs, .tasks, .msix, .csr] [])) ∧
      (own.revertAt = none → role = false → n ≠ 1 → Does s (.updateWindowExpiry k) (max s.mono y) (fun d e =>
        ResetAs (d.revertSlot (max s.mono y) 0 n 6) e s.dev.power (max s.mono y) 2 4 ∧ e.comp n = reverted own))) ∧
    (s.dev.awake = true → ∀ y, (s.dev.comp k.toNat).revertAt = some y →
      let n := k.toNat
      let x := if role then max s.mono y else s.mono
      Does s (.updateWindowExpiry k) x (fun d e => e.comp n = reverted (s.dev.comp n) ∧
        (n ≠ 1 → ResetAs (d.revertSlot x 0 n 6) e s.dev.power x 2 4) ∧ (n = 1 → restarted d e ∧ event d e 2 ∧ entry d e))) ∧
    ((s.dev.comp k.toNat).winEnd = none → exec (.updateWindowWarn k) s = .next s ∧
      exec (.updateWindowSave k) s = .next s ∧
      ((s.dev.comp k.toNat).revertAt = none → exec (.updateWindowExpiry k) s = .next s))

/-- R421, R448: spore mode: MANIFEST, DATA, STATUS and COMMIT frames on the service UART and on port A, BAUD and its
fallback, HELLO. A MANIFEST and a DATA frame do what the blocks of FieldUpdate do to the component. -/
def Obligations.SporeMode : Prop :=
  ∀ (s : State) (dt : Nat) (ch : Channel) (comp : BitVec 4) (index rate : Word) (l : List Byte),
    let now := s.mono + dt
    let c := comp.toNat - 1
    let named := decide (1 ≤ comp.toNat) && decide (comp.toNat ≤ 4)
    let live := decide (s.dev.phase = .spore) && sporeChannel ch
    let old := s.dev.repeated ch
    let ack (d : Dev) (x c : Nat) : List Byte := leBytes (x + (d.comp c).chk * 2 ^ 8) 4 ++
      leBytes ((List.range (wordAt (d.comp c).manifest 11).toNat).filter (fun i => (d.comp c).bitmap.getLsbD i)).length 4 ++
      leBytes (wordAt (d.comp c).manifest 11).toNat 4
    let sent (e : Dev) (b : List Byte) : Prop := (now, Msg.sporeAck ch b) ∈ e.outbox
    let answered (e : Dev) (b : List Byte) : Prop := sent e b ∧ e.repeated ch = some b
    let heard (d e : Dev) : Prop := e.flash.baudBack = (if onUart ch then none else d.flash.baudBack)
    let others (d e : Dev) : Prop := ∀ y, y ≠ c → e.comp y = d.comp y
    let entry (d e : Dev) : Prop :=
      (d.nvsReady = true → e.journalHead.1 = if d.journalHead.1 + 1 = 2 ^ 32 then 1 else d.journalHead.1 + 1) ∧
      (d.nvsReady = false → e.nvs.waiting.length = d.nvs.waiting.length + 1)
    let updRegs := Reg.UPD_STAT :: Reg.SEC_EVT :: Reg.SEC_AUTHCNT :: Reg.UPD_BLKERR ::
      (raiseRegs 181 ++ raiseRegs 184 ++ raiseRegs 187)
    let aside (d e : Dev) : Prop := (live = false → Only d e [] []) ∧
      (live = true → ∀ b, old = some b → sent e b ∧ heard d e ∧ Only d e [.flash] []) ∧
      (live = true → heard d e)
    let turned (d e : Dev) : Prop := live = true → old = none → named = false → answered e (ack d 4 4) ∧
      (∀ y, e.comp y = d.comp y) ∧ Only d e [.flash, .host] []
    s.dev.awake = true →
    Does s (.sporeManifest dt ch comp index l) now (fun d e => aside d e ∧ turned d e ∧
      (live = true → old = none → named = true →
        let x := d.manifestPart now (chClass ch) c index.toNat l
        answered e (ack e x.2 c) ∧ e.comp c = x.1.comp c ∧ others d e ∧
        ((d.comp c).state ≤ 1 → (e.comp c).state = 2 → entry d e) ∧ TasksBut d e [] ∧
        Only d e [.flash, .host, .nvs, .tasks, .msix] updRegs)) ∧
    Does s (.sporeData dt ch comp index l) now (fun d e => aside d e ∧ turned d e ∧
      (live = true → old = none → named = true →
        let x := d.dataBlock now c index.toNat l
        answered e (ack e x.2 c) ∧ e.flash.queued = x.1.flash.queued ∧ e.comp c = d.comp c ∧ others d e ∧
        TasksBut d e [] ∧ Only d e [.flash, .host, .tasks, .msix] updRegs)) ∧
    Does s (.sporeStatus dt ch comp) now (fun d e => aside d e ∧ turned d e ∧
      (live = true → old = none → named = true → answered e (ack d 0 c) ∧ (∀ y, e.comp y = d.comp y) ∧
        Only d e [.flash, .host] [])) ∧
    Does s (.sporeCommit dt ch comp) now (fun d e =>
      let listed := if d.flash.listed.contains c then d.flash.listed else d.flash.listed ++ [c]
      let whole := listed.all (fun y => (d.comp y).state == 3)
      let image (y : Nat) : SlotImage := if listed.contains y then (d.comp y).other else (d.comp y).active
      let fails := listed.filter (fun y => d.checkActivate image y (d.comp y).manifest != 0);
      (live = false → Only d e [] []) ∧
      (live = true → ∀ b, old = some b → sent e b ∧ heard d e ∧ Only d e [.flash] []) ∧ turned d e ∧
      (live = true → old = none → named = true → whole = false → answered e (ack d 0 c) ∧ heard d e ∧
        e.flash.listed = listed ∧ (∀ y, e.comp y = d.comp y) ∧ Only d e [.flash, .host] []) ∧
      (live = true → old = none → named = true → whole = true →
        (∀ y r, fails = y :: r → answered e (ack e 8 c) ∧ e.flash.listed = [] ∧
          e.comp y = { d.comp y with chk := d.checkActivate image y (d.comp y).manifest } ∧
          (∀ z, z ≠ y → e.comp z = d.comp z) ∧ e.bit Reg.UPD_STAT 11 = true ∧ Raised d e 187 ∧ TasksBut d e [] ∧
          Only d e [.flash, .host, .tasks, .msix] updRegs) ∧
        (fails = [] → sent e (ack d 0 c) ∧ e.phase = .reset ∧ e.rd Reg.SUP_RSTCAUSE = BitVec.ofNat 32 (2 + 4 * 2 ^ 8) ∧
          Counted d e 2 ∧ (∀ y, listed.contains y = false → (e.comp y).activeB = (d.comp y).activeB) ∧
          (listed.eraseDups = listed → ∀ y, listed.contains y = true → (e.comp y).activeB = !(d.comp y).activeB ∧
            (e.comp y).state = 4 ∧ (e.comp y).selfConfirm = !d.imageOk y (d.comp y).active ∧
            (e.comp y).winSaved = max 1 (min 1440 (d.fld F.UPD_CFG_WINMIN)) * 60)))) ∧
    Does s (.sporeBaud dt ch rate) now (fun d e =>
      let good := ([115200, 921600, 3000000, 6000000, 12000000] : List Nat).contains rate.toNat;
      (live = false → Only d e [] []) ∧
      (live = true → ∀ b, old = some b → sent e b ∧ heard d e ∧ e.flash.baud = d.flash.baud ∧ Only d e [.flash] []) ∧
      (live = true → old = none → answered e (ack d (if good then 0 else 4) 4) ∧
        e.flash = { d.flash with
          baud := if good then rate.toNat else d.flash.baud,
          baudBack := if good then if rate.toNat = 115200 then none else some (now + 2000000000)
            else if onUart ch then none else d.flash.baudBack } ∧
        Only d e [.flash, .host] [])) ∧
    (∀ x, s.dev.flash.baudBack = some x → Does s .baudFallback (max s.mono x) (fun d e =>
      e.flash = { d.flash with baud := 115200, baudBack := none } ∧ Only d e [.flash] [])) ∧
    (s.dev.flash.baudBack = none → exec .baudFallback s = .next s) ∧
    (∀ x, s.dev.flash.helloAt = some x → Does s .sporeHello (max s.mono x) (fun d e =>
      (d.phase = .spore → (max s.mono x, Msg.sporeHello
          (wordBytes [d.rd Reg.SYS_UID0, d.rd Reg.SYS_UID1, d.rd Reg.SYS_UID2, d.rd Reg.SYS_UID3]) (d.rd Reg.SYS_IDCODE)
          (d.rd Reg.SYS_ROMVER) ((List.range 4).map (fun y =>
            ((d.comp y).activeB, (d.comp y).otherValid, (d.comp y).otherConfirmed)))) ∈ e.outbox ∧
        e.flash = { d.flash with helloAt := some (max s.mono x + 1000000000) } ∧ Only d e [.flash] []) ∧
      (d.phase ≠ .spore → Only d e [] []))) ∧
    (s.dev.flash.helloAt = none → exec .sporeHello s = .next s)

/-- R5 to R8, R19 to R21, R30, R64, R108, R133, R239, R258, R269, R271, R272, R293, R317, R318, R365, R386, R414: CSR_WRITE,
FIRST_WORD_READ, READ_CLEAR, HOST_PARTIAL_ACCESS and HOST_UNMAPPED_ACCESS. An access of a scan core to an offset that it may
not reach is a core fault of the run in that bank. -/
def Obligations.RegisterAccess : Prop :=
  ∀ (s : State) (r : Requester) (off : BitVec 24) (v : Word) (write : Bool) (ch : BitVec 2),
    let t := s.mono
    let o := off.toNat
    let port := match r with | .core _ _ => false | _ => true
    let record (d : Dev) (half missing : Bool) : Word :=
      if d.bit Reg.SYS_BADADDR 31 then d.rd Reg.SYS_BADADDR
      else (1#1 ++ 0#1 ++ BitVec.ofBool missing ++ BitVec.ofBool half ++ 0#1 ++
        (match r with | .host => 0#3 | .uart => 1#3 | _ => 2#3) ++ off : BitVec 32)
    let stores (d e : Dev) : Prop := ∀ row, rowOf o = some row → ∀ b, (e.rd o).getLsbD b = row.bitWritten (d.rd o) v b
    let stored (d e : Dev) : Prop := stores d e ∧ Only d e [] [o]
    let refused (d e : Dev) : Prop := e.bit Reg.TSK_GSTAT 0 = true ∧
      (∀ b, b ≠ 0 → e.bit Reg.TSK_GSTAT b = d.bit Reg.TSK_GSTAT b) ∧ Only d e [] [Reg.TSK_GSTAT]
    let mapped := decide (o % 4 = 0) && (csrTicks o).isSome && (port || decide (csrTicks o ≠ some 0))
    let reads := mapped && s.dev.mayRead r
    let read (P : Dev → Dev → Prop) : Prop := Does s (.firstWordRead r off) t P ∧ Does s (.readClear r off) t P ∧
      (s.dev.bit Reg.SYS_BADADDR 31 = true → Does s (.hostPartialAccess r false off) t P)
    s.dev.awake = true →
    (o % 4 ≠ 0 → Does s (.csrWrite r off v) t (fun d e => Only d e [] [])) ∧
    (o % 4 = 0 → csrTicks o = none → r = .uart → s.dev.accessOpen = false →
      Does s (.csrWrite r off v) t (fun d e => Only d e [] [])) ∧
    (∀ c b, r = .core c b → o % 4 = 0 → (csrTicks o = none ∨ csrTicks o = some 0) →
      let denies (d e : Dev) : Prop :=
        ((∀ x, d.execRun c = some x → x.bank ≠ b) → Only d e [] []) ∧
        (∀ x, d.execRun c = some x → x.bank = b → Plain s c x → (e.core c).runs = (d.core c).runs.drop 1 ∧ e.mem = d.mem ∧
          e.fld (F.TSK_CFLT0_CODE c) = (if csrTicks o = none then 5 else 6) ∧ e.fld (F.TSK_CFLT0_TASK c) = x.task ∧
          e.fld (F.TSK_CFLT0_VALID c) = 1 ∧ e.rd (Reg.TSK_CFLT1 c) = (d.bank c b).pc ∧
          e.rd (Reg.TSK_CFLT2 c) = BitVec.ofNat 32 (0x40000000 + o) ∧ e.fld (F.TSK_STATE_ST x.task) = 5 ∧
          e.fld (F.TSK_STATE_HALTED x.task) = 1 ∧ e.pendingSrc (64 + c) = true)
      Does s (.csrWrite r off v) t denies ∧ Does s (.firstWordRead r off) t denies ∧ Does s (.readClear r off) t denies) ∧
    (o % 4 = 0 → csrTicks o = none → port = true → (r = .uart → s.dev.accessOpen = true) →
      Does s (.csrWrite r off v) t (fun d e => e.rd Reg.SYS_BADADDR = record d false true ∧ Only d e [] [Reg.SYS_BADADDR]) ∧
      Does s (.firstWordRead r off) t (fun d e => e.rd Reg.SYS_BADADDR = record d false true ∧ e.readData = 0 ∧
        Only d e [.readData] [Reg.SYS_BADADDR])) ∧
    (csrTicks o = none → Does s (.hostUnmappedAccess r write off) t (fun d e =>
      e.rd Reg.SYS_BADADDR = record d false true ∧ e.readData = (if write then d.readData else 0) ∧
      Only d e [.readData] [Reg.SYS_BADADDR]) ∧
      Does s (.hostPartialAccess r write off) t (fun d e => e.rd Reg.SYS_BADADDR = record d true true ∧
        e.readData = (if write then d.readData else 0) ∧ Only d e [.readData] [Reg.SYS_BADADDR])) ∧
    (csrTicks o ≠ none → Does s (.hostUnmappedAccess r write off) t (fun d e => Only d e [] [])) ∧
    Does s (.hostPartialAccess r true off) t (fun d e =>
      e.rd Reg.SYS_BADADDR = record d true (csrTicks o).isNone ∧ Only d e [] [Reg.SYS_BADADDR]) ∧
    (mapped = true → s.dev.mayWrite r o = false → Does s (.csrWrite r off v) t (fun d e => Only d e [] [])) ∧
    (Writes s r o → port = true →
      (o ∈ plainRegs → Does s (.csrWrite r off v) t stored) ∧
      (o ∈ programRegs → Does s (.csrWrite r off v) t (fun d e =>
        (d.progOk r = true → stored d e) ∧ (d.progOk r = false → refused d e))) ∧
      (o ∈ channelRegs ch.toNat → Does s (.csrWrite r off v) t (fun d e =>
        let ok := d.progOk r && decide (d.fld (F.CAN_CTL_MODE ch.toNat) = 3);
        (ok = true → stored d e) ∧ (ok = false → refused d e))) ∧
      (o ∈ silentRegs → Does s (.csrWrite r off v) t (fun d e =>
        (d.progOk r = true → stored d e) ∧ (d.progOk r = false → Only d e [] []))) ∧
      (o ∈ binaryRegs → Does s (.csrWrite r off v) t (fun d e =>
        (d.progOk r = true → stored d e) ∧
        (d.progOk r = false → e.bit Reg.BIO_STAT 11 = true ∧ Raised d e 139 ∧ TasksBut d e [] ∧
          Only d e [.tasks, .msix] (Reg.BIO_STAT :: raiseRegs 139)))) ∧
      (o ∈ analogRegs → Does s (.csrWrite r off v) t (fun d e =>
        (d.stopOk r = true → stored d e) ∧
        (d.stopOk r = false → e.bit Reg.ADC_STAT 11 = true ∧ Raised d e 143 ∧ TasksBut d e [] ∧
          Only d e [.tasks, .msix] (Reg.ADC_STAT :: raiseRegs 143)))) ∧
      (o = Reg.NVS_PFADDR → Does s (.csrWrite r off v) t (fun d e => stores d e ∧ Only d e [.nvs] [o] ∧
        e.nvs = (if v.getLsbD 31 then { d.nvs with interrupted := none } else d.nvs))) ∧
      (o = Reg.PTP_PPSOUT → Does s (.csrWrite r off v) t (fun d e => stores d e ∧ Only d e [.time] [o] ∧
        (d.time.ppsUntil = none → e.time = d.time) ∧ (∀ x, d.time.ppsUntil = some x →
          let mutes := e.flag F.PTP_PPSOUT_SUPQ && decide (e.fld F.PTP_PPSOUT_QLIM < d.tq t)
          e.time = (if x ≤ t ∨ mutes = true then { d.time with ppsUntil := none } else d.time) ∧
          (t < x → mutes = true → (t, Msg.ppsLow) ∈ e.outbox)))) ∧
      (o ∈ Reg.ETH_GUARD ch.toNat :: (List.range 8).map (Reg.ETH_LQCFG ch.toNat) → Does s (.csrWrite r off v) t (fun d e =>
        (d.progOk r = true → stores d e ∧ Only d e [.net] [o, Reg.ETH_TXFRAMES ch.toNat] ∧
          (e.inGuard t ch.toNat = true → e.net = d.net) ∧ (e.inGuard t ch.toNat = false → e.heldFrames ch.toNat = [] ∧
            (d.flag (F.ETH_CFG_EN ch.toNat) = true → ∀ m, m ∈ d.heldFrames ch.toNat →
              (t, Msg.port ch.toNat m) ∈ e.outbox))) ∧
        (d.progOk r = false → refused d e)))) ∧
    (reads = true →
      (o ∈ clearedRegs → read (fun d e => e.readData = d.rd o ∧
        (∀ row, rowOf o = some row → ∀ b, (e.rd o).getLsbD b = row.bitRead (d.rd o) b) ∧ Only d e [.readData] [o])) ∧
      (o ∈ programRegs ++ silentRegs ++ binaryRegs ++ analogRegs → read (fun d e => e.readData = d.rd o ∧
        Only d e [.readData] [])) ∧
      (laterWord o = true → read (fun d e => e.readData = d.latched r o ∧ Only d e [.readData] [])) ∧
      read (fun d e => ∀ x, firstWord d t o = some x → e.readData = x.1 ∧
        (∀ k, k < x.2.2.length → e.latched r (x.2.1 + 4 * k) = x.2.2.getD k 0) ∧
        (∀ q, reqId q ≠ reqId r → ∀ k, k < x.2.2.length → e.latched q (x.2.1 + 4 * k) = d.latched q (x.2.1 + 4 * k)) ∧
        Only d e [.latch, .readData] [])) ∧
    ((s.dev.mayRead r = false ∨ o % 4 ≠ 0) → Does s (.firstWordRead r off) t (fun d e => Only d e [] []) ∧
      Does s (.readClear r off) t (fun d e => Only d e [] []))

/-- R5, R8, R21: the commands that Safety.writeForm and Safety.readForm list are the write and the read of one register, for
every requester. -/
def Obligations.RegisterCommands : Prop :=
  ∀ (s : State) (i : Instr) (r : Requester) (off : Nat) (v : Word),
    (writeForm i = some (r, off, v) → exec i s = exec (.csrWrite r (BitVec.ofNat 24 off) v) s) ∧
    (readForm i = some (r, off) → exec i s = exec (.firstWordRead r (BitVec.ofNat 24 off)) s)

/-- R8, R20, R373, R416, R418 to R421, R428, R430, R459, R467: CSRREAD and CSRWRITE frames of the service UART and the station
LAN, the accesses of JTAG, and a message whose segments stay incomplete, of which no command comes (assumption 18). A scan
of the test access port: IDCODE and BYPASS always, SAMPLE and EXTEST while access is open (assumption 103). -/
def Obligations.RegisterFrames : Prop :=
  ∀ (s : State) (dt : Nat) (ch : Channel) (off : BitVec 24) (count : BitVec 8) (v : Word),
    let now := s.mono + dt
    let o := off.toNat
    let n := count.toNat
    let r := chRequester ch
    let offs := (List.range n).map (fun k => o + 4 * k)
    let live := s.dev.serves && (chMailbox ch).isNone && ch != .damaged
    let old := s.dev.repeated ch
    let may := s.dev.mayRead r
    let inside := decide (1 ≤ n) && decide (n ≤ 64) && decide (o % 4 = 0)
    let record (d : Dev) : Word := if d.bit Reg.SYS_BADADDR 31 then d.rd Reg.SYS_BADADDR
      else (5#3 ++ 0#2 ++ (match r with | .host => 0#3 | .uart => 1#3 | _ => 2#3) ++ off : BitVec 32)
    let answered (d e : Dev) (b : List Byte) : Prop := (now, Msg.response ch b) ∈ e.outbox ∧
      ((chSeq ch).isSome = true → e.repeated ch = some b) ∧ (chSeq ch = none → e.host = d.host) ∧
      (e.host.replies.filter (fun x => x.who != chWho ch)) = d.host.replies.filter (fun x => x.who != chWho ch)
    let aside (d e : Dev) : Prop := (live = false → Only d e [] []) ∧
      (live = true → ∀ b, old = some b → (now, Msg.response ch b) ∈ e.outbox ∧ Only d e [] [])
    let entry (d e : Dev) : Prop :=
      (d.nvsReady = true → e.journalHead.1 = if d.journalHead.1 + 1 = 2 ^ 32 then 1 else d.journalHead.1 + 1) ∧
      (d.nvsReady = false → e.nvs.waiting.length = d.nvs.waiting.length + 1)
    let scanned (x : TapScan) (d e : Dev) : Prop :=
      let open_ := !d.flag F.SEC_STAT_FIELDLOCK || d.sec.winEnd.isSome
      let free (i : TapInstr) : Bool := i == .idcode || i == .bypass
      let levels := patternWords d.io.biPin.toNat 3 ++ patternWords d.io.brbPin.toNat 1 ++
        patternWords (if d.tap.ir = .extest then d.tap.cells else d.boState).toNat 2
      let shifted (l : List Word) (k : Tap) : Prop := (now, Msg.tapData l) ∈ e.outbox ∧ e.tap = k
      ((d.phase = .off ∨ d.phase = .sleep) → Only d e [] []) ∧
      (d.phase ≠ .off → d.phase ≠ .sleep → Only d e [.tap] [] ∧
        (x = .reset → e.tap = { d.tap with ir := .idcode }) ∧
        (∀ i, x = .ir i → e.tap = { d.tap with ir := if open_ || free i then i else .bypass }) ∧
        (∀ bo, x = .dr bo → (d.tap.ir = .idcode → shifted [0x9060B04D] d.tap) ∧ (d.tap.ir = .bypass → shifted [0] d.tap) ∧
          ((d.tap.ir = .sample ∨ d.tap.ir = .extest) → shifted levels { d.tap with cells := bo })) ∧
        (e.tap.ir = .extest → (now, Msg.pads e.tap.cells) ∈ e.outbox) ∧
        (d.tap.ir = .extest → e.tap.ir ≠ .extest → (now, Msg.pads d.boState) ∈ e.outbox))
    (∀ x, ch = .jtag (some x) → Happens s (.csrreadFrame dt ch off count) now (scanned x) ∧
      Happens s (.csrwriteFrame dt ch off v) now (scanned x)) ∧
    (s.dev.awake = true → Does s (.frameReassemblyTimeout dt) now (fun d e => Only d e [] [])) ∧
    (s.dev.awake = true → (∀ x, ch ≠ .jtag (some x)) →
    Does s (.csrreadFrame dt ch off count) now (fun d e => aside d e ∧
      (live = true → old = none →
        (may = false → answered d e (leBytes 2 4) ∧ Only d e [.host] []) ∧
        (may = true → inside = false → answered d e (leBytes 4 4) ∧ Only d e [.host] []) ∧
        (may = true → inside = true →
          (offs.all (fun x => decide (x ∈ programRegs ++ silentRegs ++ binaryRegs ++ analogRegs)) = true →
            answered d e (wordBytes (offs.map d.rd)) ∧ Only d e [.host] []) ∧
          (n = 1 → o ∈ clearedRegs → answered d e (wordBytes [d.rd o]) ∧
            (∀ row, rowOf o = some row → ∀ b, (e.rd o).getLsbD b = row.bitRead (d.rd o) b) ∧ Only d e [.host] [o]) ∧
          (n = 1 → laterWord o = true → answered d e (wordBytes [d.latched r o]) ∧ Only d e [.host] []) ∧
          (n = 1 → csrTicks o = none → answered d e (wordBytes [0]) ∧ e.rd Reg.SYS_BADADDR = record d ∧
            Only d e [.host] [Reg.SYS_BADADDR]) ∧
          (∀ x, firstWord d now o = some x → x.2.1 = o + 4 → n ≤ x.2.2.length + 1 →
            answered d e (wordBytes ((x.1 :: x.2.2).take n)) ∧ Only d e [.host, .latch] [])))) ∧
    Does s (.csrwriteFrame dt ch off v) now (fun d e => aside d e ∧
      (live = true → old = none →
        (r = .uart → d.accessOpen = false → answered d e (leBytes 2 4) ∧ Only d e [.host] []) ∧
        ((r = .uart → d.accessOpen = true) →
          (o % 4 ≠ 0 → answered d e (leBytes 4 4) ∧ Only d e [.host] []) ∧
          (o % 4 = 0 → csrTicks o = none → answered d e (leBytes 4 4) ∧ e.rd Reg.SYS_BADADDR = record d ∧
            Only d e [.host] [Reg.SYS_BADADDR]) ∧
          (o % 4 = 0 → csrTicks o ≠ none → d.mayWrite r o = false → answered d e (leBytes 2 4) ∧ Only d e [.host] []) ∧
          (d.mayWrite r o = true → o ∈ plainRegs ∨ o ∈ programRegs ∧ d.progOk r = true → answered d e (leBytes 0 4) ∧
            (∀ row, rowOf o = some row → ∀ b, (e.rd o).getLsbD b = row.bitWritten (d.rd o) v b) ∧
            (e.rd o ≠ d.rd o → entry d e) ∧ (e.rd o = d.rd o → e.nvs = d.nvs) ∧ Only d e [.host, .nvs] [o])))))

/-- R32, R33: the path window. PATH_RESOLVE captures SYS_PATH0 to SYS_PATH3 and sets BUSY, unless BUSY is set.
PATH_RESOLUTION_DONE and PATH_UNIT_TIMEOUT end the resolution in progress with the ERR code, the depth and the UCB of the
unit at which the path ends: NONE, or PARLEY for a group unit in version parley; NOCHILD; UNREACH; and for a path that leaves
this device what the rest of the system has answered, or TIMEOUT. Which unit a path leads to is Dev.resolve (R31). -/
def Obligations.PathResolution : Prop :=
  ∀ (s : State) (r : Requester) (dt : Nat) (remote : PathAnswer),
    let t := s.mono
    let now := s.mono + dt
    let busy := s.dev.bit Reg.SYS_PATHCTL 1
    let window : List Nat := (List.range 16).map Reg.SYS_UCBWIN
    let shown (e : Dev) (err depth : Nat) (ucb : List Word) : Prop := e.bit Reg.SYS_PATHCTL 1 = false ∧
      e.fld F.SYS_PATHCTL_ERR = err ∧ e.fld F.SYS_PATHCTL_DEPTH = depth % 256 ∧
      ∀ k, k < 16 → e.rd (Reg.SYS_UCBWIN k) = ucb.getD k 0
    let ends (d e : Dev) (err depth : Nat) (ucb : List Word) : Prop := shown e err depth ucb ∧
      e.path = { d.path with asked := none } ∧ Only d e [.path] (Reg.SYS_PATHCTL :: window)
    let unit (d e : Dev) (x err u : Nat) : Prop := ends d e err (d.unitDepth u) (d.ucb x u)
    let away (d e : Dev) (x err u : Nat) : Prop := (remote.ucb = [] → unit d e x err u) ∧
      (remote.ucb ≠ [] → ends d e err remote.depth.toNat remote.ucb)
    let answer (d e : Dev) (x err : Nat) : Prop := (busy = false → Only d e [] []) ∧
      (busy = true → (∀ u, d.resolve d.path.path = .found u →
          unit d e x (if 41 ≤ u ∧ (d.unitView u).state = 5 then 4 else 0) u) ∧
        (∀ u, d.resolve d.path.path = .unreach u → unit d e x 2 u) ∧
        (∀ u, d.resolve d.path.path = .noChild u → unit d e x 1 u) ∧
        (∀ u, d.resolve d.path.path = .leaves u → away d e x err u))
    s.dev.awake = true →
    (Writes s r Reg.SYS_PATHCTL → Does s (.pathResolve r) t (fun d e =>
      let p := pathBytes (d.rd Reg.SYS_PATH0) (d.rd Reg.SYS_PATH1) (d.rd Reg.SYS_PATH2) (d.rd Reg.SYS_PATH3);
      (busy = true → Only d e [] []) ∧
      (busy = false → e.bit Reg.SYS_PATHCTL 1 = true ∧
        (∀ b, b ≠ 1 → e.bit Reg.SYS_PATHCTL b = d.bit Reg.SYS_PATHCTL b) ∧ e.path = { path := p, asked := some t } ∧
        (∀ u, d.resolve p = .leaves u → (t, Msg.pathAsk p) ∈ e.outbox) ∧ Only d e [.path] [Reg.SYS_PATHCTL]))) ∧
    Does s (.pathResolutionDone dt remote) now (fun d e => answer d e now remote.err.toNat) ∧
    (s.dev.path.asked = none → Does s (.pathUnitTimeout dt remote) now (fun d e => Only d e [] [])) ∧
    (∀ t0, s.dev.path.asked = some t0 → Does s (.pathUnitTimeout dt remote) (max now (t0 + 1000000))
      (fun d e => answer d e (max now (t0 + 1000000)) 3))

/-! ## The machine -/

/-- The block takes the command at the front of its queue and carries it out with the rest; with no command it idles
(assumption 6). -/
def Obligations.StepRunsTheCommand : Prop :=
  ∀ (s : State) (c : Instr) (rest : List Instr),
    (s.pending = c :: rest → step s = exec c { s with pending := rest }) ∧ (s.pending = [] → step s = .next s)

/-- R13: every command completes in every state, leaves the commands that wait, and does not take MONO back but at the release of
device reset and at a warm resume. -/
def Obligations.EveryCommandCompletes : Prop :=
  ∀ (s : State) (i : Instr), ∃ t, exec i s = .next t ∧ t.pending = s.pending ∧
    ((∀ lock straps, i ≠ .deviceResetRelease lock straps) → (∀ dt us est, i ≠ .warmResume dt us est) → s.mono ≤ t.mono)

/-- R334: every step keeps INT_FIRST.VALID clear while device HEALTH is OK, whatever changed the HEALTH. -/
def Obligations.FirstSourceFollowsHealth : Prop := ∀ (s t : State), s.firstOk → step s = .next t → t.firstOk

/-- R5, R8, R13, R334: the machine after reset: MONO 0, nothing waiting, every memory in its canonical form, no latch, and every
register that a table assigns at its reset entry, but for those that the rules named there set before the release (State.reset).
A reset entry that the spec prints as a word is the model's choice (assumption 3). -/
def Obligations.ResetState : Prop :=
  State.reset.mono = 0 ∧ State.reset.pending = [] ∧ State.reset.memWf = true ∧ State.reset.firstOk ∧
  State.reset.dev.phase = .rom ∧ State.reset.dev.fld F.SYS_IDCODE_PART = 0x9060 ∧
  State.reset.dev.rd (Reg.SYS_IFVER 0) = 0x02000302 ∧ State.reset.dev.queue 0 = [bootMarker] ∧
  (∀ r off, State.reset.dev.latched r off = 0) ∧ (∀ c, State.reset.dev.core c = {}) ∧ (∀ n, State.reset.dev.task n = {}) ∧
  ∀ off row, rowOf off = some row → off < 0x80 ∨ 0x98 ≤ off → off < 0x5100 ∨ 0x5500 ≤ off → off ≠ Reg.QUE_CFG 0 →
    (∀ x ∈ bootRegs, x.1 ≠ off) → State.reset.dev.rd off = row.resetWord

end Obligations
end

