-- ==== Sys2Proof/Laws/Sparse.lean ====
section
/-!
SUPPORT. Sparse tables and byte memories: a read after a write, and that every write keeps the canonical form.
-/
namespace Sys2Proof.Machine

variable {β : Type}

theorem Sparse.get_del_ne (dflt : Nat → β) (m : Sparse β) {k j : Nat} (h : j ≠ k) :
    Sparse.get dflt (Sparse.del k m) j = Sparse.get dflt m j := by
  induction m with
  | nil => rfl
  | cons p rest ih =>
    obtain ⟨i, v⟩ := p
    simp only [Sparse.del]
    split
    · subst_vars; simp [Sparse.get, Ne.symm h, ih]
    · simp only [Sparse.get]; split <;> simp_all

theorem Sparse.get_ins_same (dflt : Nat → β) (m : Sparse β) (k : Nat) (v : β) :
    Sparse.get dflt (Sparse.ins k v m) k = v := by
  induction m with
  | nil => simp [Sparse.ins, Sparse.get]
  | cons p rest ih =>
    obtain ⟨i, w⟩ := p
    simp only [Sparse.ins]
    split
    · simp [Sparse.get]
    · split
      · simp [Sparse.get]
      · rename_i h1 h2; simp [Sparse.get, Ne.symm h2, ih]

theorem Sparse.get_ins_ne (dflt : Nat → β) (m : Sparse β) {k j : Nat} (v : β) (h : j ≠ k) :
    Sparse.get dflt (Sparse.ins k v m) j = Sparse.get dflt m j := by
  induction m with
  | nil => simp [Sparse.ins, Sparse.get, Ne.symm h]
  | cons p rest ih =>
    obtain ⟨i, w⟩ := p
    simp only [Sparse.ins]
    split
    · simp [Sparse.get, Ne.symm h]
    · split
      · subst_vars; simp [Sparse.get, Ne.symm h]
      · simp only [Sparse.get]; split <;> simp_all

theorem Sparse.risingFrom_mono {m : Sparse β} {lo lo' : Nat} (h : Sparse.risingFrom (some lo) m = true) (hl : lo' ≤ lo) :
    Sparse.risingFrom (some lo') m = true := by
  cases m with
  | nil => rfl
  | cons p rest =>
    simp only [Sparse.risingFrom, Bool.and_eq_true, Nat.blt_eq] at h ⊢
    exact ⟨by omega, h.2⟩

theorem Sparse.get_del_same (dflt : Nat → β) (m : Sparse β) (k : Nat) :
    Sparse.get dflt (Sparse.del k m) k = dflt k := by
  induction m with
  | nil => rfl
  | cons p rest ih =>
    obtain ⟨i, v⟩ := p
    simp only [Sparse.del]
    split
    · exact ih
    · rename_i hne; simp [Sparse.get, hne, ih]

/-- The keys rise. -/
abbrev Sparse.Rising (m : Sparse β) : Prop := Sparse.risingFrom none m = true

theorem Sparse.get_set_same [DecidableEq β] (dflt : Nat → β) (m : Sparse β) (k : Nat) (v : β) :
    Sparse.get dflt (Sparse.set dflt m k v) k = v := by
  unfold Sparse.set
  split
  · subst_vars; exact Sparse.get_del_same dflt m k
  · exact Sparse.get_ins_same dflt m k v

theorem Sparse.get_set_ne [DecidableEq β] (dflt : Nat → β) (m : Sparse β) {k j : Nat} (v : β) (h : j ≠ k) :
    Sparse.get dflt (Sparse.set dflt m k v) j = Sparse.get dflt m j := by
  unfold Sparse.set
  split
  · exact Sparse.get_del_ne dflt m h
  · exact Sparse.get_ins_ne dflt m v h

theorem Sparse.risingFrom_del {m : Sparse β} {lo : Option Nat} (h : Sparse.risingFrom lo m = true) (k : Nat) :
    Sparse.risingFrom lo (Sparse.del k m) = true := by
  induction m generalizing lo with
  | nil => rfl
  | cons p rest ih =>
    obtain ⟨i, w⟩ := p
    simp only [Sparse.risingFrom, Bool.and_eq_true] at h
    simp only [Sparse.del]
    split
    · refine ih ?_
      cases lo with
      | none =>
        cases rest with
        | nil => rfl
        | cons q r => simp only [Sparse.risingFrom, Bool.and_eq_true] at h ⊢; exact ⟨trivial, h.2.2⟩
      | some l => simp only [Nat.blt_eq] at h; exact Sparse.risingFrom_mono h.2 (by omega)
    · simp only [Sparse.risingFrom, Bool.and_eq_true]; exact ⟨h.1, ih h.2⟩

theorem Sparse.risingFrom_ins {m : Sparse β} {lo : Option Nat} (h : Sparse.risingFrom lo m = true) (k : Nat) (v : β)
    (hk : ∀ l, lo = some l → l < k) : Sparse.risingFrom lo (Sparse.ins k v m) = true := by
  induction m generalizing lo with
  | nil =>
    cases lo with
    | none => rfl
    | some l => simp [Sparse.ins, Sparse.risingFrom, hk l rfl]
  | cons p rest ih =>
    obtain ⟨i, w⟩ := p
    simp only [Sparse.risingFrom, Bool.and_eq_true] at h
    simp only [Sparse.ins]
    split
    · rename_i hlt
      simp only [Sparse.risingFrom, Bool.and_eq_true, Nat.blt_eq]
      refine ⟨?_, hlt, h.2⟩
      cases lo with
      | none => rfl
      | some l => simpa using hk l rfl
    · split
      · subst_vars; simp only [Sparse.risingFrom, Bool.and_eq_true]; exact h
      · rename_i h1 h2
        simp only [Sparse.risingFrom, Bool.and_eq_true]
        exact ⟨h.1, ih h.2 (by intro l hl; cases hl; omega)⟩

theorem Sparse.rising_set [DecidableEq β] (dflt : Nat → β) {m : Sparse β} (h : Sparse.Rising m) (k : Nat) (v : β) :
    Sparse.Rising (Sparse.set dflt m k v) := by
  unfold Sparse.set
  split
  · exact Sparse.risingFrom_del h k
  · exact Sparse.risingFrom_ins h k v (by intro l hl; cases hl)

theorem Sparse.all_del (p : Nat × β → Bool) {m : Sparse β} (h : m.all p = true) (k : Nat) :
    (Sparse.del k m).all p = true := by
  induction m with
  | nil => rfl
  | cons q rest ih =>
    simp only [List.all_cons, Bool.and_eq_true] at h
    simp only [Sparse.del]
    split
    · exact ih h.2
    · simp [h.1, ih h.2]

theorem Sparse.all_ins (p : Nat × β → Bool) {m : Sparse β} (h : m.all p = true) (k : Nat) (v : β) (hp : p (k, v) = true) :
    (Sparse.ins k v m).all p = true := by
  induction m with
  | nil => simp [Sparse.ins, hp]
  | cons q rest ih =>
    simp only [List.all_cons, Bool.and_eq_true] at h
    simp only [Sparse.ins]
    split
    · simp [hp, h.1, h.2]
    · split
      · simp [hp, h.2]
      · simp [h.1, ih h.2]

/-- A write keeps the canonical form. -/
theorem Sparse.wf_set [DecidableEq β] (dflt : Nat → β) {m : Sparse β} (h : Sparse.wf dflt m = true) (k : Nat) (v : β) :
    Sparse.wf dflt (Sparse.set dflt m k v) = true := by
  simp only [Sparse.wf, Bool.and_eq_true] at h ⊢
  refine ⟨Sparse.rising_set dflt h.1 k v, ?_⟩
  unfold Sparse.set
  split
  · exact Sparse.all_del _ h.2 k
  · exact Sparse.all_ins _ h.2 k v (by simpa using ‹_›)

theorem Sparse.rising_of_wf [DecidableEq β] {dflt : Nat → β} {m : Sparse β} (h : Sparse.wf dflt m = true) :
    Sparse.Rising m := by
  simp only [Sparse.wf, Bool.and_eq_true] at h; exact h.1

/-! ## Memories -/

theorem Memory.rd8_wr8_same (m : Memory) (a : Nat) (v : Byte) : Memory.rd8 (Memory.wr8 m a v) a = v :=
  Sparse.get_set_same _ m a v

theorem Memory.rd8_wr8_ne (m : Memory) {a b : Nat} (v : Byte) (h : b ≠ a) :
    Memory.rd8 (Memory.wr8 m a v) b = Memory.rd8 m b :=
  Sparse.get_set_ne _ m v h

theorem Memory.wf_wr8 {m : Memory} (h : Memory.wf m = true) (a : Nat) (v : Byte) : Memory.wf (Memory.wr8 m a v) = true :=
  Sparse.wf_set _ h a v

theorem Memory.wf_wrLE {m : Memory} (h : Memory.wf m = true) (a n v : Nat) : Memory.wf (Memory.wrLE m a n v) = true := by
  induction n generalizing m a v with
  | zero => exact h
  | succ n ih => exact ih (Memory.wf_wr8 h _ _) _ _

theorem Memory.wf_wrBytes {m : Memory} (h : Memory.wf m = true) (a : Nat) (l : List Byte) :
    Memory.wf (Memory.wrBytes m a l) = true := by
  induction l generalizing m a with
  | nil => exact h
  | cons b rest ih => exact ih (Memory.wf_wr8 h _ _) _

theorem Memory.wf_wr32 {m : Memory} (h : Memory.wf m = true) (a : Nat) (v : Word) : Memory.wf (Memory.wr32 m a v) = true :=
  Memory.wf_wrLE h _ _ _

/-- A wide write leaves every byte outside it. -/
theorem Memory.rd8_wrLE_ne (m : Memory) {a n b : Nat} (v : Nat) (h : b < a ∨ a + n ≤ b) :
    Memory.rd8 (Memory.wrLE m a n v) b = Memory.rd8 m b := by
  induction n generalizing m a v with
  | zero => rfl
  | succ n ih =>
    rw [Memory.wrLE, ih _ _ (by omega), Memory.rd8_wr8_ne _ _ (by omega)]

/-- A wide write stores its bytes, the least significant first (R90). -/
theorem Memory.rd8_wrLE (m : Memory) (a : Nat) {n i : Nat} (v : Nat) (hi : i < n) :
    Memory.rd8 (Memory.wrLE m a n v) (a + i) = BitVec.ofNat 8 (v / 256 ^ i) := by
  induction n generalizing m a v i with
  | zero => omega
  | succ n ih =>
    rw [Memory.wrLE]
    cases i with
    | zero =>
      rw [Memory.rd8_wrLE_ne _ _ (by omega)]
      simpa using Memory.rd8_wr8_same m a _
    | succ i =>
      have := ih (Memory.wr8 m a (BitVec.ofNat 8 v)) (a + 1) (v / 256) (Nat.lt_of_succ_lt_succ hi)
      rw [show a + (i + 1) = a + 1 + i by omega, this, Nat.div_div_eq_div_mul, Nat.pow_succ, Nat.mul_comm]

/-- A wide read after the wide write of the same place. -/
theorem Memory.rdLE_wrLE (m : Memory) (a n v : Nat) :
    Memory.rdLE (Memory.wrLE m a n v) a n = v % 256 ^ n := by
  induction n generalizing m a v with
  | zero => simp [Memory.rdLE, Nat.mod_one]
  | succ n ih =>
    have h0 : Memory.rd8 (Memory.wrLE m a (n + 1) v) a = BitVec.ofNat 8 v := by
      simpa using Memory.rd8_wrLE m a v (Nat.succ_pos n)
    rw [Memory.rdLE, h0]
    simp only [Memory.wrLE]
    rw [ih]
    rw [BitVec.toNat_ofNat, show (2 : Nat) ^ 8 = 256 from rfl, Nat.pow_succ, Nat.mul_comm (256 ^ n) 256, Nat.mod_mul]

end Sys2Proof.Machine
end

