-- ==== Sys2Proof/Laws/State.lean ====
section
/-!
SUPPORT. One lemma per field and update of the device: what each update leaves as it was.
-/
namespace Sys2Proof.Machine

@[simp] theorem Dev.wr_phase (d : Dev) (off : Nat) (v : Word) : (d.wr off v).phase = d.phase := rfl
@[simp] theorem Dev.wr_latch (d : Dev) (off : Nat) (v : Word) : (d.wr off v).latch = d.latch := rfl
@[simp] theorem Dev.wr_mem (d : Dev) (off : Nat) (v : Word) : (d.wr off v).mem = d.mem := rfl
@[simp] theorem Dev.wr_cores (d : Dev) (off : Nat) (v : Word) : (d.wr off v).cores = d.cores := rfl
@[simp] theorem Dev.wr_tasks (d : Dev) (off : Nat) (v : Word) : (d.wr off v).tasks = d.tasks := rfl
@[simp] theorem Dev.wr_modeChange (d : Dev) (off : Nat) (v : Word) : (d.wr off v).modeChange = d.modeChange := rfl
@[simp] theorem Dev.wr_keyPin (d : Dev) (off : Nat) (v : Word) : (d.wr off v).keyPin = d.keyPin := rfl
@[simp] theorem Dev.wr_fullLoad (d : Dev) (off : Nat) (v : Word) : (d.wr off v).fullLoad = d.fullLoad := rfl
@[simp] theorem Dev.wr_ang (d : Dev) (off : Nat) (v : Word) : (d.wr off v).ang = d.ang := rfl
@[simp] theorem Dev.wr_time (d : Dev) (off : Nat) (v : Word) : (d.wr off v).time = d.time := rfl
@[simp] theorem Dev.wr_net (d : Dev) (off : Nat) (v : Word) : (d.wr off v).net = d.net := rfl
@[simp] theorem Dev.wr_can (d : Dev) (off : Nat) (v : Word) : (d.wr off v).can = d.can := rfl
@[simp] theorem Dev.wr_queues (d : Dev) (off : Nat) (v : Word) : (d.wr off v).queues = d.queues := rfl
@[simp] theorem Dev.wr_units (d : Dev) (off : Nat) (v : Word) : (d.wr off v).units = d.units := rfl
@[simp] theorem Dev.wr_msix (d : Dev) (off : Nat) (v : Word) : (d.wr off v).msix = d.msix := rfl
@[simp] theorem Dev.wr_io (d : Dev) (off : Nat) (v : Word) : (d.wr off v).io = d.io := rfl
@[simp] theorem Dev.wr_outs (d : Dev) (off : Nat) (v : Word) : (d.wr off v).outs = d.outs := rfl
@[simp] theorem Dev.wr_plane (d : Dev) (off : Nat) (v : Word) : (d.wr off v).plane = d.plane := rfl
@[simp] theorem Dev.wr_gooseBits (d : Dev) (off : Nat) (v : Word) : (d.wr off v).gooseBits = d.gooseBits := rfl
@[simp] theorem Dev.wr_path (d : Dev) (off : Nat) (v : Word) : (d.wr off v).path = d.path := rfl
@[simp] theorem Dev.wr_nvs (d : Dev) (off : Nat) (v : Word) : (d.wr off v).nvs = d.nvs := rfl
@[simp] theorem Dev.wr_xch (d : Dev) (off : Nat) (v : Word) : (d.wr off v).xch = d.xch := rfl
@[simp] theorem Dev.wr_hsb (d : Dev) (off : Nat) (v : Word) : (d.wr off v).hsb = d.hsb := rfl
@[simp] theorem Dev.wr_stand (d : Dev) (off : Nat) (v : Word) : (d.wr off v).stand = d.stand := rfl
@[simp] theorem Dev.wr_rtc (d : Dev) (off : Nat) (v : Word) : (d.wr off v).rtc = d.rtc := rfl
@[simp] theorem Dev.wr_power (d : Dev) (off : Nat) (v : Word) : (d.wr off v).power = d.power := rfl
@[simp] theorem Dev.wr_sec (d : Dev) (off : Nat) (v : Word) : (d.wr off v).sec = d.sec := rfl
@[simp] theorem Dev.wr_flash (d : Dev) (off : Nat) (v : Word) : (d.wr off v).flash = d.flash := rfl
@[simp] theorem Dev.wr_tap (d : Dev) (off : Nat) (v : Word) : (d.wr off v).tap = d.tap := rfl
@[simp] theorem Dev.wr_host (d : Dev) (off : Nat) (v : Word) : (d.wr off v).host = d.host := rfl
@[simp] theorem Dev.wr_formats (d : Dev) (off : Nat) (v : Word) : (d.wr off v).formats = d.formats := rfl
@[simp] theorem Dev.wr_readData (d : Dev) (off : Nat) (v : Word) : (d.wr off v).readData = d.readData := rfl
@[simp] theorem Dev.wr_outbox (d : Dev) (off : Nat) (v : Word) : (d.wr off v).outbox = d.outbox := rfl
@[simp] theorem Dev.wr_freeNo (d : Dev) (off : Nat) (v : Word) : (d.wr off v).freeNo = d.freeNo := rfl

@[simp] theorem Dev.setFld_phase (d : Dev) (f : Fld) (n : Nat) : (d.setFld f n).phase = d.phase := rfl
@[simp] theorem Dev.setFld_latch (d : Dev) (f : Fld) (n : Nat) : (d.setFld f n).latch = d.latch := rfl
@[simp] theorem Dev.setFld_mem (d : Dev) (f : Fld) (n : Nat) : (d.setFld f n).mem = d.mem := rfl
@[simp] theorem Dev.setFld_cores (d : Dev) (f : Fld) (n : Nat) : (d.setFld f n).cores = d.cores := rfl
@[simp] theorem Dev.setFld_tasks (d : Dev) (f : Fld) (n : Nat) : (d.setFld f n).tasks = d.tasks := rfl
@[simp] theorem Dev.setFld_modeChange (d : Dev) (f : Fld) (n : Nat) : (d.setFld f n).modeChange = d.modeChange := rfl
@[simp] theorem Dev.setFld_keyPin (d : Dev) (f : Fld) (n : Nat) : (d.setFld f n).keyPin = d.keyPin := rfl
@[simp] theorem Dev.setFld_fullLoad (d : Dev) (f : Fld) (n : Nat) : (d.setFld f n).fullLoad = d.fullLoad := rfl
@[simp] theorem Dev.setFld_ang (d : Dev) (f : Fld) (n : Nat) : (d.setFld f n).ang = d.ang := rfl
@[simp] theorem Dev.setFld_time (d : Dev) (f : Fld) (n : Nat) : (d.setFld f n).time = d.time := rfl
@[simp] theorem Dev.setFld_net (d : Dev) (f : Fld) (n : Nat) : (d.setFld f n).net = d.net := rfl
@[simp] theorem Dev.setFld_can (d : Dev) (f : Fld) (n : Nat) : (d.setFld f n).can = d.can := rfl
@[simp] theorem Dev.setFld_queues (d : Dev) (f : Fld) (n : Nat) : (d.setFld f n).queues = d.queues := rfl
@[simp] theorem Dev.setFld_units (d : Dev) (f : Fld) (n : Nat) : (d.setFld f n).units = d.units := rfl
@[simp] theorem Dev.setFld_msix (d : Dev) (f : Fld) (n : Nat) : (d.setFld f n).msix = d.msix := rfl
@[simp] theorem Dev.setFld_io (d : Dev) (f : Fld) (n : Nat) : (d.setFld f n).io = d.io := rfl
@[simp] theorem Dev.setFld_outs (d : Dev) (f : Fld) (n : Nat) : (d.setFld f n).outs = d.outs := rfl
@[simp] theorem Dev.setFld_plane (d : Dev) (f : Fld) (n : Nat) : (d.setFld f n).plane = d.plane := rfl
@[simp] theorem Dev.setFld_gooseBits (d : Dev) (f : Fld) (n : Nat) : (d.setFld f n).gooseBits = d.gooseBits := rfl
@[simp] theorem Dev.setFld_path (d : Dev) (f : Fld) (n : Nat) : (d.setFld f n).path = d.path := rfl
@[simp] theorem Dev.setFld_nvs (d : Dev) (f : Fld) (n : Nat) : (d.setFld f n).nvs = d.nvs := rfl
@[simp] theorem Dev.setFld_xch (d : Dev) (f : Fld) (n : Nat) : (d.setFld f n).xch = d.xch := rfl
@[simp] theorem Dev.setFld_hsb (d : Dev) (f : Fld) (n : Nat) : (d.setFld f n).hsb = d.hsb := rfl
@[simp] theorem Dev.setFld_stand (d : Dev) (f : Fld) (n : Nat) : (d.setFld f n).stand = d.stand := rfl
@[simp] theorem Dev.setFld_rtc (d : Dev) (f : Fld) (n : Nat) : (d.setFld f n).rtc = d.rtc := rfl
@[simp] theorem Dev.setFld_power (d : Dev) (f : Fld) (n : Nat) : (d.setFld f n).power = d.power := rfl
@[simp] theorem Dev.setFld_sec (d : Dev) (f : Fld) (n : Nat) : (d.setFld f n).sec = d.sec := rfl
@[simp] theorem Dev.setFld_flash (d : Dev) (f : Fld) (n : Nat) : (d.setFld f n).flash = d.flash := rfl
@[simp] theorem Dev.setFld_tap (d : Dev) (f : Fld) (n : Nat) : (d.setFld f n).tap = d.tap := rfl
@[simp] theorem Dev.setFld_host (d : Dev) (f : Fld) (n : Nat) : (d.setFld f n).host = d.host := rfl
@[simp] theorem Dev.setFld_formats (d : Dev) (f : Fld) (n : Nat) : (d.setFld f n).formats = d.formats := rfl
@[simp] theorem Dev.setFld_readData (d : Dev) (f : Fld) (n : Nat) : (d.setFld f n).readData = d.readData := rfl
@[simp] theorem Dev.setFld_outbox (d : Dev) (f : Fld) (n : Nat) : (d.setFld f n).outbox = d.outbox := rfl
@[simp] theorem Dev.setFld_freeNo (d : Dev) (f : Fld) (n : Nat) : (d.setFld f n).freeNo = d.freeNo := rfl

@[simp] theorem Dev.incFld_phase (d : Dev) (f : Fld) : (d.incFld f).phase = d.phase := rfl
@[simp] theorem Dev.incFld_latch (d : Dev) (f : Fld) : (d.incFld f).latch = d.latch := rfl
@[simp] theorem Dev.incFld_mem (d : Dev) (f : Fld) : (d.incFld f).mem = d.mem := rfl
@[simp] theorem Dev.incFld_cores (d : Dev) (f : Fld) : (d.incFld f).cores = d.cores := rfl
@[simp] theorem Dev.incFld_tasks (d : Dev) (f : Fld) : (d.incFld f).tasks = d.tasks := rfl
@[simp] theorem Dev.incFld_modeChange (d : Dev) (f : Fld) : (d.incFld f).modeChange = d.modeChange := rfl
@[simp] theorem Dev.incFld_keyPin (d : Dev) (f : Fld) : (d.incFld f).keyPin = d.keyPin := rfl
@[simp] theorem Dev.incFld_fullLoad (d : Dev) (f : Fld) : (d.incFld f).fullLoad = d.fullLoad := rfl
@[simp] theorem Dev.incFld_ang (d : Dev) (f : Fld) : (d.incFld f).ang = d.ang := rfl
@[simp] theorem Dev.incFld_time (d : Dev) (f : Fld) : (d.incFld f).time = d.time := rfl
@[simp] theorem Dev.incFld_net (d : Dev) (f : Fld) : (d.incFld f).net = d.net := rfl
@[simp] theorem Dev.incFld_can (d : Dev) (f : Fld) : (d.incFld f).can = d.can := rfl
@[simp] theorem Dev.incFld_queues (d : Dev) (f : Fld) : (d.incFld f).queues = d.queues := rfl
@[simp] theorem Dev.incFld_units (d : Dev) (f : Fld) : (d.incFld f).units = d.units := rfl
@[simp] theorem Dev.incFld_msix (d : Dev) (f : Fld) : (d.incFld f).msix = d.msix := rfl
@[simp] theorem Dev.incFld_io (d : Dev) (f : Fld) : (d.incFld f).io = d.io := rfl
@[simp] theorem Dev.incFld_outs (d : Dev) (f : Fld) : (d.incFld f).outs = d.outs := rfl
@[simp] theorem Dev.incFld_plane (d : Dev) (f : Fld) : (d.incFld f).plane = d.plane := rfl
@[simp] theorem Dev.incFld_gooseBits (d : Dev) (f : Fld) : (d.incFld f).gooseBits = d.gooseBits := rfl
@[simp] theorem Dev.incFld_path (d : Dev) (f : Fld) : (d.incFld f).path = d.path := rfl
@[simp] theorem Dev.incFld_nvs (d : Dev) (f : Fld) : (d.incFld f).nvs = d.nvs := rfl
@[simp] theorem Dev.incFld_xch (d : Dev) (f : Fld) : (d.incFld f).xch = d.xch := rfl
@[simp] theorem Dev.incFld_hsb (d : Dev) (f : Fld) : (d.incFld f).hsb = d.hsb := rfl
@[simp] theorem Dev.incFld_stand (d : Dev) (f : Fld) : (d.incFld f).stand = d.stand := rfl
@[simp] theorem Dev.incFld_rtc (d : Dev) (f : Fld) : (d.incFld f).rtc = d.rtc := rfl
@[simp] theorem Dev.incFld_power (d : Dev) (f : Fld) : (d.incFld f).power = d.power := rfl
@[simp] theorem Dev.incFld_sec (d : Dev) (f : Fld) : (d.incFld f).sec = d.sec := rfl
@[simp] theorem Dev.incFld_flash (d : Dev) (f : Fld) : (d.incFld f).flash = d.flash := rfl
@[simp] theorem Dev.incFld_tap (d : Dev) (f : Fld) : (d.incFld f).tap = d.tap := rfl
@[simp] theorem Dev.incFld_host (d : Dev) (f : Fld) : (d.incFld f).host = d.host := rfl
@[simp] theorem Dev.incFld_formats (d : Dev) (f : Fld) : (d.incFld f).formats = d.formats := rfl
@[simp] theorem Dev.incFld_readData (d : Dev) (f : Fld) : (d.incFld f).readData = d.readData := rfl
@[simp] theorem Dev.incFld_outbox (d : Dev) (f : Fld) : (d.incFld f).outbox = d.outbox := rfl
@[simp] theorem Dev.incFld_freeNo (d : Dev) (f : Fld) : (d.incFld f).freeNo = d.freeNo := rfl

@[simp] theorem Dev.incSat_phase (d : Dev) (off : Nat) : (d.incSat off).phase = d.phase := rfl
@[simp] theorem Dev.incSat_latch (d : Dev) (off : Nat) : (d.incSat off).latch = d.latch := rfl
@[simp] theorem Dev.incSat_mem (d : Dev) (off : Nat) : (d.incSat off).mem = d.mem := rfl
@[simp] theorem Dev.incSat_cores (d : Dev) (off : Nat) : (d.incSat off).cores = d.cores := rfl
@[simp] theorem Dev.incSat_tasks (d : Dev) (off : Nat) : (d.incSat off).tasks = d.tasks := rfl
@[simp] theorem Dev.incSat_modeChange (d : Dev) (off : Nat) : (d.incSat off).modeChange = d.modeChange := rfl
@[simp] theorem Dev.incSat_keyPin (d : Dev) (off : Nat) : (d.incSat off).keyPin = d.keyPin := rfl
@[simp] theorem Dev.incSat_fullLoad (d : Dev) (off : Nat) : (d.incSat off).fullLoad = d.fullLoad := rfl
@[simp] theorem Dev.incSat_ang (d : Dev) (off : Nat) : (d.incSat off).ang = d.ang := rfl
@[simp] theorem Dev.incSat_time (d : Dev) (off : Nat) : (d.incSat off).time = d.time := rfl
@[simp] theorem Dev.incSat_net (d : Dev) (off : Nat) : (d.incSat off).net = d.net := rfl
@[simp] theorem Dev.incSat_can (d : Dev) (off : Nat) : (d.incSat off).can = d.can := rfl
@[simp] theorem Dev.incSat_queues (d : Dev) (off : Nat) : (d.incSat off).queues = d.queues := rfl
@[simp] theorem Dev.incSat_units (d : Dev) (off : Nat) : (d.incSat off).units = d.units := rfl
@[simp] theorem Dev.incSat_msix (d : Dev) (off : Nat) : (d.incSat off).msix = d.msix := rfl
@[simp] theorem Dev.incSat_io (d : Dev) (off : Nat) : (d.incSat off).io = d.io := rfl
@[simp] theorem Dev.incSat_outs (d : Dev) (off : Nat) : (d.incSat off).outs = d.outs := rfl
@[simp] theorem Dev.incSat_plane (d : Dev) (off : Nat) : (d.incSat off).plane = d.plane := rfl
@[simp] theorem Dev.incSat_gooseBits (d : Dev) (off : Nat) : (d.incSat off).gooseBits = d.gooseBits := rfl
@[simp] theorem Dev.incSat_path (d : Dev) (off : Nat) : (d.incSat off).path = d.path := rfl
@[simp] theorem Dev.incSat_nvs (d : Dev) (off : Nat) : (d.incSat off).nvs = d.nvs := rfl
@[simp] theorem Dev.incSat_xch (d : Dev) (off : Nat) : (d.incSat off).xch = d.xch := rfl
@[simp] theorem Dev.incSat_hsb (d : Dev) (off : Nat) : (d.incSat off).hsb = d.hsb := rfl
@[simp] theorem Dev.incSat_stand (d : Dev) (off : Nat) : (d.incSat off).stand = d.stand := rfl
@[simp] theorem Dev.incSat_rtc (d : Dev) (off : Nat) : (d.incSat off).rtc = d.rtc := rfl
@[simp] theorem Dev.incSat_power (d : Dev) (off : Nat) : (d.incSat off).power = d.power := rfl
@[simp] theorem Dev.incSat_sec (d : Dev) (off : Nat) : (d.incSat off).sec = d.sec := rfl
@[simp] theorem Dev.incSat_flash (d : Dev) (off : Nat) : (d.incSat off).flash = d.flash := rfl
@[simp] theorem Dev.incSat_tap (d : Dev) (off : Nat) : (d.incSat off).tap = d.tap := rfl
@[simp] theorem Dev.incSat_host (d : Dev) (off : Nat) : (d.incSat off).host = d.host := rfl
@[simp] theorem Dev.incSat_formats (d : Dev) (off : Nat) : (d.incSat off).formats = d.formats := rfl
@[simp] theorem Dev.incSat_readData (d : Dev) (off : Nat) : (d.incSat off).readData = d.readData := rfl
@[simp] theorem Dev.incSat_outbox (d : Dev) (off : Nat) : (d.incSat off).outbox = d.outbox := rfl
@[simp] theorem Dev.incSat_freeNo (d : Dev) (off : Nat) : (d.incSat off).freeNo = d.freeNo := rfl

@[simp] theorem Dev.incWrap_phase (d : Dev) (off : Nat) : (d.incWrap off).phase = d.phase := rfl
@[simp] theorem Dev.incWrap_latch (d : Dev) (off : Nat) : (d.incWrap off).latch = d.latch := rfl
@[simp] theorem Dev.incWrap_mem (d : Dev) (off : Nat) : (d.incWrap off).mem = d.mem := rfl
@[simp] theorem Dev.incWrap_cores (d : Dev) (off : Nat) : (d.incWrap off).cores = d.cores := rfl
@[simp] theorem Dev.incWrap_tasks (d : Dev) (off : Nat) : (d.incWrap off).tasks = d.tasks := rfl
@[simp] theorem Dev.incWrap_modeChange (d : Dev) (off : Nat) : (d.incWrap off).modeChange = d.modeChange := rfl
@[simp] theorem Dev.incWrap_keyPin (d : Dev) (off : Nat) : (d.incWrap off).keyPin = d.keyPin := rfl
@[simp] theorem Dev.incWrap_fullLoad (d : Dev) (off : Nat) : (d.incWrap off).fullLoad = d.fullLoad := rfl
@[simp] theorem Dev.incWrap_ang (d : Dev) (off : Nat) : (d.incWrap off).ang = d.ang := rfl
@[simp] theorem Dev.incWrap_time (d : Dev) (off : Nat) : (d.incWrap off).time = d.time := rfl
@[simp] theorem Dev.incWrap_net (d : Dev) (off : Nat) : (d.incWrap off).net = d.net := rfl
@[simp] theorem Dev.incWrap_can (d : Dev) (off : Nat) : (d.incWrap off).can = d.can := rfl
@[simp] theorem Dev.incWrap_queues (d : Dev) (off : Nat) : (d.incWrap off).queues = d.queues := rfl
@[simp] theorem Dev.incWrap_units (d : Dev) (off : Nat) : (d.incWrap off).units = d.units := rfl
@[simp] theorem Dev.incWrap_msix (d : Dev) (off : Nat) : (d.incWrap off).msix = d.msix := rfl
@[simp] theorem Dev.incWrap_io (d : Dev) (off : Nat) : (d.incWrap off).io = d.io := rfl
@[simp] theorem Dev.incWrap_outs (d : Dev) (off : Nat) : (d.incWrap off).outs = d.outs := rfl
@[simp] theorem Dev.incWrap_plane (d : Dev) (off : Nat) : (d.incWrap off).plane = d.plane := rfl
@[simp] theorem Dev.incWrap_gooseBits (d : Dev) (off : Nat) : (d.incWrap off).gooseBits = d.gooseBits := rfl
@[simp] theorem Dev.incWrap_path (d : Dev) (off : Nat) : (d.incWrap off).path = d.path := rfl
@[simp] theorem Dev.incWrap_nvs (d : Dev) (off : Nat) : (d.incWrap off).nvs = d.nvs := rfl
@[simp] theorem Dev.incWrap_xch (d : Dev) (off : Nat) : (d.incWrap off).xch = d.xch := rfl
@[simp] theorem Dev.incWrap_hsb (d : Dev) (off : Nat) : (d.incWrap off).hsb = d.hsb := rfl
@[simp] theorem Dev.incWrap_stand (d : Dev) (off : Nat) : (d.incWrap off).stand = d.stand := rfl
@[simp] theorem Dev.incWrap_rtc (d : Dev) (off : Nat) : (d.incWrap off).rtc = d.rtc := rfl
@[simp] theorem Dev.incWrap_power (d : Dev) (off : Nat) : (d.incWrap off).power = d.power := rfl
@[simp] theorem Dev.incWrap_sec (d : Dev) (off : Nat) : (d.incWrap off).sec = d.sec := rfl
@[simp] theorem Dev.incWrap_flash (d : Dev) (off : Nat) : (d.incWrap off).flash = d.flash := rfl
@[simp] theorem Dev.incWrap_tap (d : Dev) (off : Nat) : (d.incWrap off).tap = d.tap := rfl
@[simp] theorem Dev.incWrap_host (d : Dev) (off : Nat) : (d.incWrap off).host = d.host := rfl
@[simp] theorem Dev.incWrap_formats (d : Dev) (off : Nat) : (d.incWrap off).formats = d.formats := rfl
@[simp] theorem Dev.incWrap_readData (d : Dev) (off : Nat) : (d.incWrap off).readData = d.readData := rfl
@[simp] theorem Dev.incWrap_outbox (d : Dev) (off : Nat) : (d.incWrap off).outbox = d.outbox := rfl
@[simp] theorem Dev.incWrap_freeNo (d : Dev) (off : Nat) : (d.incWrap off).freeNo = d.freeNo := rfl

@[simp] theorem Dev.setBit_phase (d : Dev) (off i : Nat) (b : Bool) : (d.setBit off i b).phase = d.phase := rfl
@[simp] theorem Dev.setBit_latch (d : Dev) (off i : Nat) (b : Bool) : (d.setBit off i b).latch = d.latch := rfl
@[simp] theorem Dev.setBit_mem (d : Dev) (off i : Nat) (b : Bool) : (d.setBit off i b).mem = d.mem := rfl
@[simp] theorem Dev.setBit_cores (d : Dev) (off i : Nat) (b : Bool) : (d.setBit off i b).cores = d.cores := rfl
@[simp] theorem Dev.setBit_tasks (d : Dev) (off i : Nat) (b : Bool) : (d.setBit off i b).tasks = d.tasks := rfl
@[simp] theorem Dev.setBit_modeChange (d : Dev) (off i : Nat) (b : Bool) : (d.setBit off i b).modeChange = d.modeChange := rfl
@[simp] theorem Dev.setBit_keyPin (d : Dev) (off i : Nat) (b : Bool) : (d.setBit off i b).keyPin = d.keyPin := rfl
@[simp] theorem Dev.setBit_fullLoad (d : Dev) (off i : Nat) (b : Bool) : (d.setBit off i b).fullLoad = d.fullLoad := rfl
@[simp] theorem Dev.setBit_ang (d : Dev) (off i : Nat) (b : Bool) : (d.setBit off i b).ang = d.ang := rfl
@[simp] theorem Dev.setBit_time (d : Dev) (off i : Nat) (b : Bool) : (d.setBit off i b).time = d.time := rfl
@[simp] theorem Dev.setBit_net (d : Dev) (off i : Nat) (b : Bool) : (d.setBit off i b).net = d.net := rfl
@[simp] theorem Dev.setBit_can (d : Dev) (off i : Nat) (b : Bool) : (d.setBit off i b).can = d.can := rfl
@[simp] theorem Dev.setBit_queues (d : Dev) (off i : Nat) (b : Bool) : (d.setBit off i b).queues = d.queues := rfl
@[simp] theorem Dev.setBit_units (d : Dev) (off i : Nat) (b : Bool) : (d.setBit off i b).units = d.units := rfl
@[simp] theorem Dev.setBit_msix (d : Dev) (off i : Nat) (b : Bool) : (d.setBit off i b).msix = d.msix := rfl
@[simp] theorem Dev.setBit_io (d : Dev) (off i : Nat) (b : Bool) : (d.setBit off i b).io = d.io := rfl
@[simp] theorem Dev.setBit_outs (d : Dev) (off i : Nat) (b : Bool) : (d.setBit off i b).outs = d.outs := rfl
@[simp] theorem Dev.setBit_plane (d : Dev) (off i : Nat) (b : Bool) : (d.setBit off i b).plane = d.plane := rfl
@[simp] theorem Dev.setBit_gooseBits (d : Dev) (off i : Nat) (b : Bool) : (d.setBit off i b).gooseBits = d.gooseBits := rfl
@[simp] theorem Dev.setBit_path (d : Dev) (off i : Nat) (b : Bool) : (d.setBit off i b).path = d.path := rfl
@[simp] theorem Dev.setBit_nvs (d : Dev) (off i : Nat) (b : Bool) : (d.setBit off i b).nvs = d.nvs := rfl
@[simp] theorem Dev.setBit_xch (d : Dev) (off i : Nat) (b : Bool) : (d.setBit off i b).xch = d.xch := rfl
@[simp] theorem Dev.setBit_hsb (d : Dev) (off i : Nat) (b : Bool) : (d.setBit off i b).hsb = d.hsb := rfl
@[simp] theorem Dev.setBit_stand (d : Dev) (off i : Nat) (b : Bool) : (d.setBit off i b).stand = d.stand := rfl
@[simp] theorem Dev.setBit_rtc (d : Dev) (off i : Nat) (b : Bool) : (d.setBit off i b).rtc = d.rtc := rfl
@[simp] theorem Dev.setBit_power (d : Dev) (off i : Nat) (b : Bool) : (d.setBit off i b).power = d.power := rfl
@[simp] theorem Dev.setBit_sec (d : Dev) (off i : Nat) (b : Bool) : (d.setBit off i b).sec = d.sec := rfl
@[simp] theorem Dev.setBit_flash (d : Dev) (off i : Nat) (b : Bool) : (d.setBit off i b).flash = d.flash := rfl
@[simp] theorem Dev.setBit_tap (d : Dev) (off i : Nat) (b : Bool) : (d.setBit off i b).tap = d.tap := rfl
@[simp] theorem Dev.setBit_host (d : Dev) (off i : Nat) (b : Bool) : (d.setBit off i b).host = d.host := rfl
@[simp] theorem Dev.setBit_formats (d : Dev) (off i : Nat) (b : Bool) : (d.setBit off i b).formats = d.formats := rfl
@[simp] theorem Dev.setBit_readData (d : Dev) (off i : Nat) (b : Bool) : (d.setBit off i b).readData = d.readData := rfl
@[simp] theorem Dev.setBit_outbox (d : Dev) (off i : Nat) (b : Bool) : (d.setBit off i b).outbox = d.outbox := rfl
@[simp] theorem Dev.setBit_freeNo (d : Dev) (off i : Nat) (b : Bool) : (d.setBit off i b).freeNo = d.freeNo := rfl

@[simp] theorem Dev.setMaskBit_phase (d : Dev) (off i : Nat) (b : Bool) : (d.setMaskBit off i b).phase = d.phase := rfl
@[simp] theorem Dev.setMaskBit_latch (d : Dev) (off i : Nat) (b : Bool) : (d.setMaskBit off i b).latch = d.latch := rfl
@[simp] theorem Dev.setMaskBit_mem (d : Dev) (off i : Nat) (b : Bool) : (d.setMaskBit off i b).mem = d.mem := rfl
@[simp] theorem Dev.setMaskBit_cores (d : Dev) (off i : Nat) (b : Bool) : (d.setMaskBit off i b).cores = d.cores := rfl
@[simp] theorem Dev.setMaskBit_tasks (d : Dev) (off i : Nat) (b : Bool) : (d.setMaskBit off i b).tasks = d.tasks := rfl
@[simp] theorem Dev.setMaskBit_modeChange (d : Dev) (off i : Nat) (b : Bool) : (d.setMaskBit off i b).modeChange = d.modeChange := rfl
@[simp] theorem Dev.setMaskBit_keyPin (d : Dev) (off i : Nat) (b : Bool) : (d.setMaskBit off i b).keyPin = d.keyPin := rfl
@[simp] theorem Dev.setMaskBit_fullLoad (d : Dev) (off i : Nat) (b : Bool) : (d.setMaskBit off i b).fullLoad = d.fullLoad := rfl
@[simp] theorem Dev.setMaskBit_ang (d : Dev) (off i : Nat) (b : Bool) : (d.setMaskBit off i b).ang = d.ang := rfl
@[simp] theorem Dev.setMaskBit_time (d : Dev) (off i : Nat) (b : Bool) : (d.setMaskBit off i b).time = d.time := rfl
@[simp] theorem Dev.setMaskBit_net (d : Dev) (off i : Nat) (b : Bool) : (d.setMaskBit off i b).net = d.net := rfl
@[simp] theorem Dev.setMaskBit_can (d : Dev) (off i : Nat) (b : Bool) : (d.setMaskBit off i b).can = d.can := rfl
@[simp] theorem Dev.setMaskBit_queues (d : Dev) (off i : Nat) (b : Bool) : (d.setMaskBit off i b).queues = d.queues := rfl
@[simp] theorem Dev.setMaskBit_units (d : Dev) (off i : Nat) (b : Bool) : (d.setMaskBit off i b).units = d.units := rfl
@[simp] theorem Dev.setMaskBit_msix (d : Dev) (off i : Nat) (b : Bool) : (d.setMaskBit off i b).msix = d.msix := rfl
@[simp] theorem Dev.setMaskBit_io (d : Dev) (off i : Nat) (b : Bool) : (d.setMaskBit off i b).io = d.io := rfl
@[simp] theorem Dev.setMaskBit_outs (d : Dev) (off i : Nat) (b : Bool) : (d.setMaskBit off i b).outs = d.outs := rfl
@[simp] theorem Dev.setMaskBit_plane (d : Dev) (off i : Nat) (b : Bool) : (d.setMaskBit off i b).plane = d.plane := rfl
@[simp] theorem Dev.setMaskBit_gooseBits (d : Dev) (off i : Nat) (b : Bool) : (d.setMaskBit off i b).gooseBits = d.gooseBits := rfl
@[simp] theorem Dev.setMaskBit_path (d : Dev) (off i : Nat) (b : Bool) : (d.setMaskBit off i b).path = d.path := rfl
@[simp] theorem Dev.setMaskBit_nvs (d : Dev) (off i : Nat) (b : Bool) : (d.setMaskBit off i b).nvs = d.nvs := rfl
@[simp] theorem Dev.setMaskBit_xch (d : Dev) (off i : Nat) (b : Bool) : (d.setMaskBit off i b).xch = d.xch := rfl
@[simp] theorem Dev.setMaskBit_hsb (d : Dev) (off i : Nat) (b : Bool) : (d.setMaskBit off i b).hsb = d.hsb := rfl
@[simp] theorem Dev.setMaskBit_stand (d : Dev) (off i : Nat) (b : Bool) : (d.setMaskBit off i b).stand = d.stand := rfl
@[simp] theorem Dev.setMaskBit_rtc (d : Dev) (off i : Nat) (b : Bool) : (d.setMaskBit off i b).rtc = d.rtc := rfl
@[simp] theorem Dev.setMaskBit_power (d : Dev) (off i : Nat) (b : Bool) : (d.setMaskBit off i b).power = d.power := rfl
@[simp] theorem Dev.setMaskBit_sec (d : Dev) (off i : Nat) (b : Bool) : (d.setMaskBit off i b).sec = d.sec := rfl
@[simp] theorem Dev.setMaskBit_flash (d : Dev) (off i : Nat) (b : Bool) : (d.setMaskBit off i b).flash = d.flash := rfl
@[simp] theorem Dev.setMaskBit_tap (d : Dev) (off i : Nat) (b : Bool) : (d.setMaskBit off i b).tap = d.tap := rfl
@[simp] theorem Dev.setMaskBit_host (d : Dev) (off i : Nat) (b : Bool) : (d.setMaskBit off i b).host = d.host := rfl
@[simp] theorem Dev.setMaskBit_formats (d : Dev) (off i : Nat) (b : Bool) : (d.setMaskBit off i b).formats = d.formats := rfl
@[simp] theorem Dev.setMaskBit_readData (d : Dev) (off i : Nat) (b : Bool) : (d.setMaskBit off i b).readData = d.readData := rfl
@[simp] theorem Dev.setMaskBit_outbox (d : Dev) (off i : Nat) (b : Bool) : (d.setMaskBit off i b).outbox = d.outbox := rfl
@[simp] theorem Dev.setMaskBit_freeNo (d : Dev) (off i : Nat) (b : Bool) : (d.setMaskBit off i b).freeNo = d.freeNo := rfl

@[simp] theorem Dev.wr64_phase (d : Dev) (off v : Nat) : (d.wr64 off v).phase = d.phase := rfl
@[simp] theorem Dev.wr64_latch (d : Dev) (off v : Nat) : (d.wr64 off v).latch = d.latch := rfl
@[simp] theorem Dev.wr64_mem (d : Dev) (off v : Nat) : (d.wr64 off v).mem = d.mem := rfl
@[simp] theorem Dev.wr64_cores (d : Dev) (off v : Nat) : (d.wr64 off v).cores = d.cores := rfl
@[simp] theorem Dev.wr64_tasks (d : Dev) (off v : Nat) : (d.wr64 off v).tasks = d.tasks := rfl
@[simp] theorem Dev.wr64_modeChange (d : Dev) (off v : Nat) : (d.wr64 off v).modeChange = d.modeChange := rfl
@[simp] theorem Dev.wr64_keyPin (d : Dev) (off v : Nat) : (d.wr64 off v).keyPin = d.keyPin := rfl
@[simp] theorem Dev.wr64_fullLoad (d : Dev) (off v : Nat) : (d.wr64 off v).fullLoad = d.fullLoad := rfl
@[simp] theorem Dev.wr64_ang (d : Dev) (off v : Nat) : (d.wr64 off v).ang = d.ang := rfl
@[simp] theorem Dev.wr64_time (d : Dev) (off v : Nat) : (d.wr64 off v).time = d.time := rfl
@[simp] theorem Dev.wr64_net (d : Dev) (off v : Nat) : (d.wr64 off v).net = d.net := rfl
@[simp] theorem Dev.wr64_can (d : Dev) (off v : Nat) : (d.wr64 off v).can = d.can := rfl
@[simp] theorem Dev.wr64_queues (d : Dev) (off v : Nat) : (d.wr64 off v).queues = d.queues := rfl
@[simp] theorem Dev.wr64_units (d : Dev) (off v : Nat) : (d.wr64 off v).units = d.units := rfl
@[simp] theorem Dev.wr64_msix (d : Dev) (off v : Nat) : (d.wr64 off v).msix = d.msix := rfl
@[simp] theorem Dev.wr64_io (d : Dev) (off v : Nat) : (d.wr64 off v).io = d.io := rfl
@[simp] theorem Dev.wr64_outs (d : Dev) (off v : Nat) : (d.wr64 off v).outs = d.outs := rfl
@[simp] theorem Dev.wr64_plane (d : Dev) (off v : Nat) : (d.wr64 off v).plane = d.plane := rfl
@[simp] theorem Dev.wr64_gooseBits (d : Dev) (off v : Nat) : (d.wr64 off v).gooseBits = d.gooseBits := rfl
@[simp] theorem Dev.wr64_path (d : Dev) (off v : Nat) : (d.wr64 off v).path = d.path := rfl
@[simp] theorem Dev.wr64_nvs (d : Dev) (off v : Nat) : (d.wr64 off v).nvs = d.nvs := rfl
@[simp] theorem Dev.wr64_xch (d : Dev) (off v : Nat) : (d.wr64 off v).xch = d.xch := rfl
@[simp] theorem Dev.wr64_hsb (d : Dev) (off v : Nat) : (d.wr64 off v).hsb = d.hsb := rfl
@[simp] theorem Dev.wr64_stand (d : Dev) (off v : Nat) : (d.wr64 off v).stand = d.stand := rfl
@[simp] theorem Dev.wr64_rtc (d : Dev) (off v : Nat) : (d.wr64 off v).rtc = d.rtc := rfl
@[simp] theorem Dev.wr64_power (d : Dev) (off v : Nat) : (d.wr64 off v).power = d.power := rfl
@[simp] theorem Dev.wr64_sec (d : Dev) (off v : Nat) : (d.wr64 off v).sec = d.sec := rfl
@[simp] theorem Dev.wr64_flash (d : Dev) (off v : Nat) : (d.wr64 off v).flash = d.flash := rfl
@[simp] theorem Dev.wr64_tap (d : Dev) (off v : Nat) : (d.wr64 off v).tap = d.tap := rfl
@[simp] theorem Dev.wr64_host (d : Dev) (off v : Nat) : (d.wr64 off v).host = d.host := rfl
@[simp] theorem Dev.wr64_formats (d : Dev) (off v : Nat) : (d.wr64 off v).formats = d.formats := rfl
@[simp] theorem Dev.wr64_readData (d : Dev) (off v : Nat) : (d.wr64 off v).readData = d.readData := rfl
@[simp] theorem Dev.wr64_outbox (d : Dev) (off v : Nat) : (d.wr64 off v).outbox = d.outbox := rfl
@[simp] theorem Dev.wr64_freeNo (d : Dev) (off v : Nat) : (d.wr64 off v).freeNo = d.freeNo := rfl

@[simp] theorem Dev.setCore_phase (d : Dev) (c : Nat) (k : Core) : (d.setCore c k).phase = d.phase := rfl
@[simp] theorem Dev.setCore_csr (d : Dev) (c : Nat) (k : Core) : (d.setCore c k).csr = d.csr := rfl
@[simp] theorem Dev.setCore_latch (d : Dev) (c : Nat) (k : Core) : (d.setCore c k).latch = d.latch := rfl
@[simp] theorem Dev.setCore_mem (d : Dev) (c : Nat) (k : Core) : (d.setCore c k).mem = d.mem := rfl
@[simp] theorem Dev.setCore_tasks (d : Dev) (c : Nat) (k : Core) : (d.setCore c k).tasks = d.tasks := rfl
@[simp] theorem Dev.setCore_modeChange (d : Dev) (c : Nat) (k : Core) : (d.setCore c k).modeChange = d.modeChange := rfl
@[simp] theorem Dev.setCore_keyPin (d : Dev) (c : Nat) (k : Core) : (d.setCore c k).keyPin = d.keyPin := rfl
@[simp] theorem Dev.setCore_fullLoad (d : Dev) (c : Nat) (k : Core) : (d.setCore c k).fullLoad = d.fullLoad := rfl
@[simp] theorem Dev.setCore_ang (d : Dev) (c : Nat) (k : Core) : (d.setCore c k).ang = d.ang := rfl
@[simp] theorem Dev.setCore_time (d : Dev) (c : Nat) (k : Core) : (d.setCore c k).time = d.time := rfl
@[simp] theorem Dev.setCore_net (d : Dev) (c : Nat) (k : Core) : (d.setCore c k).net = d.net := rfl
@[simp] theorem Dev.setCore_can (d : Dev) (c : Nat) (k : Core) : (d.setCore c k).can = d.can := rfl
@[simp] theorem Dev.setCore_queues (d : Dev) (c : Nat) (k : Core) : (d.setCore c k).queues = d.queues := rfl
@[simp] theorem Dev.setCore_units (d : Dev) (c : Nat) (k : Core) : (d.setCore c k).units = d.units := rfl
@[simp] theorem Dev.setCore_msix (d : Dev) (c : Nat) (k : Core) : (d.setCore c k).msix = d.msix := rfl
@[simp] theorem Dev.setCore_io (d : Dev) (c : Nat) (k : Core) : (d.setCore c k).io = d.io := rfl
@[simp] theorem Dev.setCore_outs (d : Dev) (c : Nat) (k : Core) : (d.setCore c k).outs = d.outs := rfl
@[simp] theorem Dev.setCore_plane (d : Dev) (c : Nat) (k : Core) : (d.setCore c k).plane = d.plane := rfl
@[simp] theorem Dev.setCore_gooseBits (d : Dev) (c : Nat) (k : Core) : (d.setCore c k).gooseBits = d.gooseBits := rfl
@[simp] theorem Dev.setCore_path (d : Dev) (c : Nat) (k : Core) : (d.setCore c k).path = d.path := rfl
@[simp] theorem Dev.setCore_nvs (d : Dev) (c : Nat) (k : Core) : (d.setCore c k).nvs = d.nvs := rfl
@[simp] theorem Dev.setCore_xch (d : Dev) (c : Nat) (k : Core) : (d.setCore c k).xch = d.xch := rfl
@[simp] theorem Dev.setCore_hsb (d : Dev) (c : Nat) (k : Core) : (d.setCore c k).hsb = d.hsb := rfl
@[simp] theorem Dev.setCore_stand (d : Dev) (c : Nat) (k : Core) : (d.setCore c k).stand = d.stand := rfl
@[simp] theorem Dev.setCore_rtc (d : Dev) (c : Nat) (k : Core) : (d.setCore c k).rtc = d.rtc := rfl
@[simp] theorem Dev.setCore_power (d : Dev) (c : Nat) (k : Core) : (d.setCore c k).power = d.power := rfl
@[simp] theorem Dev.setCore_sec (d : Dev) (c : Nat) (k : Core) : (d.setCore c k).sec = d.sec := rfl
@[simp] theorem Dev.setCore_flash (d : Dev) (c : Nat) (k : Core) : (d.setCore c k).flash = d.flash := rfl
@[simp] theorem Dev.setCore_tap (d : Dev) (c : Nat) (k : Core) : (d.setCore c k).tap = d.tap := rfl
@[simp] theorem Dev.setCore_host (d : Dev) (c : Nat) (k : Core) : (d.setCore c k).host = d.host := rfl
@[simp] theorem Dev.setCore_formats (d : Dev) (c : Nat) (k : Core) : (d.setCore c k).formats = d.formats := rfl
@[simp] theorem Dev.setCore_readData (d : Dev) (c : Nat) (k : Core) : (d.setCore c k).readData = d.readData := rfl
@[simp] theorem Dev.setCore_outbox (d : Dev) (c : Nat) (k : Core) : (d.setCore c k).outbox = d.outbox := rfl
@[simp] theorem Dev.setCore_freeNo (d : Dev) (c : Nat) (k : Core) : (d.setCore c k).freeNo = d.freeNo := rfl

@[simp] theorem Dev.setBank_phase (d : Dev) (c b : Nat) (k : Bank) : (d.setBank c b k).phase = d.phase := rfl
@[simp] theorem Dev.setBank_csr (d : Dev) (c b : Nat) (k : Bank) : (d.setBank c b k).csr = d.csr := rfl
@[simp] theorem Dev.setBank_latch (d : Dev) (c b : Nat) (k : Bank) : (d.setBank c b k).latch = d.latch := rfl
@[simp] theorem Dev.setBank_mem (d : Dev) (c b : Nat) (k : Bank) : (d.setBank c b k).mem = d.mem := rfl
@[simp] theorem Dev.setBank_tasks (d : Dev) (c b : Nat) (k : Bank) : (d.setBank c b k).tasks = d.tasks := rfl
@[simp] theorem Dev.setBank_modeChange (d : Dev) (c b : Nat) (k : Bank) : (d.setBank c b k).modeChange = d.modeChange := rfl
@[simp] theorem Dev.setBank_keyPin (d : Dev) (c b : Nat) (k : Bank) : (d.setBank c b k).keyPin = d.keyPin := rfl
@[simp] theorem Dev.setBank_fullLoad (d : Dev) (c b : Nat) (k : Bank) : (d.setBank c b k).fullLoad = d.fullLoad := rfl
@[simp] theorem Dev.setBank_ang (d : Dev) (c b : Nat) (k : Bank) : (d.setBank c b k).ang = d.ang := rfl
@[simp] theorem Dev.setBank_time (d : Dev) (c b : Nat) (k : Bank) : (d.setBank c b k).time = d.time := rfl
@[simp] theorem Dev.setBank_net (d : Dev) (c b : Nat) (k : Bank) : (d.setBank c b k).net = d.net := rfl
@[simp] theorem Dev.setBank_can (d : Dev) (c b : Nat) (k : Bank) : (d.setBank c b k).can = d.can := rfl
@[simp] theorem Dev.setBank_queues (d : Dev) (c b : Nat) (k : Bank) : (d.setBank c b k).queues = d.queues := rfl
@[simp] theorem Dev.setBank_units (d : Dev) (c b : Nat) (k : Bank) : (d.setBank c b k).units = d.units := rfl
@[simp] theorem Dev.setBank_msix (d : Dev) (c b : Nat) (k : Bank) : (d.setBank c b k).msix = d.msix := rfl
@[simp] theorem Dev.setBank_io (d : Dev) (c b : Nat) (k : Bank) : (d.setBank c b k).io = d.io := rfl
@[simp] theorem Dev.setBank_outs (d : Dev) (c b : Nat) (k : Bank) : (d.setBank c b k).outs = d.outs := rfl
@[simp] theorem Dev.setBank_plane (d : Dev) (c b : Nat) (k : Bank) : (d.setBank c b k).plane = d.plane := rfl
@[simp] theorem Dev.setBank_gooseBits (d : Dev) (c b : Nat) (k : Bank) : (d.setBank c b k).gooseBits = d.gooseBits := rfl
@[simp] theorem Dev.setBank_path (d : Dev) (c b : Nat) (k : Bank) : (d.setBank c b k).path = d.path := rfl
@[simp] theorem Dev.setBank_nvs (d : Dev) (c b : Nat) (k : Bank) : (d.setBank c b k).nvs = d.nvs := rfl
@[simp] theorem Dev.setBank_xch (d : Dev) (c b : Nat) (k : Bank) : (d.setBank c b k).xch = d.xch := rfl
@[simp] theorem Dev.setBank_hsb (d : Dev) (c b : Nat) (k : Bank) : (d.setBank c b k).hsb = d.hsb := rfl
@[simp] theorem Dev.setBank_stand (d : Dev) (c b : Nat) (k : Bank) : (d.setBank c b k).stand = d.stand := rfl
@[simp] theorem Dev.setBank_rtc (d : Dev) (c b : Nat) (k : Bank) : (d.setBank c b k).rtc = d.rtc := rfl
@[simp] theorem Dev.setBank_power (d : Dev) (c b : Nat) (k : Bank) : (d.setBank c b k).power = d.power := rfl
@[simp] theorem Dev.setBank_sec (d : Dev) (c b : Nat) (k : Bank) : (d.setBank c b k).sec = d.sec := rfl
@[simp] theorem Dev.setBank_flash (d : Dev) (c b : Nat) (k : Bank) : (d.setBank c b k).flash = d.flash := rfl
@[simp] theorem Dev.setBank_tap (d : Dev) (c b : Nat) (k : Bank) : (d.setBank c b k).tap = d.tap := rfl
@[simp] theorem Dev.setBank_host (d : Dev) (c b : Nat) (k : Bank) : (d.setBank c b k).host = d.host := rfl
@[simp] theorem Dev.setBank_formats (d : Dev) (c b : Nat) (k : Bank) : (d.setBank c b k).formats = d.formats := rfl
@[simp] theorem Dev.setBank_readData (d : Dev) (c b : Nat) (k : Bank) : (d.setBank c b k).readData = d.readData := rfl
@[simp] theorem Dev.setBank_outbox (d : Dev) (c b : Nat) (k : Bank) : (d.setBank c b k).outbox = d.outbox := rfl
@[simp] theorem Dev.setBank_freeNo (d : Dev) (c b : Nat) (k : Bank) : (d.setBank c b k).freeNo = d.freeNo := rfl

@[simp] theorem Dev.setTask_phase (d : Dev) (n : Nat) (k : Task) : (d.setTask n k).phase = d.phase := rfl
@[simp] theorem Dev.setTask_csr (d : Dev) (n : Nat) (k : Task) : (d.setTask n k).csr = d.csr := rfl
@[simp] theorem Dev.setTask_latch (d : Dev) (n : Nat) (k : Task) : (d.setTask n k).latch = d.latch := rfl
@[simp] theorem Dev.setTask_mem (d : Dev) (n : Nat) (k : Task) : (d.setTask n k).mem = d.mem := rfl
@[simp] theorem Dev.setTask_cores (d : Dev) (n : Nat) (k : Task) : (d.setTask n k).cores = d.cores := rfl
@[simp] theorem Dev.setTask_modeChange (d : Dev) (n : Nat) (k : Task) : (d.setTask n k).modeChange = d.modeChange := rfl
@[simp] theorem Dev.setTask_keyPin (d : Dev) (n : Nat) (k : Task) : (d.setTask n k).keyPin = d.keyPin := rfl
@[simp] theorem Dev.setTask_fullLoad (d : Dev) (n : Nat) (k : Task) : (d.setTask n k).fullLoad = d.fullLoad := rfl
@[simp] theorem Dev.setTask_ang (d : Dev) (n : Nat) (k : Task) : (d.setTask n k).ang = d.ang := rfl
@[simp] theorem Dev.setTask_time (d : Dev) (n : Nat) (k : Task) : (d.setTask n k).time = d.time := rfl
@[simp] theorem Dev.setTask_net (d : Dev) (n : Nat) (k : Task) : (d.setTask n k).net = d.net := rfl
@[simp] theorem Dev.setTask_can (d : Dev) (n : Nat) (k : Task) : (d.setTask n k).can = d.can := rfl
@[simp] theorem Dev.setTask_queues (d : Dev) (n : Nat) (k : Task) : (d.setTask n k).queues = d.queues := rfl
@[simp] theorem Dev.setTask_units (d : Dev) (n : Nat) (k : Task) : (d.setTask n k).units = d.units := rfl
@[simp] theorem Dev.setTask_msix (d : Dev) (n : Nat) (k : Task) : (d.setTask n k).msix = d.msix := rfl
@[simp] theorem Dev.setTask_io (d : Dev) (n : Nat) (k : Task) : (d.setTask n k).io = d.io := rfl
@[simp] theorem Dev.setTask_outs (d : Dev) (n : Nat) (k : Task) : (d.setTask n k).outs = d.outs := rfl
@[simp] theorem Dev.setTask_plane (d : Dev) (n : Nat) (k : Task) : (d.setTask n k).plane = d.plane := rfl
@[simp] theorem Dev.setTask_gooseBits (d : Dev) (n : Nat) (k : Task) : (d.setTask n k).gooseBits = d.gooseBits := rfl
@[simp] theorem Dev.setTask_path (d : Dev) (n : Nat) (k : Task) : (d.setTask n k).path = d.path := rfl
@[simp] theorem Dev.setTask_nvs (d : Dev) (n : Nat) (k : Task) : (d.setTask n k).nvs = d.nvs := rfl
@[simp] theorem Dev.setTask_xch (d : Dev) (n : Nat) (k : Task) : (d.setTask n k).xch = d.xch := rfl
@[simp] theorem Dev.setTask_hsb (d : Dev) (n : Nat) (k : Task) : (d.setTask n k).hsb = d.hsb := rfl
@[simp] theorem Dev.setTask_stand (d : Dev) (n : Nat) (k : Task) : (d.setTask n k).stand = d.stand := rfl
@[simp] theorem Dev.setTask_rtc (d : Dev) (n : Nat) (k : Task) : (d.setTask n k).rtc = d.rtc := rfl
@[simp] theorem Dev.setTask_power (d : Dev) (n : Nat) (k : Task) : (d.setTask n k).power = d.power := rfl
@[simp] theorem Dev.setTask_sec (d : Dev) (n : Nat) (k : Task) : (d.setTask n k).sec = d.sec := rfl
@[simp] theorem Dev.setTask_flash (d : Dev) (n : Nat) (k : Task) : (d.setTask n k).flash = d.flash := rfl
@[simp] theorem Dev.setTask_tap (d : Dev) (n : Nat) (k : Task) : (d.setTask n k).tap = d.tap := rfl
@[simp] theorem Dev.setTask_host (d : Dev) (n : Nat) (k : Task) : (d.setTask n k).host = d.host := rfl
@[simp] theorem Dev.setTask_formats (d : Dev) (n : Nat) (k : Task) : (d.setTask n k).formats = d.formats := rfl
@[simp] theorem Dev.setTask_readData (d : Dev) (n : Nat) (k : Task) : (d.setTask n k).readData = d.readData := rfl
@[simp] theorem Dev.setTask_outbox (d : Dev) (n : Nat) (k : Task) : (d.setTask n k).outbox = d.outbox := rfl
@[simp] theorem Dev.setTask_freeNo (d : Dev) (n : Nat) (k : Task) : (d.setTask n k).freeNo = d.freeNo := rfl

@[simp] theorem Dev.setQueue_phase (d : Dev) (q : Nat) (l : List Item) : (d.setQueue q l).phase = d.phase := rfl
@[simp] theorem Dev.setQueue_csr (d : Dev) (q : Nat) (l : List Item) : (d.setQueue q l).csr = d.csr := rfl
@[simp] theorem Dev.setQueue_latch (d : Dev) (q : Nat) (l : List Item) : (d.setQueue q l).latch = d.latch := rfl
@[simp] theorem Dev.setQueue_mem (d : Dev) (q : Nat) (l : List Item) : (d.setQueue q l).mem = d.mem := rfl
@[simp] theorem Dev.setQueue_cores (d : Dev) (q : Nat) (l : List Item) : (d.setQueue q l).cores = d.cores := rfl
@[simp] theorem Dev.setQueue_tasks (d : Dev) (q : Nat) (l : List Item) : (d.setQueue q l).tasks = d.tasks := rfl
@[simp] theorem Dev.setQueue_modeChange (d : Dev) (q : Nat) (l : List Item) : (d.setQueue q l).modeChange = d.modeChange := rfl
@[simp] theorem Dev.setQueue_keyPin (d : Dev) (q : Nat) (l : List Item) : (d.setQueue q l).keyPin = d.keyPin := rfl
@[simp] theorem Dev.setQueue_fullLoad (d : Dev) (q : Nat) (l : List Item) : (d.setQueue q l).fullLoad = d.fullLoad := rfl
@[simp] theorem Dev.setQueue_ang (d : Dev) (q : Nat) (l : List Item) : (d.setQueue q l).ang = d.ang := rfl
@[simp] theorem Dev.setQueue_time (d : Dev) (q : Nat) (l : List Item) : (d.setQueue q l).time = d.time := rfl
@[simp] theorem Dev.setQueue_net (d : Dev) (q : Nat) (l : List Item) : (d.setQueue q l).net = d.net := rfl
@[simp] theorem Dev.setQueue_can (d : Dev) (q : Nat) (l : List Item) : (d.setQueue q l).can = d.can := rfl
@[simp] theorem Dev.setQueue_units (d : Dev) (q : Nat) (l : List Item) : (d.setQueue q l).units = d.units := rfl
@[simp] theorem Dev.setQueue_msix (d : Dev) (q : Nat) (l : List Item) : (d.setQueue q l).msix = d.msix := rfl
@[simp] theorem Dev.setQueue_io (d : Dev) (q : Nat) (l : List Item) : (d.setQueue q l).io = d.io := rfl
@[simp] theorem Dev.setQueue_outs (d : Dev) (q : Nat) (l : List Item) : (d.setQueue q l).outs = d.outs := rfl
@[simp] theorem Dev.setQueue_plane (d : Dev) (q : Nat) (l : List Item) : (d.setQueue q l).plane = d.plane := rfl
@[simp] theorem Dev.setQueue_gooseBits (d : Dev) (q : Nat) (l : List Item) : (d.setQueue q l).gooseBits = d.gooseBits := rfl
@[simp] theorem Dev.setQueue_path (d : Dev) (q : Nat) (l : List Item) : (d.setQueue q l).path = d.path := rfl
@[simp] theorem Dev.setQueue_nvs (d : Dev) (q : Nat) (l : List Item) : (d.setQueue q l).nvs = d.nvs := rfl
@[simp] theorem Dev.setQueue_xch (d : Dev) (q : Nat) (l : List Item) : (d.setQueue q l).xch = d.xch := rfl
@[simp] theorem Dev.setQueue_hsb (d : Dev) (q : Nat) (l : List Item) : (d.setQueue q l).hsb = d.hsb := rfl
@[simp] theorem Dev.setQueue_stand (d : Dev) (q : Nat) (l : List Item) : (d.setQueue q l).stand = d.stand := rfl
@[simp] theorem Dev.setQueue_rtc (d : Dev) (q : Nat) (l : List Item) : (d.setQueue q l).rtc = d.rtc := rfl
@[simp] theorem Dev.setQueue_power (d : Dev) (q : Nat) (l : List Item) : (d.setQueue q l).power = d.power := rfl
@[simp] theorem Dev.setQueue_sec (d : Dev) (q : Nat) (l : List Item) : (d.setQueue q l).sec = d.sec := rfl
@[simp] theorem Dev.setQueue_flash (d : Dev) (q : Nat) (l : List Item) : (d.setQueue q l).flash = d.flash := rfl
@[simp] theorem Dev.setQueue_tap (d : Dev) (q : Nat) (l : List Item) : (d.setQueue q l).tap = d.tap := rfl
@[simp] theorem Dev.setQueue_host (d : Dev) (q : Nat) (l : List Item) : (d.setQueue q l).host = d.host := rfl
@[simp] theorem Dev.setQueue_formats (d : Dev) (q : Nat) (l : List Item) : (d.setQueue q l).formats = d.formats := rfl
@[simp] theorem Dev.setQueue_readData (d : Dev) (q : Nat) (l : List Item) : (d.setQueue q l).readData = d.readData := rfl
@[simp] theorem Dev.setQueue_outbox (d : Dev) (q : Nat) (l : List Item) : (d.setQueue q l).outbox = d.outbox := rfl
@[simp] theorem Dev.setQueue_freeNo (d : Dev) (q : Nat) (l : List Item) : (d.setQueue q l).freeNo = d.freeNo := rfl

@[simp] theorem Dev.setLatch_phase (d : Dev) (r : Requester) (off : Nat) (v : Word) : (d.setLatch r off v).phase = d.phase := rfl
@[simp] theorem Dev.setLatch_csr (d : Dev) (r : Requester) (off : Nat) (v : Word) : (d.setLatch r off v).csr = d.csr := rfl
@[simp] theorem Dev.setLatch_mem (d : Dev) (r : Requester) (off : Nat) (v : Word) : (d.setLatch r off v).mem = d.mem := rfl
@[simp] theorem Dev.setLatch_cores (d : Dev) (r : Requester) (off : Nat) (v : Word) : (d.setLatch r off v).cores = d.cores := rfl
@[simp] theorem Dev.setLatch_tasks (d : Dev) (r : Requester) (off : Nat) (v : Word) : (d.setLatch r off v).tasks = d.tasks := rfl
@[simp] theorem Dev.setLatch_modeChange (d : Dev) (r : Requester) (off : Nat) (v : Word) : (d.setLatch r off v).modeChange = d.modeChange := rfl
@[simp] theorem Dev.setLatch_keyPin (d : Dev) (r : Requester) (off : Nat) (v : Word) : (d.setLatch r off v).keyPin = d.keyPin := rfl
@[simp] theorem Dev.setLatch_fullLoad (d : Dev) (r : Requester) (off : Nat) (v : Word) : (d.setLatch r off v).fullLoad = d.fullLoad := rfl
@[simp] theorem Dev.setLatch_ang (d : Dev) (r : Requester) (off : Nat) (v : Word) : (d.setLatch r off v).ang = d.ang := rfl
@[simp] theorem Dev.setLatch_time (d : Dev) (r : Requester) (off : Nat) (v : Word) : (d.setLatch r off v).time = d.time := rfl
@[simp] theorem Dev.setLatch_net (d : Dev) (r : Requester) (off : Nat) (v : Word) : (d.setLatch r off v).net = d.net := rfl
@[simp] theorem Dev.setLatch_can (d : Dev) (r : Requester) (off : Nat) (v : Word) : (d.setLatch r off v).can = d.can := rfl
@[simp] theorem Dev.setLatch_queues (d : Dev) (r : Requester) (off : Nat) (v : Word) : (d.setLatch r off v).queues = d.queues := rfl
@[simp] theorem Dev.setLatch_units (d : Dev) (r : Requester) (off : Nat) (v : Word) : (d.setLatch r off v).units = d.units := rfl
@[simp] theorem Dev.setLatch_msix (d : Dev) (r : Requester) (off : Nat) (v : Word) : (d.setLatch r off v).msix = d.msix := rfl
@[simp] theorem Dev.setLatch_io (d : Dev) (r : Requester) (off : Nat) (v : Word) : (d.setLatch r off v).io = d.io := rfl
@[simp] theorem Dev.setLatch_outs (d : Dev) (r : Requester) (off : Nat) (v : Word) : (d.setLatch r off v).outs = d.outs := rfl
@[simp] theorem Dev.setLatch_plane (d : Dev) (r : Requester) (off : Nat) (v : Word) : (d.setLatch r off v).plane = d.plane := rfl
@[simp] theorem Dev.setLatch_gooseBits (d : Dev) (r : Requester) (off : Nat) (v : Word) : (d.setLatch r off v).gooseBits = d.gooseBits := rfl
@[simp] theorem Dev.setLatch_path (d : Dev) (r : Requester) (off : Nat) (v : Word) : (d.setLatch r off v).path = d.path := rfl
@[simp] theorem Dev.setLatch_nvs (d : Dev) (r : Requester) (off : Nat) (v : Word) : (d.setLatch r off v).nvs = d.nvs := rfl
@[simp] theorem Dev.setLatch_xch (d : Dev) (r : Requester) (off : Nat) (v : Word) : (d.setLatch r off v).xch = d.xch := rfl
@[simp] theorem Dev.setLatch_hsb (d : Dev) (r : Requester) (off : Nat) (v : Word) : (d.setLatch r off v).hsb = d.hsb := rfl
@[simp] theorem Dev.setLatch_stand (d : Dev) (r : Requester) (off : Nat) (v : Word) : (d.setLatch r off v).stand = d.stand := rfl
@[simp] theorem Dev.setLatch_rtc (d : Dev) (r : Requester) (off : Nat) (v : Word) : (d.setLatch r off v).rtc = d.rtc := rfl
@[simp] theorem Dev.setLatch_power (d : Dev) (r : Requester) (off : Nat) (v : Word) : (d.setLatch r off v).power = d.power := rfl
@[simp] theorem Dev.setLatch_sec (d : Dev) (r : Requester) (off : Nat) (v : Word) : (d.setLatch r off v).sec = d.sec := rfl
@[simp] theorem Dev.setLatch_flash (d : Dev) (r : Requester) (off : Nat) (v : Word) : (d.setLatch r off v).flash = d.flash := rfl
@[simp] theorem Dev.setLatch_tap (d : Dev) (r : Requester) (off : Nat) (v : Word) : (d.setLatch r off v).tap = d.tap := rfl
@[simp] theorem Dev.setLatch_host (d : Dev) (r : Requester) (off : Nat) (v : Word) : (d.setLatch r off v).host = d.host := rfl
@[simp] theorem Dev.setLatch_formats (d : Dev) (r : Requester) (off : Nat) (v : Word) : (d.setLatch r off v).formats = d.formats := rfl
@[simp] theorem Dev.setLatch_readData (d : Dev) (r : Requester) (off : Nat) (v : Word) : (d.setLatch r off v).readData = d.readData := rfl
@[simp] theorem Dev.setLatch_outbox (d : Dev) (r : Requester) (off : Nat) (v : Word) : (d.setLatch r off v).outbox = d.outbox := rfl
@[simp] theorem Dev.setLatch_freeNo (d : Dev) (r : Requester) (off : Nat) (v : Word) : (d.setLatch r off v).freeNo = d.freeNo := rfl

@[simp] theorem Dev.send_phase (d : Dev) (t : Nat) (m : Msg) : (d.send t m).phase = d.phase := rfl
@[simp] theorem Dev.send_csr (d : Dev) (t : Nat) (m : Msg) : (d.send t m).csr = d.csr := rfl
@[simp] theorem Dev.send_latch (d : Dev) (t : Nat) (m : Msg) : (d.send t m).latch = d.latch := rfl
@[simp] theorem Dev.send_mem (d : Dev) (t : Nat) (m : Msg) : (d.send t m).mem = d.mem := rfl
@[simp] theorem Dev.send_cores (d : Dev) (t : Nat) (m : Msg) : (d.send t m).cores = d.cores := rfl
@[simp] theorem Dev.send_tasks (d : Dev) (t : Nat) (m : Msg) : (d.send t m).tasks = d.tasks := rfl
@[simp] theorem Dev.send_modeChange (d : Dev) (t : Nat) (m : Msg) : (d.send t m).modeChange = d.modeChange := rfl
@[simp] theorem Dev.send_keyPin (d : Dev) (t : Nat) (m : Msg) : (d.send t m).keyPin = d.keyPin := rfl
@[simp] theorem Dev.send_fullLoad (d : Dev) (t : Nat) (m : Msg) : (d.send t m).fullLoad = d.fullLoad := rfl
@[simp] theorem Dev.send_ang (d : Dev) (t : Nat) (m : Msg) : (d.send t m).ang = d.ang := rfl
@[simp] theorem Dev.send_time (d : Dev) (t : Nat) (m : Msg) : (d.send t m).time = d.time := rfl
@[simp] theorem Dev.send_net (d : Dev) (t : Nat) (m : Msg) : (d.send t m).net = d.net := rfl
@[simp] theorem Dev.send_can (d : Dev) (t : Nat) (m : Msg) : (d.send t m).can = d.can := rfl
@[simp] theorem Dev.send_queues (d : Dev) (t : Nat) (m : Msg) : (d.send t m).queues = d.queues := rfl
@[simp] theorem Dev.send_units (d : Dev) (t : Nat) (m : Msg) : (d.send t m).units = d.units := rfl
@[simp] theorem Dev.send_msix (d : Dev) (t : Nat) (m : Msg) : (d.send t m).msix = d.msix := rfl
@[simp] theorem Dev.send_io (d : Dev) (t : Nat) (m : Msg) : (d.send t m).io = d.io := rfl
@[simp] theorem Dev.send_outs (d : Dev) (t : Nat) (m : Msg) : (d.send t m).outs = d.outs := rfl
@[simp] theorem Dev.send_plane (d : Dev) (t : Nat) (m : Msg) : (d.send t m).plane = d.plane := rfl
@[simp] theorem Dev.send_gooseBits (d : Dev) (t : Nat) (m : Msg) : (d.send t m).gooseBits = d.gooseBits := rfl
@[simp] theorem Dev.send_path (d : Dev) (t : Nat) (m : Msg) : (d.send t m).path = d.path := rfl
@[simp] theorem Dev.send_nvs (d : Dev) (t : Nat) (m : Msg) : (d.send t m).nvs = d.nvs := rfl
@[simp] theorem Dev.send_xch (d : Dev) (t : Nat) (m : Msg) : (d.send t m).xch = d.xch := rfl
@[simp] theorem Dev.send_hsb (d : Dev) (t : Nat) (m : Msg) : (d.send t m).hsb = d.hsb := rfl
@[simp] theorem Dev.send_stand (d : Dev) (t : Nat) (m : Msg) : (d.send t m).stand = d.stand := rfl
@[simp] theorem Dev.send_rtc (d : Dev) (t : Nat) (m : Msg) : (d.send t m).rtc = d.rtc := rfl
@[simp] theorem Dev.send_power (d : Dev) (t : Nat) (m : Msg) : (d.send t m).power = d.power := rfl
@[simp] theorem Dev.send_sec (d : Dev) (t : Nat) (m : Msg) : (d.send t m).sec = d.sec := rfl
@[simp] theorem Dev.send_flash (d : Dev) (t : Nat) (m : Msg) : (d.send t m).flash = d.flash := rfl
@[simp] theorem Dev.send_tap (d : Dev) (t : Nat) (m : Msg) : (d.send t m).tap = d.tap := rfl
@[simp] theorem Dev.send_host (d : Dev) (t : Nat) (m : Msg) : (d.send t m).host = d.host := rfl
@[simp] theorem Dev.send_formats (d : Dev) (t : Nat) (m : Msg) : (d.send t m).formats = d.formats := rfl
@[simp] theorem Dev.send_readData (d : Dev) (t : Nat) (m : Msg) : (d.send t m).readData = d.readData := rfl
@[simp] theorem Dev.send_freeNo (d : Dev) (t : Nat) (m : Msg) : (d.send t m).freeNo = d.freeNo := rfl

@[simp] theorem Dev.nextFree_phase (d : Dev) : (d.nextFree).phase = d.phase := rfl
@[simp] theorem Dev.nextFree_csr (d : Dev) : (d.nextFree).csr = d.csr := rfl
@[simp] theorem Dev.nextFree_latch (d : Dev) : (d.nextFree).latch = d.latch := rfl
@[simp] theorem Dev.nextFree_mem (d : Dev) : (d.nextFree).mem = d.mem := rfl
@[simp] theorem Dev.nextFree_cores (d : Dev) : (d.nextFree).cores = d.cores := rfl
@[simp] theorem Dev.nextFree_tasks (d : Dev) : (d.nextFree).tasks = d.tasks := rfl
@[simp] theorem Dev.nextFree_modeChange (d : Dev) : (d.nextFree).modeChange = d.modeChange := rfl
@[simp] theorem Dev.nextFree_keyPin (d : Dev) : (d.nextFree).keyPin = d.keyPin := rfl
@[simp] theorem Dev.nextFree_fullLoad (d : Dev) : (d.nextFree).fullLoad = d.fullLoad := rfl
@[simp] theorem Dev.nextFree_ang (d : Dev) : (d.nextFree).ang = d.ang := rfl
@[simp] theorem Dev.nextFree_time (d : Dev) : (d.nextFree).time = d.time := rfl
@[simp] theorem Dev.nextFree_net (d : Dev) : (d.nextFree).net = d.net := rfl
@[simp] theorem Dev.nextFree_can (d : Dev) : (d.nextFree).can = d.can := rfl
@[simp] theorem Dev.nextFree_queues (d : Dev) : (d.nextFree).queues = d.queues := rfl
@[simp] theorem Dev.nextFree_units (d : Dev) : (d.nextFree).units = d.units := rfl
@[simp] theorem Dev.nextFree_msix (d : Dev) : (d.nextFree).msix = d.msix := rfl
@[simp] theorem Dev.nextFree_io (d : Dev) : (d.nextFree).io = d.io := rfl
@[simp] theorem Dev.nextFree_outs (d : Dev) : (d.nextFree).outs = d.outs := rfl
@[simp] theorem Dev.nextFree_plane (d : Dev) : (d.nextFree).plane = d.plane := rfl
@[simp] theorem Dev.nextFree_gooseBits (d : Dev) : (d.nextFree).gooseBits = d.gooseBits := rfl
@[simp] theorem Dev.nextFree_path (d : Dev) : (d.nextFree).path = d.path := rfl
@[simp] theorem Dev.nextFree_nvs (d : Dev) : (d.nextFree).nvs = d.nvs := rfl
@[simp] theorem Dev.nextFree_xch (d : Dev) : (d.nextFree).xch = d.xch := rfl
@[simp] theorem Dev.nextFree_hsb (d : Dev) : (d.nextFree).hsb = d.hsb := rfl
@[simp] theorem Dev.nextFree_stand (d : Dev) : (d.nextFree).stand = d.stand := rfl
@[simp] theorem Dev.nextFree_rtc (d : Dev) : (d.nextFree).rtc = d.rtc := rfl
@[simp] theorem Dev.nextFree_power (d : Dev) : (d.nextFree).power = d.power := rfl
@[simp] theorem Dev.nextFree_sec (d : Dev) : (d.nextFree).sec = d.sec := rfl
@[simp] theorem Dev.nextFree_flash (d : Dev) : (d.nextFree).flash = d.flash := rfl
@[simp] theorem Dev.nextFree_tap (d : Dev) : (d.nextFree).tap = d.tap := rfl
@[simp] theorem Dev.nextFree_host (d : Dev) : (d.nextFree).host = d.host := rfl
@[simp] theorem Dev.nextFree_formats (d : Dev) : (d.nextFree).formats = d.formats := rfl
@[simp] theorem Dev.nextFree_readData (d : Dev) : (d.nextFree).readData = d.readData := rfl
@[simp] theorem Dev.nextFree_outbox (d : Dev) : (d.nextFree).outbox = d.outbox := rfl

@[simp] theorem Dev.touch_phase (d : Dev) : (d.touch).phase = d.phase := rfl
@[simp] theorem Dev.touch_csr (d : Dev) : (d.touch).csr = d.csr := rfl
@[simp] theorem Dev.touch_latch (d : Dev) : (d.touch).latch = d.latch := rfl
@[simp] theorem Dev.touch_mem (d : Dev) : (d.touch).mem = d.mem := rfl
@[simp] theorem Dev.touch_cores (d : Dev) : (d.touch).cores = d.cores := rfl
@[simp] theorem Dev.touch_tasks (d : Dev) : (d.touch).tasks = d.tasks := rfl
@[simp] theorem Dev.touch_modeChange (d : Dev) : (d.touch).modeChange = d.modeChange := rfl
@[simp] theorem Dev.touch_keyPin (d : Dev) : (d.touch).keyPin = d.keyPin := rfl
@[simp] theorem Dev.touch_fullLoad (d : Dev) : (d.touch).fullLoad = d.fullLoad := rfl
@[simp] theorem Dev.touch_ang (d : Dev) : (d.touch).ang = d.ang := rfl
@[simp] theorem Dev.touch_time (d : Dev) : (d.touch).time = d.time := rfl
@[simp] theorem Dev.touch_net (d : Dev) : (d.touch).net = d.net := rfl
@[simp] theorem Dev.touch_can (d : Dev) : (d.touch).can = d.can := rfl
@[simp] theorem Dev.touch_queues (d : Dev) : (d.touch).queues = d.queues := rfl
@[simp] theorem Dev.touch_msix (d : Dev) : (d.touch).msix = d.msix := rfl
@[simp] theorem Dev.touch_io (d : Dev) : (d.touch).io = d.io := rfl
@[simp] theorem Dev.touch_outs (d : Dev) : (d.touch).outs = d.outs := rfl
@[simp] theorem Dev.touch_plane (d : Dev) : (d.touch).plane = d.plane := rfl
@[simp] theorem Dev.touch_gooseBits (d : Dev) : (d.touch).gooseBits = d.gooseBits := rfl
@[simp] theorem Dev.touch_path (d : Dev) : (d.touch).path = d.path := rfl
@[simp] theorem Dev.touch_nvs (d : Dev) : (d.touch).nvs = d.nvs := rfl
@[simp] theorem Dev.touch_xch (d : Dev) : (d.touch).xch = d.xch := rfl
@[simp] theorem Dev.touch_hsb (d : Dev) : (d.touch).hsb = d.hsb := rfl
@[simp] theorem Dev.touch_stand (d : Dev) : (d.touch).stand = d.stand := rfl
@[simp] theorem Dev.touch_rtc (d : Dev) : (d.touch).rtc = d.rtc := rfl
@[simp] theorem Dev.touch_power (d : Dev) : (d.touch).power = d.power := rfl
@[simp] theorem Dev.touch_sec (d : Dev) : (d.touch).sec = d.sec := rfl
@[simp] theorem Dev.touch_flash (d : Dev) : (d.touch).flash = d.flash := rfl
@[simp] theorem Dev.touch_tap (d : Dev) : (d.touch).tap = d.tap := rfl
@[simp] theorem Dev.touch_host (d : Dev) : (d.touch).host = d.host := rfl
@[simp] theorem Dev.touch_formats (d : Dev) : (d.touch).formats = d.formats := rfl
@[simp] theorem Dev.touch_readData (d : Dev) : (d.touch).readData = d.readData := rfl
@[simp] theorem Dev.touch_outbox (d : Dev) : (d.touch).outbox = d.outbox := rfl
@[simp] theorem Dev.touch_freeNo (d : Dev) : (d.touch).freeNo = d.freeNo := rfl

@[simp] theorem Dev.touchOuts_phase (d : Dev) : (d.touchOuts).phase = d.phase := rfl
@[simp] theorem Dev.touchOuts_csr (d : Dev) : (d.touchOuts).csr = d.csr := rfl
@[simp] theorem Dev.touchOuts_latch (d : Dev) : (d.touchOuts).latch = d.latch := rfl
@[simp] theorem Dev.touchOuts_mem (d : Dev) : (d.touchOuts).mem = d.mem := rfl
@[simp] theorem Dev.touchOuts_cores (d : Dev) : (d.touchOuts).cores = d.cores := rfl
@[simp] theorem Dev.touchOuts_tasks (d : Dev) : (d.touchOuts).tasks = d.tasks := rfl
@[simp] theorem Dev.touchOuts_modeChange (d : Dev) : (d.touchOuts).modeChange = d.modeChange := rfl
@[simp] theorem Dev.touchOuts_keyPin (d : Dev) : (d.touchOuts).keyPin = d.keyPin := rfl
@[simp] theorem Dev.touchOuts_fullLoad (d : Dev) : (d.touchOuts).fullLoad = d.fullLoad := rfl
@[simp] theorem Dev.touchOuts_ang (d : Dev) : (d.touchOuts).ang = d.ang := rfl
@[simp] theorem Dev.touchOuts_time (d : Dev) : (d.touchOuts).time = d.time := rfl
@[simp] theorem Dev.touchOuts_net (d : Dev) : (d.touchOuts).net = d.net := rfl
@[simp] theorem Dev.touchOuts_can (d : Dev) : (d.touchOuts).can = d.can := rfl
@[simp] theorem Dev.touchOuts_queues (d : Dev) : (d.touchOuts).queues = d.queues := rfl
@[simp] theorem Dev.touchOuts_units (d : Dev) : (d.touchOuts).units = d.units := rfl
@[simp] theorem Dev.touchOuts_msix (d : Dev) : (d.touchOuts).msix = d.msix := rfl
@[simp] theorem Dev.touchOuts_io (d : Dev) : (d.touchOuts).io = d.io := rfl
@[simp] theorem Dev.touchOuts_plane (d : Dev) : (d.touchOuts).plane = d.plane := rfl
@[simp] theorem Dev.touchOuts_gooseBits (d : Dev) : (d.touchOuts).gooseBits = d.gooseBits := rfl
@[simp] theorem Dev.touchOuts_path (d : Dev) : (d.touchOuts).path = d.path := rfl
@[simp] theorem Dev.touchOuts_nvs (d : Dev) : (d.touchOuts).nvs = d.nvs := rfl
@[simp] theorem Dev.touchOuts_xch (d : Dev) : (d.touchOuts).xch = d.xch := rfl
@[simp] theorem Dev.touchOuts_hsb (d : Dev) : (d.touchOuts).hsb = d.hsb := rfl
@[simp] theorem Dev.touchOuts_stand (d : Dev) : (d.touchOuts).stand = d.stand := rfl
@[simp] theorem Dev.touchOuts_rtc (d : Dev) : (d.touchOuts).rtc = d.rtc := rfl
@[simp] theorem Dev.touchOuts_power (d : Dev) : (d.touchOuts).power = d.power := rfl
@[simp] theorem Dev.touchOuts_sec (d : Dev) : (d.touchOuts).sec = d.sec := rfl
@[simp] theorem Dev.touchOuts_flash (d : Dev) : (d.touchOuts).flash = d.flash := rfl
@[simp] theorem Dev.touchOuts_tap (d : Dev) : (d.touchOuts).tap = d.tap := rfl
@[simp] theorem Dev.touchOuts_host (d : Dev) : (d.touchOuts).host = d.host := rfl
@[simp] theorem Dev.touchOuts_formats (d : Dev) : (d.touchOuts).formats = d.formats := rfl
@[simp] theorem Dev.touchOuts_readData (d : Dev) : (d.touchOuts).readData = d.readData := rfl
@[simp] theorem Dev.touchOuts_outbox (d : Dev) : (d.touchOuts).outbox = d.outbox := rfl
@[simp] theorem Dev.touchOuts_freeNo (d : Dev) : (d.touchOuts).freeNo = d.freeNo := rfl

@[simp] theorem Dev.setReadback_phase (d : Dev) (n : Nat) (k : Readback) : (d.setReadback n k).phase = d.phase := rfl
@[simp] theorem Dev.setReadback_csr (d : Dev) (n : Nat) (k : Readback) : (d.setReadback n k).csr = d.csr := rfl
@[simp] theorem Dev.setReadback_latch (d : Dev) (n : Nat) (k : Readback) : (d.setReadback n k).latch = d.latch := rfl
@[simp] theorem Dev.setReadback_mem (d : Dev) (n : Nat) (k : Readback) : (d.setReadback n k).mem = d.mem := rfl
@[simp] theorem Dev.setReadback_cores (d : Dev) (n : Nat) (k : Readback) : (d.setReadback n k).cores = d.cores := rfl
@[simp] theorem Dev.setReadback_tasks (d : Dev) (n : Nat) (k : Readback) : (d.setReadback n k).tasks = d.tasks := rfl
@[simp] theorem Dev.setReadback_modeChange (d : Dev) (n : Nat) (k : Readback) : (d.setReadback n k).modeChange = d.modeChange := rfl
@[simp] theorem Dev.setReadback_keyPin (d : Dev) (n : Nat) (k : Readback) : (d.setReadback n k).keyPin = d.keyPin := rfl
@[simp] theorem Dev.setReadback_fullLoad (d : Dev) (n : Nat) (k : Readback) : (d.setReadback n k).fullLoad = d.fullLoad := rfl
@[simp] theorem Dev.setReadback_ang (d : Dev) (n : Nat) (k : Readback) : (d.setReadback n k).ang = d.ang := rfl
@[simp] theorem Dev.setReadback_time (d : Dev) (n : Nat) (k : Readback) : (d.setReadback n k).time = d.time := rfl
@[simp] theorem Dev.setReadback_net (d : Dev) (n : Nat) (k : Readback) : (d.setReadback n k).net = d.net := rfl
@[simp] theorem Dev.setReadback_can (d : Dev) (n : Nat) (k : Readback) : (d.setReadback n k).can = d.can := rfl
@[simp] theorem Dev.setReadback_queues (d : Dev) (n : Nat) (k : Readback) : (d.setReadback n k).queues = d.queues := rfl
@[simp] theorem Dev.setReadback_units (d : Dev) (n : Nat) (k : Readback) : (d.setReadback n k).units = d.units := rfl
@[simp] theorem Dev.setReadback_msix (d : Dev) (n : Nat) (k : Readback) : (d.setReadback n k).msix = d.msix := rfl
@[simp] theorem Dev.setReadback_outs (d : Dev) (n : Nat) (k : Readback) : (d.setReadback n k).outs = d.outs := rfl
@[simp] theorem Dev.setReadback_plane (d : Dev) (n : Nat) (k : Readback) : (d.setReadback n k).plane = d.plane := rfl
@[simp] theorem Dev.setReadback_gooseBits (d : Dev) (n : Nat) (k : Readback) : (d.setReadback n k).gooseBits = d.gooseBits := rfl
@[simp] theorem Dev.setReadback_path (d : Dev) (n : Nat) (k : Readback) : (d.setReadback n k).path = d.path := rfl
@[simp] theorem Dev.setReadback_nvs (d : Dev) (n : Nat) (k : Readback) : (d.setReadback n k).nvs = d.nvs := rfl
@[simp] theorem Dev.setReadback_xch (d : Dev) (n : Nat) (k : Readback) : (d.setReadback n k).xch = d.xch := rfl
@[simp] theorem Dev.setReadback_hsb (d : Dev) (n : Nat) (k : Readback) : (d.setReadback n k).hsb = d.hsb := rfl
@[simp] theorem Dev.setReadback_stand (d : Dev) (n : Nat) (k : Readback) : (d.setReadback n k).stand = d.stand := rfl
@[simp] theorem Dev.setReadback_rtc (d : Dev) (n : Nat) (k : Readback) : (d.setReadback n k).rtc = d.rtc := rfl
@[simp] theorem Dev.setReadback_power (d : Dev) (n : Nat) (k : Readback) : (d.setReadback n k).power = d.power := rfl
@[simp] theorem Dev.setReadback_sec (d : Dev) (n : Nat) (k : Readback) : (d.setReadback n k).sec = d.sec := rfl
@[simp] theorem Dev.setReadback_flash (d : Dev) (n : Nat) (k : Readback) : (d.setReadback n k).flash = d.flash := rfl
@[simp] theorem Dev.setReadback_tap (d : Dev) (n : Nat) (k : Readback) : (d.setReadback n k).tap = d.tap := rfl
@[simp] theorem Dev.setReadback_host (d : Dev) (n : Nat) (k : Readback) : (d.setReadback n k).host = d.host := rfl
@[simp] theorem Dev.setReadback_formats (d : Dev) (n : Nat) (k : Readback) : (d.setReadback n k).formats = d.formats := rfl
@[simp] theorem Dev.setReadback_readData (d : Dev) (n : Nat) (k : Readback) : (d.setReadback n k).readData = d.readData := rfl
@[simp] theorem Dev.setReadback_outbox (d : Dev) (n : Nat) (k : Readback) : (d.setReadback n k).outbox = d.outbox := rfl
@[simp] theorem Dev.setReadback_freeNo (d : Dev) (n : Nat) (k : Readback) : (d.setReadback n k).freeNo = d.freeNo := rfl

@[simp] theorem Dev.setMsgSent_phase (d : Dev) (i : Nat) (b : Bool) : (d.setMsgSent i b).phase = d.phase := rfl
@[simp] theorem Dev.setMsgSent_csr (d : Dev) (i : Nat) (b : Bool) : (d.setMsgSent i b).csr = d.csr := rfl
@[simp] theorem Dev.setMsgSent_latch (d : Dev) (i : Nat) (b : Bool) : (d.setMsgSent i b).latch = d.latch := rfl
@[simp] theorem Dev.setMsgSent_mem (d : Dev) (i : Nat) (b : Bool) : (d.setMsgSent i b).mem = d.mem := rfl
@[simp] theorem Dev.setMsgSent_cores (d : Dev) (i : Nat) (b : Bool) : (d.setMsgSent i b).cores = d.cores := rfl
@[simp] theorem Dev.setMsgSent_tasks (d : Dev) (i : Nat) (b : Bool) : (d.setMsgSent i b).tasks = d.tasks := rfl
@[simp] theorem Dev.setMsgSent_modeChange (d : Dev) (i : Nat) (b : Bool) : (d.setMsgSent i b).modeChange = d.modeChange := rfl
@[simp] theorem Dev.setMsgSent_keyPin (d : Dev) (i : Nat) (b : Bool) : (d.setMsgSent i b).keyPin = d.keyPin := rfl
@[simp] theorem Dev.setMsgSent_fullLoad (d : Dev) (i : Nat) (b : Bool) : (d.setMsgSent i b).fullLoad = d.fullLoad := rfl
@[simp] theorem Dev.setMsgSent_ang (d : Dev) (i : Nat) (b : Bool) : (d.setMsgSent i b).ang = d.ang := rfl
@[simp] theorem Dev.setMsgSent_time (d : Dev) (i : Nat) (b : Bool) : (d.setMsgSent i b).time = d.time := rfl
@[simp] theorem Dev.setMsgSent_net (d : Dev) (i : Nat) (b : Bool) : (d.setMsgSent i b).net = d.net := rfl
@[simp] theorem Dev.setMsgSent_can (d : Dev) (i : Nat) (b : Bool) : (d.setMsgSent i b).can = d.can := rfl
@[simp] theorem Dev.setMsgSent_queues (d : Dev) (i : Nat) (b : Bool) : (d.setMsgSent i b).queues = d.queues := rfl
@[simp] theorem Dev.setMsgSent_units (d : Dev) (i : Nat) (b : Bool) : (d.setMsgSent i b).units = d.units := rfl
@[simp] theorem Dev.setMsgSent_io (d : Dev) (i : Nat) (b : Bool) : (d.setMsgSent i b).io = d.io := rfl
@[simp] theorem Dev.setMsgSent_outs (d : Dev) (i : Nat) (b : Bool) : (d.setMsgSent i b).outs = d.outs := rfl
@[simp] theorem Dev.setMsgSent_plane (d : Dev) (i : Nat) (b : Bool) : (d.setMsgSent i b).plane = d.plane := rfl
@[simp] theorem Dev.setMsgSent_gooseBits (d : Dev) (i : Nat) (b : Bool) : (d.setMsgSent i b).gooseBits = d.gooseBits := rfl
@[simp] theorem Dev.setMsgSent_path (d : Dev) (i : Nat) (b : Bool) : (d.setMsgSent i b).path = d.path := rfl
@[simp] theorem Dev.setMsgSent_nvs (d : Dev) (i : Nat) (b : Bool) : (d.setMsgSent i b).nvs = d.nvs := rfl
@[simp] theorem Dev.setMsgSent_xch (d : Dev) (i : Nat) (b : Bool) : (d.setMsgSent i b).xch = d.xch := rfl
@[simp] theorem Dev.setMsgSent_hsb (d : Dev) (i : Nat) (b : Bool) : (d.setMsgSent i b).hsb = d.hsb := rfl
@[simp] theorem Dev.setMsgSent_stand (d : Dev) (i : Nat) (b : Bool) : (d.setMsgSent i b).stand = d.stand := rfl
@[simp] theorem Dev.setMsgSent_rtc (d : Dev) (i : Nat) (b : Bool) : (d.setMsgSent i b).rtc = d.rtc := rfl
@[simp] theorem Dev.setMsgSent_power (d : Dev) (i : Nat) (b : Bool) : (d.setMsgSent i b).power = d.power := rfl
@[simp] theorem Dev.setMsgSent_sec (d : Dev) (i : Nat) (b : Bool) : (d.setMsgSent i b).sec = d.sec := rfl
@[simp] theorem Dev.setMsgSent_flash (d : Dev) (i : Nat) (b : Bool) : (d.setMsgSent i b).flash = d.flash := rfl
@[simp] theorem Dev.setMsgSent_tap (d : Dev) (i : Nat) (b : Bool) : (d.setMsgSent i b).tap = d.tap := rfl
@[simp] theorem Dev.setMsgSent_host (d : Dev) (i : Nat) (b : Bool) : (d.setMsgSent i b).host = d.host := rfl
@[simp] theorem Dev.setMsgSent_formats (d : Dev) (i : Nat) (b : Bool) : (d.setMsgSent i b).formats = d.formats := rfl
@[simp] theorem Dev.setMsgSent_readData (d : Dev) (i : Nat) (b : Bool) : (d.setMsgSent i b).readData = d.readData := rfl
@[simp] theorem Dev.setMsgSent_outbox (d : Dev) (i : Nat) (b : Bool) : (d.setMsgSent i b).outbox = d.outbox := rfl
@[simp] theorem Dev.setMsgSent_freeNo (d : Dev) (i : Nat) (b : Bool) : (d.setMsgSent i b).freeNo = d.freeNo := rfl

end Sys2Proof.Machine
end

