-- ==== Sys2Proof/Laws/Regs.lean ====
section
/-!
SUPPORT. What a register, a field, a bit, a core, a bank, a task and a queue hold after one of them has been written.
-/
namespace Sys2Proof.Machine

theorem Dev.rd_wr_same (d : Dev) (off : Nat) (v : Word) : (d.wr off v).rd off = v :=
  Sparse.get_set_same _ _ _ _

theorem Dev.rd_wr_ne (d : Dev) {off o : Nat} (v : Word) (h : o ≠ off) : (d.wr off v).rd o = d.rd o :=
  Sparse.get_set_ne _ _ _ h

theorem Dev.rd_wr (d : Dev) (off o : Nat) (v : Word) : (d.wr off v).rd o = if o = off then v else d.rd o := by
  split
  · subst_vars; exact Dev.rd_wr_same _ _ _
  · exact Dev.rd_wr_ne _ _ ‹_›

/-- Two devices with the same register file read the same. -/
theorem Dev.rd_of_csr {d e : Dev} (h : d.csr = e.csr) (o : Nat) : d.rd o = e.rd o := by simp [Dev.rd, h]

/-! ## Fields -/

/-- Bit i of a word with bits hi to lo replaced. -/
theorem getLsbD_putBits (w : Word) {hi lo : Nat} (n i : Nat) (hlo : lo ≤ hi) (hhi : hi < 32) :
    (putBits w hi lo n).getLsbD i = if lo ≤ i ∧ i ≤ hi then n.testBit (i - lo) else w.getLsbD i := by
  have hm : ∀ j, (fieldMask hi lo).getLsbD j = (decide (lo ≤ j) && decide (j ≤ hi)) := by
    intro j
    simp only [fieldMask, BitVec.getLsbD_ofNat, Nat.testBit_mul_two_pow, Nat.testBit_two_pow_sub_one]
    by_cases h1 : lo ≤ j <;> by_cases h2 : j ≤ hi <;> simp [h1, h2] <;> omega
  by_cases hi32 : i < 32
  · simp only [putBits, BitVec.getLsbD_or, BitVec.getLsbD_and, BitVec.getLsbD_not, hm, BitVec.getLsbD_ofNat, hi32,
      decide_true, Bool.true_and, Nat.testBit_mul_two_pow, Nat.testBit_mod_two_pow]
    by_cases h1 : lo ≤ i <;> by_cases h2 : i ≤ hi <;> simp [h1, h2]
    · intro h; omega
    · intro _ h; omega
  · have : ¬ i ≤ hi := by omega
    rw [if_neg (by omega), BitVec.getLsbD_of_ge _ i (by omega), BitVec.getLsbD_of_ge _ i (by omega)]

theorem testBit_bitsOf (x hi lo i : Nat) :
    (bitsOf x hi lo).testBit i = (decide (i < hi + 1 - lo) && x.testBit (lo + i)) := by
  simp [bitsOf, Nat.testBit_mod_two_pow, Nat.testBit_div_two_pow, Nat.add_comm]

/-- A field just written reads back, cut to its width. -/
theorem bitsOf_putBits_same (w : Word) {hi lo : Nat} (n : Nat) (hlo : lo ≤ hi) (hhi : hi < 32) :
    bitsOf (putBits w hi lo n).toNat hi lo = n % 2 ^ (hi + 1 - lo) := by
  apply Nat.eq_of_testBit_eq
  intro i
  rw [testBit_bitsOf, Nat.testBit_mod_two_pow]
  by_cases h : i < hi + 1 - lo
  · have := getLsbD_putBits w n (lo + i) hlo hhi
    simp only [BitVec.getLsbD] at this
    rw [this, if_pos (by omega)]
    simp [h]
  · simp [h]

/-- A write of a field leaves every bit outside it. -/
theorem bitsOf_putBits_ne (w : Word) {hi lo h l : Nat} (n : Nat) (hlo : lo ≤ hi) (hhi : hi < 32)
    (hd : h < lo ∨ hi < l) : bitsOf (putBits w hi lo n).toNat h l = bitsOf w.toNat h l := by
  apply Nat.eq_of_testBit_eq
  intro i
  rw [testBit_bitsOf, testBit_bitsOf]
  by_cases hi' : i < h + 1 - l
  · have := getLsbD_putBits w n (l + i) hlo hhi
    simp only [BitVec.getLsbD] at this
    rw [this, if_neg (by omega)]
  · simp [hi']

theorem Dev.fld_setFld_same (d : Dev) (f : Fld) (n : Nat) (hlo : f.lo ≤ f.hi) (hhi : f.hi < 32) :
    (d.setFld f n).fld f = n % 2 ^ (f.hi + 1 - f.lo) := by
  simp only [Dev.fld, Dev.setFld, Dev.rd_wr_same]
  exact bitsOf_putBits_same _ _ hlo hhi

theorem Dev.fld_setFld_off (d : Dev) {f g : Fld} (n : Nat) (h : g.off ≠ f.off) : (d.setFld f n).fld g = d.fld g := by
  simp only [Dev.fld, Dev.setFld, Dev.rd_wr_ne _ _ h]

theorem Dev.fld_setFld_bits (d : Dev) {f g : Fld} (n : Nat) (hlo : f.lo ≤ f.hi) (hhi : f.hi < 32)
    (h : g.hi < f.lo ∨ f.hi < g.lo) : (d.setFld f n).fld g = d.fld g := by
  by_cases ho : g.off = f.off
  · simp only [Dev.fld, Dev.setFld, ho, Dev.rd_wr_same]
    exact bitsOf_putBits_ne _ _ hlo hhi h
  · exact Dev.fld_setFld_off d n ho

theorem Dev.fld_wr_ne (d : Dev) {off : Nat} {f : Fld} (v : Word) (h : f.off ≠ off) : (d.wr off v).fld f = d.fld f := by
  simp only [Dev.fld, Dev.rd_wr_ne _ _ h]

theorem Dev.rd_setFld_ne (d : Dev) {f : Fld} {o : Nat} (n : Nat) (h : o ≠ f.off) : (d.setFld f n).rd o = d.rd o :=
  Dev.rd_wr_ne _ _ h

theorem Dev.fld_of_csr {d e : Dev} (h : d.csr = e.csr) (f : Fld) : d.fld f = e.fld f := by simp [Dev.fld, Dev.rd, h]

theorem bitOf_eq_testBit (x i : Nat) : bitOf x i = x.testBit i := by
  simp [bitOf, Nat.testBit_eq_decide_div_mod_eq, Bool.beq_eq_decide_eq]

theorem Dev.bit_setBit_same (d : Dev) (off : Nat) {i : Nat} (b : Bool) (h : i < 32) : (d.setBit off i b).bit off i = b := by
  have := getLsbD_putBits (d.rd off) (b2n b) i (Nat.le_refl i) h
  simp only [Dev.bit, Dev.setBit, Dev.rd_wr_same, bitOf_eq_testBit]
  simp only [BitVec.getLsbD] at this
  rw [this]; cases b <;> simp [b2n]

theorem Dev.bit_setBit_ne (d : Dev) {off o i j : Nat} (b : Bool) (hi : i < 32) (h : o ≠ off ∨ j ≠ i) :
    (d.setBit off i b).bit o j = d.bit o j := by
  by_cases ho : o = off
  · subst ho
    have := getLsbD_putBits (d.rd o) (b2n b) j (Nat.le_refl i) hi
    simp only [Dev.bit, Dev.setBit, Dev.rd_wr_same, bitOf_eq_testBit]
    simp only [BitVec.getLsbD] at this
    rw [this, if_neg (by omega)]
  · simp only [Dev.bit, Dev.setBit, Dev.rd_wr_ne _ _ ho]

theorem Dev.rd_setBit_ne (d : Dev) {off o : Nat} (i : Nat) (b : Bool) (h : o ≠ off) : (d.setBit off i b).rd o = d.rd o :=
  Dev.rd_wr_ne _ _ h

theorem Dev.maskBit_setMaskBit_same (d : Dev) (off n : Nat) (b : Bool) : (d.setMaskBit off n b).maskBit off n = b :=
  Dev.bit_setBit_same _ _ _ (Nat.mod_lt _ (by decide))

theorem Dev.maskBit_setMaskBit_ne (d : Dev) (off : Nat) {n m : Nat} (b : Bool) (h : m ≠ n) :
    (d.setMaskBit off n b).maskBit off m = d.maskBit off m := by
  refine Dev.bit_setBit_ne _ _ (Nat.mod_lt _ (by decide)) ?_
  by_cases hd : m / 32 = n / 32
  · right; omega
  · left; omega

/-! ## Cores, banks, tasks and queues -/

@[simp] theorem Dev.core_setCore_same (d : Dev) (c : Nat) (k : Core) : (d.setCore c k).core c = k :=
  Sparse.get_set_same _ _ _ _

theorem Dev.core_setCore_ne (d : Dev) {c e : Nat} (k : Core) (h : e ≠ c) : (d.setCore c k).core e = d.core e :=
  Sparse.get_set_ne _ _ _ h

@[simp] theorem Dev.bank_setBank_same (d : Dev) (c b : Nat) (k : Bank) : (d.setBank c b k).bank c b = k := by
  simp only [Dev.bank, Dev.setBank, Dev.core_setCore_same, Core.bank]
  exact Sparse.get_set_same _ _ _ _

theorem Dev.bank_setBank_ne (d : Dev) {c b e j : Nat} (k : Bank) (h : e ≠ c ∨ j ≠ b) :
    (d.setBank c b k).bank e j = d.bank e j := by
  by_cases he : e = c
  · subst he
    simp only [Dev.bank, Dev.setBank, Dev.core_setCore_same, Core.bank]
    exact Sparse.get_set_ne _ _ _ (h.resolve_left (fun e => e rfl))
  · simp only [Dev.bank, Dev.setBank, Dev.core_setCore_ne _ _ he]

theorem Dev.core_setBank_ne (d : Dev) {c e : Nat} (b : Nat) (k : Bank) (h : e ≠ c) :
    (d.setBank c b k).core e = d.core e := Dev.core_setCore_ne _ _ h

@[simp] theorem Dev.time_setBank (d : Dev) (c b e : Nat) (k : Bank) :
    ((d.setBank c b k).core e).time = (d.core e).time := by
  by_cases h : e = c
  · subst h; simp [Dev.setBank]
  · rw [Dev.core_setBank_ne _ _ _ h]

@[simp] theorem Dev.runs_setBank (d : Dev) (c b e : Nat) (k : Bank) :
    ((d.setBank c b k).core e).runs = (d.core e).runs := by
  by_cases h : e = c
  · subst h; simp [Dev.setBank]
  · rw [Dev.core_setBank_ne _ _ _ h]

@[simp] theorem Dev.waiting_setBank (d : Dev) (c b e : Nat) (k : Bank) :
    ((d.setBank c b k).core e).waiting = (d.core e).waiting := by
  by_cases h : e = c
  · subst h; simp [Dev.setBank]
  · rw [Dev.core_setBank_ne _ _ _ h]

@[simp] theorem Dev.task_setTask_same (d : Dev) (n : Nat) (k : Task) : (d.setTask n k).task n = k :=
  Sparse.get_set_same _ _ _ _

theorem Dev.task_setTask_ne (d : Dev) {n m : Nat} (k : Task) (h : m ≠ n) : (d.setTask n k).task m = d.task m :=
  Sparse.get_set_ne _ _ _ h

@[simp] theorem Dev.queue_setQueue_same (d : Dev) (q : Nat) (l : List Item) : (d.setQueue q l).queue q = l :=
  Sparse.get_set_same _ _ _ _

theorem Dev.queue_setQueue_ne (d : Dev) {q p : Nat} (l : List Item) (h : p ≠ q) : (d.setQueue q l).queue p = d.queue p :=
  Sparse.get_set_ne _ _ _ h

theorem Dev.core_of_cores {d e : Dev} (h : d.cores = e.cores) (c : Nat) : d.core c = e.core c := by simp [Dev.core, h]
theorem Dev.task_of_tasks {d e : Dev} (h : d.tasks = e.tasks) (n : Nat) : d.task n = e.task n := by simp [Dev.task, h]
theorem Dev.queue_of_queues {d e : Dev} (h : d.queues = e.queues) (q : Nat) : d.queue q = e.queue q := by
  simp [Dev.queue, h]

end Sys2Proof.Machine
end

