-- ==== Sys2Proof/Laws/Keeps.lean ====
section
/-!
SUPPORT. What the operations around every command leave as it was. Each law is stated for any view φ of the device that
does not look at what the operation may change; a view is a field, a register, a part of either.
-/
namespace Sys2Proof.Machine

/-- The view φ does not look at the named field. -/
abbrev Ign.units {X : Type} (φ : Dev → X) : Prop := ∀ (d : Dev) v, φ { d with units := v } = φ d
abbrev Ign.outs {X : Type} (φ : Dev → X) : Prop := ∀ (d : Dev) v, φ { d with outs := v } = φ d
abbrev Ign.back {X : Type} (φ : Dev → X) : Prop := ∀ (d : Dev) v, φ { d with io := { d.io with readback := v } } = φ d
abbrev Ign.outbox {X : Type} (φ : Dev → X) : Prop := ∀ (d : Dev) v, φ { d with outbox := v } = φ d
abbrev Ign.cores {X : Type} (φ : Dev → X) : Prop := ∀ (d : Dev) v, φ { d with cores := v } = φ d
abbrev Ign.nvs {X : Type} (φ : Dev → X) : Prop := ∀ (d : Dev) v, φ { d with nvs := v } = φ d
abbrev Ign.nvsMem {X : Type} (φ : Dev → X) : Prop :=
  ∀ (d : Dev) v, φ { d with mem := { d.mem with nvs := v } } = φ d

/-- The view φ does not look at the register at an offset. -/
abbrev Ign.reg {X : Type} (φ : Dev → X) (off : Nat) : Prop := ∀ (d : Dev) v, φ (d.wr off v) = φ d

theorem foldl_keeps {X α : Type} (φ : Dev → X) (g : Dev → α → Dev) (h : ∀ d a, φ (g d a) = φ d) (l : List α) (d : Dev) :
    φ (l.foldl g d) = φ d := by
  induction l generalizing d with
  | nil => rfl
  | cons a l ih => rw [List.foldl_cons, ih, h]

theorem forN_keeps {X : Type} (φ : Dev → X) (n : Nat) (g : Nat → Dev → Dev) (h : ∀ a d, φ (g a d) = φ d) (d : Dev) :
    φ (forN n g d) = φ d := by
  unfold forN; exact foldl_keeps φ _ (fun d a => h a d) _ _

/-! ## Units -/

theorem Dev.seeUnit_keeps {X : Type} (φ : Dev → X) (hu : Ign.units φ) (d : Dev) (u : Nat) : φ (d.seeUnit u) = φ d := by
  unfold Dev.seeUnit; simp only [apply_ite φ, hu, ite_self]

/-- What follows a command changes the CHANGE counts and INT_FIRST only. -/
theorem Dev.settle_keeps {X : Type} (φ : Dev → X) (hu : Ign.units φ) (hi : Ign.reg φ Reg.INT_FIRST) (d : Dev) :
    φ d.settle = φ d := by
  have hf : ∀ e : Dev, φ e.firstFollows = φ e := fun e => by
    unfold Dev.firstFollows; split
    · exact hi e _
    · rfl
  unfold Dev.settle
  simp only [apply_ite φ, hf, hu, foldl_keeps φ Dev.seeUnit (Dev.seeUnit_keeps φ hu), ite_self]

/-! ## From the output image to the pads -/

theorem Dev.combine_keeps {X : Type} (φ : Dev → X) (ho : Ign.outs φ) (d : Dev) (x : Nat) : φ (d.combine x) = φ d := by
  unfold Dev.combine; simp only [apply_ite φ, ho, ite_self]

theorem Dev.flushT_keeps {X : Type} (φ : Dev → X) (ho : Ign.outs φ) (d : Dev) (t : Nat) : φ (d.flushT t) = φ d := by
  unfold Dev.flushT
  exact foldl_keeps φ _ (fun d p => by simp only [apply_ite φ, Dev.combine_keeps φ ho, ho, ite_self]) _ _

theorem Dev.setReadback_keeps {X : Type} (φ : Dev → X) (hi : Ign.back φ) (d : Dev) (n : Nat) (k : Readback) :
    φ (d.setReadback n k) = φ d := hi _ _

theorem Dev.compareBack_keeps {X : Type} (φ : Dev → X) (hi : Ign.back φ) (d : Dev) (t n : Nat) :
    φ (d.compareBack t n) = φ d := by
  unfold Dev.compareBack
  dsimp only
  split
  · split
    · rfl
    · exact hi _ _
  · exact hi _ _

theorem Dev.setPads_keeps {X : Type} (φ : Dev → X) (hi : Ign.back φ) (hb : Ign.outbox φ) (h0 : Ign.reg φ Reg.BIO_BO0)
    (h1 : Ign.reg φ Reg.BIO_BO1) (d : Dev) (t : Nat) (v : Word64) : φ (d.setPads t v) = φ d := by
  have hs : ∀ n (e : Dev), φ (e.suspendBack t n) = φ e := fun n e => by
    unfold Dev.suspendBack; exact (Dev.compareBack_keeps φ hi _ _ _).trans (hi _ _)
  unfold Dev.setPads
  dsimp only
  rw [forN_keeps φ 32 _ (fun n e => by simp only [apply_ite φ, hs, ite_self])]
  split
  · exact (h1 _ _).trans (h0 _ _)
  · exact (hb _ _).trans ((h1 _ _).trans (h0 _ _))

theorem Dev.flushPads_keeps {X : Type} (φ : Dev → X) (ho : Ign.outs φ) (hi : Ign.back φ) (hb : Ign.outbox φ)
    (h0 : Ign.reg φ Reg.BIO_BO0) (h1 : Ign.reg φ Reg.BIO_BO1) (d : Dev) (t : Nat) : φ (d.flushPads t) = φ d := by
  unfold Dev.flushPads
  dsimp only
  rw [foldl_keeps φ _ (fun d p => by
    simp only [apply_ite φ, Dev.setPads_keeps φ hi hb h0 h1, ho, ite_self]), Dev.flushT_keeps φ ho]

/-- What follows a command at the outputs changes the pads, their pipeline and the readback comparison only. -/
theorem Dev.settleOuts_keeps {X : Type} (φ : Dev → X) (ho : Ign.outs φ) (hi : Ign.back φ) (hb : Ign.outbox φ)
    (h0 : Ign.reg φ Reg.BIO_BO0) (h1 : Ign.reg φ Reg.BIO_BO1) (d : Dev) (t : Nat) : φ (d.settleOuts t) = φ d := by
  unfold Dev.settleOuts
  simp only [apply_ite φ, Dev.flushPads_keeps φ ho hi hb h0 h1, Dev.combine_keeps φ ho, Dev.flushT_keeps φ ho, ho, ite_self]

/-! ## NVS writes that end -/

theorem Dev.nvsOp_keeps {X : Type} (φ : Dev → X) (hm : Ign.nvsMem φ) (hw : Ign.reg φ Reg.NVS_WRCNT)
    (hh : Ign.reg φ Reg.NVS_JHEAD) (hs : Ign.reg φ Reg.NVS_JSLOT) (d : Dev) (o : NvsOp) : φ (d.nvsOp o) = φ d := by
  cases o with
  | bytes off l => exact (hw _ _).trans (hm _ _)
  | head num slot => exact (hs _ _).trans (hh _ _)

/-- The end of NVS writes changes retained memory and the registers of the NVS controller only. -/
theorem Dev.nvsFlush_keeps {X : Type} (φ : Dev → X) (hn : Ign.nvs φ) (hm : Ign.nvsMem φ) (hw : Ign.reg φ Reg.NVS_WRCNT)
    (hh : Ign.reg φ Reg.NVS_JHEAD) (hs : Ign.reg φ Reg.NVS_JSLOT) (d : Dev) (t : Nat) : φ (d.nvsFlush t) = φ d := by
  unfold Dev.nvsFlush
  exact foldl_keeps φ _ (fun d p => by
    simp only [apply_ite φ, Dev.nvsOp_keeps φ hm hw hh hs, hn, ite_self]) _ _

/-! ## What follows the clock -/

/-- The view φ does not look at what an event may change: registers, units, outputs, what leaves the device, MSI-X, tasks,
queues, and what the NVS controller writes. -/
structure Apart {X : Type} (φ : Dev → X) : Prop where
  csr : ∀ (d : Dev) v, φ { d with csr := v } = φ d
  units : Ign.units φ
  outs : Ign.outs φ
  outbox : Ign.outbox φ
  msix : ∀ (d : Dev) v, φ { d with msix := v } = φ d
  tasks : ∀ (d : Dev) v, φ { d with tasks := v } = φ d
  queues : ∀ (d : Dev) v, φ { d with queues := v } = φ d
  nvs : Ign.nvs φ
  nvsMem : Ign.nvsMem φ

theorem Apart.wr {X : Type} {φ : Dev → X} (h : Apart φ) (d : Dev) (off : Nat) (v : Word) : φ (d.wr off v) = φ d := h.csr _ _

/-- A raise changes registers, units, MSI-X, tasks and what leaves the device only. -/
theorem Dev.raise_keeps {X : Type} (φ : Dev → X) (h : Apart φ) (d : Dev) (t i : Nat) : φ (d.raise t i) = φ d := by
  have hm (e : Dev) (b : Bool) : φ (e.setMsgSent i b) = φ e := h.msix _ _
  have hs (e : Dev) : φ (e.msixSend t i) = φ e := by
    unfold Dev.msixSend
    split
    · dsimp only
      split
      · exact (h.msix _ _).trans (hm _ _)
      · exact (h.outbox _ _).trans (hm _ _)
    · rfl
  have ha (e : Dev) : φ (e.armTasks t i) = φ e := by
    unfold Dev.armTasks
    exact foldl_keeps φ _ (fun d n => by
      split
      · exact h.tasks _ _
      · rfl) _ _
  have ht (e : Dev) : φ e.touch = φ e := h.units _ _
  have hn (e : Dev) : φ (e.noteRaised i) = φ e := h.units _ _
  have hf (e : Dev) (f : Fld) (n : Nat) : φ (e.setFld f n) = φ e := h.wr _ _ _
  have hi (e : Dev) (f : Fld) : φ (e.incFld f) = φ e := h.wr _ _ _
  have hb (e : Dev) (off n : Nat) (b : Bool) : φ (e.setMaskBit off n b) = φ e := h.wr _ _ _
  unfold Dev.raise
  dsimp only
  rw [ha]
  simp only [apply_ite φ, hs, hm, ht, hn, hf, hi, hb, ite_self]

/-- An SOE entry changes registers and the queues only. -/
theorem Dev.soe_keeps {X : Type} (φ : Dev → X) (h : Apart φ) (d : Dev) (t type srcid value aux : Nat) :
    φ (d.soe t type srcid value aux) = φ d := by
  unfold Dev.soe Dev.soeAt
  split
  · dsimp only
    split
    · exact (h.wr _ _ _).trans (h.wr _ _ _)
    · exact (h.queues _ _).trans (h.wr _ _ _)
  · rfl

/-- A change of F changes registers, units, outputs, MSI-X, tasks, queues and what leaves the device only. -/
theorem Dev.flushF_keeps {X : Type} (φ : Dev → X) (h : Apart φ) (d : Dev) (t : Nat) : φ (d.flushF t) = φ d := by
  have hf (e : Dev) (x k : Nat) (v : Bool) : φ (e.setF x k v) = φ e := by
    unfold Dev.setF Dev.raiseFlag Dev.setBit Dev.setMaskBit Dev.setBit
    dsimp only
    rw [Dev.combine_keeps φ h.outs, Dev.raise_keeps φ h, h.wr, Dev.soe_keeps φ h, h.wr, Dev.flushT_keeps φ h.outs]
  unfold Dev.flushF
  exact foldl_keeps φ _ (fun d p => by
    simp only [apply_ite φ, hf, h.outs, ite_self]) _ _

/-- The end of a fabric cycle changes the queues and what they count only. -/
theorem Dev.queuesTo_keeps {X : Type} (φ : Dev → X) (h : Apart φ) (d : Dev) (t : Nat) : φ (d.queuesTo t) = φ d := by
  have hs : φ d.servePushes = φ d := by
    unfold Dev.servePushes
    exact (foldl_keeps φ _ (fun d x => by
      unfold Dev.storeItem
      dsimp only
      split
      · exact h.queues _ _
      · exact (h.wr _ _ _).trans (h.queues _ _)) _ _).trans (h.queues _ _)
  unfold Dev.queuesTo
  split
  · rfl
  · exact (h.queues _ _).trans hs

/-- What MONO brings by itself. -/
theorem Dev.upTo_keeps {X : Type} (φ : Dev → X) (h : Apart φ) (d : Dev) (t : Nat) : φ (d.upTo t) = φ d := by
  unfold Dev.upTo
  rw [Dev.flushF_keeps φ h, Dev.queuesTo_keeps φ h]
  exact Dev.nvsFlush_keeps φ h.nvs h.nvsMem (h.wr · _) (h.wr · _) (h.wr · _) _ _

/-! ## Ticks -/

/-- R56: ticks change the core and TSK_USED of the task only. -/
theorem Dev.charge_keeps {X : Type} (φ : Dev → X) (hc : Ign.cores φ) (n : Nat) (hu : Ign.reg φ (Reg.TSK_USED n)) (d : Dev)
    (c k : Nat) : φ (d.charge c n k) = φ d :=
  (hu _ _).trans (hc _ _)

@[simp] theorem Core.rollBusy_time (k : Core) (n : Nat) : (k.rollBusy n).time = k.time := by
  unfold Core.rollBusy; split <;> rfl
@[simp] theorem Core.rollBusy_runs (k : Core) (n : Nat) : (k.rollBusy n).runs = k.runs := by
  unfold Core.rollBusy; split <;> rfl
@[simp] theorem Core.rollBusy_banks (k : Core) (n : Nat) : (k.rollBusy n).banks = k.banks := by
  unfold Core.rollBusy; split <;> rfl
@[simp] theorem Core.rollBusy_waiting (k : Core) (n : Nat) : (k.rollBusy n).waiting = k.waiting := by
  unfold Core.rollBusy; split <;> rfl

/-- A core's ticks pass at its end; its runs and its banks stay. -/
@[simp] theorem Core.spend_time (k : Core) (n : Nat) : (k.spend n).time = k.time + n := by
  unfold Core.spend; dsimp only; split <;> simp
@[simp] theorem Core.spend_runs (k : Core) (n : Nat) : (k.spend n).runs = k.runs := by
  unfold Core.spend; dsimp only; split <;> simp
@[simp] theorem Core.spend_banks (k : Core) (n : Nat) : (k.spend n).banks = k.banks := by
  unfold Core.spend; dsimp only; split <;> simp
@[simp] theorem Core.spend_waiting (k : Core) (n : Nat) : (k.spend n).waiting = k.waiting := by
  unfold Core.spend; dsimp only; split <;> simp

end Sys2Proof.Machine
end

