-- ==== Sys2Proof/Laws/Core.lean ====
section
/-!
SUPPORT. How a scan-core instruction runs: the one law that every instruction follows, for any body that neither ends the
run nor branches away from it, and its form for bodies that change the run's bank only.
-/
namespace Sys2Proof.Machine

theorem Dev.charge_core (d : Dev) (c n k : Nat) : (d.charge c n k).core c = (d.core c).spend k := by
  simp [Dev.charge, Dev.core_of_cores (Dev.wr_cores _ _ _)]

theorem Dev.charge_core_ne (d : Dev) {c e : Nat} (n k : Nat) (h : e ≠ c) : (d.charge c n k).core e = d.core e := by
  simp [Dev.charge, Dev.core_of_cores (Dev.wr_cores _ _ _), Dev.core_setCore_ne _ _ h]

theorem Dev.charge_bank (d : Dev) (c n k b : Nat) : (d.charge c n k).bank c b = d.bank c b := by
  simp [Dev.bank, Dev.charge_core, Core.bank]

theorem Dev.charge_curRun (d : Dev) (c n k : Nat) : (d.charge c n k).curRun c = d.curRun c := by
  simp [Dev.curRun, Dev.charge_core]

theorem Dev.curRun_of_execRun {d : Dev} {c : Nat} {r : Run} (h : d.execRun c = some r) : d.curRun c = some r := by
  unfold Dev.execRun at h
  cases hc : d.curRun c with
  | none => rw [hc] at h; cases h
  | some q => rw [hc] at h; simp only [Option.filter] at h; split at h <;> simp_all

theorem State.found_core (s : State) (c e : Nat) : (s.found c).core e = s.dev.core e :=
  Dev.upTo_keeps (fun d => d.core e) (by constructor <;> exact fun _ _ => rfl) _ _

theorem State.found_bank (s : State) (c e b : Nat) : (s.found c).bank e b = s.dev.bank e b := by
  simp [Dev.bank, State.found_core]

theorem State.found_awake (s : State) (c : Nat) : (s.found c).awake = s.dev.awake :=
  Dev.upTo_keeps Dev.awake (by constructor <;> exact fun _ _ => rfl) _ _

/-- What follows a command of a core: the whole state after it. -/
def State.coreEnd (s : State) (c : Nat) (d : Dev) : State :=
  { s with mono := max s.mono (d.core c).time, dev := (d.settleOuts (d.core c).time).settle }

theorem State.onCore_awake {s : State} {c : Nat} {f : Dev → Dev} (h : s.dev.awake = true) :
    s.onCore c f = .next (s.coreEnd c ((f (s.found c)).proceed c)) := by
  simp only [State.onCore, h, if_true]; rfl

theorem Dev.logic_of_execRun {d : Dev} {c : Nat} {r : Run} (h : d.execRun c = some r) : r.stage = .logic := by
  have := Option.filter_eq_some_iff.mp h
  simp only [Bool.and_eq_true, beq_iff_eq] at this
  exact this.2.2

/-- A run in its logic makes no step by itself. -/
theorem Dev.proceed_logic {d : Dev} {c : Nat} {r : Run} (h : d.curRun c = some r) (hl : r.stage = .logic) : d.proceed c = d := by
  unfold Dev.proceed Dev.proceedFor
  simp only [h, hl, true_or, or_true, if_true]

/-- R94: prefixes that an instruction accepts are read whole. -/
theorem illegalAfter_none {accept : List PrefixKind} {n : Nat} {l : List Prefix} (hn : l.length ≤ n)
    (h : l.all (prefixOk accept) = true) : illegalAfter n l = none := by
  induction l generalizing n with
  | nil => cases n <;> rfl
  | cons p l ih =>
    simp only [List.all_cons, Bool.and_eq_true] at h
    cases n with
    | zero => simp at hn
    | succ n =>
      have hp : p.endsDecode = false := by
        have := h.1
        cases p <;> first | rfl | simp [prefixOk, prefixKind] at this
      simp [illegalAfter, hp, ih (Nat.le_of_succ_le_succ hn) h.2]

theorem fetchedBytes_whole {accept : List PrefixKind} {pre : Fetch} (h : prefixesOk accept pre = true) (own : List Byte) :
    fetchedBytes pre own = pre.prefixes.flatMap prefixBytes ++ own := by
  simp only [prefixesOk, Bool.and_eq_true, Nat.ble_eq] at h
  simp [fetchedBytes, illegalAfter_none h.1.1 h.2]

/-- An instruction that starts and whose body goes on to the next instruction in the same run. -/
theorem State.instr_goes {s : State} {c : Nat} {r : Run} {accept : List PrefixKind} {pre : Fetch} {own : List Byte}
    {legal : Bool} {cost : Cpu → Nat} {body : Body} {y : Cpu} (h : Starts s c r accept pre own.length)
    (hl : legal = true)
    (hy : body (s.cpu c r pre own.length (cost (s.cpu0 c r pre own.length))) = .ok y)
    (hg : y.ending = .goes) (hc : y.c = c) (hr : y.run = r) (hcur : y.dev.curRun c = some r) :
    s.instr c accept pre legal own cost body = .next (s.coreEnd c
      (y.dev.setBank c r.bank { y.b.land with pc := y.next, repLeft := 0, repSkip := false })) := by
  have hb : (s.found c).bank c r.bank = s.bankOf c r := rfl
  have hlen : ((pre.prefixes.flatMap prefixBytes) ++ own).length = lengthWith pre own.length := by simp [lengthWith]
  have hin : ¬ 0x400000 < (s.bankOf c r).pc.toNat + lengthWith pre own.length := Nat.not_lt.mpr h.inCode
  have hnext : (s.bankOf c r).pc + BitVec.ofNat 32 (lengthWith pre own.length) = s.after c r pre own.length := rfl
  have hreps : repsOf (modsOf pre) (s.bankOf c r) = 1 := by simp [repsOf, h.once]
  have hn : (modsOf pre).rep.getD 1 - 1 = 0 := by simp [h.once]
  rw [State.instr, State.onCore_awake h.awake]
  suffices hd : Dev.instr c accept pre legal own cost body (s.found c) =
      y.dev.setBank c r.bank { y.b.land with pc := y.next, repLeft := 0, repSkip := false } by
    rw [hd]
    refine congrArg (fun d => Host.Outcome.next (s.coreEnd c d)) (Dev.proceed_logic (r := r) ?_ (Dev.logic_of_execRun h.runs))
    simpa [Dev.curRun, Dev.setBank] using hcur
  have hbytes : fetchedBytes pre own = pre.prefixes.flatMap prefixBytes ++ own := fetchedBytes_whole h.accepted own
  have hecc : (s.found c).eccCounted 0 c pre.corrected = s.found c := by rw [h.clean]; rfl
  simp only [Dev.instr, hecc, hbytes, h.runs, h.budget, h.alone, Option.isSome_none, Bool.or_false, Bool.false_eq_true, if_false, hb,
    hlen, hin, h.accepted, hl, Bool.and_self, Bool.not_true, h.cond, hreps, hn, hnext]
  rw [Dev.repetitions]
  simp only [Cpu.once, Bool.false_eq_true, if_false, hb]
  have hy' : body (Cpu.withDev (s.cpu0 c r pre own.length)
      ((s.found c).charge c r.task (cost (s.cpu0 c r pre own.length)))) = .ok y := hy
  simp only [State.cpu0] at hy'
  simp only [hy', hg, if_true, Cpu.retire, hc, hr, hcur]
  simp

/-- What stays of a device through the end of a core's command. -/
theorem Aside.settled (d : Dev) (t : Nat) : Aside d (d.settleOuts t).settle [] := by
  constructor
  case regs =>
    intro off h
    simp only [List.nil_append, List.mem_cons, List.not_mem_nil, or_false, not_or] at h
    have k (o : Nat) (ho : off ≠ o) : Ign.reg (fun d : Dev => d.rd off) o := fun d v => Dev.rd_wr_ne d v ho
    exact (Dev.settle_keeps (fun d => d.rd off) (fun _ _ => rfl) (k _ h.1) _).trans
      (Dev.settleOuts_keeps (fun d => d.rd off) (fun _ _ => rfl) (fun _ _ => rfl) (fun _ _ => rfl) (k _ h.2.1) (k _ h.2.2) _ _)
  all_goals
    exact (Dev.settle_keeps _ (fun _ _ => rfl) (fun _ _ => rfl) _).trans
      (Dev.settleOuts_keeps _ (fun _ _ => rfl) (fun _ _ => rfl) (fun _ _ => rfl) (fun _ _ => rfl) (fun _ _ => rfl) _ _)

theorem Dev.settled_cores (d : Dev) (t : Nat) : (d.settleOuts t).settle.cores = d.cores :=
  (Dev.settle_keeps Dev.cores (fun _ _ => rfl) (fun _ _ => rfl) _).trans
    (Dev.settleOuts_keeps Dev.cores (fun _ _ => rfl) (fun _ _ => rfl) (fun _ _ => rfl) (fun _ _ => rfl) (fun _ _ => rfl) _ _)

theorem Dev.settled_mem (d : Dev) (t : Nat) : (d.settleOuts t).settle.mem = d.mem :=
  (Dev.settle_keeps Dev.mem (fun _ _ => rfl) (fun _ _ => rfl) _).trans
    (Dev.settleOuts_keeps Dev.mem (fun _ _ => rfl) (fun _ _ => rfl) (fun _ _ => rfl) (fun _ _ => rfl) (fun _ _ => rfl) _ _)

theorem Aside.refl (d : Dev) (l : List Nat) : Aside d d l := by constructor <;> first | rfl | exact fun _ _ => rfl

theorem Aside.trans {d e f : Dev} {l : List Nat} (h : Aside d e l) (k : Aside e f l) : Aside d f l := by
  constructor
  case regs => intro off ho; exact (k.regs off ho).trans (h.regs off ho)
  all_goals first
    | exact k.phase.trans h.phase | exact k.latch.trans h.latch | exact k.tasks.trans h.tasks
    | exact k.modeChange.trans h.modeChange | exact k.keyPin.trans h.keyPin | exact k.fullLoad.trans h.fullLoad
    | exact k.ang.trans h.ang | exact k.time.trans h.time | exact k.net.trans h.net | exact k.can.trans h.can
    | exact k.queues.trans h.queues | exact k.msix.trans h.msix | exact k.plane.trans h.plane
    | exact k.gooseBits.trans h.gooseBits | exact k.path.trans h.path | exact k.nvs.trans h.nvs
    | exact k.xch.trans h.xch | exact k.hsb.trans h.hsb | exact k.stand.trans h.stand | exact k.rtc.trans h.rtc
    | exact k.power.trans h.power | exact k.sec.trans h.sec | exact k.flash.trans h.flash | exact k.tap.trans h.tap
    | exact k.host.trans h.host
    | exact k.formats.trans h.formats | exact k.readData.trans h.readData | exact k.freeNo.trans h.freeNo

theorem Aside.more {d e : Dev} {l : List Nat} (h : Aside d e []) : Aside d e l :=
  { h with regs := fun off ho => h.regs off (fun hm => ho (List.mem_append_right l (by simpa using hm))) }

theorem Aside.of_mem (d : Dev) (m : Mems) : Aside d { d with mem := m } [] := by
  constructor <;> first | rfl | exact fun _ _ => rfl

theorem Aside.of_setBank (d : Dev) (c b : Nat) (k : Bank) : Aside d (d.setBank c b k) [] := by
  constructor <;> first | rfl | exact fun _ _ => rfl

theorem Aside.of_charge (d : Dev) (c n k : Nat) : Aside d (d.charge c n k) [Reg.TSK_USED n] := by
  constructor
  case regs =>
    intro off ho
    simp only [List.cons_append, List.nil_append, List.mem_cons, not_or] at ho
    exact Dev.rd_wr_ne _ _ ho.1
  all_goals rfl

/-- TSK_USED of a task is neither INT_FIRST nor a word of the BO state. -/
theorem used_apart (n : Nat) : Reg.TSK_USED n ∉ ([] : List Nat) ++ [Reg.INT_FIRST, Reg.BIO_BO0, Reg.BIO_BO1] := by
  simp only [Reg.TSK_USED, Reg.INT_FIRST, Reg.BIO_BO0, Reg.BIO_BO1, List.nil_append, List.mem_cons, List.not_mem_nil,
    or_false, not_or]
  omega

theorem Dev.rd_charge (d : Dev) (c n k : Nat) : (d.charge c n k).rd (Reg.TSK_USED n) =
    BitVec.ofNat 32 (min 0xFFFFFFFF ((d.rd (Reg.TSK_USED n)).toNat + k)) := Dev.rd_wr_same _ _ _

/-- The end of an instruction that has charged its ticks, has changed the device to d without touching a core, and leaves
bank b at pc. -/
theorem Retires.of_dev {s : State} {c : Nat} {r : Run} {k : Nat} {d : Dev} (b : Bank) (pc : Word)
    (hc : d.cores = ((s.found c).charge c r.task k).cores) (ha : Aside (s.found c) d [Reg.TSK_USED r.task])
    (hu : d.rd (Reg.TSK_USED r.task) = ((s.found c).charge c r.task k).rd (Reg.TSK_USED r.task)) :
    Retires s (s.coreEnd c (d.setBank c r.bank { b.land with pc := pc, repLeft := 0, repSkip := false })) c r k b pc := by
  have hcore : ∀ e, d.core e = ((s.found c).charge c r.task k).core e := Dev.core_of_cores hc
  have hself : d.core c = (s.dev.core c).spend k := by rw [hcore, Dev.charge_core, State.found_core]
  have hfin : ∀ (x : Dev) t e, (x.settleOuts t).settle.core e = x.core e := fun x t e =>
    Dev.core_of_cores (Dev.settled_cores x t) e
  have hbk : ∀ (x : Dev) t e j, (x.settleOuts t).settle.bank e j = x.bank e j := fun x t e j => by
    simp only [Dev.bank, hfin]
  constructor
  case bank => simp [State.coreEnd, hbk]
  case banks =>
    intro j hj
    simp only [State.coreEnd, hbk]
    rw [Dev.bank_setBank_ne _ _ (Or.inr hj)]
    simp [Dev.bank, hself, Core.bank]
  case cores =>
    intro e he
    simp only [State.coreEnd, hfin]
    rw [Dev.core_setBank_ne _ _ _ he, hcore, Dev.charge_core_ne _ _ _ he, State.found_core]
  case runs => simp [State.coreEnd, hfin, hself]
  case time => simp [State.coreEnd, hfin, hself]
  case used =>
    rw [← Dev.rd_charge (s.found c) c r.task k, ← hu]
    exact (Aside.settled _ _).regs _ (used_apart _)
  case mono => simp [State.coreEnd, hself]
  case pending => rfl
  case aside => exact ha.trans ((Aside.of_setBank _ _ _ _).trans (Aside.settled _ _)).more

/-- An instruction whose body changes the run's bank to b and its memories, and goes on at pc. -/
theorem State.instr_retires {s : State} {c : Nat} {r : Run} {accept : List PrefixKind} {pre : Fetch}
    {own : List Byte} {legal : Bool} {cost : Cpu → Nat} {body : Body} {k : Nat} (b : Bank) (pc : Word) (m : Mems)
    (h : Starts s c r accept pre own.length) (hl : legal = true) (hk : cost (s.cpu0 c r pre own.length) = k)
    (hy : body (s.cpu c r pre own.length k) = .ok { s.cpu c r pre own.length k with
      dev := { (s.cpu c r pre own.length k).dev with mem := m }, b := b, next := pc }) :
    ∃ t, s.instr c accept pre legal own cost body = .next t ∧ Retires s t c r k b pc ∧ t.dev.mem = m := by
  subst hk
  have hcur : (s.found c).curRun c = some r := Dev.curRun_of_execRun h.runs
  refine ⟨_, State.instr_goes h hl hy rfl rfl rfl ?_, ?_, ?_⟩
  · exact (Dev.charge_curRun (s.found c) c r.task _).trans hcur
  · exact Retires.of_dev b pc rfl ((Aside.of_charge _ _ _ _).trans (Aside.of_mem _ _).more) rfl
  · exact Dev.settled_mem _ _

/-- An instruction whose body changes only the run's bank. -/
theorem State.instr_bank {s : State} {c : Nat} {r : Run} {accept : List PrefixKind} {pre : Fetch}
    {own : List Byte} {legal : Bool} {cost : Cpu → Nat} {body : Body} {k : Nat} (b : Bank)
    (h : Starts s c r accept pre own.length) (hl : legal = true) (hk : cost (s.cpu0 c r pre own.length) = k)
    (hy : body (s.cpu c r pre own.length k) = .ok ((s.cpu c r pre own.length k).withB b)) :
    ∃ t, s.instr c accept pre legal own cost body = .next t ∧ RetiresInRegs s t c r k b (s.after c r pre own.length) := by
  obtain ⟨t, he, hr, hm⟩ := State.instr_retires b (s.after c r pre own.length) (s.found c).mem h hl hk hy
  exact ⟨t, he, hr, hm⟩

/-- The conclusion of Gives for an instruction whose body changes only the run's bank and PC. -/
theorem Gives.of_instr {s : State} {i : Instr} {c : Nat} {r : Run} {accept : List PrefixKind} {pre : Fetch}
    {own : List Byte} {legal : Bool} {cost : Cpu → Nat} {body : Body} {k n : Nat} {P : Bank → Prop} (b : Bank) (pc : Word)
    (he : exec i s = s.instr c accept pre legal own cost body) (hn : own.length = n)
    (h : Starts s c r accept pre n) (hl : legal = true) (hk : cost (s.cpu0 c r pre n) = k)
    (hy : body (s.cpu c r pre n k) = .ok { s.cpu c r pre n k with b := b, next := pc }) (hP : P b) :
    Gives s i c r k pc P := by
  subst hn
  obtain ⟨t, h1, h2, h3⟩ := State.instr_retires b pc (s.found c).mem h hl hk hy
  exact ⟨t, b, he.trans h1, hP, h2, h3⟩

end Sys2Proof.Machine
end

