-- ==== Sys2Proof/Laws/Banks.lean ====
section
/-!
SUPPORT. The registers of a bank: what each update of a register or a flag changes, and the results of word and
accumulator operations.
-/
namespace Sys2Proof.Machine

theorem Bank.getW_setW (b : Bank) (n k : Nat) (v : Word) : (b.setW n v).getW k = if k = n then v else b.getW k := by
  split
  · subst_vars; exact Sparse.get_set_same _ _ _ _
  · exact Sparse.get_set_ne _ _ _ ‹_›

theorem Bank.getX_setX (b : Bank) (n k : Nat) (v : Word) : (b.setX n v).getX k = if k = n then v else b.getX k := by
  split
  · subst_vars; exact Sparse.get_set_same _ _ _ _
  · exact Sparse.get_set_ne _ _ _ ‹_›

theorem Bank.getA_setA (b : Bank) (n k : Nat) (v : BitVec 72) : (b.setA n v).getA k = if k = n then v else b.getA k := by
  split
  · subst_vars; exact Sparse.get_set_same _ _ _ _
  · exact Sparse.get_set_ne _ _ _ ‹_›

theorem Bank.flag_setFlag (b : Bank) {i : Nat} (j : Nat) (v : Bool) (hi : i < 32) :
    (b.setFlag i v).flag j = if j = i then v else b.flag j := by
  unfold Bank.setFlag Bank.flag
  cases v
  · simp only [Bool.false_eq_true, if_false, BitVec.getLsbD_and, BitVec.getLsbD_not, BitVec.getLsbD_twoPow]
    by_cases h : j = i
    · subst h; simp [hi]
    · by_cases hj : j < 32
      · simp [h, hj, Ne.symm h]
      · rw [if_neg h, BitVec.getLsbD_of_ge b.fl j (by omega)]; rfl
  · simp only [if_true, BitVec.getLsbD_or, BitVec.getLsbD_twoPow]
    by_cases h : j = i
    · subst h; simp [hi]
    · simp [h, Ne.symm h]

theorem Bank.flag_stick (b : Bank) {i : Nat} (j : Nat) (v : Bool) (hi : i < 32) :
    (b.stick i v).flag j = if j = i then (b.flag j || v) else b.flag j := by
  unfold Bank.stick
  cases v
  · simp
  · simp only [if_true, Bank.flag_setFlag b j true hi]; split <;> simp

@[simp] theorem Bank.flag_setW (b : Bank) (n i : Nat) (v : Word) : (b.setW n v).flag i = b.flag i := rfl
@[simp] theorem Bank.flag_setX (b : Bank) (n i : Nat) (v : Word) : (b.setX n v).flag i = b.flag i := rfl
@[simp] theorem Bank.flag_setA (b : Bank) (n i : Nat) (v : BitVec 72) : (b.setA n v).flag i = b.flag i := rfl

/-- A view of a bank that does not look at FL sees nothing of a flag. -/
theorem Bank.setFlag_keeps {X : Type} (φ : Bank → X) (h : ∀ (b : Bank) v, φ { b with fl := v } = φ b) (b : Bank) (i : Nat)
    (v : Bool) : φ (b.setFlag i v) = φ b := h _ _

theorem Bank.stick_keeps {X : Type} (φ : Bank → X) (h : ∀ (b : Bank) v, φ { b with fl := v } = φ b) (b : Bank) (i : Nat)
    (v : Bool) : φ (b.stick i v) = φ b := by unfold Bank.stick; split <;> exact h _ _

theorem Bank.optFlag_keeps {X : Type} (φ : Bank → X) (h : ∀ (b : Bank) v, φ { b with fl := v } = φ b) (b : Bank) (i : Nat)
    (v : Option Bool) : φ (b.optFlag i v) = φ b := by cases v <;> first | rfl | exact h _ _

theorem Bank.flag_optFlag (b : Bank) {i : Nat} (j : Nat) (v : Option Bool) (hi : i < 32) :
    (b.optFlag i v).flag j = if j = i then v.getD (b.flag j) else b.flag j := by
  cases v with
  | none => simp [Bank.optFlag]
  | some x => simp only [Bank.optFlag, Bank.flag_setFlag b j x hi, Option.getD_some]

theorem Bank.flag_zn (b : Bank) (v : Word) (j : Nat) :
    (b.zn v).flag j = if j = flN then v.msb else if j = flZ then (v == 0) else b.flag j := by
  unfold Bank.zn
  rw [Bank.flag_setFlag _ _ _ (by decide), Bank.flag_setFlag _ _ _ (by decide)]

theorem Bank.zn_keeps {X : Type} (φ : Bank → X) (h : ∀ (b : Bank) v, φ { b with fl := v } = φ b) (b : Bank) (v : Word) :
    φ (b.zn v) = φ b := (h _ _).trans (h _ _)

theorem Bank.flag_znAcc (b : Bank) (v : BitVec 72) (j : Nat) :
    (b.znAcc v).flag j = if j = flN then v.msb else if j = flZ then (v == 0) else b.flag j := by
  unfold Bank.znAcc
  rw [Bank.flag_setFlag _ _ _ (by decide), Bank.flag_setFlag _ _ _ (by decide)]

theorem Bank.znAcc_keeps {X : Type} (φ : Bank → X) (h : ∀ (b : Bank) v, φ { b with fl := v } = φ b) (b : Bank)
    (v : BitVec 72) : φ (b.znAcc v) = φ b := (h _ _).trans (h _ _)

/-- R140: the result of a word operation. -/
theorem Bank.putAlu_result (b : Bank) (n : Nat) (o : AluOut) : WordResult b (b.putAlu n o) n o.value o.c o.v o.sat := by
  have keep {X : Type} (φ : Bank → X) (h : ∀ (b : Bank) v, φ { b with fl := v } = φ b) :
      φ (b.putAlu n o) = φ (b.setW n o.value) := by
    unfold Bank.putAlu
    rw [Bank.stick_keeps φ h, Bank.optFlag_keeps φ h, Bank.optFlag_keeps φ h, Bank.zn_keeps φ h]
  have fl (j : Nat) : (b.putAlu n o).flag j =
      if j = flSat then (b.flag j || o.sat) else if j = flV then o.v.getD (b.flag j) else
        if j = flC then o.c.getD (b.flag j) else if j = flN then o.value.msb else
          if j = flZ then (o.value == 0) else b.flag j := by
    unfold Bank.putAlu
    rw [Bank.flag_stick _ _ _ (by decide), Bank.flag_optFlag _ _ _ (by decide), Bank.flag_optFlag _ _ _ (by decide),
      Bank.flag_zn, Bank.flag_setW]
    by_cases h1 : j = flSat
    · subst h1; rfl
    · simp only [if_neg h1]
      by_cases h2 : j = flV
      · subst h2; rfl
      · simp only [if_neg h2]
        by_cases h3 : j = flC
        · subst h3; rfl
        · simp only [if_neg h3]
  constructor
  case w => intro k; rw [keep (fun b => b.getW k) (fun _ _ => rfl), Bank.getW_setW]
  case z => rw [fl]; exact Bool.beq_eq_decide_eq _ _
  case neg => rw [fl]; rfl
  case carry => rw [fl]; rfl
  case ovf => rw [fl]; rfl
  case sticky => rw [fl]; rfl
  case fl =>
    intro k hk
    rw [fl]
    rw [if_neg (by unfold flSat; omega), if_neg (by unfold flV; omega), if_neg (by unfold flC; omega),
      if_neg (by unfold flN; omega), if_neg (by unfold flZ; omega)]
  case rest =>
    exact ⟨keep Bank.x (fun _ _ => rfl), keep Bank.a (fun _ _ => rfl), keep Bank.ba (fun _ _ => rfl),
      keep Bank.pc (fun _ _ => rfl), keep Bank.tb (fun _ _ => rfl), keep Bank.shadow (fun _ _ => rfl)⟩

/-- R146: the result of an accumulator operation. -/
theorem Bank.putAcc_result (b : Bank) (n : Nat) (o : AccOut) : AccResult b (b.putAcc n o) n o.value o.gov o.sat := by
  have keep {X : Type} (φ : Bank → X) (h : ∀ (b : Bank) v, φ { b with fl := v } = φ b) :
      φ (b.putAcc n o) = φ (b.setA n o.value) := by
    unfold Bank.putAcc Bank.putAccRaw
    rw [Bank.znAcc_keeps φ h, Bank.stick_keeps φ h, Bank.stick_keeps φ h]
  have fl (j : Nat) : (b.putAcc n o).flag j =
      if j = flN then o.value.msb else if j = flZ then (o.value == 0) else
        if j = flGov then (b.flag j || o.gov) else if j = flSat then (b.flag j || o.sat) else b.flag j := by
    unfold Bank.putAcc Bank.putAccRaw
    rw [Bank.flag_znAcc, Bank.flag_stick _ _ _ (by decide), Bank.flag_stick _ _ _ (by decide), Bank.flag_setA]
    by_cases h1 : j = flN
    · subst h1; rfl
    · by_cases h2 : j = flZ
      · subst h2; rfl
      · by_cases h3 : j = flGov
        · subst h3; rfl
        · simp only [if_neg h1, if_neg h2, if_neg h3]
  constructor
  case a => intro k; rw [keep (fun b => b.getA k) (fun _ _ => rfl), Bank.getA_setA]
  case z => rw [fl]; exact Bool.beq_eq_decide_eq _ _
  case neg => rw [fl]; rfl
  case govd => rw [fl]; rfl
  case sticky => rw [fl]; rfl
  case fl =>
    intro k hk
    rw [fl]
    unfold flC flV at hk
    rw [if_neg (by unfold flN; omega), if_neg (by unfold flZ; omega), if_neg (by unfold flGov; omega),
      if_neg (by unfold flSat; omega)]
  case rest =>
    exact ⟨keep Bank.w (fun _ _ => rfl), keep Bank.x (fun _ _ => rfl), keep Bank.ba (fun _ _ => rfl),
      keep Bank.pc (fun _ _ => rfl), keep Bank.tb (fun _ _ => rfl), keep Bank.shadow (fun _ _ => rfl)⟩

end Sys2Proof.Machine
end

