-- ==== Sys2Proof/Laws/Fixed.lean ====
section
/-!
SUPPORT. Fixed-point results (R138, R139) as the statements name them: fitting, word results, and results by lanes.
-/
namespace Sys2Proof.Machine

theorem inField_outside (v : Int) (w : Nat) : inField v w = !outside w v := by
  unfold inField outside minOf maxOf
  generalize ((2 ^ (w - 1) : Nat) : Int) = M
  by_cases h1 : v < -M <;> by_cases h2 : M ≤ v <;>
    simp only [h1, h2, decide_true, decide_false, Bool.true_or, Bool.false_or, Bool.not_true, Bool.not_false] <;>
    simp only [Bool.and_eq_false_iff, Bool.and_eq_true, decide_eq_false_iff_not, decide_eq_true_eq] <;> omega

theorem fitTo_fitted (w : Nat) (sat : Bool) (v : Int) : fitTo w sat v = fitted w sat v := by
  unfold fitTo fitted saturate outside minOf maxOf
  have hM : (0 : Int) ≤ ((2 ^ (w - 1) : Nat) : Int) := Int.natCast_nonneg _
  generalize ((2 ^ (w - 1) : Nat) : Int) = M at hM ⊢
  cases sat
  · simp
  · simp only [if_true, Bool.and_true]
    by_cases h1 : v < -M
    · rw [if_pos h1, if_pos (by simp [h1]), if_pos (by omega)]
    · by_cases h2 : M ≤ v
      · rw [if_neg h1, if_pos (by omega), if_pos (by simp [h2]), if_neg (by omega)]
      · rw [if_neg h1, if_neg (by omega), if_neg (by simp [h1, h2])]

/-- A word result restated. -/
theorem WordResult.as {b b' : Bank} {n : Nat} {v v' : Word} {a a' o o' : Option Bool} {s s' : Bool}
    (h : WordResult b b' n v a o s) (h1 : v = v') (h2 : a = a') (h3 : o = o') (h4 : s = s') :
    WordResult b b' n v' a' o' s' := by subst h1 h2 h3 h4; exact h

/-- R140: an exact word result with its carry. -/
theorem wordOut_result (b : Bank) (n : Nat) (sat : Bool) (e : Int) (cf : Option Bool) :
    WordResult b (b.putAlu n (wordOut sat e cf)) n (fitted 32 sat e) cf (some (outside 32 e)) (sat && outside 32 e) := by
  have := Bank.putAlu_result b n (wordOut sat e cf)
  simpa only [wordOut, fitTo_fitted, inField_outside, Bool.not_not] using this

/-- R126, R140: a difference. -/
theorem subOut_result (b : Bank) (n : Nat) (sat : Bool) (x y : Word) (cy : Bool) :
    WordResult b (b.putAlu n (subOut sat x y cy)) n (fitted 32 sat (x.toInt - y.toInt - b2n cy))
      (some (decide (x.toNat < y.toNat + b2n cy))) (some (outside 32 (x.toInt - y.toInt - b2n cy)))
      (sat && outside 32 (x.toInt - y.toInt - b2n cy)) := by
  have := Bank.putAlu_result b n (subOut sat x y cy)
  refine this.as ?_ ?_ ?_ ?_ <;> simp only [subOut, fitTo_fitted, inField_outside, Bool.not_not, sgn]
  exact congrArg some (Bool.eq_iff_iff.mpr (by simp))

theorem lanes_eq (v : Word) : lanes v = (lane0 v, lane1 v) := by
  unfold lanes lane0 lane1
  congr 2

theorem halves_eq (v : BitVec 72) : halves v = (half0 v, half1 v) := by
  unfold halves half0 half1
  congr 2

/-- R95, R140: a result by lanes. -/
theorem laneOut_result (b : Bank) (n : Nat) (f : Exact) (sat : Bool) (x y : Word) (cy : Bool) :
    let e0 := f (lane0 x) (lane0 y) (b2n cy)
    let e1 := f (lane1 x) (lane1 y) 0
    WordResult b (b.putAlu n (laneOut f sat x y cy)) n (fitted 16 sat e1 ++ fitted 16 sat e0) (some false)
      (some (outside 16 e0 || outside 16 e1)) (sat && (outside 16 e0 || outside 16 e1)) := by
  intro e0 e1
  have := Bank.putAlu_result b n (laneOut f sat x y cy)
  simpa only [laneOut, ofLanes, fitTo_fitted, inField_outside, Bool.not_not, lanes_eq] using this

/-- R143: a rounded right shift never leaves the range of its operand. -/
theorem rnd_bounds (m : Rounding) {v M : Int} (k : Nat) (hM : 2 ≤ M) (h1 : -M ≤ v) (h2 : v < M) :
    -M ≤ rnd m v k ∧ rnd m v k < M := by
  unfold rnd
  by_cases hk : k = 0
  · simp [hk, h1, h2]
  · rw [if_neg hk]
    have hp : (2 : Int) ≤ ((2 ^ k : Nat) : Int) := by
      have : 2 ^ 1 ≤ 2 ^ k := Nat.pow_le_pow_right (by decide) (by omega)
      exact_mod_cast this
    generalize ((2 ^ k : Nat) : Int) = p at hp
    have hlo : -M ≤ v / p := by
      rw [Int.le_ediv_iff_mul_le (by omega)]
      have : -M * p ≤ -M * 1 := Int.mul_le_mul_of_nonpos_left (by omega) (by omega)
      omega
    have hhi : v / p < M - 1 := by
      rw [Int.ediv_lt_iff_lt_mul (by omega)]
      have : (M - 1) * 2 ≤ (M - 1) * p := Int.mul_le_mul_of_nonneg_left hp (by omega)
      omega
    cases m <;> dsimp only <;> (try split) <;> omega

theorem modsFold_sat (l : List Prefix) (m : Mods) : (l.foldl Mods.take m).sat = (m.sat || l.any (fun p => decide (p = .sat))) := by
  induction l generalizing m with
  | nil => simp
  | cons p l ih =>
    rw [List.foldl_cons, ih, List.any_cons]
    cases p <;> simp [Mods.take]

/-- An instruction that does not accept SAT carries none. -/
theorem modsOf_sat {accept : List PrefixKind} {pre : Fetch} (h : prefixesOk accept pre = true)
    (hs : accept.contains .sat = false) : (modsOf pre).sat = false := by
  unfold modsOf
  rw [modsFold_sat]
  simp only [Bool.false_or, List.any_eq_false]
  intro p hp he
  have : p = .sat := by simpa using he
  subst this
  simp only [prefixesOk, Bool.and_eq_true, List.all_eq_true] at h
  have := h.2 _ hp
  simp only [prefixOk, prefixKind, hs, Bool.false_and] at this
  exact absurd this (by decide)

/-- R146: an instruction that accepts no SAT saturates when FL.SD = 1 only. -/
theorem Starts.saturates {s : State} {c : Nat} {r : Run} {accept : List PrefixKind} {pre : Fetch} {n : Nat}
    (h : Starts s c r accept pre n) (hs : accept.contains .sat = false) :
    s.saturates c r pre = (s.bankOf c r).flag flSd := by
  rw [State.saturates, modsOf_sat h.accepted hs, Bool.false_or]

/-- An accumulator result restated. -/
theorem AccResult.as {b b' : Bank} {n n' : Nat} {v v' : BitVec 72} {g g' s s' : Bool} (h : AccResult b b' n v g s)
    (hn : n = n') (h1 : v = v') (h2 : g = g') (h3 : s = s') : AccResult b b' n' v' g' s' := by subst hn h1 h2 h3; exact h

/-- R139: acc() in single mode. -/
theorem accSingle_result (b : Bank) (n : Nat) (sat : Bool) (e : Int) :
    AccResult b (b.putAcc n (accSingle sat e)) n (fitted 72 sat e) (outside 72 e) (sat && outside 72 e) := by
  have := Bank.putAcc_result b n (accSingle sat e)
  simpa only [accSingle, fitTo_fitted, inField_outside, Bool.not_not] using this

/-- R139: acc() in dual mode. -/
theorem accDual_result (b : Bank) (n : Nat) (sat : Bool) (e0 e1 : Int) :
    AccResult b (b.putAcc n (accDual sat (e0, e1))) n (fitted 36 sat e1 ++ fitted 36 sat e0)
      (outside 36 e0 || outside 36 e1) (sat && (outside 36 e0 || outside 36 e1)) := by
  have := Bank.putAcc_result b n (accDual sat (e0, e1))
  simpa only [accDual, ofHalves, fitTo_fitted, inField_outside, Bool.not_not] using this

/-- R148: two memory operands that are aligned, in local data or an image shadow, and without error. -/
theorem Cpu.operandPair_ok {x : Cpu} {p q : Nat} (h1 : (x.b.getX p).toNat % 4 = 0) (h2 : (x.b.getX q).toNat % 4 = 0)
    (h3 : regionOf (x.b.getX p) = some .data ∨ regionOf (x.b.getX p) = some .shadow)
    (h4 : regionOf (x.b.getX q) = some .data ∨ regionOf (x.b.getX q) = some .shadow) :
    x.operandPair p q none = .ok (x, BitVec.ofNat 32 (x.dev.rdMem x.c (x.b.getX p) 4),
      BitVec.ofNat 32 (x.dev.rdMem x.c (x.b.getX q) 4)) := by
  have e1 : (regionOf (x.b.getX p) == some .data || regionOf (x.b.getX p) == some .shadow) = true := by
    rcases h3 with h | h <;> simp [h]
  have e2 : (regionOf (x.b.getX q) == some .data || regionOf (x.b.getX q) == some .shadow) = true := by
    rcases h4 with h | h <;> simp [h]
  simp only [Cpu.operandPair, orTrap, h1, h2, e1, e2, Cpu.errOf, Cpu.meet, BEq.rfl, if_true, bind, Except.bind, pure, Except.pure]

theorem Dev.charge_rdMem (d : Dev) (c n k e : Nat) (a : Word) (m : Nat) : (d.charge c n k).rdMem e a m = d.rdMem e a m := by
  unfold Dev.rdMem; rfl

theorem Bank.getX_putAcc (b : Bank) (n k : Nat) (o : AccOut) : (b.putAcc n o).getX k = b.getX k := by
  have := (Bank.putAcc_result b n o).rest.2.1
  simp [Bank.getX, this]

/-- R149: an accumulator reduced to a word. -/
theorem reduce_single (b : Bank) (n : Nat) (sat : Bool) (m : Rounding) (u : BitVec 72) :
    WordResult b (b.putAlu n (reduce sat false m u)) n (fitted 32 sat (rnd m u.toInt 31)) none none
      (sat && outside 32 (rnd m u.toInt 31)) := by
  have := Bank.putAlu_result b n (reduce sat false m u)
  simpa only [reduce, Bool.false_eq_true, if_false, fitTo_fitted, inField_outside, Bool.not_not] using this

/-- R149: a dual accumulator reduced to a dual word. -/
theorem reduce_lane (b : Bank) (n : Nat) (sat : Bool) (m : Rounding) (u : BitVec 72) :
    WordResult b (b.putAlu n (reduce sat true m u)) n
      (fitted 16 sat (rnd m (half1 u) 15) ++ fitted 16 sat (rnd m (half0 u) 15)) none none
      (sat && (outside 16 (rnd m (half0 u) 15) || outside 16 (rnd m (half1 u) 15))) := by
  have := Bank.putAlu_result b n (reduce sat true m u)
  simpa only [reduce, if_true, halves_eq, ofLanes, fitTo_fitted, inField_outside, Bool.not_not] using this

end Sys2Proof.Machine
end

