-- ==== Sys2Proof/Laws/Access.lean ====
section
/-!
SUPPORT. Memory as a scan core sees it: a store and the bytes around it, and accesses that meet no fault.
-/
namespace Sys2Proof.Machine

theorem regionOf_data {a : Word} (h : regionOf a = some .data) : 0x10000000 ≤ a.toNat ∧ a.toNat < 0x10200000 := by
  simp only [regionOf] at h
  repeat' split at h
  all_goals first | (simp at h; done) | omega

theorem regionOf_shadow {a : Word} (h : regionOf a = some .shadow) : 0x20000000 ≤ a.toNat ∧ a.toNat < 0x20040000 := by
  simp only [regionOf] at h
  repeat' split at h
  all_goals first | (simp at h; done) | omega

theorem regionOf_stand {a : Word} (h : regionOf a = some .stand) : 0x60000000 ≤ a.toNat ∧ a.toNat < 0x60040000 := by
  simp only [regionOf] at h
  repeat' split at h
  all_goals first | (simp at h; done) | omega

theorem regionOf_of_data {a : Word} (h1 : 0x10000000 ≤ a.toNat) (h2 : a.toNat < 0x10200000) : regionOf a = some .data := by
  simp only [regionOf]
  rw [if_neg (by omega), if_pos ⟨h1, h2⟩]

theorem Memory.rdLE_one (m : Memory) (a : Nat) : Memory.rdLE m a 1 = (Memory.rd8 m a).toNat := rfl

/-- Bytes of the slots of two cores, S bytes each, that lie apart. -/
theorem slots_apart {c c' S o o' n : Nat} (h1 : o' < S) (h2 : o + n ≤ S) (h : o' < o ∨ o + n ≤ o' ∨ c' ≠ c) :
    c' * S + o' < c * S + o ∨ c * S + o + n ≤ c' * S + o' := by
  rcases Nat.lt_trichotomy c' c with hc | hc | hc
  · have := Nat.mul_le_mul_right S hc
    rw [Nat.succ_mul] at this
    omega
  · subst hc; omega
  · have := Nat.mul_le_mul_right S hc
    rw [Nat.succ_mul] at this
    omega

/-- The memory of a device alone decides what Stored says. -/
theorem Stored.of_mem {d e d' e' : Dev} {c : Nat} {a : Word} {n v : Nat} (h : Stored d e c a n v) (hd : d'.mem = d.mem)
    (he : e'.mem = e.mem) : Stored d' e' c a n v := by
  have key (x y : Dev) (hxy : x.mem = y.mem) (c' : Nat) (a' : Word) (k : Nat) : x.rdMem c' a' k = y.rdMem c' a' k := by
    simp only [Dev.rdMem, hxy]
  constructor
  · rw [key e' e he]; exact h.value
  · intro c' a' ha; rw [key e' e he, key d' d hd]; exact h.bytes c' a' ha
  · rw [he, hd]; exact h.rest

/-- A store to local data, an image shadow or the stand-shared space that does not leave its region. -/
theorem Stored.of_wrMem (d : Dev) (c : Nat) (a : Word) {n v : Nat} (hv : v < 256 ^ n)
    (hr : (regionOf a = some .data ∧ a.toNat + n ≤ 0x10200000) ∨ (regionOf a = some .shadow ∧ a.toNat + n ≤ 0x20040000) ∨
      (regionOf a = some .stand ∧ a.toNat + n ≤ 0x60040000)) :
    Stored d (d.wrMem c a n v) c a n v := by
  rcases hr with ⟨hr, he⟩ | ⟨hr, he⟩ | ⟨hr, he⟩
  · have hb := regionOf_data hr
    constructor
    · simp only [Dev.rdMem, Dev.wrMem, hr, Memory.rdLE_wrLE, Nat.mod_eq_of_lt hv]
    · intro c' a' ha
      by_cases hr' : regionOf a' = some .data
      · obtain ⟨lo1, hi1⟩ := regionOf_data hr'
        simp only [Dev.rdMem, Dev.wrMem, hr, hr', Memory.rdLE_one]
        rw [Memory.rd8_wrLE_ne]
        refine slots_apart (by omega) (by omega) ?_
        rcases ha with ha | ha | ha | ⟨ha, -⟩
        · exact absurd (hr'.trans hr.symm) ha
        · left; omega
        · right; left; omega
        · right; right; exact ha
      · simp only [Dev.wrMem, hr, Dev.rdMem]
        cases h' : regionOf a' with
        | none => rfl
        | some x => cases x <;> first | rfl | exact absurd h' hr'
    · simp only [Dev.wrMem, hr]
  · have hb := regionOf_shadow hr
    constructor
    · simp only [Dev.rdMem, Dev.wrMem, hr, Memory.rdLE_wrLE, Nat.mod_eq_of_lt hv]
    · intro c' a' ha
      by_cases hr' : regionOf a' = some .shadow
      · obtain ⟨lo1, hi1⟩ := regionOf_shadow hr'
        simp only [Dev.rdMem, Dev.wrMem, hr, hr', Memory.rdLE_one]
        rw [Memory.rd8_wrLE_ne]
        refine slots_apart (by omega) (by omega) ?_
        rcases ha with ha | ha | ha | ⟨ha, -⟩
        · exact absurd (hr'.trans hr.symm) ha
        · left; omega
        · right; left; omega
        · right; right; exact ha
      · simp only [Dev.wrMem, hr, Dev.rdMem]
        cases h' : regionOf a' with
        | none => rfl
        | some x => cases x <;> first | rfl | exact absurd h' hr'
    · simp only [Dev.wrMem, hr]
  · have hb := regionOf_stand hr
    constructor
    · simp only [Dev.rdMem, Dev.wrMem, hr, Memory.rdLE_wrLE, Nat.mod_eq_of_lt hv]
    · intro c' a' ha
      by_cases hr' : regionOf a' = some .stand
      · obtain ⟨lo1, hi1⟩ := regionOf_stand hr'
        simp only [Dev.rdMem, Dev.wrMem, hr, hr', Memory.rdLE_one]
        rw [Memory.rd8_wrLE_ne]
        rcases ha with ha | ha | ha | ⟨-, ha⟩
        · exact absurd (hr'.trans hr.symm) ha
        · omega
        · omega
        · exact absurd hr ha
      · simp only [Dev.wrMem, hr, Dev.rdMem]
        cases h' : regionOf a' with
        | none => rfl
        | some x => cases x <;> first | rfl | exact absurd h' hr'
    · simp only [Dev.wrMem, hr]

/-- A store changes the memories only. -/
theorem Dev.wrMem_eq (d : Dev) (c : Nat) (a : Word) (n v : Nat) : d.wrMem c a n v = { d with mem := (d.wrMem c a n v).mem } := by
  unfold Dev.wrMem; split <;> rfl

/-- What a store writes does not depend on the ticks charged before it. -/
theorem Dev.charge_wrMem_mem (d : Dev) (c k e : Nat) (a : Word) (n v f : Nat) :
    ((d.charge c k f).wrMem e a n v).mem = (d.wrMem e a n v).mem := by
  unfold Dev.wrMem; split <;> rfl

/-- The conclusion of RetiresStoring for an instruction whose body stores n bytes of v at address a and changes the bank. -/
theorem State.instr_stores {s : State} {i : Instr} {c : Nat} {r : Run} {accept : List PrefixKind} {pre : Fetch}
    {own : List Byte} {legal : Bool} {cost : Cpu → Nat} {body : Body} {k len n v : Nat} {a : Word} (b : Bank)
    (he : exec i s = s.instr c accept pre legal own cost body) (hn : own.length = len)
    (h : Starts s c r accept pre len) (hl : legal = true) (hk : cost (s.cpu0 c r pre len) = k)
    (hy : body (s.cpu c r pre len k) = .ok { s.cpu c r pre len k with
      dev := (s.cpu c r pre len k).dev.wrMem c a n v, b := b })
    (hs : Stored (s.found c) ((s.found c).wrMem c a n v) c a n v) :
    ∃ t, exec i s = .next t ∧ RetiresStoring s t c r k b (s.after c r pre len) a n v := by
  subst hn
  rw [Dev.wrMem_eq] at hy
  obtain ⟨t, h1, h2, h3⟩ := State.instr_retires b (s.after c r pre own.length) _ h hl hk hy
  refine ⟨t, he.trans h1, h2, hs.of_mem rfl ?_⟩
  rw [h3]
  exact Dev.charge_wrMem_mem _ _ _ _ _ _ _ _

/-! ## Records in local data -/

theorem Memory.rdLE_add (m : Memory) (a n k : Nat) :
    Memory.rdLE m a (n + k) = Memory.rdLE m a n + 256 ^ n * Memory.rdLE m (a + n) k := by
  induction n generalizing a with
  | zero => simp [Memory.rdLE]
  | succ n ih =>
    rw [Nat.succ_add, Memory.rdLE, Memory.rdLE, ih (a + 1), Nat.pow_succ, show a + 1 + n = a + (n + 1) by omega,
      Nat.mul_add, Nat.mul_comm (256 ^ n) 256, Nat.mul_assoc, Nat.add_assoc]

theorem Memory.rdLE_lt (m : Memory) (a n : Nat) : Memory.rdLE m a n < 256 ^ n := by
  induction n generalizing a with
  | zero => simp [Memory.rdLE]
  | succ n ih =>
    have := ih (a + 1)
    have h := (Memory.rd8 m a).isLt
    rw [Memory.rdLE, Nat.pow_succ]
    omega

theorem Memory.rdLE_wrLE_ne (m : Memory) {a n b k : Nat} (v : Nat) (h : b + k ≤ a ∨ a + n ≤ b) :
    Memory.rdLE (Memory.wrLE m a n v) b k = Memory.rdLE m b k := by
  induction k generalizing b with
  | zero => rfl
  | succ k ih =>
    rw [Memory.rdLE, Memory.rdLE, Memory.rd8_wrLE_ne m v (by omega), ih (by omega)]

/-- A word of a record in local data. -/
theorem Dev.rdMem_word (d : Dev) (c : Nat) {a : Word} {off : Nat} (h1 : 0x10000000 ≤ a.toNat) (h2 : a.toNat + off < 0x10200000) (n : Nat) :
    d.rdMem c (a + BitVec.ofNat 32 off) n = Memory.rdLE d.mem.data (dataAddr c a.toNat + off) n := by
  have ht : (a + BitVec.ofNat 32 off).toNat = a.toNat + off := by
    rw [BitVec.toNat_add, BitVec.toNat_ofNat]; omega
  have hr : regionOf (a + BitVec.ofNat 32 off) = some .data := regionOf_of_data (by omega) (by omega)
  have hd : dataAddr c (a.toNat + off) = dataAddr c a.toNat + off := by unfold dataAddr; omega
  simp only [Dev.rdMem, hr, ht, hd]

/-- A word of a record in local data written. -/
theorem Dev.wrMem_word (d : Dev) (c : Nat) {a : Word} {off : Nat} (h1 : 0x10000000 ≤ a.toNat) (h2 : a.toNat + off < 0x10200000) (n v : Nat) :
    d.wrMem c (a + BitVec.ofNat 32 off) n v =
      { d with mem := { d.mem with data := Memory.wrLE d.mem.data (dataAddr c a.toNat + off) n v } } := by
  have ht : (a + BitVec.ofNat 32 off).toNat = a.toNat + off := by
    rw [BitVec.toNat_add, BitVec.toNat_ofNat]; omega
  have hr : regionOf (a + BitVec.ofNat 32 off) = some .data := regionOf_of_data (by omega) (by omega)
  have hd : dataAddr c (a.toNat + off) = dataAddr c a.toNat + off := by unfold dataAddr; omega
  simp only [Dev.wrMem, hr, ht, hd]

/-- What Stored says, for n bytes of local data and any way to have written them. -/
theorem Stored.of_data {d e : Dev} {c : Nat} {a : Word} {n v : Nat} {m : Memory} (h1 : 0x10000000 ≤ a.toNat)
    (h2 : a.toNat + n ≤ 0x10200000) (hn : 0 < n) (he : e.mem = { d.mem with data := m })
    (hv : Memory.rdLE m (dataAddr c a.toNat) n = v)
    (hb : ∀ k, k < dataAddr c a.toNat ∨ dataAddr c a.toNat + n ≤ k → Memory.rd8 m k = Memory.rd8 d.mem.data k) :
    Stored d e c a n v := by
  have hr : regionOf a = some .data := regionOf_of_data h1 (by omega)
  constructor
  · simp only [Dev.rdMem, hr, he, hv]
  · intro c' a' ha
    by_cases hr' : regionOf a' = some .data
    · obtain ⟨lo1, hi1⟩ := regionOf_data hr'
      simp only [Dev.rdMem, hr', he, Memory.rdLE_one]
      rw [hb]
      refine slots_apart (by omega) (by omega) ?_
      rcases ha with ha | ha | ha | ⟨ha, -⟩
      · exact absurd (hr'.trans hr.symm) ha
      · left; omega
      · right; left; omega
      · right; right; exact ha
    · simp only [Dev.rdMem, he]
      cases h' : regionOf a' with
      | none => rfl
      | some x => cases x <;> first | rfl | exact absurd h' hr'
  · rw [he]

/-- The conclusion of RetiresStoring for an instruction whose body changes the memories to m and the bank. -/
theorem State.instr_stored {s : State} {i : Instr} {c : Nat} {r : Run} {accept : List PrefixKind} {pre : Fetch}
    {own : List Byte} {legal : Bool} {cost : Cpu → Nat} {body : Body} {k len n v : Nat} {a : Word} (b : Bank) (m : Mems)
    (he : exec i s = s.instr c accept pre legal own cost body) (hn : own.length = len)
    (h : Starts s c r accept pre len) (hl : legal = true) (hk : cost (s.cpu0 c r pre len) = k)
    (hy : body (s.cpu c r pre len k) = .ok { s.cpu c r pre len k with
      dev := { (s.cpu c r pre len k).dev with mem := m }, b := b })
    (hs : Stored (s.found c) { s.found c with mem := m } c a n v) :
    ∃ t, exec i s = .next t ∧ RetiresStoring s t c r k b (s.after c r pre len) a n v := by
  subst hn
  obtain ⟨t, h1, h2, h3⟩ := State.instr_retires b (s.after c r pre own.length) m h hl hk hy
  exact ⟨t, he.trans h1, h2, hs.of_mem rfl h3⟩

/-! ## Accesses that meet no fault -/

/-- A load of size bytes that meets neither a fault nor an error, outside the CSR window. -/
theorem Cpu.load_ok {x : Cpu} {a : Word} {size : Nat} {g : Region} (ha : a.toNat % size = 0) (hg : regionOf a = some g)
    (hc : g ≠ .csr) (hn : g = .nvs → x.dev.nvsReady = true) :
    x.load a size true .clean = .ok (x, x.dev.rdMem x.c a size) := by
  have hm : x.mayAccess a size true = .ok () := by
    simp only [Cpu.mayAccess, orTrap, ha, BEq.rfl, if_true, hg, bind, Except.bind]
    cases g <;> first | rfl | exact absurd rfl hc | skip
    simp [hn rfl]
  simp only [Cpu.load, hm, Cpu.meet, bind, Except.bind, hg, pure, Except.pure]
  rw [if_neg (by simpa using hc)]

/-- A store of size bytes to local data or an image shadow. -/
theorem Cpu.store_ok {x : Cpu} {a : Word} {size v : Nat} (ha : a.toNat % size = 0)
    (hg : regionOf a = some .data ∨ regionOf a = some .shadow) :
    x.store a size true v = .ok (x.withDev (x.dev.wrMem x.c a size v)) := by
  have hm : x.mayAccess a size true = .ok () := by
    rcases hg with hg | hg <;> simp only [Cpu.mayAccess, orTrap, ha, BEq.rfl, if_true, hg, bind, Except.bind]
  rcases hg with hg | hg <;> simp only [Cpu.store, hm, bind, Except.bind, hg]

end Sys2Proof.Machine
end

