-- ==== Sys2Proof/Laws/Event.lean ====
section
/-!
SUPPORT. How a command of the blocks runs: what it does to the device, and what of that stands after what follows it.
-/
namespace Sys2Proof.Machine

theorem Dev.doAwake_of {d : Dev} {t : Nat} {f : Nat → Dev → Dev} (h : d.awake = true) :
    d.doAwake t f = ((f t (d.upTo t)).settleOuts t).settle := by simp [Dev.doAwake, h]

/-- A command that takes no time. -/
theorem Does.of_upd {s : State} {i : Instr} {f : Nat → Dev → Dev} {P : Dev → Dev → Prop} (he : exec i s = s.upd f)
    (h : s.dev.awake = true) (hp : P (s.dev.upTo s.mono) ((f s.mono (s.dev.upTo s.mono)).settleOuts s.mono).settle) :
    Does s i s.mono P := ⟨_, he, rfl, rfl, by simpa only [Dev.doAwake_of h] using hp⟩

/-- An event of the world, dt ns on. -/
theorem Does.of_event {s : State} {i : Instr} {dt : Nat} {f : Nat → Dev → Dev} {P : Dev → Dev → Prop}
    (he : exec i s = s.event dt f) (h : s.dev.awake = true)
    (hp : P (s.dev.upTo (s.mono + dt)) ((f (s.mono + dt) (s.dev.upTo (s.mono + dt))).settleOuts (s.mono + dt)).settle) :
    Does s i (s.mono + dt) P := ⟨_, he, rfl, rfl, by simpa only [Dev.doAwake_of h] using hp⟩

/-- An event of the device's clocks at an instant that is due. -/
theorem Does.of_at {s : State} {i : Instr} {due : Nat} {f : Nat → Dev → Dev} {P : Dev → Dev → Prop}
    (he : exec i s = s.at due f) (h : s.dev.awake = true)
    (hp : P (s.dev.upTo (max s.mono due)) ((f (max s.mono due) (s.dev.upTo (max s.mono due))).settleOuts (max s.mono due)).settle) :
    Does s i (max s.mono due) P := ⟨_, he, rfl, rfl, by simpa only [Dev.doAwake_of h] using hp⟩

/-! ## What stands after what follows a command -/

theorem Dev.settled_rd (d : Dev) (t : Nat) {off : Nat} (h : off ∉ [Reg.INT_FIRST, Reg.BIO_BO0, Reg.BIO_BO1]) :
    (d.settleOuts t).settle.rd off = d.rd off := (Aside.settled d t).regs off (by simpa using h)

theorem Dev.settled_fld (d : Dev) (t : Nat) {f : Fld} (h : f.off ∉ [Reg.INT_FIRST, Reg.BIO_BO0, Reg.BIO_BO1]) :
    (d.settleOuts t).settle.fld f = d.fld f := by rw [Dev.fld, Dev.settled_rd d t h]; rfl

theorem Dev.settled_task (d : Dev) (t n : Nat) : (d.settleOuts t).settle.task n = d.task n :=
  Dev.task_of_tasks (Aside.settled d t).tasks n

theorem Dev.settled_queue (d : Dev) (t n : Nat) : (d.settleOuts t).settle.queue n = d.queue n :=
  Dev.queue_of_queues (Aside.settled d t).queues n

/-- What follows a command changes nothing of what Only speaks of. -/
theorem Only.settled {d e : Dev} {l : List Part} {r : List Nat} (h : Only d e l r) (t : Nat) :
    Only d (e.settleOuts t).settle l r := by
  have a := Aside.settled e t
  have m := Dev.settled_mem e t
  have c := Dev.settled_cores e t
  have io : Part.same e (e.settleOuts t).settle .io :=
    (Dev.settle_keeps (fun d => d.io.still) (fun _ _ => rfl) (fun _ _ => rfl) (e.settleOuts t)).trans
      (Dev.settleOuts_keeps (fun d => d.io.still) (fun _ _ => rfl) (fun _ _ => rfl) (fun _ _ => rfl)
        (fun _ _ => rfl) (fun _ _ => rfl) e t)
  constructor
  · intro p hp
    have := h.parts p hp
    cases p
    case io => exact Eq.trans io this
    case csr => trivial
    all_goals (simp only [Part.same, m, c, a.phase, a.latch, a.tasks, a.modeChange, a.keyPin, a.fullLoad, a.formats,
      a.ang, a.time, a.net, a.can, a.queues, a.msix, a.plane, a.gooseBits, a.path, a.nvs, a.xch, a.hsb, a.stand, a.rtc,
      a.power, a.sec, a.flash, a.tap, a.host, a.readData, a.freeNo]; exact this)
  · intro hc off ho
    rw [a.regs off (fun hm => ho (List.mem_append_right r (by simpa using hm)))]
    exact h.regs hc off ho

theorem Only.refl (d : Dev) (l : List Part) (r : List Nat) : Only d d l r := by
  constructor
  · intro p _; cases p <;> simp [Part.same]
  · intro _ _ _; rfl

theorem Part.same_trans {d e f : Dev} {p : Part} (h : Part.same d e p) (k : Part.same e f p) : Part.same d f p := by
  cases p
  case images => exact ⟨k.1.trans h.1, k.2.1.trans h.2.1, k.2.2.1.trans h.2.2.1, k.2.2.2.trans h.2.2.2⟩
  case buffers => exact ⟨k.1.trans h.1, k.2.1.trans h.2.1, k.2.2.trans h.2.2⟩
  case modes => exact ⟨k.1.trans h.1, k.2.trans h.2⟩
  case loading => exact ⟨k.1.trans h.1, k.2.trans h.2⟩
  case plane => exact ⟨k.1.trans h.1, k.2.trans h.2⟩
  case csr => trivial
  all_goals exact Eq.trans k h

theorem Only.trans {d e f : Dev} {l : List Part} {r : List Nat} (h : Only d e l r) (k : Only e f l r) : Only d f l r :=
  ⟨fun p hp => Part.same_trans (h.parts p hp) (k.parts p hp), fun hc off ho => (k.regs hc off ho).trans (h.regs hc off ho)⟩

theorem Only.more {d e : Dev} {l l' : List Part} {r r' : List Nat} (h : Only d e l r) (hl : ∀ p ∈ l, p ∈ l')
    (hr : ∀ o ∈ r, o ∈ r') : Only d e l' r' :=
  ⟨fun p hp => h.parts p (fun hm => hp (hl p hm)), fun hc off ho => h.regs (fun hm => hc (hl _ hm)) off (fun hm => ho (by
    rcases List.mem_append.mp hm with hm | hm
    · exact List.mem_append_left _ (hr off hm)
    · exact List.mem_append_right _ hm))⟩

/-- A write of a register. -/
theorem Only.of_wr (d : Dev) (off : Nat) (v : Word) : Only d (d.wr off v) [] [off] := by
  constructor
  · intro p _; cases p <;> simp [Part.same, Dev.wr]
  · intro _ o ho; exact Dev.rd_wr_ne _ _ (fun h => ho (by simp [h]))

theorem Only.of_setFld (d : Dev) (f : Fld) (n : Nat) : Only d (d.setFld f n) [] [f.off] := Only.of_wr _ _ _

end Sys2Proof.Machine
end

