-- ==== Sys2Proof/Laws/Rep.lean ====
section
/-!
SUPPORT. How an instruction under REP runs (R55, R96): the law that every repetition follows, for a body that changes the
run's bank and the memories only.
-/
namespace Sys2Proof.Machine

/-- Device d is as j repetitions of ticks ticks each leave it: ms tells the memories after each, and the run's bank is b. -/
structure RepAt (s : State) (c : Nat) (r : Run) (ticks : Nat) (ms : Nat → Mems) (j : Nat) (d : Dev) (b : Bank) : Prop where
  bank : d.bank c r.bank = b
  banks : ∀ i, i ≠ r.bank → d.bank c i = s.dev.bank c i
  cores : ∀ e, e ≠ c → d.core e = s.dev.core e
  runs : (d.core c).runs = (s.dev.core c).runs ∧ (d.core c).waiting = (s.dev.core c).waiting
  time : (d.core c).time = (s.dev.core c).time + j * ticks
  used : (d.rd (Reg.TSK_USED r.task)).toNat = min 0xFFFFFFFF (((s.found c).rd (Reg.TSK_USED r.task)).toNat + j * ticks)
  aside : Aside (s.found c) d [Reg.TSK_USED r.task]
  regs : ∀ off, off ≠ Reg.TSK_USED r.task → d.rd off = (s.found c).rd off
  mem : d.mem = ms j

/-- The core in repetition j, its ticks charged. -/
def State.repCpu (s : State) (c : Nat) (r : Run) (pre : Fetch) (n ticks k : Nat) (bs : Nat → Bank) (d : Dev) (j : Nat) : Cpu :=
  { dev := d.charge c r.task ticks, c := c, run := r, b := repBank bs k j, m := modsOf pre, next := s.after c r pre n, rep := j }

variable {s : State} {c : Nat} {r : Run} {k ticks n : Nat} {bs : Nat → Bank} {ms : Nat → Mems} {accept : List PrefixKind}
  {pre : Fetch}

theorem RepAt.curRun {j : Nat} {d : Dev} {b : Bank} (h : RepAt s c r ticks ms j d b) : d.curRun c = (s.found c).curRun c := by
  simp only [Dev.curRun, h.runs.1, h.runs.2, State.found_core]

theorem Bank.pc_land (b : Bank) : b.land.pc = b.pc := by
  have go (l : List ShadowWrite) (b : Bank) : (l.foldl Bank.deferred b).pc = b.pc := by
    induction l generalizing b with
    | nil => rfl
    | cons x l ih => rw [List.foldl_cons, ih]; unfold Bank.deferred; split <;> rfl
  exact go _ _

/-- Before any repetition. -/
theorem RepAt.start (hc : ms 0 = (s.found c).mem) : RepAt s c r ticks ms 0 (s.found c) (s.bankOf c r) where
  bank := rfl
  banks i _ := State.found_bank s c c i
  cores e _ := State.found_core s c e
  runs := by simp only [State.found_core, and_self]
  time := by simp [State.found_core]
  used := by have := ((s.found c).rd (Reg.TSK_USED r.task)).isLt; omega
  aside := Aside.refl _ _
  regs _ _ := rfl
  mem := hc.symm

/-- A repetition leaves the memories as ms says and bank b'. -/
theorem RepAt.advance {j : Nat} {d : Dev} {b : Bank} (h : RepAt s c r ticks ms j d b) (b' : Bank) :
    RepAt s c r ticks ms (j + 1) ({ d.charge c r.task ticks with mem := ms (j + 1) }.setBank c r.bank b') b' := by
  have hcore : ∀ e, Dev.core { d.charge c r.task ticks with mem := ms (j + 1) } e = (d.charge c r.task ticks).core e :=
    Dev.core_of_cores rfl
  constructor
  case bank => simp
  case banks =>
    intro i hi
    rw [Dev.bank_setBank_ne _ _ (Or.inr hi), ← h.banks i hi]
    simp [Dev.bank, hcore, Dev.charge_core, Core.bank]
  case cores =>
    intro e he
    rw [Dev.core_setBank_ne _ _ _ he, hcore, Dev.charge_core_ne _ _ _ he, h.cores e he]
  case runs => simp [hcore, Dev.charge_core, h.runs]
  case time => simp [hcore, Dev.charge_core, h.time, Nat.succ_mul]; omega
  case used =>
    show ((d.charge c r.task ticks).rd (Reg.TSK_USED r.task)).toNat = _
    rw [Dev.rd_charge, h.used, BitVec.toNat_ofNat, Nat.mod_eq_of_lt (by omega), Nat.succ_mul]
    omega
  case aside =>
    exact h.aside.trans ((Aside.of_charge _ _ _ _).trans ((Aside.of_mem _ _).trans (Aside.of_setBank _ _ _ _)).more)
  case regs => exact fun off ho => (Dev.rd_wr_ne _ _ ho).trans (h.regs off ho)
  case mem => rfl

/-- R55, R57: between two repetitions nothing breaks the instruction off. -/
theorem RepAt.goesOn {j : Nat} {d : Dev} {b : Bank} (h : RepAt s c r ticks ms j d b) (hs : StartsRep s c r accept pre n k ticks)
    (hj : j < k) : d.overrunDue r = false ∧ d.execRun c = some r ∧ d.preempting c r = none := by
  have hfld (f : Fld) (m : Nat) (hf : f.off = Reg.TSK_CFG m) : d.fld f = (s.found c).fld f := by
    unfold Dev.fld
    rw [hf, h.regs _ (by simp only [Reg.TSK_CFG, Reg.TSK_USED]; omega)]
  refine ⟨?_, ?_, ?_⟩
  · unfold Dev.overrunDue
    cases ho : r.overrun with
    | true => rfl
    | false =>
      have hb := h.regs (Reg.TSK_BUDGET r.task) (by simp only [Reg.TSK_BUDGET, Reg.TSK_USED]; omega)
      have hu := h.used
      have hc := hs.covered ho
      have hm : j * ticks ≤ (k - 1) * ticks := Nat.mul_le_mul_right _ (by omega)
      simp only [Bool.not_false, Bool.true_and, hb]
      have : ¬ ((s.found c).rd (Reg.TSK_BUDGET r.task)).toNat ≤ (d.rd (Reg.TSK_USED r.task)).toNat := by omega
      exact Bool.eq_false_iff.mpr (fun hle => this (Nat.le_of_ble_eq_true hle))
  · rw [← hs.runs, Dev.execRun, Dev.execRun, h.curRun]
  · have hready : d.readyTasks c = (s.found c).readyTasks c := by
      have ht : d.coreTasks c = (s.found c).coreTasks c := by
        unfold Dev.coreTasks Dev.enabled Dev.flag
        simp only [hfld (F.TSK_CFG_EN _) _ rfl, hfld (F.TSK_CFG_CORE _) _ rfl]
      unfold Dev.readyTasks Dev.task
      rw [ht, h.aside.tasks]
    have habove (m : Nat) : d.above m r = (s.found c).above m r := by
      unfold Dev.above
      simp only [hfld (F.TSK_CFG_PRIO _) _ rfl, hfld (F.TSK_CFG_BANK _) _ rfl]
    unfold Dev.preempting
    rw [List.filter_eq_nil_iff.mpr]
    · rfl
    · intro p hp
      rw [hready] at hp
      simp [habove, hs.quiet p hp]

/-- R96: left repetitions from repetition j on, of an instruction whose body changes the bank and the memories only. -/
theorem RepAt.run {cost : Cpu → Nat} {body : Body} (hs : StartsRep s c r accept pre n k ticks)
    (hpc : ∀ j, j ≤ k → (bs j).pc = (s.bankOf c r).pc)
    (hcost : ∀ j d, j < k → RepAt s c r ticks ms j d (repBank bs k j) → cost { s.repCpu c r pre n 0 k bs d j with dev := d } = ticks)
    (hy : ∀ j d, j < k → RepAt s c r ticks ms j d (repBank bs k j) →
      body (s.repCpu c r pre n ticks k bs d j) = .ok { s.repCpu c r pre n ticks k bs d j with
        dev := { d.charge c r.task ticks with mem := ms (j + 1) }, b := bs (j + 1) }) :
    ∀ left j d, j + left + 1 = k → RepAt s c r ticks ms j d (repBank bs k j) →
      RepAt s c r ticks ms k (Dev.repetitions c (modsOf pre) (s.bankOf c r).pc (s.after c r pre n) false cost body (left + 1) j r d)
        { (bs k).land with pc := s.after c r pre n, repLeft := 0, repSkip := false } := by
  intro left
  induction left with
  | zero =>
    intro j d hk h
    have hj : j < k := by omega
    have hx := hcost j d hj h
    have hyj := hy j d hj h
    rw [Dev.repetitions]
    simp only [State.repCpu] at hx hyj
    have hcur : (d.charge c r.task ticks).curRun c = some r :=
      (Dev.charge_curRun _ _ _ _).trans (h.curRun.trans (Dev.curRun_of_execRun hs.runs))
    have hcur' : Dev.curRun { d.charge c r.task ticks with mem := ms (j + 1) } c = some r := hcur
    simp only [Cpu.once, Cpu.withDev, h.bank, hx, hyj, Bool.false_eq_true, if_false, if_true, Cpu.retire, hcur']
    have hk' : k = j + 1 := by omega
    subst hk'
    exact h.advance _
  | succ left ih =>
    intro j d hk h
    have hj : j < k := by omega
    have hx := hcost j d hj h
    have hyj := hy j d hj h
    rw [Dev.repetitions]
    simp only [State.repCpu] at hx hyj
    have hcur : (d.charge c r.task ticks).curRun c = some r :=
      (Dev.charge_curRun _ _ _ _).trans (h.curRun.trans (Dev.curRun_of_execRun hs.runs))
    have hcur' : Dev.curRun { d.charge c r.task ticks with mem := ms (j + 1) } c = some r := hcur
    have hb1 : repBank bs k (j + 1) = { (bs (j + 1)).land with pc := (s.bankOf c r).pc, repLeft := left + 1, repSkip := false } := by
      have := hpc (j + 1) (by omega)
      rw [← Bank.pc_land] at this
      have hl : k - (j + 1) = left + 1 := by omega
      simp only [repBank, Nat.succ_ne_zero, if_false, hl, ← this]
    have hn := h.advance (repBank bs k (j + 1))
    have hg := hn.goesOn hs (by omega : j + 1 < k)
    have hcn : Dev.curRun (Dev.setBank { d.charge c r.task ticks with mem := ms (j + 1) } c r.bank (repBank bs k (j + 1))) c = some r :=
      Dev.curRun_of_execRun hg.2.1
    simp only [Cpu.once, Cpu.withDev, h.bank, hx, hyj, Bool.false_eq_true, if_false, if_true, Cpu.retire, hcur',
      Nat.succ_ne_zero, Bool.false_and, ← hb1, hcn, hg.1, hg.2.1, hg.2.2, Option.isNone_none, and_self]
    exact ih (j + 1) _ (by omega) hn

/-- The state after an instruction under REP: the law of Retires. -/
theorem RepAt.retires {d : Dev} {b : Bank} {pc : Word}
    (h : RepAt s c r ticks ms k d { b.land with pc := pc, repLeft := 0, repSkip := false }) :
    Retires s (s.coreEnd c d) c r (k * ticks) b pc := by
  have hfin : ∀ t e, (d.settleOuts t).settle.core e = d.core e := fun t e =>
    Dev.core_of_cores (Dev.settled_cores d t) e
  have hbk : ∀ t e j, (d.settleOuts t).settle.bank e j = d.bank e j := fun t e j => by simp only [Dev.bank, hfin]
  constructor
  case bank => simp only [State.coreEnd, hbk, h.bank]
  case banks => intro j hj; simp only [State.coreEnd, hbk, h.banks j hj]
  case cores => intro e he; simp only [State.coreEnd, hfin, h.cores e he]
  case runs => simp only [State.coreEnd, hfin, h.runs, and_self]
  case time => simp only [State.coreEnd, hfin, h.time]
  case used =>
    refine ((Aside.settled _ _).regs _ (used_apart _)).trans (BitVec.eq_of_toNat_eq ?_)
    rw [h.used, BitVec.toNat_ofNat, Nat.mod_eq_of_lt (by omega)]
  case mono => simp only [State.coreEnd, h.time]
  case pending => rfl
  case aside => exact h.aside.trans (Aside.settled _ _).more

/-- R96: the count of a legal REP is not 0. -/
theorem rep_pos (h : prefixesOk accept pre = true) (hc : (modsOf pre).rep = some k) : 0 < k := by
  have go (l : List Prefix) (m : Mods) (hl : l.all (prefixOk accept) = true) (hm : ∀ i, m.rep = some i → 0 < i) :
      ∀ i, (l.foldl Mods.take m).rep = some i → 0 < i := by
    induction l generalizing m with
    | nil => exact hm
    | cons p l ih =>
      simp only [List.all_cons, Bool.and_eq_true] at hl
      refine ih _ hl.2 ?_
      cases p with
      | rep x =>
        intro i hi
        have hx : x ≠ 0 := by simpa [prefixOk] using (Bool.and_eq_true_iff.mp hl.1).2
        have : x.toNat = i := by simpa [Mods.take] using hi
        have : x.toNat ≠ 0 := fun h0 => hx (BitVec.eq_of_toNat_eq (by simpa using h0))
        omega
      | _ => exact hm
  simp only [prefixesOk, Bool.and_eq_true] at h
  exact go _ {} h.2 (by simp) k hc

/-- An instruction under REP whose repetitions change the bank to bs 1, bs 2, … and the memories to ms 1, ms 2, …. -/
theorem State.instr_reps {own : List Byte} {legal : Bool} {cost : Cpu → Nat} {body : Body}
    (hs : StartsRep s c r accept pre own.length k ticks) (hl : legal = true) (hb : bs 0 = s.bankOf c r)
    (hm : ms 0 = (s.found c).mem) (hpc : ∀ j, j ≤ k → (bs j).pc = (s.bankOf c r).pc)
    (hcost : ∀ j d, j < k → RepAt s c r ticks ms j d (repBank bs k j) →
      cost { s.repCpu c r pre own.length 0 k bs d j with dev := d } = ticks)
    (hy : ∀ j d, j < k → RepAt s c r ticks ms j d (repBank bs k j) →
      body (s.repCpu c r pre own.length ticks k bs d j) = .ok { s.repCpu c r pre own.length ticks k bs d j with
        dev := { d.charge c r.task ticks with mem := ms (j + 1) }, b := bs (j + 1) }) :
    ∃ t, s.instr c accept pre legal own cost body = .next t ∧
      Retires s t c r (k * ticks) (bs k) (s.after c r pre own.length) ∧ t.dev.mem = ms k := by
  have hk : ∃ m, m + 1 = k := ⟨k - 1, Nat.sub_add_cancel (rep_pos hs.accepted hs.count)⟩
  obtain ⟨m, hm1⟩ := hk
  have h0 : RepAt s c r ticks ms 0 (s.found c) (repBank bs k 0) := by
    simp only [repBank, if_true, hb]; exact RepAt.start hm
  have hend := RepAt.run hs hpc hcost hy m 0 _ (by omega) h0
  refine ⟨_, ?_, hend.retires, ?_⟩
  · have hbk : (s.found c).bank c r.bank = s.bankOf c r := rfl
    have hlen : ((pre.prefixes.flatMap prefixBytes) ++ own).length = lengthWith pre own.length := by simp [lengthWith]
    have hin : ¬ 0x400000 < (s.bankOf c r).pc.toNat + lengthWith pre own.length := Nat.not_lt.mpr hs.inCode
    have hnext : (s.bankOf c r).pc + BitVec.ofNat 32 (lengthWith pre own.length) = s.after c r pre own.length := rfl
    have hreps : repsOf (modsOf pre) (s.bankOf c r) = k := by simp [repsOf, hs.count, hs.whole]
    have hn : (modsOf pre).rep.getD 1 - k = 0 := by simp [hs.count]
    have hbytes : fetchedBytes pre own = pre.prefixes.flatMap prefixBytes ++ own := fetchedBytes_whole hs.accepted own
    have hecc : (s.found c).eccCounted 0 c pre.corrected = s.found c := by rw [hs.clean]; rfl
    have hd : Dev.instr c accept pre legal own cost body (s.found c) = Dev.repetitions c (modsOf pre) (s.bankOf c r).pc
        (s.after c r pre own.length) false cost body (m + 1) 0 r (s.found c) := by
      simp only [Dev.instr, hecc, hbytes, hs.runs, hs.budget, hs.alone, Option.isSome_none, Bool.or_false, Bool.false_eq_true,
        if_false, hbk, hlen, hin, hs.accepted, hl, Bool.and_self, Bool.not_true, hs.cond, hreps, hn, hnext, hm1]
    have hcur := hend.curRun.trans (Dev.curRun_of_execRun hs.runs)
    rw [State.instr, State.onCore_awake hs.awake, hd, Dev.proceed_logic hcur (Dev.logic_of_execRun hs.runs)]
  · exact (Dev.settled_mem _ _).trans hend.mem

/-- R96: the banks after each repetition of an instruction that changes the bank by f. -/
def repBanks (f : Bank → Bank) (b : Bank) (k : Nat) : Nat → Bank
  | 0 => b
  | j + 1 => f (if j = 0 then b else { (repBanks f b k j).land with repLeft := k - j, repSkip := false })

theorem repBanks_succ (f : Bank → Bank) (b : Bank) (k j : Nat) : repBanks f b k (j + 1) = f (repBank (repBanks f b k) k j) := by
  cases j with
  | zero => rfl
  | succ j => simp only [repBanks, repBank, Nat.succ_ne_zero, if_false]

/-- The conclusion of GivesRep for an instruction each repetition of which changes the run's bank by f, and nothing else. -/
theorem GivesRep.of_instr {i : Instr} {own : List Byte} {legal : Bool} {body : Body} {P : Bank → Bank → Prop} {cost : Cpu → Nat}
    (f : Bank → Bank) (he : exec i s = s.instr c accept pre legal own cost body) (hn : own.length = n)
    (hs : StartsRep s c r accept pre n k ticks) (hl : legal = true) (hk : ∀ x, cost x = ticks) (hpc : ∀ b, (f b).pc = b.pc)
    (hy : ∀ j d, j < k → d.mem = (s.found c).mem →
      body (s.repCpu c r pre n ticks k (repBanks f (s.bankOf c r) k) d j) =
        .ok { s.repCpu c r pre n ticks k (repBanks f (s.bankOf c r) k) d j with
          b := f (repBank (repBanks f (s.bankOf c r) k) k j) })
    (hP : ∀ b, P b (f b)) : GivesRep s i c r ticks k (s.after c r pre n) P := by
  subst hn
  have hpcs : ∀ j, (repBanks f (s.bankOf c r) k j).pc = (s.bankOf c r).pc := by
    intro j
    induction j with
    | zero => rfl
    | succ j ih =>
      rw [repBanks_succ, hpc]
      cases j with
      | zero => rfl
      | succ j => simp only [repBank, Nat.succ_ne_zero, if_false, Bank.pc_land]; exact ih
  have hy' : ∀ j d, j < k → RepAt s c r ticks (fun _ => (s.found c).mem) j d (repBank (repBanks f (s.bankOf c r) k) k j) →
      body (s.repCpu c r pre own.length ticks k (repBanks f (s.bankOf c r) k) d j) =
        .ok { s.repCpu c r pre own.length ticks k (repBanks f (s.bankOf c r) k) d j with
          dev := { d.charge c r.task ticks with mem := (s.found c).mem }, b := repBanks f (s.bankOf c r) k (j + 1) } := by
    intro j d hj h
    have hm : (d.charge c r.task ticks).mem = (s.found c).mem := h.mem
    rw [hy j d hj h.mem, repBanks_succ, ← hm]
    rfl
  obtain ⟨t, h1, h2, h3⟩ := State.instr_reps hs hl rfl rfl (fun j _ => hpcs j) (fun _ _ _ _ => hk _) hy'
  exact ⟨t, _, he.trans h1, rfl, fun j _ => by rw [repBanks_succ]; exact hP _, h2, h3⟩

end Sys2Proof.Machine
end

