-- ==== Sys2Proof/Machine/Package.lean ====
section
/-!
DEFINITION. The balls of the package (R453 to R458): where each signal stands, and the net of each power and ground ball.
-/
namespace Sys2Proof.Machine

/-- R453: a ball by its row and column, each from 1 to 34. -/
structure Ball where
  row : Nat
  col : Nat
deriving DecidableEq, Repr

/-! ## Signals (R454 to R457) -/

/-- R454: the balls of BIn, BOk and BRBn, and of the two poles of analog input c. -/
def ballBi (n : Nat) : Ball := ⟨1 + n / 32, 3 + n % 32⟩
def ballBo (k : Nat) : Ball := ⟨4 + k / 32, 3 + k % 32⟩
def ballBrb (n : Nat) : Ball := ⟨6, 3 + n⟩
def ballAin (negative : Bool) (c : Nat) : Ball := ⟨if negative then 34 else 33, 3 + c⟩

/-- R455: the signals of row 07 and of row 08 from column 03 on. -/
def lowSpeed07 : List String :=
  ["XSPI_SCLK", "XSPI_CS_N", "XSPI_DQS", "XSPI_DQ0", "XSPI_DQ1", "XSPI_DQ2", "XSPI_DQ3", "XSPI_DQ4", "XSPI_DQ5",
   "XSPI_DQ6", "XSPI_DQ7", "CAN0_TX", "CAN0_RX", "CAN1_TX", "CAN1_RX", "CAN2_TX", "CAN2_RX", "CAN3_TX",
   "CAN3_RX", "JTAG_TCK", "JTAG_TMS", "JTAG_TDI", "JTAG_TDO", "JTAG_TRST_N", "UART_TX", "UART_RX", "KEY0",
   "KEY1", "KEY2", "MDC", "MDIO"]
def lowSpeed08 : List String :=
  ["IRQ_OUT0", "IRQ_OUT1", "IRQ_OUT2", "IRQ_OUT3", "IRQ_OUT4", "IRQ_OUT5", "IRQ_OUT6", "IRQ_OUT7", "PPS_IN",
   "PPS_OUT", "IRIGB_IN", "ZC_IN", "LEASE_N", "ROLE0", "ROLE1", "PREF", "POS0", "POS1", "POS2", "SPORE_N",
   "RESET_N", "FAULT_N", "FORCE_SAFE_N", "REFCLK", "RTC_XI", "RTC_XO", "VBAT", "VREF_ADC", "VREF_AGND",
   "PHY_RST_N", "PHY_INT_N"]

/-- R456: the poles of SerDes lane l: 0 to 3 ETH, 4 and 5 rhizome port 0, 6 and 7 rhizome port 1, 8 and 9 PCIe. -/
def ballLane (l : Nat) (receive negative : Bool) : Ball :=
  ⟨(if negative then 10 else 9) + 2 * l, if receive then 34 else 33⟩

/-- R457: the signals of one VCORE phase, of the four phases, and of the integrated bucks. -/
def phasePins : List String := ["VC_HG", "VC_LG", "VC_SW", "VC_BST", "VC_CSP", "VC_CSN"]
def buckRails : List String := ["VSRAM", "VSER", "VANA", "VIO18", "VIO33"]
def buckPins : List String := ["_PVIN", "_PVIN", "_LX", "_LX", "_FB"]

/-- R457: the signal of a PMU ball in column 01 or 02; the empty name elsewhere. -/
def pmuName (b : Ball) : String :=
  if b.col = 1 then
    if b.row < 11 then (["VIN_PMU", "VIN_PMU", "VIN_SENSE", "HOLD_EN"]).getD (b.row - 7) ""
    else phasePins.getD ((b.row - 11) % 6) "" ++ toString ((b.row - 11) / 6)
  else if b.row < 10 then (["VBK_CAP", "VC_FBP", "VC_FBN"]).getD (b.row - 7) ""
  else buckRails.getD ((b.row - 10) / 5) "" ++ buckPins.getD ((b.row - 10) % 5) ""

/-- a ≤ n ≤ b. -/
def between (a n b : Nat) : Bool := Nat.ble a n && Nat.ble n b

/-- R454: the ball carries a signal. -/
def Ball.isSignal (b : Ball) : Bool :=
  (between 1 b.row 6 && between 3 b.col 34) || (between 7 b.row 8 && between 3 b.col 33) ||
    (between 9 b.row 28 && between 33 b.col 34) || (between 7 b.row 34 && between 1 b.col 2) ||
    (between 33 b.row 34 && between 3 b.col 26)

/-! ## Power and ground (R458) -/

/-- The nets of power and ground. -/
inductive SupplyNet where
  | vcore
  | vsram
  | vser
  | vana
  | vio18
  | vio33
  | vss
deriving DecidableEq, Repr

/-- R458: a checkerboard of a net and VSS. -/
def checker (n : SupplyNet) (b : Ball) : SupplyNet := if (b.row + b.col) % 2 = 0 then n else .vss

/-- R458: a net in odd columns and VSS in even ones. -/
def striped (n : SupplyNet) (b : Ball) : SupplyNet := if b.col % 2 = 1 then n else .vss

/-- R458: the net of a ball that carries no signal. -/
def Ball.net (b : Ball) : Option SupplyNet :=
  if b.isSignal then none
  else if between 13 b.row 28 && between 7 b.col 28 then some (checker .vcore b)
  else if between 9 b.row 10 && between 3 b.col 32 then some (striped .vio33 b)
  else if between 11 b.row 12 && between 3 b.col 32 then some (striped .vio18 b)
  else if between 13 b.row 28 && between 3 b.col 6 then some (checker .vsram b)
  else if between 13 b.row 28 && between 29 b.col 32 then some (checker .vser b)
  else if between 29 b.row 30 && between 3 b.col 32 then some (striped .vsram b)
  else if between 31 b.row 32 && between 3 b.col 32 then some (striped .vana b)
  else if between 33 b.row 34 && between 27 b.col 28 then some .vana
  else some .vss

/-- The balls of the array. -/
def balls : List Ball := (List.range 34).flatMap (fun r => (List.range 34).map (fun c => ⟨r + 1, c + 1⟩))

/-- The count of the balls of a net. -/
def netCount (n : SupplyNet) : Nat := (balls.filter (fun b => b.net == some n)).length

end Sys2Proof.Machine
end

