-- ==== Sys2Proof/WellFormed.lean ====
section
/-!
DEFINITION. Well-formed commands: operands that name a core, a bank, a prefix byte, an address byte, a set of channels
or a CAN frame stay within what the spec numbers. exec is total on ill-formed commands as well.
-/
namespace Sys2Proof

/-- R87: the scan cores are 0 to 7. -/
def coreWf (c : Nat) : Bool := Nat.blt c 8

/-- R133: a scan core requester names a core and one of its 8 banks. -/
def requesterWf : Requester → Bool
  | .core c b => Nat.blt c 8 && Nat.blt b 8
  | _ => true

/-- R102, R103: the first opcode bytes of the map, the escape 0x0F among them. -/
def opcodeAssigned (b : BitVec 8) : Bool :=
  let n := b.toNat
  Nat.ble n 0x04 || n == 0x0F || (Nat.ble 0x10 n && Nat.ble n 0x21) || (Nat.ble 0x24 n && Nat.ble n 0x26) ||
    (Nat.ble 0x28 n && Nat.ble n 0x2A) || (Nat.ble 0x30 n && Nat.ble n 0x3C) || (Nat.ble 0x40 n && Nat.ble n 0x4A) ||
    (Nat.ble 0x50 n && Nat.ble n 0x58) || (Nat.ble 0x60 n && Nat.ble n 0x68) || (Nat.ble 0x70 n && Nat.ble n 0x78) ||
    (Nat.ble 0x80 n && Nat.ble n 0x8B) || (Nat.ble 0x90 n && Nat.ble n 0x92) || (Nat.ble 0xA0 n && Nat.ble n 0xA3)

/-- R102, R103: the second opcode bytes of the map. -/
def secondAssigned (b : BitVec 8) : Bool :=
  b == 0x00 || b == 0x01 || b == 0x10 || b == 0x11 || b == 0x20 || b == 0x21

/-- R93, R103: a reserved prefix byte is 0xF0, 0xF3 or 0xFF; a reserved opcode byte stands below 0xF0 and is not in the
map. -/
def prefixWf : Prefix → Bool
  | .reserved b => b == 0xF0 || b == 0xF3 || b == 0xFF || (Nat.blt b.toNat 0xF0 && !opcodeAssigned b)
  | .escaped b => !secondAssigned b
  | _ => true

/-- R94: a fourth prefix byte already faults, so no instruction shows more than four; nothing is read after a reserved
byte. -/
def fetchWf (f : Fetch) : Bool :=
  Nat.ble f.prefixes.length 4 && f.prefixes.all prefixWf && f.prefixes.dropLast.all (fun p => !p.endsDecode)

/-- R100: MODE 0 to 2 carry a 16-bit displacement. -/
def addrWf (m : MAddr) : Bool := m.mode == 3 || Nat.blt m.disp.toNat (2 ^ 16)

/-- R303: a sample of all 24 channels. -/
def channelsWf (l : List (BitVec 24)) : Bool := l.length == 24

/-- R274: a CAN frame: an 11-bit identifier in base format, the data bytes within what its format carries. -/
def canWf (f : CanFrame) : Bool :=
  (f.ide || Nat.blt f.id.toNat 2048) && Nat.ble f.data.length (if f.fdf then 64 else 8)

/-- A command is well formed. -/
def Instr.wf : Instr → Bool
  | .csrWrite r _ _ => requesterWf r
  | .firstWordRead r _ => requesterWf r
  | .readClear r _ => requesterWf r
  | .hostPartialAccess r _ _ => requesterWf r
  | .hostUnmappedAccess r _ _ => requesterWf r
  | .codeEccDoubleError _ _ => true
  | .deviceReset r _ => requesterWf r
  | .networkEngineRestart r _ => requesterWf r
  | .scanCoreRestart r _ _ => requesterWf r
  | .pathResolve r => requesterWf r
  | .pathResolutionDone _ _ => true
  | .pathUnitTimeout _ _ => true
  | .keyPatternChange _ _ => true
  | .firstScan _ => true
  | .periodicRelease _ => true
  | .angleRelease _ => true
  | .eventTaskRelease _ => true
  | .minIntervalExpiry _ => true
  | .heldReleaseDispatch _ => true
  | .catchupRelease _ => true
  | .dispatch _ _ => true
  | .preemptDispatch _ _ => true
  | .budgetOverrun _ => true
  | .outputInstant _ => true
  | .generationClose => true
  | .taskAckAll r => requesterWf r
  | .taskMaxClear r _ => requesterWf r
  | .meridian => true
  | .angSrcWrite r _ => requesterWf r
  | .angCompWrite r _ => requesterWf r
  | .referenceLoss _ _ => true
  | .referenceQualified _ _ _ => true
  | .holdoverExpiry => true
  | .angleJump raw => channelsWf raw
  | .stepFlagClear => true
  | .angleSampleSet raw => channelsWf raw
  | .timeSampleSet raw => channelsWf raw
  | .opNop core pre => coreWf core && fetchWf pre
  | .opHalt core pre => coreWf core && fetchWf pre
  | .opYield core pre => coreWf core && fetchWf pre
  | .opChkin core pre => coreWf core && fetchWf pre
  | .opEvt core pre _ => coreWf core && fetchWf pre
  | .opLd core pre _ _ => coreWf core && fetchWf pre
  | .opLdn core pre _ _ => coreWf core && fetchWf pre
  | .opAnd core pre _ _ => coreWf core && fetchWf pre
  | .opAndn core pre _ _ => coreWf core && fetchWf pre
  | .opOr core pre _ _ => coreWf core && fetchWf pre
  | .opOrn core pre _ _ => coreWf core && fetchWf pre
  | .opXor core pre _ _ => coreWf core && fetchWf pre
  | .opOut core pre _ _ => coreWf core && fetchWf pre
  | .opSet core pre _ _ => coreWf core && fetchWf pre
  | .opRst core pre _ _ => coreWf core && fetchWf pre
  | .opAndb core pre => coreWf core && fetchWf pre
  | .opOrb core pre => coreWf core && fetchWf pre
  | .opXorb core pre => coreWf core && fetchWf pre
  | .opNot core pre => coreWf core && fetchWf pre
  | .opDup core pre => coreWf core && fetchWf pre
  | .opPop core pre => coreWf core && fetchWf pre
  | .opRedge core pre _ _ => coreWf core && fetchWf pre
  | .opFedge core pre _ _ => coreWf core && fetchWf pre
  | .opTon core pre _ _ => coreWf core && fetchWf pre
  | .opTof core pre _ _ => coreWf core && fetchWf pre
  | .opTp core pre _ _ => coreWf core && fetchWf pre
  | .opCtu core pre _ _ => coreWf core && fetchWf pre
  | .opCtd core pre _ _ => coreWf core && fetchWf pre
  | .opCrst core pre _ _ => coreWf core && fetchWf pre
  | .opMov core pre _ _ => coreWf core && fetchWf pre
  | .opMovi core pre _ _ _ => coreWf core && fetchWf pre
  | .opMovx core pre _ _ => coreWf core && fetchWf pre
  | .opMovw core pre _ _ => coreWf core && fetchWf pre
  | .opLdw core pre m _ => coreWf core && fetchWf pre && addrWf m
  | .opLdh core pre m _ => coreWf core && fetchWf pre && addrWf m
  | .opLdhs core pre m _ => coreWf core && fetchWf pre && addrWf m
  | .opLdb core pre m _ => coreWf core && fetchWf pre && addrWf m
  | .opLdx core pre m _ => coreWf core && fetchWf pre && addrWf m
  | .opStw core pre m => coreWf core && fetchWf pre && addrWf m
  | .opSth core pre m => coreWf core && fetchWf pre && addrWf m
  | .opStb core pre m => coreWf core && fetchWf pre && addrWf m
  | .opLea core pre m => coreWf core && fetchWf pre && addrWf m
  | .opAdd core pre _ _ => coreWf core && fetchWf pre
  | .opAdc core pre _ _ => coreWf core && fetchWf pre
  | .opSub core pre _ _ => coreWf core && fetchWf pre
  | .opSbc core pre _ _ => coreWf core && fetchWf pre
  | .opNeg core pre _ _ => coreWf core && fetchWf pre
  | .opAbs core pre _ _ => coreWf core && fetchWf pre
  | .opMul core pre _ _ => coreWf core && fetchWf pre
  | .opMulhs core pre _ _ => coreWf core && fetchWf pre
  | .opMin core pre _ _ => coreWf core && fetchWf pre
  | .opMax core pre _ _ => coreWf core && fetchWf pre
  | .opAddi core pre _ _ _ => coreWf core && fetchWf pre
  | .opAndw core pre _ _ => coreWf core && fetchWf pre
  | .opOrw core pre _ _ => coreWf core && fetchWf pre
  | .opXorw core pre _ _ => coreWf core && fetchWf pre
  | .opNotw core pre _ _ => coreWf core && fetchWf pre
  | .opShl core pre _ _ _ => coreWf core && fetchWf pre
  | .opSar core pre _ _ _ => coreWf core && fetchWf pre
  | .opShr core pre _ _ _ => coreWf core && fetchWf pre
  | .opRor core pre _ _ _ => coreWf core && fetchWf pre
  | .opClz core pre _ _ => coreWf core && fetchWf pre
  | .opCmp core pre _ _ => coreWf core && fetchWf pre
  | .opCmpeq core pre _ _ => coreWf core && fetchWf pre
  | .opCmpne core pre _ _ => coreWf core && fetchWf pre
  | .opCmplt core pre _ _ => coreWf core && fetchWf pre
  | .opCmple core pre _ _ => coreWf core && fetchWf pre
  | .opCmpgt core pre _ _ => coreWf core && fetchWf pre
  | .opCmpge core pre _ _ => coreWf core && fetchWf pre
  | .opCmpltu core pre _ _ => coreWf core && fetchWf pre
  | .opCmpgeu core pre _ _ => coreWf core && fetchWf pre
  | .opJmp core pre _ => coreWf core && fetchWf pre
  | .opBcc core pre _ _ => coreWf core && fetchWf pre
  | .opJbt core pre _ => coreWf core && fetchWf pre
  | .opJbf core pre _ => coreWf core && fetchWf pre
  | .opCall core pre _ => coreWf core && fetchWf pre
  | .opRet core pre => coreWf core && fetchWf pre
  | .opLoop core pre _ _ => coreWf core && fetchWf pre
  | .opJmpa core pre _ => coreWf core && fetchWf pre
  | .opCalla core pre _ => coreWf core && fetchWf pre
  | .opMpy core pre _ _ _ => coreWf core && fetchWf pre
  | .opMac core pre _ _ _ => coreWf core && fetchWf pre
  | .opMsu core pre _ _ _ => coreWf core && fetchWf pre
  | .opMacm core pre _ _ _ _ => coreWf core && fetchWf pre
  | .opMsum core pre _ _ _ _ => coreWf core && fetchWf pre
  | .opClra core pre _ _ _ => coreWf core && fetchWf pre
  | .opLda core pre m _ => coreWf core && fetchWf pre && addrWf m
  | .opSta core pre m => coreWf core && fetchWf pre && addrWf m
  | .opMova core pre _ _ _ => coreWf core && fetchWf pre
  | .opAdda core pre _ _ _ => coreWf core && fetchWf pre
  | .opSuba core pre _ _ _ => coreWf core && fetchWf pre
  | .opSha core pre _ _ _ => coreWf core && fetchWf pre
  | .opRot core pre _ _ _ => coreWf core && fetchWf pre
  | .opMag core pre _ _ _ => coreWf core && fetchWf pre
  | .opDft core pre _ _ _ _ => coreWf core && fetchWf pre
  | .opCsrr core pre _ _ => coreWf core && fetchWf pre
  | .opCsrw core pre _ _ => coreWf core && fetchWf pre
  | .opQput core pre _ _ => coreWf core && fetchWf pre
  | .opQcount core pre _ _ => coreWf core && fetchWf pre
  | .opDivs core pre _ _ => coreWf core && fetchWf pre
  | .opDivu core pre _ _ => coreWf core && fetchWf pre
  | .opFlrd core pre _ _ => coreWf core && fetchWf pre
  | .opFlwr core pre _ _ => coreWf core && fetchWf pre
  | .opXchgm core pre m _ => coreWf core && fetchWf pre && addrWf m
  | .opAddm core pre m _ => coreWf core && fetchWf pre && addrWf m
  | .sweep _ _ => true
  | .frpTableWrite r _ _ _ => requesterWf r
  | .frpActivate r => requesterWf r
  | .frpCheckDone _ => true
  | .frpSwap => true
  | .frpSnapshot r => requesterWf r
  | .frpSnapshotDone => true
  | .xchStage r _ => requesterWf r
  | .xchStageDone => true
  | .xchArm r _ => requesterWf r
  | .xchCancel r _ => requesterWf r
  | .xchConfirm r _ => requesterWf r
  | .xchRevert r _ => requesterWf r
  | .xchBoundary => true
  | .xchBoundaryTimeout => true
  | .xchWindowWarn => true
  | .xchWindowExpiry => true
  | .exchMessage _ _ _ => true
  | .heartbeatSend => true
  | .heartbeat _ _ _ => true
  | .pathLoss _ => true
  | .linkTimestampFrame _ _ _ _ => true
  | .refreshSlot => true
  | .leaseExpiry => true
  | .refreshDecoded _ _ => true
  | .presencePulse => true
  | .presenceDecoded _ _ => true
  | .lineFault _ _ => true
  | .leaseClaim => true
  | .claimReadback _ => true
  | .joiningEnd => true
  | .pubDiagFail _ => true
  | .pubRelinquish _ _ _ => true
  | .pubTaken _ _ => true
  | .pubRefuse _ _ => true
  | .rolePatternDecoded _ _ => true
  | .relinquishWaveEnd => true
  | .pubOrphanTake => true
  | .mirrorReceived _ _ _ _ => true
  | .mirrorWaitTimeout _ => true
  | .handoverCmd _ => true
  | .returnReq _ _ => true
  | .handover _ _ _ _ => true
  | .handoverAck _ _ => true
  | .handoverAckTimeout => true
  | .handoverInstant => true
  | .handoverTake => true
  | .handoverFailCheck _ => true
  | .holdoffExpiry => true
  | .hsbRelinquishPub r _ => requesterWf r
  | .hsbSetRetinh r _ => requesterWf r
  | .hsbClearRetinh r _ => requesterWf r
  | .pairload _ _ _ _ _ _ _ _ => true
  | .parley _ _ => true
  | .frameReceive _ _ _ => true
  | .ptpSync _ _ _ _ _ _ _ _ => true
  | .ptpAnnounce _ _ _ _ => true
  | .pdelayReq _ _ _ _ => true
  | .syncTimeout _ _ => true
  | .sourceSelect => true
  | .timeQualityChange => true
  | .epochCarry => true
  | .ptpSetTime r _ => requesterWf r
  | .irigFrame _ _ => true
  | .ppsInEdge _ => true
  | .ppsOutPulse => true
  | .mdioFrame r _ => requesterWf r
  | .mdioDone _ _ => true
  | .phyPoll _ _ => true
  | .phyInt _ _ => true
  | .phyResetControl r _ => requesterWf r
  | .linkChange _ _ _ => true
  | .subAccess r _ => requesterWf r
  | .pubAccess r _ => requesterWf r
  | .gooseReceived _ _ _ => true
  | .svReceived _ _ _ => true
  | .gooseStale _ => true
  | .svStale _ => true
  | .gooseRetransmit _ => true
  | .svPublish _ => true
  | .launch _ => true
  | .canFrameReceive _ _ _ f => canWf f
  | .canTxRequest r _ _ _ => requesterWf r
  | .canTxAbort r _ _ _ => requesterWf r
  | .canTxDone _ _ _ => true
  | .canRxfPop r _ => requesterWf r
  | .canErrorStateChange _ _ _ _ _ _ => true
  | .canBusoffRecovery _ _ => true
  | .canModeWrite r _ _ => requesterWf r
  | .canModeEffect _ _ => true
  | .canWake _ _ _ _ => true
  | .canRefSend _ => true
  | .canRefReceived _ _ _ _ _ _ => true
  | .canRefTimeout _ => true
  | .frelupoSync _ => true
  | .frelupoInput _ _ _ _ _ _ => true
  | .frelupoHello _ _ _ _ _ _ _ => true
  | .frelupoStatus _ _ _ _ _ _ => true
  | .frelupoCommand r _ _ => requesterWf r
  | .biEdge _ _ _ => true
  | .biDebounceEnd _ => true
  | .biInvWrite r _ _ => requesterWf r
  | .readbackMismatch _ _ _ => true
  | .readbackMismatchEnd _ _ _ => true
  | .rbenWrite r _ => requesterWf r
  | .thresholdBitChange _ _ _ raw => channelsWf raw
  | .thresholdWrite r _ _ => requesterWf r
  | .thresholdApply _ => true
  | .adcFaultChange _ _ _ _ _ => true
  | .adcOverrange _ _ => true
  | .adcSelftestEval _ _ => true
  | .queueConfig r _ _ => requesterWf r
  | .queueOffer r _ _ => requesterWf r
  | .queuePop r _ => requesterWf r
  | .mailboxRing r _ => requesterWf r
  | .hello _ _ => true
  | .ident _ => true
  | .unitread _ => true
  | .hostLoad _ _ _ _ _ _ => true
  | .desc _ _ => true
  | .hostLaunch _ _ _ _ _ _ _ _ => true
  | .journal _ _ _ => true
  | .recordRead _ _ => true
  | .recordWrite _ _ _ _ _ => true
  | .pcieReset _ _ => true
  | .pcieLinkUp _ _ _ => true
  | .intRaise r _ _ => requesterWf r
  | .intPendClear r _ _ => requesterWf r
  | .intEnWrite r _ _ => requesterWf r
  | .msixUnmask _ => true
  | .csrreadFrame _ _ _ _ => true
  | .csrwriteFrame _ _ _ _ => true
  | .frameReassemblyTimeout _ => true
  | .rhizomeTrain _ _ _ _ => true
  | .rhizomeLinkLoss _ _ => true
  | .standIdent _ _ _ _ => true
  | .standBoundary => true
  | .standCopyReceived _ _ _ _ => true
  | .standStatusFrame _ _ _ _ => true
  | .nvsHostWrite _ _ => true
  | .nvsRecallDone _ => true
  | .recordSlotCheck _ => true
  | .rtcFreezeRead r _ => requesterWf r
  | .rtcFreezeTimeout r => requesterWf r
  | .rtcHalt r => requesterWf r
  | .rtcRun r => requesterWf r
  | .rtcTimeWrite r _ _ => requesterWf r
  | .rtcAlarmArm r => requesterWf r
  | .rtcAlarm => true
  | .rtcWake => true
  | .trimWindow => true
  | .rtcMeasureStart r => requesterWf r
  | .rtcMeasureWindowOpen => true
  | .rtcMeasureEnd _ => true
  | .rtcMeasureStop r => requesterWf r
  | .rtcTrimApply r => requesterWf r
  | .vbkCollapse _ => true
  | .coldStart _ _ _ => true
  | .railSequenceRetry _ _ => true
  | .railFault _ _ _ => true
  | .tempLimit _ => true
  | .vinFail _ => true
  | .holdupWarn _ => true
  | .vinRestore _ => true
  | .deepSleepEntry _ => true
  | .warmResume _ _ _ => true
  | .retentionEnd _ => true
  | .resetN _ => true
  | .forceSafeN _ _ => true
  | .mainClockLoss _ _ => true
  | .vcoreOutOfRange _ _ => true
  | .deviceResetRelease _ _ => true
  | .boot _ _ _ => true
  | .faultClear r _ => requesterWf r
  | .serviceCoreHalt _ => true
  | .wdtConfig r _ => requesterWf r
  | .wdtServe r _ => requesterWf r
  | .wdtExpiry => true
  | .manifest _ _ _ _ => true
  | .updData _ _ _ _ => true
  | .updateBlockWritten _ _ => true
  | .updStatus _ _ => true
  | .updAbort _ _ => true
  | .activate _ _ _ => true
  | .updConfirm _ _ => true
  | .updRevert _ _ => true
  | .updateWindowWarn _ => true
  | .updateWindowExpiry _ => true
  | .updateWindowSave _ => true
  | .challenge _ => true
  | .challengeExpiry => true
  | .unlockSig _ _ _ _ => true
  | .unlockPwd _ _ => true
  | .relock _ => true
  | .unlockWindowExpiry => true
  | .setpwd _ _ => true
  | .keyslot _ _ _ => true
  | .revoke _ _ => true
  | .fieldlock _ => true
  | .attest _ _ => true
  | .attestReady => true
  | .attestRead _ => true
  | .sporeHello => true
  | .sporeBaud _ _ _ => true
  | .baudFallback => true
  | .sporeManifest _ _ _ _ _ => true
  | .sporeData _ _ _ _ _ => true
  | .sporeCommit _ _ _ => true
  | .sporeStatus _ _ _ => true
  | .phaseComparison _ _ _ _ => true
  | .irigLoss _ _ _ => true
  | .ptpMessageInterval => true
  | .supervisionFrame => true
  | .entryForgetTime => true
  | .nvsHostRead _ _ => true
  | .calendarRollover => true
  | .resetPinRelease _ _ => true
  | .telemetrySample _ _ _ _ => true

end Sys2Proof
end

