-- ==== Sys2Proof/Tests/Slice0.lean ====
section
/-!
SUPPORT. Tests: ill-formed terms that WellFormed refuses, results that the spec works out, and, for each statement of
Certificates/Slice0/Obligations.lean with hypotheses, states and operands that meet them.
-/
namespace Sys2Proof.Tests
open Sys2Proof Sys2Proof.Machine

/-- An instruction fetched with these prefixes, no error corrected. -/
def px (l : List Prefix) : Fetch := { prefixes := l }

/-! ## Well-formedness -/

theorem test_wf_core : Instr.wf (.opNop 7 (px [])) = true ∧ Instr.wf (.opNop 8 (px [])) = false := by decide

theorem test_wf_prefixes : Instr.wf (.opNop 0 (px [.reserved 0xF3])) = true ∧ Instr.wf (.opNop 0 (px [.reserved 0xF2])) = false ∧
    Instr.wf (.opNop 0 (px [.sat, .sat, .sat, .sat, .sat])) = false := by decide

theorem test_wf_requester : Instr.wf (.csrWrite (.core 7 7) 0 0) = true ∧ Instr.wf (.csrWrite (.core 0 8) 0 0) = false ∧
    Instr.wf (.csrWrite (.core 8 0) 0 0) = false := by decide

theorem test_wf_address : Instr.wf (.opStw 0 (px []) ⟨3, 0, 0, 0x10000⟩) = true ∧ Instr.wf (.opStw 0 (px []) ⟨1, 0, 0, 0x10000⟩) = false := by
  decide

theorem test_wf_channels : channelsWf (List.replicate 24 0) = true ∧ channelsWf (List.replicate 23 0) = false := by decide

/-- A CAN data frame. -/
def frame (ide : Bool) (id : BitVec 29) (data : List Byte) : CanFrame :=
  { ide := ide, id := id, fdf := false, brs := false, esi := false, rtr := false, dlc := 1, data := data }

theorem test_wf_can : canWf (frame false 2047 [1]) = true ∧ canWf (frame false 2048 [1]) = false ∧
    canWf (frame true 2048 (List.replicate 9 0)) = false := by decide

/-! ## States for the tests -/

/-- A device that is awake, in RUN: task 3 is enabled, periodic, on core 1 and bank 2. -/
def base : Dev := { phase := .ready, csr := [(Reg.TSK_CFG 3, 0x00002C09), (Reg.TSK_BUDGET 3, 100000)] }

/-- The run of task 3. -/
def run3 : Run := { task := 3, bank := 2, rel := {} }

/-- A device in a state. -/
def at_ (d : Dev) : State := { mono := 4990, dev := d, pending := [.meridian] }

/-- Device d with the run of task 3 in progress on core 1, its bank b. -/
def runOn (d : Dev) (b : Bank) : State := at_ { d with cores := [(1, { runs := [run3], banks := [(2, b)], time := 5000 })] }

/-- The run of task 3 in progress on core 1, its bank b. -/
def busy (b : Bank) : State := runOn base b

/-! ## What a witness shows -/

def readyB (s : State) (c : Nat) (r : Run) : Bool :=
  s.dev.awake && decide ((s.found c).execRun c = some r) && !(s.found c).overrunDue r && (s.found c).preempting c r == none &&
    (s.bankOf c r).repLeft == 0

def reachesB (s : State) (c : Nat) (r : Run) (accept : List PrefixKind) (pre : Fetch) (n : Nat) : Bool :=
  readyB s c r && decide ((s.bankOf c r).pc.toNat + lengthWith pre n ≤ 0x400000) && prefixesOk accept pre &&
    (modsOf pre).rep == none && pre.corrected == 0

def startsB (s : State) (c : Nat) (r : Run) (accept : List PrefixKind) (pre : Fetch) (n : Nat) : Bool :=
  reachesB s c r accept pre n && (match condFalse (modsOf pre) (s.bankOf c r) with | .ok v => !v | .error _ => false)

theorem ready_of {s : State} {c : Nat} {r : Run} (h : readyB s c r = true) : Ready s c r := by
  simp only [readyB, Bool.and_eq_true, decide_eq_true_eq, Bool.not_eq_true', beq_iff_eq] at h
  exact ⟨h.1.1.1.1, h.1.1.1.2, h.1.1.2, h.1.2, h.2⟩

theorem reaches_of {s : State} {c : Nat} {r : Run} {accept : List PrefixKind} {pre : Fetch} {n : Nat}
    (h : reachesB s c r accept pre n = true) : Reaches s c r accept pre n := by
  simp only [reachesB, Bool.and_eq_true, decide_eq_true_eq, beq_iff_eq] at h
  exact ⟨ready_of h.1.1.1.1, h.1.1.1.2, h.1.1.2, h.1.2, h.2⟩

theorem starts_of {s : State} {c : Nat} {r : Run} {accept : List PrefixKind} {pre : Fetch} {n : Nat}
    (h : startsB s c r accept pre n = true) : Starts s c r accept pre n := by
  simp only [startsB, Bool.and_eq_true] at h
  refine ⟨reaches_of h.1, ?_⟩
  have k := h.2
  cases hc : condFalse (modsOf pre) (s.bankOf c r) with
  | error e => rw [hc] at k; cases k
  | ok v => rw [hc] at k; cases v <;> first | rfl | cases k

/-- Beside Safety.StartsRep. -/
def startsRepB (s : State) (c : Nat) (r : Run) (accept : List PrefixKind) (pre : Fetch) (n k ticks : Nat) : Bool :=
  readyB s c r && decide ((s.bankOf c r).pc.toNat + lengthWith pre n ≤ 0x400000) && prefixesOk accept pre &&
    (modsOf pre).rep == some k && (match condFalse (modsOf pre) (s.bankOf c r) with | .ok v => !v | .error _ => false) &&
    pre.corrected == 0 && ((s.found c).readyTasks c).all (fun p => !(s.found c).above p.1 r) &&
    (r.overrun || decide (((s.found c).rd (Reg.TSK_USED r.task)).toNat + (k - 1) * ticks <
      ((s.found c).rd (Reg.TSK_BUDGET r.task)).toNat))

theorem startsRep_of {s : State} {c : Nat} {r : Run} {accept : List PrefixKind} {pre : Fetch} {n k ticks : Nat}
    (h : startsRepB s c r accept pre n k ticks = true) : StartsRep s c r accept pre n k ticks := by
  simp only [startsRepB, Bool.and_eq_true, decide_eq_true_eq, beq_iff_eq, Bool.or_eq_true, List.all_eq_true,
    Bool.not_eq_true'] at h
  obtain ⟨⟨⟨⟨⟨⟨⟨h1, h2⟩, h3⟩, h4⟩, h5⟩, h6⟩, h7⟩, h8⟩ := h
  refine ⟨ready_of h1, h2, h3, h4, ?_, h6, h7, fun e => h8.resolve_left (by simp [e])⟩
  cases hc : condFalse (modsOf pre) (s.bankOf c r) with
  | error e => rw [hc] at h5; cases h5
  | ok v => rw [hc] at h5; cases v <;> first | rfl | cases h5

def plainB (s : State) (c : Nat) (r : Run) : Bool :=
  decide (c < 8) && (s.dev.core c).runs.all (fun q => decide (q.task < 64)) &&
    ((s.dev.core c).runs.drop 1).all (fun q => decide (q.task ≠ r.task)) && decide (s.dev.modeChange = none) &&
    ((s.dev.core c).runs.drop 1).all (fun q => decide (q.stage = .logic))

theorem plain_of {s : State} {c : Nat} {r : Run} (h : plainB s c r = true) : Plain s c r := by
  simp only [plainB, Bool.and_eq_true, decide_eq_true_eq, List.all_eq_true] at h
  exact ⟨h.1.1.1.1, h.1.1.1.2, h.1.1.2, h.1.2, h.2⟩

def writesB (s : State) (r : Requester) (off : Nat) : Bool :=
  s.dev.awake && s.dev.mayWrite r off && (match r with | .core _ _ => csrTicks off != some 0 | _ => true)

theorem writes_of {s : State} {r : Requester} {off : Nat} (h : writesB s r off = true) : Writes s r off := by
  simp only [writesB, Bool.and_eq_true] at h
  refine ⟨h.1.1, h.1.2, fun k c b e => ?_⟩
  subst e; simp [k] at h

/-- Beside Safety.InTurn. -/
def inTurnB (s : State) (ch : Channel) : Bool :=
  s.dev.serves && chCarries ch && (match chMailbox ch with
    | some m => s.dev.nextMailbox == some m && s.dev.bit Reg.HST_MBSTAT m
    | none => true)

theorem inTurn_of {s : State} {ch : Channel} (h : inTurnB s ch = true) : InTurn s ch := by
  simp only [inTurnB, Bool.and_eq_true] at h
  refine ⟨h.1.1, h.1.2, fun m e => ?_, fun m e => ?_⟩ <;>
    · have k := h.2
      rw [e] at k
      simp only [Bool.and_eq_true, beq_iff_eq] at k
      first | exact k.1 | exact k.2

def servedB (s : State) (i : Instr) (hf : Option HostForm) (f : HostForm) (u : Nat) : Bool :=
  inTurnB s f.head.ch && hf == some f && s.dev.repeated f.head.ch == none &&
    s.dev.refusal f.head f.code f.allowed == none && s.dev.resolve f.head.path == .found u && !waitsForNvs s i &&
    f.head.corrected == 0

theorem served_of {s : State} {i : Instr} {f : HostForm} {u : Nat} (h : servedB s i (hostForm s i) f u = true) :
    Served s i f u := by
  simp only [servedB, Bool.and_eq_true, beq_iff_eq, Bool.not_eq_true'] at h
  obtain ⟨⟨⟨⟨⟨⟨h1, h2⟩, h3⟩, h4⟩, h5⟩, h6⟩, h7⟩ := h
  exact ⟨inTurn_of h1, h2, h6, h3, h4, h5, h7⟩

/-! ## Results that the spec works out -/

/-- The device after command i, where exec answers a next state. -/
def devAfter (s : State) (i : Instr) : Dev :=
  match exec i s with
  | .next t => t.dev
  | _ => s.dev

/-- The bank of the run after command i. -/
def bankAfter (s : State) (i : Instr) : Bank := (devAfter s i).bank 1 2

/-- 06_fixed_point_instructions.md, MOVA W3, A0 under each rounding mode. -/
theorem test_mova_rounding :
    let w (m : BitVec 2) (v : BitVec 72) : Word := (bankAfter (busy { a := [(0, v)] }) (.opMova 1 (px [.rnd m]) 0 3 0)).getW 3
    (w 0 0x140000000 = 2 ∧ w 1 0x140000000 = 3 ∧ w 2 0x140000000 = 2 ∧ w 3 0x140000000 = 2) ∧
    (w 0 0xFFFFFFFFFEC0000000 = 0xFFFFFFFD ∧ w 1 0xFFFFFFFFFEC0000000 = 0xFFFFFFFE ∧
      w 2 0xFFFFFFFFFEC0000000 = 0xFFFFFFFE ∧ w 3 0xFFFFFFFFFEC0000000 = 0xFFFFFFFE) ∧
    (w 0 0x1C0000000 = 3 ∧ w 1 0x1C0000000 = 4 ∧ w 2 0x1C0000000 = 4 ∧ w 3 0x1C0000000 = 3) ∧
    (w 0 0xFFFFFFFFFEA0000000 = 0xFFFFFFFD ∧ w 1 0xFFFFFFFFFEA0000000 = 0xFFFFFFFD ∧
      w 2 0xFFFFFFFFFEA0000000 = 0xFFFFFFFD ∧ w 3 0xFFFFFFFFFEA0000000 = 0xFFFFFFFE) := by decide

/-- 06, the reduction of 2.8125: MOVA wraps, SAT MOVA saturates and sets SAT. -/
theorem test_mova_saturates :
    let s := busy { a := [(0, 0x00B400000000000000)] }
    let x := bankAfter s (.opMova 1 (px []) 0 3 0)
    let y := bankAfter s (.opMova 1 (px [.sat]) 0 3 0)
    x.getW 3 = 0x68000000 ∧ x.flag flSat = false ∧ y.getW 3 = 0x7FFFFFFF ∧ y.flag flSat = true := by decide

set_option maxRecDepth 40000 in
/-- 06, five products of 0.75 by itself under REP: A0, N and GOV. -/
theorem test_mac_guard_bits :
    let b := bankAfter (busy { w := [(1, 0x60000000)] }) (.opMac 1 (px [.rep 5]) 0 1 1)
    b.getA 0 = 0x00B400000000000000 ∧ b.flag flN = false ∧ b.flag flGov = false := by decide

/-- 04_instruction_encoding.md, CMPGT in the shadow of both loads compares 0 with 0, after them 9,000 with 8,000. -/
theorem test_cmpgt_in_the_shadow :
    let b : Bank := { shadow := [⟨false, 1, 0x1F40, 1⟩, ⟨false, 2, 0x2328, 2⟩] }
    (bankAfter (busy b) (.opCmpgt 1 (px []) 2 1)).ba = [false] ∧ (bankAfter (busy { b with w := [(1, 0x1F40), (2, 0x2328)], shadow := [] })
      (.opCmpgt 1 (px []) 2 1)).ba = [true] := by decide

/-- A memory with these words from these addresses on. -/
def memory (l : List (Nat × Word)) : Memory := l.foldl (fun m p => Memory.wr32 m p.1 p.2) []

/-- The run of task 3 with TB 0x10000000, BA = 1 and these words at TB + t. -/
def records (l : List (Nat × Word)) : State :=
  runOn { base with mem := { data := memory (l.map (fun p => (0x200000 + p.1, p.2))) } } { tb := 0x10000000, ba := [true] }

/-- 05_logic_instructions.md, TASK01 in run 4,004: the timer has run for 6 ms of its 5 ms, and the edge follows. -/
theorem test_ton_run_4004 :
    let s := records [(0, 0xFA4), (0x20, 0x54677180), (0x24, 2), (0x100, 0x540BE400), (0x104, 2), (0x108, 0x1388), (0x10C, 0x0031000B)]
    let d := devAfter s (.opTon 1 (px []) 0x100 none)
    Memory.rd32 d.mem.data 0x20010C = 0x0031000F ∧ (d.bank 1 2).ba = [true] := by decide

theorem test_redge_run_4004 :
    let d := devAfter (records [(0, 0xFA4), (0x120, 0x00320008)]) (.opRedge 1 (px []) 0x120 none)
    Memory.rd32 d.mem.data 0x200120 = 0x0032000D ∧ Memory.rd32 d.mem.data 0x200124 = 0xFA4 ∧ (d.bank 1 2).ba = [true] := by decide

/-- R144: DIVS where there is no exact result. -/
theorem test_divs_corners :
    let q (a b : Word) : Word × Word × Bool :=
      let k := bankAfter (busy { w := [(2, a), (4, b)] }) (.opDivs 1 (px []) 2 4)
      (k.getW 2, k.getW 3, k.flag flV)
    q 7 0 = (0x7FFFFFFF, 7, true) ∧ q 0xFFFFFFF9 0 = (0x80000000, 0xFFFFFFF9, true) ∧
    q 0x80000000 0xFFFFFFFF = (0x80000000, 0, true) ∧ q 0xFFFFFFF9 2 = (0xFFFFFFFD, 0xFFFFFFFF, false) := by decide

/-- 07_fast_rung_plane.md, the entries of rungs 5 and 70. -/
theorem test_rung_entries :
    let r5 : Rung := 0x60000000400FFFFFFC00E10C
    let r70 : Rung := 0x6217D784060FFFFFFFFFE400
    (r5.lit 0, r5.lit 1, r5.lit 2, r5.lit 3) = (0x10C, 0x007, 0x1FFF, 0x1FFF) ∧ r5.dest = 0x400 ∧ r5.en = true ∧ r5.always = true ∧
    (r70.lit 0, r70.lit 1) = (0x400, 0x1FFF) ∧ r70.dest = 0x060 ∧ r70.tmode = 2 ∧ r70.preset = 1562500 ∧ r70.en = true ∧
    r70.always = true := by decide

set_option maxRecDepth 40000 in
/-- 03_mains_angle.md, the confirmed jump of −30°. -/
theorem test_angle_jump :
    let d : Dev := { base with
      csr := (Reg.ANG_STATE, 1) :: base.csr,
      ang := { u0 := 0x8009D495, t0 := 10003000, gen := .rate 0x320000, loaded := true, jumpSize := -357913941,
               confirmAt := some 10003000 } }
    let e := devAfter { at_ d with mono := 10003000 } (.angleJump [])
    e.angle 10003000 = 0x6AB47F40 ∧ e.pendingSrc 81 = true := by decide

set_option maxRecDepth 40000 in
/-- 15_retained_storage_and_rtc.md, N = 134,219,406 in 4,096 s. -/
theorem test_rtc_measurement :
    let m : Measure := { from_ := 1000000000, dest := 4097000000000, opened := true }
    let d : Dev := { base with rtc := { meas := some m }, time := { base := 4097000000000, t0 := 0, usable := true, bound := some 100 } }
    let e := devAfter (at_ d) (.rtcMeasureEnd 134219406)
    e.rd Reg.RTC_MEASPPB = 0x30D6 ∧ e.rd Reg.RTC_TRIMPROP = 0xF97 ∧ e.flag F.RTC_STAT_PROPVALID = true := by decide

set_option maxRecDepth 40000 in
/-- 16_supervision_and_power.md, P = 97,632 pulses of sleep. -/
theorem test_warm_resume :
    let d : Dev := { base with phase := .sleep, power := { entryMono := 20051230000, before := .ready } }
    let s : State := { at_ d with mono := 23029800000 }
    (match exec (.warmResume 0 1000 (some 97632)) s with | .next t => t.mono | _ => 0) = 23030722187 := by decide


set_option maxRecDepth 40000 in
/-- 18_electrical_and_package.md, R458: the counts of the power and ground balls. -/
theorem test_ball_counts : [SupplyNet.vcore, .vsram, .vio33, .vio18, .vana, .vser, .vss].map netCount = [176, 62, 30, 30, 34, 32, 394] := by
  decide

set_option maxRecDepth 40000 in
theorem test_signal_balls : (balls.filter Ball.isSignal).length = 398 := by decide

/-- 18_electrical_and_package.md, R467: a data register scan after the port's reset shifts out IDCODE. -/
theorem test_idcode : ((devAfter (at_ base) (.csrreadFrame 0 (.jtag (some (.dr 0))) 0 0)).outbox.map (fun m => m.2)) =
    [.tapData [0x9060B04D]] := by decide
/-! ## Scan cores: witnesses -/

def regs (l : Sparse Word) : Bank := { w := l }

theorem witness_RegisterAndBitwiseInstructions :
    Starts (busy {}) 1 run3 [.cond] (px []) 2 ∧ Starts (busy {}) 1 run3 [.cond] (px []) 6 ∧ (3 : BitVec 4).toNat ≤ 3 ∧
    Starts (busy {}) 1 run3 [.cond] (px []) 3 ∧ Starts (busy {}) 1 run3 [.cond] (px [.cond 1]) 2 ∧
    Starts (busy {}) 1 run3 [.space, .cond] (px [.space 1]) (1 + (bytesM ⟨3, 0, 0, 4⟩).length) ∧ (3 : BitVec 2) ≠ 2 :=
  ⟨starts_of (by decide), starts_of (by decide), by decide, starts_of (by decide), starts_of (by decide),
    starts_of (by decide), by decide⟩

theorem witness_WordArithmetic :
    Starts (busy {}) 1 run3 [.sat, .lane, .cond] (px [.sat]) 2 ∧ (modsOf (px [.sat])).lane = false ∧
    Starts (busy {}) 1 run3 [.sat, .cond] (px [.sat]) 6 ∧ Starts (busy {}) 1 run3 [.sat, .cond] (px []) 2 :=
  ⟨starts_of (by decide), by decide, starts_of (by decide), starts_of (by decide)⟩

theorem witness_MinMaxMulhs :
    Starts (busy {}) 1 run3 [.lane, .cond] (px []) 2 ∧ (modsOf (px [])).lane = false ∧
    Starts (busy {}) 1 run3 [.lane, .cond] (px [.lane]) 2 ∧ (modsOf (px [.lane])).lane = true ∧
    Starts (busy {}) 1 run3 [.sat, .rnd, .cond] (px [.sat, .rnd 3]) 2 :=
  ⟨starts_of (by decide), by decide, starts_of (by decide), by decide, starts_of (by decide)⟩

theorem witness_LaneArithmetic :
    (modsOf (px [.lane])).lane = true ∧ Starts (busy {}) 1 run3 [.sat, .lane, .cond] (px [.lane]) 2 ∧
    Starts (busy {}) 1 run3 [.sat, .lane, .cond] (px [.lane]) 3 ∧ Starts (busy {}) 1 run3 [.rnd, .lane, .cond] (px [.lane]) 3 ∧
    (15 : BitVec 8).toNat ≤ 15 :=
  ⟨by decide, starts_of (by decide), starts_of (by decide), starts_of (by decide), by decide⟩

theorem witness_Shifts :
    (31 : BitVec 8).toNat ≤ 31 ∧ (modsOf (px [])).lane = false ∧ Starts (busy {}) 1 run3 [.sat, .lane, .cond] (px []) 3 ∧
    Starts (busy {}) 1 run3 [.rnd, .lane, .cond] (px []) 3 ∧ Starts (busy {}) 1 run3 [.cond] (px []) 3 :=
  ⟨by decide, by decide, starts_of (by decide), starts_of (by decide), starts_of (by decide)⟩

/-- Operands of the six clauses of Division: F1 = 0, F2 = 2. -/
theorem witness_Division :
    Starts (busy (regs [(0, 7)])) 1 run3 [.cond] (px []) 3 ∧ (0 : BitVec 4).toNat % 2 = 0 ∧
    (regs [(0, 7)]).getW 2 = 0 ∧ 0 ≤ ((regs [(0, 7)]).getW 0).toInt ∧ ((regs [(0, 0xFFFFFFFF)]).getW 0).toInt < 0 ∧
    Starts (busy (regs [(0, 0x80000000), (2, 0xFFFFFFFF)])) 1 run3 [.cond] (px []) 3 ∧
    (regs [(0, 0x80000000), (2, 0xFFFFFFFF)]).getW 0 = 0x80000000 ∧
    (regs [(0, 0x80000000), (2, 0xFFFFFFFF)]).getW 2 = 0xFFFFFFFF ∧
    Starts (busy (regs [(0, 7), (2, 2)])) 1 run3 [.cond] (px []) 3 ∧ (regs [(0, 7), (2, 2)]).getW 2 ≠ 0 ∧
    ¬((regs [(0, 7), (2, 2)]).getW 0 = 0x80000000 ∧ (regs [(0, 7), (2, 2)]).getW 2 = 0xFFFFFFFF) :=
  ⟨starts_of (by decide), by decide, by decide, by decide, by decide, starts_of (by decide), by decide, by decide,
    starts_of (by decide), by decide, by decide⟩

theorem witness_Compares : Starts (busy { ba := List.replicate 15 true }) 1 run3 [.cond] (px []) 2 ∧
    ((busy { ba := List.replicate 15 true }).bankOf 1 run3).ba.length ≤ 15 := ⟨starts_of (by decide), by decide⟩

/-- Bit 20 of task data, the last bit of an image shadow, and the bit stack at its bounds. -/
theorem witness_BitInstructions :
    Starts (busy { ba := [true, false] }) 1 run3 [.cond] (px []) 1 ∧
    ((busy { ba := [true, false] }).bankOf 1 run3).ba = true :: false :: [] ∧
    Starts (busy { ba := List.replicate 15 true }) 1 run3 [.cond] (px []) 1 ∧
    ((busy { ba := List.replicate 15 true }).bankOf 1 run3).ba = true :: List.replicate 14 true ∧
    Starts (busy { ba := [true], tb := 0x10000000 }) 1 run3 [.space, .cond] (px []) 4 ∧
    ((modsOf (px [])).space = none ∧ regionOf (0x10000000 + BitVec.ofNat 32 ((20 : BitVec 24).toNat / 8)) = some .data) ∧
    ((busy { ba := [true], tb := 0x10000000 }).bankOf 1 run3).tb = 0x10000000 ∧
    Starts (busy { ba := [true] }) 1 run3 [.space, .cond] (px [.space 1]) 4 ∧
    (modsOf (px [.space 1])).space = some 1 ∧ (0xFFFFF : BitVec 24).toNat < 2 ^ 20 ∧
    ((busy { ba := [true] }).bankOf 1 run3).ba = true :: [] :=
  ⟨starts_of (by decide), by decide, starts_of (by decide), by decide, starts_of (by decide), by decide, by decide,
    starts_of (by decide), by decide, by decide, by decide⟩

theorem witness_Branches :
    Starts (busy { ba := [true] }) 1 run3 [.cond] (px []) 3 ∧ ((busy { ba := [true] }).bankOf 1 run3).ba = true :: [] ∧
    Starts (busy {}) 1 run3 [] (px []) 4 ∧ (14 : BitVec 8).toNat ≤ 14 ∧
    ((busy {}).bankOf 1 run3).test (14 : BitVec 8).toNat = .ok false ∧ Starts (busy {}) 1 run3 [.cond] (px []) 1 ∧
    Starts (busy {}) 1 run3 [.cond] (px []) 4 ∧ (3 : BitVec 8).toNat ≤ 3 ∧ (0x3FFFFF : BitVec 24).toNat < 2 ^ 22 :=
  ⟨starts_of (by decide), by decide, starts_of (by decide), by decide, by rfl, starts_of (by decide), starts_of (by decide),
    by decide, by decide⟩

/-- Three repetitions of 1 tick, none broken off. -/
theorem witness_StartsRep : StartsRep (busy {}) 1 run3 [.lane, .rep, .cond] (px [.rep 3]) 3 3 1 ∧
    (∀ x ∈ ((busy {}).bankOf 1 run3).shadow, x.toX = false) := ⟨startsRep_of (by decide), by decide⟩

/-- X0 at the start of local data, X1 in the input image shadow. -/
def pointers : Bank := { x := [(0, 0x10000000), (1, 0x20000004)], tb := 0x10000000 }

theorem witness_MultiplyAccumulateInstructions :
    Starts (busy {}) 1 run3 [.lane, .rep, .cond] (px []) 3 ∧ (3 : BitVec 8).toNat < 4 ∧ (modsOf (px [])).lane = false ∧
    Starts (busy {}) 1 run3 [.lane, .rep, .cond] (px [.lane]) 3 ∧ (modsOf (px [.lane])).lane = true ∧
    Starts (busy pointers) 1 run3 [.lane, .rep, .cond] (px []) 3 ∧ Starts (busy pointers) 1 run3 [.lane, .rep, .cond] (px [.lane]) 3 ∧
    (16 : BitVec 8).toNat < 64 ∧ (16 : BitVec 8).toNat / 4 % 4 = 0 ∧ (16 : BitVec 8).toNat / 16 % 4 = 1 ∧
    (((busy pointers).bankOf 1 run3).getX 0).toNat % 4 = 0 ∧ regionOf (((busy pointers).bankOf 1 run3).getX 0) = some .data ∧
    (((busy pointers).bankOf 1 run3).getX 1).toNat % 4 = 0 ∧ regionOf (((busy pointers).bankOf 1 run3).getX 1) = some .shadow :=
  ⟨starts_of (by decide), by decide, by decide, starts_of (by decide), by decide, starts_of (by decide), starts_of (by decide),
    by decide, by decide, by decide, by decide, by decide, by decide, by decide⟩

/-- R96: MACM and DFT three times, from local data and from the image shadow. -/
theorem witness_repeatedPointers :
    let here (x : Word) : Prop := x.toNat % 4 = 0 ∧ (regionOf x = some .data ∨ regionOf x = some .shadow)
    StartsRep (busy pointers) 1 run3 [.lane, .rep, .cond] (px [.rep 3]) 3 3 1 ∧
    StartsRep (busy pointers) 1 run3 [.sat, .rnd, .rep, .cond] (px [.rep 3]) 3 3 6 ∧
    (∀ x ∈ ((busy pointers).bankOf 1 run3).shadow, x.toX = false) ∧
    (∀ j, j < 3 → here (((busy pointers).bankOf 1 run3).getX 0 + BitVec.ofNat 32 (4 * j)) ∧
      here (((busy pointers).bankOf 1 run3).getX 1 + BitVec.ofNat 32 (4 * j))) :=
  ⟨startsRep_of (by decide), startsRep_of (by decide), by decide, by decide⟩

theorem witness_AccumulatorInstructions :
    Starts (busy {}) 1 run3 [.cond] (px []) 3 ∧ (3 : BitVec 8).toNat < 4 ∧ Starts (busy {}) 1 run3 [.lane, .cond] (px []) 3 ∧
    (15 : BitVec 8).toNat < 16 ∧ Starts (busy {}) 1 run3 [.sat, .rnd, .lane, .cond] (px []) 3 ∧
    Starts (busy {}) 1 run3 [.sat, .rnd, .lane, .cond] (px [.lane]) 3 ∧ (7 : BitVec 8).toNat < 8 ∧ 4 ≤ (4 : BitVec 8).toNat ∧
    (modsOf (px [])).lane = false ∧ (modsOf (px [.lane])).lane = true :=
  ⟨starts_of (by decide), by decide, starts_of (by decide), by decide, starts_of (by decide), starts_of (by decide), by decide,
    by decide, by decide, by decide⟩

/-- The operand at 0x10000040, and the last record of local data. -/
theorem witness_AccumulatorLoadsAndStores :
    let m : MAddr := ⟨3, 0, 4, 0x10000040⟩
    let z : MAddr := ⟨3, 0, 3, 0x101FFFF0⟩
    Starts (busy {}) 1 run3 [.cond] (px []) (1 + (bytesM z).length) ∧
    ((busy {}).cpu0 1 run3 (px []) (1 + (bytesM z).length)).ea z = 0x101FFFF0 ∧ (0x101FFFF0 : Word).toNat % 8 = 0 ∧
    0x10000000 ≤ (0x101FFFF0 : Word).toNat ∧ (0x101FFFF0 : Word).toNat + 16 ≤ 0x10200000 ∧ z.reg.toNat / 4 = 0 ∧
    Starts (busy {}) 1 run3 [.sat, .rnd, .lane, .cond] (px []) (1 + (bytesM m).length) ∧
    Starts (busy {}) 1 run3 [.sat, .rnd, .lane, .cond] (px [.lane]) (1 + (bytesM m).length) ∧
    ((busy {}).cpu0 1 run3 (px [.lane]) (1 + (bytesM m).length)).ea m = 0x10000040 ∧ (0x10000040 : Word).toNat % 4 = 0 ∧
    (modsOf (px [])).lane = false ∧ (modsOf (px [.lane])).lane = true ∧ m.reg.toNat / 4 = 1 :=
  ⟨starts_of (by decide), by decide, by decide, by decide, by decide, by decide, starts_of (by decide), starts_of (by decide),
    by decide, by decide, by decide, by decide, by decide⟩

theorem witness_RotationDftMagnitude :
    Starts (busy {}) 1 run3 [.sat, .rnd, .cond] (px []) 3 ∧ Starts (busy pointers) 1 run3 [.sat, .rnd, .rep, .cond] (px []) 3 ∧
    (18 : BitVec 8).toNat < 64 ∧ (18 : BitVec 8).toNat % 2 = 0 ∧ (18 : BitVec 8).toNat / 4 % 4 = 0 ∧
    (18 : BitVec 8).toNat / 16 % 4 = 1 ∧ (((busy pointers).bankOf 1 run3).getX 0).toNat % 4 = 0 ∧
    regionOf (((busy pointers).bankOf 1 run3).getX 0) = some .data ∧ (((busy pointers).bankOf 1 run3).getX 1).toNat % 4 = 0 ∧
    regionOf (((busy pointers).bankOf 1 run3).getX 1) = some .shadow ∧ Starts (busy {}) 1 run3 [.rnd, .cond] (px [.rnd 2]) 3 :=
  ⟨starts_of (by decide), starts_of (by decide), by decide, by decide, by decide, by decide, by decide, by decide, by decide,
    by decide, starts_of (by decide)⟩

/-- A record at TB + 0x40; the last record of local data. -/
theorem witness_EdgeDetectorsTimersCounters :
    let b : Bank := { ba := [true], tb := 0x10000000 }
    let z : Bank := { ba := [true], tb := 0x101FFF00 }
    Starts (busy b) 1 run3 [.cond] (px []) 3 ∧ ((busy b).bankOf 1 run3).ba = true :: [] ∧
    (b.tb + (0x40 : BitVec 16).setWidth 32).toNat % 16 = 0 ∧ 0x10000000 ≤ (b.tb + (0x40 : BitVec 16).setWidth 32).toNat ∧
    0x40 ≤ (0x40 : BitVec 16).toNat ∧ Starts (busy z) 1 run3 [.cond] (px []) 3 ∧
    (z.tb + (0xF0 : BitVec 16).setWidth 32).toNat + 16 ≤ 0x10200000 ∧
    (z.tb + (0xF8 : BitVec 16).setWidth 32).toNat + 8 ≤ 0x10200000 ∧ (z.tb + (0xF8 : BitVec 16).setWidth 32).toNat % 8 = 0 :=
  ⟨starts_of (by decide), by decide, by decide, by decide, by decide, starts_of (by decide), by decide, by decide, by decide⟩

/-- The device of the tests with the retained memory ready, as a member of a stand whose own partition is 0. -/
def ready : Dev := { base with csr := [(Reg.TSK_CFG 3, 0x00002C09), (Reg.TSK_BUDGET 3, 100000), (Reg.NVS_STAT, 1)] }

/-- A load and a store in every region that holds memory. -/
theorem witness_LoadsAndStores :
    let at_ (a : Word) : MAddr := ⟨3, 0, 0, a⟩
    let ea (a : Word) : Word := ((runOn ready {}).cpu0 1 run3 (px []) (1 + (bytesM (at_ a)).length)).ea (at_ a)
    Starts (runOn ready {}) 1 run3 [.space, .rep, .cond] (px []) (1 + (bytesM (at_ 0)).length) ∧
    Starts (runOn ready {}) 1 run3 [.sat, .space, .rep, .cond] (px []) (1 + (bytesM (at_ 0)).length) ∧
    ((runOn ready {}).cpu0 1 run3 (px []) (1 + (bytesM (at_ 0)).length)).inSpace (at_ 0x101FFFFC) = true ∧
    regionOf (ea 0x003FFFFC) = some .code ∧ regionOf (ea 0x101FFFFC) = some .data ∧ regionOf (ea 0x20000000) = some .shadow ∧
    regionOf (ea 0x500FFFFC) = some .nvs ∧ ((runOn ready {}).found 1).nvsReady = true ∧ regionOf (ea 0x6003FFFC) = some .stand ∧
    ((runOn ready {}).found 1).ownPartition (ea 0x60000000) = true ∧ (ea 0x101FFFFC).toNat % 4 = 0 :=
  ⟨starts_of (by decide), starts_of (by decide), by decide, by decide, by decide, by decide, by decide, by decide, by decide,
    by decide, by decide⟩

/-- R96: LDW and STW twice at TB + 8, and LDX and STW with MODE 2; the banks in which the repetitions end. -/
theorem witness_repeatedAccesses :
    let at_ : MAddr := ⟨0, 0, 5, 8⟩
    let up : MAddr := ⟨2, 0, 5, 0⟩
    let b : Bank := { x := [(0, 0x10000000)], tb := 0x10000000 }
    let bs (f : Bank → Bank) (j : Nat) : Bank := if j = 0 then b else if j = 1 then f b else f (repBank (fun _ => f b) 2 1)
    let late (w : Bank) : Bank := { w with shadow := w.shadow ++ [{ toX := false, reg := 5, value := 0, left := 3 }] }
    let inc (w : Bank) : Bank := w.setX 0 (w.getX 0 + 4)
    let n := 1 + (bytesM at_).length
    let inData (m : MAddr) (w : Bank) : Prop :=
      let x := { (runOn ready b).cpu0 1 run3 (px [.rep 2]) n with b := w }
      x.inSpace m = true ∧ regionOf (x.ea m) = some .data ∧ (x.ea m).toNat % 4 = 0
    StartsRep (runOn ready b) 1 run3 [.space, .rep, .cond] (px [.rep 2]) n 2 1 ∧
    StartsRep (runOn ready b) 1 run3 [.sat, .space, .rep, .cond] (px [.rep 2]) n 2 1 ∧
    (runOn ready b).bankOf 1 run3 = b ∧ n = 1 + (bytesM up).length ∧
    (∀ j, j < 2 → inData at_ (repBank (bs late) 2 j) ∧ bs late (j + 1) = late (repBank (bs late) 2 j)) ∧
    (∀ j, j < 2 → inData at_ (repBank (bs id) 2 j) ∧ bs id (j + 1) = repBank (bs id) 2 j) ∧
    (∀ j, j < 2 → inData up (repBank (bs inc) 2 j) ∧ bs inc (j + 1) = inc (repBank (bs inc) 2 j)) :=
  ⟨startsRep_of (by decide), startsRep_of (by decide), by decide, by decide, by decide, by decide, by decide⟩

/-- SYS_MONO0, FRP_SNAPCTL and words of NVS on both sides of its boundary. -/
theorem witness_RegisterAndNvsAccesses :
    let at_ (a : Word) : MAddr := ⟨3, 0, 0, a⟩
    let ea (a : Word) : Word := ((runOn ready {}).cpu0 1 run3 (px []) (1 + (bytesM (at_ a)).length)).ea (at_ a)
    let csr (a : Word) : Nat := (ea a).toNat - 0x40000000
    let wr : Dev := (((runOn ready {}).found 1).charge 1 3 6).writeReg (.core 1 2) 5006 (csr 0x40000070) 0
    regionOf (ea 0x40000070) = some .csr ∧ (ea 0x40000070).toNat % 4 = 0 ∧ csrTicks (csr 0x40000070) = some 6 ∧
    ((runOn ready {}).cpu0 1 run3 (px []) (1 + (bytesM (at_ 0)).length)).inSpace (at_ 0x40000070) = true ∧
    wr.curRun 1 = some run3 ∧ regionOf (ea 0x500AFFFC) = some .nvs ∧ (ea 0x500AFFFC).toNat - 0x50000000 < 0xB0000 ∧
    regionOf (ea 0x500B0000) = some .nvs ∧ ¬((ea 0x500B0000).toNat - 0x50000000 < 0xB0000) := by decide

theorem witness_LockedAccess :
    let m : MAddr := ⟨3, 0, 0, 0x10000004⟩
    let z : MAddr := ⟨3, 0, 0, 0⟩
    (Starts (runOn ready {}) 1 run3 [.lock, .space, .cond] (px [.lock, .space 2]) (2 + (bytesM z).length) ∧
      (modsOf (px [.lock, .space 2])).space = some 2 ∧ ((runOn ready {}).found 1).nvsReady = true ∧
      ((runOn ready {}).cpu0 1 run3 (px [.lock, .space 2]) (2 + (bytesM z).length)).inSpace z = true ∧
      (((runOn ready {}).cpu0 1 run3 (px [.lock, .space 2]) (2 + (bytesM z).length)).ea z).toNat % 4 = 0) ∧
    Starts (busy {}) 1 run3 [.lock, .space, .cond] (px [.lock]) (2 + (bytesM m).length) ∧ (modsOf (px [.lock])).lock = true ∧
    ((busy {}).cpu0 1 run3 (px [.lock]) (2 + (bytesM m).length)).inSpace m = true ∧
    ((busy {}).cpu0 1 run3 (px [.lock]) (2 + (bytesM m).length)).ea m = 0x10000004 ∧ (modsOf (px [.lock])).space = none ∧
    regionOf 0x10000004 = some .data ∧
    Starts (busy {}) 1 run3 [.lock, .space, .cond] (px [.lock, .space 3]) (2 + (bytesM z).length) ∧
    (modsOf (px [.lock, .space 3])).lock = true ∧ (modsOf (px [.lock, .space 3])).space = some 3 ∧
    ((busy {}).cpu0 1 run3 (px [.lock, .space 3]) (2 + (bytesM z).length)).inSpace z = true ∧
    ((busy {}).found 1).ownPartition (((busy {}).cpu0 1 run3 (px [.lock, .space 3]) (2 + (bytesM z).length)).ea z) = true :=
  ⟨⟨starts_of (by decide), by decide, by decide, by decide, by decide⟩, starts_of (by decide), by decide, by decide, by decide, by decide, by decide, starts_of (by decide), by decide, by decide,
    by decide, by decide⟩

theorem witness_DeviceInstructions :
    Starts (busy {}) 1 run3 [.rep, .cond] (px []) 1 ∧ Starts (busy {}) 1 run3 [.cond] (px []) 1 ∧ Starts (busy {}) 1 run3 [.cond] (px []) 2 ∧
    0xC0 ≤ (0xC0 : BitVec 8).toNat ∧ Starts (busy {}) 1 run3 [.cond] (px []) 5 ∧ (15 : BitVec 8).toNat ≤ 15 ∧
    (0x10 : BitVec 24).toNat % 4 = 0 ∧ csrTicks (0x10 : BitVec 24).toNat = some 6 ∧
    ((((busy {}).found 1).charge 1 3 6).writeReg (.core 1 2) 5006 0x10 0).curRun 1 = some run3 ∧
    Starts (busy {}) 1 run3 [.cond] (px []) 3 ∧ (31 : BitVec 8).toNat ≤ 31 ∧ (12 : BitVec 8).toNat ≤ 12 :=
  ⟨starts_of (by decide), starts_of (by decide), starts_of (by decide), by decide, starts_of (by decide), by decide, by decide,
    by decide, by decide, starts_of (by decide), by decide, by decide⟩

theorem witness_HaltAndYield :
    Starts (busy {}) 1 run3 [.cond] (px []) 1 ∧ Plain (busy {}) 1 run3 ∧
    (((busy {}).found 1).charge 1 3 1).commitTooLong run3 = false ∧
    (((busy {}).found 1).charge 1 3 1).fld (F.IMG_OINST_MODE 3) = 0 ∧
    (((busy {}).found 1).charge 1 3 1).isMirror 1 3 = false ∧ ((((busy {}).found 1).charge 1 3 1).task 3).commit = none :=
  ⟨starts_of (by decide), plain_of (by decide), by decide, by decide, by decide, by decide⟩

theorem witness_ConditionFalse :
    (formOf (.opAdd 1 (px [.cond 0]) 1 2)).map (fun f => (f.core, f.accept, f.pre, f.own.length, f.legal)) =
      some (1, [.sat, .lane, .cond], px [.cond 0], 2, true) ∧
    Reaches (busy {}) 1 run3 [.sat, .lane, .cond] (px [.cond 0]) 2 ∧
    condFalse (modsOf (px [.cond 0])) ((busy {}).bankOf 1 run3) = .ok true :=
  ⟨by decide, reaches_of (by decide), by rfl⟩

/-- A first byte past local code, an instruction that accepts no LOCK, and one operand of each fault. -/
theorem witness_InstructionFaults :
    let ea (d : Dev) (pre : Fetch) (a : Word) : Word := ((runOn d {}).cpu0 1 run3 pre 6).ea ⟨3, 0, 0, a⟩
    Ready (busy { pc := 0x3FFFFF }) 1 run3 ∧ Plain (busy { pc := 0x3FFFFF }) 1 run3 ∧
    0x400000 < ((busy { pc := 0x3FFFFF }).bankOf 1 run3).pc.toNat + 2 ∧ Ready (busy {}) 1 run3 ∧ Plain (busy {}) 1 run3 ∧
    (formOf (.opAdd 1 (px [.lock]) 1 2)).map (fun f => prefixesOk f.accept f.pre && f.legal) = some false ∧
    1 + (bytesM ⟨3, 0, 0, 0⟩).length = 6 ∧ Starts (busy {}) 1 run3 [.space, .rep, .cond] (px []) 6 ∧
    (ea base (px []) 0x10000002).toNat % 4 ≠ 0 ∧ regionOf (ea base (px []) 0x70000000) = none ∧
    regionOf (ea base (px []) 0x40000070) = some .csr ∧ csrTicks ((ea base (px []) 0x400000AC).toNat - 0x40000000) = none ∧
    csrTicks ((ea base (px []) 0x400000A4).toNat - 0x40000000) = some 0 ∧ regionOf (ea base (px []) 0x003FFFFC) = some .code ∧
    regionOf (ea base (px []) 0x6003FFFC) = some .stand ∧ ((busy {}).found 1).ownPartition (ea base (px []) 0x6003FFFC) = false ∧
    regionOf (ea base (px []) 0x50000000) = some .nvs ∧ ((busy {}).found 1).nvsReady = false ∧
    Starts (busy {}) 1 run3 [.space, .rep, .cond] (px [.space 0]) 6 ∧
    ((busy {}).cpu0 1 run3 (px [.space 0]) 6).inSpace ⟨3, 0, 0, 0x20000⟩ = false ∧
    Starts (busy {}) 1 run3 [.cond] (px []) 1 ∧ ((busy {}).bankOf 1 run3).ba = [] ∧
    Starts (busy { ba := List.replicate 16 true }) 1 run3 [.cond] (px []) 1 ∧
    ((busy { ba := List.replicate 16 true }).bankOf 1 run3).ba.length = 16 :=
  ⟨ready_of (by decide), plain_of (by decide), by decide, ready_of (by decide), plain_of (by decide), by decide, by decide,
    starts_of (by decide), by decide, by decide, by decide, by decide, by decide, by decide, by decide, by decide, by decide,
    by decide, starts_of (by decide), by decide, starts_of (by decide), by decide, starts_of (by decide), by decide⟩

theorem witness_ShadowConditionsRounding :
    let b0 := (({} : Bank).defer false 2 5).land
    ({} : Bank).shadow = [] ∧ ({ shadow := b0.shadow } : Bank).shadow = b0.shadow ∧
    ({ shadow := ({ shadow := b0.shadow } : Bank).land.shadow } : Bank).shadow = ({ shadow := b0.shadow } : Bank).land.shadow ∧
    ({ fl := 1, ba := [true] } : Bank).flag flZ = true ∧ ({ fl := 1, ba := [true] } : Bank).ba = true :: [] ∧
    1 ≤ 2 ∧ (-5 : Int) = -2 * 2 ^ 2 + 3 ∧ (0 : Int) ≤ 3 ∧ (3 : Int) < 2 ^ 2 := by decide

/-! ## Tasks, angle, fast rung plane and exchange: witnesses -/

/-- The device of the tests with these registers. -/
def dev (l : Sparse Word) : Dev := { base with csr := l ++ base.csr }

/-- The device of the tests with these registers and this record of task n. -/
def task (l : Sparse Word) (n : Nat) (k : Task) : Dev := { dev l with tasks := [(n, k)] }

/-- Clauses of PeriodicReleases: an idle task in own time, one that follows station time, a busy task, and one that has a
pending release. -/
theorem witness_PeriodicReleases :
    let s := at_ (task [] 3 { live := true, next := 6000 })
    let u := at_ (task [(Reg.TSK_STATE 3, 3)] 3 { live := true, next := 6000 })
    let v := at_ (task [(Reg.TSK_STATE 3, 3)] 3 { live := true, next := 6000, pend := some {} })
    s.dev.awake = true ∧ (s.dev.task 3).live = true ∧ s.dev.kind 3 = 0 ∧ s.dev.busy 3 = false ∧
    s.dev.flag (F.TSK_CFG_TBASE 3) = false ∧ (dev [(Reg.TSK_CFG 3, 0x000A2C09)]).flag (F.TSK_CFG_EN 3) = true ∧
    u.dev.busy 3 = true ∧ (u.dev.task 3).pend = none ∧ (u.dev.task 3).live = true ∧ v.dev.busy 3 = true ∧
    (v.dev.task 3).pend.isSome = true := by decide

set_option maxRecDepth 20000 in
/-- Tasks of each kind at a release; tasks without one. -/
theorem witness_TaskReleases :
    let angle (k : Task) := task [(Reg.TSK_CFG 3, 0x00002C0B)] 3 { k with live := true }
    let event (l : Sparse Word) (k : Task) := task ((Reg.TSK_CFG 3, 0x00002C0D) :: l) 3 { k with live := true }
    (angle {}).kind 3 = 1 ∧ ((angle {}).task 3).live = true ∧ ((angle {}).task 3).catchup = [] ∧ (angle {}).busy 3 = false ∧
    ((angle { catchup := [{}] }).task 3).catchup ≠ [] ∧ ((angle { catchup := [{}] }).task 3).catchup.length < 256 ∧
    256 ≤ (List.replicate 256 ({} : Release)).length ∧
    (event [] { arrivals := [5000] }).kind 3 = 2 ∧ ((event [] { arrivals := [5000] }).task 3).arrivals = 5000 :: [] ∧
    (event [] {}).busy 3 = false ∧ (event [] {}).notBefore 3 ≤ 5000 ∧
    5000 < (event [(Reg.TSK_PERIOD 3, 100)] { lastRel := some 4900 }).notBefore 3 ∧
    ((event [] { held := some 6000 }).task 3).held = some 6000 ∧
    ((event [] { pend := some {}, arrivals := [5000] }).task 3).pend.isSome = true ∧
    ((event [] { pend := some {} }).task 3).pend = some {} ∧ ((event [] { pend := some {} }).task 3).held = none ∧
    (event [] { pend := some {} }).busy 3 = false ∧ (event [(Reg.TSK_STATE 3, 3)] {}).inRun 3 = true ∧
    (event [] {}).inRun 3 = false ∧ ((event [] {}).task 3).ready = none ∧ ((event [] { ready := some {} }).task 3).ready.isSome = true ∧
    (event [] { ready := some {} }).notBefore 3 ≤ 5000 ∧ (angle { catchup := [{}] }).busy 3 = false ∧
    ((angle { catchup := [{}] }).task 3).catchup = {} :: [] ∧ ((angle { catchup := [{}] }).task 3).pend = none ∧
    (event [] {}).awake = true ∧ (base.task 3).live = false ∧ (base.task 3).arrivals = [] ∧ (base.task 3).held = none ∧
    base.pendFree 3 = false ∧ base.catchFree 3 = false := by decide

/-- An idle core with a READY task and without one; a run with a READY task above it and without one; the return to a run
that was preempted; a carry-over with a double-bit error. -/
theorem witness_Dispatches :
    let ready (t : Task) : State := at_ (task [] 3 { t with live := true, ready := some { mono := 4000 } })
    let above : State := runOn { dev [(Reg.TSK_CFG 5, 0x00001009 + 0x000), (Reg.TSK_BUDGET 5, 100000)] with
      tasks := [(5, { live := true, ready := some { mono := 4000 } })] } {}
    let back : State := at_ { base with cores := [(1, { runs := [run3], waiting := some 5, time := 5000 })] }
    let first (s : State) (n : Nat) (r : Release) (t : Nat) : Bool := ((s.found 1).readyTasks 1).all (fun q =>
      q.1 == n || Nat.blt t q.2.mono || !(s.found 1).above q.1 { task := n, bank := 2, rel := r, stage := .latch })
    let late : State := at_ { dev [(Reg.TSK_CFG 5, 0x00001009), (Reg.TSK_BUDGET 5, 100000)] with
      tasks := [(3, { live := true, ready := some { mono := 4000 } }), (5, { live := true, ready := some { mono := 5010 } })]
      cores := [(1, { time := 5000 })] }
    let carry : State := at_ { task [] 3 { live := true, ready := some { mono := 4000 } } with
      xch := { carries := [(3, some { entries := [⟨0, 0, 0, 0⟩], src := 0, dst := 64, cost := 9 })] } }
    (ready {}).dev.awake = true ∧ (((ready {}).found 1).core 1).runs = [] ∧
    ((ready {}).found 1).idleChoice 1 = some (3, { mono := 4000 }, 4000) ∧
    Sparse.get (fun _ => none) (ready {}).dev.xch.switchAt 3 = none ∧ ((ready {}).found 1).carryOf 3 = none ∧
    first (ready {}) 3 { mono := 4000 } 4016 = true ∧ (late.found 1).idleChoice 1 = some (3, { mono := 4000 }, 5000) ∧
    first late 3 { mono := 4000 } 5016 = false ∧ run3.stage = .logic ∧
    ((carry.found 1).carryOf 3).isSome = true ∧ carry.dev.modeChange = none ∧ (some 0 : Option Nat).any (fun i => decide (i < 1)) = true ∧
    ((at_ base).found 1).idleChoice 1 = none ∧ ((above.found 1).core 1).runs = run3 :: [] ∧ run3.task < 64 ∧
    run3.sync = false ∧ (above.found 1).preempting 1 run3 = some (5, { mono := 4000 }) ∧ (above.found 1).carryOf 5 = none ∧
    ((busy {}).found 1).preempting 1 run3 = none ∧ (((busy {}).found 1).core 1).waiting = none ∧
    (back.found 1).preempting 1 run3 = none ∧ ((back.found 1).core 1).waiting = some 5 ∧
    (back.found 1).takesOver 1 run3 = false := by decide

/-- A run at its budget under FINISH and under ABORT; a waiting commit; the keys of every clause. -/
theorem witness_RunEndsAndModes :
    let ovr (cfg : Word) : State := runOn (dev [(Reg.TSK_CFG 3, cfg), (Reg.TSK_BUDGET 3, 10), (Reg.TSK_USED 3, 10)]) {}
    let key (l : Sparse Word) : State := at_ (dev l)
    ((ovr 0x00002C09).found 1).execRun 1 = some run3 ∧ ((ovr 0x00002C09).found 1).overrunDue run3 = true ∧
    Plain (ovr 0x00002C09) 1 run3 ∧ run3.task < 64 ∧ ((ovr 0x0000AC09).dev.fld (F.TSK_CFG_OVR 3)) = 1 ∧
    2 ≤ (ovr 0x00012C09).dev.fld (F.TSK_CFG_OVR 3) ∧
    ((task [] 3 { commit := some { due := .time 6000, words := [] } }).task 3).commit = some { due := .time 6000, words := [] } ∧
    (base.task 3).commit = none ∧ Writes (at_ base) .host Reg.TSK_GCTL ∧ (at_ base).dev.awake = true ∧
    (1 : BitVec 3).toNat = (key [(Reg.SYS_MODE, 0x10)]).dev.fld F.SYS_MODE_KEY ∧
    (3 : BitVec 3).toNat ≠ (key [(Reg.SYS_MODE, 0x10)]).dev.fld F.SYS_MODE_KEY ∧ Mode.ofKey (3 : BitVec 3).toNat = none ∧
    Mode.ofKey (2 : BitVec 3).toNat = some .remote ∧ (2 : BitVec 3).toNat ≠ (key [(Reg.SYS_MODE, 0x10)]).dev.fld F.SYS_MODE_KEY ∧
    (key []).dev.phase = .ready ∧ (key []).dev.modeChange = none ∧ ({ base with phase := .prep } : Dev).phase ≠ .ready ∧
    (List.range 64).filter base.inRun = [] ∧ (List.range 64).filter (dev [(Reg.TSK_STATE 3, 3)]).inRun ≠ [] := by
  refine ⟨by decide, by decide, plain_of (by decide), by decide, by decide, by decide, by decide, by decide,
    writes_of (by decide), by decide, by decide, by decide, by decide, by decide, by decide, by decide, by decide, by decide,
    by decide, by decide⟩

/-- The device of the tests with these values in these fields. -/
def fields (l : List (Fld × Nat)) : Dev := l.foldl (fun d p => d.setFld p.1 p.2) base

/-- A reference and none; every state of the tracker; a jump that is confirmed; a step that is less than a turn old. -/
theorem witness_AngleTracker :
    let ref (k st : Nat) (a : Angle) : Dev := { (fields [(F.ANG_SRC_KIND, k)]).wr Reg.ANG_STATE (BitVec.ofNat 32 st) with ang := a }
    (base.awake = true ∧ base.ang.valid = false ∧ (ref 2 1 { valid := true }).awake = true ∧
    (ref 2 1 { valid := true }).ang.valid = true ∧ (ref 2 1 {}).angState = 1 ∧ (ref 2 1 {}).fld F.ANG_HOLD_HOLDMS ≠ 0 ∧
    ((ref 2 1 {}).setFld F.ANG_HOLD_HOLDMS 0).fld F.ANG_HOLD_HOLDMS = 0 ∧ (ref 0 3 {}).refExists = false ∧
    (ref 1 1 {}).refExists = true ∧ (ref 2 0 {}).angState = 0 ∧ (ref 2 2 {}).angState = 2 ∧ (ref 2 3 {}).angState = 3 ∧
    (ref 2 1 {}).slewable 0 = true ∧ (ref 2 1 {}).slewable 0x40000000 = false ∧
    (freqBad ((ref 2 1 {}).cycleFreqAt 4990 (some 0x320000)) = false ∧ (ref 2 1 {}).levelBad 4990 0x10000 = false) ∧
    freqBad ((ref 2 1 {}).cycleFreqAt 4990 (some 0x100000)) = true ∧ (ref 2 1 {}).levelBad 4990 0 = true ∧
    (ref 2 1 { confirmAt := some 4000, jumpSize := 0x40000000 }).slewable 0x40000000 = false ∧
    (fields [(F.ANG_SRC_KIND, 3)]).fld F.ANG_SRC_KIND = 3 ∧
    (ref 2 1 { confirmAt := some 4000 }).jumpReady (max 4990 4000) = true ∧ (ref 2 1 {}).jumpReady (max 4990 0) = false ∧
    (ref 2 1 { stepU := some 7 }).ang.stepU = some 7 ∧ base.ang.stepU = none) ∧
    Writes (at_ base) .host Reg.ANG_SRC ∧ Writes (at_ base) .host Reg.ANG_COMP :=
  ⟨by decide, writes_of (by decide), writes_of (by decide)⟩

theorem witness_SampleSets : (at_ base).dev.awake = true ∧ Image.wf [(0x110, 5), (0x91F, 7)] = true ∧
    (List.replicate 16 (0 : Word64)).length = 16 ∧ atLimit 0x7FFFFF = true ∧
    (fields [(F.ADC_CFG_CHEN, 1)]).chEnabled 0 = true ∧ (∀ p ∈ base.ang.tlMade, p.2 ≤ 5) := by decide

/-- A plane at rest, and one that has stopped; rungs of each timer mode. -/
theorem witness_FastRungSweep :
    let r (m e q : Nat) : Rung := BitVec.ofNat 128 (5 * 2 ^ 64 + m * 2 ^ 88 + e * 2 ^ 96 + q * 2 ^ 120)
    base.awake = true ∧ base.plane.swapDue = none ∧ base.plane.ded = none ∧
    (fields [(F.FRP_STAT_PLANE, 3)]).fld F.FRP_STAT_PLANE = 3 ∧
    (fields [(F.SYS_MODE_MODE, 0), (F.FRP_STAT_PLANE, 2)]).fld F.FRP_STAT_PLANE =
      (fields [(F.SYS_MODE_MODE, 0), (F.FRP_STAT_PLANE, 2)]).planeWanted ∧
    (r 0 0 0).tmode = 0 ∧ (r 1 0 0).tmode = 1 ∧ (r 2 3 1).tmode = 2 ∧ (r 2 3 1).tq = true ∧
    (r 2 3 1).elapsed < (r 2 3 1).preset ∧ (r 2 3 0).tq = false ∧ (r 2 5 1).preset ≤ (r 2 5 1).elapsed := by decide

/-- Tables in PROGRAM and not, the check and the swap, a table that passes and one that fails, the snapshot. -/
theorem witness_FastRungTables :
    let prog := fields [(F.SYS_MODE_MODE, 3)]
    let busy := fields [(F.SYS_MODE_MODE, 3), (F.FRP_TBLCTL_BUSY, 1)]
    let plane (p : Plane) : Dev := { base with plane := p }
    let bad : Sparse Rung := [(0, BitVec.ofNat 128 (2 ^ 95 + 2 ^ 94))]
    (prog.progOk .host = true ∧ prog.flag F.FRP_TBLCTL_BUSY = false ∧ prog.xst = 0 ∧
    (1 : BitVec 2).toNat ≠ 3 ∧ (3 : BitVec 2).toNat = 3 ∧ busy.flag F.FRP_TBLCTL_BUSY = true ∧
    (fields [(F.SYS_MODE_MODE, 0)]).progOk .host = false ∧ (fields [(F.XCH_STAT_STATE, 1)]).xst ≠ 0 ∧
    (plane { checkEnd := some 9000 }).awake = true ∧ (plane { checkEnd := some 9000 }).plane.checkEnd = some 9000 ∧
    checkTable [] none = none ∧ (checkTable bad none).isSome = true ∧ base.plane.checkEnd = none ∧
    (plane { swapDue := some 4000 }).plane.swapDue = some 4000 ∧ tableWf bad = true ∧ base.plane.swapDue = none ∧
    (fields [(F.FRP_SNAPCTL_BUSY, 1)]).awake = true ∧ (fields [(F.FRP_SNAPCTL_BUSY, 1)]).flag F.FRP_SNAPCTL_BUSY = true ∧
    base.flag F.FRP_SNAPCTL_BUSY = false) ∧
    Writes (at_ prog) .host (0x100000 + 16 * 4095 + 4 * 3) ∧ Writes (at_ base) .host Reg.FRP_TBLCTL ∧
    Writes (at_ base) .host Reg.FRP_SNAPCTL :=
  ⟨by decide, writes_of (by decide), writes_of (by decide), writes_of (by decide)⟩

/-- The exchange controller in state st, the device in mode m. -/
def exch (m st : Nat) (x : Exch) : Dev := { fields [(F.SYS_MODE_MODE, m), (F.XCH_STAT_STATE, st)] with xch := x }

/-- The head of a pair message of pair identity i. -/
def own (i : Word) : PairHead := { maj := 2, min := 0, seq := 1, pairId := i, uid := 9, crcOk := true }

/-- Every state of the controller, in REMOTE, in PROGRAM and in RUN. -/
theorem witness_ExchangeCommands :
    (((0xE8C6 : BitVec 16) = 0xE8C6 ∧ (0xE8C7 : BitVec 16) ≠ 0xE8C6 ∧ (exch 1 0 {}).xst = 0 ∧ (exch 1 1 {}).xst = 1 ∧
    (exch 1 0 {}).mode = .remote ∧ (exch 3 1 {}).mode = .program ∧ (exch 0 0 {}).mode ≠ .remote ∧
    (exch 0 0 {}).mode ≠ .program ∧ (exch 1 1 {}).pairReady = true ∧ (exch 1 2 {}).xst = 2 ∧ (exch 1 3 {}).xst = 3 ∧
    (exch 1 3 {}).mode ≠ .run ∧ (exch 0 3 {}).mode = .run ∧ (exch 1 5 {}).xst ≠ 1 ∧ (exch 1 5 {}).xst ≠ 2) ∧
    ((exch 1 1 {}).setFld F.HSB_CFG_EN 1 |>.setFld F.HSB_STAT_ROLES 2 |>.setFld F.HSB_STAT_PATHA 1).pairReady = false ∧
    (exch 1 5 { stageEnd := some 9000 }).awake = true ∧ (exch 1 5 { stageEnd := some 9000 }).flag F.HSB_CFG_EN = false ∧
    (exch 1 5 { stageEnd := some 9000 }).xch.stageEnd = some 9000 ∧ base.xch.stageEnd = none) ∧
    Writes (at_ (exch 1 0 {})) .host Reg.XCH_CMD :=
  ⟨by decide, writes_of (by decide)⟩

/-- A task of the group at rest and one in a run; a switch of one task with its old registers, and a revert; the boundary
timeout; the window, warned or not; the messages in a pair, with PAIRLOAD at a member in role 6. -/
theorem witness_ExchangeSwitch :
    let x : XTask := { task := 3, code := 1, budget := 2, trgn := 3, oinst := 4 }
    let inRun (d : Dev) : Dev := (d.wr Reg.XCH_TMASK0 8).setFld (F.TSK_STATE_ST 3) 3
    let pair (m st r : Nat) : Dev := (exch m st {}).setFld F.HSB_CFG_EN 1 |>.setFld F.HSB_STAT_ROLE_STATE r
    (exch 1 0 {}).awake = true ∧ (exch 1 0 {}).xst ≠ 2 ∧ (exch 1 0 {}).xst ≠ 4 ∧ (exch 1 0 {}).xch.late = [] ∧
    (inRun (exch 1 2 {})).group.all ((inRun (exch 1 2 {})).taskIdle 4990) = false ∧
    (exch 1 2 { tasks := [x] }).flag F.HSB_CFG_EN = false ∧ (exch 1 2 { tasks := [x] }).group.all ((exch 1 2 { tasks := [x] }).taskIdle 4990) = true ∧
    (exch 1 2 { tasks := [x] }).xst = 2 ∧ (exch 1 2 { tasks := [x] }).xch.tasks = [x] ∧ x.task < 64 ∧
    ((exch 1 2 { tasks := [x] }).wr Reg.XCH_TMASK0 8).group.contains 3 = true ∧
    ((exch 1 2 { tasks := [x] }).wr Reg.XCH_TMASK0 8).group.all (((exch 1 2 { tasks := [x] }).wr Reg.XCH_TMASK0 8).taskIdle 4990) = true ∧ (exch 1 2 { frp := true }).xch.frp = true ∧
    (exch 1 4 { olds := [x] }).xst = 4 ∧ (exch 1 4 { olds := [x] }).xch.olds.all (fun x => decide (x.task < 64)) = true ∧
    (exch 1 4 { olds := [x], regions := [255] }).xch.regions.all (fun k => decide (k < 256)) = true ∧
    (exch 1 4 { olds := [x] }).xch.olds = [x] ∧
    (exch 1 2 { btmo := some 9000 }).xch.btmo = some 9000 ∧ base.xch.btmo = none ∧
    (exch 1 3 { winEnd := some 9000 }).xch.winEnd = some 9000 ∧ (exch 1 3 { winEnd := some 9000 }).xst = 3 ∧
    (exch 1 3 { winEnd := some 9000 }).xch.warned = false ∧ base.xch.winEnd = none ∧
    ((exch 1 3 {}).setFld F.XCH_CFG_EXPACT 1).flag F.XCH_CFG_EXPACT = true ∧
    ((exch 1 3 {}).setFld F.XCH_CFG_EXPACT 0).flag F.XCH_CFG_EXPACT = false ∧
    (pair 1 3 2).awake = true ∧ (pair 1 3 2).member = true ∧ (pair 1 3 2).xst = 3 ∧ (pair 1 0 2).xst = 0 ∧ (pair 1 2 2).xst = 2 ∧
    (pair 1 0 6).role = 6 ∧ (pair 1 0 6).mode = .remote ∧ (pair 0 0 6).mode ≠ .remote ∧ (pair 0 0 6).mode ≠ .program ∧
    (pair 1 0 2).role ≠ 6 ∧ (exch 1 4 { olds := [x] }).xch.reverting = false ∧
    ((own 0).crcOk = true ∧ (own 0).pairId = (pair 1 3 2).rd Reg.HSB_PAIRID0) ∧ (pair 1 3 2).xch.confirmDue = none ∧
    (pair 1 3 2).xch.switchAt = [] ∧ ({ pair 1 3 2 with xch := { switchAt := [(3, some 7)] } } : Dev).xch.switchAt ≠ [] := by decide

/-- The hot-standby controller of a member with these fields. -/
def hsbOf (l : List (Fld × Nat)) (h : Hsb) : Dev := { fields ((F.HSB_CFG_EN, 1) :: l) with hsb := h }

/-- A heartbeat of pair identity i. -/
def beat (i : Word) (roles : BitVec 4) : Heartbeat :=
  { maj := 2, min := 0, seq := 1, pairId := i, uid := 9, roles := roles, roleState := 4, health := 0, selftest := true,
    synced := true, pubdiag := true, mode := 0, xstate := 0, runver := 0, mono := 100, ns := 0, sec := 0 }

theorem witness_PairPaths :
    let d := hsbOf [(F.HSB_STAT_ROLES, 3), (F.HSB_STAT_ROLE_STATE, 3)] { nextHb := some 9000 }
    d.awake = true ∧ d.hsb.nextHb = some 9000 ∧ d.member = true ∧ d.role ≠ 10 ∧
    (hsbOf [(F.HSB_STAT_ROLE_STATE, 10)] {}).role = 10 ∧ base.hsb.nextHb = none ∧
    (beat 1 0).pairId ≠ d.rd Reg.HSB_PAIRID0 ∧ base.member = false ∧ (beat 0 0).pairId = d.rd Reg.HSB_PAIRID0 ∧
    d.flag F.HSB_STAT_PREFCONF = false ∧ d.flag F.SYS_STRAPS_PREF = (beat 0 0).roles.getLsbD 3 ∧
    d.flag F.SYS_STRAPS_PREF ≠ (beat 0 8).roles.getLsbD 3 ∧ d.flag F.HSB_STAT_PATHA = false ∧
    d.rd (Reg.SYS_IFVER 2) = 0x01000201 ∧ (beat 0 0).maj = 2 ∧ (beat 0 0).min = 0 ∧ d.role = 3 ∧
    (hsbOf [(F.HSB_STAT_ROLE_STATE, 8)] {}).role = 8 ∧
    (hsbOf [(F.HSB_STAT_PATHA, 1)] {}).flag F.HSB_STAT_PATHA = true ∧
    (hsbOf [(F.HSB_STAT_PATHB, 1), (F.HSB_STAT_ROLE_STATE, 2)] {}).flag F.HSB_STAT_PATHB = true ∧
    (hsbOf [(F.HSB_STAT_PATHB, 1), (F.HSB_STAT_ROLE_STATE, 2)] {}).flag F.HSB_STAT_PATHA = false ∧
    (hsbOf [(F.HSB_STAT_PATHB, 1), (F.HSB_STAT_ROLE_STATE, 2)] {}).role = 2 ∧ d.flag F.HSB_STAT_PATHB = false ∧
    (hsbOf [(F.HSB_STAT_PATHA, 1), (F.STD_PORT_UP 0, 1)] {}).flag (F.STD_PORT_UP 0) = true ∧
    (hsbOf [(F.HSB_STAT_PATHA, 1), (F.STD_PORT_UP 0, 1)] {}).member = true ∧
    (hsbOf [(F.HSB_STAT_PATHA, 1), (F.STD_PORT_UP 0, 1)] {}).pathAPort = (0 : BitVec 1).toNat ∧
    d.flag (F.STD_PORT_UP 0) = false ∧ (1 : Word) ≠ d.rd Reg.HSB_PAIRID0 ∧ d.roleBit 0 = true ∧
    (hsbOf [] {}).roleBit 0 = false ∧ d.pathOpen true = true ∧ d.pathOpen false = false ∧
    (hsbOf [(F.STD_PORT_UP 0, 1)] {}).pathOpen false = true ∧ (own 0).crcOk = true ∧
    ({ own 0 with crcOk := false } : PairHead).crcOk = false ∧ (own 0).pairId = d.rd Reg.HSB_PAIRID0 ∧
    (own 1).pairId ≠ d.rd Reg.HSB_PAIRID0 ∧ (beat 0 0).runver = d.rd Reg.XCH_RUNVER ∧
    ({ beat 0 1 with runver := 7 } : Heartbeat).runver ≠ d.rd Reg.XCH_RUNVER ∧ (beat 0 1).roles.getLsbD 0 = true ∧
    d.hsb.matched = false ∧ (hsbOf [(F.HSB_STAT_ROLE_STATE, 6)] {}).role = 6 ∧
    negotiate (d.rd (Reg.SYS_IFVER 2)) 0x01000000 = none := by decide

/-- A holder that may refresh and one that may not; each instant set and not; every role of the clauses. -/
theorem witness_LeaseLine :
    let holder (l : List (Fld × Nat)) (h : Hsb) : Dev := hsbOf ((F.HSB_STAT_ROLES, 3) :: (F.HSB_STAT_ROLE_STATE, 3) :: l) h
    let role (r : Nat) (h : Hsb) : Dev := hsbOf [(F.HSB_STAT_ROLE_STATE, r), (F.SYS_MODE_MODE, 0)] h
    let h : Hsb := { slot := some 9000 }
    let given : Handover := { at_ := 9000, out := true, acked := true }
    let j : Dev := hsbOf [(F.HSB_STAT_ROLE_STATE, 1), (F.HSB_STAT_ROLES, 8), (F.HSB_STAT_PATHA, 1), (F.SYS_MODE_MODE, 0)]
      { joinEnd := some 9000, driverOk := true, peer := some (beat 0 0) }
    (holder [(F.HSB_STAT_PATHA, 1)] h).awake = true ∧ (holder [(F.HSB_STAT_PATHA, 1)] h).hsb.slot = some 9000 ∧
    (holder [(F.HSB_STAT_PATHA, 1)] h).roleBit 0 = true ∧ (holder [(F.HSB_STAT_PATHA, 1)] h).pathUp = true ∧
    (holder [] { h with readBack := false }).hsb.slot = some 9000 ∧ (holder [] { h with readBack := false }).roleBit 0 = true ∧
    (holder [] { h with readBack := false }).pathUp = false ∧ (holder [] { h with readBack := false }).hsb.readBack = false ∧
    base.hsb.slot = none ∧ (holder [] { leaseEnd := some 9000 }).hsb.leaseEnd = some 9000 ∧
    (holder [] { leaseEnd := some 9000 }).gateOpen = (holder [] { leaseEnd := some 9000 }).roleBit 2 ∧
    base.hsb.leaseEnd = none ∧ (role 4 {}).member = true ∧ (role 4 { presenceDue := some 9000 }).hsb.presenceDue = some 9000 ∧
    base.hsb.presenceDue = none ∧ (1 : BitVec 2) ≠ 0 ∧ (2 : BitVec 2) ≠ 0 ∧ (3 : BitVec 2) ≠ 0 ∧ (role 4 {}).pathUp = false ∧
    (hsbOf [(F.HSB_STAT_ROLE_STATE, 4), (F.HSB_STAT_PATHB, 1)] {}).pathUp = true ∧
    (hsbOf [(F.HSB_STAT_ROLE_STATE, 4), (F.HSB_STAT_PATHB, 1)] {}).role = 4 ∧ (role 2 {}).role ≠ 4 ∧ (role 2 {}).role ≠ 5 ∧
    (role 5 { joined := true, driverOk := true }).hsb.joined = true ∧ (role 5 { joined := true, driverOk := true }).role = 5 ∧
    (role 5 { joined := true, driverOk := true }).member = true ∧ (role 5 { joined := true, driverOk := true }).pathUp = false ∧
    (role 5 { joined := true, driverOk := true }).selftest = true ∧ (role 5 { joined := true }).selftest = false ∧
    base.hsb.joined = false ∧ (role 7 { claimEnd := some 9000 }).hsb.claimEnd = some 9000 ∧ (role 7 {}).role = 7 ∧
    (hsbOf [(F.HSB_STAT_ROLES, 8)] {}).roleBit 3 = true ∧ (role 7 {}).roleBit 3 = false ∧ base.hsb.claimEnd = none ∧
    (role 1 { joinEnd := some 9000, sawRefresh := true }).hsb.joinEnd = some 9000 ∧ (role 1 {}).role = 1 ∧
    j.hsb.joinEnd = some 9000 ∧ j.role = 1 ∧ j.hsb.sawRefresh = false ∧ j.roleBit 3 = true ∧ j.selftest = true ∧
      j.pathUp = true ∧
      j.hsb.peer.any (fun p => p.roleState = 1 || p.roleState = 4 || p.roleState = 5 || p.roleState = 6) = true ∧
    base.hsb.joinEnd = none ∧ (holder [(F.HSB_STAT_PATHA, 1)] h).atHandover 9000 = false ∧
    (holder [] { slot := some 9000, handover := some given }).atHandover 9000 = true ∧
    (holder [(F.HSB_STAT_PATHA, 1)] h).presenceMissing 9000 = false ∧
    (holder [(F.HSB_STAT_PEERVALID, 1)] { peerStandFrom := some 0 }).presenceMissing 300000 = true ∧
    (holder [(F.HSB_STAT_PEERVALID, 1)] { peerStandFrom := some 0 }).presenceMissing 299999 = false ∧
    (role 4 {}).hsb.presenceSent = false ∧ (role 4 { presenceSent := true }).hsb.presenceSent = true ∧
    (role 5 { unreadable := true }).hsb.unreadable = true ∧ (holder [(F.HSB_STAT_LINE, 2)] {}).line = 2 := by decide

/-- Publication held and not, its conditions met and not; publication given up; an instant of the wave's end. -/
theorem witness_Publication :
    let pub (b : Nat) (diag : Nat) (h : Hsb) : Dev := hsbOf [(F.HSB_STAT_ROLES, b), (F.HSB_PUBCFG_DIAG, diag)] h
    ((pub 7 1 {}).awake = true ∧ (pub 7 1 {}).member = true ∧ (1 : Word) ≠ (pub 7 1 {}).rd Reg.HSB_PAIRID0 ∧
    (pub 7 1 {}).pubdiag 5000 = false ∧ (pub 7 1 {}).roleBit 2 = true ∧ (pub 7 0 {}).pubdiag 5000 = true ∧
    (pub 3 0 {}).roleBit 2 = false ∧ (pub 3 0 {}).member = true ∧ (pub 3 0 {}).pubdiag 5000 = true ∧
    (pub 3 1 {}).roleBit 2 = false ∧ (pub 3 1 {}).pubdiag 5000 = false ∧ (pub 3 0 { gaveUp := true }).hsb.gaveUp = true ∧
    (pub 3 0 {}).hsb.gaveUp = false ∧ (1 : BitVec 3) = 1 ∧ (3 : BitVec 3) = 3 ∧ (0 : BitVec 3) ≠ 1 ∧ (0 : BitVec 3) ≠ 3 ∧
    base.member = false ∧ (pub 3 0 { relinquishEnd := some 9000 }).hsb.relinquishEnd = some 9000 ∧
    base.hsb.relinquishEnd = none ∧ (pub 3 0 {}).roleBit 0 = true ∧ (pub 0 0 {}).roleBit 0 = false ∧
    (0xB7A3 : BitVec 16) ≠ 0xB7A2 ∧ base.flag F.HSB_CFG_EN = false ∧ (pub 7 0 {}).flag F.HSB_CFG_EN = true ∧
    (0xB7A2 : BitVec 16) = 0xB7A2 ∧ (own 0).pairId = (pub 7 0 {}).rd Reg.HSB_PAIRID0 ∧
    (pub 3 0 {}).hsb.role1 ≠ 0) ∧ Writes (at_ (pub 7 0 {})) .host Reg.HSB_CMD ∧ Writes (at_ base) .host Reg.HSB_CMD :=
  ⟨by decide, writes_of (by decide), writes_of (by decide)⟩

/-- A handover that may start and one that is refused, given and taken, acknowledged, carried out; a mirror sync that waits
and a MIRROR of its run. -/
theorem witness_HandoverAndMirror :
    let m (c : BitVec 3) (run : Word) : Mirror :=
      { core := c, run := run, items := [], runs := [], stNums := [] }
    let out : Handover := { at_ := 9000, out := true }
    let gives (l : List (Fld × Nat)) (h : Hsb) : Dev :=
      hsbOf ((F.HSB_STAT_ROLES, 3) :: (F.HSB_STAT_ROLE_STATE, 2) :: (F.HSB_STAT_PATHA, 1) :: l) h
    let full : Dev := gives [(F.HSB_STAT_PATHB, 1), (F.SYS_MODE_MODE, 2), (F.HSB_STAT_LINE, 0)] { peer := some (beat 0 0) }
    let waitAt (mem : Mems) : Dev :=
      { hsbOf [(F.HSB_STAT_ROLE_STATE, 4), (F.HSB_STAT_PATHA, 1), (F.HSB_MTASK_EN 1, 1), (F.HSB_MTASK_TASK 1, 3)]
        { waits := [(1, some (5, 5000))], peer := some (beat 0 0) } with
        cores := [(1, { runs := [{ run3 with sync := true }], time := 4000 })], mem := mem }
    let wait : Dev := waitAt {}
    let lateRun (d : Dev) : Option Word := Sparse.get (fun _ => none) d.hsb.lateRuns 1
    let one : Dev := waitAt { data := [(0x200000, 1)] }
    ((gives [] {}).awake = true ∧ (gives [] {}).member = true ∧ (1 : Word) ≠ (gives [] {}).rd Reg.HSB_PAIRID0 ∧
    (0xB7A3 : BitVec 16) ≠ 0xB7A2 ∧ (gives [] {}).roleBit 0 = true ∧ (gives [] {}).role = 2 ∧
    (gives [] {}).hsb.handover = none ∧ (gives [] {}).takerReady true = false ∧
    full.takerReady true = true ∧ full.takerReady false = true ∧ full.acceptsHandover true = true ∧
    full.acceptsHandover false = true ∧ (gives [] {}).acceptsHandover true = false ∧
    (own 0).pairId = full.rd Reg.HSB_PAIRID0 ∧ 5000 < 5001 ∧ lateRun wait = none ∧
    ((wait.core 1).runs.drop 1).all (fun x => !x.sync && x.stage == .logic) = true ∧ one.fld F.HSB_VER_MAJ ≠ 1 ∧ full.mode = .stop ∧ full.roleBit 0 = true ∧
    full.role = 2 ∧ full.hsb.handover = none ∧
    (hsbOf [] {}).roleBit 0 = false ∧ (gives [] { handover := some out }).hsb.handover = some out ∧
    (gives [(F.SYS_MODE_MODE, 0)] { driverOk := true }).mode ≠ .stop ∧ (gives [(F.SYS_MODE_MODE, 0)] { driverOk := true }).mode ≠ .program ∧
    (gives [(F.SYS_MODE_MODE, 0)] { driverOk := true }).selftest = true ∧ (gives [] {}).takerReady false = false ∧
    (gives [] {}).flag F.HSB_STAT_RETINH = false ∧ (gives [(F.HSB_STAT_RETINH, 1)] {}).flag F.HSB_STAT_RETINH = true ∧
    (hsbOf [(F.HSB_STAT_ROLE_STATE, 4), (F.SYS_MODE_MODE, 0)] {}).role = 4 ∧
    (hsbOf [(F.HSB_STAT_ROLE_STATE, 4), (F.SYS_MODE_MODE, 0)] {}).mode.runs = true ∧
    (hsbOf [(F.HSB_STAT_ROLE_STATE, 4), (F.SYS_MODE_MODE, 2)] {}).mode.runs = false ∧
    out.out = true ∧ out.acked = false ∧ { out with acked := true }.acked = true ∧ out.done = false ∧
    { out with out := false }.out = false ∧ { out with done := true }.done = true ∧ base.hsb.handover = none ∧
    (hsbOf [] { holdoff := some 9000 }).hsb.holdoff = some 9000 ∧ base.hsb.holdoff = none) ∧
    (wait.member = true ∧ wait.awaitsMirror = true ∧ (hsbOf [(F.HSB_STAT_ROLE_STATE, 2)] {}).awaitsMirror = false ∧
    Sparse.get (fun _ => none) wait.hsb.waits (m 0 0).core.toNat = none ∧ wait.modeChange = none ∧
    Sparse.get (fun _ => none) wait.hsb.waits (m 1 5).core.toNat = some ((m 1 5).run, 5000) ∧ (m 1 5).runs = [] ∧
    (wait.core 1).runs.all (fun x => decide (x.task < 64)) = true ∧ wait.syncTask 1 = some 3 ∧ wait.mirrorTable 1 = [] ∧
    one.mirrorTable 1 = [(0, 0)] ∧ one.mirrorCarries (0, 0) = true ∧ mirrorKind 0 = 0 ∧ one.awaitsMirror = true ∧
    ((m 0 1).run - (wait.task 0).runNo).toNat < 2 ^ 31 ∧ 2 ^ 31 ≤ ((m 0 0xFFFFFFFF).run - (wait.task 0).runNo).toNat) ∧
    Writes (at_ (gives [] {})) .host Reg.HSB_CMD := ⟨by decide, by decide, writes_of (by decide)⟩
/-! ## Network, time, panel bus and inputs: witnesses -/

/-- A frame of an EtherType with or without a redundancy tag. -/
def ether (good : Bool) (red : Option RedTag) : Frame :=
  { dmac := 0x010CCD010001, smac := 7, vid := 0, pcp := 0, etherType := 0x88B8, app := none, len := 100, fcsOk := good,
    pairMsg := false, red := red, general := true, returned := 0, ptp := none, residence := 5 }

/-- A port with link, enabled or not; a good frame and a bad one; limits met and not; what each instant clause asks for. -/
theorem witness_NetworkPorts :
    let live : Dev := fields [(F.ETH_CFG_EN 2, 1), (F.ETH_STAT_LINK 2, 1)]
    let net (n : Net) : Dev := { base with net := n }
    let busy : Dev := { fields [(F.SWX_MDIO_BUSY, 1)] with net := { mdioEnd := some 9000 } }
    let seen : Seen := { cd := true, src := 1, seqNo := 2, at_ := 4000, twice := false }
    let post : Launch := { at_ := 9000, src := .host 0 100 none }
    let queued : Dev := { fields [(F.ETH_LQCFG_EN 2 4, 1), (F.ETH_CFG_EN 2, 1)] with net := { launch := [(20, [post])] } }
    (base.awake = true ∧ (live.flag (F.ETH_CFG_EN 2) && live.flag (F.ETH_STAT_LINK 2)) = true ∧
    (base.flag (F.ETH_CFG_EN 2) && base.flag (F.ETH_STAT_LINK 2)) = false ∧
    ((ether true none).fcsOk && decide ((ether true none).len ≤ 1522)) = true ∧ (ether false none).fcsOk = false ∧
    live.reserved 2 (ether true none) = false ∧
    live.reserved 2 { ether true none with etherType := 0x88F7 } = true ∧ 100 * 8000 ≤ live.bucket 4990 2 ∧
    (live.setBucket 4990 2 7).bucket 4990 2 < 100 * 8000 ∧ live.pairMode true = 0 ∧
    busy.net.mdioEnd = some 9000 ∧ busy.flag F.SWX_MDIO_BUSY = true ∧ base.flag F.SWX_MDIO_BUSY = false ∧
    base.net.mdioEnd = none ∧ (0x20000000 : Word).getLsbD 29 = true ∧ (net { seen := [seen] }).net.seen = seen :: [] ∧
    base.net.seen = [] ∧ (queued.nextLaunch 2).isSome = true ∧
    queued.flag (F.ETH_CFG_EN 2) = true ∧ base.nextLaunch 2 = none) ∧
    Writes (at_ base) .host Reg.SWX_PHYCTL ∧ Writes (at_ base) .host Reg.SWX_MDIO :=
  ⟨by decide, writes_of (by decide), writes_of (by decide)⟩

/-- Entry 3 receives GOOSE of DMAC 010CCD010001, APPID 5; entry 4 Sampled Values of 010CCD040001, APPID 6. -/
def subs : Dev :=
  let words : List (Nat × Nat × Word) :=
    [(3, 0, 0x00050005), (3, 1, 0xCD010001), (3, 2, 0x0000010C), (3, 3, 77), (3, 4, 1), (3, 5, 0x00001810), (3, 6, 0x00000403),
     (3, 8, 1), (4, 0, 0x00060007), (4, 1, 0xCD040001), (4, 2, 0x0000010C), (4, 3, 78), (4, 4, 1), (4, 5, 0x00000302),
     (4, 6, 0x00100000), (4, 8, 1)]
  words.foldl (fun d p => d.setSubWord p.1 p.2.1 p.2.2) base

/-- A GOOSE frame and a Sampled Values frame of these entries. -/
def goose : GooseFrame :=
  { id := ⟨0x010CCD010001, 0, 5, 77⟩, confRev := 1, ndsCom := false, test := false, sim := false, stNum := 4, sqNum := 3,
    ttl := 2000, members := [.boolean true] }
def sampled : SvFrame := { id := ⟨0x010CCD040001, 0, 6, 78⟩, confRev := 1, sim := false, asdus := [⟨3, 2, 0xFFFF, [1, 2]⟩] }

set_option maxRecDepth 20000 in
theorem witness_SubscriptionsAndPublications :
    let stale (n : Nat) : Dev := subs.modSub n (fun k => { k with staleAt := some 9000 })
    let pub : Dev := (base.setPubWord 1 0 3).modPub 1 (fun k => { k with next := some 9000 })
    (subs.awake = true ∧ subs.matchSub false false goose.id = some 3 ∧ subs.matchSub false true sampled.id = some 4 ∧
    base.matchSub false false goose.id = none ∧ base.matchSub false true sampled.id = none ∧
    bitsOf (subs.subWord 3 7) 15 0 = 0 ∧ subs.subState 3 = 1 ∧ goose.confRev.toNat = subs.subWord 3 4 ∧
    ((stale 3).sub 3).staleAt = some 9000 ∧ (stale 3).subIsSv 3 = false ∧ ((stale 4).sub 4).staleAt = some 9000 ∧
    (stale 4).subIsSv 4 = true ∧ (base.sub 3).staleAt = none ∧ (pub.pub 1).next = some 9000 ∧
    bitOf (pub.pubWord 1 0) 0 = true ∧ (base.pub 1).next = none ∧ (0x30003 : Word).getLsbD 16 = true ∧
    (0x30003 : Word).getLsbD 17 = true ∧ (0x10003 : Word).getLsbD 17 = false ∧ (3 : Word).getLsbD 16 = false) ∧
    Writes (at_ base) .host Reg.SWX_SUBCTL ∧ ¬(Requester.host = .lan ∧ (0x30003 : Word).getLsbD 16 = true ∧
      (0x30003 : Word).getLsbD 17 = true) ∧ Writes (at_ base) .host Reg.SWX_PUBCTL :=
  ⟨by decide, writes_of (by decide), by decide, writes_of (by decide)⟩

/-- A domain that is enabled; no better source, one since now, and one for some time; a quality that changes and one that does
not. -/
theorem witness_StationTime :
    let dom : Dev := fields [(F.PTP_DCFG_EN 0, 1), (F.PTP_DCFG_PORTS 0, 15), (F.PTP_CFG_SELAUTO, 1)]
    let tq (d : Dev) : Nat := leastFrom (fun x => d.tq x != d.fld F.PTP_STAT_TQ) 48 4990
    let two (b : Option (Nat × Nat)) : Dev :=
      { dom.setFld (F.PTP_DSTAT_SERVO 0) 2 |>.setFld (F.PTP_DSTAT_SERVO 1) 2 |>.setFld (F.PTP_DSTAT_GMCLASS 1) 6
          |>.setFld F.PTP_STAT_SRC 1 with time := { better := b } }
    (base.awake = true ∧ dom.domainOf 0 = some 0 ∧ base.domainOf 0 = none ∧ dom.flag (F.PTP_DCFG_EN 0) = true ∧
    base.flag (F.PTP_DCFG_EN 0) = false ∧ (base.preferred 4990).2 = false ∧ ((two none).preferred 4990).2 = true ∧
    (two none).time.better = none ∧ (two (some (2, 4000))).time.better = some (2, 4000) ∧
    ((two (some (2, 4000))).preferred 4990).2 = true ∧
    (fields [(F.PTP_STAT_TQ, 1)]).tq (tq (fields [(F.PTP_STAT_TQ, 1)])) ≠ (fields [(F.PTP_STAT_TQ, 1)]).fld F.PTP_STAT_TQ ∧
    base.tq (tq base) = base.fld F.PTP_STAT_TQ) ∧ Writes (at_ base) .host Reg.PTP_CMD :=
  ⟨by decide, writes_of (by decide)⟩

/-- CAN channel 1 in mode m, its engine on, its state st. -/
def can (m : Nat) (st : Can) : Dev :=
  { fields [(F.CAN_STAT_MODE 1, m), (F.CAN_CTL_MODE 1, m), (F.CAN_FCYC_PER 1, 1000)] with can := [(1, st)] }

/-- A channel that takes frames, one that is bus-off, one whose engine owns buffer 0; each instant set and not; stations of the
states that the clauses name. -/
theorem witness_PanelBus :
    let sta (k : Nat) : Dev := (can 0 {}).setFld (F.CAN_CFG_STAEN 1) 1 |>.setFld (F.CAN_STASTAT_STATE 1 2) k
    ((can 0 {}).awake = true ∧ (can 0 {}).canMode 1 = 0 ∧ (can 0 {}).fld (F.CAN_STAT_ERRSTATE 1) ≠ 2 ∧
    ((can 0 {}).setFld (F.CAN_STAT_ERRSTATE 1) 2).fld (F.CAN_STAT_ERRSTATE 1) = 2 ∧ (can 2 {}).canMode 1 = 2 ∧
    (can 0 {}).canEngineOwns 1 = false ∧ (sta 0).canEngineOwns 1 = true ∧ (3 : BitVec 2).toNat = 3 ∧ (2 : BitVec 2).toNat < 3 ∧
    (at_ (can 0 {})).dev.mayRead .host = true ∧ (can 0 {}).flag (F.CAN_CFG_STAEN 1) = false ∧
    ((can 0 { nextRef := some 9000 }).chan 1).nextRef = some 9000 ∧ (base.chan 1).nextRef = none ∧
    ((can 0 { refSeen := some 9000 }).chan 1).refSeen = some 9000 ∧ (base.chan 1).refSeen = none ∧
    ((can 0 { nextSync := some 9000 }).chan 1).nextSync = some 9000 ∧ (base.chan 1).nextSync = none ∧
    (sta 4).engineOn 1 = true ∧ (sta 4).staState 1 2 = 4 ∧ (sta 1).staState 1 2 = 1 ∧ (sta 3).staState 1 2 = 3 ∧
    base.engineOn 1 = false ∧ (sta 1).leaseHeld = true ∧ base.rd (Reg.SYS_IFVER 3) = 0x01000203) ∧
    Writes (at_ base) .host (Reg.CAN_TXCTL 1 2) ∧ Writes (at_ base) .host (Reg.CAN_CTL 1) ∧
    Writes (at_ base) .host (Reg.CAN_FCMD 1) :=
  ⟨by decide, writes_of (by decide), writes_of (by decide), writes_of (by decide)⟩

/-- Inputs 95 and 96, channels 23 and 24; an episode; each of the four comparisons of a readback; words held for a comparator. -/
theorem witness_InputsAndComparators :
    let rb (en mm : Word) : Dev := dev [(Reg.BIO_MMLIVE, mm), (Reg.BIO_RBEN, en)]
    let differs (d : Dev) (level : Bool) : Bool := (level != d.bit Reg.BIO_RBINV 3) != d.boState.getLsbD 3
    let y : Episode := { stamp := 3, tq := 1, deb := 20, due := 6000 }
    (base.awake = true ∧ 95 < (96 : BitVec 7).toNat ∧ (95 : BitVec 7).toNat < 96 ∧ base.io.biPin.getLsbD 95 ≠ true ∧
    (base.setEpisode 95 (some y)).episode 95 = some y ∧ base.episode 95 = none ∧
    ((rb 8 0).outs.dirty = false ∧ (rb 8 0).outs.tPipe = [] ∧ (rb 8 0).outs.padPipe = [] ∧ (rb 8 0).outs.fPipe = [] ∧ (rb 8 0).nvs.ops = [] ∧
      (rb 8 0).queues.pushes = [] ∧ (rb 8 0).queues.pops = []) ∧
    (rb 8 0).bit Reg.BIO_RBEN 3 = true ∧ differs (rb 8 0) true = true ∧ (rb 8 0).bit Reg.BIO_MMLIVE 3 = false ∧
    differs (rb 8 8) false = false ∧ (rb 8 8).bit Reg.BIO_MMLIVE 3 = true ∧ (rb 0 0).bit Reg.BIO_RBEN 3 = false ∧
    differs (rb 8 0) false = (rb 8 0).bit Reg.BIO_MMLIVE 3 ∧ (23 : BitVec 5).toNat < 24 ∧ 24 ≤ (24 : BitVec 5).toNat ∧
    ((base.setComparator 255 { held := some (5, 6) }).comparator 255).held = some (5, 6) ∧ (base.comparator 255).held = none) ∧
    Writes (at_ base) .host (Reg.BIO_BICFG 95) ∧ Writes (at_ base) .host Reg.BIO_RBEN ∧
    Writes (at_ base) .host (Reg.ADC_THR1 255) :=
  ⟨by decide, writes_of (by decide), writes_of (by decide), writes_of (by decide)⟩
/-! ## Queues, the host, stands, storage, supply and update: witnesses -/

theorem witness_QueuesAndInterrupts :
    let prog := fields [(F.SYS_MODE_MODE, 3)]
    base.awake = true ∧ (base.mayWrite .host (Reg.QUE_CFG 31) = true) ∧ base.mayWrite .host (Reg.QUE_QIN 31 0) = true ∧
    base.mayRead .host = true ∧ base.mayWrite .host Reg.INT_RAISE = true ∧ base.mayWrite .host (Reg.INT_PEND 7) = true ∧
    base.mayWrite .host (Reg.INT_EN 7) = true ∧ base.mayWrite .host Reg.HST_DBELL = true ∧ prog.progOk .host = true ∧
    (31 : BitVec 5).toNat ≠ 0 ∧ base.otherDepths 31 + depthOf 0x100 ≤ 16384 ∧ base.queue 31 = [] ∧
    (192 ≤ (192 : BitVec 8).toNat ∧ (0x4E9B : BitVec 16) = 0x4E9B) ∧ ¬192 ≤ (191 : BitVec 8).toNat ∧
    base.pendingSrc 192 = false ∧ base.msix.enable = true := by decide

/-- A command that names this device, on mailbox 0. -/
def head : CmdHead := { ch := .mailbox 0, tag := 7, path := [], remote := { err := 0, ns := 70, status := 3, bytes := [] } }

/-- Device d with an open session on mailbox 0, which has been rung. -/
def hosted (d : Dev) : State :=
  at_ { (d.setFld F.HST_MBSTAT_BUSY 1).wr Reg.HST_SESSION 0x10301 with host := { rung := [0] } }

/-- Command i is served at unit u. -/
def servesB (s : State) (i : Instr) (u : Nat) : Bool :=
  match hostForm s i with
  | some f => servedB s i (hostForm s i) f u
  | none => false

theorem serves_of {s : State} {i : Instr} {u : Nat} (h : servesB s i u = true) : ∃ f, Served s i f u := by
  unfold servesB at h
  split at h
  · exact ⟨_, served_of h⟩
  · cases h

/-- A mailbox in turn and out of turn, a session and none, under major 2 and 3; a message that is repeated; the three ends of a
path. -/
theorem witness_HostService :
    let none_ : State := at_ { base.setFld F.HST_MBSTAT_BUSY 1 with host := { rung := [0] } }
    let two : State := at_ { (base.setFld F.HST_MBSTAT_BUSY 1).wr Reg.HST_SESSION 0x10203 with host := { rung := [0] } }
    let uart : Channel := .uart 5
    let again : State := at_ { base with host := { replies := [{ who := chWho uart, seq := 5, bytes := [1] }] } }
    ((hostForm (hosted base) (.ident head)).isSome = true ∧ (hostForm (hosted base) (.recordRead head 0x100)).isSome = true ∧
    (at_ { base with phase := .rom }).dev.serves = false ∧ (hosted base).dev.serves = true ∧ chMailbox (.mailbox 1) = some 1 ∧
    (hosted base).dev.nextMailbox ≠ some 1 ∧ again.dev.repeated uart = some [1] ∧ (hosted base).dev.repeated head.ch = none ∧
    none_.dev.session head.ch = none ∧ (hosted base).dev.session head.ch = some 0x301 ∧ two.dev.session head.ch = some 0x203 ∧
    (hosted base).dev.resolve [9, 9, 9] = .noChild 0 ∧ (hosted base).dev.resolve [] = .found 0) ∧
    InTurn (hosted base) head.ch ∧ InTurn none_ head.ch ∧ InTurn again uart :=
  ⟨by decide, inTurn_of (by decide), inTurn_of (by decide), inTurn_of (by decide)⟩

theorem serves_all {s : State} {u : Nat} {l : List Instr} (h : l.all (fun i => servesB s i u) = true) :
    ∀ i ∈ l, ∃ f, Served s i f u := fun i hi => serves_of (List.all_eq_true.mp h i hi)

set_option maxRecDepth 20000 in
theorem witness_HostCommands :
    let h := head
    let file : ExecFile := { format := 0x0500, ver := 3, converted := [] }
    ∀ i ∈ [.hello h 0x01000301, .ident h, .unitread h, .hostLoad h 7 false 0 [1, 2, 3, 4, 5, 6, 7, 8] file, .desc h [1, 2],
      .hostLaunch h 1 3 5 0 8 false [1, 2, 3, 4, 5, 6, 7, 8], .journal h 0 1022, .recordRead h 0x100,
      .recordWrite h 0x100 1 2 [1, 2]], ∃ f, Served (hosted ready) i f 0 := serves_all (by decide)

/-- A member with link on port 0 that does not lead and knows a leader; a boundary that is due and none. -/
theorem witness_StandLink :
    let on (l : List (Fld × Nat)) (k : Stand) : Dev := { fields ([(F.STD_CFG_EN, 1), (F.STD_PORT_UP 0, 1)] ++ l) with stand := k }
    (on [] {}).awake = true ∧ (on [] {}).portUsed 0 = true ∧ base.portUsed 0 = false ∧
    ((on [] {}).standOn && (on [] {}).flag (F.STD_PORT_UP 0)) = true ∧ (base.standOn && base.flag (F.STD_PORT_UP 0)) = false ∧
    base.boundaryDue = none ∧ (on [] { nextB := some 9000, known := true, leader := some 5 }).boundaryDue.isSome = true ∧
    (on [(F.STD_STAT_LEADVALID, 1)] {}).flag (F.STD_PORT_UP 0) = true ∧ (on [(F.STD_STAT_LEADVALID, 1)] {}).standOn = true ∧
    (on [(F.STD_STAT_LEADVALID, 1)] {}).flag F.STD_STAT_ISLEAD = false ∧
    (on [(F.STD_STAT_LEADVALID, 1)] {}).flag F.STD_STAT_LEADVALID = true ∧ (on [] {}).following = false := by decide

theorem witness_RetainedMemory :
    let checks : Dev := { base with nvs := { checks := [(255, 9000)] } }
    base.awake = true ∧ base.nvsReady = false ∧ (fields [(F.NVS_STAT_READY, 1)]).nvsReady = true ∧
    (0xAFFFF : BitVec 20).toNat < 0xB0000 ∧ ¬(0xB0000 : BitVec 20).toNat < 0xB0000 ∧
    checks.nvs.checks.find? (fun p => p.1 == (255 : BitVec 8).toNat) = some (255, 9000) ∧
    base.nvs.checks.find? (fun p => p.1 == (255 : BitVec 8).toNat) = none := by decide

/-- Rails down and up; HALT and RUN; a freeze; the alarm armed; a wake; a measurement before and in its window; words 6 and 7. -/
theorem witness_Calendar :
    let rtc (r : Rtc) : Dev := { base with rtc := r }
    let m : Measure := { from_ := 1000000000, dest := 65000000000 }
    (({ base with phase := .off } : Dev).phase = .off ∧ base.phase ≠ .off ∧ base.awake = true ∧ base.mayRead .host = true ∧
    (6 : BitVec 3).toNat ≤ 6 ∧ 6 < (7 : BitVec 3).toNat ∧ base.freeze .host = none ∧
    (rtc { freezes := [(reqId .host, some (4000, [1, 2, 3, 4, 5, 6, 7]))] }).freeze .host = some (4000, [1, 2, 3, 4, 5, 6, 7])) ∧
    ((fields [(F.RTC_CTL_HALT, 1)]).halted = true ∧ base.halted = false ∧
    (fields [(F.RTC_ALMCTL_ARM, 1)]).flag F.RTC_ALMCTL_ARM = true ∧ (fields [(F.RTC_ALMCTL_ARM, 1)]).halted = false ∧
    base.flag F.RTC_ALMCTL_ARM = false ∧ (rtc { wakeP := some 9 }).rtc.wakeP = some 9 ∧ base.rtc.wakeP = none ∧
    (rtc { meas := some m }).rtc.meas = some m ∧ m.opened = false ∧ { m with opened := true }.opened = true ∧
    base.rtc.meas = none ∧ (fields [(F.RTC_STAT_PROPVALID, 1)]).flag F.RTC_STAT_PROPVALID = true ∧ base.dateValid = true) ∧
    Writes (at_ base) .host Reg.RTC_CTL ∧ Writes (at_ base) .host (Reg.RTC_SUBSEC + 4 * 7) ∧
    Writes (at_ base) .host Reg.RTC_ALMCTL :=
  ⟨by decide, by decide, writes_of (by decide), writes_of (by decide), writes_of (by decide)⟩

/-- Rails down, with a retry due and without one; power at each state of PMU; hold-up; sleep. -/
theorem witness_SupplyAndSleep :
    let power (p : Phase) (l : List (Fld × Nat)) (k : Power) : Dev := { fields l with phase := p, power := k }
    (power .off [] {}).phase = .off ∧ (power .off [] {}).power.retryAt = none ∧
    (power .off [] { retryAt := some 9000 }).power.retryAt = some 9000 ∧ base.phase ≠ .off ∧
    (decide (1 ≤ (5 : BitVec 3).toNat) && decide ((5 : BitVec 3).toNat ≤ 5) && (base.powered && (decide (base.phase ≠ .sleep) ||
      (5 : BitVec 3).toNat == 5)) && (base.bit Reg.PMU_STAT (10 + 5) != true)) = true ∧
    ((power .sleep [] {}).powered && decide ((power .sleep [] {}).phase ≠ .sleep)) = false ∧ base.powered = true ∧ (power .off [] {}).powered = false ∧
    (base.powered && base.pmuState == 1) = true ∧
    ((power .ready [(F.PMU_STAT_STATE, 2)] {}).powered && (power .ready [(F.PMU_STAT_STATE, 2)] {}).pmuState == 2) = true ∧
    (power .ready [] { rideEnd := some 9000 }).power.rideEnd = some 9000 ∧ base.power.rideEnd = none ∧
    (power .sleep [] {}).phase = .sleep ∧ base.phase ≠ .sleep ∧ (power .sleep [] {}).power.before = .ready ∧
    (power .sleep [] { before := .reset }).power.before = .reset ∧
    Dev.awake { power .sleep [] {} with phase := (power .sleep [] {}).power.before } = true ∧
    (List.range 8).all (fun c => (base.core c).runs.all (fun r => decide (r.task < 64))) = true := by decide

theorem witness_ResetsAndWatchdog :
    let power (p : Phase) (k : Power) : Dev := { base with phase := p, power := k }
    let wdt (en open_ close : Nat) (f : Option Nat) : Dev :=
      { fields [(F.WDT_STAT_EN, en), (F.WDT_CFG_WIN_OPEN, open_), (F.WDT_CFG_WIN_CLOSE, close)] with power := { wdtFrom := f } }
    let held : Dev := power .reset { setEnd := 9000 }
    let program : Program := { version := 3 }
    let sealed : Dev := { power .rom {} with flash := { comps := [(0, { slotA := .factory 1 }), (3, { slotA := .sealed program })] } }
    (base.awake = true ∧ ((power .reset { setEnd := 9000 }).phase = .reset ∧ 4990 + 10 ≤ (power .reset { setEnd := 9000 }).power.setEnd) ∧
    (power .sleep {}).phase = .sleep ∧ (power .off {}).phase = .off ∧ (base.core 1).runs = [] ∧
    ((busy {}).dev.core 1).runs ≠ [] ∧ (power .reset {}).power.releaseFrom = none ∧
    (power .reset { releaseFrom := some 9000 }).power.releaseFrom = some 9000 ∧ base.phase ≠ .reset ∧
    Mode.ofKey (1 : BitVec 3).toNat = some .run ∧ Mode.ofKey (3 : BitVec 3).toNat = none ∧ (0xD1A5 : BitVec 16) = 0xD1A5 ∧
    (0x3C96 : BitVec 16) = 0x3C96 ∧ (base.mode.runs && base.modeChange.all (fun m => m.target.runs)) = false ∧
    ((fields [(F.SYS_MODE_MODE, 0)]).mode.runs && base.modeChange.all (fun m => m.target.runs)) = true ∧
    base.power.wdtFrom = none ∧ (wdt 1 2 4 (some 0)).power.wdtFrom = some 0 ∧
    (wdt 1 2 4 (some 0)).wdtCnt 4990 < 2 * 1000 ∧ 2 * 1000 ≤ (wdt 1 2 4 (some 0)).wdtCnt 2000000 ∧
    (wdt 1 2 4 (some 0)).wdtCnt 4000999 ≤ 4 * 1000 ∧ 4 * 1000 < (wdt 1 2 4 (some 0)).wdtCnt 4001000 ∧
    base.flag F.SUP_STAT_SVCHALT = false ∧ (fields [(F.SUP_STAT_SVCHALT, 1)]).flag F.SUP_STAT_SVCHALT = true ∧
    (power .rom {}).phase = .rom ∧ (power .prep {}).phase = .prep ∧ held.phase = .reset ∧ 4990 ≤ held.power.setEnd ∧
    ((sealed.comp 3).active.program.map (fun p => p.regs) = some [] ∧ sealed.imageOk 3 (sealed.comp 3).active = true) ∧
    sealed.phase = .rom ∧ sealed.flag F.SYS_STRAPS_SPORE = false ∧ sealed.activeBoots = true ∧ (sealed.comp 0).state ≠ 4) ∧
    Writes (at_ base) .host Reg.SYS_RESET ∧ Writes (at_ base) .host Reg.SUP_CTL ∧ Writes (at_ base) .host Reg.WDT_CFG ∧
    Writes (at_ base) .host Reg.WDT_SERVE :=
  ⟨by decide, writes_of (by decide), writes_of (by decide), writes_of (by decide), writes_of (by decide)⟩

/-- A command that names this device, on the service UART. -/
def uartHead : CmdHead := { head with ch := .uart 5 }

/-- Device d with an open session on the service UART, and access open. -/
def served (d : Dev) : State :=
  at_ { d.setFld F.SEC_STAT_OPEN 1 with host := { sessions := [{ who := none, ver := 0x301, parley := false }] } }

theorem witness_SecurityCommands :
    let h := uartHead
    let sec (k : Sec) : Dev := { base with sec := k }
    (∀ i ∈ [.challenge h, .unlockSig h 3 [1] [2], .unlockPwd h [1, 2, 3, 4, 5, 6, 7, 8], .relock h,
      .setpwd h [1, 2, 3, 4, 5, 6, 7, 8], .keyslot h 3 [1], .revoke h 3, .fieldlock h, .attest h [1], .attestRead h],
      ∃ f, Served (served base) i f 0) ∧
    base.awake = true ∧ (sec { chalEnd := some 9000 }).sec.chalEnd = some 9000 ∧ (sec { winEnd := some 9000 }).sec.winEnd = some 9000 ∧
    (sec { signing := some (9000, [1]) }).sec.signing = some (9000, [1]) ∧ base.sec.chalEnd = none ∧ base.sec.winEnd = none ∧
    base.sec.signing = none :=
  ⟨serves_all (by decide), by decide, by decide, by decide, by decide, by decide, by decide, by decide⟩

set_option maxRecDepth 20000 in
/-- COMP 1 to 4 and COMP 0 and 5; a component in each state; blocks that wait; a window and a revert that are due. -/
theorem witness_FieldUpdate :
    let h := uartHead
    let comp (k : Component) : Dev := { base with flash := { comps := [(2, k)] } }
    (∀ i ∈ [.manifest h 3 65 [1], .updData h 3 0 [1], .updStatus h 3, .updAbort h 3, .activate h 3 true, .updConfirm h 3,
      .updRevert h 3, .manifest h 0 65 [1], .updData h 5 0 [1], .updStatus h 0, .updAbort h 0, .activate h 5 true,
      .updConfirm h 0, .updRevert h 5], ∃ f, Served (served base) i f 0) ∧
    ((decide (1 ≤ (4 : BitVec 4).toNat) && decide ((4 : BitVec 4).toNat ≤ 4)) = true ∧
    (decide (1 ≤ (5 : BitVec 4).toNat) && decide ((5 : BitVec 4).toNat ≤ 4)) = false ∧
    (decide (1 ≤ (0 : BitVec 4).toNat) && decide ((0 : BitVec 4).toNat ≤ 4)) = false ∧
    (base.comp ((5 : BitVec 4).toNat - 1)).state ≠ 3 ∧
    (decide ((base.comp ((0 : BitVec 4).toNat - 1)).state ≤ 1) &&
      ((base.comp ((0 : BitVec 4).toNat - 1)).addPart 65 [1]).whole) = false ∧
    base.awake = true ∧ base.phase ≠ .spore ∧ ((comp { winEnd := some 9000 }).comp 2).winEnd = some 9000 ∧
    ((comp { winEnd := some 9000 }).comp 2).revertAt = none ∧
    (base.roleBit 1 || base.roleBit 2 || !base.flag F.HSB_CFG_EN) = true ∧
    ((fields [(F.HSB_CFG_EN, 1)]).roleBit 1 || (fields [(F.HSB_CFG_EN, 1)]).roleBit 2 || !(fields [(F.HSB_CFG_EN, 1)]).flag F.HSB_CFG_EN) = false ∧
    ((comp { revertAt := some 9000 }).comp 2).revertAt = some 9000 ∧ (base.comp 2).winEnd = none) :=
  ⟨serves_all (by decide), by decide⟩

theorem witness_SporeMode :
    let spore (k : Flash) : Dev := { base with phase := .spore, flash := k }
    (spore {}).awake = true ∧ (decide ((spore {}).phase = .spore) && sporeChannel (.uart 5)) = true ∧
    (decide (base.phase = .spore) && sporeChannel (.uart 5)) = false ∧ (spore {}).repeated (.uart 5) = none ∧
    (spore { baudBack := some 9000 }).flash.baudBack = some 9000 ∧ (spore {}).flash.baudBack = none ∧
    (spore { helloAt := some 9000 }).flash.helloAt = some 9000 ∧ (spore {}).flash.helloAt = none := by decide

/-- A register of each list, an offset that no register has, and one that is no word; access open and closed to the UART. -/
theorem witness_RegisterAccess :
    let shut : Dev := fields [(F.SEC_STAT_OPEN, 0)]
    (base.awake = true ∧ (0x11001 : BitVec 24).toNat % 4 ≠ 0 ∧ (0xAC : BitVec 24).toNat % 4 = 0 ∧
    csrTicks (0xAC : BitVec 24).toNat = none ∧ shut.accessOpen = false ∧ base.accessOpen = true ∧
    csrTicks Reg.SYS_PATH0 ≠ none ∧ Reg.SYS_PATH0 ∈ plainRegs ∧ Reg.TSK_PERIOD 63 ∈ programRegs ∧
    (channelRegs 3).isEmpty = false ∧ silentRegs.isEmpty = false ∧ binaryRegs.isEmpty = false ∧ analogRegs.isEmpty = false ∧
    clearedRegs.isEmpty = false ∧ shut.mayWrite .uart Reg.SYS_PATH0 = false ∧ shut.mayRead .uart = false ∧
    (decide (Reg.SYS_PATH0 % 4 = 0) && (csrTicks Reg.SYS_PATH0).isSome) = true ∧ base.mayRead .host = true ∧
    (dev [(Reg.SYS_BADADDR, 0x80000000)]).bit Reg.SYS_BADADDR 31 = true ∧
    (firstWord base 4990 Reg.SYS_MONO0).isSome = true) ∧
    Writes (at_ base) .host Reg.SYS_PATH0 :=
  ⟨by decide, writes_of (by decide)⟩

theorem witness_RegisterCommands :
    (∀ c b, Requester.host ≠ .core c b) ∧ writeForm (.faultClear .host 0x3C96) = some (.host, Reg.SUP_CTL, 0x3C960001) ∧
    readForm (.queuePop .host 31) = some (.host, Reg.QUE_QITEM 31 0) := ⟨fun _ _ => nofun, by decide, by decide⟩

theorem witness_RegisterFrames :
    let s := served base
    s.dev.awake = true ∧ (s.dev.serves && (chMailbox (.uart 5)).isNone) = true ∧ (base.serves && (chMailbox (.mailbox 0)).isNone) = false ∧
    s.dev.repeated (.uart 5) = none ∧ s.dev.mayRead .uart = true ∧ (fields [(F.SEC_STAT_OPEN, 0)]).mayRead .uart = false ∧
    (decide (1 ≤ (64 : BitVec 8).toNat) && decide ((64 : BitVec 8).toNat ≤ 64) && decide ((0 : BitVec 24).toNat % 4 = 0)) = true ∧
    (decide (1 ≤ (65 : BitVec 8).toNat) && decide ((65 : BitVec 8).toNat ≤ 64)) = false ∧ s.dev.mayWrite .uart Reg.SYS_PATH0 = true ∧
    Reg.SYS_PATH0 ∈ plainRegs := by decide

theorem witness_PathResolution :
    let asked : Dev := { dev [(Reg.SYS_PATHCTL, 2)] with path := { path := [], asked := some 4000 } }
    (base.awake = true ∧ base.bit Reg.SYS_PATHCTL 1 = false ∧ asked.bit Reg.SYS_PATHCTL 1 = true ∧
    base.path.asked = none ∧ asked.path.asked = some 4000 ∧ base.resolve [] = .found 0) ∧
    Writes (at_ base) .host Reg.SYS_PATHCTL := ⟨by decide, writes_of (by decide)⟩

theorem witness_StepRunsTheCommand : (at_ base).pending = .meridian :: [] ∧ { at_ base with pending := [] }.pending = [] := by
  decide

theorem witness_EveryCommandCompletes :
    (∀ lock straps, Instr.meridian ≠ .deviceResetRelease lock straps) ∧ (∀ dt us est, Instr.meridian ≠ .warmResume dt us est) :=
  ⟨fun _ _ => nofun, fun _ _ _ => nofun⟩

set_option maxRecDepth 20000 in
/-- A state with HEALTH OK, and one with a first source while HEALTH stands above OK. -/
theorem witness_FirstSourceFollowsHealth :
    let bad : State := at_ (fields [(F.FRP_STAT_PLANE, 3), (F.INT_FIRST_VALID, 1)])
    (at_ base).firstOk ∧ step (at_ base) = exec .meridian { at_ base with pending := [] } ∧ bad.dev.health = 3 ∧ bad.firstOk :=
  ⟨fun _ _ => by decide, rfl, by decide, fun _ h => absurd h (by decide)⟩

theorem witness_ResetState :
    (rowOf (Reg.TSK_PERIOD 63)).isSome = true ∧ 0x98 ≤ Reg.TSK_PERIOD 63 ∧ 0x5500 ≤ Reg.TSK_PERIOD 63 ∧
    Reg.TSK_PERIOD 63 ≠ Reg.QUE_CFG 0 ∧ bootRegs.all (fun x => x.1 != Reg.TSK_PERIOD 63) = true := by decide
end Sys2Proof.Tests
end

section
/-!
PROOFS. The fixed-point instructions of 06_fixed_point_instructions.md: register moves and bitwise instructions, the
multiplies into an accumulator, and the phasor instructions. First how a body that changes the run's bank by a function of it
makes an instruction, without REP and with it; then what each instruction's function does to the bank.
-/
namespace Sys2Proof.Machine

/-! ## Instructions that change the run's bank by a function of it -/

section
variable {s : State} {i : Instr} {c : Nat} {r : Run} {accept : List PrefixKind} {pre : Fetch} {own : List Byte} {legal : Bool}
  {k n : Nat}

/-- The conclusion of Gives for a body that changes the bank by f and looks at nothing else. -/
theorem Gives.of_bankDo {f : Bank → Bank} {P : Bank → Prop} (he : exec i s = s.instr c accept pre legal own (ticks k) (bankDo f))
    (hn : own.length = n) (hl : legal = true) (h : Starts s c r accept pre n) (hP : P (f (s.bankOf c r))) :
    Gives s i c r k (s.after c r pre n) P :=
  Gives.of_instr _ _ he hn h hl rfl rfl hP

/-- The conclusion of GivesAll for a body that, with prefixes it accepts, changes the bank by f. -/
theorem GivesAll.of_bank {body : Body} (f : Bank → Bank) {P : Bank → Bank → Prop}
    (he : exec i s = s.instr c accept pre legal own (ticks k) body) (hn : own.length = n) (hl : legal = true)
    (hpc : ∀ b, (f b).pc = b.pc)
    (hy : prefixesOk accept pre = true → ∀ x : Cpu, x.m = modsOf pre → body x = .ok (x.withB (f x.b)))
    (hP : ∀ b, P b (f b)) : GivesAll s i c r accept pre n k P :=
  ⟨fun h => Gives.of_instr _ _ he hn h hl rfl (hy h.accepted _ rfl) (hP _),
    fun _ h => GivesRep.of_instr f he hn h hl (fun _ => rfl) hpc (fun _ _ _ _ => hy h.accepted _ rfl) hP⟩

/-! ## Instructions that read at X[p] and X[q] and step both (R96, R148) -/

/-- R148: an address from which MACM, MSUM and DFT take an operand. -/
def PointerOk (a : Word) : Prop := a.toNat % 4 = 0 ∧ (regionOf a = some .data ∨ regionOf a = some .shadow)

/-- R148: a change of the bank that adds 4 to X[p] and X[q] and leaves the other X registers, PC and the load shadow. -/
structure StepsPointers (f : Bank → Bank) (p q : Nat) : Prop where
  pc : ∀ b, (f b).pc = b.pc
  shadow : ∀ b, (f b).shadow = b.shadow
  x : ∀ b k, (f b).getX k = if k = p ∨ k = q then b.getX k + 4 else b.getX k

/-- A load shadow that holds no write of an X register leaves them as they are. -/
theorem Bank.getX_land {b : Bank} (h : ∀ x ∈ b.shadow, x.toX = false) (k : Nat) : b.land.getX k = b.getX k := by
  have go (l : List ShadowWrite) (hl : ∀ x ∈ l, x.toX = false) (b : Bank) : (l.foldl Bank.deferred b).getX k = b.getX k := by
    induction l generalizing b with
    | nil => rfl
    | cons x l ih =>
      have hx : b.deferred x = b.setW x.reg x.value := by simp [Bank.deferred, hl x (List.mem_cons_self ..)]
      rw [List.foldl_cons, ih (fun y hy => hl y (List.mem_cons_of_mem _ hy)), hx]
      rfl
  exact go _ (fun x hx => h x (List.mem_filter.mp hx).1) b

theorem Bank.shadow_land {b : Bank} (h : ∀ x ∈ b.shadow, x.toX = false) : ∀ x ∈ b.land.shadow, x.toX = false := by
  intro x hx
  obtain ⟨y, hy, rfl⟩ := List.mem_map.mp hx
  exact h y (List.mem_filter.mp hy).1

/-- R96: where no load of an X register is still to land, repetition j begins with X[m] stepped j times. -/
theorem StepsPointers.getX_repBank {f : Bank → Bank} {p q m : Nat} (hf : StepsPointers f p q) (hm : m = p ∨ m = q) {b : Bank}
    (hb : ∀ x ∈ b.shadow, x.toX = false) (k j : Nat) :
    (repBank (repBanks f b k) k j).getX m = b.getX m + BitVec.ofNat 32 (4 * j) ∧
      ∀ x ∈ (repBank (repBanks f b k) k j).shadow, x.toX = false := by
  induction j with
  | zero => exact ⟨(BitVec.add_zero _).symm, hb⟩
  | succ j ih =>
    obtain ⟨hx, hsh⟩ := ih
    have hsh' : ∀ x ∈ (repBanks f b k (j + 1)).shadow, x.toX = false := by rwa [repBanks_succ, hf.shadow]
    refine ⟨?_, Bank.shadow_land hsh'⟩
    calc (repBank (repBanks f b k) k (j + 1)).getX m
        = (repBanks f b k (j + 1)).getX m := Bank.getX_land hsh' m
      _ = b.getX m + BitVec.ofNat 32 (4 * j) + 4 := by rw [repBanks_succ, hf.x, if_pos hm, hx]
      _ = b.getX m + BitVec.ofNat 32 (4 * (j + 1)) := by
        rw [BitVec.add_assoc, Nat.mul_succ, BitVec.ofNat_add]; rfl

/-- Gives without REP and with it, for an instruction of n bytes that reads at X[p] and X[q] and steps both: each repetition
reads at addresses that allow it, and no load of an X register is still to land. -/
def GivesStepping (s : State) (i : Instr) (c : Nat) (r : Run) (accept : List PrefixKind) (pre : Fetch) (n ticks p q : Nat)
    (P : Bank → Bank → Prop) : Prop :=
  (Starts s c r accept pre n → PointerOk ((s.bankOf c r).getX p) → PointerOk ((s.bankOf c r).getX q) →
    Gives s i c r ticks (s.after c r pre n) (P (s.bankOf c r))) ∧
  (∀ k, StartsRep s c r accept pre n k ticks → (∀ x ∈ (s.bankOf c r).shadow, x.toX = false) →
    (∀ j, j < k → PointerOk ((s.bankOf c r).getX p + BitVec.ofNat 32 (4 * j)) ∧
      PointerOk ((s.bankOf c r).getX q + BitVec.ofNat 32 (4 * j))) →
    GivesRep s i c r ticks k (s.after c r pre n) P)

/-- The conclusion of GivesStepping for a body that, from operands it may read, changes the bank by f. -/
theorem GivesStepping.of_bank {body : Body} (f : Bank → Bank) {p q : Nat} {P : Bank → Bank → Prop}
    (he : exec i s = s.instr c accept pre legal own (ticks k) body) (hn : own.length = n) (hl : legal = true)
    (hf : StepsPointers f p q)
    (hy : prefixesOk accept pre = true → ∀ x : Cpu, x.m = modsOf pre → x.c = c → x.dev.mem = (s.found c).mem →
      PointerOk (x.b.getX p) → PointerOk (x.b.getX q) → body x = .ok (x.withB (f x.b)))
    (hP : ∀ b, P b (f b)) : GivesStepping s i c r accept pre n k p q P := by
  refine ⟨fun h hp hq => Gives.of_instr _ _ he hn h hl rfl (hy h.accepted _ rfl rfl rfl hp hq) (hP _), ?_⟩
  intro reps h hsh hat
  refine GivesRep.of_instr f he hn h hl (fun _ => rfl) hf.pc (fun j d hj hd => ?_) hP
  obtain ⟨hp, hq⟩ := hat j hj
  refine hy h.accepted _ rfl rfl hd ?_ ?_
  · exact (hf.getX_repBank (.inl rfl) hsh reps j).1.symm ▸ hp
  · exact (hf.getX_repBank (.inr rfl) hsh reps j).1.symm ▸ hq

end

/-! ## Register moves and bitwise instructions (R88, R121, R124, R142) -/

/-- R88: FL as FLRD copies it. -/
theorem Bank.readFl_eq (b : Bank) : b.readFl =
    (b.fl &&& 0x1FF) ||| BitVec.ofNat 32 ((if b.shadow = [] then 0 else 2 ^ 9) + b.ba.length * 2 ^ 10) := by
  unfold Bank.readFl
  cases b.shadow <;> simp [b2n]

theorem f2Zero_of_eq {f2 : BitVec 4} (h : f2 = 0) : f2Zero f2 = true := beq_iff_eq.mpr h

theorem mode_bne_two {m : BitVec 2} (h : m ≠ 2) : (m.toNat != 2) = true :=
  bne_iff_ne.mpr (fun e => h (BitVec.eq_of_toNat_eq e))

theorem leadingZeros_le (n v : Nat) : leadingZeros n v ≤ n := by
  induction n with
  | zero => exact Nat.le_refl 0
  | succ n ih => rw [leadingZeros]; split <;> omega

/-- The bits that CLZ counts are 0. -/
theorem testBit_of_leadingZeros (n v : Nat) {k : Nat} (hk : n - leadingZeros n v ≤ k) (hn : k < n) : v.testBit k = false := by
  induction n with
  | zero => omega
  | succ n ih =>
    rw [leadingZeros, bitOf_eq_testBit] at hk
    split at hk
    · omega
    · rcases Nat.lt_succ_iff_lt_or_eq.mp hn with h | rfl
      · exact ih (by omega) h
      · exact Bool.eq_false_iff.mpr ‹_›

/-- The bit below those that CLZ counts is 1. -/
theorem testBit_leadingZeros (n v : Nat) (h : leadingZeros n v < n) : v.testBit (n - 1 - leadingZeros n v) = true := by
  induction n with
  | zero => omega
  | succ n ih =>
    rw [leadingZeros, bitOf_eq_testBit] at h ⊢
    split at h
    · rename_i hb; rw [if_pos hb]; exact hb
    · rename_i hb
      rw [if_neg hb, show n + 1 - 1 - (leadingZeros n v + 1) = n - 1 - leadingZeros n v by omega]
      exact ih (by omega)

/-- R142: the number that CLZ writes is that of the leading zero bits of the word. -/
theorem leadingZeros_word (y : Word) :
    let z := leadingZeros 32 y.toNat
    z ≤ 32 ∧ (z = 32 ↔ y = 0) ∧ (∀ k, 32 - z ≤ k → y.getLsbD k = false) ∧ (z < 32 → y.getLsbD (31 - z) = true) := by
  intro z
  have hle : z ≤ 32 := leadingZeros_le 32 y.toNat
  have hzero : ∀ k, 32 - z ≤ k → y.getLsbD k = false := fun k hk => by
    by_cases h : k < 32
    · exact testBit_of_leadingZeros 32 y.toNat hk h
    · exact BitVec.getLsbD_of_ge y k (by omega)
  have hone : z < 32 → y.getLsbD (31 - z) = true := testBit_leadingZeros 32 y.toNat
  refine ⟨hle, ⟨fun h => ?_, fun h => ?_⟩, hzero, hone⟩
  · exact BitVec.eq_of_getLsbD_eq fun k _ => (hzero k (by omega)).trans BitVec.getLsbD_zero.symm
  · refine Nat.le_antisymm hle (Nat.le_of_not_lt fun hlt => ?_)
    have hbit : (0#32).getLsbD (31 - z) = true := (congrArg (·.getLsbD (31 - z)) h).symm.trans (hone hlt)
    exact Bool.false_ne_true (BitVec.getLsbD_zero.symm.trans hbit)

/-- R142: a bitwise instruction writes f of its operands, with Z and N. -/
theorem bitwise_gives {s : State} {i : Instr} {c : Nat} {r : Run} {pre : Fetch} {op : Byte} {f1 f2 : BitVec 4}
    (f : Word → Word → Word) (he : exec i s = s.bitwiseInstr c pre op f1 f2 f) (h : Starts s c r [.cond] pre 2) :
    Gives s i c r 1 (s.after c r pre 2) (fun b' => WordResult (s.bankOf c r) b' f1.toNat
      (f ((s.bankOf c r).getW f1.toNat) ((s.bankOf c r).getW f2.toNat)) none none false) :=
  Gives.of_bankDo he rfl rfl h (Bank.putAlu_result _ _ _)

/-- Settles O1: each move is one function of the bank, and CLZ counts as leadingZeros_word says. -/
theorem registerAndBitwiseInstructions : Obligations.RegisterAndBitwiseInstructions := by
  unfold Obligations.RegisterAndBitwiseInstructions
  refine ⟨?_, ?_⟩
  · intro s c r pre f1 f2 imm m
    refine ⟨fun h => ?mov, fun h hf => ?movi, fun h hf => ?movx, fun h hf => ?movw, fun h hf => ?flrd, fun h hf => ?flwr,
      fun h hm => ?lea⟩
    case mov => exact Gives.of_bankDo rfl rfl rfl h rfl
    case movi => exact Gives.of_bankDo rfl rfl (f2Zero_of_eq hf) h rfl
    case movx => exact Gives.of_bankDo rfl rfl (Nat.ble_eq_true_of_le hf) h rfl
    case movw => exact Gives.of_bankDo rfl rfl (Nat.ble_eq_true_of_le hf) h rfl
    case flrd => exact Gives.of_bankDo rfl rfl (f2Zero_of_eq hf) h (congrArg _ (Bank.readFl_eq _))
    case flwr => exact Gives.of_bankDo rfl rfl (f2Zero_of_eq hf) h rfl
    case lea => exact Gives.of_instr _ _ rfl (Nat.add_comm _ _) h (mode_bne_two hm) rfl rfl rfl
  · intro s c r pre f1 f2 h
    exact ⟨bitwise_gives (· &&& ·) rfl h, bitwise_gives (· ||| ·) rfl h, bitwise_gives (· ^^^ ·) rfl h,
      bitwise_gives (fun _ y => ~~~y) rfl h, leadingZeros 32 ((s.bankOf c r).getW f2.toNat).toNat,
      bitwise_gives (fun _ y => BitVec.ofNat 32 (leadingZeros 32 y.toNat)) rfl h, leadingZeros_word _⟩

/-! ## Multiplies into an accumulator (R146 to R148) -/

theorem Bank.getX_stepPair (b : Bank) (p q k : Nat) :
    (b.stepPair p q).getX k = if k = p ∨ k = q then b.getX k + 4 else b.getX k := by
  unfold Bank.stepPair
  by_cases hpq : p = q
  · subst hpq
    simp only [if_true, Bank.getX_setX, or_self]
    split
    · subst_vars; rfl
    · rfl
  · simp only [if_neg hpq, Bank.getX_setX]
    by_cases hq : k = q
    · simp [hq]
    · by_cases hp : k = p
      · simp [hp, hpq]
      · simp [hp, hq]

/-- A view of a bank that does not look at the X registers sees nothing of their step. -/
theorem Bank.stepPair_keeps {X : Type} (φ : Bank → X) (h : ∀ (b : Bank) v, φ { b with x := v } = φ b) (b : Bank) (p q : Nat) :
    φ (b.stepPair p q) = φ b := by
  unfold Bank.stepPair
  dsimp only
  split
  · exact h _ _
  · exact (h _ _).trans (h _ _)

theorem Bank.pc_putAcc (b : Bank) (n : Nat) (o : AccOut) : (b.putAcc n o).pc = b.pc := by
  obtain ⟨-, -, -, hpc, -, -⟩ := (b.putAcc_result n o).rest; exact hpc

theorem Bank.shadow_putAcc (b : Bank) (n : Nat) (o : AccOut) : (b.putAcc n o).shadow = b.shadow := by
  obtain ⟨-, -, -, -, -, hsh⟩ := (b.putAcc_result n o).rest; exact hsh

/-- R148: bank b1 with X[p] and X[q] of bank b, each 4 higher. -/
def Bank.stepFrom (p q : Nat) (b1 b : Bank) : Bank :=
  if p = q then b1.setX p (b.getX p + 4) else (b1.setX p (b.getX p + 4)).setX q (b.getX q + 4)

theorem Bank.stepPair_putAcc (b : Bank) (n p q : Nat) (o : AccOut) :
    (b.putAcc n o).stepPair p q = Bank.stepFrom p q (b.putAcc n o) b := by
  simp only [Bank.stepPair, Bank.stepFrom, Bank.getX_putAcc]

/-- R148: the word that an instruction of core c reads as an operand at an address. -/
def operandAt (d : Dev) (c : Nat) (a : Word) : Word := BitVec.ofNat 32 (d.rdMem c a 4)

theorem operandAt_of_mem {d e : Dev} (h : d.mem = e.mem) (c : Nat) (a : Word) : operandAt d c a = operandAt e c a := by
  simp only [operandAt, Dev.rdMem, h]

/-- R148: operands that may be read, without error, are those of the device. -/
theorem Cpu.operandPair_of_ok {x : Cpu} {p q : Nat} (hp : PointerOk (x.b.getX p)) (hq : PointerOk (x.b.getX q)) :
    x.operandPair p q none = .ok (x, operandAt x.dev x.c (x.b.getX p), operandAt x.dev x.c (x.b.getX q)) :=
  Cpu.operandPair_ok hp.1 hq.1 hp.2 hq.2

/-- R146: an instruction without SAT saturates as FL.SD says. -/
theorem Cpu.sat_of_accepted {x : Cpu} {accept : List PrefixKind} {pre : Fetch} (h : prefixesOk accept pre = true)
    (hs : accept.contains .sat = false) (hm : x.m = modsOf pre) : x.sat = x.b.flag flSd := by
  rw [Cpu.sat, hm, modsOf_sat h hs, Bool.false_or]

/-- R147: the bank after MPY, MAC or MSU into accumulator a. -/
def Bank.multiply (lane : Bool) (k g : Int) (a : Nat) (f1 f2 : BitVec 4) (b : Bank) : Bank :=
  b.putAcc a (macOut (b.flag flSd) lane k g (b.getA a) (b.getW f1.toNat) (b.getW f2.toNat))

/-- R148: the bank after MACM or MSUM into accumulator a, on core c of device d. -/
def Bank.multiplyMem (d : Dev) (c : Nat) (lane : Bool) (g : Int) (a p q : Nat) (b : Bank) : Bank :=
  (b.putAcc a (macOut (b.flag flSd) lane 1 g (b.getA a) (operandAt d c (b.getX p)) (operandAt d c (b.getX q)))).stepPair p q

theorem macBody_eq {pre : Fetch} (h : prefixesOk [.lane, .rep, .cond] pre = true) {x : Cpu} (hm : x.m = modsOf pre) (k g : Int)
    (b0 : BitVec 8) (f1 f2 : BitVec 4) :
    macBody k g b0 f1 f2 x = .ok (x.withB (x.b.multiply (modsOf pre).lane k g (accField b0) f1 f2)) := by
  rw [macBody, Cpu.sat_of_accepted h rfl hm, hm]; rfl

theorem macMemBody_eq {pre : Fetch} (h : prefixesOk [.lane, .rep, .cond] pre = true) {x : Cpu} (hm : x.m = modsOf pre) {d : Dev}
    (hd : x.dev.mem = d.mem) (g : Int) (b0 : BitVec 8) (hp : PointerOk (x.b.getX (pField b0)))
    (hq : PointerOk (x.b.getX (qField b0))) : macMemBody g b0 none x =
      .ok (x.withB (x.b.multiplyMem d x.c (modsOf pre).lane g (accField b0) (pField b0) (qField b0))) := by
  simp only [macMemBody, Cpu.operandPair_of_ok hp hq, Cpu.sat_of_accepted h rfl hm, hm, operandAt_of_mem hd, bind, Except.bind,
    pure, Except.pure, Bank.multiplyMem]

/-- R148: MACM and MSUM step their X registers, and accumulate before that. -/
theorem Bank.multiplyMem_stepsPointers (d : Dev) (c : Nat) (lane : Bool) (g : Int) (a p q : Nat) :
    StepsPointers (Bank.multiplyMem d c lane g a p q) p q where
  pc b := (Bank.stepPair_keeps Bank.pc (fun _ _ => rfl) ..).trans (Bank.pc_putAcc ..)
  shadow b := (Bank.stepPair_keeps Bank.shadow (fun _ _ => rfl) ..).trans (Bank.shadow_putAcc ..)
  x b k := by rw [Bank.multiplyMem, Bank.getX_stepPair, Bank.getX_putAcc]

/-- R147 without LANE: the exact result enters the accumulator. -/
theorem macOut_single_result (b : Bank) (a : Nat) (sat : Bool) {k g : Int} {old : BitVec 72} {u v : Word} {e : Int}
    (he : k * old.toInt + g * (u.toInt * v.toInt) = e) :
    AccResult b (b.putAcc a (macOut sat false k g old u v)) a (fitted 72 sat e) (outside 72 e) (sat && outside 72 e) :=
  he ▸ accSingle_result b a sat _

/-- R147 with LANE: the exact result of each lane enters its half. -/
theorem macOut_dual_result (b : Bank) (a : Nat) (sat : Bool) {k g : Int} {old : BitVec 72} {u v : Word} {e1 e0 : Int}
    (h1 : k * half1 old + g * (lane1 u * lane1 v) = e1) (h0 : k * half0 old + g * (lane0 u * lane0 v) = e0) :
    AccResult b (b.putAcc a (macOut sat true k g old u v)) a (fitted 36 sat e1 ++ fitted 36 sat e0)
      (outside 36 e0 || outside 36 e1) (sat && (outside 36 e0 || outside 36 e1)) := by
  subst h1 h0
  simp only [macOut, if_true, halves_eq, lanes_eq]
  exact accDual_result b a sat _ _

theorem lowBits_of_lt {n : Nat} {b0 : BitVec 8} (h : b0.toNat < 2 ^ n) : lowBits n b0 = true := Nat.ble_eq_true_of_le h

section
variable {s : State} {i : Instr} {c : Nat} {r : Run} {pre : Fetch} {op : Byte} {b0 : BitVec 8} {f1 f2 : BitVec 4} {k g : Int}

/-- R147: a multiply of two W registers, without REP and with it. -/
theorem multiply_givesAll {P : Bank → Bank → Prop}
    (he : exec i s = s.macInstr c pre op (lowBits 2 b0) b0 f1 f2 (macBody k g b0 f1 f2)) (hb : b0.toNat < 4)
    (hP : ∀ b, P b (b.multiply (modsOf pre).lane k g b0.toNat f1 f2)) : GivesAll s i c r [.lane, .rep, .cond] pre 3 1 P :=
  GivesAll.of_bank (Bank.multiply (modsOf pre).lane k g b0.toNat f1 f2) he rfl (lowBits_of_lt hb)
    (fun _ => Bank.pc_putAcc ..)
    (fun h _ hm => by rw [macBody_eq h hm, accField, Nat.mod_eq_of_lt hb]) hP

/-- R148: a multiply of two words in memory, without REP and with it. -/
theorem multiplyMem_givesStepping {P : Bank → Bank → Prop}
    (he : exec i s = s.macInstr c pre op (lowBits 6 b0 && byteZero 0 0) b0 0 0 (macMemBody g b0 none)) (hb : b0.toNat < 64)
    (hP : ∀ b, P b (b.multiplyMem (s.found c) c (modsOf pre).lane g (accField b0) (pField b0) (qField b0))) :
    GivesStepping s i c r [.lane, .rep, .cond] pre 3 1 (pField b0) (qField b0) P :=
  GivesStepping.of_bank (Bank.multiplyMem (s.found c) c (modsOf pre).lane g (accField b0) (pField b0) (qField b0)) he rfl
    (by rw [lowBits_of_lt (n := 6) hb]; rfl) (Bank.multiplyMem_stepsPointers ..)
    (fun h _ hm hc hd hp hq => by rw [macMemBody_eq h hm hd g b0 hp hq, hc]) hP

/-- R148 without LANE, e being the exact result. -/
theorem multiplyMem_single
    (he : exec i s = s.macInstr c pre op (lowBits 6 b0 && byteZero 0 0) b0 0 0 (macMemBody g b0 none)) (hb : b0.toNat < 64)
    (hl : (modsOf pre).lane = false) (e : Bank → Int)
    (hv : ∀ b : Bank, 1 * (b.getA (accField b0)).toInt + g * ((operandAt (s.found c) c (b.getX (pField b0))).toInt *
      (operandAt (s.found c) c (b.getX (qField b0))).toInt) = e b) :
    GivesStepping s i c r [.lane, .rep, .cond] pre 3 1 (pField b0) (qField b0) (fun b b' => ∃ b1,
      AccResult b b1 (accField b0) (fitted 72 (b.flag flSd) (e b)) (outside 72 (e b)) (b.flag flSd && outside 72 (e b)) ∧
      b' = Bank.stepFrom (pField b0) (qField b0) b1 b) :=
  multiplyMem_givesStepping he hb fun b => by
    rw [hl]; exact ⟨_, macOut_single_result b _ _ (hv b), Bank.stepPair_putAcc ..⟩

/-- R148 with LANE, e1 and e0 being the exact results of the halves. -/
theorem multiplyMem_dual
    (he : exec i s = s.macInstr c pre op (lowBits 6 b0 && byteZero 0 0) b0 0 0 (macMemBody g b0 none)) (hb : b0.toNat < 64)
    (hl : (modsOf pre).lane = true) (e1 e0 : Bank → Int)
    (h1 : ∀ b : Bank, 1 * half1 (b.getA (accField b0)) + g * (lane1 (operandAt (s.found c) c (b.getX (pField b0))) *
      lane1 (operandAt (s.found c) c (b.getX (qField b0)))) = e1 b)
    (h0 : ∀ b : Bank, 1 * half0 (b.getA (accField b0)) + g * (lane0 (operandAt (s.found c) c (b.getX (pField b0))) *
      lane0 (operandAt (s.found c) c (b.getX (qField b0)))) = e0 b) :
    GivesStepping s i c r [.lane, .rep, .cond] pre 3 1 (pField b0) (qField b0) (fun b b' => ∃ b1,
      AccResult b b1 (accField b0) (fitted 36 (b.flag flSd) (e1 b) ++ fitted 36 (b.flag flSd) (e0 b))
        (outside 36 (e0 b) || outside 36 (e1 b)) (b.flag flSd && (outside 36 (e0 b) || outside 36 (e1 b))) ∧
      b' = Bank.stepFrom (pField b0) (qField b0) b1 b) :=
  multiplyMem_givesStepping he hb fun b => by
    rw [hl]; exact ⟨_, macOut_dual_result b _ _ (h1 b) (h0 b), Bank.stepPair_putAcc ..⟩

end

/-- The signs of MPY, of MAC and MACM, and of MSU and MSUM in macOut. -/
theorem product_replaces (x y : Int) : 0 * x + 1 * y = y := by omega
theorem product_added (x y : Int) : 1 * x + 1 * y = x + y := by omega
theorem product_subtracted (x y : Int) : 1 * x + -1 * y = x - y := by omega

/-- Settles O10: each clause is the single or the dual result of macOut, with the signs of its instruction. -/
theorem multiplyAccumulateInstructions : Obligations.MultiplyAccumulateInstructions := by
  unfold Obligations.MultiplyAccumulateInstructions
  refine ⟨?_, ?_⟩
  · intro s c r pre b0 f1 f2 hb
    refine ⟨fun hl => ⟨?_, ?_, ?_⟩, fun hl => ⟨?_, ?_, ?_⟩⟩
    all_goals refine multiply_givesAll rfl hb fun b => ?_
    all_goals rw [hl]
    · exact macOut_single_result _ _ _ (product_replaces _ _)
    · exact macOut_single_result _ _ _ (product_added _ _)
    · exact macOut_single_result _ _ _ (product_subtracted _ _)
    · exact macOut_dual_result _ _ _ (product_replaces _ _) (product_replaces _ _)
    · exact macOut_dual_result _ _ _ (product_added _ _) (product_added _ _)
    · exact macOut_dual_result _ _ _ (product_subtracted _ _) (product_subtracted _ _)
  · intro s c r pre b0 hb b a p q here u v step gives single dual
    refine ⟨fun hl => ⟨?_, ?_⟩, fun hl => ⟨?_, ?_⟩⟩
    · exact multiplyMem_single rfl hb hl (fun b => (b.getA a).toInt + (u b).toInt * (v b).toInt) (fun _ => product_added _ _)
    · exact multiplyMem_single rfl hb hl (fun b => (b.getA a).toInt - (u b).toInt * (v b).toInt)
        (fun _ => product_subtracted _ _)
    · exact multiplyMem_dual rfl hb hl (fun b => half1 (b.getA a) + lane1 (u b) * lane1 (v b))
        (fun b => half0 (b.getA a) + lane0 (u b) * lane0 (v b)) (fun _ => product_added _ _) (fun _ => product_added _ _)
    · exact multiplyMem_dual rfl hb hl (fun b => half1 (b.getA a) - lane1 (u b) * lane1 (v b))
        (fun b => half0 (b.getA a) - lane0 (u b) * lane0 (v b)) (fun _ => product_subtracted _ _)
        (fun _ => product_subtracted _ _)

/-! ## ROT and DFT (R152, R154) -/

/-- A view of a bank that looks at neither the accumulators nor FL sees nothing of an accumulator result. -/
theorem Bank.putAccRaw_keeps {X : Type} (φ : Bank → X) (ha : ∀ (b : Bank) v, φ { b with a := v } = φ b)
    (hf : ∀ (b : Bank) v, φ { b with fl := v } = φ b) (b : Bank) (n : Nat) (o : AccOut) : φ (b.putAccRaw n o) = φ b := by
  unfold Bank.putAccRaw
  rw [Bank.stick_keeps φ hf, Bank.stick_keeps φ hf]
  exact ha _ _

theorem Bank.getA_putAccRaw (b : Bank) (n k : Nat) (o : AccOut) :
    (b.putAccRaw n o).getA k = if k = n then o.value else b.getA k := by
  unfold Bank.putAccRaw
  rw [Bank.stick_keeps (fun b => b.getA k) (fun _ _ => rfl), Bank.stick_keeps (fun b => b.getA k) (fun _ _ => rfl),
    Bank.getA_setA]

theorem Bank.flag_putAccRaw (b : Bank) (n j : Nat) (o : AccOut) : (b.putAccRaw n o).flag j =
    if j = flGov then (b.flag j || o.gov) else if j = flSat then (b.flag j || o.sat) else b.flag j := by
  unfold Bank.putAccRaw
  rw [Bank.flag_stick _ _ _ (by decide), Bank.flag_stick _ _ _ (by decide), Bank.flag_setA]
  by_cases h : j = flGov
  · subst h; rfl
  · simp only [if_neg h]

/-- R146: the bank with the exact values e and f entered in the pair of accumulators at a, with SAT and GOV. -/
def Bank.putPair (b : Bank) (a : Nat) (sat : Bool) (e f : Int) : Bank :=
  (b.putAccRaw a (accSingle sat e)).putAccRaw (a + 1) (accSingle sat f)

/-- Bank b' is bank b with e and f entered in the pair of accumulators at a; no flag but SAT and GOV has changed, and no
register but W and X registers. -/
def PairResult (b b' : Bank) (a : Nat) (sat : Bool) (e f : Int) : Prop :=
  (∀ k, b'.getA k = if k = a then fitted 72 sat e else if k = a + 1 then fitted 72 sat f else b.getA k) ∧
  b'.flag flGov = (b.flag flGov || outside 72 e || outside 72 f) ∧
  b'.flag flSat = (b.flag flSat || (sat && (outside 72 e || outside 72 f))) ∧
  (∀ k, k ≠ flGov → k ≠ flSat → b'.flag k = b.flag k) ∧
  b'.ba = b.ba ∧ b'.pc = b.pc ∧ b'.tb = b.tb ∧ b'.shadow = b.shadow

theorem Bank.putPair_keeps {X : Type} (φ : Bank → X) (ha : ∀ (b : Bank) v, φ { b with a := v } = φ b)
    (hf : ∀ (b : Bank) v, φ { b with fl := v } = φ b) (b : Bank) (a : Nat) (sat : Bool) (e f : Int) :
    φ (b.putPair a sat e f) = φ b := by
  rw [Bank.putPair, Bank.putAccRaw_keeps φ ha hf, Bank.putAccRaw_keeps φ ha hf]

theorem Bank.putPair_result (b : Bank) (a : Nat) (sat : Bool) (e f : Int) : PairResult b (b.putPair a sat e f) a sat e f := by
  have flag (j : Nat) : (b.putPair a sat e f).flag j =
      if j = flGov then (b.flag j || outside 72 e || outside 72 f)
      else if j = flSat then (b.flag j || (sat && (outside 72 e || outside 72 f))) else b.flag j := by
    simp only [Bank.putPair, Bank.flag_putAccRaw, accSingle, inField_outside, Bool.not_not]
    by_cases hg : j = flGov
    · simp only [if_pos hg]
    · by_cases hs : j = flSat
      · simp only [if_neg hg, if_pos hs, Bool.and_or_distrib_left, Bool.or_assoc]
      · simp only [if_neg hg, if_neg hs]
  refine ⟨fun k => ?_, flag flGov, flag flSat, fun k hg hs => ?_, ?_, ?_, ?_, ?_⟩
  · simp only [Bank.putPair, Bank.getA_putAccRaw, accSingle, fitTo_fitted]
    by_cases ha : k = a
    · rw [if_pos ha, if_pos ha, if_neg (by omega)]
    · rw [if_neg ha, if_neg ha]
  · rw [flag, if_neg hg, if_neg hs]
  · exact Bank.putPair_keeps Bank.ba (fun _ _ => rfl) (fun _ _ => rfl) ..
  · exact Bank.putPair_keeps Bank.pc (fun _ _ => rfl) (fun _ _ => rfl) ..
  · exact Bank.putPair_keeps Bank.tb (fun _ _ => rfl) (fun _ _ => rfl) ..
  · exact Bank.putPair_keeps Bank.shadow (fun _ _ => rfl) (fun _ _ => rfl) ..

/-- A write of a W register leaves a pair result one, and so does a step of X registers. -/
theorem PairResult.setW {b b' : Bank} {a : Nat} {sat : Bool} {e f : Int} (h : PairResult b b' a sat e f) (n : Nat) (v : Word) :
    PairResult b (b'.setW n v) a sat e f := h

theorem PairResult.stepPair {b b' : Bank} {a : Nat} {sat : Bool} {e f : Int} (h : PairResult b b' a sat e f) (p q : Nat) :
    PairResult b (b'.stepPair p q) a sat e f := by
  unfold Bank.stepPair
  dsimp only
  split <;> exact h

/-- R95: what the prefixes and FL say of saturation and rounding. -/
def Mods.satOf (m : Mods) (b : Bank) : Bool := m.sat || b.flag flSd
def Mods.rmOf (m : Mods) (b : Bank) : Rounding := m.rnd.getD b.rm

/-- R154: the difference of the samples at X[p] and X[q]. -/
def Bank.sampleStep (d : Dev) (c p q : Nat) (b : Bank) : Int :=
  (operandAt d c (b.getX p)).toInt - (operandAt d c (b.getX q)).toInt

/-- R154: the pair of accumulators after one step of DFT, on core c of device d. -/
def Bank.dftPair (d : Dev) (c : Nat) (m : Mods) (a p q : Nat) (f1 : BitVec 4) (b : Bank) : Bank :=
  b.putPair a (m.satOf b)
    ((b.getA a).toInt + b.sampleStep d c p q * cosOf (m.rmOf b) (b.getW f1.toNat))
    ((b.getA (a + 1)).toInt - b.sampleStep d c p q * sinOf (m.rmOf b) (b.getW f1.toNat))

/-- R154: the bank after one step of DFT, on core c of device d. -/
def Bank.dft (d : Dev) (c : Nat) (m : Mods) (a p q : Nat) (f1 f2 : BitVec 4) (b : Bank) : Bank :=
  ((b.dftPair d c m a p q f1).setW f1.toNat (b.getW f1.toNat + b.getW f2.toNat)).stepPair p q

theorem dftBody_eq {x : Cpu} {d : Dev} (hd : x.dev.mem = d.mem) (b0 : BitVec 8) (f1 f2 : BitVec 4)
    (hp : PointerOk (x.b.getX (pField b0))) (hq : PointerOk (x.b.getX (qField b0))) : dftBody b0 f1 f2 none x =
      .ok (x.withB (x.b.dft d x.c x.m (accField b0) (pField b0) (qField b0) f1 f2)) := by
  simp only [dftBody, Cpu.operandPair_of_ok hp hq, operandAt_of_mem hd, bind, Except.bind]
  rfl

theorem Bank.getX_dft (d : Dev) (c : Nat) (m : Mods) (a p q : Nat) (f1 f2 : BitVec 4) (b : Bank) (k : Nat) :
    (b.dft d c m a p q f1 f2).getX k = if k = p ∨ k = q then b.getX k + 4 else b.getX k := by
  have h : ((b.dftPair d c m a p q f1).setW f1.toNat (b.getW f1.toNat + b.getW f2.toNat)).getX k = b.getX k :=
    Bank.putPair_keeps (fun b => b.getX k) (fun _ _ => rfl) (fun _ _ => rfl) ..
  rw [Bank.dft, Bank.getX_stepPair, h]

theorem Bank.getW_dft (d : Dev) (c : Nat) (m : Mods) (a p q : Nat) (f1 f2 : BitVec 4) (b : Bank) (k : Nat) :
    (b.dft d c m a p q f1 f2).getW k = if k = f1.toNat then b.getW f1.toNat + b.getW f2.toNat else b.getW k := by
  rw [Bank.dft, Bank.stepPair_keeps (fun b => b.getW k) (fun _ _ => rfl), Bank.getW_setW, Bank.dftPair,
    Bank.putPair_keeps (fun b => b.getW k) (fun _ _ => rfl) (fun _ _ => rfl)]

/-- R154: bank b' is bank b after one step of DFT: the pair has taken the difference of the samples times the cosine and
minus the sine, the angle has stepped, and so have X[p] and X[q]. -/
def DftStep (d : Dev) (c : Nat) (m : Mods) (a p q : Nat) (f1 f2 : BitVec 4) (b b' : Bank) : Prop :=
  PairResult b b' a (m.satOf b) ((b.getA a).toInt + b.sampleStep d c p q * cosOf (m.rmOf b) (b.getW f1.toNat))
    ((b.getA (a + 1)).toInt - b.sampleStep d c p q * sinOf (m.rmOf b) (b.getW f1.toNat)) ∧
  (∀ k, b'.getW k = if k = f1.toNat then b.getW f1.toNat + b.getW f2.toNat else b.getW k) ∧
  (∀ k, b'.getX k = if k = p ∨ k = q then b.getX k + 4 else b.getX k)

theorem Bank.dftStep_dft (d : Dev) (c : Nat) (m : Mods) (a p q : Nat) (f1 f2 : BitVec 4) (b : Bank) :
    DftStep d c m a p q f1 f2 b (b.dft d c m a p q f1 f2) :=
  ⟨((Bank.putPair_result ..).setW _ _).stepPair p q, fun _ => b.getW_dft .., fun _ => b.getX_dft ..⟩

theorem Bank.dft_stepsPointers (d : Dev) (c : Nat) (m : Mods) (a p q : Nat) (f1 f2 : BitVec 4) :
    StepsPointers (Bank.dft d c m a p q f1 f2) p q where
  pc b := by obtain ⟨⟨-, -, -, -, -, hpc, -, -⟩, -, -⟩ := b.dftStep_dft d c m a p q f1 f2; exact hpc
  shadow b := by obtain ⟨⟨-, -, -, -, -, -, -, hsh⟩, -, -⟩ := b.dftStep_dft d c m a p q f1 f2; exact hsh
  x b k := b.getX_dft d c m a p q f1 f2 k

/-- R145: a pair starts at an even accumulator. -/
theorem pairOk_of_even {b0 : BitVec 8} (h : b0.toNat % 2 = 0) : pairOk b0 = true := by
  simp [pairOk, BitVec.getLsbD, Nat.testBit_zero, h]

/-- R154: DFT, without REP and with it. -/
theorem dft_givesStepping {s : State} {c : Nat} {r : Run} {pre : Fetch} {b0 : BitVec 8} {f1 f2 : BitVec 4}
    (hb : b0.toNat < 64) (h2 : b0.toNat % 2 = 0) :
    GivesStepping s (.opDft c pre b0 f1 f2 none) c r [.sat, .rnd, .rep, .cond] pre 3 6 (pField b0) (qField b0)
      (DftStep (s.found c) c (modsOf pre) (accField b0) (pField b0) (qField b0) f1 f2) :=
  GivesStepping.of_bank (Bank.dft (s.found c) c (modsOf pre) (accField b0) (pField b0) (qField b0) f1 f2) rfl rfl
    (by rw [lowBits_of_lt (n := 6) hb, pairOk_of_even h2]; rfl) (Bank.dft_stepsPointers ..)
    (fun _ _ hm hc hd hp hq => by rw [dftBody_eq hd b0 f1 f2 hp hq, hc, hm]) (fun _ => Bank.dftStep_dft ..)

/-- R145: the two values of byte 0 that name a pair and nothing else. -/
theorem pairOnly_legal {b0 : BitVec 8} (h : b0 = 0 ∨ b0 = 2) : (lowBits 2 b0 && pairOk b0 && f2Zero 0) = true := by
  rcases h with rfl | rfl <;> decide

/-! ## MAG (R153) -/

/-- From a root r with k bits still to find, isqrtFrom reaches the square root rounded down. -/
theorem isqrtFrom_bounds {n k r : Nat} (hlo : r ^ 2 ≤ n) (hhi : n < (r + 2 ^ k) ^ 2) :
    isqrtFrom n k r ^ 2 ≤ n ∧ n < (isqrtFrom n k r + 1) ^ 2 := by
  induction k generalizing r with
  | zero => exact ⟨hlo, hhi⟩
  | succ k ih =>
    rw [isqrtFrom, ← Nat.pow_two]
    split
    · rename_i h
      refine ih h ?_
      rwa [Nat.add_assoc, ← Nat.two_mul, ← Nat.pow_succ']
    · exact ih hlo (Nat.not_le.mp ‹_›)

theorem isqrt_bounds {k n : Nat} (h : n < (2 ^ k) ^ 2) : isqrt k n ^ 2 ≤ n ∧ n < (isqrt k n + 1) ^ 2 :=
  isqrtFrom_bounds (Nat.zero_le n) (by rwa [Nat.zero_add])

/-- R153: q is √n / 2^40 rounded down. -/
structure FloorRoot (n q : Nat) : Prop where
  lo : q ^ 2 * 2 ^ 80 ≤ n
  hi : n < (q + 1) ^ 2 * 2 ^ 80

theorem floorRoot_isqrt {n : Nat} (h : n < (2 ^ 72) ^ 2) : FloorRoot n (isqrt 72 n / 2 ^ 40) := by
  obtain ⟨hlo, hhi⟩ := isqrt_bounds h
  have hsq (a : Nat) : (a * 2 ^ 40) ^ 2 = a ^ 2 * 2 ^ 80 := by rw [Nat.mul_pow, ← Nat.pow_mul]
  constructor
  · rw [← hsq]
    exact Nat.le_trans (Nat.pow_le_pow_left (Nat.div_mul_le_self _ _) 2) hlo
  · rw [← hsq]
    exact Nat.lt_of_lt_of_le hhi (Nat.pow_le_pow_left (by omega) 2)

namespace FloorRoot
variable {n q : Nat} (h : FloorRoot n q)
include h

/-- Half steps up to 2q lie at or below 2√n / 2^40, those from 2q + 2 on above it. -/
theorem half_le {a : Nat} (ha : a ≤ 2 * q) : a ^ 2 * 2 ^ 80 ≤ 4 * n :=
  calc a ^ 2 * 2 ^ 80 ≤ (2 * q) ^ 2 * 2 ^ 80 := Nat.mul_le_mul_right _ (Nat.pow_le_pow_left ha 2)
    _ = 4 * (q ^ 2 * 2 ^ 80) := by rw [Nat.mul_pow, Nat.mul_assoc]
    _ ≤ 4 * n := Nat.mul_le_mul_left 4 h.lo

theorem half_lt {a : Nat} (ha : a < 2 * q) : a ^ 2 * 2 ^ 80 < 4 * n :=
  calc a ^ 2 * 2 ^ 80 < (2 * q) ^ 2 * 2 ^ 80 :=
        Nat.mul_lt_mul_of_pos_right (Nat.pow_lt_pow_left ha (by decide)) (by decide)
    _ ≤ 4 * n := h.half_le (Nat.le_refl _)

theorem lt_half {a : Nat} (ha : 2 * q + 2 ≤ a) : 4 * n < a ^ 2 * 2 ^ 80 :=
  calc 4 * n < 4 * ((q + 1) ^ 2 * 2 ^ 80) := Nat.mul_lt_mul_of_pos_left h.hi (by decide)
    _ = (2 * (q + 1)) ^ 2 * 2 ^ 80 := by rw [Nat.mul_pow, Nat.mul_assoc]
    _ ≤ a ^ 2 * 2 ^ 80 := Nat.mul_le_mul_right _ (Nat.pow_le_pow_left ha 2)

/-- R138, R153: q or q + 1 as RHU rounds. -/
theorem nearest_up {v : Nat} (hv : v = if (2 * q + 1) ^ 2 * 2 ^ 80 ≤ 4 * n then q + 1 else q) :
    (v = 0 ∨ (2 * v - 1) ^ 2 * 2 ^ 80 ≤ 4 * n) ∧ 4 * n < (2 * v + 1) ^ 2 * 2 ^ 80 := by
  split at hv <;> subst hv
  · exact ⟨.inr ‹_›, h.lt_half (by omega)⟩
  · exact ⟨.inr (h.half_le (by omega)), Nat.not_le.mp ‹_›⟩

/-- R138, R153: q or q + 1 as RHE rounds. -/
theorem nearest_even {v : Nat} (hv : v = if (2 * q + 1) ^ 2 * 2 ^ 80 < 4 * n ∨ ((2 * q + 1) ^ 2 * 2 ^ 80 = 4 * n ∧ q % 2 = 1)
      then q + 1 else q) :
    (v = 0 ∨ (2 * v - 1) ^ 2 * 2 ^ 80 ≤ 4 * n) ∧ 4 * n ≤ (2 * v + 1) ^ 2 * 2 ^ 80 ∧
      ((0 < v ∧ (2 * v - 1) ^ 2 * 2 ^ 80 = 4 * n) ∨ 4 * n = (2 * v + 1) ^ 2 * 2 ^ 80 → v % 2 = 0) := by
  split at hv <;> subst hv
  · have hup : 4 * n < (2 * (q + 1) + 1) ^ 2 * 2 ^ 80 := h.lt_half (by omega)
    have hhalf : 2 * (q + 1) - 1 = 2 * q + 1 := by omega
    rw [hhalf]
    refine ⟨.inr ?_, Nat.le_of_lt hup, ?_⟩ <;> omega
  · refine ⟨.inr (h.half_le (by omega)), by omega, ?_⟩
    rintro (⟨hq, ht⟩ | ht)
    · exact absurd ht (Nat.ne_of_lt (h.half_lt (by omega)))
    · omega

/-- R153: the result fits 32 bits. -/
theorem lt_word (hn : n ≤ 2 ^ 143) : q + 1 < 2 ^ 32 := by
  refine Nat.lt_of_not_le fun hq => ?_
  have : (2 ^ 32 - 1) ^ 2 * 2 ^ 80 ≤ q ^ 2 * 2 ^ 80 := Nat.mul_le_mul_right _ (Nat.pow_le_pow_left (by omega) 2)
  have := h.lo
  omega

end FloorRoot

theorem natAbs_acc_le (u : BitVec 72) : u.toInt.natAbs ≤ 2 ^ 71 := by
  have := u.le_toInt
  have := u.toInt_lt
  omega

theorem sum_sq_acc_le (u v : BitVec 72) : u.toInt.natAbs ^ 2 + v.toInt.natAbs ^ 2 ≤ 2 ^ 143 := by
  have hu := Nat.pow_le_pow_left (natAbs_acc_le u) 2
  have hv := Nat.pow_le_pow_left (natAbs_acc_le v) 2
  omega

/-- R153: the half step that rootOf compares with. -/
theorem half_sq (q : Nat) : ((2 * q + 1) * 2 ^ 40) ^ 2 = (2 * q + 1) ^ 2 * 2 ^ 80 := by rw [Nat.mul_pow, ← Nat.pow_mul]

theorem rootOf_le (m : Rounding) (n : Nat) : rootOf m n ≤ isqrt 72 n / 2 ^ 40 + 1 := by
  cases m with
  | trn | rtz => exact Nat.le_succ _
  | rhu | rhe => simp only [rootOf]; split <;> omega

/-- Settles O13: ROT and DFT enter a PairResult, and MAG writes the root that rootOf rounds, between the half steps of
FloorRoot. -/
theorem rotationDftMagnitude : Obligations.RotationDftMagnitude := by
  unfold Obligations.RotationDftMagnitude
  refine ⟨?_, ?_⟩
  · intro s c r pre b0 f1 f2
    refine ⟨fun h hb => ?rot, fun hb h2 => ?dft⟩
    case rot =>
      exact Gives.of_instr _ _ rfl rfl h (pairOnly_legal hb) rfl rfl
        ⟨Bank.putPair_result .., Bank.putPair_keeps Bank.w (fun _ _ => rfl) (fun _ _ => rfl) ..,
          Bank.putPair_keeps Bank.x (fun _ _ => rfl) (fun _ _ => rfl) ..⟩
    case dft => exact dft_givesStepping hb h2
  · intro s c r pre b0 f1 h hb b n
    have hn : n ≤ 2 ^ 143 := sum_sq_acc_le _ _
    have hq := floorRoot_isqrt (n := n) (by omega)
    have hacc : accField b0 = b0.toNat := by rcases hb with rfl | rfl <;> rfl
    refine ⟨rootOf (s.rounding c r pre) n, Nat.lt_of_le_of_lt (rootOf_le _ _) (hq.lt_word hn), ?gives, ?rounded⟩
    case gives => exact Gives.of_instr _ _ rfl rfl h (pairOnly_legal hb) rfl rfl (by rw [hacc]; rfl)
    case rounded =>
      cases s.rounding c r pre with
      | trn => exact ⟨hq.lo, hq.hi⟩
      | rtz => exact ⟨hq.lo, hq.hi⟩
      | rhu => exact hq.nearest_up (by simp only [rootOf, half_sq])
      | rhe => exact hq.nearest_even (by simp only [rootOf, half_sq])

end Sys2Proof.Machine
end

section
/-!
PROOFS. What holds of every command (R13, R334): it answers a next state, leaves the commands that wait, does not take MONO
back, and keeps INT_FIRST.VALID clear while the HEALTH of the device is OK. First what follows a command does to INT_FIRST;
then which operations leave a device that is not awake in that condition; then each way in which a command runs.
-/
namespace Sys2Proof.Machine

/-! ## INT_FIRST follows the HEALTH (R334) -/

/-- R334 for a device: State.firstOk looks at nothing else. -/
def Dev.firstOk (d : Dev) : Prop := d.awake = true → d.health = 0 → d.flag F.INT_FIRST_VALID = false

theorem Dev.firstFollows_firstOk (d : Dev) : d.firstFollows.firstOk := by
  intro _ hh
  unfold Dev.firstFollows at hh ⊢
  by_cases hc : d.flag F.INT_FIRST_VALID = true ∧ d.health = 0
  · rw [if_pos hc, Dev.flag, Dev.fld_setFld_same _ _ _ (by decide) (by decide)]
    rfl
  · rw [if_neg hc] at hh ⊢
    exact Bool.eq_false_iff.mpr fun hv => hc ⟨hv, hh⟩

/-- What follows a command leaves INT_FIRST.VALID clear while the HEALTH is OK. -/
theorem Dev.settle_firstOk (d : Dev) : d.settle.firstOk := by
  unfold Dev.settle
  split <;> exact Dev.firstFollows_firstOk _

theorem Dev.firstOk_of_asleep {d : Dev} (h : d.awake = false) : d.firstOk := fun ha => absurd (h.symm.trans ha) Bool.false_ne_true

theorem Dev.doAwake_firstOk (d : Dev) (t : Nat) (f : Nat → Dev → Dev) : (d.doAwake t f).firstOk := by
  unfold Dev.doAwake
  split
  · exact Dev.settle_firstOk _
  · exact Dev.firstOk_of_asleep (Bool.eq_false_iff.mpr ‹_›)

/-! ## Devices that are not awake -/

theorem Dev.awake_of_phase {d e : Dev} (h : e.phase = d.phase) : e.awake = d.awake := by rw [Dev.awake, h, Dev.awake]

/-- What the always-on domain does to a device that is not awake leaves it so. -/
def KeepsAsleep (f : Nat → Dev → Dev) : Prop := ∀ t d, d.awake = false → (f t d).awake = false

/-- An operation that leaves the phase keeps a device asleep. -/
theorem KeepsAsleep.of_phase {f : Nat → Dev → Dev} (h : ∀ t d, d.awake = false → (f t d).phase = d.phase) : KeepsAsleep f :=
  fun t d hd => (Dev.awake_of_phase (h t d hd)).trans hd

theorem Dev.supEvent_phase {d e : Dev} (h : d.awake = false) (hp : e.phase = d.phase) (t k : Nat) :
    (e.supEvent t k).phase = d.phase := by
  rw [Dev.supEvent, (Dev.awake_of_phase hp).trans h]; exact hp

theorem Dev.setHold_phase (d : Dev) (t : Nat) (b : Bool) : (d.setHold t b).phase = d.phase := by
  unfold Dev.setHold; split <;> rfl

theorem Dev.setFaultN_phase (d : Dev) (t : Nat) (b : Bool) : (d.setFaultN t b).phase = d.phase := by
  unfold Dev.setFaultN; split <;> rfl

theorem Dev.tapDrive_phase (d : Dev) (t : Nat) (k : Tap) : (d.tapDrive t k).phase = d.phase := by
  unfold Dev.tapDrive
  dsimp only
  repeat' split
  all_goals rfl

theorem Dev.tapClose_phase (d : Dev) (t : Nat) : (d.tapClose t).phase = d.phase := by
  unfold Dev.tapClose
  split
  · rfl
  · exact Dev.tapDrive_phase ..

theorem Dev.modPower_phase (d : Dev) (f : Power → Power) : (d.modPower f).phase = d.phase := rfl

theorem Dev.fresh_phase (d : Dev) (t : Nat) (p : Phase) : (d.fresh t p).phase = p := by
  simp only [Dev.fresh, Dev.tapClose_phase, apply_ite Dev.phase, Dev.send_phase, Dev.setFld_phase, Dev.wr_phase, ite_self]

theorem Dev.endRetention_phase (d : Dev) (c : Option Nat) (t : Nat) : (d.endRetention c t).phase = .off := by
  rw [Dev.endRetention, Dev.modPower_phase, Dev.setHold_phase, Dev.fresh_phase]

/-! ## What the always-on domain does -/

theorem Dev.trigger_asleep {d : Dev} (h : d.awake = false) (cause also t : Nat) : (d.trigger cause also t).phase = d.phase := by
  have hp (p : Prop) [Decidable p] : (if p then d.setRail 0 true else d).phase = d.phase := by split <;> rfl
  unfold Dev.trigger
  simp only [(Dev.awake_of_phase (hp _)).trans h, Bool.false_eq_true, if_false]
  rw [apply_ite Dev.phase, Dev.setFld_phase, ite_self, hp]

theorem KeepsAsleep.trigger (cause also : Nat) : KeepsAsleep (Dev.trigger cause also) :=
  .of_phase fun t _ h => Dev.trigger_asleep h cause also t

theorem KeepsAsleep.railFault (r : Nat) (out : Bool) : KeepsAsleep (Dev.railFault r out) := .of_phase fun t d h => by
  unfold Dev.railFault
  split
  · refine Dev.supEvent_phase h ?_ t 2
    split <;> rfl
  · split <;> rfl

theorem KeepsAsleep.tempLimit : KeepsAsleep (fun t d => if d.powered then d.supEvent t 3 else d) := .of_phase fun t d h => by
  split
  · exact Dev.supEvent_phase h rfl t 3
  · rfl

theorem KeepsAsleep.telemetry (vin : Nat) (volts curs temps : List (BitVec 16)) :
    KeepsAsleep (Dev.telemetry vin volts curs temps) := .of_phase fun t d _ => by
  unfold Dev.telemetry
  split
  · dsimp only
    rw [Dev.modPower_phase, forN_keeps Dev.phase 4, forN_keeps Dev.phase 6]
    · rfl
    · exact fun _ _ => rfl
    · intro k e; split <;> rfl
  · rfl

theorem KeepsAsleep.vinFail : KeepsAsleep Dev.vinFail := .of_phase fun t d h => by
  unfold Dev.vinFail
  split
  · refine Dev.supEvent_phase h ?_ t 0
    simp only [Dev.modPower_phase, Dev.incFld_phase, Dev.setFld_phase, Dev.setHold_phase]
  · rfl

theorem KeepsAsleep.holdupWarn : KeepsAsleep Dev.holdupWarn := .of_phase fun t d h => by
  unfold Dev.holdupWarn
  split
  · exact Dev.supEvent_phase h (Dev.modPower_phase d _) t 4
  · rfl

theorem KeepsAsleep.vinRestore : KeepsAsleep Dev.vinRestore := .of_phase fun t d h => by
  unfold Dev.vinRestore
  split
  · refine Dev.supEvent_phase h ?_ t 1
    simp only [Dev.modPower_phase, Dev.setFld_phase, Dev.setHold_phase]
  · rfl

theorem KeepsAsleep.codeEcc (c : Nat) :
    KeepsAsleep (fun t d => if (d.core c).runs.isEmpty && d.awake then d else d.trigger 6 0 t) := .of_phase fun t d h => by
  rw [h, Bool.and_false]
  exact Dev.trigger_asleep h 6 0 t

theorem Dev.awake_endRetention (d : Dev) (c : Option Nat) (t : Nat) : (d.endRetention c t).awake = false := by
  rw [Dev.awake, Dev.endRetention_phase]

theorem KeepsAsleep.resetLow : KeepsAsleep Dev.resetLow := fun t d h => by
  have hp (f : Power → Power) : (d.modPower f).awake = false := (Dev.awake_of_phase (Dev.modPower_phase ..)).trans h
  unfold Dev.resetLow
  dsimp only
  rw [hp]
  split
  · contradiction
  · split
    · exact h
    · split
      · exact Dev.awake_endRetention ..
      · exact h

theorem KeepsAsleep.safeLow (also : Nat) : KeepsAsleep (Dev.safeLow also) := fun t d h => by
  unfold Dev.safeLow
  dsimp only
  generalize hd : (d.modPower _).setFld F.SUP_STAT_FSAFE 1 = e
  have he : e.awake = false := by rw [← hd]; exact h
  rw [he]
  split
  · contradiction
  · split
    · exact KeepsAsleep.trigger 7 also t e he
    · split
      · exact Dev.awake_endRetention ..
      · exact he

theorem KeepsAsleep.pinRelease (fsafe : Bool) : KeepsAsleep (Dev.pinRelease fsafe) := .of_phase fun t d _ => by
  unfold Dev.pinRelease
  cases fsafe <;> (simp only [Bool.false_eq_true, if_false, if_true]; split <;> rfl)

theorem Dev.sequence_awake {d : Dev} (h : d.awake = false) (fail : Bool) (us t : Nat) : (d.sequence fail us t).awake = false := by
  unfold Dev.sequence
  dsimp only
  split
  · exact h
  · rfl

theorem Dev.powerUp_awake {d : Dev} (h : d.awake = false) (fail : Bool) (us t : Nat) : (d.powerUp fail us t).awake = false := by
  refine Dev.sequence_awake ((Dev.awake_of_phase ?_).trans h) fail us t
  rw [Dev.modPower_phase, Dev.setFld_phase]
  split
  · exact Dev.setFaultN_phase d t false
  · rfl

theorem Dev.vbkCollapse_phase (d : Dev) (t : Nat) : (d.vbkCollapse t).phase = d.phase := by
  unfold Dev.vbkCollapse
  dsimp only
  rw [Dev.setFld_phase]
  exact foldl_keeps Dev.phase _ (fun d o => Dev.wr_phase d o _) _ d

theorem KeepsAsleep.backupLost : KeepsAsleep Dev.backupLost := .of_phase fun t d _ => by
  unfold Dev.backupLost
  split
  · rw [Dev.modPower_phase, Dev.vbkCollapse_phase]
  · rfl

theorem KeepsAsleep.tapScan (x : TapScan) : KeepsAsleep (Dev.tapScan x) := .of_phase fun t d _ => by
  unfold Dev.tapScan
  split
  · rfl
  · cases x with
    | reset => exact Dev.tapDrive_phase ..
    | ir i => exact Dev.tapDrive_phase ..
    | dr bo =>
      dsimp only [Dev.tapShift]
      split
      · rfl
      · rfl
      all_goals exact Dev.tapDrive_phase ..

/-! ## Ways in which a command runs -/

/-- R13, R334: the outcome of a command in state s: a next state, with MONO at lo or later. -/
def Completes (s : State) (lo : Nat) (o : Host.Outcome State Fault Refusal) : Prop :=
  ∃ t, o = .next t ∧ t.pending = s.pending ∧ lo ≤ t.mono ∧ (s.firstOk → t.firstOk)

namespace Completes
variable {s : State} {lo : Nat}

/-- An outcome that keeps what waits, and whose device has INT_FIRST.VALID as R334 says. -/
theorem of_dev {m : Nat} {d : Dev} (hm : lo ≤ m) (hd : s.dev.firstOk → d.firstOk) :
    Completes s lo (.next { s with mono := m, dev := d }) := ⟨_, rfl, rfl, hm, hd⟩

theorem stays : Completes s s.mono (.next s) := of_dev (Nat.le_refl _) id

theorem upd (f : Nat → Dev → Dev) : Completes s s.mono (s.upd f) :=
  of_dev (Nat.le_refl _) fun _ => Dev.doAwake_firstOk _ _ _

theorem event (dt : Nat) (f : Nat → Dev → Dev) : Completes s s.mono (s.event dt f) :=
  of_dev (Nat.le_add_right ..) fun _ => Dev.doAwake_firstOk _ _ _

theorem onClock (due : Nat) (f : Nat → Dev → Dev) : Completes s s.mono (s.at due f) :=
  of_dev (Nat.le_max_left ..) fun _ => Dev.doAwake_firstOk _ _ _

theorem onCore (c : Nat) (f : Dev → Dev) : Completes s s.mono (s.onCore c f) := by
  unfold State.onCore
  split
  · exact of_dev (Nat.le_max_left ..) fun _ => Dev.settle_firstOk _
  · exact stays

theorem doAlways_firstOk {f : Nat → Dev → Dev} (hf : KeepsAsleep f) (d : Dev) (t : Nat) : (d.doAlways t f).firstOk := by
  unfold Dev.doAlways
  split
  · exact Dev.doAwake_firstOk _ _ _
  · exact Dev.firstOk_of_asleep (hf t d (Bool.eq_false_iff.mpr ‹_›))

theorem world {f : Nat → Dev → Dev} (hf : KeepsAsleep f) (dt : Nat) : Completes s s.mono (s.world dt f) :=
  of_dev (Nat.le_add_right ..) fun _ => doAlways_firstOk hf _ _

theorem worldAt {f : Nat → Dev → Dev} (hf : KeepsAsleep f) (due : Nat) : Completes s s.mono (s.worldAt due f) :=
  of_dev (Nat.le_max_left ..) fun _ => doAlways_firstOk hf _ _

/-- A command that goes on from a state s' which MONO and the waiting commands reach unchanged or later. -/
theorem of_later {s' : State} {o : Host.Outcome State Fault Refusal} (h : Completes s' s'.mono o) (hp : s'.pending = s.pending)
    (hm : s.mono ≤ s'.mono) (hf : s.firstOk → s'.firstOk) : Completes s s.mono o := by
  obtain ⟨t, ho, ht, hmt, hft⟩ := h
  exact ⟨t, ho, ht.trans hp, Nat.le_trans hm hmt, hft ∘ hf⟩

theorem anyhow {o : Host.Outcome State Fault Refusal} (h : Completes s lo o) : Completes s 0 o := by
  obtain ⟨t, ho, ht, -, hft⟩ := h
  exact ⟨t, ho, ht, Nat.zero_le _, hft⟩

/-- The service of a host command: whatever the service core takes from the mailbox first, the rest is done at an instant. -/
theorem serve (h : CmdHead) (cmd cost extra : Nat) (allowed : Bool) (f : ReplyTo → Nat → Nat → Dev → Dev × Answer) :
    Completes s s.mono (s.serve h cmd cost extra allowed f) := by
  have late (d : Dev) (due : Nat) (g : Nat → Dev → Dev) : Completes s s.mono (State.at { s with dev := d } due g) :=
    of_dev (Nat.le_max_left ..) fun _ => Dev.doAwake_firstOk _ _ _
  unfold State.serve
  dsimp only
  split
  · exact stays
  · split
    · exact stays
    · split
      · exact upd _
      · repeat' split
        all_goals exact late ..

theorem serveNvs (h : CmdHead) (cmd cost : Nat) (allowed : Bool) (f : ReplyTo → Nat → Nat → Dev → Dev × Answer) :
    Completes s s.mono (s.serveNvs h cmd cost allowed f) := by
  unfold State.serveNvs
  split
  · exact serve ..
  · exact stays

theorem frameIn (dt : Nat) (ch : Channel) (f : Nat → Dev → Dev) : Completes s s.mono (s.frameIn dt ch f) := by
  unfold State.frameIn
  split
  · exact world (.tapScan _) dt
  · exact event ..

/-- R301: a level at BRB, and then the comparison that has differed long enough. -/
theorem backEvent (dt : Nat) (n : BitVec 5) (level enter : Bool) : Completes s s.mono (backEvent dt n level enter s) := by
  have hd : (if s.dev.awake = true then s.dev.doAwake (s.mono + dt) (Dev.setBrb n.toNat level)
      else s.dev.setBrbPin n.toNat level).firstOk := by
    split
    · exact Dev.doAwake_firstOk _ _ _
    · refine Dev.firstOk_of_asleep ?_
      have hp : (s.dev.setBrbPin n.toNat level).phase = s.dev.phase := by unfold Dev.setBrbPin; split <;> rfl
      exact (Dev.awake_of_phase hp).trans (Bool.eq_false_iff.mpr ‹_›)
  unfold Machine.backEvent
  generalize (if s.dev.awake = true then _ else _ : Dev) = e at hd ⊢
  dsimp only
  split
  · split
    · exact of_dev (Nat.le_add_right ..) fun _ => hd
    · split <;> exact of_later (onClock ..) rfl (Nat.le_add_right ..) fun _ => hd
  · exact of_dev (Nat.le_add_right ..) fun _ => hd

theorem biEdge (dt : Nat) (n : BitVec 7) (level : Bool) : Completes s s.mono (execBiEdge dt n level s) := by
  unfold execBiEdge
  split
  · exact of_later (event ..) rfl (Nat.le_refl _) id
  · refine of_dev (Nat.le_add_right ..) fun _ => Dev.firstOk_of_asleep ?_
    have hp : (s.dev.setBiPin n.toNat level).phase = s.dev.phase := by unfold Dev.setBiPin; split <;> rfl
    exact (Dev.awake_of_phase hp).trans (Bool.eq_false_iff.mpr ‹_›)

theorem keyPatternChange (dt : Nat) (pattern : BitVec 3) : Completes s s.mono (execKeyPatternChange dt pattern s) :=
  of_dev (Nat.le_add_right ..) fun _ => Dev.doAwake_firstOk _ _ _

theorem pathUnitTimeout (dt : Nat) (remote : PathAnswer) : Completes s s.mono (execPathUnitTimeout dt remote s) := by
  unfold execPathUnitTimeout
  split
  · exact onClock ..
  · exact event ..

theorem handoverCmd (cmd : Option (Requester × BitVec 16)) : Completes s s.mono (execHandoverCmd cmd s) := by
  unfold execHandoverCmd
  split <;> exact upd _

theorem holdupWarn (vin : Option Nat) : Completes s s.mono (execHoldupWarn vin s) := by
  unfold execHoldupWarn
  split
  · exact world .holdupWarn _
  · exact worldAt .holdupWarn _
  · exact stays

theorem coldStart (dt : Nat) (fail : Bool) (us : Nat) : Completes s s.mono (execColdStart dt fail us s) :=
  world (fun t d h => by
    split
    · exact Dev.powerUp_awake h fail us t
    · exact h) dt

theorem railSequenceRetry (fail : Bool) (us : Nat) : Completes s s.mono (execRailSequenceRetry fail us s) := by
  unfold execRailSequenceRetry
  split
  · refine worldAt (fun t d h => ?_) _
    split
    · exact Dev.sequence_awake h fail us t
    · exact h
  · exact stays

theorem retentionEnd (dt : Nat) : Completes s s.mono (execRetentionEnd dt s) :=
  world (fun t d h => by
    split
    · exact Dev.awake_endRetention ..
    · exact h) dt

theorem le_leastFrom (p : Nat → Bool) (k lo : Nat) : lo ≤ leastFrom p k lo := by
  induction k generalizing lo with
  | zero => exact Nat.le_refl lo
  | succ k ih =>
    unfold leastFrom
    split
    · exact ih lo
    · exact Nat.le_trans (Nat.le_add_right ..) (ih _)

/-- R394: deep sleep is entered at a pulse of the calendar from MONO t on. -/
theorem sleep {t : Nat} (ht : s.mono ≤ t) : Completes s s.mono (s.sleep t) := by
  unfold State.sleep
  split
  · exact of_dev (Nat.le_trans ht (le_leastFrom ..)) fun _ => Dev.firstOk_of_asleep rfl
  · exact of_dev ht id

theorem deepSleepEntry (vin : Option Nat) : Completes s s.mono (execDeepSleepEntry vin s) := by
  unfold execDeepSleepEntry
  split
  · exact sleep (Nat.le_add_right ..)
  · exact sleep (Nat.le_max_left ..)
  · exact stays

/-- R13: MONO begins anew at the release of device reset. -/
theorem deviceResetRelease (lock : Nat) (straps : BitVec 5) : Completes s 0 (execDeviceResetRelease lock straps s) := by
  unfold execDeviceResetRelease
  split
  · split
    · exact of_dev (Nat.le_refl 0) fun _ => Dev.settle_firstOk _
    · exact stays.anyhow
  · exact stays.anyhow

/-- R396: MONO goes on from its value at the entry into deep sleep. -/
theorem warmResume (dt us : Nat) (est : Option Nat) : Completes s 0 (execWarmResume dt us est s) := by
  unfold execWarmResume
  split
  · unfold State.resume
    dsimp only
    split
    · rename_i hb
      refine of_dev (Nat.zero_le _) fun _ => Dev.firstOk_of_asleep ?_
      simp only [Dev.awake, Dev.modPower_phase, hb]
    · exact of_dev (Nat.zero_le _) fun _ => Dev.settle_firstOk _
  · exact (world (fun _ _ h => h) dt).anyhow

end Completes

/-! ## Every command -/

/-- R13, R334: what holds of every command but the two at which MONO begins anew. -/
theorem exec_completes (s : State) (i : Instr) (hr : ∀ lock straps, i ≠ .deviceResetRelease lock straps)
    (hw : ∀ dt us est, i ≠ .warmResume dt us est) : Completes s s.mono (exec i s) := by
  cases i with
  | deviceResetRelease lock straps => exact absurd rfl (hr lock straps)
  | warmResume dt us est => exact absurd rfl (hw dt us est)
  | biEdge => exact .biEdge ..
  | readbackMismatch | readbackMismatchEnd => exact .backEvent ..
  | keyPatternChange => exact .keyPatternChange ..
  | pathUnitTimeout => exact .pathUnitTimeout ..
  | handoverCmd => exact .handoverCmd _
  | holdupWarn => exact .holdupWarn _
  | railSequenceRetry => exact .railSequenceRetry ..
  | deepSleepEntry => exact .deepSleepEntry _
  | railFault => exact .world (.railFault _ _) _
  | tempLimit => exact .world .tempLimit _
  | telemetrySample => exact .worldAt (.telemetry _ _ _ _) _
  | vinFail => exact .world .vinFail _
  | vinRestore => exact .world .vinRestore _
  | mainClockLoss | vcoreOutOfRange => exact .world (.trigger _ _) _
  | codeEccDoubleError => exact .world (.codeEcc _) _
  | resetN => exact .world .resetLow _
  | forceSafeN => exact .world (.safeLow _) _
  | resetPinRelease => exact .world (.pinRelease _) _
  | coldStart => exact .coldStart ..
  | retentionEnd => exact .retentionEnd _
  | vbkCollapse => exact .world .backupLost _
  | opNop | opHalt | opYield | opChkin | opEvt | opFlrd | opFlwr | opAndb | opOrb | opXorb | opNot | opDup | opPop | opMov |
    opMovi | opMovx | opMovw | opLea | opXchgm | opAddm | opCmp | opJmp | opBcc | opJbt | opJbf | opCall | opRet | opLoop |
    opJmpa | opCalla | opCsrr | opCsrw | opQput | opQcount | opMin | opMax | opAddi | opMul | opMulhs | opShl | opSar |
    opShr | opRor | opDivs | opDivu | opClra | opAdda | opSuba | opSha | opMova | opLda | opSta | opRot | opMag | opDft |
    opLd | opLdn | opAnd | opAndn | opOr | opOrn | opXor | opOut | opSet | opRst | opRedge | opFedge | opTon | opTof | opTp
    | opCtu | opCtd | opCrst | opLdw | opLdh | opLdhs | opLdb | opLdx | opStw | opSth | opStb | opCmpeq | opCmpne | opCmplt
    | opCmple | opCmpgt | opCmpge | opCmpltu | opCmpgeu | opAdd | opAdc | opSub | opSbc | opNeg | opAbs | opAndw | opOrw |
    opXorw | opNotw | opClz | opMpy | opMac | opMsu | opMacm | opMsum | dispatch | preemptDispatch | budgetOverrun =>
    exact .onCore _ _
  | thresholdBitChange | adcFaultChange | adcOverrange | adcSelftestEval | phaseComparison | referenceQualified |
    referenceLoss | ptpSync | ptpAnnounce | irigFrame | ppsInEdge | irigLoss | linkChange | phyInt | frameReceive |
    gooseReceived | svReceived | pdelayReq | frelupoInput | frelupoHello | frelupoStatus | canRefReceived | canFrameReceive
    | canTxDone | canErrorStateChange | canBusoffRecovery | canModeEffect | canWake | nvsRecallDone | heartbeat |
    refreshDecoded | presenceDecoded | lineFault | pubDiagFail | pubRelinquish | pubTaken | pubRefuse | rolePatternDecoded |
    returnReq | handover | handoverAck | parley | exchMessage | mirrorReceived | pairload | rhizomeTrain | rhizomeLinkLoss |
    standIdent | standStatusFrame | standCopyReceived | linkTimestampFrame | pathResolutionDone | pcieReset | pcieLinkUp |
    serviceCoreHalt | updateBlockWritten | boot | firstScan | sporeManifest | sporeData | sporeStatus | sporeCommit |
    sporeBaud | frameReassemblyTimeout =>
    exact .event _ _
  | meridian | angleSampleSet | timeSampleSet | epochCarry | ppsOutPulse | phyPoll | supervisionFrame | ptpMessageInterval |
    sweep | generationClose | trimWindow =>
    exact .onClock _ _
  | svPublish | nvsHostWrite | nvsHostRead | xchBoundary | mailboxRing | queueConfig | queueOffer | queuePop | intRaise |
    intPendClear | intEnWrite | msixUnmask | faultClear | wdtConfig | wdtServe | deviceReset | networkEngineRestart |
    scanCoreRestart | firstWordRead | readClear | canRxfPop | rtcFreezeRead | hostPartialAccess | hostUnmappedAccess |
    csrWrite | pathResolve | taskAckAll | taskMaxClear | angSrcWrite | angCompWrite | frpTableWrite | frpActivate |
    frpSnapshot | xchStage | xchArm | xchCancel | xchConfirm | xchRevert | hsbRelinquishPub | hsbSetRetinh | hsbClearRetinh
    | ptpSetTime | mdioFrame | phyResetControl | subAccess | pubAccess | canTxRequest | canTxAbort | canModeWrite |
    frelupoCommand | biInvWrite | rbenWrite | thresholdWrite | rtcHalt | rtcRun | rtcTimeWrite | rtcAlarmArm |
    rtcMeasureStart | rtcMeasureStop | rtcTrimApply =>
    exact .upd _
  | hello | ident | unitread | challenge | unlockSig | unlockPwd | setpwd | relock | keyslot | revoke | fieldlock | attest |
    attestRead | manifest | updData | updStatus | updAbort | activate | updConfirm | updRevert | hostLoad | desc |
    hostLaunch =>
    exact .serve ..
  | journal | recordRead | recordWrite =>
    exact .serveNvs ..
  | csrreadFrame | csrwriteFrame =>
    exact .frameIn ..
  | biDebounceEnd | thresholdApply | holdoverExpiry | stepFlagClear | periodicRelease | angleRelease | eventTaskRelease |
    minIntervalExpiry | heldReleaseDispatch | catchupRelease | timeQualityChange | sourceSelect | syncTimeout | mdioDone |
    entryForgetTime | gooseStale | svStale | launch | gooseRetransmit | frelupoSync | canRefSend | canRefTimeout |
    frpCheckDone | frpSwap | frpSnapshotDone | recordSlotCheck | xchStageDone | xchBoundaryTimeout | xchWindowWarn |
    xchWindowExpiry | heartbeatSend | pathLoss | refreshSlot | leaseExpiry | presencePulse | relinquishWaveEnd |
    pubOrphanTake | leaseClaim | claimReadback | joiningEnd | handoverAckTimeout | handoverInstant | handoverTake |
    handoverFailCheck | holdoffExpiry | outputInstant | mirrorWaitTimeout | angleJump | standBoundary | calendarRollover |
    rtcFreezeTimeout | rtcMeasureWindowOpen | rtcMeasureEnd | rtcAlarm | rtcWake | wdtExpiry | challengeExpiry |
    unlockWindowExpiry | attestReady | updateWindowWarn | updateWindowExpiry | updateWindowSave | baudFallback | sporeHello
    =>
    simp only [exec, execBiDebounceEnd, execThresholdApply, execHoldoverExpiry, execStepFlagClear, execPeriodicRelease,
      execAngleRelease, execEventTaskRelease, execMinIntervalExpiry, execHeldReleaseDispatch, execCatchupRelease,
      execTimeQualityChange, execSourceSelect, execSyncTimeout, execMdioDone, execEntryForgetTime, execGooseStale,
      execSvStale, execLaunch, execGooseRetransmit, execFrelupoSync, execCanRefSend, execCanRefTimeout, execFrpCheckDone,
      execFrpSwap, execFrpSnapshotDone, execRecordSlotCheck, execXchStageDone, execXchBoundaryTimeout, execXchWindowWarn,
      execXchWindowExpiry, execHeartbeatSend, execPathLoss, execRefreshSlot, execLeaseExpiry, execPresencePulse,
      execRelinquishWaveEnd, execPubOrphanTake, execLeaseClaim, execClaimReadback, execJoiningEnd, execHandoverAckTimeout,
      execHandoverInstant, execHandoverTake, execHandoverFailCheck, execHoldoffExpiry, execOutputInstant,
      execMirrorWaitTimeout, execAngleJump, execStandBoundary, execCalendarRollover, execRtcFreezeTimeout,
      execRtcMeasureWindowOpen, execRtcMeasureEnd, execRtcAlarm, execRtcWake, execWdtExpiry, execChallengeExpiry,
      execUnlockWindowExpiry, execAttestReady, execUpdateWindowWarn, execUpdateWindowExpiry, execUpdateWindowSave,
      execBaudFallback, execSporeHello]
    repeat' split
    all_goals simp only [Completes.upd, Completes.onClock, Completes.stays]

/-- R13, R334: of the two at which MONO begins anew as well. -/
theorem exec_completes_anyhow (s : State) (i : Instr) : Completes s 0 (exec i s) := by
  by_cases hr : ∃ lock straps, i = .deviceResetRelease lock straps
  · obtain ⟨lock, straps, rfl⟩ := hr
    exact .deviceResetRelease lock straps
  · by_cases hw : ∃ dt us est, i = .warmResume dt us est
    · obtain ⟨dt, us, est, rfl⟩ := hw
      exact .warmResume dt us est
    · exact (exec_completes s i (fun l p h => hr ⟨l, p, h⟩) (fun a b c h => hw ⟨a, b, c, h⟩)).anyhow

/-- Settles O58: exec_completes, and exec_completes_anyhow for the commands at which MONO begins anew. -/
theorem everyCommandCompletes : Obligations.EveryCommandCompletes := by
  unfold Obligations.EveryCommandCompletes
  intro s i
  obtain ⟨t, ho, hp, -, -⟩ := exec_completes_anyhow s i
  refine ⟨t, ho, hp, fun hr hw => ?_⟩
  obtain ⟨u, hu, -, hm, -⟩ := exec_completes s i hr hw
  obtain rfl : t = u := Host.Outcome.next.inj (ho.symm.trans hu)
  exact hm

/-- Settles O59: a step either idles or carries out a command, and every command keeps firstOk. -/
theorem firstSourceFollowsHealth : Obligations.FirstSourceFollowsHealth := by
  unfold Obligations.FirstSourceFollowsHealth
  intro s t hs ht
  unfold step at ht
  split at ht
  · cases ht; exact hs
  · rename_i i rest _
    obtain ⟨u, hu, -, -, hf⟩ := exec_completes_anyhow { s with pending := rest } i
    obtain rfl : t = u := Host.Outcome.next.inj (ht.symm.trans hu)
    exact hf hs

end Sys2Proof.Machine
end

section
/-!
PROOFS. A step takes the command at the front of the queue, and the machine after reset holds what the tables and the rules
before the release give.
-/
namespace Sys2Proof.Machine

/-- Settles O57: both clauses are the branches of step. -/
theorem stepRunsTheCommand : Obligations.StepRunsTheCommand := by
  unfold Obligations.StepRunsTheCommand
  intro s c rest
  refine ⟨fun h => ?_, fun h => ?_⟩ <;> rw [step, h]

theorem Sparse.get_of_unlisted {β : Type} (dflt : Nat → β) {m : Sparse β} {k : Nat} (h : ∀ p ∈ m, p.1 ≠ k) :
    Sparse.get dflt m k = dflt k := by
  induction m with
  | nil => rfl
  | cons p rest ih =>
    rw [Sparse.get, if_neg (h p (List.mem_cons_self ..))]
    exact ih fun q hq => h q (List.mem_cons_of_mem _ hq)

/-- A register with a row and outside the three special ranges resets to the word of its row. -/
theorem resetWordAt_of_row {off : Nat} {row : RegRow} (h : rowOf off = some row) (h1 : off < 0x80 ∨ 0x98 ≤ off)
    (h2 : off < 0x5100 ∨ 0x5500 ≤ off) (h3 : off ≠ Reg.QUE_CFG 0) : resetWordAt off = row.resetWord := by
  have h3' : off ≠ 0x20000 := h3
  rw [resetWordAt, if_neg (by omega), if_neg (by omega), if_neg h3', h]

theorem rd_reset_of_unlisted {off : Nat} (h : ∀ x ∈ bootRegs, x.1 ≠ off) : State.reset.dev.rd off = resetWordAt off :=
  Sparse.get_of_unlisted resetWordAt h

/-- Settles O60: a register that bootRegs does not list reads as resetWordAt says; the rest is the reset state written out. -/
theorem resetState : Obligations.ResetState := by
  unfold Obligations.ResetState
  refine ⟨rfl, rfl, ?memories, ?first, rfl, ?part, ?version, rfl, ?latches, fun _ => rfl, fun _ => rfl, ?registers⟩
  case memories => decide
  case first => exact fun _ _ => by rw [Dev.flag, Dev.fld, rd_reset_of_unlisted (by decide)]; decide
  case part => rw [Dev.fld, rd_reset_of_unlisted (by decide)]; decide
  case version => rw [rd_reset_of_unlisted (by decide)]; decide
  case latches => exact fun _ _ => rfl
  case registers =>
    intro off row hrow h1 h2 h3 hboot
    rw [rd_reset_of_unlisted hboot, resetWordAt_of_row hrow h1 h2 h3]

end Sys2Proof.Machine
end

section
/-!
PROOFS. Word arithmetic of 06_fixed_point_instructions.md: sums, products, minima and maxima, results by lanes, shifts and
division (R138 to R144), and the compares of 05_logic_instructions.md (R126).
-/
namespace Sys2Proof.Machine

section
variable {s : State} {i : Instr} {c : Nat} {r : Run} {accept : List PrefixKind} {pre : Fetch} {own : List Byte} {legal : Bool}
  {k n : Nat} {v : Word} {fc fv : Option Bool} {st : Bool}

/-- The conclusion of Gives for a body that writes what f computes from the core to W[d]. -/
theorem Gives.of_alu {f : Cpu → AluOut} {d : Nat}
    (he : exec i s = s.instr c accept pre legal own (ticks k) (fun x => .ok (x.withB (x.b.putAlu d (f x)))))
    (hn : own.length = n) (hl : legal = true) (h : Starts s c r accept pre n)
    (hP : WordResult (s.bankOf c r) ((s.bankOf c r).putAlu d (f (s.cpu c r pre n k))) d v fc fv st) :
    Gives s i c r k (s.after c r pre n) (fun b' => WordResult (s.bankOf c r) b' d v fc fv st) :=
  Gives.of_instr _ _ he hn h hl rfl rfl hP

/-- R95, R140: the result of an operation with a single form and one by lanes. -/
def aluOut (single : Bool → Word → Word → Bool → AluOut) (f : Exact) (useC : Bool) (s : State) (c : Nat) (r : Run) (pre : Fetch)
    (f1 f2 : BitVec 4) : AluOut :=
  let b := s.bankOf c r
  if (modsOf pre).lane then laneOut f (s.saturates c r pre) (b.getW f1.toNat) (b.getW f2.toNat) (useC && b.flag flC)
  else single (s.saturates c r pre) (b.getW f1.toNat) (b.getW f2.toNat) (useC && b.flag flC)

theorem alu_gives {single : Bool → Word → Word → Bool → AluOut} {f : Exact} {useC : Bool} {op : Byte} {f1 f2 : BitVec 4}
    (he : exec i s = s.aluInstr c pre op f1 f2 (aluBody single f useC f1 f2)) (h : Starts s c r [.sat, .lane, .cond] pre 2)
    (hP : WordResult (s.bankOf c r) ((s.bankOf c r).putAlu f1.toNat (aluOut single f useC s c r pre f1 f2)) f1.toNat v fc fv st) :
    Gives s i c r 1 (s.after c r pre 2) (fun b' => WordResult (s.bankOf c r) b' f1.toNat v fc fv st) :=
  Gives.of_instr _ _ he rfl h rfl rfl rfl hP

end

/-! ## Single words (R140, R141) -/

theorem b2n_int (b : Bool) : ((b2n b : Nat) : Int) = if b = true then 1 else 0 := by cases b <;> rfl

theorem carryOut_eq (x y : Word) (cy : Bool) : carryOut x y cy = decide (2 ^ 32 ≤ x.toNat + y.toNat + b2n cy) :=
  Bool.eq_iff_iff.mpr (by rw [carryOut, Nat.ble_eq, decide_eq_true_iff])

/-- R140: a sum with its carry. -/
theorem addOut_result (b : Bank) (n : Nat) (sat : Bool) (x y : Word) (cy : Bool) :
    WordResult b (b.putAlu n (addOut sat x y cy)) n (fitted 32 sat (x.toInt + y.toInt + b2n cy))
      (some (decide (2 ^ 32 ≤ x.toNat + y.toNat + b2n cy))) (some (outside 32 (x.toInt + y.toInt + b2n cy)))
      (sat && outside 32 (x.toInt + y.toInt + b2n cy)) := by
  rw [addOut, carryOut_eq]
  exact wordOut_result ..

/-- R140: a sum and a difference without a carry. -/
theorem addOut_result_plain (b : Bank) (n : Nat) (sat : Bool) (x y : Word) :
    WordResult b (b.putAlu n (addOut sat x y false)) n (fitted 32 sat (x.toInt + y.toInt))
      (some (decide (2 ^ 32 ≤ x.toNat + y.toNat))) (some (outside 32 (x.toInt + y.toInt)))
      (sat && outside 32 (x.toInt + y.toInt)) := by
  simpa [b2n] using addOut_result b n sat x y false

theorem subOut_result_plain (b : Bank) (n : Nat) (sat : Bool) (x y : Word) :
    WordResult b (b.putAlu n (subOut sat x y false)) n (fitted 32 sat (x.toInt - y.toInt))
      (some (decide (x.toNat < y.toNat))) (some (outside 32 (x.toInt - y.toInt))) (sat && outside 32 (x.toInt - y.toInt)) := by
  simpa [b2n] using subOut_result b n sat x y false

theorem max_neg_eq_natAbs (v : Int) : max v (-v) = (v.natAbs : Int) := by omega

theorem bne_zero_eq (y : Word) : (y != 0) = decide (y ≠ 0) := by
  rw [bne, Bool.beq_eq_decide_eq, decide_not]

/-- Settles O2: each instruction writes an exact word result (addOut_result, subOut_result, wordOut_result). -/
theorem wordArithmetic : Obligations.WordArithmetic := by
  unfold Obligations.WordArithmetic
  intro s c r pre f1 f2 imm b x y cy sat gives
  refine ⟨fun h hl => ?_, fun h hf => ?addi, fun h => ?mul⟩
  case addi => exact Gives.of_alu rfl rfl (f2Zero_of_eq hf) h (addOut_result_plain ..)
  case mul => exact Gives.of_alu rfl rfl rfl h (wordOut_result ..)
  refine ⟨?add, ?adc, ?sub, ?sbc, ?neg, ?abs⟩
  all_goals refine alu_gives rfl h ?_
  all_goals rw [aluOut, hl]
  case add => exact addOut_result_plain ..
  case adc => exact addOut_result ..
  case sub => exact subOut_result_plain ..
  case sbc => exact subOut_result ..
  case neg => rw [← bne_zero_eq]; exact wordOut_result ..
  case abs => rw [← max_neg_eq_natAbs]; exact wordOut_result ..

/-! ## MIN, MAX and MULHS (R140, R141) -/

/-- R140: MIN and MAX write a word, and leave C and V. -/
theorem pick_gives {s : State} {i : Instr} {c : Nat} {r : Run} {pre : Fetch} {op : Byte} {f1 f2 : BitVec 4} {f : Int → Int → Int}
    {v : Word}
    (he : exec i s = s.instr c [.lane, .cond] pre true (op :: bytesR f1 f2) (ticks 1) (pickBody f f1 f2))
    (h : Starts s c r [.lane, .cond] pre 2)
    (hv : (if (modsOf pre).lane then
        ofLanes (BitVec.ofInt 16 (f (lanes ((s.bankOf c r).getW f1.toNat)).1 (lanes ((s.bankOf c r).getW f2.toNat)).1),
          BitVec.ofInt 16 (f (lanes ((s.bankOf c r).getW f1.toNat)).2 (lanes ((s.bankOf c r).getW f2.toNat)).2))
      else ofInt32 (f ((s.bankOf c r).getW f1.toNat).toInt ((s.bankOf c r).getW f2.toNat).toInt)) = v) :
    Gives s i c r 1 (s.after c r pre 2) (fun b' => WordResult (s.bankOf c r) b' f1.toNat v none none false) :=
  Gives.of_instr _ _ he rfl h rfl rfl rfl (hv ▸ Bank.putAlu_result ..)

theorem ofInt32_min (x y : Word) : ofInt32 (min x.toInt y.toInt) = if x.toInt ≤ y.toInt then x else y := by
  rw [Int.min_def, ofInt32, apply_ite (BitVec.ofInt 32), BitVec.ofInt_toInt, BitVec.ofInt_toInt]

theorem ofInt32_max (x y : Word) : ofInt32 (max x.toInt y.toInt) = if x.toInt ≤ y.toInt then y else x := by
  rw [Int.max_def, ofInt32, apply_ite (BitVec.ofInt 32), BitVec.ofInt_toInt, BitVec.ofInt_toInt]

/-- Settles O3: MIN and MAX pick a word (pick_gives), MULHS writes an exact one. -/
theorem minMaxMulhs : Obligations.MinMaxMulhs := by
  unfold Obligations.MinMaxMulhs
  intro s c r pre f1 f2 b x y sat gives e
  refine ⟨fun h => ⟨fun hl => ⟨?_, ?_⟩, fun hl => ⟨?_, ?_⟩⟩, fun h => ?mulhs⟩
  case mulhs => exact Gives.of_alu rfl rfl rfl h (wordOut_result ..)
  all_goals refine pick_gives rfl h ?_
  all_goals rw [hl]
  · exact ofInt32_min ..
  · exact ofInt32_max ..
  · simp only [if_true, lanes_eq]; rfl
  · simp only [if_true, lanes_eq]; rfl

/-! ## Results by lanes (R95, R140, R143) -/

theorem outside_of_bounds {w : Nat} {M e : Int} (hM : ((2 ^ (w - 1) : Nat) : Int) = M) (h1 : -M ≤ e) (h2 : e < M) :
    outside w e = false := by
  rw [outside, hM, Bool.or_eq_false_iff, decide_eq_false_iff_not, decide_eq_false_iff_not]
  omega

/-- R143: a rounded right shift of a lane lies within the lane. -/
theorem outside_rnd_lane (m : Rounding) (x : BitVec 16) (k : Nat) : outside 16 (rnd m x.toInt k) = false := by
  have h := rnd_bounds m (M := 2 ^ 15) k (by decide) (by have := x.le_toInt; omega) (by have := x.toInt_lt; omega)
  exact outside_of_bounds (by decide) h.1 h.2

theorem outside_rnd_lane0 (m : Rounding) (y : Word) (k : Nat) : outside 16 (rnd m (lane0 y) k) = false := outside_rnd_lane ..
theorem outside_rnd_lane1 (m : Rounding) (y : Word) (k : Nat) : outside 16 (rnd m (lane1 y) k) = false := outside_rnd_lane ..

/-- R139: without saturation a field receives the low bits. -/
theorem fitted_wraps (w : Nat) (v : Int) : fitted w false v = BitVec.ofInt w v := by
  rw [fitted, Bool.and_false]; rfl

/-- R95: a result by lanes, e1 and e0 being the exact results. -/
theorem laneOut_exact {b : Bank} {n : Nat} {f : Exact} {sat : Bool} {x y : Word} {cy : Bool} {e1 e0 : Int}
    (h1 : f (lane1 x) (lane1 y) 0 = e1) (h0 : f (lane0 x) (lane0 y) (b2n cy) = e0) :
    WordResult b (b.putAlu n (laneOut f sat x y cy)) n (fitted 16 sat e1 ++ fitted 16 sat e0) (some false)
      (some (outside 16 e0 || outside 16 e1)) (sat && (outside 16 e0 || outside 16 e1)) := by
  subst h1 h0
  exact laneOut_result ..

/-- Settles O4: each instruction writes a result by lanes (laneOut_exact); SAR stays within its lanes. -/
theorem laneArithmetic : Obligations.LaneArithmetic := by
  unfold Obligations.LaneArithmetic
  intro s c r pre f1 f2 k hl b x y cy sat m gives
  have legal (hk : k.toNat ≤ 15) : shiftLegal pre k = true := by rw [shiftLegal, hl]; exact Nat.ble_eq_true_of_le hk
  have lane (n : Nat) : (s.cpu c r pre n 1).m.lane = true := hl
  have pow (v : Int) : v * ((2 ^ k.toNat : Nat) : Int) = v * 2 ^ k.toNat := by rw [Int.natCast_pow]; rfl
  refine ⟨fun h => ?_, fun h hk => ?shl, fun h hk => ?sar⟩
  case shl =>
    refine Gives.of_instr _ _ rfl rfl h (legal hk) rfl rfl ?_
    simp only [shlOut, lane, if_true]
    exact laneOut_exact (pow _) (pow _)
  case sar =>
    refine Gives.of_instr _ _ rfl rfl h (legal hk) rfl rfl ?_
    simp only [sarOut, lane, if_true]
    refine (laneOut_exact (e1 := rnd m (lane1 y) k.toNat) (e0 := rnd m (lane0 y) k.toNat) rfl rfl).as ?_ rfl ?_ rfl
    · rw [fitted_wraps, fitted_wraps]
    · rw [outside_rnd_lane0, outside_rnd_lane1]; rfl
  refine ⟨?add, ?adc, ?sub, ?sbc, ?neg, ?abs⟩
  all_goals refine alu_gives rfl h ?_
  all_goals simp only [aluOut, hl, if_true]
  case add => exact laneOut_exact (Int.add_zero _) (Int.add_zero _)
  case adc => exact laneOut_exact (Int.add_zero _) (congrArg (_ + ·) (b2n_int _))
  case sub => exact laneOut_exact (Int.sub_zero _) (Int.sub_zero _)
  case sbc => exact laneOut_exact (Int.sub_zero _) (congrArg (_ - ·) (b2n_int _))
  case neg => exact laneOut_exact rfl rfl
  case abs => exact laneOut_exact (max_neg_eq_natAbs _) (max_neg_eq_natAbs _)

/-! ## Shifts (R143) -/

/-- Settles O5: each shift writes what shlOut and sarOut say of a single word. -/
theorem shifts : Obligations.Shifts := by
  unfold Obligations.Shifts
  intro s c r pre f1 f2 imm himm hl b y k sat e last gives
  have legal : shiftLegal pre imm = true := by rw [shiftLegal, hl]; exact Nat.ble_eq_true_of_le himm
  have lane (n : Nat) : (s.cpu c r pre n 1).m.lane = false := hl
  refine ⟨fun h => ?shl, fun h => ?sar, fun h => ⟨?shr, ?ror⟩⟩
  case shl =>
    refine Gives.of_instr _ _ rfl rfl h legal rfl rfl ?_
    simp only [shlOut, lane, Bool.false_eq_true, if_false, Int.natCast_pow]
    exact wordOut_result ..
  case sar =>
    refine Gives.of_instr _ _ rfl rfl h legal rfl rfl ?_
    simp only [sarOut, lane, Bool.false_eq_true, if_false]
    exact Bank.putAlu_result ..
  case shr => exact Gives.of_instr _ _ rfl rfl h legal rfl rfl (Bank.putAlu_result ..)
  case ror => exact Gives.of_instr _ _ rfl rfl h legal rfl rfl (Bank.putAlu_result ..)

/-! ## Division (R144) -/

theorem lsb_of_even {n : BitVec 4} (h : n.toNat % 2 = 0) : (!n.getLsbD 0) = true := by
  rw [BitVec.getLsbD, Nat.testBit_zero, h]; rfl

/-- R144: a division writes the quotient with its flags, and then the remainder to the next register. -/
theorem division_gives {s : State} {i : Instr} {c : Nat} {r : Run} {pre : Fetch} {f1 f2 : BitVec 4} {op : List Byte}
    {f : Word → Word → Word × Word × Bool} {q m : Word} {v : Bool}
    (he : exec i s = s.instr c [.cond] pre (!f1.getLsbD 0) (op ++ bytesR f1 f2) (ticks 34) (divBody f f1 f2))
    (ho : op.length = 2) (h : Starts s c r [.cond] pre 3) (h1 : f1.toNat % 2 = 0)
    (hf : f ((s.bankOf c r).getW f1.toNat) ((s.bankOf c r).getW f2.toNat) = (q, m, v)) :
    Gives s i c r 34 (s.after c r pre 3) (fun b' => ∃ b1, WordResult (s.bankOf c r) b1 f1.toNat q (some false) (some v) false ∧
      b' = b1.setW (f1.toNat + 1) m) :=
  Gives.of_bankDo he (by rw [List.length_append, ho]; rfl) (lsb_of_even h1) h ⟨_, Bank.putAlu_result .., by rw [hf]⟩

/-- Settles O6: each clause is a row of divuOut or divsOut. -/
theorem division : Obligations.Division := by
  unfold Obligations.Division
  intro s c r pre f1 f2 h h1 b x y gives
  have unsigned {q m : Word} {v : Bool} (hf : divuOut x y = (q, m, v)) : gives (.opDivu c pre f1 f2) q m v :=
    division_gives rfl rfl h h1 hf
  have signed {q m : Word} {v : Bool} (hf : divsOut x y = (q, m, v)) : gives (.opDivs c pre f1 f2) q m v :=
    division_gives rfl rfl h h1 hf
  refine ⟨fun hy => unsigned ?_, fun hy => unsigned ?_, fun hy hx => signed ?_, fun hy hx => signed ?_, fun hx hy => signed ?_,
    fun hy hxy => signed ?_⟩
  · rw [divuOut, if_pos hy]
  · rw [divuOut, if_neg hy]
  · rw [divsOut, if_pos hy, sgn, if_pos hx]
  · rw [divsOut, if_pos hy, sgn, if_neg (Int.not_le.mpr hx)]
  · rw [divsOut, if_neg (by rw [hy]; decide), if_pos ⟨hx, hy⟩]
  · rw [divsOut, if_neg hy, if_neg hxy]; rfl

/-! ## Compares (R126) -/

theorem Bank.push_ok {b : Bank} (h : b.ba.length ≤ 15) (v : Bool) : b.push v = .ok { b with ba := v :: b.ba } :=
  if_pos (Nat.lt_succ_of_le h)

theorem onBank_ok {f : Bank → Except Trap Bank} {x : Cpu} {b : Bank} (h : f x.b = .ok b) : onBank f x = .ok (x.withB b) := by
  rw [onBank, h]; rfl

/-- R126: a pushing compare. -/
theorem compare_gives {s : State} {i : Instr} {c : Nat} {r : Run} {pre : Fetch} {op : Byte} {f1 f2 : BitVec 4}
    {f : Word → Word → Bool} {v : Bool} (he : exec i s = s.compareInstr c pre op f1 f2 f) (h : Starts s c r [.cond] pre 2)
    (hb : (s.bankOf c r).ba.length ≤ 15) (hv : f ((s.bankOf c r).getW f1.toNat) ((s.bankOf c r).getW f2.toNat) = v) :
    Gives s i c r 1 (s.after c r pre 2) (fun b' => b' = { s.bankOf c r with ba := v :: (s.bankOf c r).ba }) :=
  Gives.of_instr _ _ he rfl h rfl rfl (onBank_ok (f := fun b => b.push (f (b.getW f1.toNat) (b.getW f2.toNat)))
    (hv ▸ Bank.push_ok hb _)) rfl

/-- R126: the word of CMP is the difference. -/
theorem subOut_value (x y : Word) : (subOut false x y false).value = x - y := by
  have h : (subOut false x y false).value = BitVec.ofInt 32 (x.toInt - y.toInt - 0) := rfl
  rw [h, Int.sub_zero, Int.sub_eq_add_neg, BitVec.ofInt_add, BitVec.ofInt_neg, BitVec.ofInt_toInt, BitVec.ofInt_toInt,
    BitVec.sub_eq_add_neg]

theorem sub_beq_zero (x y : Word) : (x - y == 0) = decide (x = y) :=
  (Bool.beq_eq_decide_eq _ _).trans (decide_eq_decide.mpr (by bv_omega))

theorem subOut_carry (sat : Bool) (x y : Word) : (subOut sat x y false).c = some (decide (x.toNat < y.toNat)) :=
  congrArg some (Bool.eq_iff_iff.mpr (by rw [Nat.blt_eq, decide_eq_true_iff]; exact Iff.rfl))

theorem subOut_ovf (sat : Bool) (x y : Word) : (subOut sat x y false).v = some (outside 32 (x.toInt - y.toInt)) := by
  have h : (subOut sat x y false).v = some (!inField (x.toInt - y.toInt - 0) 32) := rfl
  rw [h, inField_outside, Bool.not_not, Int.sub_zero]

theorem Bank.flag_compared (b : Bank) (o : AluOut) (j : Nat) : (((b.zn o.value).optFlag flC o.c).optFlag flV o.v).flag j =
    if j = flV then o.v.getD (b.flag j) else if j = flC then o.c.getD (b.flag j)
      else if j = flN then o.value.msb else if j = flZ then (o.value == 0) else b.flag j := by
  rw [Bank.flag_optFlag _ _ _ (by decide), Bank.flag_optFlag _ _ _ (by decide), Bank.flag_zn]
  by_cases h1 : j = flV
  · subst h1; rfl
  · simp only [if_neg h1]
    by_cases h2 : j = flC
    · subst h2; rfl
    · simp only [if_neg h2]

/-- R126: a compare changes FL only. -/
theorem Bank.compared_eq (b : Bank) (w : Word) (fc fv : Option Bool) :
    ((b.zn w).optFlag flC fc).optFlag flV fv = { b with fl := (((b.zn w).optFlag flC fc).optFlag flV fv).fl } := by
  cases fc <;> cases fv <;> rfl

/-- Settles O7: CMP sets the flags of subOut, and the others push one bit. -/
theorem compares : Obligations.Compares := by
  unfold Obligations.Compares
  intro s c r pre f1 f2 h b x y pushes
  refine ⟨?cmp, fun hb => ⟨?_, ?_, ?_, ?_, ?_, ?_, ?_, ?_⟩⟩
  case cmp =>
    have fl := Bank.flag_compared b (subOut false x y false)
    refine Gives.of_bankDo rfl rfl rfl h ⟨(fl _).trans ?_, (fl _).trans ?_, (fl _).trans ?_, (fl _).trans ?_,
      fun k hk => (fl k).trans ?_, Bank.compared_eq ..⟩
    · rw [subOut_value]; exact sub_beq_zero x y
    · rw [subOut_value]; rfl
    · rw [subOut_carry]; rfl
    · rw [subOut_ovf]; rfl
    · rw [if_neg (by unfold flV; omega), if_neg (by unfold flC; omega), if_neg (by unfold flN; omega),
        if_neg (by unfold flZ; omega)]
  all_goals refine compare_gives rfl h hb ?_
  · exact Bool.beq_eq_decide_eq x y
  · rw [bne, Bool.beq_eq_decide_eq, decide_not]
  · exact BitVec.slt_eq_decide
  · exact BitVec.sle_eq_decide
  · exact BitVec.slt_eq_decide
  · exact BitVec.sle_eq_decide
  · exact BitVec.ult_eq_decide
  · exact BitVec.ule_eq_decide

end Sys2Proof.Machine
end

section
/-!
PROOFS. Scan cores: the bit stack and the bit operands (R101, R112, R113), and the branches (R127).
-/
namespace Sys2Proof.Machine

/-! ## The bit stack (R112) -/

theorem Bank.need_one {b : Bank} {x : Bool} {rest : List Bool} (h : b.ba = x :: rest) : b.need 1 = .ok () := by
  rw [Bank.need, h]; exact if_pos (Nat.succ_le_succ (Nat.zero_le _))

theorem Bank.mapBt_ok {b : Bank} {x : Bool} {rest : List Bool} (h : b.ba = x :: rest) (f : Bool → Bool) :
    b.mapBt f = .ok { b with ba := f x :: rest } := by
  rw [Bank.mapBt, Bank.need_one h, Except.map, Bank.setBt, Bank.bt, h]; rfl

theorem Bank.combine_ok {b : Bank} {x y : Bool} {rest : List Bool} (h : b.ba = x :: y :: rest) (f : Bool → Bool → Bool) :
    b.combine f = .ok { b with ba := f y x :: rest } := by
  rw [Bank.combine, h]

theorem Bank.pop_ok {b : Bank} {x : Bool} {rest : List Bool} (h : b.ba = x :: rest) :
    b.pop = .ok (x, { b with ba := rest }) := by
  rw [Bank.pop, h]

/-! ## The bit operand (R101) -/

theorem bitOf_testBit (n i : Nat) : bitOf n i = n.testBit i := by
  rw [bitOf, Nat.testBit_eq_decide_div_mod_eq]; rfl

theorem byteBit_lt (old i : Nat) (v : Bool) : byteBit old i v < 256 ^ 1 := by
  unfold byteBit; exact BitVec.isLt _

theorem testBit_byteBit {old i : Nat} (v : Bool) (ho : old < 256) (hi : i < 8) (k : Nat) :
    (byteBit old i v).testBit k = if k = i then v else old.testBit k := by
  have hbig (n : Nat) (hn : n < 2 ^ 8) (hk : 8 ≤ k) : n.testBit k = false :=
    Nat.testBit_lt_two_pow (Nat.lt_of_lt_of_le hn (Nat.pow_le_pow_right (by decide) hk))
  by_cases hk : k < 8
  · have hone : (BitVec.twoPow 8 i).getLsbD k = decide (k = i) := by
      rw [BitVec.getLsbD_twoPow, decide_eq_true hi, Bool.true_and]; exact decide_eq_decide.mpr eq_comm
    have hold : (BitVec.ofNat 8 old).getLsbD k = old.testBit k := by
      rw [BitVec.getLsbD_ofNat, decide_eq_true hk, Bool.true_and]
    unfold byteBit
    cases v
    · rw [BitVec.testBit_toNat]
      simp only [Bool.false_eq_true, if_false, BitVec.getLsbD_and, BitVec.getLsbD_not, hone, hold, hk, decide_true, Bool.true_and]
      by_cases hki : k = i <;> simp [hki]
    · rw [BitVec.testBit_toNat]
      simp only [if_true, BitVec.getLsbD_or, hone, hold]
      by_cases hki : k = i <;> simp [hki]
  · rw [hbig _ (byteBit_lt ..) (Nat.le_of_not_lt hk), hbig _ ho (Nat.le_of_not_lt hk), if_neg (by omega)]

/-- R101: the address of the byte of a bit address, as the statement names it. -/
def bitByteOf (pre : Fetch) (tb : Word) (a : BitVec 24) : Word :=
  (match (modsOf pre).space with
    | some 0 => 0x20000000 | some 1 => 0x20020000 | _ => tb) + BitVec.ofNat 32 (a.toNat / 8)

/-- R101: where a bit operand lies that meets no fault: in local data, or in an image shadow. -/
def BitHere (pre : Fetch) (tb : Word) (a : BitVec 24) : Prop :=
  ((modsOf pre).space = none ∧ regionOf (bitByteOf pre tb a) = some .data) ∨
    (((modsOf pre).space = some 0 ∨ (modsOf pre).space = some 1) ∧ a.toNat < 2 ^ 20)

section
variable {pre : Fetch} {a : BitVec 24} {x : Cpu}

theorem BitHere.bitByte {tb : Word} (h : BitHere pre tb a) (hm : x.m = modsOf pre) (ht : x.b.tb = tb) :
    x.bitByte a = bitByteOf pre tb a := by
  unfold Cpu.bitByte bitByteOf
  rw [hm, ht]
  rcases h with ⟨h, -⟩ | ⟨h | h, -⟩ <;> rw [h] <;> rfl

theorem BitHere.inRange {tb : Word} (h : BitHere pre tb a) (hm : x.m = modsOf pre) (ht : x.b.tb = tb) :
    x.bitInRange a = true := by
  rw [Cpu.bitInRange, h.bitByte hm ht, hm]
  rcases h with ⟨h, hd⟩ | ⟨h | h, hd⟩
  · rw [h, hd]; rfl
  · rw [h]; exact Nat.ble_eq_true_of_le hd
  · rw [h]; exact Nat.ble_eq_true_of_le hd

theorem BitHere.bitSpace {tb : Word} (h : BitHere pre tb a) : bitSpace pre = true := by
  rcases h with ⟨h, -⟩ | ⟨h | h, -⟩ <;> rw [Machine.bitSpace, h] <;> rfl

theorem BitHere.cost {tb : Word} (h : BitHere pre tb a) (hm : x.m = modsOf pre) :
    bitCost x = if (modsOf pre).space = none then 2 else 1 := by
  rcases h with ⟨h, -⟩ | ⟨h | h, -⟩ <;> rw [bitCost, hm, h] <;> rfl

theorem BitHere.region {tb : Word} (h : BitHere pre tb a) :
    (regionOf (bitByteOf pre tb a) = some .data ∧ (bitByteOf pre tb a).toNat + 1 ≤ 0x10200000) ∨
      (regionOf (bitByteOf pre tb a) = some .shadow ∧ (bitByteOf pre tb a).toNat + 1 ≤ 0x20040000) := by
  have shadow {k : Word} (hk : k = 0x20000000 ∨ k = 0x20020000) (ha : a.toNat < 2 ^ 20) :
      regionOf (k + BitVec.ofNat 32 (a.toNat / 8)) = some .shadow := by
    have hn : (k + BitVec.ofNat 32 (a.toNat / 8)).toNat = k.toNat + a.toNat / 8 := by
      rw [BitVec.toNat_add, BitVec.toNat_ofNat]
      rcases hk with rfl | rfl <;> simp only [BitVec.reduceToNat] <;> omega
    unfold regionOf
    rcases hk with rfl | rfl <;> simp only [hn, BitVec.reduceToNat] <;>
      rw [if_neg (by omega), if_neg (by omega), if_pos (by omega)]
  have ends {w : Word} (hw : regionOf w = some .shadow) : w.toNat + 1 ≤ 0x20040000 := (regionOf_shadow hw).2
  rcases h with ⟨-, h⟩ | ⟨h | h, ha⟩
  · exact .inl ⟨h, (regionOf_data h).2⟩
  · have hr : regionOf (bitByteOf pre tb a) = some .shadow := by rw [bitByteOf, h]; exact shadow (.inl rfl) ha
    exact .inr ⟨hr, ends hr⟩
  · have hr : regionOf (bitByteOf pre tb a) = some .shadow := by rw [bitByteOf, h]; exact shadow (.inr rfl) ha
    exact .inr ⟨hr, ends hr⟩

/-- R101: a bit operand that meets no fault is the bit that memory holds. -/
theorem BitHere.operand {tb : Word} (h : BitHere pre tb a) (hm : x.m = modsOf pre) (ht : x.b.tb = tb) :
    x.bitOperand a none = .ok (x, (x.dev.rdMem x.c (bitByteOf pre tb a) 1).testBit (a.toNat % 8)) := by
  rw [← h.bitByte hm ht, ← bitOf_testBit, Cpu.bitOperand, h.inRange hm ht]
  exact congrArg (fun v => Except.ok (x, v)) rfl

end

section
variable {s : State} {c : Nat} {r : Run} {pre : Fetch} {a : BitVec 24} {op : Byte} {i : Instr}

/-- R112: the byte that a bit instruction of run r names, and its bit. -/
def State.bitAddr (s : State) (c : Nat) (r : Run) (pre : Fetch) (a : BitVec 24) : Word := bitByteOf pre (s.bankOf c r).tb a
def State.bitOld (s : State) (c : Nat) (r : Run) (pre : Fetch) (a : BitVec 24) : Nat := (s.found c).rdMem c (s.bitAddr c r pre a) 1
def State.bitVal (s : State) (c : Nat) (r : Run) (pre : Fetch) (a : BitVec 24) : Bool :=
  (s.bitOld c r pre a).testBit (a.toNat % 8)
def bitTicks (pre : Fetch) : Nat := if (modsOf pre).space = none then 2 else 1

theorem BitHere.operand_cpu (h : BitHere pre (s.bankOf c r).tb a) (n k : Nat) :
    (s.cpu c r pre n k).bitOperand a none = .ok (s.cpu c r pre n k, s.bitVal c r pre a) := by
  rw [h.operand rfl rfl]
  exact congrArg (fun v : Nat => Except.ok (s.cpu c r pre n k, v.testBit (a.toNat % 8))) (Dev.charge_rdMem ..)

/-- R112: a bit instruction that changes the bit stack only. -/
theorem bit_gives {body : Body} {l : List Bool} (he : exec i s = s.bitInstr c pre op a body)
    (h : Starts s c r [.space, .cond] pre 4) (hb : BitHere pre (s.bankOf c r).tb a)
    (hy : body (s.cpu c r pre 4 (bitTicks pre)) = .ok ((s.cpu c r pre 4 (bitTicks pre)).withB { s.bankOf c r with ba := l })) :
    Gives s i c r (bitTicks pre) (s.after c r pre 4) (fun b' => b' = { s.bankOf c r with ba := l }) :=
  Gives.of_instr _ _ he rfl h hb.bitSpace (hb.cost rfl) hy rfl

/-- LD and LDN push. -/
theorem loadBit_gives {f : Bool → Bool} (he : exec i s = s.bitInstr c pre op a (loadBit f a none))
    (h : Starts s c r [.space, .cond] pre 4) (hb : BitHere pre (s.bankOf c r).tb a) (hl : (s.bankOf c r).ba.length ≤ 15) :
    Gives s i c r (bitTicks pre) (s.after c r pre 4)
      (fun b' => b' = { s.bankOf c r with ba := f (s.bitVal c r pre a) :: (s.bankOf c r).ba }) := by
  refine bit_gives he h hb ?_
  have hp : (s.cpu c r pre 4 (bitTicks pre)).b.push (f (s.bitVal c r pre a)) = .ok _ := Bank.push_ok hl _
  simp only [loadBit, hb.operand_cpu, bind, Except.bind, hp]
  rfl

/-- AND to XOR replace BT. -/
theorem withBit_gives {f : Bool → Bool → Bool} {x : Bool} {rest : List Bool}
    (he : exec i s = s.bitInstr c pre op a (withBit f a none)) (h : Starts s c r [.space, .cond] pre 4)
    (hb : BitHere pre (s.bankOf c r).tb a) (hx : (s.bankOf c r).ba = x :: rest) :
    Gives s i c r (bitTicks pre) (s.after c r pre 4)
      (fun b' => b' = { s.bankOf c r with ba := f x (s.bitVal c r pre a) :: rest }) := by
  refine bit_gives he h hb ?_
  have hp : (s.cpu c r pre 4 (bitTicks pre)).b.mapBt (fun bt => f bt (s.bitVal c r pre a)) = .ok _ := Bank.mapBt_ok hx _
  simp only [withBit, hb.operand_cpu, bind, Except.bind, hp]
  rfl

/-- OUT, SET and RST write the bit. -/
theorem intoBit_stores {f : Bool → Bool → Bool} {x : Bool} {rest : List Bool}
    (he : exec i s = s.bitInstr c pre op a (intoBit f a none)) (h : Starts s c r [.space, .cond] pre 4)
    (hb : BitHere pre (s.bankOf c r).tb a) (hx : (s.bankOf c r).ba = x :: rest) :
    ∃ t w, exec i s = .next t ∧
      RetiresStoring s t c r (bitTicks pre) (s.bankOf c r) (s.after c r pre 4) (s.bitAddr c r pre a) 1 w ∧
      (∀ k, w.testBit k = if k = a.toNat % 8 then f x (s.bitVal c r pre a) else (s.bitOld c r pre a).testBit k) := by
  have hn : (s.cpu c r pre 4 (bitTicks pre)).b.need 1 = .ok () := Bank.need_one hx
  have hbt : (s.cpu c r pre 4 (bitTicks pre)).b.bt = x := by
    rw [Bank.bt, show (s.cpu c r pre 4 (bitTicks pre)).b.ba = x :: rest from hx]; rfl
  have hold : s.bitOld c r pre a < 256 := by
    unfold State.bitOld Dev.rdMem
    split <;> first | exact Memory.rdLE_lt _ _ 1 | exact (by decide : 0 < 256)
  obtain ⟨t, h1, h2⟩ := State.instr_stores (n := 1) (s.bankOf c r) he rfl h hb.bitSpace (hb.cost rfl) (a := s.bitAddr c r pre a)
    (v := byteBit (s.bitOld c r pre a) (a.toNat % 8) (f x (s.bitVal c r pre a))) (by
      change intoBit f a none (s.cpu c r pre 4 (bitTicks pre)) = _
      simp only [intoBit, hb.operand_cpu, bind, Except.bind, hn, hbt, Cpu.putBit, hb.bitByte (x := s.cpu c r pre 4 (bitTicks pre)) rfl rfl]
      rw [show (s.cpu c r pre 4 (bitTicks pre)).dev.rdMem (s.cpu c r pre 4 (bitTicks pre)).c (bitByteOf pre (s.bankOf c r).tb a) 1 =
        s.bitOld c r pre a from Dev.charge_rdMem ..]
      rfl)
    (Stored.of_wrMem _ _ _ (byteBit_lt ..) (hb.region.elim .inl (fun h => .inr (.inl h))))
  exact ⟨t, _, h1, h2, testBit_byteBit _ hold (Nat.mod_lt _ (by decide))⟩

/-- R112: an instruction of the bit stack alone. -/
theorem bitStack_gives {f : Bank → Except Trap Bank} {l : List Bool}
    (he : exec i s = s.instr c [.cond] pre true [op] (ticks 1) (onBank f)) (h : Starts s c r [.cond] pre 1)
    (hf : f (s.bankOf c r) = .ok { s.bankOf c r with ba := l }) :
    Gives s i c r 1 (s.after c r pre 1) (fun b' => b' = { s.bankOf c r with ba := l }) :=
  Gives.of_instr _ _ he rfl h rfl rfl (onBank_ok hf) rfl

end

/-- `!=` of two bits is their exclusive or. -/
theorem bne_eq_xor_fn : (bne : Bool → Bool → Bool) = xor := rfl

/-- Settles O8: each instruction by the lemma of its kind. -/
theorem bitInstructions : Obligations.BitInstructions := by
  unfold Obligations.BitInstructions
  refine ⟨fun s c r pre x y rest h => ⟨fun hb => ⟨?_, ?_, ?_⟩, fun hb => ⟨?_, ?_, fun hr => ?_⟩⟩,
    fun s c r pre a x rest h => ?operands⟩
  · exact bitStack_gives rfl h (Bank.combine_ok hb _)
  · exact bitStack_gives rfl h (Bank.combine_ok hb _)
  · refine bitStack_gives rfl h ((Bank.combine_ok hb _).trans ?_); rw [bne_eq_xor_fn]
  · exact bitStack_gives rfl h (Bank.mapBt_ok hb _)
  · exact bitStack_gives rfl h (by rw [Bank.pop_ok hb]; rfl)
  · refine bitStack_gives rfl h ?_
    rw [Bank.need_one hb, Bank.bt, hb]
    exact (Bank.push_ok (by rw [hb]; exact Nat.succ_le_succ hr) x).trans (by rw [hb])
  case operands =>
    intro b byte old v n leaves writes hb
    refine ⟨fun hl => ⟨loadBit_gives (f := fun v => v) rfl h hb hl, loadBit_gives (f := not) rfl h hb hl⟩, fun hx => ?_⟩
    refine ⟨withBit_gives (f := and) rfl h hb hx, withBit_gives (f := fun bt v => bt && !v) rfl h hb hx,
      withBit_gives (f := or) rfl h hb hx, withBit_gives (f := fun bt v => bt || !v) rfl h hb hx, ?_,
      intoBit_stores (f := fun bt _ => bt) rfl h hb hx, ?_, ?_⟩
    · have h := withBit_gives (i := .opXor c pre a none) rfl h hb hx
      rw [bne_eq_xor_fn] at h; exact h
    · have h := intoBit_stores (i := .opSet c pre a none) rfl h hb hx
      rw [Bool.or_comm] at h; exact h
    · have h := intoBit_stores (i := .opRst c pre a none) rfl h hb hx
      rw [Bool.and_comm] at h; exact h

/-! ## Branches (R127) -/

/-- Settles O9: a branch changes PC, and no instruction here changes a flag. -/
theorem branches : Obligations.Branches := by
  unfold Obligations.Branches
  intro s c r pre disp cc x addr v rest b next target
  refine ⟨fun h => ?_, fun h hc hv => ?_, fun h hb => ⟨?_, ?_⟩, fun h => ?_, fun h => ?_, fun h hx => ?_, fun h ha => ⟨?_, ?_⟩⟩
  · exact Gives.of_instr _ _ rfl rfl h rfl rfl rfl rfl
  · refine Gives.of_instr (n := 4) _ _ rfl rfl h (Nat.ble_eq_true_of_le hc) rfl ?_ rfl
    rw [show (s.cpu c r pre 4 2).b.test cc.toNat = .ok v from hv]
    cases v <;> rfl
  · refine Gives.of_instr (n := 3) _ _ rfl rfl h rfl rfl ?_ rfl
    rw [popJump, show (s.cpu c r pre 3 2).b.pop = .ok _ from Bank.pop_ok hb]
    cases v <;> rfl
  · refine Gives.of_instr (n := 3) _ _ rfl rfl h rfl rfl ?_ rfl
    rw [popJump, show (s.cpu c r pre 3 2).b.pop = .ok _ from Bank.pop_ok hb]
    cases v <;> rfl
  · exact Gives.of_instr _ _ rfl rfl h rfl rfl rfl rfl
  · exact Gives.of_instr _ _ rfl rfl h rfl rfl rfl rfl
  · refine Gives.of_instr (n := 4) _ _ rfl rfl h (Nat.ble_eq_true_of_le hx) rfl ?_ rfl
    by_cases h0 : b.getX x.toNat - 1 = 0
    · simp only [h0, if_true, show (s.cpu c r pre 4 2).b.getX x.toNat - 1 = 0 from h0]; rfl
    · simp only [h0, if_false, show ¬ (s.cpu c r pre 4 2).b.getX x.toNat - 1 = 0 from h0]; rfl
  · exact Gives.of_instr _ _ rfl rfl h (Nat.ble_eq_true_of_le ha) rfl rfl rfl
  · exact Gives.of_instr _ _ rfl rfl h (Nat.ble_eq_true_of_le ha) rfl rfl rfl

end Sys2Proof.Machine
end

section
/-!
PROOFS. Scan cores: the accumulator moves, sums and shifts (R149), and the loads and stores of an accumulator (R150).
-/
namespace Sys2Proof.Machine

/-! ## Accumulators (R149) -/

/-- R149: a sum of accumulators, single and by halves. -/
theorem addAcc_result (b : Bank) (a : Nat) (sat lane : Bool) (g : Int) (u v : BitVec 72) {e e1 e0 : Int}
    (he : u.toInt + g * v.toInt = e) (h1 : half1 u + g * half1 v = e1) (h0 : half0 u + g * half0 v = e0) :
    if lane then AccResult b (b.putAcc a (addAccOut sat lane g u v)) a (fitted 36 sat e1 ++ fitted 36 sat e0)
      (outside 36 e0 || outside 36 e1) (sat && (outside 36 e0 || outside 36 e1))
    else AccResult b (b.putAcc a (addAccOut sat lane g u v)) a (fitted 72 sat e) (outside 72 e) (sat && outside 72 e) := by
  subst he h1 h0
  cases lane
  · exact accSingle_result ..
  · simp only [addAccOut, halves_eq]; exact accDual_result ..

theorem shiftAcc_eq (m : Rounding) (k v : Int) :
    shiftAcc m k v = if 0 ≤ k then v * 2 ^ k.toNat else rnd m v (-k).toNat := by
  rw [shiftAcc, Int.natCast_pow]; rfl

/-- R149: a shifted accumulator, single and by halves. -/
theorem sha_result (b : Bank) (a : Nat) (sat lane : Bool) (m : Rounding) (k : Int) (u : BitVec 72) {e e1 e0 : Int}
    (he : shiftAcc m k u.toInt = e) (h1 : shiftAcc m k (half1 u) = e1) (h0 : shiftAcc m k (half0 u) = e0) :
    if lane then AccResult b (b.putAcc a (shaOut sat lane m k u)) a (fitted 36 sat e1 ++ fitted 36 sat e0)
      (outside 36 e0 || outside 36 e1) (sat && (outside 36 e0 || outside 36 e1))
    else AccResult b (b.putAcc a (shaOut sat lane m k u)) a (fitted 72 sat e) (outside 72 e) (sat && outside 72 e) := by
  subst he h1 h0
  cases lane
  · exact accSingle_result ..
  · simp only [shaOut, halves_eq]; exact accDual_result ..

/-- R149: bit 2 of the operand byte of MOVA is its direction. -/
theorem dir_eq {b0 : BitVec 8} (h : b0.toNat < 8) : b0.getLsbD 2 = decide (4 ≤ b0.toNat) := by
  rw [BitVec.getLsbD, Nat.testBit_eq_decide_div_mod_eq, decide_eq_decide]
  omega

/-- Settles O11: each instruction by the lemma of its result. -/
theorem accumulatorInstructions : Obligations.AccumulatorInstructions := by
  unfold Obligations.AccumulatorInstructions
  refine ⟨fun s c r pre b0 => ?sums, fun s c r pre b0 f1 h hb => ?mova⟩
  case sums =>
    intro b a u v k m shifted lane gives
    refine ⟨fun h hb => ?_, fun h hb => ?_, fun h => ?_⟩
    · refine Gives.of_bankDo rfl rfl (by rw [lowBits_of_lt (n := 2) hb]; rfl) h ?_
      exact Bank.putAcc_result b a { value := 0 }
    · have legal : (lowBits 4 b0 && byteZero 0 0) = true := by rw [lowBits_of_lt (n := 4) hb]; rfl
      have hs : s.saturates c r pre = b.flag flSd := h.saturates rfl
      rw [← hs]
      exact ⟨Gives.of_instr _ _ rfl rfl h legal rfl rfl
          (addAcc_result b a _ _ 1 u v (by rw [Int.one_mul]) (by rw [Int.one_mul]) (by rw [Int.one_mul])),
        Gives.of_instr _ _ rfl rfl h legal rfl rfl (addAcc_result b a _ _ (-1) u v (by omega) (by omega) (by omega))⟩
    · exact Gives.of_instr _ _ rfl rfl h rfl rfl rfl
        (sha_result b a _ _ _ _ u (shiftAcc_eq ..) (shiftAcc_eq ..) (shiftAcc_eq ..))
  case mova =>
    intro b a u w sat m e e1 e0 gives
    have legal : (lowBits 3 b0 && f2Zero 0) = true := by rw [lowBits_of_lt (n := 3) hb]; rfl
    have run (P : Bank → Prop) (hP : P (if b0.getLsbD 2 then b.putAcc a { value := widen (modsOf pre).lane w }
        else b.putAlu f1.toNat (reduce sat (modsOf pre).lane m u))) : gives P :=
      Gives.of_instr _ _ rfl rfl h legal rfl rfl hP
    refine ⟨fun h4 hl => run _ ?_, fun h4 hl => run _ ?_, fun h4 hl => run _ ?_, fun h4 hl => run _ ?_⟩
    · rw [dir_eq hb, decide_eq_false (Nat.not_le.mpr h4), hl]; exact reduce_single ..
    · rw [dir_eq hb, decide_eq_false (Nat.not_le.mpr h4), hl]; exact reduce_lane ..
    · rw [dir_eq hb, decide_eq_true h4, hl]
      exact (Bank.putAcc_result b a { value := widen false w }).as rfl rfl rfl rfl
    · rw [dir_eq hb, decide_eq_true h4, hl]
      refine (Bank.putAcc_result b a { value := widen true w }).as rfl ?_ rfl rfl
      simp only [widen, if_true, lanes_eq, ofHalves]
      rfl

/-! ## Accumulators in memory (R150) -/

section
variable {s : State} {c : Nat} {r : Run} {pre : Fetch} {m : MAddr}

theorem localData_ok {a : Word} {align n : Nat} (ha : a.toNat % align = 0) (h1 : 0x10000000 ≤ a.toNat)
    (h2 : a.toNat + n ≤ 0x10200000) : localData a align n = .ok () := by
  rw [localData, ha, decide_eq_true h1, Nat.ble_eq_true_of_le h2]; rfl

/-- R100: what MODE 2 does to a bank after an access of size bytes. -/
def Bank.postInc (b : Bank) (m : MAddr) (size : Nat) : Bank :=
  if m.mode = 2 then b.setX m.xsel.toNat (b.getX m.xsel.toNat + BitVec.ofNat 32 size) else b

theorem Cpu.postInc_eq (x : Cpu) (m : MAddr) (size : Nat) : x.postInc m size = x.withB (x.b.postInc m size) := by
  have hm : m.mode.toNat = 2 ↔ m.mode = 2 := ⟨fun h => BitVec.eq_of_toNat_eq h, fun h => by rw [h]; rfl⟩
  unfold Cpu.postInc Bank.postInc
  by_cases h : m.mode = 2
  · rw [if_pos (hm.mpr h), if_pos h]
  · rw [if_neg (mt hm.mp h), if_neg h]; rfl

/-- R150: STA of size bytes of v at its address, with its bank. -/
theorem sta_stores {size v k : Nat} (b : Bank)
    (h : Starts s c r [.sat, .rnd, .lane, .cond] pre (1 + (bytesM m).length)) (hk : m.reg.toNat / 4 = k) (hk1 : k ≤ 1)
    (h1 : 0x10000000 ≤ ((s.cpu0 c r pre (1 + (bytesM m).length)).ea m).toNat)
    (h2 : ((s.cpu0 c r pre (1 + (bytesM m).length)).ea m).toNat + size ≤ 0x10200000) (hs : 0 < size) (hv : v < 256 ^ size)
    (hy : staBody m (s.cpu c r pre (1 + (bytesM m).length) 2) = .ok (((s.cpu c r pre (1 + (bytesM m).length) 2).withDev
      ((s.cpu c r pre (1 + (bytesM m).length) 2).dev.wrMem c ((s.cpu0 c r pre (1 + (bytesM m).length)).ea m) size v)).withB b)) :
    ∃ t, exec (.opSta c pre m) s = .next t ∧ RetiresStoring s t c r 2 b (s.after c r pre (1 + (bytesM m).length))
      ((s.cpu0 c r pre (1 + (bytesM m).length)).ea m) size v :=
  State.instr_stores (n := size) b rfl (Nat.add_comm ..) h (by rw [hk]; exact Nat.ble_eq_true_of_le hk1) rfl hy
    (Stored.of_wrMem _ _ _ hv (.inl ⟨regionOf_of_data h1 (by omega), h2⟩))

/-- R149, R150: the word to which an accumulator is reduced, with LANE and without. -/
theorem reduce_value (sat lane : Bool) (md : Rounding) (u : BitVec 72) :
    reduce sat lane md u = if lane then
      { value := fitted 16 sat (rnd md (half1 u) 15) ++ fitted 16 sat (rnd md (half0 u) 15)
        sat := sat && (outside 16 (rnd md (half0 u) 15) || outside 16 (rnd md (half1 u) 15)) }
    else { value := fitted 32 sat (rnd md u.toInt 31), sat := sat && outside 32 (rnd md u.toInt 31) } := by
  cases lane <;> simp only [reduce, if_true, Bool.false_eq_true, if_false, halves_eq, ofLanes, fitTo_fitted, inField_outside,
    Bool.not_not]

end

/-- Settles O12: the address is that of the statement, and the body does what R150 says there. -/
theorem accumulatorLoadsAndStores : Obligations.AccumulatorLoadsAndStores := by
  unfold Obligations.AccumulatorLoadsAndStores
  intro s c r pre m b n a inc raw reduced u sat md stores
  refine ⟨fun h ha => ?load, fun h ha => ?raw, fun h ha => ?reduced⟩
  case load =>
    obtain ⟨h8, h1, h2⟩ := ha
    refine Gives.of_instr (inc (b.putAcc (m.reg.toNat % 4)
      { value := BitVec.ofNat 72 ((s.found c).rdMem c a 9) }) 16) _ rfl (Nat.add_comm ..) h rfl rfl ?_
      ⟨_, Bank.putAcc_result .., rfl⟩
    have hl : localData ((s.cpu c r pre n 2).ea m) 8 16 = .ok () := localData_ok h8 h1 h2
    change ldaBody m none (s.cpu c r pre n 2) = _
    simp only [ldaBody, hl, bind, Except.bind, Cpu.errOf, Cpu.meet, pure, Except.pure, Cpu.postInc_eq]
    rfl
  case raw =>
    obtain ⟨h8, h1, h2⟩ := ha
    intro hk
    refine sta_stores _ h hk (by decide) h1 h2 (by decide) (BitVec.isLt _) ?_
    have hl : localData ((s.cpu c r pre n 2).ea m) 8 16 = .ok () := localData_ok h8 h1 h2
    change staBody m (s.cpu c r pre n 2) = _
    simp only [staBody, hk, if_true, hl, bind, Except.bind, pure, Except.pure, Cpu.postInc_eq]
    rfl
  case reduced =>
    obtain ⟨h4, h1, h2⟩ := ha
    have hl : localData ((s.cpu c r pre n 2).ea m) 4 4 = .ok () := localData_ok h4 h1 h2
    refine ⟨fun lane hk => ?_, fun lane hk => ?_⟩
    all_goals
      refine sta_stores _ h hk (by decide) h1 h2 (by decide) (BitVec.isLt _) ?_
      have hm : (s.cpu c r pre n 2).m.lane = _ := lane
      change staBody m (s.cpu c r pre n 2) = _
      simp only [staBody, hk, Nat.one_ne_zero, if_false, hl, bind, Except.bind, pure, Except.pure, Cpu.postInc_eq,
        reduce_value, hm, Bool.false_eq_true, if_true]
      rfl

end Sys2Proof.Machine
end

section
/-!
PROOFS. Scan cores: the records of edge detectors, timers and counters in local data (R114 to R120).
-/
namespace Sys2Proof.Machine

/-! ## The words of a record (R114) -/

/-- The word of the record at base, and what the memory holds with that word written. -/
def Memory.getWord (m : Memory) (base off : Nat) : Word := BitVec.ofNat 32 (Memory.rdLE m (base + off) 4)
def Memory.setWord (m : Memory) (base off : Nat) (v : Word) : Memory := Memory.wrLE m (base + off) 4 v.toNat

theorem word_bytes : 256 ^ 4 = 2 ^ 32 := rfl

theorem Memory.getWord_same (m : Memory) (base off : Nat) (v : Word) : (m.setWord base off v).getWord base off = v := by
  rw [Memory.getWord, Memory.setWord, Memory.rdLE_wrLE, word_bytes, Nat.mod_eq_of_lt v.isLt,
    BitVec.ofNat_toNat, BitVec.setWidth_eq]

theorem Memory.getWord_ne (m : Memory) {base off base' off' : Nat} (v : Word)
    (h : base' + off' + 4 ≤ base + off ∨ base + off + 4 ≤ base' + off') :
    (m.setWord base off v).getWord base' off' = m.getWord base' off' := by
  rw [Memory.getWord, Memory.setWord, Memory.rdLE_wrLE_ne _ _ h, Memory.getWord]

theorem Memory.toNat_getWord (m : Memory) (base off : Nat) : (m.getWord base off).toNat = Memory.rdLE m (base + off) 4 := by
  rw [Memory.getWord, BitVec.toNat_ofNat, ← word_bytes, Nat.mod_eq_of_lt (Memory.rdLE_lt m _ 4)]

/-- Records of two and of four words. -/
theorem Memory.rdLE_two (m : Memory) (base : Nat) :
    Memory.rdLE m base 8 = recordOf [m.getWord base 0, m.getWord base 4] := by
  rw [show (8 : Nat) = 4 + 4 from rfl, Memory.rdLE_add]
  simp only [recordOf, Memory.toNat_getWord, Nat.mul_zero, Nat.add_zero, word_bytes]

theorem Memory.rdLE_four (m : Memory) (base : Nat) :
    Memory.rdLE m base 16 = recordOf [m.getWord base 0, m.getWord base 4, m.getWord base 8, m.getWord base 12] := by
  rw [show (16 : Nat) = 4 + (4 + (4 + 4)) from rfl, Memory.rdLE_add, Memory.rdLE_add, Memory.rdLE_add]
  simp only [recordOf, Memory.toNat_getWord, Nat.mul_zero, Nat.add_zero, Nat.add_assoc, Nat.reduceAdd, word_bytes]

/-- Memory M holds what memory m holds, but for n bytes from base. -/
def SameBut (m M : Memory) (base n : Nat) : Prop := ∀ k, k < base ∨ base + n ≤ k → Memory.rd8 M k = Memory.rd8 m k

theorem SameBut.refl (m : Memory) (base n : Nat) : SameBut m m base n := fun _ _ => rfl

theorem SameBut.setWord {m M : Memory} {base n off : Nat} (h : SameBut m M base n) (v : Word) (ho : off + 4 ≤ n) :
    SameBut m (M.setWord base off v) base n :=
  fun k hk => (Memory.rd8_wrLE_ne M v.toNat (by omega)).trans (h k hk)

/-! ## A core that keeps a record -/

/-- The core with its task data replaced. -/
def Cpu.withData (x : Cpu) (m : Memory) : Cpu := x.withDev { x.dev with mem := { x.dev.mem with data := m } }

/-- R114: n bytes at a lie in local data. -/
structure InData (a : Word) (n : Nat) : Prop where
  low : 0x10000000 ≤ a.toNat
  high : a.toNat + n ≤ 0x10200000

section
variable {x : Cpu} {a : Word} {n off : Nat}

theorem InData.word (h : InData a n) (ho : off < n) (m : Memory) :
    (x.withData m).word a off = m.getWord (dataAddr x.c a.toNat) off :=
  congrArg (BitVec.ofNat 32) (Dev.rdMem_word _ _ h.low (Nat.lt_of_lt_of_le (Nat.add_lt_add_left ho _) h.high) 4)

theorem InData.putWord (h : InData a n) (ho : off < n) (m : Memory) (v : Word) :
    (x.withData m).putWord a off v = x.withData (m.setWord (dataAddr x.c a.toNat) off v) :=
  congrArg x.withDev (Dev.wrMem_word _ _ h.low (Nat.lt_of_lt_of_le (Nat.add_lt_add_left ho _) h.high) 4 _)

/-- The same for a core whose body has not written yet. -/
theorem InData.word_self (h : InData a n) (ho : off < n) : x.word a off = x.dev.mem.data.getWord (dataAddr x.c a.toNat) off :=
  h.word ho x.dev.mem.data

theorem InData.putWord_self (h : InData a n) (ho : off < n) (v : Word) :
    x.putWord a off v = x.withData (x.dev.mem.data.setWord (dataAddr x.c a.toNat) off v) :=
  h.putWord ho x.dev.mem.data v

/-- R114: a record that meets no fault. -/
theorem Cpu.record_ok {t : BitVec 16} {i : Bool} {rest : List Bool} (h : InData (x.b.tb + t.setWidth 32) n)
    (ha : (x.b.tb + t.setWidth 32).toNat % n = 0) (hi : x.b.ba = i :: rest) :
    x.record t n none = .ok (x, x.b.tb + t.setWidth 32) := by
  have hn : (x.b.need 1).map (fun _ => (x, x.b.tb + t.setWidth 32)) = .ok (x, x.b.tb + t.setWidth 32) := by
    rw [Bank.need_one hi]; rfl
  rw [Cpu.record, localData_ok ha h.low h.high]
  exact hn

end

section
variable {s : State} {i : Instr} {c : Nat} {r : Run} {pre : Fetch} {op : Byte} {t : BitVec 16} {body : Body}

/-- R114: the record instructions of run r: what they find at TB + t, and how they end with memory m and bank b. -/
theorem record_stores {a : Word} {cost n v : Nat} {m : Memory} {b : Bank}
    (he : exec i s = s.recordInstr c pre op cost t body) (h : Starts s c r [.cond] pre 3) (ha : InData a n) (hn : 0 < n)
    (hy : body (s.cpu c r pre 3 cost) = .ok (((s.cpu c r pre 3 cost).withData m).withB b))
    (hm : SameBut (s.found c).mem.data m (dataAddr c a.toNat) n) (hv : Memory.rdLE m (dataAddr c a.toNat) n = v) :
    ∃ u, exec i s = .next u ∧ RetiresStoring s u c r cost b (s.after c r pre 3) a n v :=
  State.instr_stored b { (s.found c).mem with data := m } he rfl h rfl rfl hy
    (Stored.of_data ha.low ha.high hn rfl hv hm)

end

/-! ## The flags of a record -/

theorem and_decide_eq_ite (b : Bool) (p : Prop) [Decidable p] : (b && decide p) = if p then b else false := by
  by_cases h : p
  · rw [decide_eq_true h, if_pos h, Bool.and_true]
  · rw [decide_eq_false h, if_neg h, Bool.and_false]

theorem keepFlags_bit (old keep : Word) (set : Nat) {k : Nat} (hk : k < 32) :
    (keepFlags old keep set).getLsbD k = ((old.getLsbD k && (0xFFFF0000 ||| keep).getLsbD k) || set.testBit k) := by
  rw [keepFlags, BitVec.getLsbD_or, BitVec.getLsbD_and, BitVec.getLsbD_ofNat, decide_eq_true hk, Bool.true_and]

/-- IN, RUN and Q with INIT set, as a number. -/
theorem testBit_flags (i run q : Bool) (k : Nat) : (b2n i + 2 * b2n run + 4 * b2n q + 8).testBit k =
    if k = 0 then i else if k = 1 then run else if k = 2 then q else decide (k = 3) := by
  by_cases hk : k < 4
  · have : k = 0 ∨ k = 1 ∨ k = 2 ∨ k = 3 := by omega
    rcases this with rfl | rfl | rfl | rfl <;> cases i <;> cases run <;> cases q <;> rfl
  · have hlt : b2n i + 2 * b2n run + 4 * b2n q + 8 < 2 ^ 4 := by cases i <;> cases run <;> cases q <;> decide
    rw [Nat.testBit_lt_two_pow (Nat.lt_of_lt_of_le hlt (Nat.pow_le_pow_right (by decide) (Nat.le_of_not_lt hk))),
      if_neg (by omega), if_neg (by omega), if_neg (by omega), decide_eq_false (by omega)]

/-- R118 to R120: the flag word that an evaluation leaves. -/
theorem flags_bit (old keep : Word) (hkeep : ∀ k, k < 4 → (0xFFFF0000 ||| keep).getLsbD k = false) (i run q : Bool) {k : Nat}
    (hk : k < 32) : (keepFlags old keep (b2n i + 2 * b2n run + 4 * b2n q + 8)).getLsbD k =
    if k = 0 then i else if k = 1 then run else if k = 2 then q else if k = 3 then true
      else old.getLsbD k && (0xFFFF0000 ||| keep).getLsbD k := by
  rw [keepFlags_bit _ _ _ hk, testBit_flags]
  by_cases h4 : k < 4
  · rw [hkeep k h4, Bool.and_false, Bool.false_or]
    simp only [Bool.if_true_left]
    by_cases h3 : k = 3
    · subst h3; rfl
    · have : k = 0 ∨ k = 1 ∨ k = 2 := by omega
      rcases this with rfl | rfl | rfl <;> rfl
  · simp only [show k ≠ 0 by omega, show k ≠ 1 by omega, show k ≠ 2 by omega, show k ≠ 3 by omega, if_false, decide_false,
      Bool.or_false]

section
variable (w : Word) (i run q : Bool) {k : Nat} (hk : k < 32)
include hk

theorem flags_edge : (keepFlags w 0x10 (b2n i + 4 * b2n q + 8)).getLsbD k =
    if k = 0 then i else if k = 2 then q else if k = 3 then true else if k = 4 ∨ 16 ≤ k then w.getLsbD k else false := by
  have hm : ∀ k, k < 32 → (0xFFFF0000 ||| 0x10 : Word).getLsbD k = decide (k = 4 ∨ 16 ≤ k) := by decide
  refine (flags_bit w 0x10 (by decide) i false q hk).trans ?_
  rw [hm k hk]
  by_cases h1 : k = 1
  · subst h1; rfl
  · rw [if_neg h1, and_decide_eq_ite]

theorem flags_timer : (keepFlags w 0x10 (b2n i + 2 * b2n run + 4 * b2n q + 8)).getLsbD k =
    if k = 0 then i else if k = 1 then run else if k = 2 then q else if k = 3 then true
      else if k = 4 ∨ 16 ≤ k then w.getLsbD k else false := by
  have hm : ∀ k, k < 32 → (0xFFFF0000 ||| 0x10 : Word).getLsbD k = decide (k = 4 ∨ 16 ≤ k) := by decide
  rw [flags_bit w 0x10 (by decide) i run q hk, hm k hk, and_decide_eq_ite]

theorem flags_counter : (keepFlags w 0x50 (b2n i + 4 * b2n q + 8)).getLsbD k =
    if k = 0 then i else if k = 2 then q else if k = 3 then true else if k = 4 ∨ k = 6 ∨ 16 ≤ k then w.getLsbD k else false := by
  have hm : ∀ k, k < 32 → (0xFFFF0000 ||| 0x50 : Word).getLsbD k = decide (k = 4 ∨ k = 6 ∨ 16 ≤ k) := by decide
  refine (flags_bit w 0x50 (by decide) i false q hk).trans ?_
  rw [hm k hk]
  by_cases h1 : k = 1
  · subst h1; rfl
  · rw [if_neg h1, and_decide_eq_ite]

theorem flags_reset : (keepFlags w (if i then 0x59 else 0x5D) 0).getLsbD k =
    if k = 2 then (w.getLsbD 2 && !i) else if k = 0 ∨ k = 3 ∨ k = 4 ∨ k = 6 ∨ 16 ≤ k then w.getLsbD k else false := by
  have hm : ∀ k, k < 32 → (0xFFFF0000 ||| (if i then 0x59 else 0x5D) : Word).getLsbD k =
      decide ((k = 2 ∧ i = false) ∨ k = 0 ∨ k = 3 ∨ k = 4 ∨ k = 6 ∨ 16 ≤ k) := by cases i <;> decide
  rw [keepFlags_bit _ _ _ hk, hm k hk, Nat.zero_testBit, Bool.or_false]
  by_cases h2 : k = 2
  · subst h2; cases i <;> simp
  · simp only [h2, false_and, false_or, if_false, and_decide_eq_ite]

end

section
variable {s : State} {i : Instr} {c : Nat} {r : Run} {pre : Fetch} {op : Byte} {t : BitVec 16} {x : Bool} {rest : List Bool}

/-- R114: the address of the record of an instruction, the task data that it finds, and a word of the record in it. -/
def State.recordAt (s : State) (c : Nat) (r : Run) (t : BitVec 16) : Word := (s.bankOf c r).tb + t.setWidth 32
def State.recordWord (s : State) (c : Nat) (r : Run) (t : BitVec 16) (off : Nat) : Word :=
  (s.found c).mem.data.getWord (dataAddr c (s.recordAt c r t).toNat) off

def State.recordRun (s : State) (c : Nat) (r : Run) : Word := BitVec.ofNat 32 ((s.found c).rdMem c (s.bankOf c r).tb 4)

theorem State.word_recordAt {n off : Nat} (ha : InData (s.recordAt c r t) n) (ho : off < n) (k : Nat) :
    (s.cpu c r pre 3 k).word (s.recordAt c r t) off = s.recordWord c r t off := ha.word_self ho

theorem State.bt_cpu (hx : (s.bankOf c r).ba = x :: rest) (k : Nat) : (s.cpu c r pre 3 k).b.bt = x :=
  congrArg (fun l => l.headD false) hx

theorem State.setBt_cpu (hx : (s.bankOf c r).ba = x :: rest) (k : Nat) (q : Bool) :
    (s.cpu c r pre 3 k).b.setBt q = { s.bankOf c r with ba := q :: rest } :=
  congrArg (fun l => { s.bankOf c r with ba := q :: l.drop 1 }) hx

theorem State.tcRun_cpu (k : Nat) : (s.cpu c r pre 3 k).tcRun = s.recordRun c r :=
  congrArg (BitVec.ofNat 32) ((congrArg (fun a => (s.cpu c r pre 3 k).dev.rdMem c a 4) (BitVec.add_zero _)).trans
    (Dev.charge_rdMem ..))

theorem State.record_cpu {n : Nat} (ha : InData (s.recordAt c r t) n) (hn : (s.recordAt c r t).toNat % n = 0)
    (hx : (s.bankOf c r).ba = x :: rest) (k : Nat) :
    (s.cpu c r pre 3 k).record t n none = .ok (s.cpu c r pre 3 k, s.recordAt c r t) := Cpu.record_ok ha hn hx

/-- R118: the edge detectors. -/
theorem edge_stores {up : Bool} (he : exec i s = s.recordInstr c pre op 3 t (edgeBody up t none))
    (h : Starts s c r [.cond] pre 3) (hx : (s.bankOf c r).ba = x :: rest) (ha : InData (s.recordAt c r t) 8)
    (h8 : (s.recordAt c r t).toNat % 8 = 0) :
    ∃ u v, exec i s = .next u ∧
      RetiresStoring s u c r 3 { s.bankOf c r with ba := edgeOf up (edgePrev up (s.recordWord c r t 0) x) x :: rest }
        (s.after c r pre 3) (s.recordAt c r t) 8
        (recordOf [v, s.recordRun c r]) ∧
      (∀ k, k < 32 → v.getLsbD k = if k = 0 then x else if k = 2 then edgeOf up (edgePrev up (s.recordWord c r t 0) x) x
        else if k = 3 then true else if k = 4 ∨ 16 ≤ k then (s.recordWord c r t 0).getLsbD k else false) := by
  let w := s.recordWord c r t 0
  let q := edgeOf up (edgePrev up w x) x
  let v := keepFlags w 0x10 (b2n x + 4 * b2n q + 8)
  let base := dataAddr c (s.recordAt c r t).toNat
  have hy : edgeBody up t none (s.cpu c r pre 3 3) = .ok (((s.cpu c r pre 3 3).withData
      (((s.found c).mem.data.setWord base 0 v).setWord base 4 (s.recordRun c r))).withB
      { s.bankOf c r with ba := q :: rest }) := by
    rw [← State.setBt_cpu (pre := pre) hx 3 q]
    simp only [edgeBody, State.record_cpu ha h8 hx, bind, Except.bind, pure, Except.pure, State.bt_cpu hx, State.tcRun_cpu,
      State.word_recordAt ha (off := 0) (by decide), ha.putWord_self (off := 0) (by decide), ha.putWord (off := 4) (by decide)]
    rfl
  obtain ⟨u, h1, h2⟩ := record_stores he h ha (by decide) hy (((SameBut.refl _ _ _).setWord _ (by decide)).setWord _ (by decide)) rfl
  rw [Memory.rdLE_two, Memory.getWord_same, Memory.getWord_ne _ _ (by omega), Memory.getWord_same] at h2
  exact ⟨u, v, h1, h2, fun k hk => flags_edge w x q hk⟩

theorem Dev.rdMem_lt (d : Dev) (c : Nat) (a : Word) (n : Nat) : d.rdMem c a n < 256 ^ n := by
  unfold Dev.rdMem
  split <;> first | exact Memory.rdLE_lt .. | exact Nat.pow_pos (by decide)

theorem Dev.toNat_rdMem_word (d : Dev) (c : Nat) (a : Word) : (BitVec.ofNat 32 (d.rdMem c a 4)).toNat = d.rdMem c a 4 := by
  rw [BitVec.toNat_ofNat, ← word_bytes, Nat.mod_eq_of_lt (d.rdMem_lt c a 4)]

/-- R46: TC_MONO of the run. -/
def State.recordNow (s : State) (c : Nat) (r : Run) : Nat :=
  (s.found c).rdMem c ((s.bankOf c r).tb + 0x20) 4 + 2 ^ 32 * (s.found c).rdMem c ((s.bankOf c r).tb + 0x24) 4

theorem State.tcMono_cpu (k : Nat) : (s.cpu c r pre 3 k).tcMono = s.recordNow c r := by
  refine (congr (congrArg (fun a b : Nat => a + b * 2 ^ 32) (Dev.toNat_rdMem_word ..)) (Dev.toNat_rdMem_word ..)).trans ?_
  rw [State.recordNow, Nat.mul_comm]
  exact congr (congrArg HAdd.hAdd (Dev.charge_rdMem ..)) (congrArg (2 ^ 32 * ·) (Dev.charge_rdMem ..))

/-- R119: what the record of a timer comes to. -/
def State.timerEnd (s : State) (c : Nat) (r : Run) (t : BitVec 16) (k : TimerKind) (x : Bool) : TimerState :=
  timerEval k (s.recordNow c r) ((s.recordWord c r t 8).toNat * 1000) x (timerFirst k (s.recordWord c r t 12)
    ((s.recordWord c r t 0).toNat + (s.recordWord c r t 4).toNat * 2 ^ 32) x)

/-- R119: the timers. -/
theorem timer_stores {kind : TimerKind} {n : Nat} {run q : Bool}
    (he : exec i s = s.recordInstr c pre op 6 t (timerBody kind t none))
    (h : Starts s c r [.cond] pre 3) (hx : (s.bankOf c r).ba = x :: rest) (ha : InData (s.recordAt c r t) 16)
    (h16 : (s.recordAt c r t).toNat % 16 = 0)
    (hend : s.timerEnd c r t kind x = { start := n, input := x, run := run, q := q }) :
    ∃ u v, exec i s = .next u ∧
      RetiresStoring s u c r 6 { s.bankOf c r with ba := q :: rest } (s.after c r pre 3) (s.recordAt c r t) 16
        (recordOf [BitVec.ofNat 32 n, BitVec.ofNat 32 (n / 2 ^ 32), s.recordWord c r t 8, v]) ∧
      (∀ k, k < 32 → v.getLsbD k = if k = 0 then x else if k = 1 then run else if k = 2 then q else if k = 3 then true
        else if k = 4 ∨ 16 ≤ k then (s.recordWord c r t 12).getLsbD k else false) := by
  let w := s.recordWord c r t 12
  let v := keepFlags w 0x10 (b2n x + 2 * b2n run + 4 * b2n q + 8)
  let base := dataAddr c (s.recordAt c r t).toNat
  let m := (s.found c).mem.data
  have hy : timerBody kind t none (s.cpu c r pre 3 6) = .ok (((s.cpu c r pre 3 6).withData
      (((m.setWord base 0 (BitVec.ofNat 32 n)).setWord base 4 (BitVec.ofNat 32 (n / 2 ^ 32))).setWord base 12 v)).withB
      { s.bankOf c r with ba := q :: rest }) := by
    rw [← State.setBt_cpu (pre := pre) hx 6 q]
    rw [State.timerEnd] at hend
    simp only [timerBody, State.record_cpu ha h16 hx, bind, Except.bind, pure, Except.pure, State.bt_cpu hx, State.tcMono_cpu,
      State.word_recordAt ha (off := 0) (by decide), State.word_recordAt ha (off := 4) (by decide),
      State.word_recordAt ha (off := 8) (by decide), State.word_recordAt ha (off := 12) (by decide), hend,
      ha.putWord_self (off := 0) (by decide), ha.putWord (off := 4) (by decide), ha.putWord (off := 12) (by decide)]
    rfl
  obtain ⟨u, h1, h2⟩ := record_stores he h ha (by decide) hy
    ((((SameBut.refl _ _ _).setWord _ (by decide)).setWord _ (by decide)).setWord _ (by decide)) rfl
  rw [Memory.rdLE_four, Memory.getWord_ne _ _ (by omega), Memory.getWord_ne _ _ (by omega), Memory.getWord_same,
    Memory.getWord_ne _ _ (by omega), Memory.getWord_same, Memory.getWord_ne _ _ (by omega), Memory.getWord_ne _ _ (by omega),
    Memory.getWord_ne _ _ (by omega), Memory.getWord_same] at h2
  exact ⟨u, v, h1, h2, fun k hk => flags_timer w x run q hk⟩

theorem Memory.rdLE_congr {m M : Memory} {a n : Nat} (h : ∀ k, a ≤ k → k < a + n → Memory.rd8 M k = Memory.rd8 m k) :
    Memory.rdLE M a n = Memory.rdLE m a n := by
  induction n generalizing a with
  | zero => rfl
  | succ n ih =>
    rw [Memory.rdLE, Memory.rdLE, h a (by omega) (by omega), ih fun k h1 h2 => h k (by omega) (by omega)]

theorem dataAddr_add {c a k : Nat} (h : 0x10000000 ≤ a) : dataAddr c (a + k) = dataAddr c a + k := by
  unfold dataAddr; omega

/-- R116: the task context lies before a record that starts past its 64 bytes, so that writing the record keeps TC_RUN. -/
theorem State.tcRun_kept (ht : 0x40 ≤ t.toNat) (k : Nat) {m : Memory}
    (hm : SameBut (s.found c).mem.data m (dataAddr c (s.recordAt c r t).toNat) 16) :
    ((s.cpu c r pre 3 k).withData m).tcRun = s.recordRun c r := by
  have hz : (s.bankOf c r).tb + BitVec.ofNat 32 0 = (s.bankOf c r).tb := BitVec.add_zero _
  refine congrArg (BitVec.ofNat 32) ?_
  change Dev.rdMem { s.found c with mem := { (s.found c).mem with data := m } } c ((s.bankOf c r).tb + BitVec.ofNat 32 0) 4 =
    (s.found c).rdMem c (s.bankOf c r).tb 4
  rw [hz]
  by_cases hd : regionOf (s.bankOf c r).tb = some .data
  · obtain ⟨h1, h2⟩ := regionOf_data hd
    have hw : (s.recordAt c r t).toNat = (s.bankOf c r).tb.toNat + t.toNat := by
      have := t.isLt
      rw [State.recordAt, BitVec.toNat_add, BitVec.toNat_setWidth]; omega
    simp only [Dev.rdMem, hd]
    refine Memory.rdLE_congr fun k h3 h4 => hm k (Or.inl ?_)
    rw [hw, dataAddr_add h1]
    exact Nat.lt_of_lt_of_le h4 (Nat.add_le_add_left (Nat.le_trans (by decide) ht) _)
  · unfold Dev.rdMem
    cases hg : regionOf (s.bankOf c r).tb with
    | none => rfl
    | some g => cases g <;> first | rfl | exact absurd hg hd

/-- R120: the input of a counter before this evaluation, and the count that a rising edge of it leaves. -/
def counterInput (w : Word) (x : Bool) : Bool := if w.getLsbD 3 then w.getLsbD 0 else !w.getLsbD 4 && x
def counterNext (up : Bool) (w : Word) (x : Bool) (cv : Int) : Int := if x && !counterInput w x then countEdge up cv else cv

/-- R120: the counters. -/
theorem counter_stores {up : Bool} {n : Int} {q : Bool}
    (he : exec i s = s.recordInstr c pre op 4 t (counterBody up t none))
    (h : Starts s c r [.cond] pre 3) (hx : (s.bankOf c r).ba = x :: rest) (ha : InData (s.recordAt c r t) 16)
    (h16 : (s.recordAt c r t).toNat % 16 = 0) (ht : 0x40 ≤ t.toNat)
    (hn : counterNext up (s.recordWord c r t 8) x (s.recordWord c r t 0).toInt = n)
    (hq : (if up then decide ((s.recordWord c r t 4).toInt ≤ n) else decide (n ≤ 0)) = q) :
    ∃ u v, exec i s = .next u ∧
      RetiresStoring s u c r 4 { s.bankOf c r with ba := q :: rest } (s.after c r pre 3) (s.recordAt c r t) 16
        (recordOf [BitVec.ofInt 32 n, s.recordWord c r t 4, v, s.recordRun c r]) ∧
      (∀ k, k < 32 → v.getLsbD k = if k = 0 then x else if k = 2 then q else if k = 3 then true
        else if k = 4 ∨ k = 6 ∨ 16 ≤ k then (s.recordWord c r t 8).getLsbD k else false) := by
  subst hn hq
  let n := counterNext up (s.recordWord c r t 8) x (s.recordWord c r t 0).toInt
  let q := if up then decide ((s.recordWord c r t 4).toInt ≤ n) else decide (n ≤ 0)
  let w := s.recordWord c r t 8
  let v := keepFlags w 0x50 (b2n x + 4 * b2n q + 8)
  let base := dataAddr c (s.recordAt c r t).toNat
  let m := ((s.found c).mem.data.setWord base 0 (BitVec.ofInt 32 n)).setWord base 8 v
  have hm : SameBut (s.found c).mem.data m base 16 := ((SameBut.refl _ _ _).setWord _ (by decide)).setWord _ (by decide)
  have hy : counterBody up t none (s.cpu c r pre 3 4) = .ok (((s.cpu c r pre 3 4).withData
      (m.setWord base 12 (s.recordRun c r))).withB { s.bankOf c r with ba := q :: rest }) := by
    rw [← State.setBt_cpu (pre := pre) hx 4 q, ← State.tcRun_kept (pre := pre) ht 4 hm]
    simp only [counterBody, State.record_cpu ha h16 hx, bind, Except.bind, pure, Except.pure, State.bt_cpu hx, sgn,
      State.word_recordAt ha (off := 0) (by decide), State.word_recordAt ha (off := 4) (by decide),
      State.word_recordAt ha (off := 8) (by decide),
      ha.putWord_self (off := 0) (by decide), ha.putWord (off := 8) (by decide), ha.putWord (off := 12) (by decide)]
    rfl
  obtain ⟨u, h1, h2⟩ := record_stores he h ha (by decide) hy (hm.setWord _ (by decide)) rfl
  rw [Memory.rdLE_four, Memory.getWord_ne _ _ (by omega), Memory.getWord_ne _ _ (by omega), Memory.getWord_same,
    Memory.getWord_ne _ _ (by omega), Memory.getWord_ne _ _ (by omega), Memory.getWord_ne _ _ (by omega),
    Memory.getWord_ne _ _ (by omega), Memory.getWord_same, Memory.getWord_same] at h2
  exact ⟨u, v, h1, h2, fun k hk => flags_counter w x q hk⟩

/-- R120: CRST. -/
theorem reset_stores (he : exec i s = s.recordInstr c pre op 4 t (resetBody t none))
    (h : Starts s c r [.cond] pre 3) (hx : (s.bankOf c r).ba = x :: rest) (ha : InData (s.recordAt c r t) 16)
    (h16 : (s.recordAt c r t).toNat % 16 = 0) (ht : 0x40 ≤ t.toNat) :
    ∃ u v, exec i s = .next u ∧
      RetiresStoring s u c r 4 (s.bankOf c r) (s.after c r pre 3) (s.recordAt c r t) 16
        (recordOf [if x then (if (s.recordWord c r t 8).getLsbD 6 then s.recordWord c r t 4 else 0) else s.recordWord c r t 0,
          s.recordWord c r t 4, v, s.recordRun c r]) ∧
      (∀ k, k < 32 → v.getLsbD k = if k = 2 then ((s.recordWord c r t 8).getLsbD 2 && !x)
        else if k = 0 ∨ k = 3 ∨ k = 4 ∨ k = 6 ∨ 16 ≤ k then (s.recordWord c r t 8).getLsbD k else false) := by
  let w := s.recordWord c r t 8
  let v := keepFlags w (if x then 0x59 else 0x5D) 0
  let base := dataAddr c (s.recordAt c r t).toNat
  let m1 := if x then (s.found c).mem.data.setWord base 0 (if w.getLsbD 6 then s.recordWord c r t 4 else 0)
    else (s.found c).mem.data
  let m := m1.setWord base 8 v
  have hm1 : SameBut (s.found c).mem.data m1 base 16 := by
    cases x
    · exact SameBut.refl _ _ _
    · exact (SameBut.refl _ _ _).setWord _ (by decide)
  have hm : SameBut (s.found c).mem.data m base 16 := hm1.setWord _ (by decide)
  have hput : (if x then (s.cpu c r pre 3 4).putWord (s.recordAt c r t) 0
        (if (s.recordWord c r t 8).getLsbD 6 then s.recordWord c r t 4 else 0)
      else s.cpu c r pre 3 4) = (s.cpu c r pre 3 4).withData m1 := by
    cases x
    · rfl
    · exact ha.putWord_self (by decide) _
  have hy : resetBody t none (s.cpu c r pre 3 4) = .ok (((s.cpu c r pre 3 4).withData
      (m.setWord base 12 (s.recordRun c r))).withB (s.bankOf c r)) := by
    have hbt : ((s.cpu c r pre 3 4).withData m1).b.bt = x := State.bt_cpu (pre := pre) hx 4
    rw [← State.tcRun_kept (pre := pre) ht 4 hm]
    simp only [resetBody, State.record_cpu ha h16 hx, bind, Except.bind, pure, Except.pure, State.bt_cpu hx,
      State.word_recordAt ha (off := 4) (by decide), State.word_recordAt ha (off := 8) (by decide), hput, hbt,
      ha.putWord (off := 8) (by decide), ha.putWord (off := 12) (by decide)]
    rfl
  obtain ⟨u, h1, h2⟩ := record_stores he h ha (by decide) hy (hm.setWord _ (by decide)) rfl
  have h0 : m1.getWord base 0 =
      if x then (if w.getLsbD 6 then s.recordWord c r t 4 else 0) else s.recordWord c r t 0 := by
    cases x
    · rfl
    · exact Memory.getWord_same ..
  have h4 : m1.getWord base 4 = s.recordWord c r t 4 := by
    cases x
    · rfl
    · exact Memory.getWord_ne _ _ (by omega)
  rw [Memory.rdLE_four, Memory.getWord_ne _ _ (by omega), Memory.getWord_ne _ _ (by omega), h0,
    Memory.getWord_ne _ _ (by omega), Memory.getWord_ne _ _ (by omega), h4,
    Memory.getWord_ne _ _ (by omega), Memory.getWord_same, Memory.getWord_same] at h2
  exact ⟨u, v, h1, h2, fun k hk => flags_reset w x hk⟩

end

/-- The words of a record as a program reads them. -/
theorem State.recordWord_eq {s : State} {c : Nat} {r : Run} {t : BitVec 16} {n : Nat} (ha : InData (s.recordAt c r t) n) (off : Nat)
    (ho : off < n) : s.recordWord c r t off = BitVec.ofNat 32 ((s.found c).rdMem c (s.recordAt c r t + BitVec.ofNat 32 off) 4) :=
  congrArg (BitVec.ofNat 32) (Dev.rdMem_word _ _ ha.low (Nat.lt_of_lt_of_le (Nat.add_lt_add_left ho _) ha.high) 4).symm

theorem State.recordWord_zero {s : State} {c : Nat} {r : Run} {t : BitVec 16} {n : Nat} (ha : InData (s.recordAt c r t) n)
    (hn : 0 < n) : s.recordWord c r t 0 = BitVec.ofNat 32 ((s.found c).rdMem c (s.recordAt c r t) 4) :=
  (State.recordWord_eq ha 0 hn).trans (congrArg (fun p => BitVec.ofNat 32 ((s.found c).rdMem c p 4)) (BitVec.add_zero _))

/-- R118: the edge of REDGE and of FEDGE, as the statement names it. -/
theorem edge_rising (w : Word) (x : Bool) : edgeOf true (edgePrev true w x) x =
    (x && !(if w.getLsbD 5 then x else if w.getLsbD 3 then w.getLsbD 0 else if w.getLsbD 4 then false else x)) := by
  unfold edgeOf edgePrev
  cases w.getLsbD 5 <;> cases w.getLsbD 3 <;> cases w.getLsbD 4 <;> rfl

theorem edge_falling (w : Word) (x : Bool) : edgeOf false (edgePrev false w x) x =
    ((if w.getLsbD 5 then x else if w.getLsbD 3 then w.getLsbD 0 else if w.getLsbD 4 then true else x) && !x) := by
  unfold edgeOf edgePrev
  cases w.getLsbD 5 <;> cases w.getLsbD 3 <;> cases w.getLsbD 4 <;> rfl

theorem ble_eq_decide (a b : Nat) : Nat.ble a b = decide (a ≤ b) := Bool.eq_iff_iff.mpr (by rw [Nat.ble_eq, decide_eq_true_iff])

section
variable (w : Word) (start now pt : Nat)

/-- R119: IN and RUN of the record before the evaluation, where first is what IN counts as at first use. -/
def timerIn (first : Bool) : Bool := if w.getLsbD 3 then w.getLsbD 0 else first
def timerRun : Bool := w.getLsbD 3 && w.getLsbD 1
def timerQ : Bool := w.getLsbD 3 && w.getLsbD 2

theorem timerFirst_eq (k : TimerKind) (x : Bool) : timerFirst k w start x =
    { start := start, input := timerIn w (decide (k = .tp) && !w.getLsbD 4 && x), run := timerRun w, q := timerQ w } := by
  unfold timerFirst timerIn timerRun timerQ
  cases w.getLsbD 3 <;> rfl

theorem ton_on : timerEval .ton now pt true (timerFirst .ton w start true) =
    { start := if timerIn w false then start else now, input := true, run := !timerIn w false || timerRun w
      q := decide (pt ≤ now - if timerIn w false then start else now) } := by
  rw [timerFirst_eq]
  unfold timerEval
  rw [show (decide (TimerKind.ton = .tp) && !w.getLsbD 4 && true) = false from rfl]
  cases hin : timerIn w false <;> simp [TimerState.restart, TimerState.timeUp, ble_eq_decide]

theorem ton_off : timerEval .ton now pt false (timerFirst .ton w start false) =
    { start := start, input := false, run := false, q := false } := by
  rw [timerFirst_eq]; rfl

theorem tof_on : timerEval .tof now pt true (timerFirst .tof w start true) =
    { start := start, input := true, run := false, q := true } := by
  rw [timerFirst_eq]; rfl

theorem tof_off : timerEval .tof now pt false (timerFirst .tof w start false) =
    { start := if timerIn w false then now else start, input := false
      run := (timerIn w false || timerRun w) &&
        !((timerIn w false || timerRun w) && decide (pt ≤ now - if timerIn w false then now else start))
      q := timerQ w && !((timerIn w false || timerRun w) && decide (pt ≤ now - if timerIn w false then now else start)) } := by
  rw [timerFirst_eq]
  unfold timerEval
  rw [show (decide (TimerKind.tof = .tp) && !w.getLsbD 4 && false) = false by rw [Bool.and_false]]
  simp only [Bool.false_eq_true, if_false, TimerState.restart, TimerState.timeUp, ble_eq_decide]
  cases timerIn w false <;> cases timerRun w <;> simp <;> split <;> simp_all

theorem tp_any (x : Bool) : timerEval .tp now pt x (timerFirst .tp w start x) =
    (let fires := x && !timerIn w (!w.getLsbD 4 && x) && !timerRun w && decide (0 < pt)
     let f := if fires then now else start
     let runs := fires || timerRun w
     let done := runs && decide (pt ≤ now - f)
     { start := f, input := x, run := runs && !done, q := if runs then !done else timerQ w }) := by
  rw [timerFirst_eq]
  unfold timerEval
  rw [show (decide (TimerKind.tp = .tp) && !w.getLsbD 4 && x) = (!w.getLsbD 4 && x) from rfl,
    show Nat.blt 0 pt = decide (0 < pt) from ble_eq_decide _ _]
  simp only [TimerState.restart, TimerState.timeUp, ble_eq_decide]
  cases hf : x && !timerIn w (!w.getLsbD 4 && x) && !timerRun w && decide (0 < pt) <;> cases timerRun w <;> simp <;>
    split <;> simp_all

end

/-- Settles O14: the record of each instruction is what edgeOf, timerEval and countEdge say. -/
theorem edgeDetectorsTimersCounters : Obligations.EdgeDetectorsTimersCounters := by
  unfold Obligations.EdgeDetectorsTimersCounters
  refine ⟨fun s c r pre t x rest h => ?edges, fun s c r pre t x rest h => ?timers, fun s c r pre t x rest h => ?counters⟩
  case edges =>
    intro b a hx h8 h1 h2 w run prev gives
    have w0 : s.recordWord c r t 0 = w := State.recordWord_zero ⟨h1, h2⟩ (by decide)
    refine ⟨?_, ?_⟩
    · have := edge_stores (i := .opRedge c pre t none) (up := true) rfl h hx ⟨h1, h2⟩ h8
      rw [edge_rising, w0] at this
      exact this
    · have := edge_stores (i := .opFedge c pre t none) (up := false) rfl h hx ⟨h1, h2⟩ h8
      rw [edge_falling, w0] at this
      exact this
  case timers =>
    intro b a hx h16 h1 h2 word w start now pt used in0 run0 q0 gives
    have ha : InData (s.recordAt c r t) 16 := ⟨h1, h2⟩
    have w0 : (s.recordWord c r t 0).toNat = word a := by rw [State.recordWord_zero ha (by decide)]; exact Dev.toNat_rdMem_word ..
    have w4 : (s.recordWord c r t 4).toNat = word (a + 4) := by rw [State.recordWord_eq ha 4 (by decide)]; exact Dev.toNat_rdMem_word ..
    have w8 : s.recordWord c r t 8 = BitVec.ofNat 32 (word (a + 8)) := State.recordWord_eq ha 8 (by decide)
    have w12 : s.recordWord c r t 12 = w := State.recordWord_eq ha 12 (by decide)
    have hend (kind : TimerKind) : s.timerEnd c r t kind x = timerEval kind now pt x (timerFirst kind w start x) := by
      rw [State.timerEnd, w0, w4, w8, w12, Dev.toNat_rdMem_word, Nat.mul_comm (word (a + 4))]; rfl
    have run {i : Instr} {op : Byte} {kind : TimerKind} {n : Nat} {run q : Bool}
        (he : exec i s = s.recordInstr c pre op 6 t (timerBody kind t none))
        (hk : timerEval kind now pt x (timerFirst kind w start x) = { start := n, input := x, run := run, q := q }) :
        gives i n run q := by
      have := timer_stores he h hx ha h16 ((hend kind).trans hk)
      rw [w8, w12] at this
      exact this
    refine ⟨?_, run rfl (tp_any w start now pt x)⟩
    cases x
    · exact ⟨run rfl (ton_off w start now pt), run rfl (tof_off w start now pt)⟩
    · exact ⟨run rfl (ton_on w start now pt), run rfl (tof_on w start now pt)⟩
  case counters =>
    intro b a hx ht h16 h1 h2 word w cv pv counts up down record gives
    have ha : InData (s.recordAt c r t) 16 := ⟨h1, h2⟩
    have w0 : s.recordWord c r t 0 = word a := State.recordWord_zero ha (by decide)
    have w4 : s.recordWord c r t 4 = word (a + 4) := State.recordWord_eq ha 4 (by decide)
    have w8 : s.recordWord c r t 8 = w := State.recordWord_eq ha 8 (by decide)
    refine ⟨?_, ?_, ?_⟩
    · have := counter_stores (i := .opCtu c pre t none) (up := true) rfl h hx ha h16 ht rfl rfl
      rw [w0, w4, w8] at this
      exact this
    · have := counter_stores (i := .opCtd c pre t none) (up := false) rfl h hx ha h16 ht rfl rfl
      rw [w0, w4, w8] at this
      exact this
    · have := reset_stores (i := .opCrst c pre t none) rfl h hx ha h16 ht
      rw [w0, w4, w8] at this
      have hn : BitVec.ofInt 32 (if x then (if w.getLsbD 6 then pv else 0) else cv) =
          if x then (if w.getLsbD 6 then word (a + 4) else 0) else word a := by
        cases x <;> cases w.getLsbD 6 <;> first | exact BitVec.ofInt_toInt | rfl
      rw [← hn] at this
      exact this

end Sys2Proof.Machine
end

section
/-!
PROOFS. Scan cores: loads, stores and locked accesses (R98, R100, R122 to R125), of memory, of NVS and of the CSR window. First
what a register read keeps, and how an instruction that changes the device ends.
-/
namespace Sys2Proof.Machine

/-! ## A register read keeps the cores -/

theorem apart_cores : Apart Dev.cores := by constructor <;> exact fun _ _ => rfl

theorem Dev.setLatches_cores (r : Requester) (off : Nat) (l : List Word) (d : Dev) : (d.setLatches r off l).cores = d.cores := by
  induction l generalizing d off with
  | nil => rfl
  | cons v l ih => exact (ih _ _).trans rfl

/-- A read by a block, where it is one, keeps the cores. -/
def CoresKept (d : Dev) (o : Option (Dev × Word)) : Prop := ∀ x, o = some x → x.1.cores = d.cores

theorem CoresKept.of_none (d : Dev) : CoresKept d none := fun _ h => nomatch h
theorem CoresKept.of_some {d e : Dev} {w : Word} (h : e.cores = d.cores) : CoresKept d (some (e, w)) := by
  rintro _ ⟨⟩; exact h
theorem CoresKept.plain (d : Dev) (w : Word) : CoresKept d (some (d, w)) := CoresKept.of_some rfl
theorem CoresKept.first (d : Dev) (r : Requester) (w : Word) (off : Nat) (l : List Word) :
    CoresKept d (some (d.readFirst r w off l)) := CoresKept.of_some (Dev.setLatches_cores ..)

theorem Apart.setBit {X : Type} {φ : Dev → X} (h : Apart φ) (d : Dev) (off i : Nat) (b : Bool) : φ (d.setBit off i b) = φ d :=
  h.wr _ _ _

theorem Dev.rtcError_keeps {X : Type} (φ : Dev → X) (h : Apart φ) (d : Dev) (t b : Nat) : φ (d.rtcError t b) = φ d :=
  by unfold Dev.rtcError Dev.rtcEvent Dev.raiseFlag; rw [Dev.raise_keeps φ h, h.setBit, h.setBit]

theorem Dev.rtcError_cores (d : Dev) (t b : Nat) : (d.rtcError t b).cores = d.cores :=
  Dev.rtcError_keeps Dev.cores apart_cores d t b

theorem Dev.rtcSync_cores (d : Dev) (t : Nat) : (d.rtcSync t).cores = d.cores := by
  have held (e : Dev) (p : Nat) : (match e.rtc.haltP with
      | some h => if 65536 < p - h ∧ !e.rtc.heldOvf then ({ e with rtc := { e.rtc with heldOvf := true } }).rtcError t 2 else e
      | none => e).cores = e.cores := by
    split
    · split
      · exact (Dev.rtcError_cores ..).trans rfl
      · rfl
    · rfl
  exact (held _ _).trans (by split <;> rfl)

theorem Dev.endFreeze_cores (r : Requester) (t : Nat) (d : Dev) : (d.endFreeze r t).cores = d.cores := by
  unfold Dev.endFreeze
  split
  · split
    · exact Dev.rtcError_cores ..
    · rfl
  · rfl

theorem Dev.queuePop_cores (d : Dev) (r : Requester) (q : Nat) : (d.queuePop r q).1.cores = d.cores := by
  unfold Dev.queuePop
  dsimp only
  split
  · split <;> exact (Dev.setLatches_cores ..).trans rfl
  · exact (Dev.setLatches_cores ..).trans rfl

theorem Dev.rxfPop_cores (d : Dev) (n : Nat) : (d.rxfPop n).2.cores = d.cores := by
  unfold Dev.rxfPop; split <;> rfl

theorem Dev.readRtc_cores (d : Dev) (r : Requester) (t off : Nat) : CoresKept d (d.readRtc r t off) := by
  unfold Dev.readRtc
  split
  · exact CoresKept.of_some ((Dev.rtcSync_cores _ _).trans (Dev.endFreeze_cores _ _ _))
  · repeat' split
    · exact CoresKept.plain _ _
    · exact CoresKept.plain _ _
    · exact CoresKept.of_some (Dev.rtcError_cores ..)
    · exact CoresKept.plain _ _
    · exact CoresKept.of_none _

theorem Dev.readBio_cores (d : Dev) (t off : Nat) : CoresKept d (d.readBio t off) := by
  unfold Dev.readBio
  repeat' split
  · exact CoresKept.of_some (Dev.flushPads_keeps Dev.cores (fun _ _ => rfl) (fun _ _ => rfl) (fun _ _ => rfl) (fun _ _ => rfl)
      (fun _ _ => rfl) _ _)
  · exact CoresKept.plain _ _
  · exact CoresKept.of_none _

theorem Dev.readQue_cores (d : Dev) (r : Requester) (off : Nat) : CoresKept d (d.readQue r off) := by
  unfold Dev.readQue
  repeat' split
  · exact CoresKept.plain _ _
  · exact CoresKept.of_some (Dev.queuePop_cores ..)
  · exact CoresKept.plain _ _
  · exact CoresKept.plain _ _
  · exact CoresKept.of_none _

theorem Dev.readCan_cores (d : Dev) (r : Requester) (n off : Nat) : CoresKept d (d.readCan r n off) := by
  unfold Dev.readCan
  dsimp only
  split
  · exact CoresKept.plain _ _
  · split
    · exact CoresKept.plain _ _
    · repeat' split
      · exact CoresKept.of_some ((Dev.setLatches_cores _ _ _ _).trans (Dev.rxfPop_cores d n))
      · exact CoresKept.plain _ _
      · exact CoresKept.of_none _

/-- The blocks whose reads are computed, or latch the rest of a group. -/
theorem Dev.readSys_cores (d : Dev) (r : Requester) (t off : Nat) : CoresKept d (d.readSys r t off) := by
  unfold Dev.readSys
  (repeat' split) <;> first
    | with_reducible exact CoresKept.plain _ _ | with_reducible exact CoresKept.first _ _ _ _ _ | exact CoresKept.of_none _

theorem Dev.readTsk_cores (d : Dev) (r : Requester) (t off : Nat) : CoresKept d (d.readTsk r t off) := by
  unfold Dev.readTsk
  (repeat' split) <;> first
    | with_reducible exact CoresKept.plain _ _ | with_reducible exact CoresKept.first _ _ _ _ _ | exact CoresKept.of_none _

theorem Dev.readAng_cores (d : Dev) (r : Requester) (t off : Nat) : CoresKept d (d.readAng r t off) := by
  unfold Dev.readAng
  (repeat' split) <;> first
    | with_reducible exact CoresKept.plain _ _ | with_reducible exact CoresKept.first _ _ _ _ _ | exact CoresKept.of_none _

theorem Dev.readFrp_cores (d : Dev) (t off : Nat) : CoresKept d (d.readFrp t off) := by
  unfold Dev.readFrp
  (repeat' split) <;> first | with_reducible exact CoresKept.plain _ _ | exact CoresKept.of_none _

theorem Dev.readXch_cores (d : Dev) (r : Requester) (t off : Nat) : CoresKept d (d.readXch r t off) := by
  unfold Dev.readXch
  (repeat' split) <;> first
    | with_reducible exact CoresKept.plain _ _ | with_reducible exact CoresKept.first _ _ _ _ _ | exact CoresKept.of_none _

theorem Dev.readPtp_cores (d : Dev) (r : Requester) (t off : Nat) : CoresKept d (d.readPtp r t off) := by
  unfold Dev.readPtp
  (repeat' split) <;> first
    | with_reducible exact CoresKept.plain _ _ | with_reducible exact CoresKept.first _ _ _ _ _ | exact CoresKept.of_none _

theorem Dev.readSec_cores (d : Dev) (t off : Nat) : CoresKept d (d.readSec t off) := by
  unfold Dev.readSec
  (repeat' split) <;> first | with_reducible exact CoresKept.plain _ _ | exact CoresKept.of_none _ | (split <;> exact CoresKept.plain _ _)

theorem Dev.readBlock_cores (d : Dev) (r : Requester) (t off : Nat) : CoresKept d (d.readBlock r t off) := by
  unfold Dev.readBlock
  split <;> first
    | apply Dev.readSys_cores | apply Dev.readTsk_cores | apply Dev.readAng_cores | apply Dev.readFrp_cores
    | apply Dev.readXch_cores | apply Dev.readQue_cores | apply Dev.readPtp_cores | apply Dev.readCan_cores
    | apply Dev.readBio_cores | apply Dev.readRtc_cores | apply Dev.readSec_cores

theorem Dev.readReg_cores (d : Dev) (r : Requester) (t off : Nat) : (d.readReg r t off).1.cores = d.cores := by
  unfold Dev.readReg Dev.readUcb Dev.readPlain
  split
  · split
    · split
      · exact Dev.setLatches_cores ..
      · rfl
    · rfl
  · split
    · rfl
    · split
      next x h => exact Dev.readBlock_cores d r t off x h
      · dsimp only
        split
        · split <;> rfl
        · rfl

/-! ## Instructions that change the device -/

section
variable {s : State} {c : Nat} {r : Run} {pre : Fetch} {accept : List PrefixKind}

/-- The end of an instruction that has brought the device to d and leaves bank b at pc. -/
theorem RetiresOn.of_dev (d : Dev) (b : Bank) (pc : Word) :
    RetiresOn s (s.coreEnd c (d.setBank c r.bank { b.land with pc := pc, repLeft := 0, repSkip := false })) c r d b pc := by
  have hfin : ∀ (x : Dev) t e, (x.settleOuts t).settle.core e = x.core e := fun x t e =>
    Dev.core_of_cores (Dev.settled_cores x t) e
  have hbk : ∀ (x : Dev) t e j, (x.settleOuts t).settle.bank e j = x.bank e j := fun x t e j => by
    simp only [Dev.bank, hfin]
  constructor
  case bank => simp [State.coreEnd, hbk]
  case banks => intro j hj; simp only [State.coreEnd, hbk]; exact Dev.bank_setBank_ne _ _ (Or.inr hj)
  case cores => intro e he; simp only [State.coreEnd, hfin]; exact Dev.core_setBank_ne _ _ _ he
  case runs => simp [State.coreEnd, hfin]
  case time => simp [State.coreEnd, hfin]
  case mono => simp [State.coreEnd]
  case pending => rfl
  case mem => exact (Dev.settled_mem _ _).trans rfl
  case aside => exact (Aside.of_setBank _ _ _ _).trans (Aside.settled _ _)

/-- An instruction whose body changes the device to d and the run's bank to b, and goes on in the same run. -/
theorem State.instr_retiresOn {i : Instr} {own : List Byte} {legal : Bool} {cost : Cpu → Nat} {body : Body} {n k : Nat}
    (d : Dev) (b : Bank) (he : exec i s = s.instr c accept pre legal own cost body) (hn : own.length = n)
    (h : Starts s c r accept pre n) (hl : legal = true) (hk : cost (s.cpu0 c r pre n) = k)
    (hy : body (s.cpu c r pre n k) = .ok { s.cpu c r pre n k with dev := d, b := b }) (hc : d.curRun c = some r) :
    ∃ t, exec i s = .next t ∧ RetiresOn s t c r d b (s.after c r pre n) := by
  subst hn hk
  exact ⟨_, he.trans (State.instr_goes h hl hy rfl rfl rfl hc), RetiresOn.of_dev ..⟩

theorem State.found_curRun (h : Starts s c r accept pre n) : (s.found c).curRun c = some r := Dev.curRun_of_execRun h.runs

/-- The instant at which an instruction of k ticks takes effect. -/
theorem State.cpu_t (n k : Nat) : (s.cpu c r pre n k).t = (s.dev.core c).time + k := by
  have h : (s.cpu c r pre n k).t = (((s.found c).charge c r.task k).core c).time := rfl
  rw [h, Dev.charge_core, Core.spend_time, State.found_core]

theorem Dev.curRun_of_cores {d e : Dev} (h : e.cores = d.cores) (c : Nat) : e.curRun c = d.curRun c := by
  rw [Dev.curRun, Dev.curRun, Dev.core_of_cores h]

/-- The run in progress is still there after a change of the device that keeps the cores. -/
theorem Starts.curRun_of_cores {n k : Nat} {d : Dev} (h : Starts s c r accept pre n)
    (hd : d.cores = ((s.found c).charge c r.task k).cores) : d.curRun c = some r :=
  (Dev.curRun_of_cores hd c).trans ((Dev.charge_curRun ..).trans (State.found_curRun h))

end

/-! ## Loads (R100, R122) -/

theorem Dev.rdMem_of_mem {d e : Dev} (h : d.mem = e.mem) (c : Nat) (a : Word) (n : Nat) : d.rdMem c a n = e.rdMem c a n := by
  simp only [Dev.rdMem, h]

/-- R106: the ticks of an access to a region that holds memory. -/
def accessTicks (g : Region) (store : Bool) : Nat := if g = .stand then 4 else if g = .nvs then (if store then 80 else 16) else 1

theorem regionTicks_eq {a : Word} {g : Region} (hg : regionOf a = some g) (hc : g ≠ .csr) (store : Bool) :
    regionTicks a store = accessTicks g store := by
  unfold regionTicks accessTicks
  rw [hg]
  cases g with
  | csr => exact absurd rfl hc
  | nvs => cases store <;> rfl
  | _ => rfl

section
variable {x : Cpu} {m : MAddr} {g : Region}

theorem memCost_eq (hs : x.inSpace m = true) (hg : regionOf (x.ea m) = some g) (hc : g ≠ .csr) (store : Bool) :
    memCost m store x = accessTicks g store := by
  rw [memCost, hs, if_pos rfl, regionTicks_eq hg hc]

/-- R122: the bank after a load of value v of size bytes: the destination waits in the load shadow. -/
def Bank.loaded (b : Bank) (m : MAddr) (toX : Bool) (size : Nat) (v : Word) : Bank :=
  (b.defer toX (if toX then m.reg.toNat % 4 else m.reg.toNat) v).postInc m size

theorem Bank.pc_loaded (b : Bank) (m : MAddr) (toX : Bool) (size : Nat) (v : Word) : (b.loaded m toX size v).pc = b.pc := by
  unfold Bank.loaded Bank.postInc; split <;> rfl

/-- R122: a load that meets no fault, outside the CSR window. -/
theorem loadBody_ok (toX : Bool) {size : Nat} (f : Nat → Word) (hs : x.inSpace m = true) (hg : regionOf (x.ea m) = some g)
    (hc : g ≠ .csr) (hn : g = .nvs → x.dev.nvsReady = true) (ha : (x.ea m).toNat % size = 0) :
    loadBody toX size f m none x = .ok (x.withB (x.b.loaded m toX size (f (x.dev.rdMem x.c (x.ea m) size)))) := by
  have hl : x.load (x.ea m) size true (x.errOf none false) = _ := Cpu.load_ok ha hg hc hn
  simp only [loadBody, hs, hl, bind, Except.bind, pure, Except.pure, Cpu.postInc_eq]
  rfl

end

theorem Dev.flag_of_rd {d e : Dev} {f : Fld} (h : e.rd f.off = d.rd f.off) : e.flag f = d.flag f := by
  rw [Dev.flag, Dev.flag, Dev.fld, Dev.fld, h]

theorem nvsStat_apart (n : Nat) : F.NVS_STAT_READY.off ≠ Reg.TSK_USED n := by
  change Reg.NVS_STAT ≠ Reg.TSK_USED n
  unfold Reg.NVS_STAT Reg.TSK_USED; omega

/-- R364: NVS is as ready as it was, whatever ticks have been charged. -/
theorem Dev.nvsReady_charge (d : Dev) (c n k : Nat) : (d.charge c n k).nvsReady = d.nvsReady :=
  Dev.flag_of_rd (Dev.rd_wr_ne _ _ (nvsStat_apart n))

/-- The banks of an instruction under REP all stand at its address when no repetition moves PC. -/
theorem pc_of_steps {bs : Nat → Bank} {f : Nat → Bank → Bank} {k : Nat} (hf : ∀ j b, (f j b).pc = b.pc)
    (hb : ∀ j, j < k → bs (j + 1) = f j (repBank bs k j)) : ∀ j, j ≤ k → (bs j).pc = (bs 0).pc := by
  intro j
  induction j with
  | zero => intro _; rfl
  | succ j ih =>
    intro hj
    rw [hb j hj, hf]
    cases j with
    | zero => rfl
    | succ j => simp only [repBank, Nat.succ_ne_zero, if_false, Bank.pc_land]; exact ih (Nat.le_of_succ_le hj)

section
variable {s : State} {i : Instr} {c : Nat} {r : Run} {pre : Fetch} {op : Byte} {m : MAddr} {g : Region} {n : Nat}

/-- R100: the core of run r with bank b: what form M computes there. -/
def State.cpuWith (s : State) (c : Nat) (r : Run) (pre : Fetch) (n : Nat) (b : Bank) : Cpu := { s.cpu0 c r pre n with b := b }

/-- R100: with bank b the address lies in its space and in region g. -/
def State.within (s : State) (c : Nat) (r : Run) (pre : Fetch) (n : Nat) (m : MAddr) (g : Region) (b : Bank) : Prop :=
  (s.cpuWith c r pre n b).inSpace m = true ∧ regionOf ((s.cpuWith c r pre n b).ea m) = some g

/-- R122: the bank after a load of size bytes with bank b, f making the word. -/
def State.loadStep (s : State) (c : Nat) (r : Run) (pre : Fetch) (n : Nat) (m : MAddr) (toX : Bool) (size : Nat)
    (f : Nat → Word) (b : Bank) : Bank :=
  b.loaded m toX size (f ((s.found c).rdMem c ((s.cpuWith c r pre n b).ea m) size))

variable {toX : Bool} {size : Nat} {f : Nat → Word} (he : exec i s = s.loadInstr c pre op m (loadBody toX size f m none))
  (hn : n = 1 + (bytesM m).length) (hc : g ≠ .csr) (hv : g = .nvs → (s.found c).nvsReady = true)
include he hn hc hv

theorem load_gives (h : Starts s c r [.space, .rep, .cond] pre n) (hw : s.within c r pre n m g (s.bankOf c r))
    (ha : ((s.cpuWith c r pre n (s.bankOf c r)).ea m).toNat % size = 0) :
    Gives s i c r (accessTicks g false) (s.after c r pre n)
      (fun b' => b' = s.loadStep c r pre n m toX size f (s.bankOf c r)) := by
  refine Gives.of_instr _ _ he (by rw [hn, Nat.add_comm]; rfl) h rfl (memCost_eq hw.1 hw.2 hc false) ?_ rfl
  rw [loadBody_ok (x := s.cpu c r pre n (accessTicks g false)) toX f hw.1 hw.2 hc
    (fun hg => (Dev.nvsReady_charge ..).trans (hv hg)) ha]
  refine congrArg (fun v => Except.ok ((s.cpu c r pre n (accessTicks g false)).withB
    ((s.bankOf c r).loaded m toX size (f v)))) (Dev.charge_rdMem ..)

theorem load_reps {k : Nat} {bs : Nat → Bank} (h : StartsRep s c r [.space, .rep, .cond] pre n k (accessTicks g false))
    (hb : bs 0 = s.bankOf c r)
    (hj : ∀ j, j < k → s.within c r pre n m g (repBank bs k j) ∧
      ((s.cpuWith c r pre n (repBank bs k j)).ea m).toNat % size = 0 ∧
      bs (j + 1) = s.loadStep c r pre n m toX size f (repBank bs k j)) :
    ∃ t, exec i s = .next t ∧ RetiresInRegs s t c r (k * accessTicks g false) (bs k) (s.after c r pre n) := by
  subst hn
  rw [Nat.add_comm] at h hj ⊢
  have hpc := pc_of_steps (fun j b => Bank.pc_loaded b m toX size _) (fun j hjk => (hj j hjk).2.2)
  have hy (j : Nat) (d : Dev) (hjk : j < k)
      (hd : RepAt s c r (accessTicks g false) (fun _ => (s.found c).mem) j d (repBank bs k j)) :
      loadBody toX size f m none (s.repCpu c r pre ((bytesM m).length + 1) (accessTicks g false) k bs d j) =
        .ok { s.repCpu c r pre ((bytesM m).length + 1) (accessTicks g false) k bs d j with
          dev := { d.charge c r.task (accessTicks g false) with mem := (s.found c).mem }, b := bs (j + 1) } := by
    obtain ⟨hw, ha, hs⟩ := hj j hjk
    have hready : g = .nvs → (d.charge c r.task (accessTicks g false)).nvsReady = true := fun hg =>
      (Dev.nvsReady_charge ..).trans ((Dev.flag_of_rd (hd.regs _ (nvsStat_apart _))).trans (hv hg))
    have hmem : (d.charge c r.task (accessTicks g false)).mem = (s.found c).mem := hd.mem
    rw [loadBody_ok (x := s.repCpu c r pre ((bytesM m).length + 1) (accessTicks g false) k bs d j) toX f hw.1 hw.2 hc hready ha, hs,
      ← hmem, State.loadStep, ← Dev.rdMem_of_mem hmem]
    rfl
  obtain ⟨t, h1, h2, h3⟩ := State.instr_reps (own := op :: bytesM m) (legal := true) (cost := memCost m false) h rfl hb rfl
    (fun j hjk => (hpc j hjk).trans (congrArg Bank.pc hb))
    (fun j d hjk _ => by
      refine memCost_eq ?_ ?_ hc false
      · exact (hj j hjk).1.1
      · exact (hj j hjk).1.2) hy
  exact ⟨t, he.trans h1, h2, h3⟩

end

/-- R132: the device after a load from the CSR window by core c's run, its ticks charged, and the word read. -/
abbrev State.csrRead (s : State) (c : Nat) (r : Run) (k : Nat) (a : Word) : Dev × Word :=
  ((s.found c).charge c r.task k).readReg (.core c r.bank) ((s.dev.core c).time + k) (a.toNat - 0x40000000)

theorem memCost_csr {x : Cpu} {m : MAddr} {k : Nat} {a : Word} (hea : x.ea m = a) (hs : x.inSpace m = true)
    (hg : regionOf a = some .csr) (ha : a.toNat % 4 = 0) (hk : csrTicks (a.toNat - 0x40000000) = some k) (h0 : 0 < k)
    (store : Bool) : memCost m store x = k := by
  have ht : regionTicks a store = max 1 ((csrTicks (a.toNat / 4 * 4 - 0x40000000)).getD 1) := by rw [regionTicks, hg]
  rw [memCost, hs, if_pos rfl, hea, ht, Nat.div_mul_cancel (Nat.dvd_of_mod_eq_zero ha), hk]
  exact Nat.max_eq_right h0

/-- R20, R21: an access of a word that the map permits, in the CSR window. -/
theorem Cpu.mayAccess_csr {x : Cpu} {a : Word} {k : Nat} (hg : regionOf a = some .csr) (ha : a.toNat % 4 = 0)
    (hk : csrTicks (a.toNat - 0x40000000) = some k) (h0 : 0 < k) : x.mayAccess a 4 true = .ok () := by
  obtain ⟨k', rfl⟩ := Nat.exists_eq_succ_of_ne_zero (Nat.pos_iff_ne_zero.mp h0)
  simp only [Cpu.mayAccess, orTrap, ha, BEq.rfl, if_true, hg, bind, Except.bind, ne_eq, not_true_eq_false, if_false, hk]

theorem State.csrRead_cores (s : State) (c : Nat) (r : Run) (k : Nat) (a : Word) :
    (s.csrRead c r k a).1.cores = ((s.found c).charge c r.task k).cores := by
  unfold State.csrRead; rw [Dev.readReg_cores]

/-- R132: a load of a word from the CSR window. -/
theorem Cpu.load_csr {x : Cpu} {a : Word} {k : Nat} (hg : regionOf a = some .csr) (ha : a.toNat % 4 = 0)
    (hk : csrTicks (a.toNat - 0x40000000) = some k) (h0 : 0 < k) : x.load a 4 true .clean =
      .ok (x.withDev (x.dev.readReg x.who x.t (a.toNat - 0x40000000)).1,
        (x.dev.readReg x.who x.t (a.toNat - 0x40000000)).2.toNat) := by
  simp only [Cpu.load, Cpu.mayAccess_csr hg ha hk h0, Cpu.meet, bind, Except.bind, pure, Except.pure, hg, if_true]

theorem load_csr {s : State} {i : Instr} {c : Nat} {r : Run} {pre : Fetch} {op : Byte} {m : MAddr} {n k : Nat} {toX : Bool}
    {a : Word} {read : Dev × Word} (he : exec i s = s.loadInstr c pre op m (loadBody toX 4 (BitVec.ofNat 32) m none))
    (hn : n = 1 + (bytesM m).length) (h : Starts s c r [.space, .rep, .cond] pre n)
    (hea : (s.cpuWith c r pre n (s.bankOf c r)).ea m = a) (hread : s.csrRead c r k a = read)
    (hw : s.within c r pre n m .csr (s.bankOf c r)) (ha : a.toNat % 4 = 0)
    (hk : csrTicks (a.toNat - 0x40000000) = some k) (h0 : 0 < k) :
    ∃ t, exec i s = .next t ∧
      RetiresOn s t c r read.1 ((s.bankOf c r).loaded m toX 4 read.2) (s.after c r pre n) := by
  obtain ⟨hs, hr⟩ := hw
  rw [hea] at hr
  have hcost : memCost m false (s.cpu0 c r pre n) = k := memCost_csr hea hs hr ha hk h0 false
  have hcores : read.1.cores = ((s.found c).charge c r.task k).cores := by rw [← hread]; exact State.csrRead_cores s c r k a
  refine State.instr_retiresOn read.1 _ he (by rw [hn, Nat.add_comm]; rfl) h rfl hcost ?_ (h.curRun_of_cores (k := k) hcores)
  have hat (off : Nat) : (s.cpu c r pre n k).dev.readReg (s.cpu c r pre n k).who (s.cpu c r pre n k).t off =
      ((s.found c).charge c r.task k).readReg (.core c r.bank) ((s.dev.core c).time + k) off := by rw [State.cpu_t]; rfl
  have hl := Cpu.load_csr (x := s.cpu c r pre n k) hr ha hk h0
  rw [hat (a.toNat - 0x40000000), ← State.csrRead, hread] at hl
  have hs' : (s.cpu c r pre n k).inSpace m = true := hs
  have hea' : (s.cpu c r pre n k).ea m = a := hea
  have herr : (s.cpu c r pre n k).errOf none false = .clean := rfl
  simp only [loadBody, hs', hea', herr, hl, bind, Except.bind, pure, Except.pure, Cpu.postInc_eq, BitVec.ofNat_toNat,
    BitVec.setWidth_eq]
  rfl

/-- Settles O15: each load is loadBody with its size and its word. -/
theorem loads : Obligations.Loads := by
  unfold Obligations.Loads
  intro s c r pre m g b n ea within v inc late cost gives
  refine ⟨fun hc hv => ?_, fun k h hw hg ha hk h0 => ?_⟩
  · have each {i : Instr} {op : Byte} {size : Nat} {toX : Bool} {f : Nat → Word}
        (he : exec i s = s.loadInstr c pre op m (loadBody toX size f m none)) :
        gives i size toX (if toX then m.reg.toNat % 4 else m.reg.toNat) (fun b => f (v b size)) :=
      ⟨load_gives he rfl hc hv, fun k bs => load_reps he rfl hc hv⟩
    exact ⟨each (f := BitVec.ofNat 32) rfl, each (f := BitVec.ofNat 32) rfl,
      each (f := fun n => (BitVec.ofNat 16 n).signExtend 32) rfl, each (f := BitVec.ofNat 32) rfl,
      each (toX := true) (f := BitVec.ofNat 32) rfl⟩
  · subst hg
    exact ⟨load_csr (i := .opLdw c pre m none) (toX := false) (a := ea b) rfl rfl h rfl rfl hw ha hk h0,
      load_csr (i := .opLdx c pre m none) (toX := true) (a := ea b) rfl rfl h rfl rfl hw ha hk h0⟩

end Sys2Proof.Machine
end

section
/-!
PROOFS. Scan cores: the stores (R100, R122, R123) and the locked accesses (R98, R125).
-/
namespace Sys2Proof.Machine

/-! ## What a store writes (R123) -/

/-- R123: a saturating store of size bytes clips word w. -/
def storeClip (size : Nat) (clips sat : Bool) (w : Word) : Bool := clips && sat && !(inField (sgn w) (8 * size))

/-- R123: the number that a store of size bytes of word w writes. -/
def storeValue (size : Nat) (clips sat : Bool) (w : Word) : Nat :=
  (if storeClip size clips sat w then ofInt32 (saturate (sgn w) (8 * size)) else w).toNat % 2 ^ (8 * size)

theorem storeClip_eq (size : Nat) (sat : Bool) (w : Word) : storeClip size true sat w = (sat && outside (8 * size) w.toInt) := by
  rw [storeClip, Bool.true_and, inField_outside, Bool.not_not, sgn]

theorem toNat_ofInt_mod {n : Nat} (h : n ≤ 32) (z : Int) : (BitVec.ofInt 32 z).toNat % 2 ^ n = (BitVec.ofInt n z).toNat := by
  rw [BitVec.toNat_ofInt, BitVec.toNat_ofInt]
  have hd : ((2 ^ n : Nat) : Int) ∣ ((2 ^ 32 : Nat) : Int) := Int.natCast_dvd_natCast.mpr (Nat.pow_dvd_pow 2 h)
  have hz : (0 : Int) ≤ z % ((2 ^ 32 : Nat) : Int) := Int.emod_nonneg _ (by decide)
  rw [← Int.emod_emod_of_dvd z hd, Int.toNat_emod hz (Int.natCast_nonneg _), Int.toNat_natCast]

/-- R123: a saturating STH or STB writes the word fitted to its size. -/
theorem storeValue_fitted {size : Nat} (h : 8 * size ≤ 32) (sat : Bool) (w : Word) :
    storeValue size true sat w = (fitted (8 * size) sat w.toInt).toNat := by
  rw [← fitTo_fitted, fitTo, storeValue, storeClip, Bool.true_and]
  cases sat
  · rw [Bool.false_and, if_neg Bool.false_ne_true, if_neg Bool.false_ne_true, ← toNat_ofInt_mod h, BitVec.ofInt_toInt]
  · rw [Bool.true_and, if_pos rfl, ← toNat_ofInt_mod h]
    by_cases hf : inField (sgn w) (8 * size) = true
    · have hs : saturate w.toInt (8 * size) = w.toInt := by
        obtain ⟨h1, h2⟩ := Bool.and_eq_true_iff.mp hf
        have h1 : minOf (8 * size) ≤ w.toInt := of_decide_eq_true h1
        have h2 : w.toInt ≤ maxOf (8 * size) := of_decide_eq_true h2
        rw [saturate, if_neg (Int.not_lt.mpr h1), if_neg (Int.not_lt.mpr h2)]
      rw [hf, Bool.not_true, if_neg Bool.false_ne_true, hs, BitVec.ofInt_toInt]
    · rw [Bool.eq_false_iff.mpr hf]; rfl

theorem storeValue_lt (size : Nat) (clips sat : Bool) (w : Word) : storeValue size clips sat w < 256 ^ size := by
  have h : 256 ^ size = 2 ^ (8 * size) := by rw [Nat.pow_mul]
  rw [h]; exact Nat.mod_lt _ (Nat.two_pow_pos _)

theorem storeValue_word (sat : Bool) (w : Word) : storeValue 4 false sat w = w.toNat := Nat.mod_eq_of_lt w.isLt

/-- R123: the bank after a store of size bytes. -/
def Bank.stored (b : Bank) (m : MAddr) (size : Nat) (clip : Bool) : Bank := (b.stick flSat clip).postInc m size

theorem Bank.pc_stored (b : Bank) (m : MAddr) (size : Nat) (clip : Bool) : (b.stored m size clip).pc = b.pc := by
  unfold Bank.stored Bank.postInc Bank.stick
  split <;> split <;> rfl

section
variable {x : Cpu} {m : MAddr} {g : Region} {size : Nat} {clips : Bool}

/-- A store that changes the device to d. -/
theorem storeBody_ok {d : Dev} {a : Word} (hea : x.ea m = a) (hs : x.inSpace m = true)
    (h : x.store a size true (storeValue size clips x.sat (x.b.getW m.reg.toNat)) = .ok (x.withDev d)) :
    storeBody size clips m x =
      .ok ((x.withDev d).withB (x.b.stored m size (storeClip size clips x.sat (x.b.getW m.reg.toNat)))) := by
  rw [storeValue, storeClip] at h
  simp only [storeBody, hs, hea, h, bind, Except.bind, pure, Except.pure, Cpu.postInc_eq]
  rfl

/-- R351: the regions whose stores meet no fault. -/
def Storable (d : Dev) (g : Region) (a : Word) : Prop := g = .data ∨ g = .shadow ∨ (g = .stand ∧ d.ownPartition a = true)

theorem Storable.ne_csr {d : Dev} {a : Word} (h : Storable d g a) : g ≠ .csr := by
  rcases h with rfl | rfl | ⟨rfl, -⟩ <;> decide

theorem Storable.of_own {d e : Dev} {a : Word} (h : Storable d g a) (he : e.ownPartition a = d.ownPartition a) : Storable e g a := by
  unfold Storable; rw [he]; exact h

theorem Storable.ticks {d : Dev} {a : Word} (h : Storable d g a) : accessTicks g true = if g = .stand then 4 else 1 := by
  rcases h with rfl | rfl | ⟨rfl, -⟩ <;> rfl

theorem Cpu.store_mem {a : Word} {v : Nat} (ha : a.toNat % size = 0) (hg : regionOf a = some g) (ho : Storable x.dev g a) :
    x.store a size true v = .ok (x.withDev (x.dev.wrMem x.c a size v)) := by
  rcases ho with rfl | rfl | ⟨rfl, ho⟩
  · exact Cpu.store_ok ha (.inl hg)
  · exact Cpu.store_ok ha (.inr hg)
  · simp only [Cpu.store, Cpu.mayAccess, orTrap, ha, BEq.rfl, if_true, hg, ho, bind, Except.bind]

theorem Cpu.store_nvs {a : Word} {v : Nat} (ha : a.toNat % size = 0) (hg : regionOf a = some .nvs) (hn : x.dev.nvsReady = true) :
    x.store a size true v = .ok (x.withDev (x.dev.coreNvsStore x.t (a.toNat - 0x50000000) size v)) := by
  simp only [Cpu.store, Cpu.mayAccess, orTrap, ha, BEq.rfl, if_true, hg, hn, bind, Except.bind]

theorem Cpu.store_csr {a : Word} {v k : Nat} (ha : a.toNat % 4 = 0) (hg : regionOf a = some .csr)
    (hk : csrTicks (a.toNat - 0x40000000) = some k) (h0 : 0 < k) : x.store a 4 true v =
      .ok (x.withDev (x.dev.writeReg x.who x.t (a.toNat - 0x40000000) (BitVec.ofNat 32 v))) := by
  simp only [Cpu.store, Cpu.mayAccess_csr hg ha hk h0, hg, bind, Except.bind]

end

/-- An aligned access that begins in a region of memory ends in it. -/
theorem aligned_ends {a size top : Nat} (ha : a % size = 0) (ht : top % size = 0) (h : a < top) : a + size ≤ top := by
  obtain ⟨p, rfl⟩ := Nat.dvd_of_mod_eq_zero ha
  obtain ⟨q, rfl⟩ := Nat.dvd_of_mod_eq_zero ht
  have : p < q := Nat.lt_of_mul_lt_mul_left h
  calc size * p + size = size * (p + 1) := (Nat.mul_succ _ _).symm
    _ ≤ size * q := Nat.mul_le_mul_left _ this

theorem Storable.stored {d e : Dev} {g : Region} {a : Word} {size v : Nat} (h : Storable e g a) (hg : regionOf a = some g)
    (ha : a.toNat % size = 0) (hz : size = 1 ∨ size = 2 ∨ size = 4) (hv : v < 256 ^ size) (c : Nat) :
    Stored d (d.wrMem c a size v) c a size v := by
  refine Stored.of_wrMem d c a hv ?_
  rcases h with rfl | rfl | ⟨rfl, -⟩
  · exact .inl ⟨hg, aligned_ends ha (by rcases hz with rfl | rfl | rfl <;> rfl) (regionOf_data hg).2⟩
  · exact .inr (.inl ⟨hg, aligned_ends ha (by rcases hz with rfl | rfl | rfl <;> rfl) (regionOf_shadow hg).2⟩)
  · exact .inr (.inr ⟨hg, aligned_ends ha (by rcases hz with rfl | rfl | rfl <;> rfl) (regionOf_stand hg).2⟩)

theorem straps_apart (n : Nat) : F.SYS_STRAPS_POS.off ≠ Reg.TSK_USED n := by
  change Reg.SYS_STRAPS ≠ Reg.TSK_USED n
  unfold Reg.SYS_STRAPS Reg.TSK_USED; omega

theorem Dev.ownPartition_of_rd {d e : Dev} (h : e.rd F.SYS_STRAPS_POS.off = d.rd F.SYS_STRAPS_POS.off) (a : Word) :
    e.ownPartition a = d.ownPartition a := by
  rw [Dev.ownPartition, Dev.ownPartition, Dev.ownPos, Dev.ownPos, Dev.fld, Dev.fld, h]

theorem Dev.ownPartition_charge (d : Dev) (c n k : Nat) (a : Word) : (d.charge c n k).ownPartition a = d.ownPartition a :=
  Dev.ownPartition_of_rd (Dev.rd_wr_ne _ _ (straps_apart n)) a

theorem Dev.wrMem_of_mem {d e : Dev} (h : d.mem = e.mem) (c : Nat) (a : Word) (n v : Nat) :
    (d.wrMem c a n v).mem = (e.wrMem c a n v).mem := by
  unfold Dev.wrMem; split <;> simp only [h]

/-! ## Stores as instructions (R122) -/

section
variable {s : State} {i : Instr} {c : Nat} {r : Run} {pre : Fetch} {op : Byte} {m : MAddr} {g : Region} {n size : Nat} {clips : Bool}

/-- R95, R123: whether the instruction clips in bank b, the number that it stores, and the bank after it. -/
def Bank.clip (b : Bank) (pre : Fetch) (m : MAddr) (size : Nat) (clips : Bool) : Bool :=
  storeClip size clips ((modsOf pre).sat || b.flag flSd) (b.getW m.reg.toNat)
def Bank.storeNat (b : Bank) (pre : Fetch) (m : MAddr) (size : Nat) (clips : Bool) : Nat :=
  storeValue size clips ((modsOf pre).sat || b.flag flSd) (b.getW m.reg.toNat)
def Bank.afterStore (b : Bank) (pre : Fetch) (m : MAddr) (size : Nat) (clips : Bool) : Bank :=
  b.stored m size (b.clip pre m size clips)

theorem store_stores (he : exec i s = s.storeInstr c pre op m (storeBody size clips m)) (hn : n = 1 + (bytesM m).length)
    (hz : size = 1 ∨ size = 2 ∨ size = 4) (h : Starts s c r [.sat, .space, .rep, .cond] pre n)
    (hw : s.within c r pre n m g (s.bankOf c r)) (ho : Storable (s.found c) g ((s.cpuWith c r pre n (s.bankOf c r)).ea m))
    (ha : ((s.cpuWith c r pre n (s.bankOf c r)).ea m).toNat % size = 0) :
    ∃ t, exec i s = .next t ∧ RetiresStoring s t c r (accessTicks g true) ((s.bankOf c r).afterStore pre m size clips)
      (s.after c r pre n) ((s.cpuWith c r pre n (s.bankOf c r)).ea m) size ((s.bankOf c r).storeNat pre m size clips) := by
  have ho' : Storable (s.cpu c r pre n (accessTicks g true)).dev g ((s.cpuWith c r pre n (s.bankOf c r)).ea m) :=
    ho.of_own (Dev.ownPartition_charge ..)
  exact State.instr_stores _ he (by rw [hn, Nat.add_comm]; rfl) h rfl (memCost_eq hw.1 hw.2 ho.ne_csr true)
    (storeBody_ok (x := s.cpu c r pre n (accessTicks g true)) rfl hw.1 (Cpu.store_mem ha hw.2 ho'))
    (ho.stored hw.2 ha hz (storeValue_lt ..) c)

/-- R96: the devices after each repetition of a store, but for what is charged. -/
def State.storeDevs (s : State) (c : Nat) (r : Run) (pre : Fetch) (n : Nat) (m : MAddr) (size : Nat) (clips : Bool)
    (bs : Nat → Bank) (k : Nat) : Nat → Dev
  | 0 => s.found c
  | j + 1 => (s.storeDevs c r pre n m size clips bs k j).wrMem c ((s.cpuWith c r pre n (repBank bs k j)).ea m) size
      ((repBank bs k j).storeNat pre m size clips)

theorem store_reps (he : exec i s = s.storeInstr c pre op m (storeBody size clips m)) (hn : n = 1 + (bytesM m).length)
    (hz : size = 1 ∨ size = 2 ∨ size = 4) {k ticks : Nat} {bs : Nat → Bank}
    (h : StartsRep s c r [.sat, .space, .rep, .cond] pre n k ticks) (hb : bs 0 = s.bankOf c r)
    (ht : ∀ a, Storable (s.found c) g a → ticks = accessTicks g true)
    (hj : ∀ j, j < k → s.within c r pre n m g (repBank bs k j) ∧
      Storable (s.found c) g ((s.cpuWith c r pre n (repBank bs k j)).ea m) ∧
      ((s.cpuWith c r pre n (repBank bs k j)).ea m).toNat % size = 0 ∧
      bs (j + 1) = (repBank bs k j).afterStore pre m size clips) :
    ∃ (t : State) (ds : Nat → Dev), exec i s = .next t ∧ ds 0 = s.found c ∧
      (∀ j, j < k → Stored (ds j) (ds (j + 1)) c ((s.cpuWith c r pre n (repBank bs k j)).ea m) size
        ((repBank bs k j).storeNat pre m size clips)) ∧
      Retires s t c r (k * ticks) (bs k) (s.after c r pre n) ∧ t.dev.mem = (ds k).mem := by
  subst hn
  rw [Nat.add_comm] at h hj ⊢
  let ds := s.storeDevs c r pre ((bytesM m).length + 1) m size clips bs k
  have hpc := pc_of_steps (fun j b => Bank.pc_stored b m size _) (fun j hjk => (hj j hjk).2.2.2)
  have hy (j : Nat) (d : Dev) (hjk : j < k) (hd : RepAt s c r ticks (fun j => (ds j).mem) j d (repBank bs k j)) :
      storeBody size clips m (s.repCpu c r pre ((bytesM m).length + 1) ticks k bs d j) =
        .ok { s.repCpu c r pre ((bytesM m).length + 1) ticks k bs d j with
          dev := { d.charge c r.task ticks with mem := (ds (j + 1)).mem }, b := bs (j + 1) } := by
    obtain ⟨hw, ho, ha, hs⟩ := hj j hjk
    have hmem : (d.charge c r.task ticks).mem = (ds j).mem := hd.mem
    have ho' : Storable (s.repCpu c r pre ((bytesM m).length + 1) ticks k bs d j).dev g
        ((s.cpuWith c r pre ((bytesM m).length + 1) (repBank bs k j)).ea m) :=
      ho.of_own ((Dev.ownPartition_charge ..).trans (Dev.ownPartition_of_rd (hd.regs _ (straps_apart _)) _))
    have hwr : (d.charge c r.task ticks).wrMem c ((s.cpuWith c r pre ((bytesM m).length + 1) (repBank bs k j)).ea m) size
        ((repBank bs k j).storeNat pre m size clips) = { d.charge c r.task ticks with mem := (ds (j + 1)).mem } := by
      rw [Dev.wrMem_eq, Dev.wrMem_of_mem hmem]; rfl
    have hst := (Cpu.store_mem (v := (repBank bs k j).storeNat pre m size clips) ha hw.2 ho').trans
      (congrArg (fun e => Except.ok (Cpu.withDev (s.repCpu c r pre ((bytesM m).length + 1) ticks k bs d j) e)) hwr)
    rw [storeBody_ok (x := s.repCpu c r pre ((bytesM m).length + 1) ticks k bs d j) rfl hw.1 hst, hs]
    rfl
  obtain ⟨t, h1, h2, h3⟩ := State.instr_reps (own := op :: bytesM m) (legal := true) (cost := memCost m true)
    (ms := fun j => (ds j).mem) h rfl hb rfl (fun j hjk => (hpc j hjk).trans (congrArg Bank.pc hb))
    (fun j d hjk _ => by
      rw [ht _ (hj j hjk).2.1]
      refine memCost_eq ?_ ?_ (hj j hjk).2.1.ne_csr true
      · exact (hj j hjk).1.1
      · exact (hj j hjk).1.2) hy
  exact ⟨t, ds, he.trans h1, rfl, fun j hjk => (hj j hjk).2.1.stored (hj j hjk).1.2 (hj j hjk).2.2.1 hz (storeValue_lt ..) c,
    h2, h3⟩

/-- R362: the device after a store to NVS at time t. -/
theorem Dev.coreNvsStore_cores (d : Dev) (t off k v : Nat) : (d.coreNvsStore t off k v).cores = d.cores := by
  unfold Dev.coreNvsStore
  split
  · unfold Dev.nvsRefuse Dev.nvsEvent Dev.raiseFlag
    exact (Dev.raise_keeps Dev.cores apart_cores _ _ _).trans rfl
  · rfl

theorem store_nvs (he : exec i s = s.storeInstr c pre op m (storeBody size clips m)) (hn : n = 1 + (bytesM m).length)
    {a : Word} {d : Dev} (hea : (s.cpuWith c r pre n (s.bankOf c r)).ea m = a)
    (hd : ((s.found c).charge c r.task 80).coreNvsStore ((s.dev.core c).time + 80) (a.toNat - 0x50000000) size
      ((s.bankOf c r).storeNat pre m size clips) = d)
    (h : Starts s c r [.sat, .space, .rep, .cond] pre n) (hw : s.within c r pre n m .nvs (s.bankOf c r))
    (hv : (s.found c).nvsReady = true) (ha : a.toNat % size = 0) :
    ∃ t, exec i s = .next t ∧ RetiresOn s t c r d ((s.bankOf c r).afterStore pre m size clips) (s.after c r pre n) := by
  obtain ⟨hs, hr⟩ := hw
  have hcost : memCost m true (s.cpu0 c r pre n) = 80 := memCost_eq hs hr (by decide) true
  rw [hea] at hr
  have hcores : d.cores = ((s.found c).charge c r.task 80).cores := hd ▸ Dev.coreNvsStore_cores ..
  have hst := Cpu.store_nvs (x := s.cpu c r pre n 80) (v := (s.bankOf c r).storeNat pre m size clips) ha hr
    ((Dev.nvsReady_charge ..).trans hv)
  rw [State.cpu_t, show (s.cpu c r pre n 80).dev = (s.found c).charge c r.task 80 from rfl, hd] at hst
  exact State.instr_retiresOn d _ he (by rw [hn, Nat.add_comm]; rfl) h rfl hcost
    (storeBody_ok (x := s.cpu c r pre n 80) hea hs hst) (h.curRun_of_cores (k := 80) hcores)

theorem store_csr (he : exec i s = s.storeInstr c pre op m (storeBody 4 false m)) (hn : n = 1 + (bytesM m).length)
    {a : Word} {d : Dev} {k : Nat} (hea : (s.cpuWith c r pre n (s.bankOf c r)).ea m = a)
    (hd : ((s.found c).charge c r.task k).writeReg (.core c r.bank) ((s.dev.core c).time + k) (a.toNat - 0x40000000)
      ((s.bankOf c r).getW m.reg.toNat) = d)
    (h : Starts s c r [.sat, .space, .rep, .cond] pre n) (hw : s.within c r pre n m .csr (s.bankOf c r)) (ha : a.toNat % 4 = 0)
    (hk : csrTicks (a.toNat - 0x40000000) = some k) (h0 : 0 < k) (hc : d.curRun c = some r) :
    ∃ t, exec i s = .next t ∧ RetiresOn s t c r d ((s.bankOf c r).stored m 4 false) (s.after c r pre n) := by
  obtain ⟨hs, hr⟩ := hw
  rw [hea] at hr
  have hcost : memCost m true (s.cpu0 c r pre n) = k := memCost_csr hea hs hr ha hk h0 true
  have hat (off : Nat) (v : Word) : (s.cpu c r pre n k).dev.writeReg (s.cpu c r pre n k).who (s.cpu c r pre n k).t off v =
      ((s.found c).charge c r.task k).writeReg (.core c r.bank) ((s.dev.core c).time + k) off v := by rw [State.cpu_t]; rfl
  have hst := Cpu.store_csr (x := s.cpu c r pre n k) (v := (s.bankOf c r).storeNat pre m 4 false) ha hr hk h0
  rw [hat (a.toNat - 0x40000000), Bank.storeNat, storeValue_word, BitVec.ofNat_toNat, BitVec.setWidth_eq, hd,
    ← storeValue_word ((modsOf pre).sat || (s.bankOf c r).flag flSd)] at hst
  exact State.instr_retiresOn d _ he (by rw [hn, Nat.add_comm]; rfl) h rfl hcost
    (storeBody_ok (x := s.cpu c r pre n k) hea hs hst) hc

end

/-- Settles O16: each store is storeBody with its size. -/
theorem stores : Obligations.Stores := by
  unfold Obligations.Stores
  intro s c r pre m g b n ea within own w sat next cost d end_ gives
  have each {i : Instr} {op : Byte} {size : Nat} {clips : Bool} {v : Bank → Nat} {clip : Bank → Bool}
      (he : exec i s = s.storeInstr c pre op m (storeBody size clips m)) (hz : size = 1 ∨ size = 2 ∨ size = 4)
      (hv : ∀ b : Bank, b.storeNat pre m size clips = v b) (hc : ∀ b : Bank, b.clip pre m size clips = clip b) :
      gives i size v clip := by
    have hafter (b : Bank) : b.afterStore pre m size clips = next b (clip b) size := by rw [Bank.afterStore, hc]; rfl
    refine ⟨fun h hw ho ha => ?_, fun k bs h hb hj => ?_, fun h hw hg hr ha => ?_⟩
    · have := store_stores he rfl hz h hw ho ha
      rw [hafter, hv, Storable.ticks ho] at this
      exact this
    · have := store_reps he rfl hz h hb (fun a ho => (Storable.ticks ho).symm)
        (fun j hjk => by rw [hafter]; exact hj j hjk)
      simp only [hv] at this
      exact this
    · subst hg
      have := store_nvs he rfl (a := ea b) rfl rfl h hw hr ha
      rw [hafter, hv, Dev.coreNvsStore] at this
      exact this
  refine ⟨each rfl (by decide) (fun b => storeValue_word _ _) (fun _ => rfl),
    each rfl (by decide) (fun b => storeValue_fitted (by decide) _ _) (fun b => storeClip_eq ..),
    each rfl (by decide) (fun b => storeValue_fitted (by decide) _ _) (fun b => storeClip_eq ..),
    fun k h hw hg ha hk h0 hc => ?_⟩
  subst hg
  exact store_csr (i := .opStw c pre m) rfl rfl (a := ea b) rfl rfl h hw ha hk h0 hc

end Sys2Proof.Machine
end

section
/-!
PROOFS. Scan cores: the locked accesses (R98, R125).
-/
namespace Sys2Proof.Machine

section
variable {x : Cpu} {m : MAddr} {g : Region} {a : Word}

/-- R100: an offset in its space gives an address in the region of the space. -/
theorem regionOf_retained {w : Word} (h : w.toNat < 0x100000) : regionOf (BitVec.ofNat 32 0x50000000 + w) = some .nvs := by
  have ha : (BitVec.ofNat 32 0x50000000 + w).toNat = 0x50000000 + w.toNat := by
    rw [BitVec.toNat_add, BitVec.toNat_ofNat]; omega
  unfold regionOf
  simp only [ha]
  rw [if_neg (by omega), if_neg (by omega), if_neg (by omega), if_neg (by omega), if_pos (by omega)]

theorem regionOf_shared {w : Word} (h : w.toNat < 0x40000) : regionOf (BitVec.ofNat 32 0x60000000 + w) = some .stand := by
  have ha : (BitVec.ofNat 32 0x60000000 + w).toNat = 0x60000000 + w.toNat := by
    rw [BitVec.toNat_add, BitVec.toNat_ofNat]; omega
  unfold regionOf
  simp only [ha]
  rw [if_neg (by omega), if_neg (by omega), if_neg (by omega), if_neg (by omega), if_neg (by omega), if_pos (by omega)]

theorem Cpu.region_retained (hk : x.m.space = some 2) (hs : x.inSpace m = true) : regionOf (x.ea m) = some .nvs := by
  rw [Cpu.inSpace, hk] at hs
  rw [Cpu.ea, hk]
  exact regionOf_retained (Nat.le_of_ble_eq_true hs)

theorem Cpu.region_shared (hk : x.m.space = some 3) (hs : x.inSpace m = true) : regionOf (x.ea m) = some .stand := by
  rw [Cpu.inSpace, hk] at hs
  rw [Cpu.ea, hk]
  exact regionOf_shared (Nat.le_of_ble_eq_true hs)

/-- R98: where a locked access meets no fault. -/
structure LockHere (x : Cpu) (g : Region) (a : Word) : Prop where
  region : regionOf a = some g
  aligned : a.toNat % 4 = 0
  named : (x.m.space.isSome || g == .data) = true
  notCsr : g ≠ .csr
  own : (g != .stand || x.dev.ownPartition a) = true
  ready : g = .nvs → x.dev.nvsReady = true

/-- R125: the bank after a locked access that has read old. -/
def Bank.locked (b : Bank) (m : MAddr) (old : Word) : Bank := (b.defer false m.reg.toNat old).postInc m 4

/-- R98, R125: a locked access whose store changes the device to d. -/
theorem lockBody_ok {f : Word → Word → Word} {d : Dev} (hea : x.ea m = a) (hs : x.inSpace m = true) (h : LockHere x g a)
    (hst : x.store a 4 true (f (BitVec.ofNat 32 (x.dev.rdMem x.c a 4)) (x.b.getW m.reg.toNat)).toNat = .ok (x.withDev d)) :
    lockBody f m none x = .ok ((x.withDev d).withB (x.b.locked m (BitVec.ofNat 32 (x.dev.rdMem x.c a 4)))) := by
  have hl : x.load a 4 true .clean = _ := Cpu.load_ok h.aligned h.region h.notCsr h.ready
  have h1 : (x.m.space.isSome || regionOf a == some .data) = true := by rw [h.region]; exact h.named
  have h2 : (regionOf a != some .stand || x.dev.ownPartition a) = true := by rw [h.region]; exact h.own
  have he : x.errOf none false = .clean := rfl
  simp only [lockBody, hea, orTrap, h.aligned, BEq.rfl, if_true, h1, hs, h2, he, hl, hst, bind, Except.bind, pure, Except.pure,
    Cpu.postInc_eq]
  rfl

end

section
variable {s : State} {i : Instr} {c : Nat} {r : Run} {pre : Fetch} {own : List Byte} {m : MAddr} {g : Region} {n k : Nat}
  {f : Word → Word → Word} {a : Word} {old v : Word}
  (he : exec i s = s.instr c [.lock, .space, .cond] pre (lockLegal pre) own lockCost (lockBody f m none))
  (hn : own.length = n) (h : Starts s c r [.lock, .space, .cond] pre n) (hl : lockLegal pre = true)
  (hk : lockCost (s.cpu0 c r pre n) = k) (hea : (s.cpu0 c r pre n).ea m = a) (hs : (s.cpu0 c r pre n).inSpace m = true)
  (hh : LockHere (s.cpu c r pre n k) g a) (hold : BitVec.ofNat 32 ((s.found c).rdMem c a 4) = old)
  (hv : f old ((s.bankOf c r).getW m.reg.toNat) = v)
include he hn h hl hk hea hs hh hold hv

theorem lock_stores (ho : Storable (s.found c) g a) :
    ∃ t, exec i s = .next t ∧ RetiresStoring s t c r k ((s.bankOf c r).locked m old) (s.after c r pre n) a 4 v.toNat := by
  subst hold hv
  have hrd : (s.cpu c r pre n k).dev.rdMem (s.cpu c r pre n k).c a 4 = (s.found c).rdMem c a 4 := Dev.charge_rdMem ..
  have hst := Cpu.store_mem (x := s.cpu c r pre n k) (v := (f (BitVec.ofNat 32 ((s.found c).rdMem c a 4))
    ((s.bankOf c r).getW m.reg.toNat)).toNat) hh.aligned hh.region (ho.of_own (Dev.ownPartition_charge ..))
  rw [← hrd] at hst
  have hy := lockBody_ok (x := s.cpu c r pre n k) hea hs hh hst
  rw [hrd] at hy
  exact State.instr_stores _ he hn h hl hk hy (ho.stored hh.region hh.aligned (by decide) (BitVec.isLt _) c)

theorem lock_nvs {d : Dev} (hg : g = .nvs) (hd : ((s.found c).charge c r.task k).coreNvsStore ((s.dev.core c).time + k)
      (a.toNat - 0x50000000) 4 v.toNat = d) :
    ∃ t, exec i s = .next t ∧ RetiresOn s t c r d ((s.bankOf c r).locked m old) (s.after c r pre n) := by
  subst hg hold hv
  have hrd : (s.cpu c r pre n k).dev.rdMem (s.cpu c r pre n k).c a 4 = (s.found c).rdMem c a 4 := Dev.charge_rdMem ..
  have hcores : d.cores = ((s.found c).charge c r.task k).cores := hd ▸ Dev.coreNvsStore_cores ..
  have hst := Cpu.store_nvs (x := s.cpu c r pre n k) (v := (f (BitVec.ofNat 32 ((s.found c).rdMem c a 4))
    ((s.bankOf c r).getW m.reg.toNat)).toNat) hh.aligned hh.region (hh.ready rfl)
  rw [State.cpu_t, show (s.cpu c r pre n k).dev = (s.found c).charge c r.task k from rfl, hd, ← hrd] at hst
  have hy := lockBody_ok (x := s.cpu c r pre n k) hea hs hh hst
  rw [hrd] at hy
  exact State.instr_retiresOn d _ he hn h hl hk hy (h.curRun_of_cores (k := k) hcores)

end

/-- Settles O17: the access is lockBody in the region that its space names. -/
theorem lockedAccess : Obligations.LockedAccess := by
  unfold Obligations.LockedAccess
  intro s c r pre m b n x a w old inc left h hlock hs ha gives
  have legal (hk : (modsOf pre).space = none ∨ (modsOf pre).space = some 2 ∨ (modsOf pre).space = some 3) :
      lockLegal pre = true := by
    unfold lockLegal; rcases hk with hk | hk | hk <;> rw [hk, hlock] <;> rfl
  have each {i : Instr} {own : List Byte} {f : Word → Word → Word} {v : Word}
      (he : exec i s = s.instr c [.lock, .space, .cond] pre (lockLegal pre) own lockCost (lockBody f m none))
      (hn : own.length = n) (hv : f old w = v) : gives i v := by
    refine ⟨fun hk => ?_, fun hk hr => ?_⟩
    · rcases hk with ⟨hk, hg⟩ | ⟨hk, ho⟩
      · rw [if_pos hk]
        have hc : lockCost (s.cpu0 c r pre n) = 2 := by rw [lockCost, show (s.cpu0 c r pre n).m.space = none from hk]
        exact lock_stores he hn h (legal (.inl hk)) hc rfl hs ⟨hg, ha, Bool.or_true _, by decide, rfl, fun h => nomatch h⟩
          rfl hv (.inl rfl)
      · rw [if_neg (by rw [hk]; exact fun h => nomatch h)]
        have hc : lockCost (s.cpu0 c r pre n) = 8 := by rw [lockCost, show (s.cpu0 c r pre n).m.space = some 3 from hk]; rfl
        have hname : ((modsOf pre).space.isSome || Region.stand == .data) = true := by rw [hk]; rfl
        exact lock_stores he hn h (legal (.inr (.inr hk))) hc rfl hs ⟨Cpu.region_shared hk hs, ha, hname, by decide,
          (Bool.false_or _).trans ((Dev.ownPartition_charge ..).trans ho), fun h => nomatch h⟩ rfl hv (.inr (.inr ⟨rfl, ho⟩))
    · have hc : lockCost (s.cpu0 c r pre n) = 96 := by rw [lockCost, show (s.cpu0 c r pre n).m.space = some 2 from hk]; rfl
      have hname : ((modsOf pre).space.isSome || Region.nvs == .data) = true := by rw [hk]; rfl
      have := lock_nvs (a := a) (old := old) (v := v) (k := 96) he hn h (legal (.inr (.inl hk))) hc rfl hs
        ⟨Cpu.region_retained hk hs, ha, hname, by decide, rfl, fun _ => (Dev.nvsReady_charge ..).trans hr⟩ rfl hv rfl rfl
      rw [Dev.coreNvsStore] at this
      exact this
  have hn (a b : Byte) : ([a, b] ++ bytesM m).length = n := List.length_append
  exact ⟨each (f := fun _ w => w) rfl (hn _ _) rfl,
    each (f := fun old w => old + w) rfl (hn _ _) rfl⟩

end Sys2Proof.Machine
end

section
/-!
PROOFS. Scan cores: the load shadow, the conditions and the rounding function (R89, R97, R104, R138).
-/
namespace Sys2Proof.Machine

/-- R104: the end of an instruction with a load shadow of one write. -/
theorem Bank.land_waits {b : Bank} {p : ShadowWrite} (h : b.shadow = [p]) (hp : 1 < p.left) :
    b.land = { b with shadow := [{ p with left := p.left - 1 }] } := by
  have h1 : Nat.ble p.left 1 = false := by rw [ble_eq_decide]; simpa using hp
  have h2 : Nat.blt 1 p.left = true := Nat.ble_eq_true_of_le hp
  simp [Bank.land, h, h1, h2]

theorem Bank.land_due {b : Bank} {p : ShadowWrite} (h : b.shadow = [p]) (hp : p.left = 1) :
    b.land = { b.deferred p with shadow := [] } := by
  have h1 : Nat.ble p.left 1 = true := by rw [hp]; rfl
  have h2 : Nat.blt 1 p.left = false := by rw [hp]; rfl
  simp [Bank.land, h, h1, h2]

theorem Bank.getW_deferred (b : Bank) (p : ShadowWrite) (k : Nat) :
    (b.deferred p).getW k = if p.toX = false ∧ k = p.reg then p.value else b.getW k := by
  cases h : p.toX <;> simp [Bank.deferred, h, Bank.getW_setW]
  rfl

theorem Bank.getX_deferred (b : Bank) (p : ShadowWrite) (k : Nat) :
    (b.deferred p).getX k = if p.toX = true ∧ k = p.reg then p.value else b.getX k := by
  cases h : p.toX <;> simp [Bank.deferred, h, Bank.getX_setX]
  rfl

/-- R104: the three ends that a deferred write lives through. -/
theorem Bank.defer_lands (b b1 b2 : Bank) (toX : Bool) (reg : Nat) (v : Word) (h : b.shadow = []) :
    let b0 := (b.defer toX reg v).land
    (∀ k, b0.getW k = b.getW k ∧ b0.getX k = b.getX k) ∧
    (b1.shadow = b0.shadow → (∀ k, b1.land.getW k = b1.getW k ∧ b1.land.getX k = b1.getX k) ∧
      (b2.shadow = b1.land.shadow → b2.land.shadow = [] ∧
        (∀ k, b2.land.getW k = if toX = false ∧ k = reg then v else b2.getW k) ∧
        (∀ k, b2.land.getX k = if toX = true ∧ k = reg then v else b2.getX k))) := by
  have h0 : (b.defer toX reg v).shadow = [{ toX := toX, reg := reg, value := v, left := 3 }] := by simp [Bank.defer, h]
  rw [Bank.land_waits h0 (Nat.lt_of_sub_eq_succ rfl)]
  refine ⟨fun k => ⟨rfl, rfl⟩, fun h1 => ?_⟩
  rw [Bank.land_waits h1 (Nat.lt_of_sub_eq_succ rfl)]
  refine ⟨fun k => ⟨rfl, rfl⟩, fun h2 => ?_⟩
  rw [Bank.land_due h2 rfl]
  exact ⟨rfl, fun k => Bank.getW_deferred b2 _ k, fun k => Bank.getX_deferred b2 _ k⟩

/-- R89, R97: the conditions. -/
theorem Bank.test_codes (b : Bank) (z n c v x : Bool) (rest : List Bool) (hz : b.flag flZ = z) (hn : b.flag flN = n)
    (hc : b.flag flC = c) (hv : b.flag flV = v) :
    b.test 0 = .ok z ∧ b.test 1 = .ok (!z) ∧ b.test 2 = .ok (n ^^ v) ∧ b.test 3 = .ok (!(n ^^ v)) ∧
    b.test 4 = .ok (!z && !(n ^^ v)) ∧ b.test 5 = .ok (z || (n ^^ v)) ∧ b.test 6 = .ok c ∧ b.test 7 = .ok (!c) ∧
    b.test 8 = .ok n ∧ b.test 9 = .ok (!n) ∧ b.test 10 = .ok v ∧ b.test 11 = .ok (!v) ∧
    (b.ba = x :: rest → b.test 12 = .ok x ∧ b.test 13 = .ok (!x)) ∧
    (b.ba = [] → b.test 12 = .error (11, 0) ∧ b.test 13 = .error (11, 0)) ∧ b.test 14 = .ok (b.flag flSat) := by
  have hne : (n != v) = (n ^^ v) := rfl
  have heq : (n == v) = !(n ^^ v) := by cases n <;> cases v <;> rfl
  simp only [Bank.test, hz, hn, hc, hv, hne, heq, true_and, and_true]
  constructor <;> intro h
  · simp [Bank.need, Bank.bt, h, Except.map]
  · simp [Bank.need, h, Except.map]

/-- R138: quotient and rest of a division by 2^k. -/
theorem div_rest {v q r : Int} {k : Nat} (hv : v = q * 2 ^ k + r) (h0 : 0 ≤ r) (h1 : r < 2 ^ k) :
    v / ((2 ^ k : Nat) : Int) = q ∧ v - v / ((2 ^ k : Nat) : Int) * ((2 ^ k : Nat) : Int) = r := by
  have hk : ((2 ^ k : Nat) : Int) = 2 ^ k := by rw [Int.natCast_pow]; rfl
  have hq : v / ((2 ^ k : Nat) : Int) = q := by
    rw [hk, hv, Int.add_comm, Int.add_mul_ediv_right _ _ (Int.ne_of_gt (Int.lt_of_le_of_lt h0 h1)), Int.ediv_eq_zero_of_lt h0 h1,
      Int.zero_add]
  exact ⟨hq, by rw [hq, hk, hv, Int.add_comm, Int.add_sub_cancel]⟩

/-- R138: rnd in the four modes. -/
theorem rnd_modes (m : Rounding) (v q r : Int) (k : Nat) : rnd m v 0 = v ∧
    (1 ≤ k → v = q * 2 ^ k + r → 0 ≤ r → r < 2 ^ k →
      rnd .trn v k = q ∧
      rnd .rhu v k = (if 2 ^ (k - 1) ≤ r then q + 1 else q) ∧
      rnd .rhe v k = (if 2 ^ (k - 1) < r ∨ (r = 2 ^ (k - 1) ∧ q % 2 = 1) then q + 1 else q) ∧
      rnd .rtz v k = (if v < 0 ∧ r ≠ 0 then q + 1 else q)) := by
  refine ⟨rfl, fun hk hv h0 h1 => ?_⟩
  obtain ⟨hq, hr⟩ := div_rest hv h0 h1
  have hh : ((2 ^ (k - 1) : Nat) : Int) = 2 ^ (k - 1) := by rw [Int.natCast_pow]; rfl
  have hne : k ≠ 0 := by omega
  rw [hq] at hr
  simp only [rnd, hne, if_false, hq, hr, hh, ge_iff_le, gt_iff_lt, and_self]

/-- Settles O22: the three ends of a deferred write, the codes one by one, and the division with rest. -/
theorem shadowConditionsRounding : Obligations.ShadowConditionsRounding :=
  ⟨fun b b1 b2 toX reg v h => Bank.defer_lands b b1 b2 toX reg v h,
   fun b z n c v x rest hz hn hc hv => Bank.test_codes b z n c v x rest hz hn hc hv,
   fun m v q r k => rnd_modes m v q r k⟩

end Sys2Proof.Machine
end

section
/-!
PROOFS. Scan cores: every instruction runs in its form (R94, R99, R102), and one whose condition is false (R97).
-/
namespace Sys2Proof.Machine

/-- Command i runs as State.instr with the core, prefixes, legality, bytes and ticks of form f. -/
def Form.Runs (f : Form) (i : Instr) : Prop :=
  ∃ cost body, (∀ s, exec i s = s.instr f.core f.accept f.pre f.legal f.own cost body) ∧
    ∀ x v, cost { x with skip := v } = f.ticks x

/-- Of the legality of the fields only what legal prefixes leave to decide counts. -/
theorem Dev.instr_legal {accept : List PrefixKind} {pre : Fetch} {legal legal' : Bool}
    (h : prefixesOk accept pre = true → legal = legal') (c : Nat) (own : List Byte) (cost : Cpu → Nat) (body : Body) :
    Dev.instr c accept pre legal own cost body = Dev.instr c accept pre legal' own cost body := by
  have hb : (prefixesOk accept pre && legal) = (prefixesOk accept pre && legal') := by
    cases hp : prefixesOk accept pre with
    | false => rfl
    | true => exact h hp
  funext d
  unfold Dev.instr
  rw [hb]

theorem Form.Runs.of {f : Form} {i : Instr} (cost : Cpu → Nat) (body : Body) (legal : Bool)
    (he : ∀ s, exec i s = s.instr f.core f.accept f.pre legal f.own cost body)
    (hl : prefixesOk f.accept f.pre = true → legal = f.legal) (hc : ∀ x v, cost { x with skip := v } = f.ticks x) : f.Runs i :=
  ⟨cost, body, fun s => (he s).trans (by rw [State.instr, State.instr, Dev.instr_legal hl]), hc⟩

/-- R94: LANE is not taken in where it is not accepted. -/
theorem modsOf_lane {accept : List PrefixKind} {pre : Fetch} (h : prefixesOk accept pre = true) (hn : accept.contains .lane = false) :
    (modsOf pre).lane = false := by
  have key (l : List Prefix) (m : Mods) (hm : m.lane = false) (hl : l.all (prefixOk accept) = true) :
      (l.foldl Mods.take m).lane = false := by
    induction l generalizing m with
    | nil => exact hm
    | cons p l ih =>
      simp only [List.all_cons, Bool.and_eq_true] at hl
      refine ih _ ?_ hl.2
      cases p with
      | lane =>
        have hk : accept.contains .lane = true := (Bool.and_eq_true_iff.mp hl.1).1
        rw [hn] at hk; cases hk
      | _ => exact hm
  exact key _ _ rfl (by simp only [prefixesOk, Bool.and_eq_true] at h; exact h.2)

/-! ## Legal fields as the forms state them -/

theorem odd_bit {n : Nat} (x : BitVec n) : (!x.getLsbD 0) = decide (x.toNat % 2 = 0) := by
  simp only [BitVec.getLsbD, Nat.testBit_zero]
  rcases Nat.mod_two_eq_zero_or_one x.toNat with h | h <;> simp [h]

theorem byteZero_eq (f1 f2 : BitVec 4) : byteZero f1 f2 = decide (f1 = 0 ∧ f2 = 0) := by
  unfold byteZero; rw [Bool.decide_and]; rfl

theorem lowBits_eq (n : Nat) (b0 : BitVec 8) : lowBits n b0 = decide (b0.toNat < 2 ^ n) := ble_eq_decide _ _

theorem accField_eq (n : Nat) (b0 : BitVec 8) (f1 f2 : BitVec 4) :
    (lowBits n b0 && byteZero f1 f2) = decide (b0.toNat < 2 ^ n ∧ f1 = 0 ∧ f2 = 0) := by
  rw [lowBits_eq, byteZero_eq, ← Bool.decide_and]

theorem accReg_eq (b0 : BitVec 8) (f2 : BitVec 4) : (lowBits 3 b0 && f2Zero f2) = decide (b0.toNat < 8 ∧ f2 = 0) := by
  rw [lowBits_eq, Bool.decide_and] <;> rfl

theorem accEven_eq (b0 : BitVec 8) : (lowBits 6 b0 && pairOk b0) = decide (b0.toNat < 64 ∧ b0.toNat % 2 = 0) := by
  rw [lowBits_eq, pairOk, odd_bit, Bool.decide_and] <;> rfl

theorem queueReg_eq (q r : BitVec 8) (n : Nat) :
    (Nat.ble q.toNat 31 && Nat.ble r.toNat n) = decide (q.toNat ≤ 31 ∧ r.toNat ≤ n) := by
  rw [ble_eq_decide, ble_eq_decide, Bool.decide_and]

theorem mode_ne_two (m : BitVec 2) : (m.toNat != 2) = decide (m ≠ 2) := by
  simp only [bne, BEq.beq, decide_not, ← BitVec.toNat_inj]; rfl

theorem staField_eq (r : BitVec 4) : Nat.ble (r.toNat / 4) 1 = decide (r.toNat < 8) := by
  rw [ble_eq_decide, decide_eq_decide]; omega

theorem pairField_eq (b0 : BitVec 8) : (lowBits 2 b0 && pairOk b0) = decide (b0 = 0 ∨ b0 = 2) := by
  rw [lowBits_eq, pairOk, odd_bit, ← Bool.decide_and, decide_eq_decide]
  constructor
  · intro h
    rcases (by omega : b0.toNat = 0 ∨ b0.toNat = 2) with h | h
    · exact Or.inl (BitVec.eq_of_toNat_eq h)
    · exact Or.inr (BitVec.eq_of_toNat_eq h)
  · rintro (rfl | rfl) <;> decide

theorem pairFieldZero_eq (b0 : BitVec 8) (f2 : BitVec 4) :
    (lowBits 2 b0 && pairOk b0 && f2Zero f2) = decide ((b0 = 0 ∨ b0 = 2) ∧ f2 = 0) := by
  rw [pairField_eq, Bool.decide_and]; rfl

theorem bitSpace_eq (pre : Fetch) : bitSpace pre = imageBit pre := by
  unfold bitSpace imageBit
  cases (modsOf pre).space with
  | none => rfl
  | some k => exact (ble_eq_decide _ _).trans (by simp)

theorem lockLegal_eq (pre : Fetch) : lockLegal pre = lockOk pre := by
  unfold lockLegal lockOk
  cases (modsOf pre).space with
  | none => rfl
  | some k => exact congrArg _ ((ble_eq_decide _ _).trans (by simp))

theorem bitCost_eq (x : Cpu) (v : Bool) : bitCost { x with skip := v } = if x.m.space = none then 2 else 1 := by
  unfold bitCost; cases h : x.m.space <;> rfl

theorem shiftLegal_single {pre : Fetch} (imm : BitVec 8) (h : prefixesOk [.cond] pre = true) :
    shiftLegal pre imm = decide (imm.toNat ≤ 31) := by
  rw [shiftLegal, modsOf_lane h rfl]; exact ble_eq_decide _ _

/-- R94, R99, R102: every scan-core instruction runs in its form. -/
theorem Form.runs_of_formOf {i : Instr} {f : Form} (h : formOf i = some f) : f.Runs i := by
  cases i with
  | opNop | opHalt | opYield | opChkin | opFlrd | opFlwr | opAndb | opOrb | opXorb | opNot | opDup | opPop | opRedge |
    opFedge | opTon | opTof | opTp | opCtu | opCtd | opCrst | opMov | opMovi | opLdw | opLdh | opLdhs | opLdb | opLdx |
    opStw | opSth | opStb | opAdd | opAdc | opSub | opSbc | opNeg | opAbs | opMul | opMulhs | opMin | opMax | opAddi |
    opAndw | opOrw | opXorw | opNotw | opClz | opCmp | opCmpeq | opCmpne | opCmplt | opCmple | opCmpgt | opCmpge |
    opCmpltu | opCmpgeu | opJmp | opJbt | opJbf | opCall | opRet | opLda =>
    obtain rfl := Option.some.inj h
    exact .of _ _ _ (fun _ => rfl) (fun _ => rfl) (fun _ _ => rfl)
  | opLd | opLdn | opAnd | opAndn | opOr | opOrn | opXor | opOut | opSet | opRst =>
    obtain rfl := Option.some.inj h
    exact .of _ _ _ (fun _ => rfl) (fun _ => bitSpace_eq _) bitCost_eq
  | opEvt | opMovx | opMovw | opBcc | opLoop | opJmpa | opCalla | opCsrr | opCsrw | opShl | opSar =>
    obtain rfl := Option.some.inj h
    exact .of _ _ _ (fun _ => rfl) (fun _ => ble_eq_decide _ _) (fun _ _ => rfl)
  | opShr | opRor =>
    obtain rfl := Option.some.inj h
    exact .of _ _ _ (fun _ => rfl) (shiftLegal_single _) (fun _ _ => rfl)
  | opDivs | opDivu =>
    obtain rfl := Option.some.inj h
    exact .of _ _ _ (fun _ => rfl) (fun _ => odd_bit _) (fun _ _ => rfl)
  | opXchgm | opAddm =>
    obtain rfl := Option.some.inj h
    exact .of _ _ _ (fun _ => rfl) (fun _ => lockLegal_eq _) (fun _ _ => rfl)
  | opMpy | opMac | opMsu =>
    obtain rfl := Option.some.inj h
    exact .of _ _ _ (fun _ => rfl) (fun _ => lowBits_eq _ _) (fun _ _ => rfl)
  | opMacm | opMsum | opClra | opAdda | opSuba =>
    obtain rfl := Option.some.inj h
    exact .of _ _ _ (fun _ => rfl) (fun _ => accField_eq _ _ _ _) (fun _ _ => rfl)
  | opSha =>
    obtain rfl := Option.some.inj h
    exact .of _ _ _ (fun _ => rfl) (fun _ => byteZero_eq _ _) (fun _ _ => rfl)
  | opQput | opQcount =>
    obtain rfl := Option.some.inj h
    exact .of _ _ _ (fun _ => rfl) (fun _ => queueReg_eq _ _ _) (fun _ _ => rfl)
  | opLea =>
    obtain rfl := Option.some.inj h
    exact .of _ _ _ (fun _ => rfl) (fun _ => mode_ne_two _) (fun _ _ => rfl)
  | opSta =>
    obtain rfl := Option.some.inj h
    exact .of _ _ _ (fun _ => rfl) (fun _ => staField_eq _) (fun _ _ => rfl)
  | opMova =>
    obtain rfl := Option.some.inj h
    exact .of _ _ _ (fun _ => rfl) (fun _ => accReg_eq _ _) (fun _ _ => rfl)
  | opRot | opMag =>
    obtain rfl := Option.some.inj h
    exact .of _ _ _ (fun _ => rfl) (fun _ => pairFieldZero_eq _ _) (fun _ _ => rfl)
  | opDft =>
    obtain rfl := Option.some.inj h
    exact .of _ _ _ (fun _ => rfl) (fun _ => accEven_eq _) (fun _ _ => rfl)
  | _ => cases h

/-! ## A condition that is false -/

/-- R92 to R97: an instruction that is reached runs once. -/
theorem Dev.instr_reaches {s : State} {c : Nat} {r : Run} {accept : List PrefixKind} {pre : Fetch} {own : List Byte}
    {legal skip : Bool} (cost : Cpu → Nat) (body : Body) (h : Reaches s c r accept pre own.length) (hl : legal = true)
    (hf : condFalse (modsOf pre) (s.bankOf c r) = .ok skip) :
    Dev.instr c accept pre legal own cost body (s.found c) =
      Dev.repetitions c (modsOf pre) (s.bankOf c r).pc (s.after c r pre own.length) skip cost body 1 0 r (s.found c) := by
  have hb : (s.found c).bank c r.bank = s.bankOf c r := rfl
  have hlen : ((pre.prefixes.flatMap prefixBytes) ++ own).length = lengthWith pre own.length := by simp [lengthWith]
  have hin : ¬ 0x400000 < (s.bankOf c r).pc.toNat + lengthWith pre own.length := Nat.not_lt.mpr h.inCode
  have hnext : (s.bankOf c r).pc + BitVec.ofNat 32 (lengthWith pre own.length) = s.after c r pre own.length := rfl
  have hreps : repsOf (modsOf pre) (s.bankOf c r) = 1 := by simp [repsOf, h.once]
  have hn : (modsOf pre).rep.getD 1 - 1 = 0 := by simp [h.once]
  have hbytes : fetchedBytes pre own = pre.prefixes.flatMap prefixBytes ++ own := fetchedBytes_whole h.accepted own
  have hecc : (s.found c).eccCounted 0 c pre.corrected = s.found c := by rw [h.clean]; rfl
  simp only [Dev.instr, hecc, hbytes, h.runs, h.budget, h.alone, Option.isSome_none, Bool.or_false, Bool.false_eq_true,
    if_false, hb, hlen, hin, h.accepted, hl, Bool.and_self, Bool.not_true, hf, hreps, hn, hnext]

/-- R97: an instruction that is skipped charges its ticks and goes on. -/
theorem State.instr_skips {s : State} {c : Nat} {r : Run} {accept : List PrefixKind} {pre : Fetch} {own : List Byte}
    {legal : Bool} {cost : Cpu → Nat} {k : Nat} (body : Body) (h : Reaches s c r accept pre own.length) (hl : legal = true)
    (hf : condFalse (modsOf pre) (s.bankOf c r) = .ok true)
    (hk : cost { s.cpu0 c r pre own.length with skip := true } = k) :
    s.instr c accept pre legal own cost body = .next (s.coreEnd c (((s.found c).charge c r.task k).setBank c r.bank
      { (s.bankOf c r).land with pc := s.after c r pre own.length, repLeft := 0, repSkip := false })) := by
  have hcur : ((s.found c).charge c r.task k).curRun c = some r :=
    (Dev.charge_curRun _ _ _ _).trans (Dev.curRun_of_execRun h.runs)
  have hk' : cost ⟨s.found c, c, r, (s.found c).bank c r.bank, modsOf pre, s.after c r pre own.length, 0, .goes, true⟩ = k := hk
  have hd : Dev.instr c accept pre legal own cost body (s.found c) = ((s.found c).charge c r.task k).setBank c r.bank
      { (s.bankOf c r).land with pc := s.after c r pre own.length, repLeft := 0, repSkip := false } := by
    rw [Dev.instr_reaches cost body h hl hf, Dev.repetitions]
    simp only [Cpu.once, if_true, hk', Cpu.withDev, Cpu.retire, hcur]
    rfl
  rw [State.instr, State.onCore_awake h.awake, hd]
  refine congrArg (fun d => Host.Outcome.next (s.coreEnd c d)) (Dev.proceed_logic (r := r) ?_ (Dev.logic_of_execRun h.runs))
  simpa [Dev.curRun, Dev.setBank] using hcur

/-- Settles O20: in its form, the instruction is skipped by State.instr_skips. -/
theorem conditionFalse : Obligations.ConditionFalse := by
  unfold Obligations.ConditionFalse
  intro s i f r hf h hl hc
  obtain ⟨cost, body, he, hk⟩ := Form.runs_of_formOf hf
  refine ⟨_, (he s).trans (State.instr_skips body h hl hc (hk _ true)), ?_, ?_⟩
  · exact Retires.of_dev (d := (s.found f.core).charge f.core r.task _) (s.bankOf f.core r) _ rfl (Aside.of_charge _ _ _ _) rfl
  · exact Dev.settled_mem _ _

end Sys2Proof.Machine
end

section
/-!
SUPPORT. What the shared operations of the blocks leave as it was (Only), and the raise of an event source (R331 to R334).
-/
namespace Sys2Proof.Machine

/-! ## Only, operation by operation -/

theorem Only.and {d e f : Dev} {l l' : List Part} {r r' : List Nat} (h : Only d e l r) (k : Only e f l' r') :
    Only d f (l ++ l') (r ++ r') :=
  (h.more (fun _ => List.mem_append_left _) (fun _ => List.mem_append_left _)).trans
    (k.more (fun _ => List.mem_append_right _) (fun _ => List.mem_append_right _))

theorem Only.rd {d e : Dev} {l : List Part} {r : List Nat} {off : Nat} (h : Only d e l r) (hl : Part.csr ∉ l)
    (ho : off ∉ r ++ [Reg.INT_FIRST, Reg.BIO_BO0, Reg.BIO_BO1]) : e.rd off = d.rd off := h.regs hl off ho

theorem Only.fld {d e : Dev} {l : List Part} {r : List Nat} {f : Fld} (h : Only d e l r) (hl : Part.csr ∉ l)
    (ho : f.off ∉ r ++ [Reg.INT_FIRST, Reg.BIO_BO0, Reg.BIO_BO1]) : e.fld f = d.fld f := by
  unfold Dev.fld; rw [h.rd hl ho]

/-- Registers as they are, and one named part changed at most. -/
theorem Only.of_part {d e : Dev} {l : List Part} (hp : ∀ p, p ∉ l → Part.same d e p) (hc : e.csr = d.csr) : Only d e l [] :=
  ⟨hp, fun _ off _ => Dev.rd_of_csr hc off⟩

theorem Only.of_setUnits (d : Dev) (v : Units) : Only d { d with units := v } [] [] :=
  .of_part (fun p _ => by cases p <;> simp [Part.same]) rfl

theorem Only.of_setOuts (d : Dev) (v : Outs) : Only d { d with outs := v } [] [] :=
  .of_part (fun p _ => by cases p <;> simp [Part.same]) rfl

theorem Only.of_setOutbox (d : Dev) (v : List (Nat × Msg)) : Only d { d with outbox := v } [] [] :=
  .of_part (fun p _ => by cases p <;> simp [Part.same]) rfl

theorem Only.of_setMsix (d : Dev) (v : Msix) : Only d { d with msix := v } [.msix] [] :=
  .of_part (fun p hp => by cases p <;> simp [Part.same] at hp ⊢) rfl

theorem Only.of_setTasks (d : Dev) (v : Sparse Task) : Only d { d with tasks := v } [.tasks] [] :=
  .of_part (fun p hp => by cases p <;> simp [Part.same] at hp ⊢) rfl

theorem Only.of_setCores (d : Dev) (v : Sparse Core) : Only d { d with cores := v } [.cores] [] :=
  .of_part (fun p hp => by cases p <;> simp [Part.same] at hp ⊢) rfl

theorem Only.of_setQueues (d : Dev) (v : Queues) : Only d { d with queues := v } [.queues] [] :=
  .of_part (fun p hp => by cases p <;> simp [Part.same] at hp ⊢) rfl

theorem Only.of_setAng (d : Dev) (v : Angle) : Only d { d with ang := v } [.ang] [] :=
  .of_part (fun p hp => by cases p <;> simp [Part.same] at hp ⊢) rfl

theorem Only.of_setTime (d : Dev) (v : StationTime) : Only d { d with time := v } [.time] [] :=
  .of_part (fun p hp => by cases p <;> simp [Part.same] at hp ⊢) rfl

theorem Only.of_setNet (d : Dev) (v : Net) : Only d { d with net := v } [.net] [] :=
  .of_part (fun p hp => by cases p <;> simp [Part.same] at hp ⊢) rfl

theorem Only.of_setCan (d : Dev) (v : Sparse Can) : Only d { d with can := v } [.can] [] :=
  .of_part (fun p hp => by cases p <;> simp [Part.same] at hp ⊢) rfl

theorem Only.of_setPlane (d : Dev) (v : Plane) : Only d { d with plane := v } [.plane] [] :=
  .of_part (fun p hp => by cases p <;> simp [Part.same] at hp ⊢) rfl

theorem Only.of_setNvs (d : Dev) (v : Nvs) : Only d { d with nvs := v } [.nvs] [] :=
  .of_part (fun p hp => by cases p <;> simp [Part.same] at hp ⊢) rfl

theorem Only.of_setXch (d : Dev) (v : Exch) : Only d { d with xch := v } [.xch] [] :=
  .of_part (fun p hp => by cases p <;> simp [Part.same] at hp ⊢) rfl

theorem Only.of_setHsb (d : Dev) (v : Hsb) : Only d { d with hsb := v } [.hsb] [] :=
  .of_part (fun p hp => by cases p <;> simp [Part.same] at hp ⊢) rfl

theorem Only.of_setRtc (d : Dev) (v : Rtc) : Only d { d with rtc := v } [.rtc] [] :=
  .of_part (fun p hp => by cases p <;> simp [Part.same] at hp ⊢) rfl

theorem Only.of_setFlash (d : Dev) (v : Flash) : Only d { d with flash := v } [.flash] [] :=
  .of_part (fun p hp => by cases p <;> simp [Part.same] at hp ⊢) rfl

theorem Only.of_setHost (d : Dev) (v : HostLink) : Only d { d with host := v } [.host] [] :=
  .of_part (fun p hp => by cases p <;> simp [Part.same] at hp ⊢) rfl

theorem Only.of_setBit (d : Dev) (off i : Nat) (b : Bool) : Only d (d.setBit off i b) [] [off] := .of_wr _ _ _
theorem Only.of_setMaskBit (d : Dev) (off n : Nat) (b : Bool) : Only d (d.setMaskBit off n b) [] [off + 4 * (n / 32)] := .of_wr _ _ _
theorem Only.of_incFld (d : Dev) (f : Fld) : Only d (d.incFld f) [] [f.off] := .of_wr _ _ _
theorem Only.of_incSat (d : Dev) (off : Nat) : Only d (d.incSat off) [] [off] := .of_wr _ _ _
theorem Only.of_incWrap (d : Dev) (off : Nat) : Only d (d.incWrap off) [] [off] := .of_wr _ _ _
theorem Only.of_touch (d : Dev) : Only d d.touch [] [] := .of_setUnits _ _
theorem Only.of_touchOuts (d : Dev) : Only d d.touchOuts [] [] := .of_setOuts _ _
theorem Only.of_send (d : Dev) (t : Nat) (m : Msg) : Only d (d.send t m) [] [] := .of_setOutbox _ _
theorem Only.of_setTask (d : Dev) (n : Nat) (k : Task) : Only d (d.setTask n k) [.tasks] [] := .of_setTasks _ _
theorem Only.of_modTask (d : Dev) (n : Nat) (f : Task → Task) : Only d (d.modTask n f) [.tasks] [] := .of_setTasks _ _
theorem Only.of_setCore (d : Dev) (c : Nat) (k : Core) : Only d (d.setCore c k) [.cores] [] := .of_setCores _ _

theorem Only.of_ite {d e f : Dev} {p : Prop} [Decidable p] {l : List Part} {r : List Nat} (h : p → Only d e l r)
    (k : ¬ p → Only d f l r) : Only d (if p then e else f) l r := by
  split
  · exact h ‹_›
  · exact k ‹_›

theorem Only.of_foldl {α : Type} {l : List Part} {r : List Nat} (g : Dev → α → Dev) (h : ∀ d a, Only d (g d a) l r)
    (xs : List α) (d : Dev) : Only d (xs.foldl g d) l r := by
  induction xs generalizing d with
  | nil => exact .refl _ _ _
  | cons a xs ih => exact (h d a).trans (ih _)

theorem Only.of_forN {l : List Part} {r : List Nat} (n : Nat) (g : Nat → Dev → Dev) (h : ∀ a d, Only d (g a d) l r) (d : Dev) :
    Only d (forN n g d) l r := .of_foldl _ (fun d a => h a d) _ _

/-! ## A raise -/

theorem Dev.msixSend_csr (d : Dev) (t i : Nat) : (d.msixSend t i).csr = d.csr := by
  unfold Dev.msixSend
  split
  · dsimp only; split <;> rfl
  · rfl

theorem Dev.armTasks_csr (d : Dev) (t i : Nat) : (d.armTasks t i).csr = d.csr :=
  foldl_keeps Dev.csr _ (fun _ _ => by split <;> rfl) _ _

theorem Only.of_msixSend (d : Dev) (t i : Nat) : Only d (d.msixSend t i) [.msix] [] := by
  unfold Dev.msixSend
  refine .of_ite (fun _ => ?_) fun _ => .refl _ _ _
  refine .trans (.of_setMsix d _) (.of_ite (fun _ => .of_setMsix _ _) fun _ => (Only.of_send _ _ _).more (by simp) (by simp))

theorem Only.of_armTasks (d : Dev) (t i : Nat) : Only d (d.armTasks t i) [.tasks] [] :=
  .of_foldl _ (fun _ _ => .of_ite (fun _ => .of_setTask _ _ _) fun _ => .refl _ _ _) _ _

/-- R331, R334: the registers of a raise of source i before the device is told of it. -/
def Dev.pend (d : Dev) (i : Nat) : Dev :=
  if d.pendingSrc i then d.incFld (F.INT_SRCCFG_CNT i)
  else
    let e := d.setMaskBit (Reg.INT_PEND 0) i true
    if d.health == 0 && e.health != 0 && !(e.flag F.INT_FIRST_VALID) then
      (e.setFld F.INT_FIRST_SRC i).setFld F.INT_FIRST_VALID 1 else e

/-- R23: the device told of a raise of source i. -/
def Dev.told (d : Dev) (i : Nat) : Dev := if d.pendingSrc i then d.pend i else ((d.pend i).noteRaised i).touch

/-- R332: the message of a raise that is enabled. -/
def Dev.notify (d : Dev) (t i : Nat) : Dev := if d.maskBit (Reg.INT_EN 0) i then d.msixSend t i else d

theorem Dev.raise_eq (d : Dev) (t i : Nat) : d.raise t i = (((d.told i).setMsgSent i false).notify t i).armTasks t i := by
  unfold Dev.raise Dev.told Dev.pend Dev.notify
  cases d.pendingSrc i <;> rfl

theorem Only.of_pend (d : Dev) (i : Nat) : Only d (d.pend i) [] (raiseRegs i) := by
  unfold Dev.pend
  refine .of_ite (fun _ => (Only.of_incFld _ _).more (by simp) (by simp [raiseRegs, F.INT_SRCCFG_CNT])) fun _ => ?_
  have hp := (Only.of_setMaskBit d (Reg.INT_PEND 0) i true).more (l' := []) (r' := raiseRegs i) (by simp) (by simp [raiseRegs])
  refine .of_ite (fun _ => hp.trans ?_) fun _ => hp
  exact ⟨fun p hp => by cases p <;> simp [Part.same, Dev.setFld, Dev.wr],
    fun _ off ho => by
      simp only [List.mem_append, List.mem_cons, not_or] at ho
      rw [Dev.rd_setFld_ne _ _ ho.2.1, Dev.rd_setFld_ne _ _ ho.2.1]⟩

theorem Only.of_told (d : Dev) (i : Nat) : Only d (d.told i) [] (raiseRegs i) :=
  .of_ite (fun _ => .of_pend d i) fun _ => (Only.of_pend d i).trans
    (((Only.of_setUnits _ _).trans (Only.of_touch _)).more (by simp) (by simp))

theorem Only.of_notify (d : Dev) (t i : Nat) : Only d (d.notify t i) [.msix] [] :=
  .of_ite (fun _ => .of_msixSend _ _ _) fun _ => .refl _ _ _

/-- R331 to R334, R41: the raise of a source. -/
theorem Only.of_raise (d : Dev) (t i : Nat) : Only d (d.raise t i) [.msix, .tasks] (raiseRegs i) := by
  rw [Dev.raise_eq]
  exact ((((Only.of_told d i).and (.of_setMsix _ _)).and (.of_notify _ t i)).and (.of_armTasks _ t i)).more (by decide) (by simp)

theorem Dev.raise_csr (d : Dev) (t i : Nat) : (d.raise t i).csr = (d.pend i).csr := by
  have hn (e : Dev) : (e.notify t i).csr = e.csr := by
    unfold Dev.notify
    split
    · exact Dev.msixSend_csr _ _ _
    · rfl
  rw [Dev.raise_eq, Dev.armTasks_csr, hn]
  show (d.told i).csr = _
  unfold Dev.told
  split <;> rfl

theorem Dev.raise_fld (d : Dev) (t i : Nat) (f : Fld) : (d.raise t i).fld f = (d.pend i).fld f :=
  Dev.fld_of_csr (Dev.raise_csr d t i) f

theorem Dev.pendingSrc_of_csr {d e : Dev} (h : d.csr = e.csr) (i : Nat) : d.pendingSrc i = e.pendingSrc i := by
  simp [Dev.pendingSrc, Dev.maskBit, Dev.bit, Dev.rd, h]

/-- R331: the pending bits after the raise of source i. -/
theorem Dev.pendingSrc_pend (d : Dev) (i : Nat) {j : Nat} (hj : j < 256) :
    (d.pend i).pendingSrc j = (decide (j = i) || d.pendingSrc j) := by
  have hwr (e : Dev) (off : Nat) (v : Word) (h : 0x5080 ≤ off) : (e.wr off v).pendingSrc j = e.pendingSrc j := by
    have ho : Reg.INT_PEND 0 + 4 * (j / 32) ≠ off := by unfold Reg.INT_PEND; omega
    simp only [Dev.pendingSrc, Dev.maskBit, Dev.bit, Dev.rd_wr_ne _ _ ho]
  have hset : (d.setMaskBit (Reg.INT_PEND 0) i true).pendingSrc j = (decide (j = i) || d.pendingSrc j) := by
    by_cases h : j = i
    · subst h; rw [Dev.pendingSrc, Dev.maskBit_setMaskBit_same]; simp
    · rw [Dev.pendingSrc, Dev.maskBit_setMaskBit_ne _ _ _ h]; simp [h, Dev.pendingSrc]
  unfold Dev.pend
  split
  · rename_i hp
    rw [Dev.incFld, Dev.setFld, hwr _ _ _ (by simp [F.INT_SRCCFG_CNT, Reg.INT_SRCCFG]; omega)]
    by_cases h : j = i
    · subst h; simp [hp]
    · simp [h]
  · dsimp only
    split
    · rw [Dev.setFld, hwr _ _ _ (by simp [F.INT_FIRST_VALID, Reg.INT_FIRST]), Dev.setFld,
        hwr _ _ _ (by simp [F.INT_FIRST_SRC, Reg.INT_FIRST]), hset]
    · exact hset

theorem Dev.pendingSrc_raise (d : Dev) (t i : Nat) {j : Nat} (hj : j < 256) :
    (d.raise t i).pendingSrc j = (decide (j = i) || d.pendingSrc j) :=
  (Dev.pendingSrc_of_csr (Dev.raise_csr d t i) j).trans (Dev.pendingSrc_pend d i hj)

theorem Dev.pendingSrc_of_rd {d e : Dev} {i : Nat} (h : e.rd (Reg.INT_PEND 0 + 4 * (i / 32)) = d.rd (Reg.INT_PEND 0 + 4 * (i / 32))) :
    e.pendingSrc i = d.pendingSrc i := by simp only [Dev.pendingSrc, Dev.maskBit, Dev.bit, h]

/-- R331: a raise is as Raised says. -/
theorem Raised.of_raise (d : Dev) (t : Nat) {i : Nat} (hi : i < 256) : Raised d (d.raise t i) i := by
  refine ⟨by rw [Dev.pendingSrc_raise d t i hi]; simp, fun hp => ?_⟩
  rw [Dev.raise_fld, Dev.pend, if_pos hp]
  have hw : (F.INT_SRCCFG_CNT i).hi + 1 - (F.INT_SRCCFG_CNT i).lo = 8 := rfl
  have hlt : d.fld (F.INT_SRCCFG_CNT i) < 256 := Nat.mod_lt _ (Nat.two_pow_pos 8)
  rw [Dev.incFld, Dev.fld_setFld_same _ _ _ (Nat.le_of_ble_eq_true rfl) (Nat.lt_of_sub_eq_succ rfl), hw, satInc]
  (repeat' split) <;> omega

/-- What changes neither the pending bits nor the configuration of source i leaves Raised. -/
theorem Raised.of_rd {d e f : Dev} {i : Nat} (h : Raised d e i) (hr : ∀ off ∈ raiseRegs i, f.rd off = e.rd off) : Raised d f i := by
  have hp : f.pendingSrc i = e.pendingSrc i := Dev.pendingSrc_of_rd (hr _ (by simp [raiseRegs]))
  have hc : f.fld (F.INT_SRCCFG_CNT i) = e.fld (F.INT_SRCCFG_CNT i) := by
    rw [Dev.fld, hr _ (by simp [raiseRegs, F.INT_SRCCFG_CNT])]; rfl
  exact ⟨hp.trans h.1, fun q => hc.trans (h.2 q)⟩

/-! ## Tasks across a raise -/

theorem SameTask.refl (d : Dev) (m : Nat) : SameTask d d m := ⟨rfl, List.prefix_rfl⟩

theorem SameTask.trans {d e f : Dev} {m : Nat} (h : SameTask d e m) (k : SameTask e f m) : SameTask d f m :=
  ⟨by rw [k.same, h.same], h.grown.trans k.grown⟩

theorem SameTask.of_task {d e : Dev} {m : Nat} (h : e.task m = d.task m) : SameTask d e m := by
  constructor
  · rw [h]
  · exact h.symm ▸ List.prefix_rfl

theorem SameTask.of_foldl {α : Type} {m : Nat} (g : Dev → α → Dev) (h : ∀ d a, SameTask d (g d a) m) (xs : List α) (d : Dev) :
    SameTask d (xs.foldl g d) m := by
  induction xs generalizing d with
  | nil => exact .refl _ _
  | cons a xs ih => exact (h d a).trans (ih _)

theorem SameTask.of_armTasks (d : Dev) (t i m : Nat) : SameTask d (d.armTasks t i) m := by
  refine .of_foldl _ (fun d n => ?_) _ _
  dsimp only
  split
  · by_cases h : m = n
    · subst h
      exact ⟨by rw [Dev.task_setTask_same], by rw [Dev.task_setTask_same]; exact List.prefix_append _ _⟩
    · exact .of_task (Dev.task_setTask_ne _ _ h)
  · exact .refl _ _

theorem Dev.told_tasks (d : Dev) (i : Nat) : (d.told i).tasks = d.tasks := (Only.of_told d i).parts .tasks (by simp)

theorem Dev.notify_tasks (d : Dev) (t i : Nat) : (d.notify t i).tasks = d.tasks := (Only.of_notify d t i).parts .tasks (by simp)

theorem SameTask.of_raise (d : Dev) (t i m : Nat) : SameTask d (d.raise t i) m := by
  have h1 : ((d.told i).setMsgSent i false).tasks = (d.told i).tasks := rfl
  rw [Dev.raise_eq]
  exact .trans (.of_task (Dev.task_of_tasks ((Dev.notify_tasks _ t i).trans (h1.trans (Dev.told_tasks d i))) m))
    (.of_armTasks _ t i m)

end Sys2Proof.Machine
end

section
/-!
SUPPORT. The end of a run, fault stop and fault record (R44, R54, R58, R110): what each changes.
-/
namespace Sys2Proof.Machine

theorem Dev.pend_mem (d : Dev) (i : Nat) : (d.pend i).mem = d.mem := by
  unfold Dev.pend
  dsimp only
  split
  · rfl
  · split <;> rfl

theorem Dev.raise_mem (d : Dev) (t i : Nat) : (d.raise t i).mem = d.mem := by
  have ha (e : Dev) : (e.armTasks t i).mem = e.mem := foldl_keeps Dev.mem _ (fun _ _ => by split <;> rfl) _ _
  have hn (e : Dev) : (e.notify t i).mem = e.mem := by
    unfold Dev.notify Dev.msixSend
    split
    · split
      · dsimp only; split <;> rfl
      · rfl
    · rfl
  rw [Dev.raise_eq, ha, hn]
  show (d.told i).mem = _
  unfold Dev.told
  split <;> exact Dev.pend_mem d i

theorem Only.cores {d e : Dev} {l : List Part} {r : List Nat} (h : Only d e l r) (hl : Part.cores ∉ l) : e.cores = d.cores :=
  h.parts .cores hl

theorem Only.tasks {d e : Dev} {l : List Part} {r : List Nat} (h : Only d e l r) (hl : Part.tasks ∉ l) : e.tasks = d.tasks :=
  h.parts .tasks hl

/-! ## SAFE state and stopped releases -/

/-- The registers that show the SAFE state of task n. -/
def safeRegs (n : Nat) : List Nat := [Reg.IMG_SAFEMASK0 + 4 * (n / 32), Reg.TSK_STATE n]

theorem Only.of_setSafe (d : Dev) (n : Nat) (b : Bool) : Only d (d.setSafe n b) [] (safeRegs n) :=
  (((Only.of_setMaskBit d Reg.IMG_SAFEMASK0 n b).and (.of_setFld _ (F.TSK_STATE_SAFE n) _)).and (.of_touchOuts _)).more
    (by simp) (by simp [safeRegs, F.TSK_STATE_SAFE])

theorem Only.of_enterSafe (d : Dev) (n : Nat) : Only d (d.enterSafe n) [.tasks] (safeRegs n) := by
  have h := (Only.of_setTask d n { d.task n with commit := none }).more (r' := safeRegs n) (fun _ h => h) (by simp)
  exact .of_ite (fun _ => h) fun _ => h.trans ((Only.of_setSafe _ n true).more (by simp) (fun _ h => h))

theorem Only.of_setSt (d : Dev) (n st : Nat) : Only d (d.setSt n st) [] [Reg.TSK_STATE n] :=
  ((Only.of_setFld d (F.TSK_STATE_ST n) st).and (.of_touch _)).more (by simp) (by simp [F.TSK_STATE_ST])

theorem Only.of_showPend (d : Dev) (n : Nat) : Only d (d.showPend n) [] [Reg.TSK_STATE n] := .of_setFld _ (F.TSK_STATE_PEND n) _

theorem Only.of_discardWindow (d : Dev) (n : Nat) : Only d (d.discardWindow n) [.tasks] [Reg.TSK_CHKIN n] :=
  ((Only.of_modTask d n _).and (.of_setFld _ (F.TSK_CHKIN_CUR n) _)).more (by simp) (by simp [F.TSK_CHKIN_CUR])

theorem Only.of_clearReleases (d : Dev) (n : Nat) : Only d (d.clearReleases n) [.tasks] [Reg.TSK_STATE n, Reg.TSK_CHKIN n] :=
  (((Only.of_modTask d n _).and (.of_showPend _ n)).and (.of_discardWindow _ n)).more (by simp) (by simp)

/-! ## Fault stop (R58) -/

/-- R58: what a fault stop changes before its event. -/
theorem Only.of_stopped (d : Dev) (n : Nat) :
    Only d ((((d.enterSafe n).clearReleases n).setSt n 5).setFld (F.TSK_STATE_HALTED n) 1) [.tasks]
      [Reg.IMG_SAFEMASK0 + 4 * (n / 32), Reg.TSK_STATE n, Reg.TSK_CHKIN n] :=
  ((((Only.of_enterSafe d n).and (.of_clearReleases _ n)).and (.of_setSt _ n 5)).and (.of_setFld _ (F.TSK_STATE_HALTED n) 1)).more
    (by simp) (by simp [safeRegs, F.TSK_STATE_HALTED])

theorem Only.of_faultStop (d : Dev) (t n : Nat) : Only d (d.faultStop t n) [.msix, .tasks]
    ([Reg.IMG_SAFEMASK0 + 4 * (n / 32), Reg.TSK_STATE n, Reg.TSK_CHKIN n] ++ raiseRegs n) :=
  ((Only.of_stopped d n).and (.of_raise _ t n)).more (by simp) (by simp)

theorem Dev.faultStop_mem (d : Dev) (t n : Nat) : (d.faultStop t n).mem = d.mem := by
  have hs : (d.enterSafe n).mem = d.mem := by unfold Dev.enterSafe; dsimp only; split <;> rfl
  exact (Dev.raise_mem _ t n).trans hs

/-- An offset among the registers of tasks and core faults lies apart from those of event sources. -/
theorem apart_raiseRegs {o i : Nat} (hi : i < 256) (ho : 0x5500 ≤ o) : o ∉ raiseRegs i := by
  simp only [raiseRegs, Reg.INT_SRCCFG, Reg.INT_PEND, List.mem_cons, List.not_mem_nil, or_false, not_or]
  omega

/-- R58: the state of a task after its fault stop. -/
theorem Dev.faultStop_state (d : Dev) (t : Nat) {n : Nat} (hn : n < 64) :
    (d.faultStop t n).fld (F.TSK_STATE_ST n) = 5 ∧ (d.faultStop t n).fld (F.TSK_STATE_HALTED n) = 1 := by
  have hr (f : Fld) (h : f.off = Reg.TSK_STATE n) (e : Dev) : (e.raise t n).fld f = e.fld f :=
    (Only.of_raise e t n).fld (by decide) (by
      rw [h]
      simp only [raiseRegs, Reg.TSK_STATE, Reg.INT_SRCCFG, Reg.INT_PEND, Reg.INT_FIRST, Reg.BIO_BO0, Reg.BIO_BO1,
        List.mem_append, List.mem_cons, List.not_mem_nil, or_false, not_or]
      omega)
  have hst (e : Dev) : (e.setSt n 5).fld (F.TSK_STATE_ST n) = 5 := Dev.fld_setFld_same e (F.TSK_STATE_ST n) 5
    (Nat.le_of_ble_eq_true rfl) (Nat.lt_of_sub_eq_succ rfl)
  constructor
  · rw [Dev.faultStop, hr _ rfl, Dev.fld_setFld_bits _ _ (Nat.le_of_ble_eq_true rfl) (Nat.lt_of_sub_eq_succ rfl)
      (Or.inl (Nat.lt_of_sub_eq_succ rfl)), hst]
  · rw [Dev.faultStop, hr _ rfl, Dev.fld_setFld_same _ _ _ (Nat.le_of_ble_eq_true rfl) (Nat.lt_of_sub_eq_succ rfl)]
    rfl

/-! ## Fault record (R110) -/

/-- The registers of the fault record of core c, and those with its count. -/
def shownRegs (c : Nat) : List Nat := [Reg.TSK_CFLT0 c, Reg.TSK_CFLT1 c, Reg.TSK_CFLT2 c]
def recordRegs (c : Nat) : List Nat := shownRegs c ++ [Reg.TSK_CFLT3 c]

theorem Only.of_faultRecord (d : Dev) (c n code : Nat) (b : Bool) (left : Nat) (pc detail : Word) :
    Only d (d.faultRecord c n code b left pc detail) [] (recordRegs c) := by
  have h := (((Only.of_wr d (Reg.TSK_CFLT0 c) (BitVec.ofNat 32 (code + n * 2 ^ 4 + b2n b * 2 ^ 10 + left * 2 ^ 16 + 2 ^ 31))).and
    (.of_wr _ (Reg.TSK_CFLT1 c) pc)).and (.of_wr _ (Reg.TSK_CFLT2 c) detail)).more (l' := []) (r' := recordRegs c)
    (by simp) (by simp [recordRegs, shownRegs])
  exact .of_ite (fun _ => h) fun _ => h.trans ((Only.of_incFld _ _).more (by simp) (by simp [recordRegs, F.TSK_CFLT3_COUNT]))

/-- R110: what the fault record shows. -/
structure Recorded (d : Dev) (c n code : Nat) (pc detail : Word) : Prop where
  recorded : d.fld (F.TSK_CFLT0_CODE c) = code
  task : d.fld (F.TSK_CFLT0_TASK c) = n
  valid : d.fld (F.TSK_CFLT0_VALID c) = 1
  location : d.rd (Reg.TSK_CFLT1 c) = pc
  shown : d.rd (Reg.TSK_CFLT2 c) = detail

/-- A device that shows the same record. -/
theorem Recorded.of_rd {d e : Dev} {c n code : Nat} {pc detail : Word} (h : Recorded d c n code pc detail)
    (hr : ∀ off ∈ shownRegs c, e.rd off = d.rd off) : Recorded e c n code pc detail := by
  have h0 : e.rd (Reg.TSK_CFLT0 c) = d.rd (Reg.TSK_CFLT0 c) := hr _ (by simp [shownRegs])
  have hf (f : Fld) (hf : f.off = Reg.TSK_CFLT0 c) : e.fld f = d.fld f := by unfold Dev.fld; rw [hf, h0]
  exact ⟨(hf _ rfl).trans h.recorded, (hf _ rfl).trans h.task, (hf _ rfl).trans h.valid,
    (hr _ (by simp [shownRegs])).trans h.location, (hr _ (by simp [shownRegs])).trans h.shown⟩

theorem Recorded.of_faultRecord (d : Dev) (c : Nat) {n code left : Nat} (b : Bool) (pc detail : Word) (hn : n < 64)
    (hc : code < 16) (hl : left < 256) : Recorded (d.faultRecord c n code b left pc detail) c n code pc detail := by
  have hb : b2n b ≤ 1 := by cases b <;> decide
  have hw : (BitVec.ofNat 32 (code + n * 2 ^ 4 + b2n b * 2 ^ 10 + left * 2 ^ 16 + 2 ^ 31)).toNat =
      code + n * 16 + b2n b * 1024 + left * 65536 + 2147483648 := by
    rw [BitVec.toNat_ofNat]; omega
  have h : Recorded (((d.wr (Reg.TSK_CFLT0 c) (BitVec.ofNat 32 (code + n * 2 ^ 4 + b2n b * 2 ^ 10 + left * 2 ^ 16 + 2 ^ 31))).wr
      (Reg.TSK_CFLT1 c) pc).wr (Reg.TSK_CFLT2 c) detail) c n code pc detail := by
    have h0 : Reg.TSK_CFLT0 c ≠ Reg.TSK_CFLT2 c ∧ Reg.TSK_CFLT0 c ≠ Reg.TSK_CFLT1 c ∧ Reg.TSK_CFLT1 c ≠ Reg.TSK_CFLT2 c := by
      unfold Reg.TSK_CFLT0 Reg.TSK_CFLT1 Reg.TSK_CFLT2; omega
    generalize BitVec.ofNat 32 (code + n * 2 ^ 4 + b2n b * 2 ^ 10 + left * 2 ^ 16 + 2 ^ 31) = w at hw ⊢
    have hf (f : Fld) (hf : f.off = Reg.TSK_CFLT0 c) : (((d.wr (Reg.TSK_CFLT0 c) w).wr (Reg.TSK_CFLT1 c) pc).wr
        (Reg.TSK_CFLT2 c) detail).fld f = bitsOf w.toNat f.hi f.lo := by
      rw [Dev.fld_wr_ne _ _ (hf ▸ h0.1), Dev.fld_wr_ne _ _ (hf ▸ h0.2.1), Dev.fld, hf, Dev.rd_wr_same]
    refine ⟨?_, ?_, ?_, ?_, Dev.rd_wr_same _ _ _⟩
    · rw [hf _ rfl, hw]; simp only [bitsOf, F.TSK_CFLT0_CODE]; omega
    · rw [hf _ rfl, hw]; simp only [bitsOf, F.TSK_CFLT0_TASK]; omega
    · rw [hf _ rfl, hw]; simp only [bitsOf, F.TSK_CFLT0_VALID]; omega
    · rw [Dev.rd_wr_ne _ _ h0.2.2, Dev.rd_wr_same]
  unfold Dev.faultRecord
  dsimp only
  split
  · exact h
  · refine h.of_rd fun off ho => Dev.rd_wr_ne _ _ ?_
    simp only [shownRegs, Reg.TSK_CFLT0, Reg.TSK_CFLT1, Reg.TSK_CFLT2, List.mem_cons, List.not_mem_nil, or_false] at ho
    simp only [F.TSK_CFLT3_COUNT, Reg.TSK_CFLT3]
    omega

/-! ## The end of a run (R44, R54, R63) -/

/-- The run r above the runs rest of core c, gone, with its bank; its task is IDLE unless it is fault-stopped. -/
def Dev.popRun (d : Dev) (c : Nat) (r : Run) (rest : List Run) : Dev :=
  let d := d.setCore c { d.core c with runs := rest, banks := Sparse.set (fun _ => {}) (d.core c).banks r.bank {} }
  if d.st r.task = 5 then d else d.setSt r.task (if (d.task r.task).live then 1 else 6)

/-- R54: what follows below the run of task n that has ended on core c. -/
def Dev.goBelow (d : Dev) (c n : Nat) : List Run → Dev
  | [] => d
  | below :: _ => if d.takesOver c below then d.setCore c { d.core c with waiting := some n } else d.resumeRun c n below

/-- The end of a run where no mode change waits for it. -/
theorem Dev.endRun_eq {d : Dev} {c : Nat} {r : Run} {rest : List Run} (h : (d.core c).runs = r :: rest)
    (hm : d.modeChange = none) : d.endRun c = ((d.popRun c r rest).goBelow c r.task rest).countRun r.task := by
  have hp : (d.popRun c r rest).modeChange = none := by
    unfold Dev.popRun; dsimp only; split <;> exact hm
  have hb (t : Nat) : (d.popRun c r rest).boundaryPassed t r.task = d.popRun c r rest := by
    unfold Dev.boundaryPassed; rw [hp]
  have he : d.endRun c = (((d.popRun c r rest).boundaryPassed ((d.popRun c r rest).core c).time r.task).goBelow c r.task
      rest).countRun r.task := by
    unfold Dev.endRun
    rw [h]
    cases rest <;> rfl
  rw [he, hb]

theorem Only.of_popRun (d : Dev) (c : Nat) (r : Run) (rest : List Run) :
    Only d (d.popRun c r rest) [.cores] [Reg.TSK_STATE r.task] := by
  have h := (Only.of_setCore d c { d.core c with runs := rest, banks := Sparse.set (fun _ => {}) (d.core c).banks r.bank {} }).more
    (r' := [Reg.TSK_STATE r.task]) (fun _ h => h) (by simp)
  exact .of_ite (fun _ => h) fun _ => h.trans ((Only.of_setSt _ _ _).more (by simp) (fun _ h => h))

theorem Only.of_charge (d : Dev) (c n k : Nat) : Only d (d.charge c n k) [.cores] [Reg.TSK_USED n] :=
  ((Only.of_setCore d c _).and (.of_wr _ _ _)).more (by simp) (by simp)

/-- The registers that show a task and what its run has used. -/
def resumeRegs (n : Nat) (rest : List Run) : List Nat := Reg.TSK_USED n :: (rest.take 1).map (fun q => Reg.TSK_STATE q.task)

theorem Only.of_goBelow (d : Dev) (c n : Nat) (rest : List Run) : Only d (d.goBelow c n rest) [.cores] (resumeRegs n rest) := by
  cases rest with
  | nil => exact .refl _ _ _
  | cons below rest =>
    refine .of_ite (fun _ => (Only.of_setCore _ _ _).more (fun _ h => h) (by simp)) fun _ => ?_
    exact (((Only.of_charge d c n 12).and (.of_setSt _ below.task 3)).and (.of_setCore _ c _)).more (by simp)
      (by simp [resumeRegs])

/-- R54: the core after the end of its run. -/
theorem Dev.goBelow_core (d : Dev) (c n e : Nat) (rest : List Run) :
    ((d.goBelow c n rest).core e).runs = (d.core e).runs ∧ ((d.goBelow c n rest).core e).banks = (d.core e).banks ∧
      (e ≠ c → (d.goBelow c n rest).core e = d.core e) := by
  cases rest with
  | nil => exact ⟨rfl, rfl, fun _ => rfl⟩
  | cons below rest =>
    simp only [Dev.goBelow]
    split
    · by_cases h : e = c
      · subst h; simp
      · simp [Dev.core_setCore_ne _ _ h]
    · have hs (x : Dev) (k : Nat) : (x.setSt below.task 3).core k = x.core k := rfl
      unfold Dev.resumeRun
      dsimp only
      by_cases h : e = c
      · subst h; simp [hs, Dev.charge_core]
      · simp [Dev.core_setCore_ne _ _ h, hs, Dev.charge_core_ne _ _ _ h]

theorem Dev.popRun_core (d : Dev) (c : Nat) (r : Run) (rest : List Run) (e : Nat) :
    (d.popRun c r rest).core e =
      (d.setCore c { d.core c with runs := rest, banks := Sparse.set (fun _ => {}) (d.core c).banks r.bank {} }).core e := by
  unfold Dev.popRun
  dsimp only
  split <;> rfl

theorem Only.of_countRun (d : Dev) (n : Nat) : Only d (d.countRun n) [.tasks] [] := Only.of_setTask d n _

section
variable {d : Dev} {c : Nat} {r : Run} {rest : List Run} (h : (d.core c).runs = r :: rest) (hm : d.modeChange = none)
include h hm

/-- R44, R54: the end of a run changes its core and the registers that show it, and counts the run. -/
theorem Only.of_endRun : Only d (d.endRun c) [.cores, .tasks] (Reg.TSK_STATE r.task :: resumeRegs r.task rest) := by
  rw [Dev.endRun_eq h hm]
  exact (((Only.of_popRun d c r rest).and (.of_goBelow _ c r.task rest)).and (.of_countRun _ _)).more (by simp) (by simp)

theorem Dev.endRun_core_ne {e : Nat} (he : e ≠ c) : (d.endRun c).core e = d.core e := by
  rw [Dev.endRun_eq h hm]
  exact (((Dev.goBelow_core _ c r.task e rest).2.2 he).trans (Dev.popRun_core d c r rest e)).trans (Dev.core_setCore_ne _ _ he)

theorem Dev.endRun_runs : ((d.endRun c).core c).runs = rest := by
  rw [Dev.endRun_eq h hm]
  refine (Dev.goBelow_core _ c r.task c rest).1.trans ?_
  rw [Dev.popRun_core, Dev.core_setCore_same]

theorem Dev.endRun_bank (k : Nat) : (d.endRun c).bank c k = if k = r.bank then {} else d.bank c k := by
  rw [Dev.endRun_eq h hm]
  have hb : (((d.popRun c r rest).goBelow c r.task rest).core c).banks =
      Sparse.set (fun _ => {}) (d.core c).banks r.bank {} := by
    rw [(Dev.goBelow_core _ c r.task c rest).2.1, Dev.popRun_core, Dev.core_setCore_same]
  change Sparse.get _ (((d.popRun c r rest).goBelow c r.task rest).core c).banks k = _
  rw [hb]
  split
  · subst_vars; exact Sparse.get_set_same _ _ _ _
  · exact Sparse.get_set_ne _ _ _ ‹_›

theorem Dev.endRun_mem : (d.endRun c).mem = d.mem := by
  rw [Dev.endRun_eq h hm]
  have hp : (d.popRun c r rest).mem = d.mem := by unfold Dev.popRun; dsimp only; split <;> rfl
  refine Eq.trans ?_ hp
  cases rest with
  | nil => rfl
  | cons below rest =>
    change Dev.mem (Dev.goBelow _ _ _ _) = _
    simp only [Dev.goBelow]
    split <;> rfl

/-- R55: nothing follows by itself the end of a run above others that stand in their logic. -/
theorem Dev.proceedFor_endRun (hs : ∀ q ∈ rest, q.stage = .logic) (k : Nat) : Dev.proceedFor c k (d.endRun c) = d.endRun c := by
  have hr := Dev.endRun_runs h hm
  cases k with
  | zero => rfl
  | succ k =>
    unfold Dev.proceedFor
    cases hc : (d.endRun c).curRun c with
    | none => rfl
    | some q =>
      unfold Dev.curRun at hc
      rw [hr] at hc
      split at hc
      · cases hc
      · exact if_pos (.inr (.inl (hs q (List.mem_of_mem_head? hc))))

theorem Dev.proceed_endRun (hs : ∀ q ∈ rest, q.stage = .logic) : (d.endRun c).proceed c = d.endRun c :=
  Dev.proceedFor_endRun h hm hs 32

/-- The state of the task whose run has ended. -/
theorem Dev.endRun_state (hn : r.task < 64) (ha : ∀ q ∈ rest, q.task ≠ r.task) : (d.endRun c).fld (F.TSK_STATE_ST r.task) =
    if d.fld (F.TSK_STATE_ST r.task) = 5 then 5 else if (d.task r.task).live then 1 else 6 := by
  have hp : (d.popRun c r rest).fld (F.TSK_STATE_ST r.task) =
      if d.fld (F.TSK_STATE_ST r.task) = 5 then 5 else if (d.task r.task).live then 1 else 6 := by
    unfold Dev.popRun
    dsimp only
    split
    · rename_i h5
      exact h5.trans (if_pos h5).symm
    · rename_i h5
      refine (Dev.fld_setFld_same _ (F.TSK_STATE_ST r.task) _ (Nat.le_of_ble_eq_true rfl) (Nat.lt_of_sub_eq_succ rfl)).trans ?_
      refine Eq.trans ?_ (if_neg h5).symm
      change (if (d.task r.task).live then 1 else 6) % 8 = _
      split <;> rfl
  rw [Dev.endRun_eq h hm, ← hp]
  refine (Only.of_goBelow (d.popRun c r rest) c r.task rest).fld (by decide) ?_
  simp only [resumeRegs, F.TSK_STATE_ST, List.mem_append, List.mem_cons, List.mem_map, List.not_mem_nil, or_false, not_or]
  refine ⟨⟨by unfold Reg.TSK_STATE Reg.TSK_USED; omega, ?_⟩, ?_⟩
  · rintro ⟨q, hq, he⟩
    have := ha q (List.mem_of_mem_take hq)
    unfold Reg.TSK_STATE at he
    omega
  · unfold Reg.TSK_STATE Reg.INT_FIRST Reg.BIO_BO0 Reg.BIO_BO1
    omega

end

end Sys2Proof.Machine
end

section
/-!
PROOFS. Scan cores: a run that ends with a core fault (R58, R109, R110).
-/
namespace Sys2Proof.Machine

/-- A list with a first element is that element and the rest. -/
theorem eq_cons_of_head {α : Type} {x : α} : {l : List α} → l.head? = some x → l = x :: l.tail
  | [], h => nomatch h
  | _ :: _, h => congrArg (· :: _) (Option.some.inj h)

/-- Device d holds the cores, the memories and the waiting mode change of state s as core c finds it, but for what core c
has worked. -/
structure AtFault (s : State) (c : Nat) (d : Dev) : Prop where
  runs : (d.core c).runs = (s.dev.core c).runs
  waiting : (d.core c).waiting = (s.dev.core c).waiting
  banks : ∀ k, d.bank c k = s.dev.bank c k
  cores : ∀ e, e ≠ c → d.core e = s.dev.core e
  mem : d.mem = (s.found c).mem
  calm : d.modeChange = none

theorem State.found_modeChange (s : State) (c : Nat) : (s.found c).modeChange = s.dev.modeChange :=
  Dev.upTo_keeps Dev.modeChange (by constructor <;> exact fun _ _ => rfl) _ _

/-- Ticks charged bring a device to no fault. -/
theorem AtFault.of_charge {s : State} {c : Nat} {d : Dev} (n k : Nat) (hc : d.cores = (s.found c).cores)
    (hm : d.mem = (s.found c).mem) (h : d.modeChange = none) : AtFault s c (d.charge c n k) := by
  have hk (e : Nat) : d.core e = s.dev.core e := (Dev.core_of_cores hc e).trans (State.found_core s c e)
  refine ⟨?_, ?_, fun j => ?_, fun e he => ?_, hm, h⟩
  · rw [Dev.charge_core, Core.spend_runs, hk]
  · rw [Dev.charge_core, Core.spend_waiting, hk]
  · rw [Dev.charge_bank, Dev.bank, hk]; rfl
  · rw [Dev.charge_core_ne _ _ _ he, hk]

section
variable {s : State} {c : Nat} {r : Run} {d : Dev} (hp : Plain s c r) (hx : (s.found c).execRun c = some r)
  (hd : AtFault s c d)
include hp hx hd

omit hp in
theorem AtFault.curRun : d.curRun c = some r := by
  rw [← Dev.curRun_of_execRun hx]
  unfold Dev.curRun
  rw [hd.runs, hd.waiting, State.found_core]

omit hp in
theorem AtFault.runs_cons : (d.core c).runs = r :: (s.dev.core c).runs.drop 1 := by
  have h := hd.curRun hx
  unfold Dev.curRun at h
  split at h
  · cases h
  · rw [← hd.runs, List.drop_one]
    exact eq_cons_of_head h

theorem AtFault.task_lt : r.task < 64 :=
  hp.tasks r (by rw [← hd.runs, hd.runs_cons hx]; exact List.mem_cons_self)

end

/-- R58, R109: the device with its fault record and its event. -/
def Dev.faultShown (d : Dev) (c n code left : Nat) (b : Bool) (pc detail : Word) (t : Nat) : Dev :=
  if code = 15 then d.faultRecord c n code b left pc detail else (d.faultRecord c n code b left pc detail).raise t (64 + c)

theorem Dev.coreFault_eq {d : Dev} {c : Nat} {r : Run} (h : d.curRun c = some r) (code left : Nat) (pc detail : Word) :
    d.coreFault c code left pc detail =
      ((d.faultShown c r.task code left (!(d.bank c r.bank).shadow.isEmpty) pc detail (d.core c).time).faultStop
        (d.core c).time r.task).endRun c := by
  unfold Dev.coreFault Dev.faultShown
  rw [h]

/-- The registers that a core fault of task n on core c changes after its record. -/
def stopRegs (c n : Nat) : List Nat :=
  raiseRegs (64 + c) ++ ([Reg.IMG_SAFEMASK0 + 4 * (n / 32), Reg.TSK_STATE n, Reg.TSK_CHKIN n] ++ raiseRegs n)

theorem Only.of_faultShown (d : Dev) (c n code left : Nat) (b : Bool) (pc detail : Word) (t : Nat) :
    Only (d.faultRecord c n code b left pc detail) (d.faultShown c n code left b pc detail t) [.msix, .tasks] (raiseRegs (64 + c)) :=
  .of_ite (fun _ => .refl _ _ _) fun _ => .of_raise _ _ _

/-- The fault record lies apart from what changes after it. -/
theorem shown_apart {c n off : Nat} {rest : List Run} (hc : c < 8) (hn : n < 64) (hr : ∀ q ∈ rest, q.task < 64)
    (ho : off ∈ shownRegs c) :
    off ∉ (stopRegs c n ++ (Reg.TSK_STATE n :: resumeRegs n rest)) ++ [Reg.INT_FIRST, Reg.BIO_BO0, Reg.BIO_BO1] := by
  have hs : 0x10900 ≤ off ∧ off < 0x10980 := by
    simp only [shownRegs, Reg.TSK_CFLT0, Reg.TSK_CFLT1, Reg.TSK_CFLT2, List.mem_cons, List.not_mem_nil, or_false] at ho
    omega
  simp only [stopRegs, resumeRegs, List.mem_append, List.mem_cons, List.mem_map, List.not_mem_nil, or_false, not_or]
  refine ⟨⟨⟨apart_raiseRegs (by omega) (by omega), ⟨?_, ?_, ?_⟩, apart_raiseRegs (by omega) (by omega)⟩, ?_, ?_, ?_⟩, ?_⟩
  · unfold Reg.IMG_SAFEMASK0; omega
  · unfold Reg.TSK_STATE; omega
  · unfold Reg.TSK_CHKIN; omega
  · unfold Reg.TSK_STATE; omega
  · unfold Reg.TSK_USED; omega
  · rintro ⟨q, hq, rfl⟩
    have := hr q (List.mem_of_mem_take hq)
    unfold Reg.TSK_STATE at hs
    omega
  · unfold Reg.INT_FIRST Reg.BIO_BO0 Reg.BIO_BO1; omega

theorem resume_apart {n : Nat} {rest : List Run} (hn : n < 64) (ha : ∀ q ∈ rest, q.task ≠ n) :
    Reg.TSK_STATE n ∉ resumeRegs n rest ++ [Reg.INT_FIRST, Reg.BIO_BO0, Reg.BIO_BO1] := by
  simp only [resumeRegs, List.mem_append, List.mem_cons, List.mem_map, List.not_mem_nil, or_false, not_or]
  refine ⟨⟨by unfold Reg.TSK_STATE Reg.TSK_USED; omega, ?_⟩, by unfold Reg.TSK_STATE Reg.INT_FIRST Reg.BIO_BO0 Reg.BIO_BO1; omega⟩
  rintro ⟨q, hq, he⟩
  have := ha q (List.mem_of_mem_take hq)
  unfold Reg.TSK_STATE at he
  omega

/-- The pending bits lie apart from what the end of a run changes. -/
theorem pend_apart {n j : Nat} {rest : List Run} (hj : j < 256) :
    Reg.INT_PEND 0 + 4 * (j / 32) ∉ (Reg.TSK_STATE n :: resumeRegs n rest) ++ [Reg.INT_FIRST, Reg.BIO_BO0, Reg.BIO_BO1] := by
  simp only [resumeRegs, List.mem_append, List.mem_cons, List.mem_map, List.not_mem_nil, or_false, not_or]
  refine ⟨⟨?_, ?_, ?_⟩, ?_⟩
  · unfold Reg.INT_PEND Reg.TSK_STATE; omega
  · unfold Reg.INT_PEND Reg.TSK_USED; omega
  · rintro ⟨q, _, he⟩
    unfold Reg.INT_PEND Reg.TSK_STATE at he; omega
  · unfold Reg.INT_PEND Reg.INT_FIRST Reg.BIO_BO0 Reg.BIO_BO1; omega

/-- The state of a fault-stopped task stays through the end of its run. -/
theorem Dev.endRun_stopped {d : Dev} {c : Nat} {r : Run} {rest : List Run} (h : (d.core c).runs = r :: rest)
    (hm : d.modeChange = none) (hn : r.task < 64) (ha : ∀ q ∈ rest, q.task ≠ r.task) (h5 : d.fld (F.TSK_STATE_ST r.task) = 5) :
    (d.endRun c).rd (Reg.TSK_STATE r.task) = d.rd (Reg.TSK_STATE r.task) := by
  have hp : (d.popRun c r rest).rd (Reg.TSK_STATE r.task) = d.rd (Reg.TSK_STATE r.task) := by
    unfold Dev.popRun
    dsimp only
    split
    · rfl
    · rename_i h
      exact absurd h5 h
  rw [Dev.endRun_eq h hm, ← hp]
  exact (Only.of_goBelow (d.popRun c r rest) c r.task rest).rd (by decide) (resume_apart hn ha)

/-- Device z is device d with the fault record of task n on core c, the task fault-stopped, and its events raised. -/
structure FaultStopped (d z : Dev) (c n code : Nat) (pc detail : Word) : Prop where
  cores : z.cores = d.cores
  mem : z.mem = d.mem
  calm : z.modeChange = d.modeChange
  shown : Recorded z c n code pc detail
  state : z.fld (F.TSK_STATE_ST n) = 5 ∧ z.fld (F.TSK_STATE_HALTED n) = 1
  raised : z.pendingSrc n = true ∧ (code ≠ 15 → z.pendingSrc (64 + c) = true)

/-- Registers written change no memory. -/
theorem Dev.mem_recordWritten (d : Dev) {p : Prop} [Decidable p] (a b e : Nat) (w pc detail : Word) (f : Fld) :
    (if p then ((d.wr a w).wr b pc).wr e detail else (((d.wr a w).wr b pc).wr e detail).incFld f).mem = d.mem := by
  split <;> rfl

theorem Dev.faultShown_mem (d : Dev) (c n code left : Nat) (b : Bool) (pc detail : Word) (t : Nat) :
    (d.faultShown c n code left b pc detail t).mem = d.mem := by
  have h : (d.faultRecord c n code b left pc detail).mem = d.mem := Dev.mem_recordWritten d _ _ _ _ _ _ _
  unfold Dev.faultShown
  split
  · exact h
  · exact (Dev.raise_mem _ _ _).trans h

theorem FaultStopped.of {d : Dev} {c n code left : Nat} (b : Bool) (pc detail : Word) (t : Nat) (h8 : c < 8) (hn : n < 64)
    (hc : code < 16) (hl : left < 256) :
    FaultStopped d ((d.faultShown c n code left b pc detail t).faultStop t n) c n code pc detail := by
  have o1 : Only d (d.faultRecord c n code b left pc detail) [] (recordRegs c) := .of_faultRecord ..
  have o2 := Only.of_faultShown d c n code left b pc detail t
  have o3 := Only.of_faultStop (d.faultShown c n code left b pc detail t) t n
  have o := ((o1.and o2).and o3)
  have hm : Part.same d ((d.faultShown c n code left b pc detail t).faultStop t n) .modes := o.parts .modes (by decide)
  have hpend (j : Nat) (hj : j < 256) : ((d.faultShown c n code left b pc detail t).faultStop t n).pendingSrc j =
      (decide (j = n) || (d.faultShown c n code left b pc detail t).pendingSrc j) := by
    refine (Dev.pendingSrc_raise _ t n hj).trans (congrArg _ (Dev.pendingSrc_of_rd ((Only.of_stopped _ n).rd (by decide) ?_)))
    simp only [Reg.INT_PEND, Reg.IMG_SAFEMASK0, Reg.TSK_STATE, Reg.TSK_CHKIN, Reg.INT_FIRST, Reg.BIO_BO0, Reg.BIO_BO1,
      List.mem_append, List.mem_cons, List.not_mem_nil, or_false, not_or]
    omega
  refine ⟨o.cores (by decide), (Dev.faultStop_mem _ t n).trans (Dev.faultShown_mem ..), hm.1, ?_, Dev.faultStop_state _ t hn,
    by rw [hpend n (by omega)]; simp, fun h15 => ?_⟩
  · refine (Recorded.of_faultRecord d c b pc detail hn hc hl).of_rd fun off ho => (o2.and o3).rd (by decide) fun hm => ?_
    exact shown_apart (rest := []) h8 hn (by simp) ho (List.mem_append.mpr
      ((List.mem_append.mp hm).imp (List.mem_append_left _) id))
  · rw [hpend _ (by omega), Dev.faultShown, if_neg h15, Dev.pendingSrc_raise _ _ _ (by omega)]
    simp

section
variable {s : State} {c : Nat} {r : Run} {d : Dev} (hp : Plain s c r) (hx : (s.found c).execRun c = some r)
  (hd : AtFault s c d)
include hp hx hd

/-- R58, R109, R110: the end of the run in progress with a core fault. -/
theorem EndsWith.of_fault {code left : Nat} (pc detail : Word) (hc : code < 16) (hl : left < 256) :
    EndsWith s (s.coreEnd c ((d.coreFault c code left pc detail).proceed c)) c r code pc detail := by
  have hn := hd.task_lt hp hx
  have hrest : ∀ q ∈ (s.dev.core c).runs.drop 1, q.task < 64 := fun q hq => hp.tasks q (List.mem_of_mem_drop hq)
  have hz := FaultStopped.of (d := d) (left := left) (!(d.bank c r.bank).shadow.isEmpty) pc detail (d.core c).time hp.core hn hc hl
  rw [Dev.coreFault_eq (hd.curRun hx)]
  generalize (d.faultShown c r.task code left (!(d.bank c r.bank).shadow.isEmpty) pc detail (d.core c).time).faultStop
    (d.core c).time r.task = z at hz ⊢
  have hcons : (z.core c).runs = r :: (s.dev.core c).runs.drop 1 := by
    rw [Dev.core_of_cores hz.cores]; exact hd.runs_cons hx
  have hm : z.modeChange = none := hz.calm.trans hd.calm
  rw [Dev.proceed_endRun hcons hm hp.steady]
  have o := (Only.of_endRun hcons hm).settled ((z.endRun c).core c).time
  have hst : ((z.endRun c).settleOuts ((z.endRun c).core c).time).settle.rd (Reg.TSK_STATE r.task) = z.rd (Reg.TSK_STATE r.task) :=
    (Dev.settled_rd _ _ (by
      simp only [Reg.TSK_STATE, Reg.INT_FIRST, Reg.BIO_BO0, Reg.BIO_BO1, List.mem_cons, List.not_mem_nil, or_false]
      omega)).trans (Dev.endRun_stopped hcons hm hn hp.apart hz.state.1)
  have hshown := hz.shown.of_rd (e := ((z.endRun c).settleOuts ((z.endRun c).core c).time).settle) fun off ho =>
    o.rd (by decide) fun hi => shown_apart (c := c) (n := r.task) (rest := (s.dev.core c).runs.drop 1) hp.core hn hrest ho
      (List.mem_append.mpr ((List.mem_append.mp hi).imp (List.mem_append_right _) id))
  have hpend (j : Nat) (hj : j < 256) :
      ((z.endRun c).settleOuts ((z.endRun c).core c).time).settle.pendingSrc j = z.pendingSrc j :=
    Dev.pendingSrc_of_rd (o.rd (by decide) (pend_apart hj))
  have hcore (e : Nat) : ((z.endRun c).settleOuts ((z.endRun c).core c).time).settle.core e = (z.endRun c).core e :=
    Dev.core_of_cores (Dev.settled_cores _ _) e
  have hbank (k : Nat) : ((z.endRun c).settleOuts ((z.endRun c).core c).time).settle.bank c k =
      if k = r.bank then {} else s.dev.bank c k := by
    rw [Dev.bank, hcore, ← hd.banks k, ← show z.bank c k = d.bank c k by rw [Dev.bank, Dev.core_of_cores hz.cores]; rfl]
    exact Dev.endRun_bank hcons hm k
  refine ⟨hshown.recorded, hshown.task, hshown.valid, hshown.location, hshown.shown, ⟨?_, ?_⟩, ⟨?_, fun h15 => ?_⟩, ?_, ?_,
    fun k hk => ?_, fun e he => ?_, ?_, rfl⟩
  · exact (congrArg (fun w : Word => bitsOf w.toNat 2 0) hst).trans hz.state.1
  · exact (congrArg (fun w : Word => bitsOf w.toNat 11 11) hst).trans hz.state.2
  · exact (hpend _ (by omega)).trans hz.raised.1
  · exact (hpend _ (by have := hp.core; omega)).trans (hz.raised.2 h15)
  · exact (congrArg Core.runs (hcore c)).trans (Dev.endRun_runs hcons hm)
  · exact (hbank _).trans (if_pos rfl)
  · exact (hbank _).trans (if_neg hk)
  · exact (hcore e).trans ((Dev.endRun_core_ne hcons hm he).trans ((Dev.core_of_cores hz.cores e).trans (hd.cores e he)))
  · exact (Dev.settled_mem _ _).trans ((Dev.endRun_mem hcons hm).trans (hz.mem.trans hd.mem))

end

end Sys2Proof.Machine
end

section
/-!
PROOFS. Scan cores: faults of fetch, encoding and operands (R20, R21, R89, R92, R94, R103, R108 to R110).
-/
namespace Sys2Proof.Machine

section
variable {s : State} {c : Nat} {r : Run} {pre : Fetch} {own : List Byte} {accept : List PrefixKind} {legal : Bool}
  {cost : Cpu → Nat} {body : Body}

/-- R106, R109: an instruction that starts and whose body faults. -/
theorem State.instr_faults {code k : Nat} {v : Word} (hp : Plain s c r) (h : Starts s c r accept pre own.length)
    (hl : legal = true) (hk : cost (s.cpu0 c r pre own.length) = k)
    (hy : body (s.cpu c r pre own.length k) = .error (code, v)) (hc : code < 16) :
    ∃ t, s.instr c accept pre legal own cost body = .next t ∧ EndsWith s t c r code (s.bankOf c r).pc v := by
  subst hk
  have hb : (s.found c).bank c r.bank = s.bankOf c r := rfl
  have hy' : body ⟨(s.found c).charge c r.task (cost (s.cpu0 c r pre own.length)), c, r, s.bankOf c r, modsOf pre,
      s.after c r pre own.length, 0, .goes, false⟩ = .error (code, v) := hy
  have hd : Dev.instr c accept pre legal own cost body (s.found c) =
      ((s.found c).charge c r.task 1).coreFault c code 0 (s.bankOf c r).pc v := by
    rw [Dev.instr_reaches cost body h.toReaches hl h.cond, Dev.repetitions]
    simp only [State.cpu0] at hy'
    simp only [Cpu.once, Cpu.withDev, Bool.false_eq_true, if_false, hb, hy', Dev.instrFault, h.once, Option.isSome_none]
  refine ⟨_, (State.onCore_awake h.awake).trans (by rw [hd]), ?_⟩
  exact .of_fault hp h.runs (.of_charge r.task 1 rfl rfl ((s.found_modeChange c).trans hp.calm)) _ _ hc (by decide)

/-- R110, R129: HALT. -/
theorem State.instr_halts {k : Nat} (hp : Plain s c r) (h : Starts s c r accept pre own.length)
    (hl : legal = true) (hk : cost (s.cpu0 c r pre own.length) = k)
    (hy : body (s.cpu c r pre own.length k) = .ok { s.cpu c r pre own.length k with ending := .halts }) :
    ∃ t, s.instr c accept pre legal own cost body = .next t ∧ EndsWith s t c r 15 (s.bankOf c r).pc 0 := by
  subst hk
  have hb : (s.found c).bank c r.bank = s.bankOf c r := rfl
  have hy' : body ⟨(s.found c).charge c r.task (cost (s.cpu0 c r pre own.length)), c, r, s.bankOf c r, modsOf pre,
      s.after c r pre own.length, 0, .goes, false⟩ = .ok ⟨(s.found c).charge c r.task (cost (s.cpu0 c r pre own.length)), c, r,
      s.bankOf c r, modsOf pre, s.after c r pre own.length, 0, .halts, false⟩ := hy
  have hd : Dev.instr c accept pre legal own cost body (s.found c) =
      ((s.found c).charge c r.task (cost (s.cpu0 c r pre own.length))).coreFault c 15 0 (s.bankOf c r).pc 0 := by
    rw [Dev.instr_reaches cost body h.toReaches hl h.cond, Dev.repetitions]
    simp only [State.cpu0] at hy' ⊢
    simp only [Cpu.once, Cpu.withDev, Bool.false_eq_true, if_false, hb, hy']
  refine ⟨_, (State.onCore_awake h.awake).trans (by rw [hd]), ?_⟩
  exact .of_fault hp h.runs (.of_charge r.task _ rfl rfl ((s.found_modeChange c).trans hp.calm)) _ _ (by decide) (by decide)

end

/-! ## Fetch and encoding -/

/-- R11: corrections counted. -/
theorem Only.of_eccCorrected (d : Dev) (mem core : Nat) : Only d (d.eccCorrected mem core) [] [Reg.SYS_ECC] :=
  (((Only.of_incFld d F.SYS_ECC_CORR).and (.of_setFld _ F.SYS_ECC_LASTMEM mem)).and (.of_setFld _ F.SYS_ECC_LASTCORE core)).more
    (by simp) (by simp [F.SYS_ECC_CORR, F.SYS_ECC_LASTMEM, F.SYS_ECC_LASTCORE])

theorem Only.of_eccCounted (d : Dev) (mem core n : Nat) : Only d (d.eccCounted mem core n) [] [Reg.SYS_ECC] :=
  .of_forN _ _ (fun _ d => .of_eccCorrected d mem core) _

theorem Dev.eccCounted_mem (d : Dev) (mem core n : Nat) : (d.eccCounted mem core n).mem = d.mem :=
  forN_keeps Dev.mem n (fun _ d => d.eccCorrected mem core) (fun _ _ => rfl) d

/-- R96: a count of REP is a byte. -/
theorem modsOf_rep_lt (pre : Fetch) {k : Nat} (h : (modsOf pre).rep = some k) : k < 256 := by
  have key (l : List Prefix) (m : Mods) (hm : ∀ k, m.rep = some k → k < 256) :
      ∀ k, (l.foldl Mods.take m).rep = some k → k < 256 := by
    induction l generalizing m with
    | nil => exact hm
    | cons p l ih =>
      refine ih _ ?_
      cases p with
      | rep n => exact fun k hk => Option.some.inj hk ▸ n.isLt
      | _ => exact hm
  exact key _ {} (fun _ hk => by cases hk) k h

theorem repsOf_lt {m : Mods} {b : Bank} (h : ∀ k, m.rep = some k → k < 256) (hb : b.repLeft = 0) : repsOf m b < 256 := by
  unfold repsOf
  cases hm : m.rep with
  | none => simp
  | some k => simpa [hb] using h k hm

/-- R110: the bytes of the instruction that DETAIL shows. -/
theorem headWord_byte (d : Dev) (c : Nat) (pc : Word) (bytes : List Byte) {k : Nat} (h4 : k < 4) (hk : k < bytes.length)
    (hin : pc.toNat + k < 0x400000) : (headWord d c pc bytes).extractLsb' (8 * k) 8 = bytes.getD k 0 := by
  have hb : headByte d c pc bytes k = bytes.getD k 0 := by
    unfold headByte
    dsimp only
    simp only [if_pos hin, List.getD_eq_getElem?_getD, List.getElem?_eq_getElem hk, Option.getD_some]
  rw [← hb]
  have he (b0 b1 b2 b3 : Byte) : (b3 ++ b2 ++ b1 ++ b0).extractLsb' 0 8 = b0 ∧ (b3 ++ b2 ++ b1 ++ b0).extractLsb' 8 8 = b1 ∧
      (b3 ++ b2 ++ b1 ++ b0).extractLsb' 16 8 = b2 ∧ (b3 ++ b2 ++ b1 ++ b0).extractLsb' 24 8 = b3 := by
    have hw : (b3 ++ b2 ++ b1 ++ b0).toNat = ((b3.toNat * 256 + b2.toNat) * 256 + b1.toNat) * 256 + b0.toNat := by
      rw [BitVec.toNat_append, BitVec.toNat_append, BitVec.toNat_append, ← Nat.shiftLeft_add_eq_or_of_lt b0.isLt,
        ← Nat.shiftLeft_add_eq_or_of_lt b1.isLt, ← Nat.shiftLeft_add_eq_or_of_lt b2.isLt, Nat.shiftLeft_eq, Nat.shiftLeft_eq,
        Nat.shiftLeft_eq]
    have h0 := b0.isLt
    have h1 := b1.isLt
    have h2 := b2.isLt
    have h3 := b3.isLt
    refine ⟨?_, ?_, ?_, ?_⟩ <;> apply BitVec.eq_of_toNat_eq <;>
      rw [BitVec.extractLsb'_toNat, hw, Nat.shiftRight_eq_div_pow] <;> omega
  obtain ⟨e0, e1, e2, e3⟩ := he (headByte d c pc bytes 0) (headByte d c pc bytes 1) (headByte d c pc bytes 2) (headByte d c pc bytes 3)
  match k, h4 with
  | 0, _ => exact e0
  | 1, _ => exact e1
  | 2, _ => exact e2
  | 3, _ => exact e3

/-- R108: the bytes of the instruction at pc show a fault. -/
inductive Unread (accept : List PrefixKind) (pre : Fetch) (own : List Byte) (legal : Bool) (pc : Word) : Nat → Prop where
  | range (h : 0x400000 < pc.toNat + (fetchedBytes pre own).length) : Unread accept pre own legal pc 1
  | illegal (h : pc.toNat + (fetchedBytes pre own).length ≤ 0x400000) (hl : (prefixesOk accept pre && legal) = false) :
    Unread accept pre own legal pc 2

/-- R96: the repetitions that the fault record shows of an instruction that cannot be read whole. -/
def unreadReps (pre : Fetch) (b : Bank) : Nat :=
  if (modsOf pre).rep.isSome ∧ b.pc.toNat + (pre.prefixes.flatMap prefixBytes).length ≤ 0x400000 then repsOf (modsOf pre) b else 0

theorem unreadReps_lt (pre : Fetch) {b : Bank} (h : b.repLeft = 0) : unreadReps pre b < 256 := by
  unfold unreadReps
  split
  · exact repsOf_lt (fun _ => modsOf_rep_lt pre) h
  · decide

/-- R108 to R110: what an instruction does whose bytes show a fault. -/
theorem Dev.instr_unread {d : Dev} {c : Nat} {r : Run} {accept : List PrefixKind} {pre : Fetch} {own : List Byte} {legal : Bool}
    (cost : Cpu → Nat) (body : Body) {code : Nat} (hx : d.execRun c = some r) (ho : d.overrunDue r = false)
    (hp : d.preempting c r = none)
    (hf : Unread accept pre own legal ((d.eccCounted 0 c pre.corrected).bank c r.bank).pc code) :
    Dev.instr c accept pre legal own cost body d =
      (d.eccCounted 0 c pre.corrected).nextFree.instrFault c r (unreadReps pre ((d.eccCounted 0 c pre.corrected).bank c r.bank))
        ((d.eccCounted 0 c pre.corrected).bank c r.bank).pc
        (code, headWord (d.eccCounted 0 c pre.corrected) c ((d.eccCounted 0 c pre.corrected).bank c r.bank).pc
          (fetchedBytes pre own)) := by
  unfold Dev.instr
  simp only [hx, ho, hp, Option.isSome_none, Bool.or_false, Bool.false_eq_true, if_false]
  cases hf with
  | range h => rw [if_pos h]; rfl
  | illegal h hl => rw [if_neg (Nat.not_lt.mpr h), hl, Bool.not_false, if_pos rfl]; rfl

/-- R106, R109: the end of a run by the fault of an instruction. -/
theorem EndsWith.of_instrFault {s : State} {c : Nat} {r : Run} {d : Dev} (hp : Plain s c r) (hx : (s.found c).execRun c = some r)
    (hd : AtFault s c (d.charge c r.task 1)) {code left : Nat} (pc v : Word) (hc : code < 16) (hl : left < 256) :
    EndsWith s (s.coreEnd c ((d.instrFault c r left pc (code, v)).proceed c)) c r code pc v :=
  .of_fault hp hx hd pc v hc hl

/-- R108 to R110: a fault that the bytes of the instruction show ends the run. -/
theorem State.instr_unread {s : State} {c : Nat} {r : Run} {accept : List PrefixKind} {pre : Fetch} {own : List Byte}
    {legal : Bool} (cost : Cpu → Nat) (body : Body) {code : Nat} (hp : Plain s c r) (h : Ready s c r)
    (hf : Unread accept pre own legal (s.bankOf c r).pc code) :
    ∃ t v, s.instr c accept pre legal own cost body = .next t ∧ EndsWith s t c r code (s.bankOf c r).pc v ∧
      (∀ k, k < 4 → k < (fetchedBytes pre own).length → (s.bankOf c r).pc.toNat + k < 0x400000 →
        v.extractLsb' (8 * k) 8 = (fetchedBytes pre own).getD k 0) := by
  have hd := fun hf => Dev.instr_unread (code := code) cost body h.runs h.budget h.alone (accept := accept) (pre := pre) (own := own)
    (legal := legal) hf
  have ho := Only.of_eccCounted (s.found c) 0 c pre.corrected
  have hem := Dev.eccCounted_mem (s.found c) 0 c pre.corrected
  have hmod : Part.same (s.found c) ((s.found c).eccCounted 0 c pre.corrected) .modes := ho.parts .modes (by decide)
  generalize (s.found c).eccCounted 0 c pre.corrected = e at hd ho hem hmod
  have hb : e.bank c r.bank = s.bankOf c r := by rw [Dev.bank, Dev.core_of_cores (ho.cores (by decide))]; rfl
  have hcode : code < 16 := by cases hf <;> decide
  rw [hb] at hd
  have ha : AtFault s c (e.nextFree.charge c r.task 1) := .of_charge r.task 1 (ho.cores (by decide)) hem
    (hmod.1.trans ((s.found_modeChange c).trans hp.calm))
  have hw := EndsWith.of_instrFault (d := e.nextFree) hp h.runs ha (s.bankOf c r).pc
    (headWord e c (s.bankOf c r).pc (fetchedBytes pre own)) hcode (unreadReps_lt pre h.whole)
  rw [← hd hf] at hw
  exact ⟨_, _, State.onCore_awake h.awake, hw, fun k h4 hk hin => headWord_byte e c _ _ h4 hk hin⟩

/-! ## Corrections in the fetch (R11) -/

theorem Dev.rd_eccCounted (d : Dev) (mem core n : Nat) {off : Nat} (h : off ≠ Reg.SYS_ECC) :
    (d.eccCounted mem core n).rd off = d.rd off :=
  forN_keeps (fun e => e.rd off) n (fun _ d => d.eccCorrected mem core) (fun _ _ =>
    (Dev.rd_setFld_ne _ _ h).trans ((Dev.rd_setFld_ne _ _ h).trans (Dev.rd_setFld_ne _ _ h))) d

/-- R54: which READY task may preempt a run depends on the tasks, their settings and the core's time. -/
theorem Dev.preempting_congr {d e : Dev} {c : Nat} (hr : ∀ n, e.rd (Reg.TSK_CFG n) = d.rd (Reg.TSK_CFG n))
    (ht : e.tasks = d.tasks) (hc : (e.core c).time = (d.core c).time) (r : Run) : e.preempting c r = d.preempting c r := by
  have hf (f : Fld) (n : Nat) (h : f.off = Reg.TSK_CFG n) : e.fld f = d.fld f := by unfold Dev.fld; rw [h, hr]
  have hen (n : Nat) : e.enabled n = d.enabled n := by unfold Dev.enabled Dev.flag; rw [hf _ n rfl]
  have hcore (n : Nat) : e.fld (F.TSK_CFG_CORE n) = d.fld (F.TSK_CFG_CORE n) := hf _ n rfl
  have hprio (n : Nat) : e.fld (F.TSK_CFG_PRIO n) = d.fld (F.TSK_CFG_PRIO n) := hf _ n rfl
  have hbank (n : Nat) : e.fld (F.TSK_CFG_BANK n) = d.fld (F.TSK_CFG_BANK n) := hf _ n rfl
  have htask (n : Nat) : e.task n = d.task n := Dev.task_of_tasks ht n
  unfold Dev.preempting Dev.highest Dev.readyTasks Dev.coreTasks Dev.above
  simp only [hen, hcore, hprio, hbank, htask, hc]

/-- R57: whether a run has used up its budget shows in its registers. -/
theorem Dev.overrunDue_congr {d e : Dev} {r : Run} (hb : e.rd (Reg.TSK_BUDGET r.task) = d.rd (Reg.TSK_BUDGET r.task))
    (hu : e.rd (Reg.TSK_USED r.task) = d.rd (Reg.TSK_USED r.task)) : e.overrunDue r = d.overrunDue r := by
  unfold Dev.overrunDue; rw [hb, hu]

/-- R11: an instruction in whose fetch errors were corrected runs as without them, in the device that has counted them. -/
theorem Dev.instr_corrected {c : Nat} (accept : List PrefixKind) (pre : Fetch) (legal : Bool) (own : List Byte)
    (cost : Cpu → Nat) (body : Body) {d : Dev} {r : Run} (hx : d.execRun c = some r) (ho : d.overrunDue r = false)
    (hp : d.preempting c r = none) :
    Dev.instr c accept pre legal own cost body d =
      Dev.instr c accept (bare pre) legal own cost body (d.eccCounted 0 c pre.corrected) := by
  have h := Only.of_eccCounted d 0 c pre.corrected
  have hx' : (d.eccCounted 0 c pre.corrected).execRun c = some r := by
    unfold Dev.execRun; rw [Dev.curRun_of_cores (h.cores (by decide))]; exact hx
  have ho' : (d.eccCounted 0 c pre.corrected).overrunDue r = false :=
    (Dev.overrunDue_congr (Dev.rd_eccCounted _ _ _ _ (by unfold Reg.TSK_BUDGET Reg.SYS_ECC; omega))
      (Dev.rd_eccCounted _ _ _ _ (by unfold Reg.TSK_USED Reg.SYS_ECC; omega))).trans ho
  have hp' : (d.eccCounted 0 c pre.corrected).preempting c r = none :=
    (Dev.preempting_congr (fun n => Dev.rd_eccCounted _ _ _ _ (by unfold Reg.TSK_CFG Reg.SYS_ECC; omega)) (h.tasks (by decide))
      (congrArg Core.time (Dev.core_of_cores (h.cores (by decide)) c)) r).trans hp
  have h0 : (d.eccCounted 0 c pre.corrected).eccCounted 0 c (bare pre).corrected = d.eccCounted 0 c pre.corrected := rfl
  have hm : modsOf (bare pre) = modsOf pre := rfl
  have hb : fetchedBytes (bare pre) own = fetchedBytes pre own := rfl
  have hk : prefixesOk accept (bare pre) = prefixesOk accept pre := rfl
  have hq : (bare pre).prefixes = pre.prefixes := rfl
  unfold Dev.instr
  simp only [hx, ho, hp, hx', ho', hp', h0, hm, hb, hk, hq, Option.isSome_none, Bool.or_false, Bool.false_eq_true, if_false]

theorem forN_succ {α : Type} (n : Nat) (f : Nat → α → α) (a : α) : forN (n + 1) f a = f n (forN n f a) := by
  simp [forN, List.range_succ]

/-- R11: what SYS_ECC shows of one more correction. -/
theorem Dev.ecc_shows (d : Dev) {mem : Nat} (core : Nat) (hm : mem < 16) :
    (d.eccCorrected mem core).fld F.SYS_ECC_CORR = min 0xFFFF (d.fld F.SYS_ECC_CORR + 1) ∧
      (d.eccCorrected mem core).fld F.SYS_ECC_LASTMEM = mem ∧ (d.eccCorrected mem core).fld F.SYS_ECC_LASTCORE = core % 8 := by
  have hc : d.fld F.SYS_ECC_CORR < 2 ^ 16 := Nat.mod_lt _ (by decide)
  refine ⟨?_, ?_, Dev.fld_setFld_same _ _ _ (by decide) (by decide)⟩
  · rw [Dev.eccCorrected, Dev.fld_setFld_bits _ _ (by decide) (by decide) (by decide),
      Dev.fld_setFld_bits _ _ (by decide) (by decide) (by decide), Dev.incFld, Dev.fld_setFld_same _ _ _ (by decide) (by decide)]
    change satInc 65535 _ % 65536 = _
    unfold satInc
    split <;> omega
  · rw [Dev.eccCorrected, Dev.fld_setFld_bits _ _ (by decide) (by decide) (by decide),
      Dev.fld_setFld_same _ _ _ (by decide) (by decide)]
    exact Nat.mod_eq_of_lt hm

/-- R11: what SYS_ECC shows of n corrections. -/
theorem Dev.ecc_counts (d : Dev) {mem : Nat} (core : Nat) (hm : mem < 16) (n : Nat) :
    (d.eccCounted mem core n).fld F.SYS_ECC_CORR = min 0xFFFF (d.fld F.SYS_ECC_CORR + n) ∧
      (0 < n → (d.eccCounted mem core n).fld F.SYS_ECC_LASTMEM = mem ∧ (d.eccCounted mem core n).fld F.SYS_ECC_LASTCORE = core % 8) := by
  induction n with
  | zero =>
    have hc : d.fld F.SYS_ECC_CORR < 2 ^ 16 := Nat.mod_lt _ (by decide)
    exact ⟨(Nat.min_eq_right (Nat.le_of_lt_succ hc)).symm, fun h => absurd h (by decide)⟩
  | succ n ih =>
    have hs : d.eccCounted mem core (n + 1) = (d.eccCounted mem core n).eccCorrected mem core := forN_succ ..
    obtain ⟨h1, h2, h3⟩ := Dev.ecc_shows (d.eccCounted mem core n) core hm
    rw [hs, h1, ih.1]
    exact ⟨by omega, fun _ => ⟨h2, h3⟩⟩

/-! ## Faults of operands -/

section
variable {x : Cpu} {m : MAddr} {a : Word}

/-- R106: an access that may not take place. -/
theorem Cpu.load_denied {size code : Nat} {v : Word} {b : Bool} {e : Ecc} (h : x.mayAccess a size b = .error (code, v)) :
    x.load a size b e = .error (code, v) := by
  unfold Cpu.load; rw [h]; rfl

theorem Cpu.store_denied {size code n : Nat} {v : Word} {b : Bool} (h : x.mayAccess a size b = .error (code, v)) :
    x.store a size b n = .error (code, v) := by
  unfold Cpu.store; rw [h]; rfl

theorem loadBody_faults {toX : Bool} {size code : Nat} {f : Nat → Word} {ecc : Option ReadErr} {v : Word}
    (h : x.load (x.ea m) size (x.inSpace m) (x.errOf ecc false) = .error (code, v)) :
    loadBody toX size f m ecc x = .error (code, v) := by
  unfold loadBody; rw [h]; rfl

theorem storeBody_faults {size code : Nat} {clips : Bool} {v : Word}
    (h : ∀ n, x.store (x.ea m) size (x.inSpace m) n = .error (code, v)) : storeBody size clips m x = .error (code, v) := by
  unfold storeBody; simp only [h]; rfl

/-- R20 to R22, R90: the faults of a word access that ask for no memory. -/
theorem Cpu.mayAccess_unaligned (b : Bool) (h : a.toNat % 4 ≠ 0) : x.mayAccess a 4 b = .error (3, a) := by
  simp [Cpu.mayAccess, orTrap, h, bind, Except.bind]

theorem Cpu.mayAccess_unmapped {b : Bool} (h : a.toNat % 4 = 0) (hb : b = false ∨ regionOf a = none) :
    x.mayAccess a 4 b = .error (4, a) := by
  cases b with
  | false => simp [Cpu.mayAccess, orTrap, h, bind, Except.bind]
  | true => simp [Cpu.mayAccess, orTrap, h, bind, Except.bind, hb.resolve_left (by simp)]

theorem Cpu.mayAccess_csr_none (h : a.toNat % 4 = 0) (hr : regionOf a = some .csr) (hc : csrTicks (a.toNat - 0x40000000) = none) :
    x.mayAccess a 4 true = .error (5, a) := by
  simp [Cpu.mayAccess, orTrap, h, bind, Except.bind, hr, hc]

theorem Cpu.mayAccess_csr_denied (h : a.toNat % 4 = 0) (hr : regionOf a = some .csr)
    (hc : csrTicks (a.toNat - 0x40000000) = some 0) : x.mayAccess a 4 true = .error (6, a) := by
  simp [Cpu.mayAccess, orTrap, h, bind, Except.bind, hr, hc]

theorem Cpu.mayAccess_nvs (h : a.toNat % 4 = 0) (hr : regionOf a = some .nvs) (hn : x.dev.nvsReady = false) :
    x.mayAccess a 4 true = .error (9, a) := by
  simp [Cpu.mayAccess, orTrap, h, bind, Except.bind, hr, hn]

theorem Cpu.mayAccess_ok {g : Region} (h : a.toNat % 4 = 0) (hr : regionOf a = some g) (hc : g ≠ .csr) (hn : g ≠ .nvs) :
    x.mayAccess a 4 true = .ok () := by
  cases g <;> simp_all [Cpu.mayAccess, orTrap, bind, Except.bind]

end

/-- R94: legal prefixes are legal for an instruction that accepts more. -/
theorem prefixesOk_more {accept accept' : List PrefixKind} {pre : Fetch} (h : prefixesOk accept pre = true)
    (ha : ∀ k, accept.contains k = true → accept'.contains k = true) : prefixesOk accept' pre = true := by
  simp only [prefixesOk, Bool.and_eq_true, List.all_eq_true] at h ⊢
  refine ⟨h.1, fun p hp => ?_⟩
  have hk := h.2 p hp
  simp only [prefixOk, Bool.and_eq_true] at hk ⊢
  refine ⟨?_, hk.2⟩
  cases hq : prefixKind p with
  | none => rw [hq] at hk; exact absurd hk.1 (by simp)
  | some k => rw [hq] at hk; exact ha k hk.1

theorem Starts.more {s : State} {c n : Nat} {r : Run} {accept accept' : List PrefixKind} {pre : Fetch}
    (h : Starts s c r accept pre n) (ha : ∀ k, accept.contains k = true → accept'.contains k = true) :
    Starts s c r accept' pre n := { h with accepted := prefixesOk_more h.accepted ha }

theorem onBank_faults {f : Bank → Except Trap Bank} {x : Cpu} {e : Trap} (h : f x.b = .error e) : onBank f x = .error e := by
  rw [onBank, h]; rfl

section
variable {s : State} {c : Nat} {r : Run} {pre : Fetch} {m : MAddr} {code : Nat} {v : Word}

/-- Instruction i of run r ends the run with a core fault. -/
def Faults (s : State) (i : Instr) (c : Nat) (r : Run) (code : Nat) (v : Word) : Prop :=
  ∃ t, exec i s = .next t ∧ EndsWith s t c r code (s.bankOf c r).pc v

/-- R108: LDW, with the core as it finds the operand. -/
theorem Faults.of_ldw (hp : Plain s c r) (h : Starts s c r [.space, .rep, .cond] pre (1 + (bytesM m).length)) (hc : code < 16)
    (ecc : Option ReadErr) (hy : ∀ k, (s.cpu c r pre (1 + (bytesM m).length) k).load ((s.cpu0 c r pre (1 + (bytesM m).length)).ea m) 4
      ((s.cpu0 c r pre (1 + (bytesM m).length)).inSpace m) ((s.cpu0 c r pre (1 + (bytesM m).length)).errOf ecc false) =
        .error (code, v)) : Faults s (.opLdw c pre m ecc) c r code v := by
  have hn : 1 + (bytesM m).length = (0x34 :: bytesM m : List Byte).length := Nat.add_comm _ _
  rw [hn] at h hy
  exact State.instr_faults hp h rfl rfl (loadBody_faults (hy _)) hc

/-- R108: STW. -/
theorem Faults.of_stw (hp : Plain s c r) (h : Starts s c r [.space, .rep, .cond] pre (1 + (bytesM m).length)) (hc : code < 16)
    (hy : ∀ k w, (s.cpu c r pre (1 + (bytesM m).length) k).store ((s.cpu0 c r pre (1 + (bytesM m).length)).ea m) 4
      ((s.cpu0 c r pre (1 + (bytesM m).length)).inSpace m) w = .error (code, v)) : Faults s (.opStw c pre m) c r code v := by
  have hn : 1 + (bytesM m).length = (0x38 :: bytesM m : List Byte).length := Nat.add_comm _ _
  rw [hn] at h hy
  exact State.instr_faults hp (h.more fun k hk => by cases k <;> simp_all) rfl rfl (storeBody_faults (hy _)) hc

/-- R108: LDW and STW where the access may not take place. -/
theorem Faults.of_access (hp : Plain s c r) (h : Starts s c r [.space, .rep, .cond] pre (1 + (bytesM m).length)) (hc : code < 16)
    (hy : ∀ k, (s.cpu c r pre (1 + (bytesM m).length) k).mayAccess ((s.cpu0 c r pre (1 + (bytesM m).length)).ea m) 4
      ((s.cpu0 c r pre (1 + (bytesM m).length)).inSpace m) = .error (code, v)) :
    Faults s (.opLdw c pre m none) c r code v ∧ Faults s (.opStw c pre m) c r code v :=
  ⟨.of_ldw hp h hc none fun k => Cpu.load_denied (hy k), .of_stw hp h hc fun k _ => Cpu.store_denied (hy k)⟩

/-- R108: the faults of a word access that its region decides. -/
theorem Faults.of_code (hp : Plain s c r) (h : Starts s c r [.space, .rep, .cond] pre (1 + (bytesM m).length))
    (ha : ((s.cpu0 c r pre (1 + (bytesM m).length)).ea m).toNat % 4 = 0)
    (hs : (s.cpu0 c r pre (1 + (bytesM m).length)).inSpace m = true)
    (hr : regionOf ((s.cpu0 c r pre (1 + (bytesM m).length)).ea m) = some .code) :
    Faults s (.opStw c pre m) c r 7 ((s.cpu0 c r pre (1 + (bytesM m).length)).ea m) :=
  .of_stw hp h (by decide) fun k w => by
    rw [hs, Cpu.store, Cpu.mayAccess_ok ha hr (by decide) (by decide)]
    simp only [bind, Except.bind, hr]

theorem Faults.of_owner (hp : Plain s c r) (h : Starts s c r [.space, .rep, .cond] pre (1 + (bytesM m).length))
    (ha : ((s.cpu0 c r pre (1 + (bytesM m).length)).ea m).toNat % 4 = 0)
    (hs : (s.cpu0 c r pre (1 + (bytesM m).length)).inSpace m = true)
    (hr : regionOf ((s.cpu0 c r pre (1 + (bytesM m).length)).ea m) = some .stand)
    (ho : (s.found c).ownPartition ((s.cpu0 c r pre (1 + (bytesM m).length)).ea m) = false) :
    Faults s (.opStw c pre m) c r 8 ((s.cpu0 c r pre (1 + (bytesM m).length)).ea m) :=
  .of_stw hp h (by decide) fun k w => by
    have ho' : (s.cpu c r pre (1 + (bytesM m).length) k).dev.ownPartition ((s.cpu0 c r pre (1 + (bytesM m).length)).ea m) = false :=
      (Dev.ownPartition_charge _ _ _ _ _).trans ho
    rw [hs, Cpu.store, Cpu.mayAccess_ok ha hr (by decide) (by decide)]
    simp only [bind, Except.bind, hr, ho', Bool.false_eq_true, if_false]

/-- R11, R108: a load that meets a double-bit error. -/
theorem Faults.of_double {g : Region} (hp : Plain s c r) (h : Starts s c r [.space, .rep, .cond] pre (1 + (bytesM m).length))
    (ha : ((s.cpu0 c r pre (1 + (bytesM m).length)).ea m).toNat % 4 = 0)
    (hs : (s.cpu0 c r pre (1 + (bytesM m).length)).inSpace m = true)
    (hr : regionOf ((s.cpu0 c r pre (1 + (bytesM m).length)).ea m) = some g) (hg : g = .data ∨ g = .shadow ∨ g = .stand) :
    Faults s (.opLdw c pre m (some { rep := 0, second := false, double := true })) c r 10
      ((s.cpu0 c r pre (1 + (bytesM m).length)).ea m) :=
  .of_ldw hp h (by decide) _ fun k => by
    have he : (s.cpu0 c r pre (1 + (bytesM m).length)).errOf (some { rep := 0, second := false, double := true }) false = .double := rfl
    rw [hs, he, Cpu.load, Cpu.mayAccess_ok ha hr (by rintro rfl; simp at hg) (by rintro rfl; simp at hg)]
    rcases hg with rfl | rfl | rfl <;> simp only [bind, Except.bind, Cpu.meet, hr]

/-- R89, R112: an instruction that changes the bank only, and cannot. -/
theorem Faults.of_bank {i : Instr} {op : Byte} {f : Bank → Except Trap Bank} (hp : Plain s c r) (h : Starts s c r [.cond] pre 1)
    (he : exec i s = s.instr c [.cond] pre true [op] (ticks 1) (onBank f)) (hc : code < 16)
    (hf : f (s.bankOf c r) = .error (code, v)) : Faults s i c r code v := by
  obtain ⟨t, ht, hw⟩ := State.instr_faults (own := [op]) (legal := true) (k := 1) (cost := ticks 1) hp h rfl rfl
    (onBank_faults (x := s.cpu c r pre [op].length 1) hf) hc
  exact ⟨t, he.trans ht, hw⟩

end

theorem Bank.combine_short {b : Bank} (h : b.ba.length ≤ 1) (f : Bool → Bool → Bool) : b.combine f = .error (11, 0) := by
  unfold Bank.combine
  split
  · rename_i hb; rw [hb] at h; simp at h
  · rfl

/-- Settles O21: the three faults that the bytes show, the count of corrections, and the faults of the operands. -/
theorem instructionFaults : Obligations.InstructionFaults := by
  unfold Obligations.InstructionFaults
  refine ⟨fun s i f r hf h hp => ?_, fun i f hf => ?_, fun s c r pre m hp => ⟨fun h => ⟨fun ha => ?_, fun ha hu => ?_, fun ha hs =>
    ⟨fun hr hc => ?_, fun hr hc => ?_, fun hr => Faults.of_code hp h ha hs hr, fun hr ho => Faults.of_owner hp h ha hs hr ho,
      fun hr hn => ?_, fun hr => ?_⟩⟩, fun h => ⟨fun hb => ⟨?_, ?_, ?_⟩, fun hb => ⟨?_, ?_, ?_⟩, fun hb => ?_⟩⟩⟩
  · obtain ⟨cost, body, he, -⟩ := Form.runs_of_formOf hf
    have hu (code : Nat) := State.instr_unread (accept := f.accept) (pre := f.pre) (own := f.own) (legal := f.legal) cost body
      (code := code) hp h
    refine ⟨fun hx => ?_, fun hx hl => ?_⟩
    · obtain ⟨t, v, ht, hw⟩ := hu 1 (.range hx)
      exact ⟨t, v, (he s).trans ht, hw⟩
    · obtain ⟨t, v, ht, hw⟩ := hu 2 (.illegal hx hl)
      exact ⟨t, v, (he s).trans ht, hw⟩
  · obtain ⟨cost, body, he, -⟩ := Form.runs_of_formOf hf
    refine ⟨cost, body, fun s => ⟨he s, fun d r hx ho hp => ?_⟩⟩
    obtain ⟨h1, h2⟩ := Dev.ecc_counts d (mem := 0) f.core (by decide) f.pre.corrected
    exact ⟨Dev.instr_corrected _ _ _ _ _ _ hx ho hp, h1, h2, .of_eccCounted _ _ _ _⟩
  · exact Faults.of_access hp h (by decide) fun k => Cpu.mayAccess_unaligned _ ha
  · exact Faults.of_access hp h (by decide) fun k => Cpu.mayAccess_unmapped ha hu
  · exact Faults.of_access hp h (by decide) fun k => by rw [hs]; exact Cpu.mayAccess_csr_none ha hr hc
  · exact Faults.of_access hp h (by decide) fun k => by rw [hs]; exact Cpu.mayAccess_csr_denied ha hr hc
  · exact Faults.of_access hp h (by decide) fun k => by
      rw [hs]; exact Cpu.mayAccess_nvs ha hr ((Dev.nvsReady_charge _ _ _ _).trans hn)
  · rcases hr with hr | hr | hr
    · exact Faults.of_double hp h ha hs hr (.inl rfl)
    · exact Faults.of_double hp h ha hs hr (.inr (.inl rfl))
    · exact Faults.of_double hp h ha hs hr (.inr (.inr rfl))
  · exact Faults.of_bank hp h rfl (by decide) (by simp [Bank.mapBt, Bank.need, hb, Except.map])
  · exact Faults.of_bank hp h rfl (by decide) (by simp [Bank.pop, hb, Except.map])
  · exact Faults.of_bank hp h rfl (by decide) (by simp [Bank.need, hb, Except.bind])
  · exact Faults.of_bank hp h rfl (by decide) (Bank.combine_short hb _)
  · exact Faults.of_bank hp h rfl (by decide) (Bank.combine_short hb _)
  · exact Faults.of_bank hp h rfl (by decide) (Bank.combine_short hb _)
  · exact Faults.of_bank hp h rfl (by decide) (by simp [Bank.need, Bank.push, hb, Except.bind])

end Sys2Proof.Machine
end

section
/-!
SUPPORT. What a commit that becomes effective makes the blocks send: GOOSE datasets (R264, R265) and OUTPUT sets of the panel
bus (R286 to R290), and what that leaves as it was.
-/
namespace Sys2Proof.Machine

theorem Only.of_raiseFlag (d : Dev) (t i off bit : Nat) : Only d (d.raiseFlag t i off bit) [.msix, .tasks] (off :: raiseRegs i) :=
  ((Only.of_setBit d off bit true).and (.of_raise _ t i)).more (by simp) (by simp)

theorem SameTask.of_raiseFlag (d : Dev) (t i off bit m : Nat) : SameTask d (d.raiseFlag t i off bit) m := by
  have h : SameTask d (d.setBit off bit true) m := .of_task rfl
  exact h.trans (.of_raise (d.setBit off bit true) t i m)

theorem Dev.raiseFlag_mem (d : Dev) (t i off bit : Nat) : (d.raiseFlag t i off bit).mem = d.mem := Dev.raise_mem _ _ _

theorem SameTask.of_ite {d e f : Dev} {m : Nat} {p : Prop} [Decidable p] (h : p → SameTask d e m) (k : ¬ p → SameTask d f m) :
    SameTask d (if p then e else f) m := by
  split
  · exact h ‹_›
  · exact k ‹_›

theorem SameTask.of_forN {m : Nat} (n : Nat) (g : Nat → Dev → Dev) (h : ∀ a d, SameTask d (g a d) m) (d : Dev) :
    SameTask d (forN n g d) m := .of_foldl _ (fun d a => h a d) _ _

theorem Only.same_task {d e : Dev} {l : List Part} {r : List Nat} (h : Only d e l r) (hl : Part.tasks ∉ l) (m : Nat) : SameTask d e m :=
  .of_task (Dev.task_of_tasks (h.tasks hl) m)

/-- What publishing changes: the launch queues and what counts frames. -/
structure Posts (d e : Dev) : Prop where
  only : Only d e [.net, .tasks, .msix] postRegs
  tasks : ∀ m, SameTask d e m
  mem : e.mem = d.mem

namespace Posts

theorem refl (d : Dev) : Posts d d := ⟨.refl _ _ _, fun _ => .refl _ _, rfl⟩

theorem trans {d e f : Dev} (h : Posts d e) (k : Posts e f) : Posts d f :=
  ⟨h.only.trans k.only, fun m => (h.tasks m).trans (k.tasks m), k.mem.trans h.mem⟩

theorem of_ite {d e f : Dev} {p : Prop} [Decidable p] (h : p → Posts d e) (k : ¬ p → Posts d f) : Posts d (if p then e else f) := by
  split
  · exact h ‹_›
  · exact k ‹_›

theorem of_foldl {α : Type} {g : Dev → α → Dev} {xs : List α} (h : ∀ a ∈ xs, ∀ d, Posts d (g d a)) (d : Dev) :
    Posts d (xs.foldl g d) := by
  induction xs generalizing d with
  | nil => exact refl _
  | cons a xs ih => exact (h a List.mem_cons_self d).trans (ih (fun b hb => h b (List.mem_cons_of_mem _ hb)) _)

theorem of_forN (n : Nat) (g : Nat → Dev → Dev) (h : ∀ a d, Posts d (g a d)) (d : Dev) : Posts d (forN n g d) :=
  of_foldl (fun a _ d => h a d) _

/-- A change of the network alone. -/
theorem of_setNet (d : Dev) (v : Net) : Posts d { d with net := v } :=
  ⟨(Only.of_setNet d v).more (by decide) (by simp), fun _ => .of_task rfl, rfl⟩

theorem of_swxEvent (d : Dev) (t : Nat) : Posts d (d.swxEvent t 110) :=
  ⟨(Only.of_raiseFlag d t 110 Reg.SWX_STAT 14).more (by decide) (fun _ h => (List.mem_cons.mp h).elim (fun h => h ▸ List.mem_cons_self)
    fun h => List.mem_cons_of_mem _ (List.mem_append_right _ h)),
    fun m => .of_raiseFlag d t 110 Reg.SWX_STAT 14 m, Dev.raiseFlag_mem ..⟩

theorem of_pubLate (d : Dev) (t e : Nat) : Posts d (d.pubLate t e) := (of_setNet d _).trans (of_swxEvent _ t)

theorem of_setLaunchQ (d : Dev) {p q : Nat} (h : p < 4 ∧ q < 8) (l : List Launch) : Posts d (d.setLaunchQ p q l) := by
  refine (of_setNet d _).trans ⟨(Only.of_setFld _ (F.ETH_LQSTAT_DEPTH p q) l.length).more (by simp) ?_, fun _ => .of_task rfl, rfl⟩
  intro off ho
  obtain rfl := List.mem_singleton.mp ho
  refine List.mem_cons_of_mem _ (List.mem_append_left _ (List.mem_map.mpr ⟨8 * p + q, List.mem_range.mpr (by omega), ?_⟩))
  have h1 : (8 * p + q) / 8 = p := by omega
  have h2 : (8 * p + q) % 8 = q := by omega
  rw [h1, h2]
  rfl

theorem of_takeSeq (d : Dev) (cd : Bool) : Posts d (d.takeSeq cd).1 := by
  unfold Dev.takeSeq
  split
  · exact refl _
  · exact of_setNet d _

theorem of_post (d : Dev) (t : Nat) {p q : Nat} (h : p < 4 ∧ q < 8) (x : Launch) : Posts d (d.post t p q x) := by
  unfold Dev.post
  refine of_ite (fun _ => of_ite (fun _ => of_setLaunchQ d h _) fun _ => ?_) fun _ => refl _
  cases x.src.pub? with
  | none => exact refl _
  | some e => exact of_pubLate d t e

theorem pairPorts_lt {cd : Bool} {p : Nat} (h : p ∈ pairPorts cd) : p < 4 := by
  cases cd <;> simp [pairPorts] at h <;> omega

theorem of_postPub (d : Dev) (t e : Nat) {q : Nat} (hq : q < 8) (x : Launch) : Posts d (d.postPub t e q x) := by
  unfold Dev.postPub
  refine of_ite (fun _ => of_foldl (fun cd _ d => of_ite (fun _ => ?_) fun _ => refl _) _) fun _ => refl _
  exact (of_takeSeq d cd).trans (of_foldl (fun p hp d => of_post d t ⟨pairPorts_lt hp, hq⟩ _) _)

theorem of_showPubs (d : Dev) : Posts d d.showPubs := of_forN _ _ (fun _ d => of_ite (fun _ => refl _) fun _ => of_setNet d _) d

theorem of_sendGoose (d : Dev) (t e : Nat) (l : List Member) (iv : Nat) : Posts d (d.sendGoose t e l iv) :=
  (of_setNet d _).trans (of_postPub _ t e (by decide) _)

theorem of_newGoose (d : Dev) (t e : Nat) (stNum : Word) (l : List Member) : Posts d (d.newGoose t e stNum l) :=
  (of_setNet d _).trans ((of_setNet _ _).trans ((of_setNet _ _).trans (of_sendGoose _ t e l _)))

/-- R265: a commit makes datasets publish. -/
theorem of_gooseCommit (d : Dev) (t : Nat) (ws : List (Nat × Word64)) : Posts d (d.gooseCommit t ws) := by
  refine (of_forN 64 _ (fun e d => of_ite (fun _ => ?_) fun _ => refl _) d).trans (of_showPubs _)
  cases d.members e with
  | none => exact refl _
  | some l => exact of_ite (fun _ => refl _) fun _ => of_newGoose d t e _ l

end Posts

/-! ## Commits to the panel bus -/

/-- The registers that count the commits that stations discard. -/
def stationCounts : List Nat := (List.range 4).flatMap (fun n => (List.range 16).map (Reg.CAN_STACNT n))

/-- What a commit changes of the panel bus: the channels, and the counts of what stations discard. -/
structure Outputs (d e : Dev) : Prop where
  only : Only d e [.can] stationCounts
  mem : e.mem = d.mem

namespace Outputs

theorem refl (d : Dev) : Outputs d d := ⟨.refl _ _ _, rfl⟩

theorem trans {d e f : Dev} (h : Outputs d e) (k : Outputs e f) : Outputs d f := ⟨h.only.trans k.only, k.mem.trans h.mem⟩

theorem of_ite {d e f : Dev} {p : Prop} [Decidable p] (h : p → Outputs d e) (k : ¬ p → Outputs d f) :
    Outputs d (if p then e else f) := by
  split
  · exact h ‹_›
  · exact k ‹_›

theorem of_foldl {α : Type} {g : Dev → α → Dev} {xs : List α} (h : ∀ a ∈ xs, ∀ d, Outputs d (g d a)) (d : Dev) :
    Outputs d (xs.foldl g d) := by
  induction xs generalizing d with
  | nil => exact refl _
  | cons a xs ih => exact (h a List.mem_cons_self d).trans (ih (fun b hb => h b (List.mem_cons_of_mem _ hb)) _)

/-- A change of the channels alone. -/
theorem of_setCan (d : Dev) (v : Sparse Can) : Outputs d { d with can := v } := ⟨(Only.of_setCan d v).more (by simp) (by simp), rfl⟩

theorem of_queueSet (d : Dev) (n i type : Nat) : Outputs d (d.queueSet n i type) :=
  (of_setCan d _).trans ((of_setCan _ _).trans (of_foldl (fun _ _ d => of_setCan d _) _))

theorem of_sendOutput (d : Dev) (n i : Nat) : Outputs d (d.sendOutput n i) :=
  of_ite (fun _ => of_queueSet d n i 3) fun _ => refl _

theorem of_discard (d : Dev) {n i : Nat} (h : n < 4 ∧ i < 16) : Outputs d (d.incFld (F.CAN_STACNT_DISCARD n i)) := by
  refine ⟨(Only.of_incFld d _).more (by simp) fun off ho => ?_, rfl⟩
  obtain rfl := List.mem_singleton.mp ho
  exact List.mem_flatMap.mpr ⟨n, List.mem_range.mpr h.1, List.mem_map.mpr ⟨i, List.mem_range.mpr h.2, rfl⟩⟩

theorem of_commitStation (d : Dev) {n i : Nat} (h : n < 4 ∧ i < 16) (ws : List (Nat × Word64)) :
    Outputs d (d.commitStation n i ws) := by
  unfold Dev.commitStation
  refine of_ite (fun _ => of_ite (fun _ => of_ite (fun _ => refl _) fun _ => ?_) fun _ => ?_) fun _ => refl _
  · refine ((of_setCan d _).trans (of_sendOutput _ n i)).trans (of_ite (fun _ => of_setCan _ _) fun _ => refl _)
  · refine (of_discard d h).trans (of_ite (fun _ => of_ite (fun _ => ?_) fun _ => of_setCan _ _) fun _ => refl _)
    exact (of_setCan _ _).trans (of_queueSet _ n i 5)

/-- R286: a commit makes OUTPUT sets. -/
theorem of_canCommit (d : Dev) (ws : List (Nat × Word64)) : Outputs d (d.canCommit ws) := by
  refine of_ite (fun _ => of_foldl (fun n hn d => ?_) d) fun _ => refl _
  refine (of_ite (f := d) (fun _ => of_setCan d _) fun _ => refl _).trans (of_foldl (fun i hi d => ?_) _)
  exact of_commitStation d ⟨List.mem_range.mp hn, List.mem_range.mp hi⟩ ws

end Outputs

end Sys2Proof.Machine
end

section
/-!
PROOFS. Scan cores: HALT and YIELD (R44, R51, R53, R58, R110, R129).
-/
namespace Sys2Proof.Machine

/-! ## A commit that becomes effective -/

/-- An image with words written from a list of their numbers. -/
theorem Image.rd_foldl_wr (f : Nat → Word64) (l : List Nat) (m : Image) (k : Nat) :
    Image.rd ((l.map (fun w => (w, f w))).foldl (fun m p => Image.wr m p.1 p.2) m) k = if k ∈ l then f k else Image.rd m k := by
  induction l generalizing m with
  | nil => simp
  | cons a l ih =>
    rw [List.map_cons, List.foldl_cons, ih]
    by_cases hl : k ∈ l
    · simp [hl]
    · rw [if_neg hl]
      by_cases ha : k = a
      · subst ha
        rw [if_pos List.mem_cons_self]
        exact Sparse.get_set_same _ _ _ _
      · rw [if_neg (by simp [ha, hl])]
        exact Sparse.get_set_ne _ _ _ ha

/-- The registers that a commit of task n which becomes effective may change. -/
def effectiveRegs (n : Nat) : List Nat := safeRegs n ++ postRegs ++ stationCounts

/-- Device e is device d with the output image out, as a commit of task n leaves it. -/
structure Effective (d e : Dev) (n : Nat) (out : Image) : Prop where
  only : Only d e [.images, .tasks, .net, .msix, .can] (effectiveRegs n)
  mem : e.mem = { d.mem with out := out }
  live : (e.task n).live = (d.task n).live
  st : e.fld (F.TSK_STATE_ST n) = d.fld (F.TSK_STATE_ST n)
  safe : e.isSafe n = false

/-- The registers of task n lie apart from those of frames and stations. -/
theorem effective_apart {n off : Nat} (hn : n < 64) (h : off = Reg.TSK_STATE n ∨ off = Reg.IMG_SAFEMASK0 + 4 * (n / 32)) :
    off ∉ postRegs ++ [Reg.INT_FIRST, Reg.BIO_BO0, Reg.BIO_BO1] ∧ off ∉ stationCounts ++ [Reg.INT_FIRST, Reg.BIO_BO0, Reg.BIO_BO1] := by
  have hr : 0x10014 ≤ off ∧ off < 0x13014 := by
    rcases h with rfl | rfl
    · unfold Reg.TSK_STATE; omega
    · unfold Reg.IMG_SAFEMASK0; omega
  simp only [postRegs, stationCounts, List.mem_append, List.mem_cons, List.mem_map, List.mem_flatMap, List.not_mem_nil, or_false,
    not_or, List.mem_range]
  have hb : off ≠ Reg.INT_FIRST ∧ off ≠ Reg.BIO_BO0 ∧ off ≠ Reg.BIO_BO1 := by
    unfold Reg.INT_FIRST Reg.BIO_BO0 Reg.BIO_BO1; omega
  refine ⟨⟨⟨⟨by unfold Reg.SWX_STAT; omega, ?_⟩, apart_raiseRegs (by decide) (by omega)⟩, hb⟩, ?_, hb⟩
  · rintro ⟨k, _, he⟩
    unfold Reg.ETH_LQSTAT at he; omega
  · rintro ⟨n, _, i, _, he⟩
    unfold Reg.CAN_STACNT at he; omega

/-- R53: the regions of task n leave SAFE state. -/
def Dev.leaveSafe (d : Dev) (n : Nat) : Dev := if d.isSafe n then d.setSafe n false else d

theorem Dev.isSafe_leaveSafe (d : Dev) {n : Nat} (_ : n < 64) : (d.leaveSafe n).isSafe n = false := by
  unfold Dev.leaveSafe
  split
  · have ho : Reg.IMG_SAFEMASK0 + 4 * (n / 32) ≠ (F.TSK_STATE_SAFE n).off := by
      change _ ≠ Reg.TSK_STATE n
      unfold Reg.IMG_SAFEMASK0 Reg.TSK_STATE; omega
    have h1 : ((d.setMaskBit Reg.IMG_SAFEMASK0 n false).setFld (F.TSK_STATE_SAFE n) (b2n false)).maskBit Reg.IMG_SAFEMASK0 n =
        (d.setMaskBit Reg.IMG_SAFEMASK0 n false).maskBit Reg.IMG_SAFEMASK0 n := by
      unfold Dev.maskBit Dev.bit
      rw [Dev.rd_setFld_ne _ _ ho]
    exact h1.trans (Dev.maskBit_setMaskBit_same _ _ _ _)
  · simp_all

theorem Dev.st_leaveSafe (d : Dev) {n : Nat} (_ : n < 64) : (d.leaveSafe n).fld (F.TSK_STATE_ST n) = d.fld (F.TSK_STATE_ST n) := by
  have ho : (F.TSK_STATE_ST n).off ≠ Reg.IMG_SAFEMASK0 + 4 * (n / 32) := by
    change Reg.TSK_STATE n ≠ _
    unfold Reg.TSK_STATE Reg.IMG_SAFEMASK0; omega
  have h1 : ((d.setMaskBit Reg.IMG_SAFEMASK0 n false).setFld (F.TSK_STATE_SAFE n) (b2n false)).fld (F.TSK_STATE_ST n) =
      (d.setMaskBit Reg.IMG_SAFEMASK0 n false).fld (F.TSK_STATE_ST n) :=
    Dev.fld_setFld_bits _ _ (Nat.le_of_ble_eq_true rfl) (Nat.lt_of_sub_eq_succ rfl) (Or.inl (Nat.lt_of_sub_eq_succ rfl))
  unfold Dev.leaveSafe
  split
  · exact h1.trans (Dev.fld_wr_ne _ _ ho)
  · rfl

theorem Only.of_leaveSafe (d : Dev) (n : Nat) : Only d (d.leaveSafe n) [] (safeRegs n) :=
  .of_ite (fun _ => .of_setSafe d n false) fun _ => .refl _ _ _

theorem Dev.leaveSafe_mem (d : Dev) (n : Nat) : (d.leaveSafe n).mem = d.mem := by unfold Dev.leaveSafe; split <;> rfl

/-- The output image with the words of a commit. -/
def Dev.committed (d : Dev) (n : Nat) (words : List (Nat × Word64)) : Dev :=
  ({ d with mem := { d.mem with out := words.foldl (fun m (p : Nat × Word64) => Image.wr m p.1 p.2) d.mem.out } }).modTask n
    (fun k => { k with effective := words })

theorem Only.of_committed (d : Dev) (n : Nat) (words : List (Nat × Word64)) :
    Only d (d.committed n words) [.images, .tasks] [] :=
  .of_part (fun p hp => by cases p <;> simp [Part.same, Dev.committed, Dev.modTask, Dev.setTask] at hp ⊢) rfl

theorem Dev.effective_eq (d : Dev) (t n : Nat) (words : List (Nat × Word64)) :
    d.effective t n words = (((((d.committed n words).leaveSafe n).gooseCommit t words).canCommit words).touchOuts) := rfl

/-- R51, R53: a commit becomes effective. -/
theorem Effective.of (d : Dev) (t : Nat) {n : Nat} (hn : n < 64) (words : List (Nat × Word64)) :
    Effective d (d.effective t n words) n (words.foldl (fun m p => Image.wr m p.1 p.2) d.mem.out) := by
  have h1 := Only.of_committed d n words
  have h2 := Only.of_leaveSafe (d.committed n words) n
  have h3 := Posts.of_gooseCommit ((d.committed n words).leaveSafe n) t words
  have h4 := Outputs.of_canCommit (((d.committed n words).leaveSafe n).gooseCommit t words) words
  have hst := Dev.st_leaveSafe (d.committed n words) hn
  have hsafe := Dev.isSafe_leaveSafe (d.committed n words) hn
  have hmem := Dev.leaveSafe_mem (d.committed n words) n
  have htask : ((d.committed n words).leaveSafe n).task n = (d.committed n words).task n :=
    Dev.task_of_tasks (h2.tasks (by decide)) n
  have hlive : ((d.committed n words).task n).live = (d.task n).live := by
    unfold Dev.committed Dev.modTask; rw [Dev.task_setTask_same]; rfl
  rw [Dev.effective_eq]
  generalize (d.committed n words).leaveSafe n = e2 at *
  generalize e2.gooseCommit t words = e3 at *
  generalize e3.canCommit words = e4 at *
  have hrd (off : Nat) (h : off = Reg.TSK_STATE n ∨ off = Reg.IMG_SAFEMASK0 + 4 * (n / 32)) : e4.rd off = e2.rd off :=
    (h4.only.rd (by decide) (effective_apart hn h).2).trans (h3.only.rd (by decide) (effective_apart hn h).1)
  refine ⟨((((h1.and h2).and h3.only).and h4.only).and (.of_touchOuts _)).more (by decide) ?_, ?_, ?_, ?_, ?_⟩
  · intro off ho
    simpa [effectiveRegs] using ho
  · exact (h4.mem.trans h3.mem).trans (hmem.trans rfl)
  · have hk : e4.task n = e3.task n := Dev.task_of_tasks (h4.only.tasks (by decide)) n
    have hg := (h3.tasks n).same
    change (e4.task n).live = _
    rw [hk, hg, htask]
    exact hlive
  · exact (congrArg (fun w : Word => bitsOf w.toNat 2 0) (hrd _ (.inl rfl))).trans hst
  · refine Eq.trans ?_ hsafe
    change e4.maskBit _ _ = e2.maskBit _ _
    unfold Dev.maskBit Dev.bit
    rw [hrd _ (.inr rfl)]

/-! ## The commit of a run -/

/-- R44, R51, R52: the commit of run r on core c, whose task has no output instant, that the budget covers. -/
theorem Dev.commitStep_eq {d : Dev} {c : Nat} {r : Run} (hn : r.task < 64) (hl : d.commitTooLong r = false)
    (hw : (d.task r.task).commit = none) (ho : d.fld (F.IMG_OINST_MODE r.task) = 0)
    (hm : ((d.charge c r.task (16 + d.wOut r.task)).effective ((d.charge c r.task (16 + d.wOut r.task)).core c).time r.task
      (d.commitWords c r.task)).isMirror c r.task = false) :
    d.commitStep c r = ((d.charge c r.task (16 + d.wOut r.task)).effective
      ((d.charge c r.task (16 + d.wOut r.task)).core c).time r.task (d.commitWords c r.task)).endRun c := by
  have hw' (k : Nat) : ((d.charge c r.task k).task r.task).commit = none := hw
  have ho' (k : Nat) : (d.charge c r.task k).outputDue r.task r.rel = none := by
    have hf : (d.charge c r.task k).fld (F.IMG_OINST_MODE r.task) = 0 := by
      refine (Dev.fld_wr_ne _ _ ?_).trans ho
      change Reg.IMG_OINST r.task ≠ _
      unfold Reg.IMG_OINST Reg.TSK_USED; omega
    unfold Dev.outputDue
    rw [hf]
    rfl
  unfold Dev.commitStep
  simp only [hl, Bool.false_eq_true, false_and, if_false]
  have hc (k t : Nat) (words : List (Nat × Word64)) : (d.charge c r.task k).commitEnds t r.task r.rel words =
      (d.charge c r.task k).effective t r.task words := by
    unfold Dev.commitEnds Dev.effectWaiting
    simp only [hw', ho']
  rw [hc, hm]
  rfl

/-- R55: a run that has ended its logic goes on to its commit. -/
theorem Dev.preempting_setStage (d : Dev) (c : Nat) (r : Run) (st : Stage) :
    (d.setStage c r st).preempting c { r with stage := st } = d.preempting c r := by
  have hs : d.preempting c { r with stage := st } = d.preempting c r := by unfold Dev.preempting Dev.above; rfl
  refine Eq.trans (Dev.preempting_congr (d := d) (e := d.setStage c r st) (fun _ => rfl) rfl ?_ { r with stage := st }) hs
  unfold Dev.setStage Dev.setRun
  rw [Dev.core_setCore_same]

theorem Dev.curRun_setStage {d : Dev} {c : Nat} {r : Run} (h : d.curRun c = some r) (st : Stage) :
    (d.setStage c r st).curRun c = some { r with stage := st } := by
  unfold Dev.curRun at h ⊢
  unfold Dev.setStage Dev.setRun
  rw [Dev.core_setCore_same]
  split at h
  · cases h
  · rename_i hw
    exact if_neg hw

/-- A run that executes does not wait for its mirror sync. -/
theorem Dev.sync_of_execRun {d : Dev} {c : Nat} {r : Run} (h : d.execRun c = some r) : r.sync = false := by
  have := Option.filter_eq_some_iff.mp h
  simp only [Bool.and_eq_true, Bool.not_eq_true'] at this
  exact this.2.1

section
variable {s : State} {c : Nat} {r : Run} {pre : Fetch} {own : List Byte} {accept : List PrefixKind} {legal : Bool}
  {cost : Cpu → Nat} {body : Body}

/-- R129: YIELD. -/
theorem State.instr_yields {k : Nat} (h : Starts s c r accept pre own.length) (hl : legal = true)
    (hk : cost (s.cpu0 c r pre own.length) = k)
    (hy : body (s.cpu c r pre own.length k) = .ok { s.cpu c r pre own.length k with ending := .yields }) :
    s.instr c accept pre legal own cost body =
      .next (s.coreEnd c ((((s.found c).charge c r.task k).setStage c r .commit).proceed c)) := by
  subst hk
  have hb : (s.found c).bank c r.bank = s.bankOf c r := rfl
  have hy' : body ⟨(s.found c).charge c r.task (cost (s.cpu0 c r pre own.length)), c, r, s.bankOf c r, modsOf pre,
      s.after c r pre own.length, 0, .goes, false⟩ = .ok ⟨(s.found c).charge c r.task (cost (s.cpu0 c r pre own.length)), c, r,
      s.bankOf c r, modsOf pre, s.after c r pre own.length, 0, .yields, false⟩ := hy
  have hd : Dev.instr c accept pre legal own cost body (s.found c) =
      ((s.found c).charge c r.task (cost (s.cpu0 c r pre own.length))).setStage c r .commit := by
    rw [Dev.instr_reaches cost body h.toReaches hl h.cond, Dev.repetitions]
    simp only [State.cpu0] at hy' ⊢
    simp only [Cpu.once, Cpu.withDev, Bool.false_eq_true, if_false, hb, hy']
  rw [State.instr, State.onCore_awake h.awake, hd]

end

/-- R44, R51: a run whose logic has ended commits and ends. -/
theorem Dev.proceed_commit {d e : Dev} {c : Nat} {r : Run} {rest : List Run} (hr : d.curRun c = some r) (hs : r.sync = false)
    (hp : d.preempting c r = none) (hc : (d.setStage c r .commit).commitStep c { r with stage := .commit } = e.endRun c)
    (hcons : (e.core c).runs = { r with stage := .commit } :: rest) (hm : e.modeChange = none)
    (hl : ∀ q ∈ rest, q.stage = .logic) : (d.setStage c r .commit).proceed c = e.endRun c := by
  have hn : ¬ (({ r with stage := Stage.commit } : Run).sync = true ∨ ({ r with stage := Stage.commit } : Run).stage = .logic ∨
      ((d.setStage c r .commit).preempting c { r with stage := .commit }).isSome = true) := by
    rw [Dev.preempting_setStage, hp]
    simp [hs]
  unfold Dev.proceed Dev.proceedFor
  simp only [Dev.curRun_setStage hr]
  rw [if_neg hn]
  exact (congrArg (Dev.proceedFor c 31) hc).trans (Dev.proceedFor_endRun hcons hm hl 31)

/-- The mirror tasks lie apart from what a commit changes. -/
theorem Effective.isMirror {d e : Dev} {n c : Nat} {out : Image} (h : Effective d e n out) (hn : n < 64) (hc : c < 8) (m : Nat) :
    e.isMirror c m = d.isMirror c m := by
  have hr : e.rd (Reg.HSB_MTASK c) = d.rd (Reg.HSB_MTASK c) := by
    refine h.only.rd (by decide) ?_
    simp only [effectiveRegs, safeRegs, postRegs, stationCounts, List.mem_append, List.mem_cons, List.mem_map, List.mem_flatMap,
      List.not_mem_nil, or_false, not_or, List.mem_range]
    refine ⟨⟨⟨⟨?_, ?_⟩, ⟨?_, ?_⟩, apart_raiseRegs (by decide) ?_⟩, ?_⟩, ?_⟩
    · unfold Reg.HSB_MTASK Reg.IMG_SAFEMASK0; omega
    · unfold Reg.HSB_MTASK Reg.TSK_STATE; omega
    · unfold Reg.HSB_MTASK Reg.SWX_STAT; omega
    · rintro ⟨k, _, he⟩
      unfold Reg.ETH_LQSTAT Reg.HSB_MTASK at he; omega
    · unfold Reg.HSB_MTASK; omega
    · rintro ⟨n, _, i, _, he⟩
      unfold Reg.CAN_STACNT Reg.HSB_MTASK at he; omega
    · unfold Reg.HSB_MTASK Reg.INT_FIRST Reg.BIO_BO0 Reg.BIO_BO1; omega
  unfold Dev.isMirror Dev.flag Dev.fld
  have h1 : (F.HSB_MTASK_EN c).off = Reg.HSB_MTASK c := rfl
  have h2 : (F.HSB_MTASK_TASK c).off = Reg.HSB_MTASK c := rfl
  rw [h1, h2, hr]

/-- The core with its run in a stage. -/
theorem Dev.setStage_core (d : Dev) (c : Nat) (r : Run) (st : Stage) (e : Nat) : (d.setStage c r st).core e =
    if e = c then { d.core c with runs := { r with stage := st } :: (d.core c).runs.drop 1 } else d.core e := by
  unfold Dev.setStage Dev.setRun
  split
  · subst_vars; exact Dev.core_setCore_same _ _ _
  · exact Dev.core_setCore_ne _ _ ‹_›

/-- The run in progress heads the runs of its core. -/
theorem Dev.runs_of_curRun {d : Dev} {c : Nat} {r : Run} (h : d.curRun c = some r) : (d.core c).runs = r :: (d.core c).runs.drop 1 := by
  unfold Dev.curRun at h
  split at h
  · cases h
  · rw [List.drop_one]
    exact eq_cons_of_head h

/-- The device of a run in its commit, the ticks of the commit charged. -/
def Dev.atCommit (d : Dev) (c : Nat) (r : Run) : Dev := (d.setStage c r .commit).charge c r.task (16 + d.wOut r.task)

section
variable {d : Dev} {c : Nat} {r : Run}

theorem Dev.atCommit_runs : ((d.atCommit c r).core c).runs = { r with stage := .commit } :: (d.core c).runs.drop 1 := by
  unfold Dev.atCommit
  rw [Dev.charge_core, Core.spend_runs, Dev.setStage_core, if_pos rfl]

theorem Dev.atCommit_bank (k : Nat) : (d.atCommit c r).bank c k = d.bank c k := by
  unfold Dev.atCommit
  rw [Dev.charge_bank, Dev.bank, Dev.setStage_core, if_pos rfl]
  rfl

theorem Dev.atCommit_core_ne {e : Nat} (he : e ≠ c) : (d.atCommit c r).core e = d.core e := by
  unfold Dev.atCommit
  rw [Dev.charge_core_ne _ _ _ he, Dev.setStage_core, if_neg he]

/-- R44, R51, R53: YIELD where nothing stands before the commit of the run. -/
theorem Dev.proceed_yield (hr : d.curRun c = some r) {out : Image} {e : Dev} {t : Nat} (ht : ((d.atCommit c r).core c).time = t)
    (he : (d.atCommit c r).effective t r.task (d.commitWords c r.task) = e) (hE : Effective (d.atCommit c r) e r.task out)
    (hn : r.task < 64) (hc : c < 8) (hs : r.sync = false) (hl : d.commitTooLong r = false) (hp : d.preempting c r = none)
    (ho : d.fld (F.IMG_OINST_MODE r.task) = 0) (hm : d.isMirror c r.task = false) (hw : (d.task r.task).commit = none)
    (hcalm : d.modeChange = none) (hrest : ∀ q ∈ (d.core c).runs.drop 1, q.stage = .logic) :
    (d.setStage c r .commit).proceed c = e.endRun c := by
  subst ht
  have hmirror : e.isMirror c r.task = false := by
    refine (hE.isMirror hn hc r.task).trans (Eq.trans ?_ hm)
    have hne : Reg.HSB_MTASK c ≠ Reg.TSK_USED r.task := by unfold Reg.HSB_MTASK Reg.TSK_USED; omega
    unfold Dev.isMirror Dev.flag
    rw [Dev.atCommit, Dev.charge, Dev.fld_wr_ne _ _ (f := F.HSB_MTASK_EN c) hne, Dev.fld_wr_ne _ _ (f := F.HSB_MTASK_TASK c) hne]
    rfl
  refine Dev.proceed_commit (rest := (d.core c).runs.drop 1) hr hs hp ?_ ?_ ?_ hrest
  · rw [Dev.commitStep_eq (d := d.setStage c r .commit) (r := { r with stage := .commit }) hn hl hw ho (by
      subst he; exact hmirror)]
    subst he
    rfl
  · rw [Dev.core_of_cores (hE.only.cores (by decide)), Dev.atCommit_runs]
  · have hmod : Part.same (d.atCommit c r) e .modes := hE.only.parts .modes (by decide)
    exact hmod.1.trans hcalm

end

/-- The registers that show the state of task n lie apart from what follows a command, and from the end of a run. -/
theorem settled_apart {n off : Nat} (hn : n < 64) (h : off = Reg.TSK_STATE n ∨ off = Reg.IMG_SAFEMASK0 + 4 * (n / 32)) :
    off ∉ [Reg.INT_FIRST, Reg.BIO_BO0, Reg.BIO_BO1] := fun hm => (effective_apart hn h).1 (List.mem_append_right _ hm)

theorem safe_apart {n : Nat} {rest : List Run} (hn : n < 64) (hr : ∀ q ∈ rest, q.task < 64) :
    Reg.IMG_SAFEMASK0 + 4 * (n / 32) ∉ (Reg.TSK_STATE n :: resumeRegs n rest) ++ [Reg.INT_FIRST, Reg.BIO_BO0, Reg.BIO_BO1] := by
  simp only [resumeRegs, List.cons_append, List.mem_cons, List.mem_append, List.mem_map, List.not_mem_nil, or_false, not_or]
  refine ⟨?_, ?_, ?_, ?_⟩
  · unfold Reg.IMG_SAFEMASK0 Reg.TSK_STATE; omega
  · unfold Reg.IMG_SAFEMASK0 Reg.TSK_USED; omega
  · rintro ⟨q, hq, he⟩
    have := hr q (List.mem_of_mem_take hq)
    unfold Reg.IMG_SAFEMASK0 Reg.TSK_STATE at he
    omega
  · unfold Reg.IMG_SAFEMASK0 Reg.INT_FIRST Reg.BIO_BO0 Reg.BIO_BO1; omega

/-- Settles O19: HALT by the law of core faults, YIELD by its commit and the end of the run. -/
theorem haltAndYield : Obligations.HaltAndYield := by
  unfold Obligations.HaltAndYield
  refine ⟨fun s c r pre h hp => State.instr_halts (own := [0x01]) hp h rfl rfl rfl, fun s c r pre h hp => ?_⟩
  dsimp only
  intro hl ha ho hm hw
  have hy := State.instr_yields (own := [0x02]) (legal := true) (cost := ticks 1) (k := 1)
    (body := fun x => .ok { x with ending := .yields }) h rfl rfl rfl
  have hcur : ((s.found c).charge c r.task 1).curRun c = some r :=
    (Dev.charge_curRun _ _ _ _).trans (Dev.curRun_of_execRun h.runs)
  have hcalm : ((s.found c).charge c r.task 1).modeChange = none := (s.found_modeChange c).trans hp.calm
  have hcore (e : Nat) : ((s.found c).charge c r.task 1).core e = if e = c then (s.dev.core c).spend 1 else s.dev.core e := by
    split
    · subst_vars; rw [Dev.charge_core, State.found_core]
    · rw [Dev.charge_core_ne _ _ _ ‹_›, State.found_core]
  have hbank (k : Nat) : ((s.found c).charge c r.task 1).bank c k = s.dev.bank c k := by
    rw [Dev.charge_bank, Dev.bank, State.found_core]; rfl
  have hruns : (((s.found c).charge c r.task 1).core c).runs = (s.dev.core c).runs := by rw [hcore, if_pos rfl, Core.spend_runs]
  have hn : r.task < 64 := hp.tasks r (by rw [← hruns, Dev.runs_of_curRun hcur]; exact List.mem_cons_self)
  generalize (s.found c).charge c r.task 1 = d at *
  obtain ⟨t, ht⟩ : ∃ t, ((d.atCommit c r).core c).time = t := ⟨_, rfl⟩
  have hE := Effective.of (d.atCommit c r) t hn (d.commitWords c r.task)
  obtain ⟨e, he⟩ : ∃ e, (d.atCommit c r).effective t r.task (d.commitWords c r.task) = e := ⟨_, rfl⟩
  rw [he] at hE
  have hpr := Dev.proceed_yield hcur ht he hE hn hp.core (Dev.sync_of_execRun h.runs) hl ha ho hm hw hcalm
    (by rw [hruns]; exact hp.steady)
  rw [hpr] at hy
  have hec (k : Nat) : e.core k = (d.atCommit c r).core k := Dev.core_of_cores (hE.only.cores (by decide)) k
  have hcons : (e.core c).runs = { r with stage := .commit } :: (s.dev.core c).runs.drop 1 := by
    rw [hec, Dev.atCommit_runs, hruns]
  have hmod : Part.same (d.atCommit c r) e .modes := hE.only.parts .modes (by decide)
  have hm0 : e.modeChange = none := hmod.1.trans hcalm
  have hmem : e.mem = { d.mem with out := (d.commitWords c r.task).foldl (fun m p => Image.wr m p.1 p.2) d.mem.out } := hE.mem
  have hfin : ((e.endRun c).settleOuts ((e.endRun c).core c).time).settle.mem = e.mem :=
    (Dev.settled_mem _ _).trans (Dev.endRun_mem hcons hm0)
  have hfc (k : Nat) : ((e.endRun c).settleOuts ((e.endRun c).core c).time).settle.core k = (e.endRun c).core k :=
    Dev.core_of_cores (Dev.settled_cores _ _) k
  have hfb (k : Nat) : ((e.endRun c).settleOuts ((e.endRun c).core c).time).settle.bank c k =
      if k = r.bank then {} else s.dev.bank c k := by
    have hek : e.bank c k = s.dev.bank c k := by
      rw [Dev.bank, hec, ← hbank k]
      exact Dev.atCommit_bank k
    rw [Dev.bank, hfc, ← hek]
    exact Dev.endRun_bank hcons hm0 k
  refine ⟨_, hy, fun k => ?_, ?_, ?_, ?_, fun k hk => ?_, fun k hk => ?_, ?_, ?_, rfl⟩
  · refine (congrArg (fun m : Mems => Image.rd m.out k) (hfin.trans hmem)).trans ?_
    exact Image.rd_foldl_wr (fun w => BitVec.ofNat 64 (Memory.rdLE d.mem.shadow (shadowAddr c true w) 8)) _ d.mem.out k
  · exact (congrArg (fun m : Mems => { m with out := d.mem.out }) (hfin.trans hmem)).trans rfl
  · exact (congrArg Core.runs (hfc c)).trans (Dev.endRun_runs hcons hm0)
  · exact (hfb _).trans (if_pos rfl)
  · exact (hfb _).trans (if_neg hk)
  · refine (hfc k).trans ((Dev.endRun_core_ne hcons hm0 hk).trans ((hec k).trans ((Dev.atCommit_core_ne hk).trans ?_)))
    rw [hcore, if_neg hk]
  · refine (Dev.settled_fld _ _ (settled_apart hn (.inl rfl))).trans ?_
    have hst : (d.atCommit c r).fld (F.TSK_STATE_ST r.task) = d.fld (F.TSK_STATE_ST r.task) := by
      refine Dev.fld_wr_ne _ _ ?_
      change Reg.TSK_STATE r.task ≠ _
      unfold Reg.TSK_STATE Reg.TSK_USED; omega
    have hlive : ((d.atCommit c r).task r.task).live = (d.task r.task).live := rfl
    refine (Dev.endRun_state (r := { r with stage := .commit }) hcons hm0 hn hp.apart).trans ?_
    rw [hE.st, hst, hE.live, hlive]
  · refine Eq.trans ?_ hE.safe
    have ho := (Only.of_endRun hcons hm0).settled ((e.endRun c).core c).time
    unfold Dev.isSafe Dev.maskBit Dev.bit
    change bitOf (Dev.rd (Dev.settle (Dev.settleOuts (e.endRun c) ((e.endRun c).core c).time)) _).toNat _ = _
    rw [ho.rd (by decide) (safe_apart hn fun q hq => hp.tasks q (List.mem_of_mem_drop hq))]

end Sys2Proof.Machine
end

section
/-!
PROOFS. Commands that are the access to one register (R5, R8, R21).
-/
namespace Sys2Proof.Machine

/-- A write of an assigned register: the access that its block makes of it. -/
theorem Dev.csrWrite_eq_access {r : Requester} {off : Nat} {v : Word} {t : Nat} {d : Dev} {f : Dev → Dev}
    (h4 : off % 4 = 0) (hm : (csrTicks off).isSome) (hf : d.writeReg r t off v = f d) :
    d.csrWrite r off v t = d.access r off f := by
  obtain ⟨n, hn⟩ := Option.isSome_iff_exists.mp hm
  unfold Dev.csrWrite Dev.access
  rw [if_neg (by simp [h4]), hn]
  cases r with
  | core c b =>
    cases n with
    | zero => rfl
    | succ n => simp only [hf]
  | svc => simp only [hf]
  | host => simp only [hf]
  | uart => simp only [hf]
  | lan => simp only [hf]

/-- The offset of a word that a block assigns. -/
def mapped (off : Nat) : Bool := decide (off < 2 ^ 24) && decide (off % 4 = 0) && (csrTicks off).isSome

theorem mapped_iff {off : Nat} : mapped off = true ↔ off < 2 ^ 24 ∧ off % 4 = 0 ∧ (csrTicks off).isSome := by
  simp [mapped, and_assoc]

/-- f, where requester r may write the register at an offset, is the write of v there if its block takes v so. -/
theorem State.asWrite_eq_csrWrite {s : State} {r : Requester} {off : Nat} {v : Word} {f : Nat → Dev → Dev}
    (hm : mapped off = true) (hf : ∀ t d, d.writeReg r t off v = f t d) :
    s.asWrite r off f = exec (.csrWrite r (BitVec.ofNat 24 off) v) s := by
  obtain ⟨hlt, h4, ht⟩ := mapped_iff.mp hm
  have he : (fun t d => Dev.csrWrite r off v t d) = fun t d => d.access r off (f t) :=
    funext fun t => funext fun d => Dev.csrWrite_eq_access h4 ht (hf t d)
  change s.upd _ = s.upd (Dev.csrWrite r (BitVec.ofNat 24 off).toNat v)
  rw [BitVec.toNat_ofNat, Nat.mod_eq_of_lt hlt]
  exact congrArg s.upd he.symm

/-! ## Words of a register that are made of parts -/

theorem toNat_append_word {m n : Nat} (x : BitVec m) (y : BitVec n) : (x ++ y).toNat = x.toNat * 2 ^ n + y.toNat := by
  rw [BitVec.toNat_append, ← Nat.shiftLeft_add_eq_or_of_lt y.isLt, Nat.shiftLeft_eq]

/-- A key in the upper half of a word, and the code below it. -/
theorem keyed_word (k c : BitVec 16) (hc : c.toNat < 16) :
    bitsOf (k ++ c : BitVec 32).toNat 31 16 = k.toNat ∧ bitsOf (k ++ c : BitVec 32).toNat 3 0 = c.toNat ∧
    ∀ b, b < 16 → (k ++ c : BitVec 32).getLsbD b = c.getLsbD b := by
  refine ⟨?_, ?_, fun b hb => ?_⟩
  · rw [toNat_append_word]; unfold bitsOf; omega
  · rw [toNat_append_word]; unfold bitsOf; omega
  · rw [BitVec.getLsbD_append, if_pos hb]

theorem writeReg_xchCmd (d : Dev) (r : Requester) (t : Nat) (k c : BitVec 16) (hc : c.toNat < 16) :
    d.writeReg r t Reg.XCH_CMD (k ++ c) = d.xchCmd r t c.toNat k.toNat := by
  obtain ⟨hk, hn, -⟩ := keyed_word k c hc
  change d.xchCmd r t (bitsOf (k ++ c : BitVec 32).toNat 3 0) (bitsOf (k ++ c : BitVec 32).toNat 31 16) = _
  rw [hk, hn]

theorem writeReg_hsbCmd (d : Dev) (r : Requester) (t : Nat) (k c : BitVec 16) (hc : c.toNat < 16) :
    d.writeReg r t Reg.HSB_CMD (k ++ c) = d.hsbCommand t c.toNat k.toNat := by
  obtain ⟨hk, hn, -⟩ := keyed_word k c hc
  change d.hsbCommand t (bitsOf (k ++ c : BitVec 32).toNat 3 0) (bitsOf (k ++ c : BitVec 32).toNat 31 16) = _
  rw [hk, hn]

theorem writeReg_faultClear (d : Dev) (r : Requester) (t : Nat) (k : BitVec 16) :
    d.writeReg r t Reg.SUP_CTL (k ++ (1 : BitVec 16)) = d.faultClear k.toNat t := by
  obtain ⟨hk, -, hb⟩ := keyed_word k 1 (by decide)
  change (if (k ++ (1 : BitVec 16) : BitVec 32).getLsbD 0 then
    Dev.faultClear (bitsOf (k ++ (1 : BitVec 16) : BitVec 32).toNat 31 16) t d else d) = _
  rw [hk, hb 0 (by decide)]
  rfl

/-- SYS_RESET asks for access itself (State.asWrite): to ask twice changes nothing. -/
theorem access_sysReset (d : Dev) (r : Requester) (kind core key t : Nat) :
    d.access r Reg.SYS_RESET (fun d => d.sysReset r kind core key t) = d.sysReset r kind core key t := by
  have hb (b : Bool) (x y : Dev) : (if b then (if b then x else y) else y) = if b then x else y := by cases b <;> rfl
  cases r with
  | core c b => rfl
  | svc => exact hb (d.mayWrite .svc Reg.SYS_RESET) _ d
  | host => exact hb (d.mayWrite .host Reg.SYS_RESET) _ d
  | uart => exact hb (d.mayWrite .uart Reg.SYS_RESET) _ d
  | lan => rfl

theorem State.sysReset_eq_asWrite (s : State) (r : Requester) (kind core key : Nat) :
    s.upd (Dev.sysReset r kind core key) = s.asWrite r Reg.SYS_RESET (fun t d => d.sysReset r kind core key t) :=
  congrArg s.upd (funext fun t => funext fun d => (access_sysReset d r kind core key t).symm)

theorem writeReg_sysReset (d : Dev) (r : Requester) (t : Nat) (k c : BitVec 16) (hc : c.toNat < 16) :
    d.writeReg r t Reg.SYS_RESET (k ++ c) = d.sysReset r c.toNat 0 k.toNat t := by
  obtain ⟨hk, hn, -⟩ := keyed_word k c hc
  change Dev.sysReset r (bitsOf (k ++ c : BitVec 32).toNat 3 0) (bitsOf (k ++ c : BitVec 32).toNat 10 8)
    (bitsOf (k ++ c : BitVec 32).toNat 31 16) t d = _
  have hz : bitsOf (k ++ c : BitVec 32).toNat 10 8 = 0 := by rw [toNat_append_word]; unfold bitsOf; omega
  rw [hk, hn, hz]

theorem writeReg_coreRestart (d : Dev) (r : Requester) (t : Nat) (k : BitVec 16) (c : BitVec 3) :
    d.writeReg r t Reg.SYS_RESET (k ++ (0 : BitVec 5) ++ c ++ (0x03 : BitVec 8)) = d.sysReset r 3 c.toNat k.toNat t := by
  have hw : (k ++ (0 : BitVec 5) ++ c ++ (0x03 : BitVec 8)).toNat = k.toNat * 65536 + c.toNat * 256 + 3 := by
    rw [toNat_append_word, toNat_append_word, toNat_append_word]
    change ((k.toNat * 2 ^ 5 + 0) * 2 ^ 3 + c.toNat) * 2 ^ 8 + 3 = _
    omega
  have hc := c.isLt
  change Dev.sysReset r (bitsOf (k ++ (0 : BitVec 5) ++ c ++ (0x03 : BitVec 8)).toNat 3 0)
    (bitsOf (k ++ (0 : BitVec 5) ++ c ++ (0x03 : BitVec 8)).toNat 10 8)
    (bitsOf (k ++ (0 : BitVec 5) ++ c ++ (0x03 : BitVec 8)).toNat 31 16) t d = _
  rw [hw, show bitsOf (k.toNat * 65536 + c.toNat * 256 + 3) 3 0 = 3 by unfold bitsOf; omega,
    show bitsOf (k.toNat * 65536 + c.toNat * 256 + 3) 10 8 = c.toNat by unfold bitsOf; omega,
    show bitsOf (k.toNat * 65536 + c.toNat * 256 + 3) 31 16 = k.toNat by unfold bitsOf; omega]

theorem writeReg_wdtServe (d : Dev) (r : Requester) (t : Nat) (k : BitVec 16) :
    d.writeReg r t Reg.WDT_SERVE ((0 : BitVec 16) ++ k) = d.wdtServe k.toNat t := by
  change Dev.wdtServe (bitsOf ((0 : BitVec 16) ++ k : BitVec 32).toNat 15 0) t d = _
  have h : bitsOf ((0 : BitVec 16) ++ k : BitVec 32).toNat 15 0 = k.toNat := by
    rw [toNat_append_word, show (0 : BitVec 16).toNat = 0 from rfl]; unfold bitsOf; omega
  rw [h]

theorem writeReg_intRaise (d : Dev) (r : Requester) (t : Nat) (src : BitVec 8) (k : BitVec 16) :
    d.writeReg r t Reg.INT_RAISE (k ++ (0 : BitVec 8) ++ src) = d.intRaise t src.toNat k.toNat := by
  have hw : (k ++ (0 : BitVec 8) ++ src).toNat = k.toNat * 65536 + src.toNat := by
    rw [toNat_append_word, toNat_append_word]; change (k.toNat * 2 ^ 8 + 0) * 2 ^ 8 + _ = _; omega
  change d.intRaise t (bitsOf (k ++ (0 : BitVec 8) ++ src).toNat 7 0) (bitsOf (k ++ (0 : BitVec 8) ++ src).toNat 31 16) = _
  rw [hw, show bitsOf (k.toNat * 65536 + src.toNat) 7 0 = src.toNat by unfold bitsOf; omega,
    show bitsOf (k.toNat * 65536 + src.toNat) 31 16 = k.toNat by unfold bitsOf; omega]

theorem writeReg_maxClear (d : Dev) (r : Requester) (t : Nat) (n : BitVec 6) :
    d.writeReg r t Reg.TSK_GCTL ((0 : BitVec 18) ++ n ++ (0x02 : BitVec 8)) = d.maxClear n.toNat := by
  have hw : ((0 : BitVec 18) ++ n ++ (0x02 : BitVec 8)).toNat = n.toNat * 256 + 2 := by
    rw [toNat_append_word, toNat_append_word]; change (0 * 2 ^ 6 + n.toNat) * 2 ^ 8 + 2 = _; omega
  change d.writeGctl _ = _
  unfold Dev.writeGctl
  have h0 : ((0 : BitVec 18) ++ n ++ (0x02 : BitVec 8)).getLsbD 0 = false := by rw [BitVec.getLsbD_append]; rfl
  have h1 : ((0 : BitVec 18) ++ n ++ (0x02 : BitVec 8)).getLsbD 1 = true := by rw [BitVec.getLsbD_append]; rfl
  rw [h0, h1, hw, show bitsOf (n.toNat * 256 + 2) 13 8 = n.toNat by unfold bitsOf; omega]
  rfl

theorem writeReg_ring (d : Dev) (r : Requester) (t : Nat) (m : BitVec 4) :
    d.writeReg r t Reg.HST_DBELL ((0 : BitVec 28) ++ m) = Dev.ring m.toNat t d := by
  change Dev.ring (bitsOf ((0 : BitVec 28) ++ m : BitVec 32).toNat 3 0) t d = _
  have h : bitsOf ((0 : BitVec 28) ++ m : BitVec 32).toNat 3 0 = m.toNat := by
    rw [toNat_append_word, show (0 : BitVec 28).toNat = 0 from rfl]; unfold bitsOf; omega
  rw [h]

/-! ## Indexed registers -/

theorem not_inWindow {off : Nat} (h : off < 0x100000) : ¬ inWindow off = true := by
  simp only [inWindow, Bool.and_eq_true, decide_eq_true_eq]
  omega

theorem writeReg_frpTable (d : Dev) (r : Requester) (t : Nat) (i : BitVec 12) (w : BitVec 2) (v : Word) :
    d.writeReg r t (0x100000 + 16 * i.toNat + 4 * w.toNat) v = d.frpTableWrite r i.toNat w.toNat v := by
  have hi := i.isLt
  have hw := w.isLt
  unfold Dev.writeReg
  rw [if_pos (by simp [inWindow]; omega), show (0x100000 + 16 * i.toNat + 4 * w.toNat - 0x100000) / 16 = i.toNat by omega,
    show (0x100000 + 16 * i.toNat + 4 * w.toNat) / 4 % 4 = w.toNat by omega]

theorem writeReg_queueConfig (d : Dev) (r : Requester) (t : Nat) (q : BitVec 5) (v : Word) :
    d.writeReg r t (Reg.QUE_CFG q.toNat) v = d.queueConfig r q.toNat v := by
  have hq := q.isLt
  unfold Dev.writeReg Reg.QUE_CFG
  rw [if_neg (not_inWindow (show 0x20000 + 0x4 * q.toNat < 0x100000 by omega)),
    show (0x20000 + 0x4 * q.toNat) / 0x1000 = 0x20 by omega]
  unfold Dev.writeQue Reg.QUE_QCOUNT Reg.QUE_CFG
  simp only
  rw [if_pos (by omega), show (0x20000 + 0x4 * q.toNat - (0x20000 + 0x4 * 0)) / 4 = q.toNat by omega]

theorem writeReg_queueIn (d : Dev) (r : Requester) (t : Nat) (q : BitVec 5) (v : Word) :
    d.writeReg r t (Reg.QUE_QIN q.toNat 0) v = d.queueIn r q.toNat 0 v := by
  have hq := q.isLt
  unfold Dev.writeReg Reg.QUE_QIN
  rw [if_neg (not_inWindow (show 0x20600 + 0x10 * q.toNat + 0x4 * 0 < 0x100000 by omega)),
    show (0x20600 + 0x10 * q.toNat + 0x4 * 0) / 0x1000 = 0x20 by omega]
  unfold Dev.writeQue Reg.QUE_QCOUNT Reg.QUE_QIN
  simp only
  rw [if_neg (by omega), if_pos (by omega),
    show (0x20600 + 0x10 * q.toNat + 0x4 * 0 - (0x20600 + 0x10 * 0 + 0x4 * 0)) / 16 = q.toNat by omega,
    show (0x20600 + 0x10 * q.toNat + 0x4 * 0) / 4 % 4 = 0 by omega]

theorem writeReg_intPend (d : Dev) (r : Requester) (t : Nat) (j : BitVec 3) (v : Word) :
    d.writeReg r t (Reg.INT_PEND j.toNat) v = d.intPendClear j.toNat v := by
  have hj := j.isLt
  unfold Dev.writeReg Reg.INT_PEND
  rw [if_neg (not_inWindow (show 0x5040 + 0x4 * j.toNat < 0x100000 by omega)),
    show (0x5040 + 0x4 * j.toNat) / 0x1000 = 0x05 by omega]
  unfold Dev.writeInt Reg.INT_RAISE Reg.INT_PEND
  simp only
  rw [if_neg (by omega), if_pos (by omega), show (0x5040 + 0x4 * j.toNat - (0x5040 + 0x4 * 0)) / 4 = j.toNat by omega]

theorem writeReg_intEn (d : Dev) (r : Requester) (t : Nat) (j : BitVec 3) (v : Word) :
    d.writeReg r t (Reg.INT_EN j.toNat) v = d.intEnWrite t j.toNat v := by
  have hj := j.isLt
  unfold Dev.writeReg Reg.INT_EN
  rw [if_neg (not_inWindow (show 0x5060 + 0x4 * j.toNat < 0x100000 by omega)),
    show (0x5060 + 0x4 * j.toNat) / 0x1000 = 0x05 by omega]
  unfold Dev.writeInt Reg.INT_RAISE Reg.INT_PEND Reg.INT_EN
  simp only
  rw [if_neg (by omega), if_neg (by omega), if_pos (by omega),
    show (0x5060 + 0x4 * j.toNat - (0x5060 + 0x4 * 0)) / 4 = j.toNat by omega]

theorem writeReg_biCfg (d : Dev) (r : Requester) (t : Nat) {n : Nat} (v : Word) (hn : n < 96) :
    d.writeReg r t (Reg.BIO_BICFG n) v = d.biCfgWrite r t n v := by
  unfold Dev.writeReg Reg.BIO_BICFG
  rw [if_neg (not_inWindow (show 0x50100 + 0x4 * n < 0x100000 by omega)),
    show (0x50100 + 0x4 * n) / 0x1000 = 0x50 by omega]
  unfold Dev.writeBio Reg.BIO_BICFG Reg.BIO_CTL Reg.BIO_RBCFG Reg.BIO_BOSAFE0 Reg.BIO_BOSAFE1 Reg.BIO_RBINV Reg.BIO_RBEN
  simp only
  rw [if_neg (by omega), if_neg (by omega), if_neg (by omega), if_neg (by omega), if_pos (by omega),
    show (0x50100 + 0x4 * n - (0x50100 + 0x4 * 0)) / 4 = n by omega]

theorem writeReg_threshold (d : Dev) (r : Requester) (t : Nat) (k : BitVec 8) (v : Word) :
    d.writeReg r t (Reg.ADC_THR1 k.toNat) v = d.thrWrite r t k.toNat 1 v := by
  have hk := k.isLt
  unfold Dev.writeReg Reg.ADC_THR1
  rw [if_neg (not_inWindow (show 0x51404 + 0x8 * k.toNat < 0x100000 by omega)),
    show (0x51404 + 0x8 * k.toNat) / 0x1000 = 0x51 by omega]
  unfold Dev.writeAdc Reg.ADC_THR0 Reg.ADC_CFG Reg.ADC_RMSCFG
  simp only
  rw [if_neg (by omega), if_neg (by omega), if_pos (by omega),
    show (0x51404 + 0x8 * k.toNat - (0x51400 + 0x8 * 0)) / 8 = k.toNat by omega,
    show (0x51404 + 0x8 * k.toNat) / 4 % 2 = 1 by omega]

theorem writeReg_rtcTime (d : Dev) (r : Requester) (t : Nat) {k : Nat} (v : Word) (hk : k ≤ 6) :
    d.writeReg r t (Reg.RTC_SUBSEC + 4 * k) v = d.writeTime t k v := by
  unfold Dev.writeReg
  rw [if_neg (not_inWindow (show Reg.RTC_SUBSEC + 4 * k < 0x100000 by unfold Reg.RTC_SUBSEC; omega)),
    show (Reg.RTC_SUBSEC + 4 * k) / 0x1000 = 0x61 by unfold Reg.RTC_SUBSEC; omega]
  have hi : timeIndex (Reg.RTC_SUBSEC + 4 * k) = some k := by
    unfold timeIndex Reg.RTC_SUBSEC Reg.RTC_YEAR
    rw [if_pos (by omega), show (0x61010 + 4 * k - 0x61010) / 4 = k by omega]
  change d.writeRtc r t _ v = _
  unfold Dev.writeRtc
  rw [hi]

/-- A write to channel n: the word at k of its block. -/
theorem writeReg_can (d : Dev) (r : Requester) (t : Nat) {n k : Nat} (v : Word) (hn : n < 4) (hk : k < 0x1000) :
    d.writeReg r t (Reg.CAN_CFG n + k) v = d.writeCan r t n k v := by
  unfold Dev.writeReg Reg.CAN_CFG
  rw [if_neg (not_inWindow (show 0x40000 + 0x1000 * n + k < 0x100000 by omega)),
    show (0x40000 + 0x1000 * n + k) / 0x1000 = 0x40 + n by omega, show (0x40000 + 0x1000 * n + k) % 0x1000 = k by omega]
  obtain rfl | rfl | rfl | rfl : n = 0 ∨ n = 1 ∨ n = 2 ∨ n = 3 := by omega
  all_goals rfl

theorem writeReg_canCtl (d : Dev) (r : Requester) (t : Nat) (n : BitVec 2) (v : Word) :
    d.writeReg r t (Reg.CAN_CTL n.toNat) v = d.canModeWrite t n.toNat v := by
  have he : Reg.CAN_CTL n.toNat = Reg.CAN_CFG n.toNat + 4 := by unfold Reg.CAN_CTL Reg.CAN_CFG; omega
  rw [he, writeReg_can d r t v n.isLt (by decide)]
  rfl

theorem writeReg_canFcmd (d : Dev) (r : Requester) (t : Nat) (n : BitVec 2) (v : Word) :
    d.writeReg r t (Reg.CAN_FCMD n.toNat) v = d.fcmd n.toNat v := by
  have he : Reg.CAN_FCMD n.toNat = Reg.CAN_CFG n.toNat + 0x24 := by unfold Reg.CAN_FCMD Reg.CAN_CFG; omega
  rw [he, writeReg_can d r t v n.isLt (by decide)]
  rfl

theorem writeReg_canTxctl (d : Dev) (r : Requester) (t : Nat) (n : BitVec 2) {b : Nat} (v : Word) (hb : b < 3) :
    d.writeReg r t (Reg.CAN_TXCTL n.toNat b) v = d.txCtl t n.toNat b v := by
  have he : Reg.CAN_TXCTL n.toNat b = Reg.CAN_CFG n.toNat + (0x44 + 0x60 * b) := by
    unfold Reg.CAN_TXCTL Reg.CAN_CFG; omega
  rw [he, writeReg_can d r t v n.isLt (by omega)]
  obtain rfl | rfl | rfl : b = 0 ∨ b = 1 ∨ b = 2 := by omega
  all_goals rfl

theorem mapped_intPend : ∀ j : BitVec 3, mapped (Reg.INT_PEND j.toNat) = true := by decide
theorem mapped_intEn : ∀ j : BitVec 3, mapped (Reg.INT_EN j.toNat) = true := by decide
theorem mapped_queueCfg : ∀ q : BitVec 5, mapped (Reg.QUE_CFG q.toNat) = true := by decide
theorem mapped_queueIn : ∀ q : BitVec 5, mapped (Reg.QUE_QIN q.toNat 0) = true := by decide
theorem mapped_canTxctl : ∀ n b : BitVec 2, b.toNat < 3 → mapped (Reg.CAN_TXCTL n.toNat b.toNat) = true := by decide
theorem mapped_canCtl : ∀ n : BitVec 2, mapped (Reg.CAN_CTL n.toNat) = true := by decide
theorem mapped_canFcmd : ∀ n : BitVec 2, mapped (Reg.CAN_FCMD n.toNat) = true := by decide
theorem mapped_biCfg : ∀ n : BitVec 7, n.toNat < 96 → mapped (Reg.BIO_BICFG n.toNat) = true := by decide
theorem mapped_threshold : ∀ k : BitVec 8, mapped (Reg.ADC_THR1 k.toNat) = true := by decide
theorem mapped_rtcTime : ∀ k : BitVec 3, k.toNat < 7 → mapped (Reg.RTC_SUBSEC + 4 * k.toNat) = true := by decide

theorem mapped_frpTable (i : BitVec 12) (w : BitVec 2) : mapped (0x100000 + 16 * i.toNat + 4 * w.toNat) = true := by
  have hi := i.isLt
  have hw := w.isLt
  refine mapped_iff.mpr ⟨by omega, by omega, ?_⟩
  unfold csrTicks inWindow
  rw [if_pos (by simp only [Bool.and_eq_true, decide_eq_true_eq]; omega)]
  rfl

/-! ## The commands -/

/-- A command of writeForm does what its block makes of the write, where the requester may write the register. -/
theorem exec_eq_asWrite {s : State} {i : Instr} {r : Requester} {off : Nat} {v : Word} (h : writeForm i = some (r, off, v)) :
    ∃ f, exec i s = s.asWrite r off f ∧ mapped off = true ∧ ∀ t d, d.writeReg r t off v = f t d := by
  unfold writeForm at h
  split at h
  · cases h; exact ⟨_, rfl, by decide, fun _ _ => rfl⟩
  · cases h; exact ⟨_, s.sysReset_eq_asWrite _ _ _ _, by decide, fun _ _ => writeReg_sysReset _ _ _ _ 1 (by decide)⟩
  · cases h; exact ⟨_, s.sysReset_eq_asWrite _ _ _ _, by decide, fun _ _ => writeReg_sysReset _ _ _ _ 2 (by decide)⟩
  · cases h; exact ⟨_, s.sysReset_eq_asWrite _ _ _ _, by decide, fun _ _ => writeReg_coreRestart _ _ _ _ _⟩
  · cases h; exact ⟨_, rfl, by decide, fun _ _ => writeReg_faultClear _ _ _ _⟩
  · cases h; exact ⟨_, rfl, by decide, fun _ _ => rfl⟩
  · cases h; exact ⟨_, rfl, by decide, fun _ _ => writeReg_wdtServe _ _ _ _⟩
  · cases h; exact ⟨_, rfl, by decide, fun _ _ => writeReg_intRaise _ _ _ _ _⟩
  · cases h; exact ⟨_, rfl, mapped_intPend _, fun _ _ => writeReg_intPend _ _ _ _ _⟩
  · cases h; exact ⟨_, rfl, mapped_intEn _, fun _ _ => writeReg_intEn _ _ _ _ _⟩
  · cases h; exact ⟨_, rfl, by decide, fun _ _ => rfl⟩
  · cases h; exact ⟨_, rfl, by decide, fun _ _ => writeReg_maxClear _ _ _ _⟩
  · cases h; exact ⟨_, rfl, by decide, fun _ _ => rfl⟩
  · cases h; exact ⟨_, rfl, by decide, fun _ _ => rfl⟩
  · cases h; exact ⟨_, rfl, mapped_frpTable _ _, fun _ _ => writeReg_frpTable _ _ _ _ _ _⟩
  · cases h; exact ⟨_, rfl, by decide, fun _ _ => rfl⟩
  · cases h; exact ⟨_, rfl, by decide, fun _ _ => writeReg_xchCmd _ _ _ _ 1 (by decide)⟩
  · cases h; exact ⟨_, rfl, by decide, fun _ _ => writeReg_xchCmd _ _ _ _ 2 (by decide)⟩
  · cases h; exact ⟨_, rfl, by decide, fun _ _ => writeReg_xchCmd _ _ _ _ 3 (by decide)⟩
  · cases h; exact ⟨_, rfl, by decide, fun _ _ => writeReg_xchCmd _ _ _ _ 4 (by decide)⟩
  · cases h; exact ⟨_, rfl, by decide, fun _ _ => writeReg_xchCmd _ _ _ _ 5 (by decide)⟩
  · obtain ⟨⟨q, key⟩, rfl, h⟩ := Option.map_eq_some_iff.mp h
    cases h; exact ⟨_, rfl, by decide, fun _ _ => writeReg_hsbCmd _ _ _ _ 1 (by decide)⟩
  · cases h; exact ⟨_, rfl, by decide, fun _ _ => writeReg_hsbCmd _ _ _ _ 2 (by decide)⟩
  · cases h; exact ⟨_, rfl, by decide, fun _ _ => writeReg_hsbCmd _ _ _ _ 3 (by decide)⟩
  · cases h; exact ⟨_, rfl, by decide, fun _ _ => writeReg_hsbCmd _ _ _ _ 4 (by decide)⟩
  · cases h; exact ⟨_, rfl, mapped_queueCfg _, fun _ _ => writeReg_queueConfig _ _ _ _ _⟩
  · cases h; exact ⟨_, rfl, mapped_queueIn _, fun _ _ => writeReg_queueIn _ _ _ _ _⟩
  · cases h; exact ⟨_, rfl, by decide, fun _ _ => writeReg_ring _ _ _ _⟩
  · cases h; exact ⟨_, rfl, by decide, fun _ _ => rfl⟩
  · cases h; exact ⟨_, rfl, by decide, fun _ _ => rfl⟩
  · cases h; exact ⟨_, rfl, by decide, fun _ _ => rfl⟩
  · cases h; exact ⟨_, rfl, by decide, fun _ _ => rfl⟩
  · cases h; exact ⟨_, rfl, by decide, fun _ _ => rfl⟩
  · rw [Option.ite_none_right_eq_some] at h
    obtain ⟨hb, h⟩ := h
    cases h; exact ⟨_, rfl, mapped_canTxctl _ _ hb, fun _ _ => (if_pos hb).symm ▸ writeReg_canTxctl _ _ _ _ _ hb⟩
  · rw [Option.ite_none_right_eq_some] at h
    obtain ⟨hb, h⟩ := h
    cases h; exact ⟨_, rfl, mapped_canTxctl _ _ hb, fun _ _ => (if_pos hb).symm ▸ writeReg_canTxctl _ _ _ _ _ hb⟩
  · cases h; exact ⟨_, rfl, mapped_canCtl _, fun _ _ => writeReg_canCtl _ _ _ _ _⟩
  · cases h; exact ⟨_, rfl, mapped_canFcmd _, fun _ _ => writeReg_canFcmd _ _ _ _ _⟩
  · rw [Option.ite_none_right_eq_some] at h
    obtain ⟨hb, h⟩ := h
    cases h; exact ⟨_, rfl, mapped_biCfg _ hb, fun _ _ => (if_pos hb).symm ▸ writeReg_biCfg _ _ _ _ hb⟩
  · cases h; exact ⟨_, rfl, by decide, fun _ _ => rfl⟩
  · cases h; exact ⟨_, rfl, mapped_threshold _, fun _ _ => writeReg_threshold _ _ _ _ _⟩
  · cases h; exact ⟨_, rfl, by decide, fun _ _ => rfl⟩
  · cases h; exact ⟨_, rfl, by decide, fun _ _ => rfl⟩
  · rw [Option.ite_none_right_eq_some] at h
    obtain ⟨hb, h⟩ := h
    cases h; exact ⟨_, rfl, mapped_rtcTime _ (Nat.lt_succ_of_le hb), fun _ _ => (if_pos hb).symm ▸ writeReg_rtcTime _ _ _ _ hb⟩
  · cases h; exact ⟨_, rfl, by decide, fun _ _ => rfl⟩
  · cases h

/-! ## Reads -/

/-- A read of a register that costs ticks: what its block answers, where the requester may read. -/
theorem Dev.csrRead_eq {r : Requester} {off n : Nat} (t : Nat) (d : Dev) (h4 : off % 4 = 0) (hn : csrTicks off = some (n + 1)) :
    d.csrRead r off t = if d.mayRead r then { (d.readReg r t off).1 with readData := (d.readReg r t off).2 } else d := by
  unfold Dev.csrRead
  cases hr : d.mayRead r with
  | false => simp
  | true =>
    rw [if_neg (by simp [h4]), hn]
    cases r <;> rfl

/-- The register at an offset is neither a UCB word nor one of a child table, and its block computes it. -/
theorem Dev.readReg_of_block {d : Dev} {r : Requester} {t off : Nat} {x : Dev × Word} (hu : ucbAt off = none)
    (ht : tableAt off = none) (hb : d.readBlock r t off = some x) : d.readReg r t off = x := by
  unfold Dev.readReg
  rw [hu, ht, hb]

/-- An offset that a block assigns with a cost, outside the UCBs and the child tables. -/
def costly (off : Nat) : Bool :=
  mapped off && (csrTicks off).any (fun n => n != 0) && (ucbAt off).isNone && (tableAt off).isNone

theorem State.upd_eq_firstWordRead {s : State} {r : Requester} {off : Nat} {f : Nat → Dev → Dev × Word}
    (hc : costly off = true) (hf : ∀ t d, d.readBlock r t off = some (f t d)) :
    s.upd (fun t d => if d.mayRead r then { (f t d).1 with readData := (f t d).2 } else d) =
      exec (.firstWordRead r (BitVec.ofNat 24 off)) s := by
  obtain ⟨⟨⟨hm, ht⟩, hu⟩, hb⟩ : ((mapped off = true ∧ _) ∧ _) ∧ _ := by simpa only [costly, Bool.and_eq_true] using hc
  obtain ⟨hlt, h4, -⟩ := mapped_iff.mp hm
  obtain ⟨n, hn⟩ : ∃ n, csrTicks off = some (n + 1) := by
    cases hk : csrTicks off with
    | none => rw [hk] at ht; cases ht
    | some k => cases k with
      | zero => rw [hk] at ht; cases ht
      | succ n => exact ⟨n, rfl⟩
  have he : (fun t d => Dev.csrRead r off t d) =
      fun t d => if d.mayRead r then { (f t d).1 with readData := (f t d).2 } else d :=
    funext fun t => funext fun d => by
      rw [Dev.csrRead_eq t d h4 hn, Dev.readReg_of_block (Option.isNone_iff_eq_none.mp hu) (Option.isNone_iff_eq_none.mp hb) (hf t d)]
  change _ = s.upd (Dev.csrRead r (BitVec.ofNat 24 off).toNat)
  rw [BitVec.toNat_ofNat, Nat.mod_eq_of_lt hlt]
  exact congrArg s.upd he.symm

theorem readBlock_queueItem (d : Dev) (r : Requester) (t : Nat) (q : BitVec 5) :
    d.readBlock r t (Reg.QUE_QITEM q.toNat 0) = some (d.queuePop r q.toNat) := by
  have hq := q.isLt
  unfold Dev.readBlock Reg.QUE_QITEM
  rw [show (0x20400 + 0x10 * q.toNat + 0x4 * 0) / 0x1000 = 0x20 by omega]
  unfold Dev.readQue Reg.QUE_QCOUNT Reg.QUE_QITEM
  simp only
  rw [if_neg (by omega), if_pos (by omega), if_pos (by omega),
    show (0x20400 + 0x10 * q.toNat + 0x4 * 0 - (0x20400 + 0x10 * 0 + 0x4 * 0)) / 16 = q.toNat by omega]

theorem readBlock_canRxf (d : Dev) (r : Requester) (t : Nat) (n : BitVec 2) :
    d.readBlock r t (Reg.CAN_RXF n.toNat 0) = some (d.readRxf r n.toNat) := by
  have hn : n.toNat < 4 := n.isLt
  generalize n.toNat = k at hn ⊢
  obtain rfl | rfl | rfl | rfl : k = 0 ∨ k = 1 ∨ k = 2 ∨ k = 3 := by omega
  all_goals rfl

theorem readBlock_rtcTime (d : Dev) (r : Requester) (t : Nat) {k : Nat} (hk : k ≤ 6) :
    d.readBlock r t (Reg.RTC_SUBSEC + 4 * k) = some ((d.readTime t r k).2, (d.readTime t r k).1) := by
  obtain rfl | rfl | rfl | rfl | rfl | rfl | rfl : k = 0 ∨ k = 1 ∨ k = 2 ∨ k = 3 ∨ k = 4 ∨ k = 5 ∨ k = 6 := by omega
  all_goals rfl

theorem costly_queueItem : ∀ q : BitVec 5, costly (Reg.QUE_QITEM q.toNat 0) = true := by decide
theorem costly_canRxf : ∀ n : BitVec 2, costly (Reg.CAN_RXF n.toNat 0) = true := by decide
theorem costly_rtcTime : ∀ k : BitVec 3, k.toNat ≤ 6 → costly (Reg.RTC_SUBSEC + 4 * k.toNat) = true := by decide

/-- A command of readForm is the read of its register. -/
theorem exec_eq_firstWordRead {s : State} {i : Instr} {r : Requester} {off : Nat} (h : readForm i = some (r, off)) :
    exec i s = exec (.firstWordRead r (BitVec.ofNat 24 off)) s := by
  unfold readForm at h
  split at h
  case h_1 q =>
    cases h
    exact State.upd_eq_firstWordRead (f := fun _ d => d.queuePop r q.toNat) (costly_queueItem q)
      (fun t d => readBlock_queueItem d r t q)
  case h_2 n =>
    cases h
    exact State.upd_eq_firstWordRead (f := fun _ d => d.readRxf r n.toNat) (costly_canRxf n)
      (fun t d => readBlock_canRxf d r t n)
  case h_3 k =>
    rw [Option.ite_none_right_eq_some] at h
    obtain ⟨hk, h⟩ := h
    cases h
    rw [← State.upd_eq_firstWordRead (s := s) (f := fun t d => ((d.readTime t r k.toNat).2, (d.readTime t r k.toNat).1))
      (costly_rtcTime k hk) (fun t d => readBlock_rtcTime d r t hk)]
    change s.upd (fun t d => if d.mayRead r ∧ k.toNat ≤ 6 then _ else d) = _
    simp only [hk, and_true]
  case h_4 o =>
    cases h
    rw [BitVec.ofNat_toNat, BitVec.setWidth_eq]
    rfl
  case h_5 => cases h

/-- Settles O54: the command's block makes the same of the access as of the write or the read of the register. -/
theorem registerCommands : Obligations.RegisterCommands := by
  unfold Obligations.RegisterCommands
  refine fun s i r off v => ⟨fun h => ?_, exec_eq_firstWordRead⟩
  obtain ⟨f, hi, hm, hf⟩ := exec_eq_asWrite h
  exact hi.trans (State.asWrite_eq_csrWrite hm hf)

end Sys2Proof.Machine
end

section
/-!
SUPPORT. What the passing of time leaves as it was (Dev.upTo: R168, R323, R362): the registers below the fast rung plane but
those of source 77, and the tasks but for sources that arrive.
-/
namespace Sys2Proof.Machine

/-- A register below the fast rung plane that no change of F reaches. -/
def Early (off : Nat) : Prop := off < 0x12000 ∧ off ∉ Reg.INT_FIRST :: raiseRegs 77

theorem Early.ne {off o : Nat} (h : Early off) (ho : 0x12000 ≤ o) : off ≠ o := Nat.ne_of_lt (Nat.lt_of_lt_of_le h.1 ho)

theorem Dev.rd_flushT (d : Dev) (t off : Nat) : (d.flushT t).rd off = d.rd off :=
  Dev.flushT_keeps (fun d => d.rd off) (fun _ _ => rfl) d t

theorem Dev.rd_soe (d : Dev) (t type srcid value aux : Nat) {off : Nat} (h : Early off) :
    (d.soe t type srcid value aux).rd off = d.rd off := by
  have hc : off ≠ Reg.BIO_SOECNT := h.ne (by decide)
  have hq : off ≠ Reg.QUE_QLOST 0 := h.ne (by decide)
  unfold Dev.soe Dev.soeAt
  split
  · dsimp only
    split
    · exact (Dev.rd_wr_ne _ _ hq).trans (Dev.rd_wr_ne _ _ hc)
    · exact Dev.rd_wr_ne d _ hc
  · rfl

theorem Dev.rd_setF (d : Dev) (x k : Nat) (v : Bool) {off : Nat} (h : Early off) : (d.setF x k v).rd off = d.rd off := by
  have hr (e : Dev) (i : Nat) (hi : i = 77) : (e.raise x i).rd off = e.rd off := by
    subst hi
    refine (Only.of_raise e x 77).rd (by decide) (fun hm => ?_)
    rcases List.mem_append.mp hm with hm | hm
    · exact h.2 (List.mem_cons_of_mem _ hm)
    · rcases List.mem_cons.mp hm with rfl | hm
      · exact h.2 List.mem_cons_self
      · have := h.1
        simp only [List.mem_cons, List.not_mem_nil, or_false, Reg.BIO_BO0, Reg.BIO_BO1] at hm
        omega
  have ho : off ≠ Reg.FRP_FO0 + 4 * (k / 32) := h.ne (by unfold Reg.FRP_FO0; omega)
  have hs : off ≠ Reg.FRP_STAT := h.ne (by decide)
  unfold Dev.setF Dev.raiseFlag
  rw [Dev.combine_keeps (fun d => d.rd off) (fun _ _ => rfl), hr _ _ rfl]
  refine (Dev.rd_wr_ne _ _ hs).trans ((Dev.rd_soe _ _ _ _ _ _ h).trans ((Dev.rd_wr_ne _ _ ho).trans (Dev.rd_flushT d x off)))

theorem Dev.rd_flushF (d : Dev) (t : Nat) {off : Nat} (h : Early off) : (d.flushF t).rd off = d.rd off :=
  foldl_keeps (fun d => d.rd off) _ (fun e p => by
    dsimp only
    split
    · exact Dev.rd_setF _ _ _ _ h
    · rfl) _ _

theorem Dev.rd_queuesTo (d : Dev) (t : Nat) {off : Nat} (h : Early off) : (d.queuesTo t).rd off = d.rd off := by
  have hs (e : Dev) (x : QueuePush) : (e.storeItem x.queue x.item).rd off = e.rd off := by
    have hq : off ≠ Reg.QUE_QLOST x.queue := h.ne (by unfold Reg.QUE_QLOST; omega)
    unfold Dev.storeItem
    dsimp only
    split
    · rfl
    · exact Dev.rd_wr_ne (e.setQueue _ _) _ hq
  unfold Dev.queuesTo
  split
  · rfl
  · exact foldl_keeps (fun d => d.rd off) _ hs _ _

/-- What MONO brings by itself leaves an early register. -/
theorem Dev.rd_upTo (d : Dev) (t : Nat) {off : Nat} (h : Early off) : (d.upTo t).rd off = d.rd off := by
  have hw (o : Nat) (ho : 0x12000 ≤ o) : Ign.reg (fun d => d.rd off) o := fun e v => Dev.rd_wr_ne e v (h.ne ho)
  unfold Dev.upTo
  rw [Dev.rd_flushF _ _ h, Dev.rd_queuesTo _ _ h]
  exact Dev.nvsFlush_keeps (fun d => d.rd off) (fun _ _ => rfl) (fun _ _ => rfl) (hw _ (by decide)) (hw _ (by decide))
    (hw _ (by decide)) d t

theorem Dev.fld_upTo (d : Dev) (t : Nat) {f : Fld} (h : Early f.off) : (d.upTo t).fld f = d.fld f := by
  rw [Dev.fld, Dev.rd_upTo d t h]; rfl

theorem early_of {off : Nat} (h : off < 0x5000 ∨ (0x5500 ≤ off ∧ off < 0x12000)) : Early off := by
  refine ⟨by omega, ?_⟩
  simp only [raiseRegs, List.mem_cons, List.not_mem_nil, or_false, Reg.INT_FIRST, Reg.INT_SRCCFG, Reg.INT_PEND]
  omega

/-! ## Tasks -/

theorem SameTask.of_soe (d : Dev) (t type srcid value aux m : Nat) : SameTask d (d.soe t type srcid value aux) m := by
  refine .of_task (Dev.task_of_tasks ?_ m)
  unfold Dev.soe Dev.soeAt
  split
  · dsimp only; split <;> rfl
  · rfl

theorem SameTask.of_setF (d : Dev) (x k : Nat) (v : Bool) (m : Nat) : SameTask d (d.setF x k v) m := by
  have hf : SameTask d (d.flushT x) m :=
    .of_task (Dev.flushT_keeps (fun d => d.task m) (fun _ _ => rfl) d x)
  have hm : SameTask (d.flushT x) ((d.flushT x).setMaskBit Reg.FRP_FO0 k v) m := .of_task rfl
  have hc (e : Dev) : SameTask e (e.combine x) m := .of_task (Dev.combine_keeps (fun d => d.task m) (fun _ _ => rfl) e x)
  unfold Dev.setF
  exact (hf.trans hm).trans ((SameTask.of_soe _ _ _ _ _ _ m).trans ((SameTask.of_raiseFlag _ _ _ _ _ m).trans (hc _)))

end Sys2Proof.Machine
end

section
/-!
SUPPORT. States in which a change of F is under way for an output that the device does not have. R168 brings it at its instant
(Dev.setF), and its bit falls outside FRP_FO0 and FRP_FO1, on a register of another block: between a state and the device as a
command finds it that bit changes. No run of the fast rung plane lists such an output; a statement about every state speaks of
these states too.
-/
namespace Sys2Proof.Machine

/-- The device with a change to v under way for the output whose bit would be bit b of the register at an offset. -/
def Dev.struck (d : Dev) (off b : Nat) (v : Bool) : Dev :=
  { d with outs := { d.outs with fPipe := [(0, 32 * ((off - Reg.FRP_FO0) / 4) + b, v)] } }

/-- Nothing else is under way. -/
def Dev.quiet (d : Dev) : Prop := d.nvs.ops = [] ∧ d.queues.pushes = []

/-- The registers that a change of F reaches by its rules. -/
def fRegs : List Nat := [Reg.FRP_STAT, Reg.BIO_SOECNT, Reg.QUE_QLOST 0] ++ raiseRegs 77 ++ [Reg.INT_FIRST, Reg.BIO_BO0, Reg.BIO_BO1]

theorem Dev.rd_soe_of_not_mem (d : Dev) (t type srcid value aux : Nat) {off : Nat} (h : off ∉ fRegs) :
    (d.soe t type srcid value aux).rd off = d.rd off := by
  simp only [fRegs, List.mem_append, List.mem_cons, not_or] at h
  unfold Dev.soe Dev.soeAt
  split
  · dsimp only
    split
    · exact (Dev.rd_wr_ne _ _ h.1.1.2.2.1).trans (Dev.rd_wr_ne _ _ h.1.1.2.1)
    · exact Dev.rd_wr_ne d _ h.1.1.2.1
  · rfl

/-- What the change of an output leaves in a register that its rules do not reach. -/
theorem Dev.rd_setF_of_not_mem (d : Dev) (x k : Nat) (v : Bool) {off : Nat} (h : off ∉ fRegs) :
    (d.setF x k v).rd off = (d.setMaskBit Reg.FRP_FO0 k v).rd off := by
  have hr (e : Dev) : (e.raise x 77).rd off = e.rd off :=
    (Only.of_raise e x 77).rd (by decide) (fun hm => h (by
      rcases List.mem_append.mp hm with hm | hm
      · exact List.mem_append_left _ (List.mem_append_right _ hm)
      · exact List.mem_append_right _ hm))
  have hs : off ≠ Reg.FRP_STAT := fun he => h (he ▸ by simp [fRegs])
  have hf : ((d.flushT x).setMaskBit Reg.FRP_FO0 k v).rd off = (d.setMaskBit Reg.FRP_FO0 k v).rd off := by
    have hc : (d.flushT x).csr = d.csr := Dev.flushT_keeps Dev.csr (fun _ _ => rfl) d x
    refine Dev.rd_of_csr ?_ off
    unfold Dev.setMaskBit Dev.setBit Dev.wr Dev.rd
    rw [hc]
  unfold Dev.setF Dev.raiseFlag
  rw [Dev.combine_keeps (fun d => d.rd off) (fun _ _ => rfl), hr]
  exact (Dev.rd_wr_ne _ _ hs).trans ((Dev.rd_soe_of_not_mem _ _ _ _ _ _ h).trans hf)

theorem Dev.queuesTo_csr_of_quiet {d : Dev} (h : d.queues.pushes = []) (t : Nat) : (d.queuesTo t).csr = d.csr := by
  unfold Dev.queuesTo Dev.servePushes
  split
  · rfl
  · rw [h]; rfl

theorem Dev.nvsFlush_of_quiet {d : Dev} (h : d.nvs.ops = []) (t : Nat) : d.nvsFlush t = d := by
  unfold Dev.nvsFlush; rw [h]; rfl

variable {d : Dev} {off b t : Nat} {v : Bool}

theorem Dev.rd_struck_upTo (hq : d.quiet) (o : Nat) (h : o ∉ fRegs) :
    ((d.struck off b v).upTo t).rd o = (d.setMaskBit Reg.FRP_FO0 (32 * ((off - Reg.FRP_FO0) / 4) + b) v).rd o := by
  have h1 : (d.struck off b v).nvsFlush t = d.struck off b v := Dev.nvsFlush_of_quiet (d := d.struck off b v) hq.1 t
  have ho : ((d.struck off b v).queuesTo t).outs = (d.struck off b v).outs := by
    unfold Dev.queuesTo
    split
    · rfl
    · exact foldl_keeps Dev.outs _ (fun e x => by unfold Dev.storeItem; dsimp only; split <;> rfl) _ _
  have hc : ((d.struck off b v).queuesTo t).csr = d.csr := Dev.queuesTo_csr_of_quiet (d := d.struck off b v) hq.2 t
  have hf : ((d.struck off b v).queuesTo t).outs.fPipe = [(0, 32 * ((off - Reg.FRP_FO0) / 4) + b, v)] := by rw [ho]; rfl
  unfold Dev.upTo Dev.flushF
  rw [h1, hf, List.foldl_cons, List.foldl_nil, if_pos (Nat.zero_le t), Dev.rd_setF_of_not_mem _ _ _ _ h]
  refine Dev.rd_of_csr ?_ o
  unfold Dev.setMaskBit Dev.setBit Dev.wr Dev.rd
  exact congrArg (fun c => Sparse.set resetWordAt c _ (putBits (Sparse.get resetWordAt c _) _ _ _)) hc

/-- The bit that the change falls on. -/
theorem Dev.bit_struck_upTo (hq : d.quiet) (h : off ∉ fRegs) (hlo : Reg.FRP_FO0 ≤ off) (h4 : off % 4 = 0) (hb : b < 32) :
    ((d.struck off b v).upTo t).bit off b = v := by
  have he : Reg.FRP_FO0 + 4 * ((32 * ((off - Reg.FRP_FO0) / 4) + b) / 32) = off := by
    unfold Reg.FRP_FO0 at hlo ⊢; omega
  have hm : (32 * ((off - Reg.FRP_FO0) / 4) + b) % 32 = b := by omega
  have := Dev.maskBit_setMaskBit_same d Reg.FRP_FO0 (32 * ((off - Reg.FRP_FO0) / 4) + b) v
  unfold Dev.maskBit at this
  rw [he, hm] at this
  unfold Dev.bit at this ⊢
  rw [Dev.rd_struck_upTo hq off h]
  exact this

/-- A register that the change does not fall on. -/
theorem Dev.rd_struck_upTo_ne (hq : d.quiet) {o : Nat} (h : o ∉ fRegs) (hlo : Reg.FRP_FO0 ≤ off) (h4 : off % 4 = 0)
    (hb : b < 32) (ho : o ≠ off) : ((d.struck off b v).upTo t).rd o = d.rd o := by
  have he : Reg.FRP_FO0 + 4 * ((32 * ((off - Reg.FRP_FO0) / 4) + b) / 32) = off := by
    unfold Reg.FRP_FO0 at hlo ⊢; omega
  rw [Dev.rd_struck_upTo hq o h]
  unfold Dev.setMaskBit
  exact Dev.rd_setBit_ne _ _ _ (by rw [he]; exact ho)

/-! ## A write of the service port as access ends -/

/-- A state in which access is open (R418), and the device as the next command finds it has it closed. -/
def closing (d : Dev) : State := { dev := (d.wr Reg.SEC_STAT 2).struck Reg.SEC_STAT 1 false }

theorem closing_open (d : Dev) : (closing d).dev.accessOpen = true := by
  have h : (closing d).dev.rd Reg.SEC_STAT = 2 := Dev.rd_wr_same d Reg.SEC_STAT 2
  unfold Dev.accessOpen Dev.flag Dev.fld
  rw [show F.SEC_STAT_OPEN.off = Reg.SEC_STAT from rfl, h]
  rfl

/-- A field of one bit as a flag. -/
theorem Dev.flag_eq_bit (d : Dev) (f : Fld) (h : f.hi = f.lo) : d.flag f = d.bit f.off f.lo := by
  unfold Dev.flag Dev.fld Dev.bit bitsOf bitOf
  rw [h, show f.lo + 1 - f.lo = 1 by omega, Nat.pow_one]
  obtain h0 | h1 : (d.rd f.off).toNat / 2 ^ f.lo % 2 = 0 ∨ (d.rd f.off).toNat / 2 ^ f.lo % 2 = 1 := by omega
  · rw [h0]; rfl
  · rw [h1]; rfl

theorem closing_closed {d : Dev} (hq : d.quiet) (t : Nat) : ((closing d).dev.upTo t).accessOpen = false := by
  have := Dev.bit_struck_upTo (d := d.wr Reg.SEC_STAT 2) (b := 1) (v := false) (t := t) (off := Reg.SEC_STAT) hq (by decide) (by decide) (by decide)
    (by decide)
  unfold Dev.accessOpen
  rw [Dev.flag_eq_bit _ _ rfl]
  exact this

/-- What the next command finds in a register. -/
theorem closing_rd {d : Dev} (hq : d.quiet) (t : Nat) {o : Nat} (h : o ∉ fRegs) (ho : o ≠ Reg.SEC_STAT) :
    ((closing d).dev.upTo t).rd o = d.rd o :=
  (Dev.rd_struck_upTo_ne (d := d.wr Reg.SEC_STAT 2) hq h (by decide) (by decide) (by decide) ho).trans (Dev.rd_wr_ne _ _ ho)

theorem closing_writes {d : Dev} (ha : d.awake = true) (off : Nat) : Writes (closing d) .uart off where
  awake := ha
  allowed := closing_open d
  reached := fun _ _ _ => nofun

/-- The service port is refused what it asks for. -/
theorem access_uart_closed {d : Dev} (h : d.accessOpen = false) (off : Nat) (f : Dev → Dev) : d.access .uart off f = d := by
  unfold Dev.access
  have : ¬ d.mayWrite .uart off = true := by change ¬ d.accessOpen = true; rw [h]; exact Bool.false_ne_true
  split
  · contradiction
  · contradiction
  · exact if_neg this

/-- A write of the service port as access ends changes nothing. -/
theorem Does.at_closing {d : Dev} {i : Instr} {off : Nat} {f : Nat → Dev → Dev} {P : Dev → Dev → Prop} (ha : d.awake = true)
    (hq : d.quiet) (he : ∀ s, exec i s = s.asWrite .uart off f) (h : Does (closing d) i 0 P) :
    P ((closing d).dev.upTo 0) ((((closing d).dev.upTo 0).settleOuts 0).settle) := by
  obtain ⟨u, hu, -, -, hp⟩ := h
  rw [he, State.asWrite, State.upd, Dev.doAwake_of (d := (closing d).dev) ha] at hu
  have hm : (closing d).mono = 0 := rfl
  rw [hm, access_uart_closed (closing_closed hq 0)] at hu
  injection hu with hu
  rw [← hu] at hp
  exact hp

end Sys2Proof.Machine
end

section
/-!
PROOFS. Statements that fail where a change of F closes access as the service port writes (State closing): what they say of
the write is said of the requester as the state shows it, while the command asks the device as it finds it.
-/
namespace Sys2Proof.Machine

/-- A bit as it is after a refused write. -/
theorem closing_bit {d : Dev} (hq : d.quiet) {o : Nat} (i : Nat) (h : o ∉ fRegs) (ho : o ≠ Reg.SEC_STAT) :
    ((((closing d).dev.upTo 0).settleOuts 0).settle).bit o i = d.bit o i := by
  have hs : o ∉ [Reg.INT_FIRST, Reg.BIO_BO0, Reg.BIO_BO1] := fun hm => h (List.mem_append_right _ hm)
  unfold Dev.bit
  rw [Dev.settled_rd _ _ hs, closing_rd hq 0 h ho]

theorem quiet_reset : Dev.quiet {} := ⟨rfl, rfl⟩

/-- Refutes O56: a resolution that the service port asks for as access closes does not begin. -/
theorem not_pathResolution : ¬ Obligations.PathResolution := by
  unfold Obligations.PathResolution
  intro h
  obtain ⟨hw, -⟩ := h (closing {}) .uart 0 ⟨0, 0, []⟩ rfl
  obtain ⟨-, hp⟩ := (hw (closing_writes rfl _)).at_closing rfl quiet_reset (fun _ => rfl)
  have hb := (hp (by decide)).1
  rw [closing_bit quiet_reset 1 (by decide) (by decide)] at hb
  exact absurd hb (by decide)

/-- A field as it is after a refused write. -/
theorem closing_fld {d : Dev} (hq : d.quiet) (f : Fld) (h : f.off ∉ fRegs) (ho : f.off ≠ Reg.SEC_STAT) :
    ((((closing d).dev.upTo 0).settleOuts 0).settle).fld f = d.fld f := by
  have hs : f.off ∉ [Reg.INT_FIRST, Reg.BIO_BO0, Reg.BIO_BO1] := fun hm => h (List.mem_append_right _ hm)
  unfold Dev.fld
  rw [Dev.settled_rd _ _ hs, closing_rd hq 0 h ho]

/-- A field as the command finds it. -/
theorem closing_found_fld {d : Dev} (hq : d.quiet) (f : Fld) (h : f.off ∉ fRegs) (ho : f.off ≠ Reg.SEC_STAT) :
    ((closing d).dev.upTo 0).fld f = d.fld f := by
  unfold Dev.fld
  rw [closing_rd hq 0 h ho]

theorem closing_settled_rd {d : Dev} (hq : d.quiet) {o : Nat} (h : o ∉ fRegs) (ho : o ≠ Reg.SEC_STAT) :
    ((((closing d).dev.upTo 0).settleOuts 0).settle).rd o = d.rd o := by
  have hs : o ∉ [Reg.INT_FIRST, Reg.BIO_BO0, Reg.BIO_BO1] := fun hm => h (List.mem_append_right _ hm)
  rw [Dev.settled_rd _ _ hs, closing_rd hq 0 h ho]

/-- A device with one field set. -/
def Dev.withFld (f : Fld) (n : Nat) : Dev := Dev.setFld {} f n

theorem quiet_withFld (f : Fld) (n : Nat) : (Dev.withFld f n).quiet := ⟨rfl, rfl⟩

/-- Refutes O26: the service port's ACKALL as access closes clears no OVR. -/
theorem not_runEndsAndModes : ¬ Obligations.RunEndsAndModes := by
  unfold Obligations.RunEndsAndModes
  intro h
  obtain ⟨-, -, -, -, hw, -⟩ := h (closing (.withFld (F.TSK_STATE_OVR 0) 1)) 0 0 .uart 0 0 rfl
  have hp := (hw (closing_writes rfl _)).1.at_closing rfl (quiet_withFld _ _) (fun _ => rfl)
  have hb := (hp.1 0 (by decide)).1
  rw [closing_fld (quiet_withFld _ _) _ (by decide) (by decide)] at hb
  exact absurd hb (by decide)

/-- Refutes O27: ANG_SRC written by the service port as access closes keeps its word. -/
theorem not_angleTracker : ¬ Obligations.AngleTracker := by
  unfold Obligations.AngleTracker
  intro h
  obtain ⟨-, -, -, -, -, -, -, hw, -⟩ := h (closing {}) .uart 1 0 false 0 0 0 none [] rfl
  have hb := ((hw (closing_writes rfl _)).at_closing rfl quiet_reset (fun _ => rfl)).1
  rw [closing_settled_rd quiet_reset (by decide) (by decide)] at hb
  exact absurd hb (by decide)

/-- Refutes O30: a snapshot that the service port asks for as access closes does not begin. -/
theorem not_fastRungTables : ¬ Obligations.FastRungTables := by
  unfold Obligations.FastRungTables
  intro h
  obtain ⟨-, -, -, -, -, -, hw, -⟩ := h (closing {}) .uart 0 0 0 0 .clean
  have hb := ((hw (closing_writes rfl _)).at_closing rfl quiet_reset (fun _ => rfl)).1
  rw [closing_fld quiet_reset _ (by decide) (by decide)] at hb
  exact absurd hb (by decide)

/-- Refutes O31: a CONFIRM of the service port as access closes, where none is due, shows no RESULT. -/
theorem not_exchangeCommands : ¬ Obligations.ExchangeCommands := by
  unfold Obligations.ExchangeCommands
  intro h
  obtain ⟨-, hw, -⟩ := h (closing {}) .uart 0xE8C6
  obtain ⟨-, -, -, hc, -⟩ := hw (closing_writes rfl _) rfl
  obtain ⟨-, hr⟩ := hc.at_closing rfl quiet_reset (fun _ => rfl)
  have hx : ((closing {}).dev.upTo 0).xst ≠ 3 := by
    unfold Dev.xst Dev.fld
    rw [closing_rd quiet_reset 0 (by decide) (by decide)]
    decide
  have hb := (hr (fun hn => hx hn.1)).1
  rw [closing_fld quiet_reset _ (by decide) (by decide)] at hb
  exact absurd hb (by decide)

/-- Refutes O35: the service port's HSB_CMD code 3 as access closes sets no RETINH. -/
theorem not_publication : ¬ Obligations.Publication := by
  unfold Obligations.Publication
  intro h
  obtain ⟨-, -, -, -, -, -, -, -, -, -, -, -, hw⟩ := h (closing (.withFld F.HSB_CFG_EN 1)) 0 ⟨0, 0, 0, 0, 0, true⟩ [] 0 .uart 0xB7A2 rfl
  have hb := ((hw (closing_writes rfl _) rfl (by decide)).2.1.at_closing rfl (quiet_withFld _ _) (fun _ => rfl)).1
  rw [closing_fld (quiet_withFld _ _) _ (by decide) (by decide)] at hb
  exact absurd hb (by decide)

/-- Refutes O36: HSB_CMD code 1 of the service port as access closes neither calls nor refuses a handover. -/
theorem not_handoverAndMirror : ¬ Obligations.HandoverAndMirror := by
  unfold Obligations.HandoverAndMirror
  intro h
  let d : Dev := { Dev.setFld (.withFld F.HSB_CFG_EN 1) F.HSB_STAT_ROLES 1 with phase := .prep }
  have hq : d.quiet := ⟨rfl, rfl⟩
  obtain ⟨-, -, -, hw, -⟩ := h (closing d) 0 ⟨0, 0, 0, 0, 0, true⟩ 0 [] .uart 0xB7A2 true ⟨0, 0, [], [], []⟩ rfl
  obtain ⟨ha, hr, -⟩ := (hw (closing_writes rfl _) rfl (by decide)).at_closing rfl hq (fun _ => rfl)
  have h0 : ((closing d).dev.upTo 0).roleBit 0 = true := by
    unfold Dev.roleBit Dev.bit
    rw [closing_rd hq 0 (by decide) (by decide)]
    decide
  cases hx : ((closing d).dev.upTo 0).acceptsHandover true with
  | true =>
    have hb := (ha h0 hx).1
    unfold Dev.role at hb
    rw [closing_fld hq _ (by decide) (by decide)] at hb
    exact absurd hb (by decide)
  | false =>
    have hb := (hr h0 hx).1.1
    unfold Dev.pendingSrc Dev.maskBit at hb
    rw [closing_bit hq _ (by decide) (by decide)] at hb
    exact absurd hb (by decide)

/-- Refutes O37: SWX_PHYCTL written by the service port as access closes releases no PHY. -/
theorem not_networkPorts : ¬ Obligations.NetworkPorts := by
  unfold Obligations.NetworkPorts
  intro h
  obtain ⟨-, -, -, -, hw, -⟩ :=
    h (closing {}) 0 0 ⟨0, true, 0, 0, 0, 0, 0, none, false, none, none, 0, true, 0⟩ false .uart 1 none rfl
  have hb := ((hw (closing_writes rfl _)).at_closing rfl quiet_reset (fun _ => rfl)).1
  unfold Dev.flag at hb
  rw [closing_fld quiet_reset _ (by decide) (by decide)] at hb
  exact absurd hb (by decide)

/-- Refutes O38: SWX_SUBCTL written by the service port as access closes keeps its INDEX. -/
theorem not_subscriptionsAndPublications : ¬ Obligations.SubscriptionsAndPublications := by
  unfold Obligations.SubscriptionsAndPublications
  intro h
  obtain ⟨hw, -⟩ := h (closing {}) 0 .uart 1 false ⟨⟨0, 0, 0, 0⟩, 0, false, false, false, 0, 0, 0, []⟩
    ⟨⟨0, 0, 0, 0⟩, 0, false, []⟩ 0 0 0 0 rfl
  obtain ⟨-, hp⟩ := (hw (closing_writes rfl _)).at_closing rfl quiet_reset (fun _ => rfl)
  have hb := (hp rfl).1
  rw [closing_fld quiet_reset _ (by decide) (by decide)] at hb
  exact absurd hb (by decide)

/-- Refutes O39: PTP_CMD written by the service port as access closes, where a source disciplines station time, sets no REFUSED. -/
theorem not_stationTime : ¬ Obligations.StationTime := by
  unfold Obligations.StationTime
  intro h
  obtain ⟨-, -, -, -, -, -, -, -, -, hw, -⟩ := h (closing (.withFld F.PTP_STAT_SRC 1)) 0 0 0 0 0 0 0 0 0 0x71A30001
    ⟨0, 0, 0, 0, 0, 0, 0, false, 0, 0⟩ 0 0 false false false .uart ⟨true, none, 0, 0, 0, 0, 0⟩ rfl
  obtain ⟨-, -, hp, -⟩ := (hw (closing_writes rfl _)).at_closing rfl (quiet_withFld _ _) (fun _ => rfl)
  have hs : ((closing (.withFld F.PTP_STAT_SRC 1)).dev.upTo 0).fld F.PTP_STAT_SRC ≠ 0 := by
    rw [closing_found_fld (quiet_withFld _ _) _ (by decide) (by decide)]
    decide
  have hb := (hp rfl (Or.inr hs)).1
  rw [closing_fld (quiet_withFld _ _) _ (by decide) (by decide)] at hb
  exact absurd hb (by decide)

/-- Refutes O40: CAN_CTL written by the service port as access closes keeps its MODE. -/
theorem not_panelBus : ¬ Obligations.PanelBus := by
  unfold Obligations.PanelBus
  intro h
  obtain ⟨-, -, -, -, -, -, hw, -⟩ := h (closing {}) 0 0 0 0 ⟨false, 0, false, false, false, false, 0, []⟩ .uart 1 0 0 0 false 0 0 0
    0 0 [] false false false 0 0 0 rfl
  obtain ⟨-, hp, -⟩ := (hw (closing_writes rfl _)).at_closing rfl quiet_reset (fun _ => rfl)
  have hs : ((closing {}).dev.upTo 0).fld (F.CAN_STAT_ERRSTATE 0) ≠ 2 := by
    rw [closing_found_fld quiet_reset _ (by decide) (by decide)]
    decide
  have hb := (hp rfl hs).1
  rw [closing_fld quiet_reset _ (by decide) (by decide)] at hb
  exact absurd hb (by decide)

/-- Refutes O41: BIO_RBEN written by the service port as access closes is neither stored nor refused. -/
theorem not_inputsAndComparators : ¬ Obligations.InputsAndComparators := by
  unfold Obligations.InputsAndComparators
  intro h
  obtain ⟨-, -, -, -, -, -, -, hw, -⟩ := h (closing {}) 0 0 0 0 0 false false .uart 1 [] 0 false false false rfl
  obtain ⟨hr, ha⟩ := (hw (closing_writes rfl _)).at_closing rfl quiet_reset (fun _ => rfl)
  cases hx : ((closing {}).dev.upTo 0).progOk .uart with
  | true =>
    have hb := (ha hx).1
    rw [closing_settled_rd quiet_reset (by decide) (by decide)] at hb
    exact absurd hb (by decide)
  | false =>
    have hb := (hr hx).2.1
    rw [closing_bit quiet_reset _ (by decide) (by decide)] at hb
    exact absurd hb (by decide)

/-- Refutes O42: the doorbell that the service port rings as access closes makes no mailbox BUSY. -/
theorem not_queuesAndInterrupts : ¬ Obligations.QueuesAndInterrupts := by
  unfold Obligations.QueuesAndInterrupts
  intro h
  obtain ⟨-, -, -, -, -, -, -, hw, -⟩ := h (closing {}) 0 .uart 0 0 1 0 0 0 0 false 0 0 rfl
  have hb := ((hw (closing_writes rfl _)).at_closing rfl quiet_reset (fun _ => rfl)).1 0 (by decide)
  rw [closing_bit quiet_reset _ (by decide) (by decide)] at hb
  exact Bool.false_ne_true hb

/-- Refutes O47: RTC_CTL.HALT written by the service port as access closes does not halt the calendar. -/
theorem not_calendar : ¬ Obligations.Calendar := by
  unfold Obligations.Calendar
  intro h
  obtain ⟨-, -, hx⟩ := h (closing {}) 0 0 .uart 0 0
  obtain ⟨-, -, -, hw, -⟩ := hx rfl
  obtain ⟨-, hp⟩ := (hw (closing_writes rfl _)).at_closing rfl quiet_reset (fun _ => rfl)
  unfold Dev.halted Dev.flag at hp
  rw [closing_found_fld quiet_reset _ (by decide) (by decide), closing_fld quiet_reset _ (by decide) (by decide)] at hp
  exact absurd (hp (by decide)).1 (by decide)

/-- Refutes O49: SUP_CTL written by the service port as access closes clears no FAULT_N. -/
theorem not_resetsAndWatchdog : ¬ Obligations.ResetsAndWatchdog := by
  unfold Obligations.ResetsAndWatchdog
  intro h
  obtain ⟨-, -, -, -, -, -, -, -, hx⟩ := h (closing (.withFld F.SUP_STAT_FAULTN 1)) 0 0 0 .uart 0x3C96 0 false 0 none 0 [] 0
  obtain ⟨-, hw, -⟩ := hx rfl
  have hb := (((hw (closing_writes rfl _)).at_closing rfl (quiet_withFld _ _) (fun _ => rfl)).1 rfl).1
  unfold Dev.flag at hb
  rw [closing_fld (quiet_withFld _ _) _ (by decide) (by decide)] at hb
  exact absurd hb (by decide)

/-- Refutes O53: SYS_PATH0 written by the service port as access closes keeps its word. -/
theorem not_registerAccess : ¬ Obligations.RegisterAccess := by
  unfold Obligations.RegisterAccess
  intro h
  obtain ⟨-, -, -, -, -, -, -, -, hw, -⟩ := h (closing {}) .uart (BitVec.ofNat 24 Reg.SYS_PATH0) 0 false 0 rfl
  have hx (s : State) : exec (.csrWrite .uart (BitVec.ofNat 24 Reg.SYS_PATH0) 0) s =
      s.asWrite .uart Reg.SYS_PATH0 (fun t d => d.writeReg .uart t Reg.SYS_PATH0 0) :=
    (State.asWrite_eq_csrWrite (by decide) (fun _ _ => rfl)).symm
  obtain ⟨hs, -⟩ := ((hw (closing_writes rfl _) rfl).1 (by decide)).at_closing rfl quiet_reset hx
  have hb := hs _ rfl 0
  rw [closing_settled_rd quiet_reset (by decide) (by decide)] at hb
  exact absurd hb (by decide)

end Sys2Proof.Machine
end

section
/-!
PROOFS. Statements that fail where a change of F changes what station time or the angle depends on as the command is due: an
instant that the state foresees is not the one that the device as the command finds it has.
-/
namespace Sys2Proof.Machine

/-- What a command that is due at an instant leaves. -/
theorem Does.at_out {s : State} {i : Instr} {due t : Nat} {f : Nat → Dev → Dev} {P : Dev → Dev → Prop}
    (he : exec i s = s.at due f) (ha : s.dev.awake = true) (h : Does s i t P) :
    P (s.dev.upTo t) ((f (max s.mono due) (s.dev.upTo (max s.mono due))).settleOuts (max s.mono due)).settle := by
  obtain ⟨u, hu, -, -, hp⟩ := h
  rw [he, State.at, Dev.doAwake_of ha] at hu
  injection hu with hu
  rw [← hu] at hp
  exact hp

/-- A release of no meaning. -/
def someRelease : Release := {}

/-- A periodic task on station time, which is being slewed at 10 µs per second. -/
def slewing : Dev :=
  { ((Dev.withFld (F.TSK_CFG_TBASE 0) 1).wr (Reg.TSK_PERIOD 0) 1000000) with
    tasks := [(0, { live := true, since := some 0, pend := some someRelease })],
    time := { slew := 1000000000 } }

/-- As the release is due, the slew goes on at 74 µs per second. -/
def slewingFaster : State := { dev := slewing.struck Reg.PTP_CFG 14 true }

set_option maxRecDepth 40000 in
/-- Refutes O23: the next point follows the instant at which the state foresaw the release, not the one that the slew gives. -/
theorem not_periodicReleases : ¬ Obligations.PeriodicReleases := by
  unfold Obligations.PeriodicReleases
  intro h
  have hp := (h slewingFaster 0 rfl rfl rfl).at_out rfl rfl
  exact absurd hp.1 (by decide)

/-- The angle follows station time, which is being slewed; an angle-bound task has its next point at the 50th turn, as the
resampler has. -/
def turning : Dev :=
  { Dev.withFld (F.TSK_CFG_KIND 0) 1 with
    tasks := [(0, { live := true, nextU := 50 * 2 ^ 32 })],
    ang := { loaded := true, nextPoint := 50 * 64 },
    time := { slew := 1000000000 } }

/-- As the point is due, the slew goes on at 74 µs per second. -/
def turningFaster : State := { dev := turning.struck Reg.PTP_CFG 14 true }

set_option maxRecDepth 40000 in
/-- Refutes O24: the instant of the release is the one at which the state foresaw the point, not the one that the slew gives. -/
theorem not_taskReleases : ¬ Obligations.TaskReleases := by
  unfold Obligations.TaskReleases
  intro h
  obtain ⟨ha, -⟩ := h turningFaster 0 rfl
  obtain ⟨-, hr, -⟩ := (ha rfl rfl).at_out rfl rfl
  exact absurd (hr (by decide) (by decide) (by decide)).last (by decide)

set_option maxRecDepth 40000 in
/-- Refutes O28: the set enters the input image 168 µs after the instant at which the state foresaw its point, not after the
one that the slew gives. -/
theorem not_sampleSets : ¬ Obligations.SampleSets := by
  unfold Obligations.SampleSets
  rintro ⟨h, -⟩
  obtain ⟨-, -, hs, -⟩ := (h turningFaster [] rfl).1.at_out rfl rfl
  exact absurd (congrArg (fun i => i.sets.map SampleSet.due) hs) (by decide)

end Sys2Proof.Machine
end

section
/-!
PROOFS. Statements that fail where access closes as a message or an event comes (State closing): the state shows access open,
and the device as the message finds it refuses.
-/
namespace Sys2Proof.Machine

/-- What an event leaves. -/
theorem Does.event_out {s : State} {i : Instr} {dt t : Nat} {f : Nat → Dev → Dev} {P : Dev → Dev → Prop}
    (he : exec i s = s.event dt f) (ha : s.dev.awake = true) (h : Does s i t P) :
    P (s.dev.upTo t) ((f (s.mono + dt) (s.dev.upTo (s.mono + dt))).settleOuts (s.mono + dt)).settle := by
  obtain ⟨u, hu, -, -, hp⟩ := h
  rw [he, State.event, Dev.doAwake_of ha] at hu
  injection hu with hu
  rw [← hu] at hp
  exact hp

/-- The runtime firmware serves frames. -/
def serving : State := closing { phase := .prep }

set_option maxRecDepth 40000 in
/-- Refutes O55: a read of no register over the service UART as access closes is refused, not answered as malformed. -/
theorem not_registerFrames : ¬ Obligations.RegisterFrames := by
  unfold Obligations.RegisterFrames
  intro h
  obtain ⟨-, -, hf⟩ := h serving 0 (.uart 0) 0 0 0
  obtain ⟨hr, -⟩ := hf rfl (fun _ => nofun)
  obtain ⟨-, hp⟩ := hr.event_out rfl rfl
  exact absurd (((hp (by decide) (by decide)).2.1 (by decide) (by decide)).1.2.1 rfl) (by decide)

end Sys2Proof.Machine
end

section
/-!
PROOFS. Statements about the commands of the host that fail where the mailbox of a command in service becomes free before the
command ends: Dev.reply takes it for aborted, and no reply comes.
-/
namespace Sys2Proof.Machine

/-- The device that an outcome leaves, where it leaves one. -/
def leftBy : Host.Outcome State Fault Refusal → Dev
  | .next u => u.dev
  | _ => {}

/-- What an instruction leaves. -/
theorem Does.left {s : State} {i : Instr} {t : Nat} {P : Dev → Dev → Prop} (h : Does s i t P) :
    P (s.dev.upTo t) (leftBy (exec i s)) := by
  obtain ⟨u, hu, -, -, hp⟩ := h
  rw [hu]
  exact hp

/-- Mailbox 0 is BUSY and the next in turn, under a session of version 3.0; it is free as a command ends. -/
def aborting : State :=
  { dev := Dev.struck { (Dev.wr {} Reg.HST_MBSTAT 1).wr Reg.HST_SESSION 0x10300 with
      phase := .prep, host := { rung := [0] } } Reg.HST_MBSTAT 0 false }

/-- A command of mailbox 0 that names this device. -/
def mailHead : CmdHead := { ch := .mailbox 0, tag := 0, path := [], remote := ⟨0, 0, 0, []⟩, corrected := 0 }

theorem aborting_inTurn : InTurn aborting mailHead.ch where
  serves := by decide
  carries := rfl
  next := fun m hm => by cases hm; decide
  busy := fun m hm => by cases hm; decide

theorem aborting_served {i : Instr} {f : HostForm} (hf : hostForm aborting i = some f) (hh : f.head = mailHead)
    (hw : waitsForNvs aborting i = false) (hr : aborting.dev.refusal mailHead f.code f.allowed = none) :
    Served aborting i f 0 where
  toInTurn := hh ▸ aborting_inTurn
  form := hf
  stored := hw
  new := by rw [hh]; rfl
  free := by rw [hh]; exact hr
  here := by rw [hh]; decide
  clean := by rw [hh]; rfl

/-- The form of the command that the host asks for. -/
def askedForm (i : Instr) : HostForm := (hostForm aborting i).getD ⟨mailHead, 0, 0, false⟩

set_option maxRecDepth 40000 in
/-- Refutes O44: an IDENT counts no command where its mailbox becomes free before it ends. -/
theorem not_hostCommands : ¬ Obligations.HostCommands := by
  unfold Obligations.HostCommands
  intro h
  obtain ⟨-, hi, -⟩ := h aborting (askedForm (.ident mailHead)) 0 mailHead 0 0 0 0 0 0 false [] ⟨0, 0, []⟩ 0 0 0 0 0 false 0 0
  obtain ⟨hr, -⟩ := (hi (aborting_served rfl rfl rfl (by decide))).left
  exact absurd hr.count (by decide)

set_option maxRecDepth 40000 in
/-- Refutes O43: a UNITREAD along a path that leads nowhere counts no command where its mailbox becomes free before it ends. -/
theorem not_hostService : ¬ Obligations.HostService := by
  unfold Obligations.HostService
  intro h
  obtain ⟨-, -, -, -, -, hw⟩ := h aborting (.unitread { mailHead with path := [9] }) _ rfl
  obtain ⟨-, hn, -⟩ := hw rfl rfl aborting_inTurn rfl
  obtain ⟨hr, -⟩ := (hn (by decide) 0 (by decide)).left
  exact absurd hr.count (by decide)

/-- The window of access ends at MONO 0, and FIELDLOCK comes as it does. -/
def locking : State := { dev := Dev.struck { sec := { winEnd := some 0 } } Reg.SEC_STAT 0 true }

set_option maxRecDepth 40000 in
/-- Refutes O50: access does not stay open as its window ends where FIELDLOCK comes as it does. -/
theorem not_securityCommands : ¬ Obligations.SecurityCommands := by
  unfold Obligations.SecurityCommands
  intro h
  obtain ⟨-, -, -, -, -, -, -, -, -, -, hx, -⟩ := h locking (askedForm (.ident mailHead)) 0 mailHead 0 [] [] [] []
  obtain ⟨-, hw, -⟩ := hx rfl
  obtain ⟨⟨-, -, ho, -⟩, -⟩ := (hw 0 rfl).left
  exact absurd ho.1 (by decide)

set_option maxRecDepth 40000 in
/-- Refutes O51: a STATUS of no component counts no command where its mailbox becomes free before it ends. -/
theorem not_fieldUpdate : ¬ Obligations.FieldUpdate := by
  unfold Obligations.FieldUpdate
  intro h
  obtain ⟨-, -, -, -, -, -, -, hn, -⟩ := h aborting (askedForm (.updStatus mailHead 0)) 0 0 mailHead 0 0 [] false 0
  obtain ⟨-, -, hs, -⟩ := hn rfl
  obtain ⟨hr, -⟩ := (hs (aborting_served rfl rfl rfl (by decide))).left
  exact absurd hr.count (by decide)

end Sys2Proof.Machine
end

section
/-!
PROOFS. Statements that fail where what the state shows of a pair, of the stand, of the retained memory or of a role is gone as
the command finds the device: a statement asks the state, the model the device as the command finds it.
-/
namespace Sys2Proof.Machine

/-- A member of a pair, which belongs to none as the next command finds it. -/
def leaving : State := { dev := Dev.struck { Dev.withFld F.HSB_CFG_EN 1 with phase := .prep } Reg.HSB_CFG 0 false }

/-- A message of the pair. -/
def pairHead0 : PairHead := ⟨0, 0, 0, 0, 0, true⟩

set_option maxRecDepth 40000 in
/-- Refutes O32: a STATE of the peer shows nothing in a device that has left its pair. -/
theorem not_exchangeSwitch : ¬ Obligations.ExchangeSwitch := by
  unfold Obligations.ExchangeSwitch
  intro h
  obtain ⟨-, -, -, -, -, -, -, hm⟩ := h leaving 0 0 0 1 false 0 0 0 0 0 [] false pairHead0 0 rfl
  obtain ⟨hs, -⟩ := hm (by decide) rfl (by decide)
  exact absurd hs.left.1 (by decide)

set_option maxRecDepth 40000 in
/-- Refutes O33: a PARLEY of the peer changes no role in a device that has left its pair. -/
theorem not_pairPaths : ¬ Obligations.PairPaths := by
  unfold Obligations.PairPaths
  intro h
  obtain ⟨-, -, -, -, -, -, -, -, -, -, -, -, hp⟩ := h leaving 0 false
    ⟨0, 0, 0, 0, 0, 0, 0, 0, false, false, false, 0, 0, 0, 0, 0, 0⟩ 0 0 pairHead0 rfl
  obtain ⟨-, -, hr, -⟩ := (hp (by decide) rfl (by decide)).left
  exact absurd hr (by decide)

set_option maxRecDepth 40000 in
/-- Refutes O34: a REFRESH is not decoded in a device that has left its pair. -/
theorem not_leaseLine : ¬ Obligations.LeaseLine := by
  unfold Obligations.LeaseLine
  intro h
  obtain ⟨-, -, -, -, -, hd, -⟩ := h leaving 0 false false false 0 rfl
  obtain ⟨hh, -⟩ := (hd (by decide)).left
  exact absurd (congrArg Hsb.sawRefresh hh) (by decide)

/-- A stand member with a leader and link on port 0, which has no link as the next command finds it. -/
def unlinked : State :=
  { dev := ((Dev.withFld F.STD_CFG_EN 1).setFld F.STD_STAT_LEADVALID 1 |>.setFld (F.STD_PORT_UP 0) 1).struck (Reg.STD_PORT 0) 0 false }

set_option maxRecDepth 40000 in
/-- Refutes O45: a time-stamp frame of the leader is not taken where its port has no link. -/
theorem not_standLink : ¬ Obligations.StandLink := by
  unfold Obligations.StandLink
  intro h
  obtain ⟨-, -, -, -, -, -, -, hl⟩ := h unlinked 0 0 0 0 0 false ⟨0, 0, 0, 0, 0, 0⟩ ⟨0, 0, 0, 0, 0, 0, 0, 0, 0, 0⟩
    ⟨0, 0, 0, 0, []⟩ 0 ⟨0, 0, 0, none⟩ rfl
  obtain ⟨-, hk, -⟩ := (hl (by decide) (by decide) (by decide) (by decide)).left
  exact absurd hk (by decide)

/-- The retained memory is READY as the next command finds it. -/
def recalling : State := { dev := Dev.struck {} Reg.NVS_STAT 0 true }

set_option maxRecDepth 40000 in
/-- Refutes O46: a write of the host is not turned away where NVS is READY as it comes. -/
theorem not_retainedMemory : ¬ Obligations.RetainedMemory := by
  unfold Obligations.RetainedMemory
  intro h
  obtain ⟨hb, -⟩ := h recalling 0 0 [] .clean 0 rfl
  obtain ⟨⟨hr, -⟩, -⟩ := (hb (by decide)).1.left
  exact absurd hr (by decide)

/-- What a command of every phase leaves. -/
theorem Leaves.left {s : State} {i : Instr} {t : Nat} {P : Dev → Dev → Prop} (h : Leaves s i t P) :
    P s.dev (leftBy (exec i s)) := by
  obtain ⟨u, hu, -, -, hp⟩ := h
  rw [hu]
  exact hp

/-- A member of a pair in hold-up; a role comes as the fast rung plane ends its sweep. -/
def dozing : State :=
  { dev := (((Dev.withFld F.HSB_CFG_EN 1).setFld F.PMU_STAT_STATE 2)).struck Reg.HSB_STAT 0 true }

set_option maxRecDepth 40000 in
/-- Refutes O48: the roles are given up before the plane ends its sweep, and a role that comes with its last change stays. -/
theorem not_supplyAndSleep : ¬ Obligations.SupplyAndSleep := by
  unfold Obligations.SupplyAndSleep
  intro h
  obtain ⟨-, -, -, -, -, -, -, -, -, -, -, hs, -⟩ := h dozing 0 0 0 false false 0 [] [] [] none
  obtain ⟨-, -, -, -, -, -, -, ha⟩ := (hs.1 (by decide)).left
  obtain ⟨-, -, -, -, hr, -⟩ := ha (by decide) (by decide)
  exact absurd (hr (by decide)).1 (by decide)

end Sys2Proof.Machine
end

section
/-!
SUPPORT. The fast rung plane: what the shared operations leave of the changes of F under way, the combination's F and the plane's
own registers (R155 to R176).
-/
namespace Sys2Proof.Machine

/-! ## The changes of F under way -/

/-- A raise leaves the outputs. -/
theorem Dev.raise_outs (d : Dev) (t i : Nat) : (d.raise t i).outs = d.outs := by
  have hp : (d.pend i).outs = d.outs := by
    unfold Dev.pend
    split
    · rfl
    · dsimp only; split <;> rfl
  have ht : (d.told i).outs = d.outs := by unfold Dev.told; split <;> exact hp
  have hs (e : Dev) : (e.msixSend t i).outs = e.outs := by
    unfold Dev.msixSend
    split
    · dsimp only; split <;> rfl
    · rfl
  have hn (e : Dev) : (e.notify t i).outs = e.outs := by
    unfold Dev.notify
    split
    · exact hs e
    · rfl
  rw [Dev.raise_eq]
  refine (foldl_keeps Dev.outs _ (fun _ _ => ?_) _ _).trans ((hn _).trans ht)
  split <;> rfl

theorem Dev.raiseFlag_outs (d : Dev) (t i off b : Nat) : (d.raiseFlag t i off b).outs = d.outs := Dev.raise_outs _ _ _

theorem Dev.fPipe_combine (d : Dev) (x : Nat) : (d.combine x).outs.fPipe = d.outs.fPipe := by
  unfold Dev.combine
  exact (apply_ite (fun e : Dev => e.outs.fPipe) _ _ _).trans (ite_self _)

theorem Dev.fPipe_flushT (d : Dev) (t : Nat) : (d.flushT t).outs.fPipe = d.outs.fPipe :=
  foldl_keeps (fun d => d.outs.fPipe) _ (fun d p => by
    dsimp only
    split
    · exact Dev.fPipe_combine _ _
    · rfl) _ _

theorem Dev.fPipe_flushPads (d : Dev) (t : Nat) : (d.flushPads t).outs.fPipe = d.outs.fPipe := by
  unfold Dev.flushPads
  refine (foldl_keeps (fun d => d.outs.fPipe) _ (fun d p => ?_) _ _).trans (Dev.fPipe_flushT d t)
  dsimp only
  split
  · exact (congrArg Outs.fPipe (Dev.setPads_keeps Dev.outs (fun _ _ => rfl) (fun _ _ => rfl) (fun _ _ => rfl) (fun _ _ => rfl)
      _ p.1 p.2)).trans rfl
  · rfl

theorem Dev.fPipe_settleOuts (d : Dev) (t : Nat) : (d.settleOuts t).outs.fPipe = d.outs.fPipe := by
  unfold Dev.settleOuts
  simp only [apply_ite (fun e : Dev => e.outs.fPipe), Dev.fPipe_flushPads, Dev.fPipe_combine, Dev.fPipe_flushT, ite_self]

theorem Dev.settled_fPipe (d : Dev) (t : Nat) : (d.settleOuts t).settle.outs.fPipe = d.outs.fPipe :=
  (congrArg Outs.fPipe (Dev.settle_keeps Dev.outs (fun _ _ => rfl) (fun _ _ => rfl) _)).trans (Dev.fPipe_settleOuts d t)

/-! ## F and the plane -/

/-- F of an output below 64 is its bit of FRP_FO0 and FRP_FO1. -/
theorem Dev.fastOut_bit (d : Dev) {k : Nat} (h : k < 64) : d.fastOut.getLsbD k = d.maskBit Reg.FRP_FO0 k := by
  unfold Dev.fastOut Dev.rd64 Dev.maskBit Dev.bit
  rw [BitVec.getLsbD_ofNat, decide_eq_true h, Bool.true_and, bitOf_eq_testBit, Nat.add_comm, Nat.mul_comm,
    Nat.testBit_two_pow_mul_add _ (d.rd Reg.FRP_FO0).isLt]
  rcases Nat.lt_or_ge k 32 with hk | hk
  · rw [if_pos hk, show k / 32 = 0 by omega, Nat.mod_eq_of_lt hk]; rfl
  · rw [if_neg (Nat.not_lt.mpr hk), show k / 32 = 1 by omega, show k % 32 = k - 32 by omega]

theorem Dev.fastOut_of_rd {d e : Dev} (h0 : e.rd Reg.FRP_FO0 = d.rd Reg.FRP_FO0) (h1 : e.rd Reg.FRP_FO1 = d.rd Reg.FRP_FO1) :
    e.fastOut = d.fastOut := by
  unfold Dev.fastOut Dev.rd64
  rw [h0, show Reg.FRP_FO0 + 4 = Reg.FRP_FO1 from rfl, h1]

/-- The registers of the plane, F and what reports it aside. -/
theorem Dev.fld_plane_setF (d : Dev) (x k : Nat) (v : Bool) :
    (d.setF x k v).fld F.FRP_STAT_PLANE = d.fld F.FRP_STAT_PLANE := by
  have hr (e : Dev) : (e.raise x 77).fld F.FRP_STAT_PLANE = e.fld F.FRP_STAT_PLANE :=
    (Only.of_raise e x 77).fld (by decide) (by decide)
  have hs (e : Dev) : (e.soe x 2 k (b2n v) 0).fld F.FRP_STAT_PLANE = e.fld F.FRP_STAT_PLANE := by
    unfold Dev.soe Dev.soeAt
    split
    · dsimp only
      split
      · exact (Dev.fld_wr_ne _ _ (by decide)).trans (Dev.fld_wr_ne _ _ (by decide))
      · exact Dev.fld_wr_ne e _ (by decide)
    · rfl
  have hb (e : Dev) : (e.setBit Reg.FRP_STAT 13 true).fld F.FRP_STAT_PLANE = e.fld F.FRP_STAT_PLANE :=
    Dev.fld_setFld_bits e (f := ⟨Reg.FRP_STAT, 13, 13⟩) (g := F.FRP_STAT_PLANE) 1 (by decide) (by decide) (by decide)
  have ho : Reg.FRP_STAT ≠ Reg.FRP_FO0 + 4 * (k / 32) := by unfold Reg.FRP_STAT Reg.FRP_FO0; omega
  unfold Dev.setF Dev.raiseFlag
  rw [Dev.combine_keeps (fun d => d.fld F.FRP_STAT_PLANE) (fun _ _ => rfl), hr, hb, hs]
  exact (Dev.fld_wr_ne _ _ ho).trans (Dev.flushT_keeps (fun d => d.fld F.FRP_STAT_PLANE) (fun _ _ => rfl) d x)

/-- What MONO brings by itself leaves the state of the plane. -/
theorem Dev.fld_plane_upTo (d : Dev) (t : Nat) : (d.upTo t).fld F.FRP_STAT_PLANE = d.fld F.FRP_STAT_PLANE := by
  have hw (o : Nat) (ho : Reg.FRP_STAT ≠ o) : Ign.reg (fun d => d.fld F.FRP_STAT_PLANE) o := fun e v => Dev.fld_wr_ne e v ho
  have hq (e : Dev) (x : QueuePush) : (e.storeItem x.queue x.item).fld F.FRP_STAT_PLANE = e.fld F.FRP_STAT_PLANE := by
    unfold Dev.storeItem
    dsimp only
    split
    · rfl
    · exact hw (Reg.QUE_QLOST x.queue) (by unfold Reg.FRP_STAT Reg.QUE_QLOST; omega) (e.setQueue _ _) _
  have hc (e : Dev) : (e.queuesTo t).fld F.FRP_STAT_PLANE = e.fld F.FRP_STAT_PLANE := by
    unfold Dev.queuesTo
    split
    · rfl
    · exact foldl_keeps (fun d => d.fld F.FRP_STAT_PLANE) _ hq _ _
  unfold Dev.upTo
  refine (foldl_keeps (fun d => d.fld F.FRP_STAT_PLANE) _ (fun e p => ?_) _ _).trans ((hc _).trans ?_)
  · dsimp only
    split
    · exact Dev.fld_plane_setF _ _ _ _
    · rfl
  · exact Dev.nvsFlush_keeps (fun d => d.fld F.FRP_STAT_PLANE) (fun _ _ => rfl) (fun _ _ => rfl) (hw _ (by decide))
      (hw _ (by decide)) (hw _ (by decide)) d t

theorem Dev.plane_upTo (d : Dev) (t : Nat) : (d.upTo t).plane = d.plane :=
  Dev.upTo_keeps Dev.plane (by constructor <;> exact fun _ _ => rfl) d t

/-- What MONO brings by itself leaves what phase and mode ask of the plane. -/
theorem Dev.planeWanted_upTo (d : Dev) (t : Nat) : (d.upTo t).planeWanted = d.planeWanted := by
  have hp : (d.upTo t).phase = d.phase := Dev.upTo_keeps Dev.phase (by constructor <;> exact fun _ _ => rfl) d t
  have hm : (d.upTo t).mode = d.mode := congrArg Mode.ofCode (Dev.fld_upTo d t (early_of (Or.inl (by decide))))
  unfold Dev.planeWanted
  rw [hp, hm]

/-! ## The pads of a sweep -/

/-- The device without what an output that changes may change: registers, outputs, readback and what leaves. -/
def Dev.inside (d : Dev) : Dev := { d with csr := [], outs := {}, outbox := [], units := {}, io := d.io.still }

theorem Part.same_of_inside {d e : Dev} (h : e.inside = d.inside) (p : Part) : Part.same d e p := by
  simp only [Dev.inside, Dev.mk.injEq] at h
  cases p <;> simp_all [Part.same]

/-- The levels that reach the pads change the pads alone. -/
theorem Only.of_flushPads (d : Dev) (t : Nat) : Only d (d.flushPads t) [] [] := by
  refine ⟨fun p _ => Part.same_of_inside ?_ p, fun _ off ho => ?_⟩
  · exact Dev.flushPads_keeps Dev.inside (fun _ _ => rfl) (fun _ _ => rfl) (fun _ _ => rfl) (fun _ _ => rfl) (fun _ _ => rfl) d t
  · simp only [List.nil_append, List.mem_cons, not_or] at ho
    exact Dev.flushPads_keeps (fun d => d.rd off) (fun _ _ => rfl) (fun _ _ => rfl) (fun _ _ => rfl)
      (fun e v => Dev.rd_wr_ne e v ho.2.1) (fun e v => Dev.rd_wr_ne e v ho.2.2.1) d t

end Sys2Proof.Machine
end

section
/-!
PROOFS. A sweep of the fast rung plane (R155 to R163, R168, R173, R175, R176).
-/
namespace Sys2Proof.Machine

/-! ## Raises in a row -/

/-- Source i is pending if it was, and counts what it counted. -/
structure Awaits (d e : Dev) (i : Nat) : Prop where
  pend : d.pendingSrc i = true → e.pendingSrc i = true
  count : e.fld (F.INT_SRCCFG_CNT i) = d.fld (F.INT_SRCCFG_CNT i)

theorem Awaits.of_rd {d e : Dev} {i : Nat} (h : ∀ off ∈ raiseRegs i, e.rd off = d.rd off) : Awaits d e i where
  pend := fun hp => (Dev.pendingSrc_of_rd (h _ (by simp [raiseRegs]))).trans hp
  count := by rw [Dev.fld, h _ (by simp [raiseRegs, F.INT_SRCCFG_CNT])]; rfl

theorem Awaits.trans {d e f : Dev} {i : Nat} (h : Awaits d e i) (k : Awaits e f i) : Awaits d f i :=
  ⟨fun hp => k.pend (h.pend hp), k.count.trans h.count⟩

/-- The raise of another source. -/
theorem Awaits.of_raise (d : Dev) (t : Nat) {i j : Nat} (hi : i < 256) (hj : j < 256) (h : i ≠ j) : Awaits d (d.raise t j) i where
  pend := fun hp => by rw [Dev.pendingSrc_raise d t j hi, hp, Bool.or_true]
  count := (Only.of_raise d t j).fld (by decide) (by
    simp only [raiseRegs, F.INT_SRCCFG_CNT, Reg.INT_SRCCFG, Reg.INT_PEND, Reg.INT_FIRST, Reg.BIO_BO0, Reg.BIO_BO1,
      List.cons_append, List.nil_append, List.mem_cons, List.not_mem_nil, or_false]
    omega)

theorem Raised.before {d e f : Dev} {i : Nat} (h : Awaits d e i) (k : Raised e f i) : Raised d f i :=
  ⟨k.1, fun hp => h.count ▸ k.2 (h.pend hp)⟩

theorem Raised.after {d e f : Dev} {i : Nat} (h : Raised d e i) (k : Awaits e f i) : Raised d f i :=
  ⟨k.pend h.1, fun hp => k.count.trans (h.2 hp)⟩

/-- What the registers of a source are apart from leaves it. -/
theorem Only.awaits {d e : Dev} {l : List Part} {r : List Nat} {i : Nat} (h : Only d e l r) (hl : Part.csr ∉ l)
    (hr : ∀ off ∈ raiseRegs i, off ∉ r ++ [Reg.INT_FIRST, Reg.BIO_BO0, Reg.BIO_BO1]) : Awaits d e i :=
  .of_rd fun off ho => h.rd hl (hr off ho)

/-- A change of registers of the plane alone leaves every source. -/
theorem Only.frp_awaits {d e : Dev} {l : List Part} {r : List Nat} {i : Nat} (h : Only d e l r) (hl : Part.csr ∉ l)
    (hr : ∀ off ∈ r, 0x12000 ≤ off) (hi : i < 256) : Awaits d e i :=
  h.awaits hl fun off ho hm => by
    simp only [raiseRegs, List.mem_cons, List.not_mem_nil, or_false] at ho
    have hb : off < 0x12000 ∧ off ∉ [Reg.INT_FIRST, Reg.BIO_BO0, Reg.BIO_BO1] := by
      simp only [List.mem_cons, List.not_mem_nil, or_false]
      unfold Reg.INT_SRCCFG Reg.INT_PEND at ho
      unfold Reg.INT_FIRST Reg.BIO_BO0 Reg.BIO_BO1
      omega
    rcases List.mem_append.mp hm with hm | hm
    · exact absurd (hr off hm) (Nat.not_le.mpr hb.1)
    · exact hb.2 hm

/-! ## The watches (R176) -/

/-- What the watches of a sweep change. -/
structure Watched (d e : Dev) : Prop where
  only : Only d e [.msix, .tasks] ((List.range 8).map Reg.FRP_WATCH ++ Reg.FRP_STAT :: raiseRegs 75)
  tasks : ∀ m, SameTask d e m
  fPipe : e.outs.fPipe = d.outs.fPipe
  state : e.fld F.FRP_STAT_PLANE = d.fld F.FRP_STAT_PLANE
  awaits : ∀ i, i < 256 → i ≠ 75 → Awaits d e i

theorem Watched.refl (d : Dev) : Watched d d := ⟨.refl _ _ _, fun m => .refl _ m, rfl, rfl, fun _ _ _ => .of_rd fun _ _ => rfl⟩

theorem Watched.trans {d e f : Dev} (h : Watched d e) (k : Watched e f) : Watched d f :=
  ⟨h.only.trans k.only, fun m => (h.tasks m).trans (k.tasks m), k.fPipe.trans h.fPipe, k.state.trans h.state,
    fun i hi hn => (h.awaits i hi hn).trans (k.awaits i hi hn)⟩

/-- A bit of FRP_STAT above PLANE set, and a source raised. -/
theorem Dev.fld_plane_raiseFlag (d : Dev) (t : Nat) {i b : Nat} (hb : 2 ≤ b ∧ b < 32) (hi : i < 256) :
    (d.raiseFlag t i Reg.FRP_STAT b).fld F.FRP_STAT_PLANE = d.fld F.FRP_STAT_PLANE := by
  refine ((Only.of_raise (d.setBit Reg.FRP_STAT b true) t i).fld (by decide) ?_).trans
    (Dev.fld_setFld_bits d (f := ⟨Reg.FRP_STAT, b, b⟩) (g := F.FRP_STAT_PLANE) 1 (Nat.le_refl b) hb.2 (Or.inl hb.1))
  simp only [raiseRegs, F.FRP_STAT_PLANE, Reg.FRP_STAT, Reg.INT_SRCCFG, Reg.INT_PEND, Reg.INT_FIRST, Reg.BIO_BO0, Reg.BIO_BO1,
    List.cons_append, List.nil_append, List.mem_cons, List.not_mem_nil, or_false]
  omega

theorem frpStat_awaits (d : Dev) (b : Nat) (v : Bool) {i : Nat} (hi : i < 256) : Awaits d (d.setBit Reg.FRP_STAT b v) i :=
  (Only.of_setBit d Reg.FRP_STAT b v).frp_awaits (by decide) (by decide) hi

/-- A field of FRP_WATCH written. -/
theorem Watched.of_setFld (d : Dev) {k : Nat} (hk : k < 8) (f : Fld) (hf : f.off = Reg.FRP_WATCH k) (n : Nat) : Watched d (d.setFld f n) where
  only := (Only.of_setFld d f n).more (by simp) (fun o ho => by
    rw [List.mem_singleton.mp ho, hf]
    exact List.mem_append_left _ (List.mem_map_of_mem (List.mem_range.mpr hk)))
  tasks := fun m => .of_task rfl
  fPipe := rfl
  state := Dev.fld_setFld_off d n (by rw [hf]; show Reg.FRP_STAT ≠ Reg.FRP_WATCH k; unfold Reg.FRP_STAT Reg.FRP_WATCH; omega)
  awaits := fun i hi _ => (Only.of_setFld d f n).frp_awaits (by decide) (by simp only [hf, List.mem_singleton, forall_eq]; unfold Reg.FRP_WATCH; omega) hi

theorem Watched.of_incFld (d : Dev) {k : Nat} (hk : k < 8) (f : Fld) (hf : f.off = Reg.FRP_WATCH k) : Watched d (d.incFld f) :=
  .of_setFld d hk f hf _

theorem Watched.of_raise (d : Dev) (t : Nat) : Watched d (d.raiseFlag t 75 Reg.FRP_STAT 11) where
  only := (Only.of_raiseFlag d t 75 Reg.FRP_STAT 11).more (by simp) (fun _ ho => List.mem_append_right _ ho)
  tasks := SameTask.of_raiseFlag d t 75 Reg.FRP_STAT 11
  fPipe := congrArg Outs.fPipe (Dev.raiseFlag_outs d t 75 Reg.FRP_STAT 11)
  state := Dev.fld_plane_raiseFlag d t (by decide) (by decide)
  awaits := fun i hi hn => (frpStat_awaits d 11 true hi).trans (.of_raise _ t hi (by decide) hn)

theorem Watched.of_watch (d : Dev) (t : Nat) {k : Nat} (hk : k < 8) : Watched d (d.watch t k) := by
  unfold Dev.watch
  dsimp only
  split
  · have h := (Watched.of_setFld d hk (F.FRP_WATCH_VAL k) rfl (b2n (d.plane.image.getLsbD (d.fld (F.FRP_WATCH_ADDR k))))).trans
      (.of_incFld _ hk (F.FRP_WATCH_CNT k) rfl)
    split
    · exact h
    · exact h.trans ((Watched.of_setFld _ hk (F.FRP_WATCH_CHG k) rfl 1).trans (.of_raise _ t))
  · exact .refl d

theorem Watched.of_foldl {l : List Nat} {g : Dev → Nat → Dev} (h : ∀ k ∈ l, ∀ d, Watched d (g d k)) (d : Dev) :
    Watched d (l.foldl g d) := by
  induction l generalizing d with
  | nil => exact .refl d
  | cons k l ih => exact (h k List.mem_cons_self d).trans (ih (fun j hj => h j (List.mem_cons_of_mem _ hj)) _)

theorem Watched.of_watches (d : Dev) (t : Nat) : Watched d (forN 8 (fun k d => d.watch t k) d) :=
  .of_foldl (fun _ hk d => .of_watch d t (List.mem_range.mp hk)) d

/-- What a sweep meets as it reads rung i. -/
def Dev.met (d : Dev) (ecc : Ecc) (i : Nat) : Dev :=
  match ecc with
  | .clean => d
  | .corrected => d.eccCorrected 5 0
  | .double => { d with plane := { d.plane with ded := some i } }

theorem Dev.plane_flushPads (d : Dev) (t : Nat) : (d.flushPads t).plane = d.plane :=
  ((Only.of_flushPads d t).parts .plane (by simp)).1

theorem Dev.fld_plane_flushPads (d : Dev) (t : Nat) : (d.flushPads t).fld F.FRP_STAT_PLANE = d.fld F.FRP_STAT_PLANE :=
  (Only.of_flushPads d t).fld (by simp) (by decide)

theorem Dev.planeWanted_flushPads (d : Dev) (t : Nat) : (d.flushPads t).planeWanted = d.planeWanted := by
  have hp : (d.flushPads t).phase = d.phase := (Only.of_flushPads d t).parts .phase (by simp)
  have hm : (d.flushPads t).mode = d.mode := congrArg Mode.ofCode ((Only.of_flushPads d t).fld (by simp) (by decide))
  unfold Dev.planeWanted
  rw [hp, hm]

/-! ## The capture, the evaluation and the watches -/

/-- The register that counts what a sweep met. -/
def metRegs : Ecc → List Nat
  | .corrected => [Reg.SYS_ECC]
  | _ => []

theorem Dev.met_outs (d : Dev) (ecc : Ecc) (i : Nat) : (d.met ecc i).outs = d.outs := by cases ecc <;> rfl

theorem Dev.met_plane (d : Dev) (ecc : Ecc) (i : Nat) :
    (d.met ecc i).plane = { d.plane with ded := if ecc = .double then some i else d.plane.ded } := by cases ecc <;> rfl

theorem Only.of_met (d : Dev) (ecc : Ecc) (i : Nat) : Only d (d.met ecc i) [.plane] (metRegs ecc) := by
  cases ecc with
  | clean => exact .refl d _ _
  | corrected => exact (Only.of_eccCorrected d 5 0).more (by simp) (fun _ h => h)
  | double => exact .of_setPlane d _

/-- R11: a correction counted. -/
theorem Dev.eccCorrected_fields (d : Dev) {mem : Nat} (h : mem < 16) : (d.eccCorrected mem 0).fld F.SYS_ECC_LASTMEM = mem ∧
    (d.eccCorrected mem 0).fld F.SYS_ECC_CORR = min 65535 (d.fld F.SYS_ECC_CORR + 1) := by
  have hc : d.fld F.SYS_ECC_CORR < 65536 := Nat.mod_lt _ (by decide)
  unfold Dev.eccCorrected
  constructor
  · rw [Dev.fld_setFld_bits _ _ (by decide) (by decide) (by decide), Dev.fld_setFld_same _ _ _ (by decide) (by decide)]
    exact Nat.mod_eq_of_lt h
  · rw [Dev.fld_setFld_bits _ _ (by decide) (by decide) (by decide), Dev.fld_setFld_bits _ _ (by decide) (by decide) (by decide),
      Dev.incFld, Dev.fld_setFld_same _ _ _ (by decide) (by decide)]
    show satInc 65535 (d.fld F.SYS_ECC_CORR) % 65536 = _
    unfold satInc
    split <;> omega

theorem Only.of_runSweep (d : Dev) (b : Nat) : Only d (d.runSweep b) [.plane] [] :=
  (Only.of_setPlane d _).trans ((Only.of_setOuts _ _).more (by simp) (by simp))

/-- The device after the capture at boundary b of a device x, the evaluation, what the sweep met, the watches, and what follows. -/
def Dev.swept (x : Dev) (ecc : Ecc) (i b : Nat) : Dev :=
  ((forN 8 (fun k d => d.watch (b + 64) k) ((x.runSweep b).met ecc i)).settleOuts b).settle

section
variable (x : Dev) (ecc : Ecc) (i b : Nat)

theorem Dev.swept_watched : Watched ((x.runSweep b).met ecc i) (forN 8 (fun k d => d.watch (b + 64) k) ((x.runSweep b).met ecc i)) :=
  .of_watches _ _

theorem Dev.swept_plane : (x.swept ecc i b).plane = { x.plane with
    active := (x.evaluate x.external).table, markers := (x.evaluate x.external).markers, before := x.plane.image,
    image := withMarkers x.external (x.evaluate x.external).markers, last := some b,
    ded := if ecc = .double then some i else x.plane.ded } :=
  (((x.swept_watched ecc i b).only.settled b).parts .plane (by simp)).1.trans (Dev.met_plane _ ecc i)

theorem Dev.swept_fPipe : (x.swept ecc i b).outs.fPipe =
    (x.evaluate x.external).changes.map (fun c => (b + c.1 + 1, c.2.1, c.2.2)) :=
  (Dev.settled_fPipe _ b).trans ((x.swept_watched ecc i b).fPipe.trans (congrArg Outs.fPipe (Dev.met_outs _ ecc i)))

theorem Only.of_swept : Only x (x.swept ecc i b) [.plane, .tasks, .msix]
    ((List.range 8).map Reg.FRP_WATCH ++ Reg.FRP_STAT :: raiseRegs 75 ++ metRegs ecc) :=
  ((((Only.of_runSweep x b).more (fun _ h => h) (by simp)).trans (Only.of_met _ ecc i)).and
    ((x.swept_watched ecc i b).only.settled b)).more (by decide) (fun o h => by
      rcases List.mem_append.mp h with h | h
      · exact List.mem_append_right _ h
      · exact List.mem_append_left _ h)

theorem SameTask.of_swept (m : Nat) : SameTask x (x.swept ecc i b) m :=
  have h : ((x.runSweep b).met ecc i).task m = x.task m := by cases ecc <;> rfl
  (SameTask.of_task h).trans (((x.swept_watched ecc i b).tasks m).trans (.of_task (Dev.settled_task _ b m)))

theorem Dev.swept_fastOut : (x.swept ecc i b).fastOut = x.fastOut := by
  have h := Only.of_swept x ecc i b
  cases ecc <;> exact Dev.fastOut_of_rd (h.rd (by decide) (by decide)) (h.rd (by decide) (by decide))

theorem Dev.swept_corrected (h : ecc = .corrected) : (x.swept ecc i b).fld F.SYS_ECC_LASTMEM = 5 ∧
    (x.swept ecc i b).fld F.SYS_ECC_CORR = min 65535 (x.fld F.SYS_ECC_CORR + 1) := by
  subst h
  have ho := (x.swept_watched .corrected i b).only.settled b
  obtain ⟨h1, h2⟩ := (x.runSweep b).eccCorrected_fields (mem := 5) (by decide)
  exact ⟨(ho.fld (by decide) (by decide)).trans h1, (ho.fld (by decide) (by decide)).trans h2⟩

end

/-! ## A sweep that goes on -/

/-- A plane that neither swaps nor stops nor changes its running set sweeps. -/
theorem Dev.sweep_goesOn {d : Dev} {ecc : Ecc} {i b : Nat} (hs : d.plane.swapDue = none) (hd : d.plane.ded = none)
    (hp : d.fld F.FRP_STAT_PLANE = 3 ∨ d.fld F.FRP_STAT_PLANE = d.planeWanted) :
    ((d.sweep ecc i b).settleOuts b).settle = (d.flushPads b).swept ecc i b := by
  have h1 : (d.flushPads b).swapIfDue b = d.flushPads b := by
    unfold Dev.swapIfDue Dev.faultIfDed
    rw [Dev.plane_flushPads, hd]
    dsimp only
    rw [Dev.plane_flushPads, hs]
  have h2 : (d.flushPads b).followMode b = d.flushPads b := by
    unfold Dev.followMode
    rw [Dev.fld_plane_flushPads, Dev.planeWanted_flushPads]
    exact if_pos (hp.imp id Or.inl)
  unfold Dev.sweep
  rw [h1, h2]
  cases ecc <;> rfl

theorem Does.imp {s : State} {i : Instr} {t : Nat} {P Q : Dev → Dev → Prop} (h : Does s i t P) (k : ∀ d e, P d e → Q d e) :
    Does s i t Q := by
  obtain ⟨u, hu, hm, hp, hP⟩ := h
  exact ⟨u, hu, hm, hp, k _ _ hP⟩

/-- R155 to R163, R168, R175, R176: what a sweep of a plane that goes on as it is leaves. -/
theorem State.sweep_goesOn {s : State} {ecc : Ecc} {rung : BitVec 12} (ha : s.dev.awake = true) (hs : s.dev.plane.swapDue = none)
    (hd : s.dev.plane.ded = none) (hp : s.dev.fld F.FRP_STAT_PLANE = 3 ∨ s.dev.fld F.FRP_STAT_PLANE = s.dev.planeWanted) {b : Nat}
    (hb : b = max s.mono (s.dev.nextBoundary s.mono)) :
    Does s (.sweep ecc rung) b (fun d e => d.plane = s.dev.plane ∧ e = (d.flushPads b).swept ecc rung.toNat b) := by
  subst hb
  refine .of_at rfl ha ⟨Dev.plane_upTo _ _, ?_⟩
  rw [Dev.sweep_goesOn ((congrArg Plane.swapDue (Dev.plane_upTo _ _)).trans hs) ((congrArg Plane.ded (Dev.plane_upTo _ _)).trans hd)]
  rw [Dev.fld_plane_upTo, Dev.planeWanted_upTo]
  exact hp

/-- What a plane that goes on becomes. -/
theorem Dev.swept_flushPads_plane {d : Dev} (hd : d.plane.ded = none) (ecc : Ecc) (i b : Nat) :
    ((d.flushPads b).swept ecc i b).plane = { d.plane with
      active := ((d.flushPads b).evaluate (d.flushPads b).external).table,
      markers := ((d.flushPads b).evaluate (d.flushPads b).external).markers, before := d.plane.image,
      image := withMarkers (d.flushPads b).external ((d.flushPads b).evaluate (d.flushPads b).external).markers, last := some b,
      ded := if ecc = .double then some i else none } := by
  rw [Dev.swept_plane, Dev.plane_flushPads, hd]

theorem Only.of_swept_flushPads (d : Dev) (ecc : Ecc) (i b : Nat) : Only d ((d.flushPads b).swept ecc i b) [.plane, .tasks, .msix]
    ((List.range 8).map Reg.FRP_WATCH ++ [Reg.FRP_STAT, Reg.SYS_ECC] ++ raiseRegs 75) :=
  ((Only.of_flushPads d b).and (.of_swept _ ecc i b)).more (by simp) (by cases ecc <;> decide)

theorem Dev.swept_flushPads_fastOut (d : Dev) (ecc : Ecc) (i b : Nat) : ((d.flushPads b).swept ecc i b).fastOut = d.fastOut :=
  (Dev.swept_fastOut _ ecc i b).trans (Dev.fastOut_of_rd ((Only.of_flushPads d b).rd (by decide) (by decide))
    ((Only.of_flushPads d b).rd (by decide) (by decide)))

theorem Dev.swept_flushPads_corrected (d : Dev) {ecc : Ecc} (i b : Nat) (h : ecc = .corrected) :
    ((d.flushPads b).swept ecc i b).fld F.SYS_ECC_LASTMEM = 5 ∧
      ((d.flushPads b).swept ecc i b).fld F.SYS_ECC_CORR = min 65535 (d.fld F.SYS_ECC_CORR + 1) := by
  obtain ⟨h1, h2⟩ := (d.flushPads b).swept_corrected ecc i b h
  exact ⟨h1, h2.trans (by rw [(Only.of_flushPads d b).fld (by decide) (by decide)])⟩

theorem SameTask.of_swept_flushPads (d : Dev) (ecc : Ecc) (i b m : Nat) : SameTask d ((d.flushPads b).swept ecc i b) m :=
  ((Only.of_flushPads d b).same_task (by simp) m).trans (.of_swept _ ecc i b m)

/-! ## The stop of the plane (R173) -/

/-- What the outputs of a plane without a running group come to. -/
def stillRegs : List Nat := [Reg.FRP_FOOWN0, Reg.FRP_FOOWN1, Reg.FRP_FO0, Reg.FRP_FO1] ++ (List.range 4).map Reg.FRP_OMODE

/-- No output is driven by the plane. -/
def Dev.disowned (d : Dev) : Dev :=
  forN 4 (fun j d => d.wr (Reg.FRP_OMODE j) 0) ((d.wr64 Reg.FRP_FOOWN0 0).wr64 Reg.FRP_FO0 0)

/-- The outputs and the markers of a plane without a running group. -/
def Dev.stilled (d : Dev) : Dev :=
  let e := d.disowned
  { e with plane := { e.plane with markers := 0 }, outs := { e.outs with dirty := true } }

theorem Dev.refreshOwn_of_still {d : Dev} (h : d.running = []) : d.refreshOwn = d.stilled := by
  unfold Dev.refreshOwn Dev.stilled Dev.disowned
  rw [h]
  simp

theorem Only.of_disowned (d : Dev) : Only d d.disowned [] stillRegs := by
  have hw (e : Dev) (off : Nat) (v : Word) (h : off ∈ stillRegs) : Only e (e.wr off v) [] stillRegs :=
    (Only.of_wr e off v).more (by simp) (by simpa using h)
  unfold Dev.disowned Dev.wr64
  simp only [forN_succ]
  refine Only.trans ?_ (hw _ _ _ (by decide))
  refine Only.trans ?_ (hw _ _ _ (by decide))
  refine Only.trans ?_ (hw _ _ _ (by decide))
  refine Only.trans ?_ (hw _ _ _ (by decide))
  refine Only.trans ?_ (hw _ _ _ (by decide))
  refine Only.trans ?_ (hw _ _ _ (by decide))
  exact (hw _ _ _ (by decide)).trans (hw _ _ _ (by decide))

theorem Only.of_stilled (d : Dev) : Only d d.stilled [.plane] stillRegs := by
  have h (e : Dev) (p : Plane) (o : Outs) : Only e { e with plane := p, outs := o } [.plane] stillRegs :=
    ((Only.of_setPlane e p).trans ((Only.of_setOuts { e with plane := p } o).more (by simp) (by simp))).more (fun _ h => h) (by simp)
  have k : Only d d.disowned [.plane] stillRegs := (Only.of_disowned d).more (by simp) (fun _ h => h)
  exact k.trans (h d.disowned _ _)

theorem Dev.stilled_plane (d : Dev) : d.stilled.plane = { d.plane with markers := 0 } := rfl

/-- A word of 64 bits whose two registers are 0. -/
theorem rd64_zero {d : Dev} {off : Nat} (h0 : d.rd off = 0) (h1 : d.rd (off + 4) = 0) : BitVec.ofNat 64 (d.rd64 off) = 0 := by
  unfold Dev.rd64; rw [h0, h1]; rfl

theorem Dev.stilled_rd (d : Dev) {off : Nat} (h : off = Reg.FRP_FOOWN0 ∨ off = Reg.FRP_FOOWN1 ∨ off = Reg.FRP_FO0 ∨ off = Reg.FRP_FO1) :
    d.stilled.rd off = 0 := by
  have hn (j : Nat) : off ≠ Reg.FRP_OMODE j := by
    unfold Reg.FRP_OMODE
    rcases h with h | h | h | h <;> simp only [h, Reg.FRP_FOOWN0, Reg.FRP_FOOWN1, Reg.FRP_FO0, Reg.FRP_FO1] <;> omega
  refine (foldl_keeps (fun d => d.rd off) (fun d j => d.wr (Reg.FRP_OMODE j) 0) (fun d j => Dev.rd_wr_ne d 0 (hn j)) (List.range 4)
    ((d.wr64 Reg.FRP_FOOWN0 0).wr64 Reg.FRP_FO0 0)).trans ?_
  simp only [Dev.wr64, Dev.rd_wr]
  rcases h with h | h | h | h <;> subst h <;> rfl

theorem Dev.stilled_fastOut (d : Dev) : d.stilled.fastOut = 0 :=
  rd64_zero (d.stilled_rd (by decide)) (d.stilled_rd (by decide))

/-- The plane's error shown, and the plane in FAULT. -/
def Dev.faulted (d : Dev) (t i : Nat) : Dev :=
  ((((d.setFld F.FRP_ECCERR_RUNG i).setFld F.FRP_ECCERR_VALID 1).raiseFlag t 76 Reg.FRP_STAT 12).setPlane t 3)

theorem Dev.setPlane_changed {d : Dev} {p : Nat} (h : d.fld F.FRP_STAT_PLANE ≠ p) (t : Nat) :
    d.setPlane t p = ((d.setFld F.FRP_STAT_PLANE p).raiseFlag t 74 Reg.FRP_STAT 10).touch := if_neg h

theorem Dev.fld_touch (d : Dev) (f : Fld) : d.touch.fld f = d.fld f := rfl

theorem Dev.fld_setPlane (d : Dev) (t : Nat) {p : Nat} (hp : p < 4) : (d.setPlane t p).fld F.FRP_STAT_PLANE = p := by
  by_cases h : d.fld F.FRP_STAT_PLANE = p
  · rw [Dev.setPlane, if_pos h, h]
  · rw [Dev.setPlane_changed h, Dev.fld_touch, Dev.fld_plane_raiseFlag _ t (by decide) (by decide),
      Dev.fld_setFld_same d _ p (by decide) (by decide)]
    exact Nat.mod_eq_of_lt hp

theorem Only.of_setState (d : Dev) (t p : Nat) : Only d (d.setPlane t p) [.msix, .tasks] (Reg.FRP_STAT :: raiseRegs 74) := by
  unfold Dev.setPlane
  refine .of_ite (fun _ => .refl d _ _) fun _ => ?_
  exact (((Only.of_setFld d F.FRP_STAT_PLANE p).more (by simp) (by simp [F.FRP_STAT_PLANE])).trans (Only.of_raiseFlag _ t 74 Reg.FRP_STAT 10)).trans
    ((Only.of_touch _).more (by simp) (by simp))

theorem SameTask.touch {d e : Dev} {m : Nat} (h : SameTask d e m) : SameTask d e.touch m := h.trans (.of_task rfl)

theorem Raised.touch {d e : Dev} {i : Nat} (h : Raised d e i) : Raised d e.touch i := h

theorem Awaits.touch {d e : Dev} {i : Nat} (h : Awaits d e i) : Awaits d e.touch i := h.trans (.of_rd fun _ _ => rfl)

theorem SameTask.of_setState (d : Dev) (t p m : Nat) : SameTask d (d.setPlane t p) m := by
  by_cases h : d.fld F.FRP_STAT_PLANE = p
  · rw [Dev.setPlane, if_pos h]; exact .refl d m
  · rw [Dev.setPlane_changed h]
    exact ((SameTask.of_task (d := d) (e := d.setFld F.FRP_STAT_PLANE p) rfl).trans (.of_raiseFlag _ t 74 Reg.FRP_STAT 10 m)).touch

/-- A plane that changes its state: source 74 is raised, and another source stays. -/
theorem Dev.setPlane_raises {d : Dev} {p : Nat} (h : d.fld F.FRP_STAT_PLANE ≠ p) (t : Nat) : Raised d (d.setPlane t p) 74 ∧
    ∀ j, j < 256 → j ≠ 74 → Awaits d (d.setPlane t p) j := by
  have hs (j : Nat) (hj : j < 256) : Awaits d ((d.setFld F.FRP_STAT_PLANE p).setBit Reg.FRP_STAT 10 true) j :=
    ((Only.of_setFld d F.FRP_STAT_PLANE p).frp_awaits (by decide) (by decide) hj).trans (frpStat_awaits _ 10 true hj)
  rw [Dev.setPlane_changed h]
  exact ⟨(Raised.before (hs 74 (by decide)) (.of_raise _ t (by decide))).touch,
    fun j hj hn => ((hs j hj).trans (.of_raise _ t hj (by decide) hn)).touch⟩

section
variable (d : Dev) (t i : Nat)

theorem Only.of_eccShown : Only d ((d.setFld F.FRP_ECCERR_RUNG i).setFld F.FRP_ECCERR_VALID 1) [] [Reg.FRP_ECCERR] :=
  (Only.of_setFld d F.FRP_ECCERR_RUNG i).trans (Only.of_setFld _ F.FRP_ECCERR_VALID 1)

theorem Only.of_faulted : Only d (d.faulted t i) [.msix, .tasks]
    ([Reg.FRP_STAT, Reg.FRP_ECCERR] ++ raiseRegs 74 ++ raiseRegs 76) :=
  ((((Only.of_eccShown d i).and (Only.of_raiseFlag _ t 76 Reg.FRP_STAT 12)).and (Only.of_setState _ t 3))).more (by simp) (by decide)

theorem SameTask.of_faulted (m : Nat) : SameTask d (d.faulted t i) m := by
  unfold Dev.faulted
  exact ((SameTask.of_task (d := d) (e := (d.setFld F.FRP_ECCERR_RUNG i).setFld F.FRP_ECCERR_VALID 1) rfl).trans (.of_raiseFlag _ _ _ _ _ _)).trans
    (.of_setState _ t 3 m)

/-- A plane that was not in FAULT: both sources are raised. -/
theorem Dev.faulted_raises (h : d.fld F.FRP_STAT_PLANE ≠ 3) : Raised d (d.faulted t i) 76 ∧ Raised d (d.faulted t i) 74 := by
  have hs (j : Nat) (hj : j < 256) : Awaits d ((d.setFld F.FRP_ECCERR_RUNG i).setFld F.FRP_ECCERR_VALID 1) j :=
    (Only.of_eccShown d i).frp_awaits (by decide) (by decide) hj
  have hp : (((d.setFld F.FRP_ECCERR_RUNG i).setFld F.FRP_ECCERR_VALID 1).raiseFlag t 76 Reg.FRP_STAT 12).fld F.FRP_STAT_PLANE ≠ 3 := by
    rw [Dev.fld_plane_raiseFlag _ t (by decide) (by decide), (Only.of_eccShown d i).fld (by decide) (by decide)]
    exact h
  unfold Dev.faulted
  generalize (d.setFld F.FRP_ECCERR_RUNG i).setFld F.FRP_ECCERR_VALID 1 = x at hs hp
  have h76 : Raised x (x.raiseFlag t 76 Reg.FRP_STAT 12) 76 :=
    .before (frpStat_awaits x 12 true (by decide)) (.of_raise _ t (by decide))
  have k74 : Awaits x (x.raiseFlag t 76 Reg.FRP_STAT 12) 74 :=
    (frpStat_awaits x 12 true (by decide)).trans (.of_raise _ t (by decide) (by decide) (by decide))
  obtain ⟨h74, hk⟩ := Dev.setPlane_raises hp t
  exact ⟨.before (hs 76 (by decide)) (h76.after (hk 76 (by decide) (by decide))), .before ((hs 74 (by decide)).trans k74) h74⟩

end

/-- The error that a sweep met, forgotten. -/
def Dev.forgiven (d : Dev) : Dev := { d with plane := { d.plane with ded := none } }

theorem Only.of_forgiven (d : Dev) : Only d d.forgiven [.plane] [] := .of_setPlane d _

/-- The device d before a boundary b, its plane in FAULT for an error at rung i. -/
def Dev.planeHalted (d : Dev) (b i : Nat) : Dev :=
  ((d.flushPads b).forgiven.faulted b i).stilled

theorem Dev.running_of_fault {d : Dev} (h : d.fld F.FRP_STAT_PLANE = 3) : d.running = [] := by
  unfold Dev.running
  rw [h]
  exact List.filter_eq_nil_iff.mpr fun _ _ => by simp [runsUnder]

theorem Dev.fld_plane_faulted (d : Dev) (b i : Nat) : (d.faulted b i).fld F.FRP_STAT_PLANE = 3 := Dev.fld_setPlane _ b (by decide)

theorem Dev.fld_plane_planeHalted (d : Dev) (b i : Nat) : (d.planeHalted b i).fld F.FRP_STAT_PLANE = 3 :=
  ((Only.of_stilled _).fld (by decide) (by decide)).trans (Dev.fld_plane_faulted _ b i)

theorem Dev.forgiven_plane (d : Dev) : d.forgiven.plane = { d.plane with ded := none } := rfl

theorem Dev.planeHalted_plane (d : Dev) (b i : Nat) : (d.planeHalted b i).plane = { d.plane with ded := none, markers := 0 } := by
  obtain ⟨h, -⟩ := (Only.of_faulted (d.flushPads b).forgiven b i).parts .plane (by simp)
  unfold Dev.planeHalted
  rw [Dev.stilled_plane, h, Dev.forgiven_plane, Dev.plane_flushPads]

theorem Dev.planeFault_eq (d : Dev) (t i : Nat) : d.planeFault t i = (d.faulted t i).stilled :=
  Dev.refreshOwn_of_still (Dev.running_of_fault (Dev.fld_plane_faulted d t i))

theorem Dev.faultIfDed_some {d : Dev} {i : Nat} (h : d.plane.ded = some i) (hp : d.fld F.FRP_STAT_PLANE ≠ 3) (b : Nat) :
    d.faultIfDed b = (d.forgiven.faulted b i).stilled := by
  have hf : d.forgiven.fld F.FRP_STAT_PLANE ≠ 3 := hp
  rw [← Dev.planeFault_eq]
  unfold Dev.faultIfDed
  rw [h]
  exact if_neg hf

/-- An error in the active copy stops a plane that is not in FAULT. -/
theorem Dev.sweep_stops {d : Dev} {i k b : Nat} (hs : d.plane.swapDue = none) (hd : d.plane.ded = some i)
    (hp : d.fld F.FRP_STAT_PLANE ≠ 3) : ((d.sweep .clean k b).settleOuts b).settle = (d.planeHalted b i).swept .clean k b := by
  have h1 : (d.flushPads b).swapIfDue b = d.planeHalted b i := by
    have hf : (d.flushPads b).faultIfDed b = d.planeHalted b i :=
      Dev.faultIfDed_some ((congrArg Plane.ded (Dev.plane_flushPads d b)).trans hd)
        (fun h => hp ((Dev.fld_plane_flushPads d b).symm.trans h)) b
    have hn : (d.planeHalted b i).plane.swapDue = none := by rw [Dev.planeHalted_plane]; exact hs
    unfold Dev.swapIfDue
    rw [hf]
    dsimp only
    rw [hn]
  have h2 : (d.planeHalted b i).followMode b = d.planeHalted b i := by
    unfold Dev.followMode
    exact if_pos (.inl (d.fld_plane_planeHalted b i))
  unfold Dev.sweep
  rw [h1, h2]
  rfl

section
variable (d : Dev) (b i : Nat)

theorem Only.of_planeHalted : Only d (d.planeHalted b i) [.plane, .tasks, .msix]
    ([Reg.FRP_STAT, Reg.FRP_ECCERR] ++ raiseRegs 74 ++ raiseRegs 76 ++ stillRegs) :=
  ((((Only.of_flushPads d b).and (Only.of_forgiven _)).and (Only.of_faulted _ b i)).and (Only.of_stilled _)).more (by decide) (by decide)

/-- The plane with its error forgotten: what stood of the sources stands. -/
theorem Dev.planeHalted_raises (h : d.fld F.FRP_STAT_PLANE ≠ 3) : Raised d (d.planeHalted b i) 76 ∧ Raised d (d.planeHalted b i) 74 := by
  have hs (j : Nat) (hj : j < 256) : Awaits d (d.flushPads b).forgiven j :=
    ((Only.of_flushPads d b).and (Only.of_forgiven _)).frp_awaits (by decide) (by decide) hj
  have hk (j : Nat) (hj : j < 256) (e : Dev) : Awaits e e.stilled j := (Only.of_stilled e).frp_awaits (by decide) (by decide) hj
  obtain ⟨h76, h74⟩ := Dev.faulted_raises (d.flushPads b).forgiven b i
    (fun k => h ((Dev.fld_plane_flushPads d b).symm.trans k))
  exact ⟨(Raised.before (hs 76 (by decide)) h76).after (hk 76 (by decide) _), (Raised.before (hs 74 (by decide)) h74).after (hk 74 (by decide) _)⟩

theorem Dev.planeHalted_eccErr (h : i < 4096) : (d.planeHalted b i).fld F.FRP_ECCERR_RUNG = i ∧
    (d.planeHalted b i).fld F.FRP_ECCERR_VALID = 1 := by
  have hr (f : Fld) (hf : f.off = Reg.FRP_ECCERR) (x : Dev) :
      (x.faulted b i).stilled.fld f = ((x.setFld F.FRP_ECCERR_RUNG i).setFld F.FRP_ECCERR_VALID 1).fld f :=
    ((Only.of_stilled _).fld (by decide) (by rw [hf]; decide)).trans
      (((Only.of_raiseFlag _ b 76 Reg.FRP_STAT 12).and (Only.of_setState _ b 3)).fld (by decide) (by rw [hf]; decide))
  constructor
  · refine (hr _ rfl _).trans ?_
    rw [Dev.fld_setFld_bits _ _ (by decide) (by decide) (by decide), Dev.fld_setFld_same _ _ _ (by decide) (by decide)]
    exact Nat.mod_eq_of_lt h
  · refine (hr _ rfl _).trans ?_
    rw [Dev.fld_setFld_same _ _ _ (by decide) (by decide)]
    rfl

theorem SameTask.of_planeHalted (m : Nat) : SameTask d (d.planeHalted b i) m :=
  ((Only.of_flushPads d b).same_task (by simp) m).trans
    (((Only.of_forgiven _).same_task (by simp) m).trans
      ((SameTask.of_faulted (d.flushPads b).forgiven b i m).trans ((Only.of_stilled ((d.flushPads b).forgiven.faulted b i)).same_task (by simp) m)))

/-- A sweep in which no group runs leaves the table and the markers. -/
theorem Dev.evaluate_of_still {d : Dev} (h : d.running = []) (cap : BitVec 4096) :
    (d.evaluate cap).table = d.plane.active ∧ (d.evaluate cap).markers = d.plane.markers := by
  unfold Dev.evaluate
  rw [h]
  exact ⟨rfl, rfl⟩

theorem Awaits.of_swept (x : Dev) (k : Nat) {j : Nat} (hj : j < 256) (hn : j ≠ 75) : Awaits x (x.swept .clean k b) j :=
  (((Only.of_runSweep x b).frp_awaits (by decide) (by simp) hj).trans ((x.swept_watched .clean k b).awaits j hj hn)).trans
    (((Only.refl _ [] []).settled b).frp_awaits (by decide) (by simp) hj)

theorem Dev.fld_plane_swept (x : Dev) (k : Nat) : (x.swept .clean k b).fld F.FRP_STAT_PLANE = x.fld F.FRP_STAT_PLANE :=
  (((Only.refl _ [] []).settled b).fld (by decide) (by decide)).trans
    (((x.swept_watched .clean k b).state).trans ((Only.of_runSweep x b).fld (by decide) (by decide)))

end

/-- R173: what a sweep that stops the plane leaves. -/
structure Stopped (d e : Dev) (i : Nat) : Prop where
  state : e.fld F.FRP_STAT_PLANE = 3
  rung : e.fld F.FRP_ECCERR_RUNG = i
  valid : e.fld F.FRP_ECCERR_VALID = 1
  error : Raised d e 76
  change : Raised d e 74
  ded : e.plane.ded = none
  markers : e.plane.markers = 0
  active : e.plane.active = d.plane.active
  out : e.fastOut = 0
  own : e.fastOwn = 0
  tasks : TasksBut d e []
  only : Only d e [.plane, .tasks, .msix] ((List.range 8).map Reg.FRP_WATCH ++
    [Reg.FRP_STAT, Reg.FRP_ECCERR, Reg.FRP_FOOWN0, Reg.FRP_FOOWN1, Reg.FRP_FO0, Reg.FRP_FO1] ++
    (List.range 4).map Reg.FRP_OMODE ++ raiseRegs 74 ++ raiseRegs 75 ++ raiseRegs 76)

theorem Stopped.of_sweep {d : Dev} {i : Nat} (hi : i < 4096) (hp : d.fld F.FRP_STAT_PLANE ≠ 3) (b k : Nat) :
    Stopped d ((d.planeHalted b i).swept .clean k b) i := by
  have ho := Only.of_swept (d.planeHalted b i) .clean k b
  obtain ⟨hr, hv⟩ := d.planeHalted_eccErr b i hi
  obtain ⟨h76, h74⟩ := d.planeHalted_raises b i hp
  obtain ⟨ht, hm⟩ := Dev.evaluate_of_still (Dev.running_of_fault (d.fld_plane_planeHalted b i)) (d.planeHalted b i).external
  have hpl := Dev.swept_plane (d.planeHalted b i) .clean k b
  rw [ht, hm, Dev.planeHalted_plane] at hpl
  exact {
    state := (Dev.fld_plane_swept b _ k).trans (d.fld_plane_planeHalted b i)
    rung := (ho.fld (by decide) (by decide)).trans hr
    valid := (ho.fld (by decide) (by decide)).trans hv
    error := h76.after (.of_swept b _ k (by decide) (by decide))
    change := h74.after (.of_swept b _ k (by decide) (by decide))
    ded := by rw [hpl]; rfl
    markers := by rw [hpl]
    active := by rw [hpl]
    out := (Dev.swept_fastOut _ .clean k b).trans (Dev.stilled_fastOut _)
    own := rd64_zero ((ho.rd (by decide) (by decide)).trans (Dev.stilled_rd _ (by decide)))
      ((ho.rd (by decide) (by decide)).trans (Dev.stilled_rd _ (by decide)))
    tasks := fun m _ => (SameTask.of_planeHalted d b i m).trans (.of_swept _ .clean k b m)
    only := ((Only.of_planeHalted d b i).and ho).more (by decide) (by decide) }

/-- R173: an error that the sweep before met stops a plane that is not in FAULT. -/
theorem State.sweep_stops {s : State} {rung : BitVec 12} {i : Nat} (ha : s.dev.awake = true) (hs : s.dev.plane.swapDue = none)
    (hd : s.dev.plane.ded = some i) (hp : s.dev.fld F.FRP_STAT_PLANE ≠ 3) {b : Nat} (hb : b = max s.mono (s.dev.nextBoundary s.mono)) :
    Does s (.sweep .clean rung) b (fun d e => d.fld F.FRP_STAT_PLANE ≠ 3 ∧ e = (d.planeHalted b i).swept .clean rung.toNat b) := by
  subst hb
  have hn (t : Nat) : (s.dev.upTo t).fld F.FRP_STAT_PLANE ≠ 3 := by rw [Dev.fld_plane_upTo]; exact hp
  exact .of_at rfl ha ⟨hn _, Dev.sweep_stops ((congrArg Plane.swapDue (Dev.plane_upTo _ _)).trans hs)
    ((congrArg Plane.ded (Dev.plane_upTo _ _)).trans hd) (hn _)⟩

end Sys2Proof.Machine
end

section
/-!
PROOFS. A change of F as it comes (R168, R175), the results of a rung and of a group end, and with the sweeps the obligation.
-/
namespace Sys2Proof.Machine

/-! ## The SOE entry of a change -/

/-- The item of an SOE entry at MONO t. -/
def Dev.soeItem (d : Dev) (t type srcid value aux : Nat) : Item :=
  { w0 := BitVec.ofNat 32 (srcid + type * 2 ^ 12 + value * 2 ^ 16 + 0 * 2 ^ 17 + b2n (!d.leaseHeld) * 2 ^ 18 + aux * 2 ^ 24),
    w1 := BitVec.ofNat 32 (d.station t % 1000000000 + d.tq t * 2 ^ 30),
    w2 := BitVec.ofNat 32 (d.station t / 1000000000),
    w3 := BitVec.ofNat 32 (d.station t / 1000000000 / 2 ^ 32) }

theorem Dev.soe_pushes (d : Dev) (t type srcid value aux : Nat) : (d.soe t type srcid value aux).queues.pushes =
    if d.flag F.BIO_CTL_SOEEN = true ∧ d.flag F.QUE_STAT_FROZEN = false then
      addPush ⟨0, 0, d.soeItem t type srcid value aux⟩ d.queues.pushes
    else d.queues.pushes := by
  have hf : (d.incWrap Reg.BIO_SOECNT).flag F.QUE_STAT_FROZEN = d.flag F.QUE_STAT_FROZEN := by
    unfold Dev.flag; rw [(Only.of_incWrap d Reg.BIO_SOECNT).fld (by decide) (by decide)]
  unfold Dev.soe Dev.soeAt
  dsimp only
  rw [hf]
  cases h : d.flag F.BIO_CTL_SOEEN with
  | false => rfl
  | true => cases k : d.flag F.QUE_STAT_FROZEN <;> rfl

/-- The registers that an SOE entry depends on. -/
def soeSources : List Nat := [Reg.BIO_CTL, Reg.QUE_STAT, Reg.PTP_CFG, Reg.PTP_TQCFG, Reg.HSB_CFG, Reg.HSB_STAT]

theorem Dev.soe_pushes_congr {d e : Dev} (hq : e.queues = d.queues) (ht : e.time = d.time) (hr : ∀ off ∈ soeSources, e.rd off = d.rd off)
    (t type srcid value aux : Nat) : (e.soe t type srcid value aux).queues.pushes = (d.soe t type srcid value aux).queues.pushes := by
  have hf (f : Fld) (h : f.off ∈ soeSources) : e.fld f = d.fld f := by unfold Dev.fld; rw [hr _ h]
  have hg (f : Fld) (h : f.off ∈ soeSources) : e.flag f = d.flag f := by unfold Dev.flag; rw [hf f h]
  have hl : e.leaseHeld = d.leaseHeld := by
    unfold Dev.leaseHeld Dev.roleWord
    rw [hg F.HSB_CFG_EN (by decide), hf F.HSB_STAT_ROLES (by decide), hf F.HSB_STAT_ROLE_STATE (by decide)]
  have hw : e.stSlewed t = d.stSlewed t := by
    unfold Dev.stSlewed Dev.slewRate
    rw [ht, hf F.PTP_CFG_SLEW (by decide)]
  have hs : e.station t = d.station t := by unfold Dev.station; rw [ht, hw]
  have hc : e.tq t = d.tq t := by
    unfold Dev.tq Dev.errBound Dev.stSlewLeft
    rw [ht, hw, hf F.PTP_TQCFG_HOLDPPB (by decide)]
  rw [Dev.soe_pushes, Dev.soe_pushes, hg _ (by decide), hg _ (by decide), hq]
  unfold Dev.soeItem
  rw [hl, hs, hc]

theorem mem_addPush (x : QueuePush) (l : List QueuePush) : x ∈ addPush x l := by
  induction l with
  | nil => simp [addPush]
  | cons y l ih =>
    unfold addPush
    split
    · exact List.mem_cons_self
    · exact List.mem_cons_of_mem y ih

theorem b2n_le_one (b : Bool) : b2n b ≤ 1 := by cases b <;> decide

/-- The fields of word 0 lie apart. -/
theorem soeWord_fields {k v l : Nat} (hk : k < 64) (hv : v ≤ 1) (hl : l ≤ 1) :
    (k + 2 * 2 ^ 12 + v * 2 ^ 16 + 0 * 2 ^ 17 + l * 2 ^ 18 + 0 * 2 ^ 24) % 2 ^ 32 = k + 2 * 2 ^ 12 + v * 2 ^ 16 + l * 2 ^ 18 ∧
      (k + 2 * 2 ^ 12 + v * 2 ^ 16 + l * 2 ^ 18) / 2 ^ 0 % 2 ^ 12 = k ∧
      (k + 2 * 2 ^ 12 + v * 2 ^ 16 + l * 2 ^ 18) / 2 ^ 12 % 2 ^ 4 = 2 ∧
      (k + 2 * 2 ^ 12 + v * 2 ^ 16 + l * 2 ^ 18) / 2 ^ 16 % 2 = v := by
  refine ⟨?_, ?_, ?_, ?_⟩ <;> omega

/-- What word 0 of the entry of a fast output shows. -/
theorem Dev.soeItem_w0 (d : Dev) (t : Nat) {k : Nat} (hk : k < 64) (v : Bool) :
    bitsOf (d.soeItem t 2 k (b2n v) 0).w0.toNat 11 0 = k ∧ bitsOf (d.soeItem t 2 k (b2n v) 0).w0.toNat 15 12 = 2 ∧
      (d.soeItem t 2 k (b2n v) 0).w0.getLsbD 16 = v := by
  obtain ⟨hw, h0, h12, h16⟩ := soeWord_fields hk (b2n_le_one v) (b2n_le_one (!d.leaseHeld))
  replace hw : (d.soeItem t 2 k (b2n v) 0).w0.toNat = k + 2 * 2 ^ 12 + b2n v * 2 ^ 16 + b2n (!d.leaseHeld) * 2 ^ 18 :=
    (BitVec.toNat_ofNat _ _).trans hw
  refine ⟨?_, ?_, ?_⟩
  · rw [hw]; exact h0
  · rw [hw]; exact h12
  · rw [BitVec.getLsbD, hw, ← bitOf_eq_testBit, bitOf, h16]
    cases v <;> rfl

/-! ## A change of F -/

theorem Only.of_flushT (d : Dev) (t : Nat) : Only d (d.flushT t) [] [] :=
  .of_foldl _ (fun d _ => .of_ite
    (fun _ => (Only.of_setOuts d _).trans (.of_ite (fun _ => .refl _ _ _) fun _ => .of_setOuts _ _)) fun _ => .refl d _ _) _ d

theorem Only.of_combine (d : Dev) (x : Nat) : Only d (d.combine x) [] [] := .of_ite (fun _ => .refl _ _ _) fun _ => .of_setOuts d _

theorem Only.of_soe (d : Dev) (t type srcid value aux : Nat) : Only d (d.soe t type srcid value aux) [.queues] soeRegs := by
  have hc : Only d (d.incWrap Reg.BIO_SOECNT) [.queues] soeRegs := (Only.of_incWrap d _).more (by simp) (by decide)
  unfold Dev.soe Dev.soeAt
  refine .of_ite (fun _ => ?_) fun _ => .refl d _ _
  dsimp only
  refine .of_ite (fun _ => hc.trans ((Only.of_incSat _ _).more (by simp) (by decide))) fun _ => ?_
  exact hc.trans ((Only.of_setQueues _ _).more (fun _ h => h) (by simp))

theorem Dev.soe_outs (d : Dev) (t type srcid value aux : Nat) : (d.soe t type srcid value aux).outs = d.outs := by
  unfold Dev.soe Dev.soeAt
  split
  · dsimp only; split <;> rfl
  · rfl

/-- The change of F of an output, as far as the entry of the sequence of events. -/
def Dev.fShown (d : Dev) (x k : Nat) (v : Bool) : Dev := ((d.flushT x).setMaskBit Reg.FRP_FO0 k v).soe x 2 k (b2n v) 0

theorem Dev.setF_eq (d : Dev) (x k : Nat) (v : Bool) :
    d.setF x k v = ((d.fShown x k v).raiseFlag x 77 Reg.FRP_STAT 13).combine x := rfl

section
variable (d : Dev) (x k : Nat) (v : Bool)

theorem Dev.fPipe_setF : (d.setF x k v).outs.fPipe = d.outs.fPipe := by
  rw [Dev.setF_eq, Dev.fPipe_combine, Dev.raiseFlag_outs, Dev.fShown, Dev.soe_outs]
  exact Dev.fPipe_flushT d x

theorem Only.of_marked (hk : k < 64) : Only d ((d.flushT x).setMaskBit Reg.FRP_FO0 k v) [] [Reg.FRP_FO0, Reg.FRP_FO1] := by
  have ho : Reg.FRP_FO0 + 4 * (k / 32) ∈ [Reg.FRP_FO0, Reg.FRP_FO1] := by
    simp only [Reg.FRP_FO0, Reg.FRP_FO1, List.mem_cons, List.not_mem_nil, or_false]; omega
  exact ((Only.of_flushT d x).more (by simp) (by simp)).trans ((Only.of_setMaskBit _ _ k v).more (by simp) (by simpa using ho))

theorem Only.of_fShown (hk : k < 64) : Only d (d.fShown x k v) [.queues] ([Reg.FRP_FO0, Reg.FRP_FO1] ++ soeRegs) :=
  (Only.of_marked d x k v hk).and (.of_soe _ _ _ _ _ _)

theorem Only.of_setF (hk : k < 64) : Only d (d.setF x k v) [.tasks, .msix, .queues]
    ([Reg.FRP_FO0, Reg.FRP_FO1, Reg.FRP_STAT] ++ soeRegs ++ raiseRegs 77) :=
  (((Only.of_fShown d x k v hk).and (.of_raiseFlag _ x 77 Reg.FRP_STAT 13)).and (.of_combine _ x)).more (by decide) (by decide)

theorem Raised.of_setF (hk : k < 64) : Raised d (d.setF x k v) 77 := by
  have hs : Awaits d (d.fShown x k v) 77 := (Only.of_fShown d x k v hk).awaits (by decide) (by decide)
  exact ((Raised.before (hs.trans (frpStat_awaits _ 13 true (by decide))) (.of_raise _ x (by decide)))).after
    ((Only.of_combine _ x).frp_awaits (by decide) (by simp) (by decide))

theorem Dev.bit_setF : (d.setF x k v).bit Reg.FRP_STAT 13 = true := by
  have h (e : Dev) : (e.raise x 77).rd Reg.FRP_STAT = e.rd Reg.FRP_STAT := (Only.of_raise e x 77).rd (by decide) (by decide)
  rw [Dev.setF_eq, Dev.bit, (Only.of_combine _ x).rd (by decide) (by decide), Dev.raiseFlag, h]
  exact Dev.bit_setBit_same _ _ true (by decide)

theorem Dev.fastOut_setF (hk : k < 64) {j : Nat} (hj : j < 64) :
    (d.setF x k v).fastOut.getLsbD j = if j = k then v else d.fastOut.getLsbD j := by
  have h (e : Dev) : Only e (((e.soe x 2 k (b2n v) 0).raiseFlag x 77 Reg.FRP_STAT 13).combine x) [.tasks, .msix, .queues]
      (soeRegs ++ Reg.FRP_STAT :: raiseRegs 77) :=
    (((Only.of_soe e x 2 k (b2n v) 0).and (.of_raiseFlag _ x 77 Reg.FRP_STAT 13)).and (.of_combine _ x)).more (by decide) (by decide)
  have h := h ((d.flushT x).setMaskBit Reg.FRP_FO0 k v)
  rw [Dev.setF_eq, Dev.fShown, Dev.fastOut_of_rd (h.rd (by decide) (by decide)) (h.rd (by decide) (by decide)), Dev.fastOut_bit _ hj, Dev.fastOut_bit _ hj]
  split
  · next he => subst he; exact Dev.maskBit_setMaskBit_same _ _ _ _
  · next hn =>
    rw [Dev.maskBit_setMaskBit_ne _ _ v hn, Dev.maskBit, Dev.bit, Dev.rd_flushT]
    rfl

theorem Dev.setF_pushes (hk : k < 64) : (d.setF x k v).queues.pushes = (d.soe x 2 k (b2n v) 0).queues.pushes := by
  have hm := Only.of_marked d x k v hk
  have hr (e : Dev) : ((e.raiseFlag x 77 Reg.FRP_STAT 13).combine x).queues = e.queues :=
    ((Only.of_raiseFlag e x 77 Reg.FRP_STAT 13).and (.of_combine _ x)).parts .queues (by decide)
  rw [Dev.setF_eq, hr]
  exact Dev.soe_pushes_congr (hm.parts .queues (by simp)) (hm.parts .time (by simp)) (fun off ho => hm.rd (by simp) (by
    revert off; decide)) _ _ _ _ _

/-- R314: the entry of a change enters Q00 first among those of its cycle. -/
theorem Dev.setF_enters (hk : k < 64) (he : d.flag F.BIO_CTL_SOEEN = true) (hz : d.flag F.QUE_STAT_FROZEN = false) :
    ∃ w, (d.setF x k v).queues.pushes = (d.soe x 2 k (b2n v) 0).queues.pushes ∧ w ∈ (d.setF x k v).queues.pushes ∧ w.queue = 0 ∧
      w.rank = 0 ∧ bitsOf w.item.w0.toNat 11 0 = k ∧ bitsOf w.item.w0.toNat 15 12 = 2 ∧ w.item.w0.getLsbD 16 = v := by
  obtain ⟨h0, h1, h2⟩ := d.soeItem_w0 x hk v
  have hp := d.setF_pushes x k v hk
  refine ⟨⟨0, 0, d.soeItem x 2 k (b2n v) 0⟩, hp, ?_, rfl, rfl, h0, h1, h2⟩
  rw [hp, Dev.soe_pushes, if_pos ⟨he, hz⟩]
  exact mem_addPush _ _

end

/-- A change of F under way, at MONO t. -/
def Dev.fComes (t : Nat) (d : Dev) (p : Nat × Nat × Bool) : Dev :=
  if p.1 ≤ t then ({ d with outs := { d.outs with fPipe := d.outs.fPipe.drop 1 } }).setF p.1 p.2.1 p.2.2 else d

theorem Dev.flushF_eq (d : Dev) (t : Nat) : d.flushF t = d.outs.fPipe.foldl (Dev.fComes t) d := rfl

/-- The first of the changes under way comes at its instant. -/
theorem Dev.flushF_cons {d e : Dev} {m k t : Nat} {v : Bool} {rest : List (Nat × Nat × Bool)} (h : d.outs.fPipe = (m, k, v) :: rest)
    (ht : m ≤ t) (he : e = { d with outs := { d.outs with fPipe := rest } }) : d.flushF t = (e.setF m k v).flushF t := by
  have hs : Dev.fComes t d (m, k, v) = e.setF m k v := by
    unfold Dev.fComes
    rw [if_pos ht, h, he]
    rfl
  have hp : e.outs.fPipe = rest := by rw [he]
  rw [Dev.flushF_eq, Dev.flushF_eq, Dev.fPipe_setF, hp, h, List.foldl_cons, hs]

/-! ## The result of a rung and of a group end -/

theorem litVal_eq (cap : BitVec 4096) (mk : BitVec 1024) (l : BitVec 13) : litVal cap mk l.toNat =
    ((if l.toNat % 4096 = 0xFFF then false
      else if 0x400 ≤ l.toNat % 4096 ∧ l.toNat % 4096 < 0x800 then mk.getLsbD (l.toNat % 4096 - 0x400) else cap.getLsbD (l.toNat % 4096))
      ^^ l.getLsbD 12) := by
  unfold litVal
  rw [bitOf_eq_testBit]
  rfl

theorem groupResult_direct {r : Rung} (h : r.tmode = 0) (res : Bool) : groupResult r res = (res, r.elapsed) := by
  simp [groupResult, h]

theorem groupResult_on {r : Rung} (h : r.tmode = 1) (res : Bool) : groupResult r res =
    if res then (decide (r.preset ≤ r.elapsed), if r.elapsed < r.preset then r.elapsed + 1 else r.elapsed) else (false, 0) := by
  simp [groupResult, h, ble_eq_decide]

theorem groupResult_off {r : Rung} (h : r.tmode = 2) : groupResult r true = (true, 0) ∧
    groupResult r false = if r.tq = true ∧ r.elapsed < r.preset then (true, r.elapsed + 1) else (false, 0) := by
  simp [groupResult, h]

/-! ## The obligation -/

/-- Settles O29: a sweep as its capture, its evaluation and its watches; the stop of the plane before it; a change of F; the results. -/
theorem fastRungSweep : Obligations.FastRungSweep := by
  unfold Obligations.FastRungSweep
  intro s ecc rung cap mk l r res dev m k t v rest
  refine ⟨fun ha hs hd hp => ?_, fun i hi ha hs hd hp => ?_, fun hk hf hm => ?_, litVal_eq cap mk l,
    fun h => groupResult_direct h res, fun h hr => ?_, fun h hr => ?_, fun h hr => ?_, fun h hr hq he => ?_, fun h hr hq => ?_⟩
  · refine (State.sweep_goesOn ha hs hd hp rfl).imp ?_
    rintro d e ⟨hpl, rfl⟩
    exact ⟨Dev.swept_flushPads_plane ((congrArg Plane.ded hpl).trans hd) ecc _ _, Dev.swept_flushPads_fastOut d ecc _ _,
      Dev.swept_fPipe _ ecc _ _, Dev.swept_flushPads_corrected d _ _, fun n _ => .of_swept_flushPads d ecc _ _ n,
      .of_swept_flushPads d ecc _ _⟩
  · refine (State.sweep_stops ha hs hd hp rfl).imp ?_
    rintro d e ⟨hn, rfl⟩
    obtain ⟨hst, hru, hva, her, hch, hde, hma, hac, hou, how, hta, hon⟩ := Stopped.of_sweep hi hn (max s.mono (s.dev.nextBoundary s.mono)) rung.toNat
    exact ⟨hst, hru, hva, her, hch, hde, hma, hac, hou, how, hta, hon⟩
  · dsimp only
    refine ⟨Dev.flushF_cons hf hm rfl, fun j hj => Dev.fastOut_setF _ m k v hk hj, Dev.bit_setF _ m k v, .of_setF _ m k v hk,
      fun he hz => Dev.setF_enters _ m k v hk he hz, fun n _ => .of_setF _ m k v n, .of_setF _ m k v hk⟩
  · rw [groupResult_on h, hr]; rfl
  · rw [groupResult_on h, hr]; rfl
  · rw [hr]; exact (groupResult_off h).1
  · rw [hr, (groupResult_off h).2]; exact if_pos ⟨hq, he⟩
  · rw [hr, (groupResult_off h).2]
    exact if_neg fun hc => hq.elim (fun hf => Bool.false_ne_true (hf.symm.trans hc.1)) fun hf => Nat.not_lt.mpr hf hc.2

end Sys2Proof.Machine
end

section
/-!
SUPPORT. What a device that gives up its lease leaves alone (R348, R399, R402): the registers below the interrupts, the boot
flash and the messages that have left.
-/
namespace Sys2Proof.Machine

/-- Device e has the registers of d below offset 0x5000 and its flash, and has sent what d has sent. -/
structure Spares (d e : Dev) : Prop where
  regs : ∀ off, off < 0x5000 → e.rd off = d.rd off
  flash : e.flash = d.flash
  sent : d.outbox ⊆ e.outbox

namespace Spares

theorem refl (d : Dev) : Spares d d := ⟨fun _ _ => rfl, rfl, fun _ h => h⟩

theorem trans {d e f : Dev} (h : Spares d e) (k : Spares e f) : Spares d f :=
  ⟨fun off ho => (k.regs off ho).trans (h.regs off ho), k.flash.trans h.flash, fun _ hx => k.sent (h.sent hx)⟩

theorem of_same {d e : Dev} (hc : e.csr = d.csr) (hf : e.flash = d.flash) (ho : e.outbox = d.outbox) : Spares d e :=
  ⟨fun off _ => Dev.rd_of_csr hc off, hf, fun _ hx => ho ▸ hx⟩

theorem of_setTime (d : Dev) (v : StationTime) : Spares d { d with time := v } := of_same rfl rfl rfl

theorem of_setAng (d : Dev) (v : Angle) : Spares d { d with ang := v } := of_same rfl rfl rfl

theorem of_setNet (d : Dev) (v : Net) : Spares d { d with net := v } := of_same rfl rfl rfl

theorem of_setRtc (d : Dev) (v : Rtc) : Spares d { d with rtc := v } := of_same rfl rfl rfl

theorem of_setHsb (d : Dev) (v : Hsb) : Spares d { d with hsb := v } := of_same rfl rfl rfl

theorem of_setOuts (d : Dev) (v : Outs) : Spares d { d with outs := v } := of_same rfl rfl rfl

theorem of_setMsix (d : Dev) (v : Msix) : Spares d { d with msix := v } := of_same rfl rfl rfl

theorem of_setTask (d : Dev) (n : Nat) (k : Task) : Spares d (d.setTask n k) := of_same rfl rfl rfl

theorem of_setUnits (d : Dev) (v : Units) : Spares d { d with units := v } := of_same rfl rfl rfl

theorem of_send (d : Dev) (t : Nat) (m : Msg) : Spares d (d.send t m) := ⟨fun _ _ => rfl, rfl, fun _ hx => List.mem_cons_of_mem _ hx⟩

theorem of_wr (d : Dev) {off : Nat} (v : Word) (h : 0x5000 ≤ off) : Spares d (d.wr off v) :=
  ⟨fun _ ho => Dev.rd_wr_ne d v (Nat.ne_of_lt (Nat.lt_of_lt_of_le ho h)), rfl, fun _ hx => hx⟩

theorem of_setFld (d : Dev) (f : Fld) (n : Nat) (h : 0x5000 ≤ f.off) : Spares d (d.setFld f n) := of_wr d _ h

theorem of_setBit (d : Dev) {off : Nat} (i : Nat) (b : Bool) (h : 0x5000 ≤ off) : Spares d (d.setBit off i b) := of_wr d _ h

theorem of_ite {d e f : Dev} {p : Prop} [Decidable p] (h : p → Spares d e) (k : ¬ p → Spares d f) : Spares d (if p then e else f) := by
  split
  · exact h ‹p›
  · exact k ‹¬ p›

theorem of_foldl {α : Type} {g : Dev → α → Dev} (h : ∀ d a, Spares d (g d a)) (l : List α) (d : Dev) : Spares d (l.foldl g d) := by
  induction l generalizing d with
  | nil => exact refl d
  | cons a l ih => exact (h d a).trans (ih _)

theorem of_forN (n : Nat) {g : Nat → Dev → Dev} (h : ∀ a d, Spares d (g a d)) (d : Dev) : Spares d (forN n g d) :=
  of_foldl (fun d a => h a d) _ d

theorem of_touch (d : Dev) : Spares d d.touch := of_setUnits d _

/-! ## Raises -/

theorem of_pend (d : Dev) (i : Nat) : Spares d (d.pend i) := by
  have ho : (d.pend i).outbox = d.outbox ∧ (d.pend i).flash = d.flash := by
    unfold Dev.pend
    split
    · exact ⟨rfl, rfl⟩
    · dsimp only; split <;> exact ⟨rfl, rfl⟩
  refine ⟨fun off h => (Only.of_pend d i).rd (by simp) ?_, ho.2, fun _ hx => ho.1 ▸ hx⟩
  simp only [raiseRegs, Reg.INT_SRCCFG, Reg.INT_PEND, Reg.INT_FIRST, Reg.BIO_BO0, Reg.BIO_BO1, List.cons_append, List.nil_append,
    List.mem_cons, List.not_mem_nil, or_false]
  omega

theorem of_msixSend (d : Dev) (t i : Nat) : Spares d (d.msixSend t i) := by
  unfold Dev.msixSend
  refine of_ite (fun _ => ?_) fun _ => refl d
  exact (of_setMsix d _).trans (of_ite (fun _ => of_setMsix _ _) fun _ => of_send _ t _)

theorem of_armTasks (d : Dev) (t i : Nat) : Spares d (d.armTasks t i) :=
  of_foldl (fun d _ => of_ite (fun _ => of_setTask d _ _) fun _ => refl d) _ d

theorem of_raise (d : Dev) (t i : Nat) : Spares d (d.raise t i) := by
  have ht : Spares d (d.told i) := by
    unfold Dev.told
    split
    · exact of_pend d i
    · exact ((of_pend d i).trans (of_setUnits _ _)).trans (of_touch _)
  have hn (e : Dev) : Spares e (e.notify t i) := by unfold Dev.notify; exact of_ite (fun _ => of_msixSend e t i) fun _ => refl e
  rw [Dev.raise_eq]
  exact (ht.trans (of_setMsix _ _)).trans ((hn _).trans (of_armTasks _ t i))

theorem of_raiseFlag (d : Dev) (t i : Nat) {off : Nat} (b : Nat) (h : 0x5000 ≤ off) : Spares d (d.raiseFlag t i off b) :=
  (of_setBit d b true h).trans (of_raise _ t i)

/-! ## Station time -/

theorem of_ptpEvent (d : Dev) (t i : Nat) : Spares d (d.ptpEvent t i) := of_raiseFlag d t i _ (by decide)

theorem of_rtcEvent (d : Dev) (t k : Nat) : Spares d (d.rtcEvent t k) := of_raiseFlag d t _ _ (by decide)

theorem of_measureFail (d : Dev) (t : Nat) : Spares d (d.measureFail t) := by
  unfold Dev.measureFail Dev.rtcError
  split
  · exact (((of_setRtc d _).trans (of_setFld _ F.RTC_STAT_MEAS 0 (by decide))).trans (of_setBit _ _ _ (by decide))).trans
      ((of_rtcEvent _ t 3).trans (of_rtcEvent _ t 2))
  · exact refl d

theorem of_measureQuality (d : Dev) (t : Nat) : Spares d (d.measureQuality t) := by
  unfold Dev.measureQuality
  split
  · exact of_ite (fun _ => of_measureFail d t) fun _ => refl d
  · exact refl d

theorem of_holdPps (d : Dev) (t : Nat) : Spares d (d.holdPps t) := by
  unfold Dev.holdPps
  split
  · exact of_ite (fun _ => of_setTime d _) fun _ => of_ite (fun _ => (of_setTime d _).trans (of_send _ t _)) fun _ => refl d
  · exact refl d

theorem of_settleTq (d : Dev) (t : Nat) : Spares d (d.settleTq t) :=
  of_ite (fun _ => refl d) fun _ => ((of_setFld d F.PTP_STAT_TQ _ (by decide)).trans (of_ptpEvent _ t 112)).trans
    ((of_measureQuality _ t).trans (of_holdPps _ t))

theorem of_settleUtc (d : Dev) (t : Nat) : Spares d (d.settleUtc t) :=
  of_ite (fun _ => refl d) fun _ => (of_wr d _ (by decide)).trans (of_ptpEvent _ t 118)

theorem of_settleTime (d : Dev) (t : Nat) : Spares d (d.settleTime t) := by
  have h : Spares d (if d.sourceUsable 1 || d.sourceUsable 2 || d.sourceUsable 3 then d.setFld F.PTP_STAT_EVERLOCKED 1 else d) :=
    of_ite (fun _ => of_setFld d _ _ (by decide)) fun _ => refl d
  unfold Dev.settleTime
  refine Spares.trans ?_ (of_settleUtc _ t)
  refine Spares.trans ?_ (of_setTime _ _)
  refine Spares.trans ?_ (of_settleTq _ t)
  exact h.trans (of_ite (fun _ => refl _) fun _ => of_setTime _ _)

theorem of_angRebase (d : Dev) (t : Nat) : Spares d (d.angRebase t) := of_setAng d _

theorem of_synthDeviation (d : Dev) (t : Nat) : Spares d (d.synthDeviation t) :=
  of_ite (fun _ => of_ite (fun _ => (of_angRebase d t).trans (of_setAng _ _)) fun _ =>
    ((of_angRebase d t).trans (of_setAng _ _)).trans (of_setAng _ _)) fun _ => refl d

theorem of_changeStation (d : Dev) (t : Nat) (f : Dev → Dev) (h : ∀ d, Spares d (f d)) : Spares d (d.changeStation t f) := by
  exact ((of_angRebase d t).trans (h _)).trans (((of_setAng _ _).trans
    (of_ite (fun _ => of_synthDeviation _ t) fun _ => refl _)).trans (of_setAng _ _))

theorem of_soe (d : Dev) (t type srcid value aux : Nat) : Spares d (d.soe t type srcid value aux) := by
  refine ⟨fun off ho => (Only.of_soe d t type srcid value aux).rd (by simp) ?_, ?_, ?_⟩
  · simp only [soeRegs, Reg.BIO_SOECNT, Reg.QUE_QLOST, Reg.INT_FIRST, Reg.BIO_BO0, Reg.BIO_BO1, List.cons_append, List.nil_append,
      List.mem_cons, List.not_mem_nil, or_false]
    omega
  all_goals
    unfold Dev.soe Dev.soeAt
    split
    · dsimp only; split <;> simp [Dev.incSat, Dev.incWrap, Dev.wr, Dev.queuePush]
    · simp

theorem of_stepStation (d : Dev) (t : Nat) (o : Int) : Spares d (d.stepStation t o) := by
  have hc (e : Dev) (a b : Nat) : Spares e (e.crossEpoch t a b) :=
    of_ite (fun _ => refl e) fun _ => (of_setFld e _ _ (by decide)).trans (of_ptpEvent _ t 118)
  unfold Dev.stepStation
  refine Spares.trans ?_ (of_measureFail _ t)
  refine Spares.trans ?_ (of_soe _ _ _ _ _ _)
  refine Spares.trans ?_ (of_setNet _ _)
  refine Spares.trans ?_ (hc _ _ _)
  refine Spares.trans ?_ (of_ptpEvent _ t 114)
  refine Spares.trans ?_ (of_wr _ _ (by decide))
  refine Spares.trans ?_ (of_wr _ _ (by decide))
  exact of_changeStation d t _ fun d => (of_setTime d _).trans (of_setTime _ _)

theorem of_takeOffset (d : Dev) (t code : Nat) (o : Int) : Spares d (d.takeOffset t code o) :=
  of_ite (fun _ => of_stepStation d t o) fun _ => of_ite (fun _ => of_stepStation d t o) fun _ =>
    (of_setTime d _).trans (of_setTime _ _)

theorem of_setRate (d : Dev) (t : Nat) (corr : Int) : Spares d (d.setRate t corr) :=
  ((of_angRebase d t).trans (of_setTime _ _)).trans (of_setTime _ _)

theorem of_follow (d : Dev) (src t : Nat) : Spares d (d.follow src t) := by
  unfold Dev.follow
  refine of_ite (fun _ => refl d) fun _ => ?_
  have h0 : Spares d ((d.setFld F.PTP_STAT_SRC src).ptpEvent t 113) :=
    (of_setFld d _ _ (by decide)).trans (of_ptpEvent _ t 113)
  refine Spares.trans ?_ (of_settleTime _ t)
  refine Spares.trans ?_ (of_setTime _ _)
  refine h0.trans (of_ite (fun _ => of_setTime _ _) fun _ => ?_)
  refine Spares.trans ?_ (of_takeOffset _ _ _ _)
  exact (of_setTime _ _).trans (of_ite (fun _ => of_setRate _ t _) fun _ => refl _)

/-! ## The stand, the publication gate and the lease -/

theorem of_stdEvent (d : Dev) (t k : Nat) : Spares d (d.stdEvent t k) := of_raiseFlag d t _ _ (by decide)

theorem of_setFollowing (d : Dev) (t : Nat) (b : Bool) : Spares d (d.setFollowing t b) := by
  unfold Dev.setFollowing
  refine of_ite (fun _ => refl d) fun _ => of_ite (fun _ => of_setFld d _ _ (by decide)) fun _ => ?_
  have h0 : Spares d ((d.setFld F.STD_STAT_TFOLLOWING 0).setFld F.PTP_STAT_SRC 0) :=
    (of_setFld d _ _ (by decide)).trans (of_setFld _ _ _ (by decide))
  exact ((h0.trans (of_setTime _ _)).trans (of_settleTime _ t)).trans (of_follow _ _ t)

theorem of_setCfgErr (d : Dev) (t code : Nat) : Spares d (d.setCfgErr t code) :=
  of_ite (fun _ => refl d) fun _ => (of_setFld d _ _ (by decide)).trans (of_ite (fun _ => refl _) fun _ => of_stdEvent _ t 3)

theorem of_settleStand (d : Dev) (t : Nat) : Spares d (d.settleStand t) := by
  have hm (e : Dev) (f : Stand → Stand) : Spares e (e.modStand f) := of_same rfl rfl rfl
  have hf (e : Dev) (f : Fld) (n : Nat) (h : 0x5000 ≤ f.off) : Spares e (e.setFld f n) := of_setFld e f n h
  have hr (e : Dev) : Spares e (e.replan t) := of_same rfl rfl rfl
  have ho (e : Dev) (o : Int) : Spares e (e.setMonoOfs o) := by
    unfold Dev.setMonoOfs Dev.wr64
    exact (of_wr e _ (by decide)).trans (of_wr _ _ (by decide))
  unfold Dev.settleStand
  refine of_ite (fun _ => refl d) fun _ => ?_
  refine Spares.trans ?_ (of_touch _)
  refine Spares.trans ?_ (of_ite (fun _ => of_stdEvent _ t 2) fun _ => refl _)
  refine Spares.trans ?_ (of_ite (fun _ => of_setFollowing _ t _) fun _ => refl _)
  refine Spares.trans ?_ (of_ite (fun _ => ((ho _ _).trans (hm _ _)).trans (hr _)) fun _ => refl _)
  refine Spares.trans ?_ (of_ite (fun _ => hm _ _) fun _ => refl _)
  refine Spares.trans ?_ (hm _ _)
  refine Spares.trans ?_ (hf _ _ _ (by decide))
  refine Spares.trans ?_ (hf _ _ _ (by decide))
  refine Spares.trans ?_ (hf _ _ _ (by decide))
  refine Spares.trans ?_ (hf _ _ _ (by decide))
  refine Spares.trans ?_ (hf _ _ _ (by decide))
  refine Spares.trans ?_ (hf _ _ _ (by decide))
  refine Spares.trans ?_ (hf _ _ _ (by decide))
  exact (of_setCfgErr d t _).trans (hm _ _)

theorem of_settlePorts (d : Dev) (t : Nat) : Spares d (d.settlePorts t) :=
  of_forN 4 (fun p e => of_ite (fun _ => refl e) fun _ =>
    (of_wr e _ (by unfold Reg.PTP_PSTAT; omega)).trans (of_ptpEvent _ t 116)) d

theorem of_showPubs (d : Dev) : Spares d d.showPubs :=
  of_forN 72 (fun _ e => of_ite (fun _ => refl e) fun _ => of_setNet e _) d

theorem of_setGate (d : Dev) (t : Nat) (b : Bool) : Spares d (d.setGate t b) :=
  of_ite (fun _ => refl d) fun _ => (((of_setFld d _ _ (by decide)).trans (of_raiseFlag _ t _ _ (by decide))).trans
    (of_showPubs _)).trans (of_settlePorts _ t)

theorem of_setRoles (d : Dev) (t : Nat) (lease pub : Bool) : Spares d (d.setRoles t lease pub) := by
  have h : Spares d (((d.setBit Reg.HSB_STAT 0 lease).setBit Reg.HSB_STAT 1 lease).setBit Reg.HSB_STAT 2 pub).touch.touchOuts :=
    (((of_setBit d _ _ (by decide)).trans (of_setBit _ _ _ (by decide))).trans (of_setBit _ _ _ (by decide))).trans
      ((of_touch _).trans (of_setOuts _ _))
  exact (h.trans (of_setGate _ t pub)).trans (of_ite (fun _ => refl _) fun _ =>
    (of_raiseFlag _ t _ _ (by decide)).trans (of_settleStand _ t))

theorem of_dropLease (d : Dev) (t : Nat) : Spares d (d.dropLease t) :=
  of_ite (fun _ => (of_setRoles d t false false).trans (of_setHsb _ _)) fun _ => refl d

end Spares

end Sys2Proof.Machine
end

section
/-!
SUPPORT. The reset of the device domain (R15, R402): what of the supervisor, of the flash and of the messages stands after it.
-/
namespace Sys2Proof.Machine

/-! ## Tables -/

theorem Sparse.get_filter {β : Type} (dflt : Nat → β) (p : Nat → Bool) (m : Sparse β) {k : Nat} (h : p k = true) :
    Sparse.get dflt (m.filter (fun x => p x.1)) k = Sparse.get dflt m k := by
  induction m with
  | nil => rfl
  | cons x m ih =>
    obtain ⟨j, v⟩ := x
    by_cases hj : j = k
    · subst hj
      rw [List.filter_cons_of_pos (by simpa using h), Sparse.get, Sparse.get, if_pos rfl, if_pos rfl]
    · by_cases hp : p j = true
      · rw [List.filter_cons_of_pos (by simpa using hp), Sparse.get, Sparse.get, if_neg hj, if_neg hj, ih]
      · rw [List.filter_cons_of_neg (by simpa using hp), Sparse.get, if_neg hj, ih]

theorem Sparse.get_map {β : Type} (dflt : Nat → β) (f : β → β) (m : Sparse β) {k : Nat} (h : f (dflt k) = dflt k) :
    Sparse.get dflt (m.map (fun x => (x.1, f x.2))) k = f (Sparse.get dflt m k) := by
  induction m with
  | nil => exact h.symm
  | cons x m ih =>
    obtain ⟨j, v⟩ := x
    rw [List.map_cons, Sparse.get, Sparse.get]
    split
    · rfl
    · exact ih

/-! ## What precedes the reset -/

namespace Spares

theorem of_flushT (d : Dev) (t : Nat) : Spares d (d.flushT t) :=
  of_foldl (fun d _ => of_ite (fun _ => (of_setOuts d _).trans (of_ite (fun _ => refl _) fun _ => of_setOuts _ _)) fun _ => refl d) _ d

theorem of_combine (d : Dev) (x : Nat) : Spares d (d.combine x) := of_ite (fun _ => refl d) fun _ => of_setOuts d _

theorem of_suspendBack (d : Dev) (t n : Nat) : Spares d (d.suspendBack t n) := by
  unfold Dev.suspendBack Dev.compareBack
  dsimp only
  split
  · split <;> exact of_same rfl rfl rfl
  · exact of_same rfl rfl rfl

theorem of_setPads (d : Dev) (t : Nat) (v : Word64) : Spares d (d.setPads t v) := by
  unfold Dev.setPads Dev.wr64
  refine Spares.trans ?_ (of_forN 32 (fun n e => of_ite (fun _ => of_suspendBack e t n) fun _ => refl e) _)
  exact ((of_wr d _ (by decide)).trans (of_wr _ _ (by decide))).trans (of_ite (fun _ => refl _) fun _ => of_send _ t _)

theorem of_flushPads (d : Dev) (t : Nat) : Spares d (d.flushPads t) :=
  (of_flushT d t).trans (of_foldl (fun e _ => of_ite (fun _ => (of_setOuts e _).trans (of_setPads _ _ _)) fun _ => refl e) _ _)

theorem of_settleOuts (d : Dev) (t : Nat) : Spares d (d.settleOuts t) := by
  unfold Dev.settleOuts
  refine of_ite (fun _ => ?_) fun _ => refl d
  refine Spares.trans ?_ (of_setOuts _ _)
  refine Spares.trans ?_ (of_flushPads _ t)
  refine Spares.trans ?_ (of_combine _ t)
  exact (of_flushT d t).trans (of_ite (fun _ => refl _) fun _ => of_setOuts _ _)

theorem of_settle (d : Dev) : Spares d d.settle where
  regs := fun off h => Dev.settle_keeps (fun d => d.rd off) (fun _ _ => rfl)
    (fun e v => Dev.rd_wr_ne e v (by unfold Reg.INT_FIRST; omega)) d
  flash := Dev.settle_keeps Dev.flash (fun _ _ => rfl) (fun _ _ => rfl) d
  sent := fun _ hx => (Dev.settle_keeps Dev.outbox (fun _ _ => rfl) (fun _ _ => rfl) d).symm ▸ hx

/-- What follows a command. -/
theorem settled (d : Dev) (t : Nat) : Spares d (d.settleOuts t).settle := (of_settleOuts d t).trans (of_settle _)

theorem of_setNvs (d : Dev) (v : Nvs) : Spares d { d with nvs := v } := of_same rfl rfl rfl

theorem of_nvsOp (d : Dev) (o : NvsOp) : Spares d (d.nvsOp o) := by
  cases o with
  | bytes off l =>
    have h : Spares d { d with mem := { d.mem with nvs := Memory.wrBytes d.mem.nvs off l } } := of_same rfl rfl rfl
    exact h.trans (of_wr _ _ (by decide))
  | head num slot => exact (of_wr d _ (by decide)).trans (of_wr _ _ (by decide))

theorem of_nvsFlush (d : Dev) (t : Nat) : Spares d (d.nvsFlush t) :=
  of_foldl (fun e _ => of_ite (fun _ => (of_setNvs e _).trans (of_nvsOp _ _)) fun _ => refl e) _ d

theorem of_nvsComplete (d : Dev) (t : Nat) : Spares d (d.nvsComplete t) := by
  unfold Dev.nvsComplete
  refine Spares.trans ?_ (of_setNvs _ _)
  refine (of_nvsFlush d t).trans ?_
  split
  · exact of_ite (fun _ => refl _) fun _ => of_nvsOp _ _
  · exact refl _

/-- The device before its reset, its outputs forced. -/
theorem of_forced (d : Dev) (t : Nat) :
    Spares d ((((((
      { d with outs := { d.outs with forced := true } } : Dev).touchOuts.dropLease t).settleOuts t).flushPads (t + 1000)).nvsComplete t)) := by
  refine Spares.trans ?_ (of_nvsComplete _ t)
  refine Spares.trans ?_ (of_flushPads _ _)
  refine Spares.trans ?_ (of_settleOuts _ t)
  refine Spares.trans ?_ (of_dropLease _ t)
  exact (of_setOuts d _).trans (of_setOuts _ _)

end Spares

/-! ## The reset -/

theorem Dev.tapClose_sent (d : Dev) (t : Nat) :
    (d.tapClose t).csr = d.csr ∧ (d.tapClose t).flash = d.flash ∧ d.outbox ⊆ (d.tapClose t).outbox := by
  have h (e : Dev) (x : Dev) (hc : x.csr = e.csr) (hf : x.flash = e.flash) (ho : x.outbox = e.outbox) (m : Msg) :
      (x.send t m).csr = e.csr ∧ (x.send t m).flash = e.flash ∧ e.outbox ⊆ (x.send t m).outbox :=
    ⟨hc, hf, fun _ hx => List.mem_cons_of_mem _ (ho ▸ hx)⟩
  unfold Dev.tapClose Dev.tapDrive
  split
  · exact ⟨rfl, rfl, fun _ hx => hx⟩
  · dsimp only
    split
    · exact h d _ rfl rfl rfl _
    · split
      · exact h d _ rfl rfl rfl _
      · exact ⟨rfl, rfl, fun _ hx => hx⟩

theorem Dev.ppsStop_sent (d : Dev) (t : Nat) : d.outbox ⊆ (d.ppsStop t).outbox := by
  unfold Dev.ppsStop
  split
  · exact fun _ hx => List.mem_cons_of_mem _ hx
  · exact fun _ hx => hx

/-- The registers that a reset sets in what is kept. -/
def Dev.restarted (k : Dev) : Dev :=
  (((k.wr Reg.SEC_STAT (k.rd Reg.SEC_STAT &&& 0xFFF)).setFld F.SUP_STAT_SVCHALT 0).setFld F.SUP_STAT_MONOEST 0).setFld F.RTC_STAT_MEAS 0

theorem Dev.restarted_flash (k : Dev) : k.restarted.flash = k.flash := by
  unfold Dev.restarted
  rw [Dev.setFld_flash, Dev.setFld_flash, Dev.setFld_flash, Dev.wr_flash]

theorem Dev.restarted_outbox (k : Dev) : k.restarted.outbox = k.outbox := by
  unfold Dev.restarted
  rw [Dev.setFld_outbox, Dev.setFld_outbox, Dev.setFld_outbox, Dev.wr_outbox]

/-- What a reset at MONO t does to the device k that is kept of d. -/
def Dev.freshen (d k : Dev) (t : Nat) : Dev :=
  let k := k.restarted
  let k := if d.flag F.SWX_PHYCTL_RSTREL then k.send t (.phyReset false) else k
  let k := if d.boState = 0 || k.tap.ir == .extest then k else k.send t (.pads 0)
  k.tapClose t

/-- R15, R442: what is kept. -/
theorem Dev.fresh_eq (d : Dev) (t : Nat) (p : Phase) : ∃ k : Dev, d.fresh t p = d.freshen k t ∧
    k.csr = d.csr.filter (fun x => keptOffset x.1) ∧
    k.flash.comps = d.flash.comps.map (fun c => (c.1, { c.2 with winEnd := none, revertAt := none })) ∧
    k.outbox = (d.ppsStop t).outbox := ⟨_, rfl, rfl, rfl, rfl⟩

section
variable (d k : Dev) (t : Nat)

theorem Dev.freshen_rd {off : Nat} (hn : off ∉ [Reg.SEC_STAT, Reg.SUP_STAT, Reg.RTC_STAT]) : (d.freshen k t).rd off = k.rd off := by
  simp only [List.mem_cons, List.not_mem_nil, or_false, not_or] at hn
  obtain ⟨h0, h1, h2⟩ := hn
  have hs (e : Dev) (c : Prop) [Decidable c] (m : Msg) : (if c then e else e.send t m).rd off = e.rd off := by split <;> rfl
  have hs' (e : Dev) (c : Prop) [Decidable c] (m : Msg) : (if c then e.send t m else e).rd off = e.rd off := by split <;> rfl
  unfold Dev.freshen Dev.restarted
  rw [Dev.rd_of_csr (Dev.tapClose_sent _ t).1, hs, hs', Dev.rd_setFld_ne _ _ h2, Dev.rd_setFld_ne _ _ h1, Dev.rd_setFld_ne _ _ h1,
    Dev.rd_wr_ne _ _ h0]

theorem Dev.freshen_flash : (d.freshen k t).flash = k.flash := by
  have hs (e : Dev) (c : Prop) [Decidable c] (m : Msg) : (if c then e else e.send t m).flash = e.flash := by split <;> rfl
  have hs' (e : Dev) (c : Prop) [Decidable c] (m : Msg) : (if c then e.send t m else e).flash = e.flash := by split <;> rfl
  exact (Dev.tapClose_sent _ t).2.1.trans ((hs _ _ _).trans ((hs' _ _ _).trans k.restarted_flash))

theorem Dev.freshen_sent : k.outbox ⊆ (d.freshen k t).outbox := by
  have hs (e : Dev) (c : Prop) [Decidable c] (m : Msg) {x : Nat × Msg} (hx : x ∈ e.outbox) :
      x ∈ (if c then e else e.send t m).outbox := by
    split
    · exact hx
    · exact List.mem_cons_of_mem _ hx
  have hs' (e : Dev) (c : Prop) [Decidable c] (m : Msg) {x : Nat × Msg} (hx : x ∈ e.outbox) :
      x ∈ (if c then e.send t m else e).outbox := by
    split
    · exact List.mem_cons_of_mem _ hx
    · exact hx
  intro x hx
  refine (Dev.tapClose_sent _ t).2.2 (hs _ _ _ (hs' _ _ _ ?_))
  rw [Dev.restarted_outbox]
  exact hx

end

/-- The registers that R15 keeps, but for the three that the reset itself sets. -/
theorem Dev.fresh_rd (d : Dev) (t : Nat) (p : Phase) {off : Nat} (hk : keptOffset off = true)
    (hn : off ∉ [Reg.SEC_STAT, Reg.SUP_STAT, Reg.RTC_STAT]) : (d.fresh t p).rd off = d.rd off := by
  obtain ⟨k, he, hc, -, -⟩ := d.fresh_eq t p
  rw [he, Dev.freshen_rd d k t hn, Dev.rd, hc]
  exact Sparse.get_filter resetWordAt keptOffset d.csr hk

/-- R442: what a reset leaves of a component. -/
theorem Dev.fresh_comp (d : Dev) (t : Nat) (p : Phase) (y : Nat) :
    (d.fresh t p).comp y = { d.comp y with winEnd := none, revertAt := none } := by
  obtain ⟨k, he, -, hf, -⟩ := d.fresh_eq t p
  unfold Dev.comp
  rw [he, Dev.freshen_flash, hf]
  exact Sparse.get_map (fun _ => ({} : Component)) (fun c => { c with winEnd := none, revertAt := none }) d.flash.comps rfl

theorem Dev.fresh_sent (d : Dev) (t : Nat) (p : Phase) : d.outbox ⊆ (d.fresh t p).outbox := by
  obtain ⟨k, he, -, -, ho⟩ := d.fresh_eq t p
  intro x hx
  rw [he]
  exact Dev.freshen_sent d k t (ho ▸ d.ppsStop_sent t hx)

/-- R15, R399, R402: what SYS_RESET, or a reset that follows a switch of the directory, leaves for the next boot. -/
structure Resets (d e : Dev) : Prop where
  phase : e.phase = .reset
  cause : e.rd Reg.SUP_RSTCAUSE = BitVec.ofNat 32 (2 + 4 * 2 ^ 8)
  counted : Counted d e 2
  comp : ∀ y, e.comp y = { d.comp y with winEnd := none, revertAt := none }
  sent : d.outbox ⊆ e.outbox

theorem Dev.resetSet_eq (d : Dev) (t : Nat) : ∃ (x : Dev) (f : Power → Power), Spares d x ∧
    d.resetSet 2 0 t = (((x.countCause 2).wr Reg.SUP_RSTCAUSE (BitVec.ofNat 32 (2 + 4 * 2 ^ 8))).fresh t .reset).modPower f := by
  unfold Dev.resetSet
  exact ⟨_, _, Spares.of_forced d t, rfl⟩

theorem Dev.countCause_flash (x : Dev) : (x.countCause 2).flash = x.flash := (Dev.incFld_flash _ _).trans (Dev.incSat_flash _ _)

theorem Dev.countCause_outbox (x : Dev) : (x.countCause 2).outbox = x.outbox := (Dev.incFld_outbox _ _).trans (Dev.incSat_outbox _ _)

theorem Dev.modPower_flash (d : Dev) (f : Power → Power) : (d.modPower f).flash = d.flash := rfl

theorem Dev.modPower_rd (d : Dev) (f : Power → Power) (off : Nat) : (d.modPower f).rd off = d.rd off := rfl

theorem Dev.modPower_outbox (d : Dev) (f : Power → Power) : (d.modPower f).outbox = d.outbox := rfl

theorem Spares.fld {d e : Dev} (h : Spares d e) {f : Fld} (hf : f.off < 0x5000) : e.fld f = d.fld f := by
  unfold Dev.fld; rw [h.regs _ hf]

/-- R399: SYS_RESET counted. -/
theorem Counted.of_sparing {d x e : Dev} (hx : Spares d x)
    (hr : ∀ off ∈ [Reg.SUP_RSTCNT, Reg.SUP_CAUSECNT0, Reg.SUP_CAUSECNT1, Reg.WDT_RSTCOUNT],
    e.rd off = (x.countCause 2).rd off) : Counted d e 2 := by
  have hc : x.countCause 2 = (x.incSat Reg.SUP_RSTCNT).incFld F.SUP_CAUSECNT0_SYSRST := rfl
  have h0 {f : Fld} (h : f.off = Reg.SUP_CAUSECNT0 ∨ f.off = Reg.SUP_CAUSECNT1) :
      e.fld f = ((x.incSat Reg.SUP_RSTCNT).incFld F.SUP_CAUSECNT0_SYSRST).fld f := by
    rw [Dev.fld, hr _ (by rcases h with h | h <;> rw [h] <;> decide), hc]
    rfl
  have hs {f : Fld} (h : f.off = Reg.SUP_CAUSECNT0 ∨ f.off = Reg.SUP_CAUSECNT1) : (x.incSat Reg.SUP_RSTCNT).fld f = d.fld f :=
    (Dev.fld_wr_ne x _ (by rcases h with h | h <;> rw [h] <;> decide)).trans
      (hx.fld (by rcases h with h | h <;> rw [h] <;> decide))
  have hk {f : Fld} (h : f.off = Reg.SUP_CAUSECNT0 ∨ f.off = Reg.SUP_CAUSECNT1) (hd : f.hi < 8 ∨ 15 < f.lo) :
      e.fld f = d.fld f := by
    rw [h0 h, Dev.incFld, Dev.fld_setFld_bits _ _ (by decide) (by decide) hd, hs h]
  refine ⟨?_, fun k hk7 => ?_, ?_⟩
  · rw [hr _ (by decide), hc, Dev.incFld, Dev.rd_setFld_ne _ _ (by decide), Dev.incSat, Dev.rd_wr_same, BitVec.toNat_ofNat,
      hx.regs _ (by decide)]
    have := (d.rd Reg.SUP_RSTCNT).isLt
    unfold satInc
    split <;> omega
  · match k, hk7 with
    | 0, _ => exact hk (f := F.SUP_CAUSECNT0_RESETN) (.inl rfl) (by decide)
    | 1, _ =>
      have hl : d.fld F.SUP_CAUSECNT0_SYSRST < 256 := Nat.mod_lt _ (by decide)
      refine (h0 (f := F.SUP_CAUSECNT0_SYSRST) (.inl rfl)).trans ?_
      rw [Dev.incFld, Dev.fld_setFld_same _ _ _ (by decide) (by decide), hs (.inl rfl)]
      show satInc 255 (d.fld F.SUP_CAUSECNT0_SYSRST) % 256 = min 255 (d.fld F.SUP_CAUSECNT0_SYSRST + 1)
      unfold satInc
      split <;> omega
    | 2, _ => exact hk (f := F.SUP_CAUSECNT0_WDT) (.inl rfl) (by decide)
    | 3, _ => exact hk (f := F.SUP_CAUSECNT0_CLK) (.inl rfl) (by decide)
    | 4, _ => exact hk (f := F.SUP_CAUSECNT1_VCORE) (.inr rfl) (by decide)
    | 5, _ =>
      refine (h0 (f := F.SUP_CAUSECNT1_CODEECC) (.inr rfl)).trans ?_
      rw [Dev.incFld, Dev.fld_setFld_off _ _ (by decide), hs (.inr rfl)]
      rfl
    | 6, _ => exact hk (f := F.SUP_CAUSECNT1_FSAFE) (.inr rfl) (by decide)
  · rw [hr _ (by decide), hc, Dev.incFld, Dev.rd_setFld_ne _ _ (by decide), Dev.incSat, Dev.rd_wr_ne _ _ (by decide),
      hx.regs _ (by decide)]
    rfl

theorem Resets.of_resetSet (d : Dev) (t : Nat) : Resets d ((d.resetSet 2 0 t).settleOuts t).settle := by
  obtain ⟨x, f, hx, he⟩ := d.resetSet_eq t
  generalize d.resetSet 2 0 t = r at he ⊢
  have hfl : (x.countCause 2).flash = d.flash := (Dev.countCause_flash x).trans hx.flash
  have hob : (x.countCause 2).outbox = x.outbox := Dev.countCause_outbox x
  have hz := Spares.settled r t
  have hr {off : Nat} (h : off < 0x5000) (hk : keptOffset off = true) (hn : off ∉ [Reg.SEC_STAT, Reg.SUP_STAT, Reg.RTC_STAT]) :
      ((r.settleOuts t).settle).rd off =
        ((x.countCause 2).wr Reg.SUP_RSTCAUSE (BitVec.ofNat 32 (2 + 4 * 2 ^ 8))).rd off := by
    rw [hz.regs off h, he, Dev.modPower_rd]
    exact Dev.fresh_rd _ t .reset hk hn
  have hc (off : Nat) (ho : off ∈ [Reg.SUP_RSTCNT, Reg.SUP_CAUSECNT0, Reg.SUP_CAUSECNT1, Reg.WDT_RSTCOUNT]) :
      ((r.settleOuts t).settle).rd off = (x.countCause 2).rd off := by
    have hb : off < 0x5000 ∧ keptOffset off = true ∧ off ∉ [Reg.SEC_STAT, Reg.SUP_STAT, Reg.RTC_STAT] ∧
        off ≠ Reg.SUP_RSTCAUSE := by
      revert off; decide
    obtain ⟨h5, hk, hn, hne⟩ := hb
    rw [hr h5 hk hn, Dev.rd_wr_ne _ _ hne]
  exact {
    phase := by
      rw [(Aside.settled r t).phase, he, Dev.modPower_phase]
      exact Dev.fresh_phase _ t .reset
    cause := by rw [hr (by decide) (by decide) (by decide), Dev.rd_wr_same]
    counted := Counted.of_sparing hx hc
    comp := fun k => by
      have hk := Dev.fresh_comp ((x.countCause 2).wr Reg.SUP_RSTCAUSE (BitVec.ofNat 32 (2 + 4 * 2 ^ 8))) t .reset k
      unfold Dev.comp at hk ⊢
      rw [hz.flash, he, Dev.modPower_flash, hk, Dev.wr_flash, hfl]
    sent := fun m hm => hz.sent (by
      rw [he, Dev.modPower_outbox]
      refine Dev.fresh_sent _ t .reset ?_
      rw [Dev.wr_outbox, hob]
      exact hx.sent hm) }

end Sys2Proof.Machine
end

section
/-!
SUPPORT. Manifests, blocks and slots (R438 to R445): what each operation of an update leaves, the component that it makes, and the
journal entry that goes with it.
-/
namespace Sys2Proof.Machine

/-! ## Frames -/

theorem Only.of_modComp (d : Dev) (c : Nat) (f : Component → Component) : Only d (d.modComp c f) [.flash] [] := .of_setFlash d _

theorem Only.of_keepDir (d e : Dev) : Only e (d.keepDir e) [.flash] [] := .of_ite (fun _ => .refl e _ _) fun _ => .of_setFlash e _

theorem Only.of_updEvent (d : Dev) (t k : Nat) : Only d (d.updEvent t k) [.msix, .tasks] (Reg.UPD_STAT :: raiseRegs (184 + k)) :=
  .of_raiseFlag d t _ _ _

theorem Only.of_secEvent (d : Dev) (t k : Nat) : Only d (d.secEvent t k) [.msix, .tasks] (Reg.SEC_EVT :: raiseRegs (180 + k)) :=
  .of_raiseFlag d t _ _ _

theorem Only.of_nvsQueue (d : Dev) (t : Nat) (l : List NvsOp) : Only d (d.nvsQueue t l) [.nvs] [] := .of_setNvs d _

theorem Only.of_journal (d : Dev) (t kind cls detail : Nat) (data : List Nat) : Only d (d.journal t kind cls detail data) [.nvs] [] := by
  unfold Dev.journal Dev.journalAt
  refine .of_ite (fun _ => ?_) fun _ => .of_setNvs d _
  exact (Only.of_nvsQueue d t _).trans (.of_nvsQueue _ t _)

theorem Dev.comp_of_flash {d e : Dev} (h : e.flash = d.flash) (y : Nat) : e.comp y = d.comp y := by unfold Dev.comp; rw [h]

theorem Only.comp {d e : Dev} {l : List Part} {r : List Nat} (h : Only d e l r) (hl : Part.flash ∉ l) (y : Nat) : e.comp y = d.comp y :=
  Dev.comp_of_flash (h.parts .flash hl) y

theorem Dev.comp_modComp (d : Dev) (c y : Nat) (f : Component → Component) :
    (d.modComp c f).comp y = if y = c then f (d.comp c) else d.comp y := by
  unfold Dev.modComp Dev.comp
  split
  · next h => subst h; exact Sparse.get_set_same _ _ _ _
  · next h => exact Sparse.get_set_ne _ _ _ h

theorem Dev.comp_keepDir (d e : Dev) (y : Nat) : (d.keepDir e).comp y = e.comp y := by
  unfold Dev.keepDir Dev.comp
  split <;> rfl

/-! ## The checks of a manifest depend on the device alone -/

/-- Two devices agree on what a manifest is checked against: identity, keys, SECVER and the size of the flash. -/
structure SameChecks (d e : Dev) : Prop where
  ident : ∀ off, off < 0x1000 → e.rd off = d.rd off
  slots : e.rd Reg.SEC_STAT = d.rd Reg.SEC_STAT
  keys : ∀ off, 0x70100 ≤ off → off < 0x71000 → e.rd off = d.rd off
  size : e.fld F.UPD_STAT_FLSIZE = d.fld F.UPD_STAT_FLSIZE

namespace SameChecks

theorem refl (d : Dev) : SameChecks d d := ⟨fun _ _ => rfl, rfl, fun _ _ _ => rfl, rfl⟩

theorem trans {d e f : Dev} (h : SameChecks d e) (k : SameChecks e f) : SameChecks d f :=
  ⟨fun off ho => (k.ident off ho).trans (h.ident off ho), k.slots.trans h.slots,
    fun off h1 h2 => (k.keys off h1 h2).trans (h.keys off h1 h2),
    k.size.trans h.size⟩

theorem of_csr {d e : Dev} (h : e.csr = d.csr) : SameChecks d e :=
  ⟨fun off _ => Dev.rd_of_csr h off, Dev.rd_of_csr h _, fun off _ _ => Dev.rd_of_csr h off, Dev.fld_of_csr h _⟩

theorem of_raise (d : Dev) (t i : Nat) (hi : i < 256) : SameChecks d (d.raise t i) := by
  have h (off : Nat) (ho : off < 0x1000 ∨ 0x70000 ≤ off) : (d.raise t i).rd off = d.rd off := (Only.of_raise d t i).rd (by decide) (by
    simp only [raiseRegs, Reg.INT_SRCCFG, Reg.INT_PEND, Reg.INT_FIRST, Reg.BIO_BO0, Reg.BIO_BO1, List.cons_append, List.nil_append,
      List.mem_cons, List.not_mem_nil, or_false]
    omega)
  exact ⟨fun off ho => h off (.inl ho), h _ (.inr (by decide)), fun off h1 _ => h off (.inr (Nat.le_trans (by decide) h1)), by
    unfold Dev.fld; rw [h _ (.inr (by decide))]⟩

theorem of_updEvent (d : Dev) (t : Nat) {k : Nat} (hk : k < 24) : SameChecks d (d.updEvent t k) := by
  unfold Dev.updEvent Dev.raiseFlag
  refine SameChecks.trans ?_ (of_raise _ t _ (by omega))
  have h (off : Nat) (ho : off ≠ Reg.UPD_STAT) : (d.setBit Reg.UPD_STAT (8 + k) true).rd off = d.rd off := Dev.rd_setBit_ne d _ true ho
  refine ⟨fun off ho => h off ?_, h _ (by decide), fun off _ ho => h off ?_, ?_⟩
  · unfold Reg.UPD_STAT; omega
  · unfold Reg.UPD_STAT; omega
  · exact Dev.fld_setFld_bits d (f := ⟨Reg.UPD_STAT, 8 + k, 8 + k⟩) (g := F.UPD_STAT_FLSIZE) 1 (Nat.le_refl _)
      (by show 8 + k < 32; omega)
      (.inl (by show 1 < 8 + k; omega))

variable {d e : Dev} (h : SameChecks d e)
include h

theorem fld {f : Fld} (hf : f.off = Reg.SEC_STAT) : e.fld f = d.fld f := by unfold Dev.fld; rw [hf, h.slots]

theorem slotHash {s : Nat} (hs : s < 16) : e.slotHash s = d.slotHash s := by
  unfold Dev.slotHash
  refine congrArg wordBytes (List.map_congr_left fun w hw => h.keys _ ?_ ?_)
  · unfold Reg.SEC_KEYHASH; omega
  · have := List.mem_range.mp hw
    unfold Reg.SEC_KEYHASH; omega

theorem checkManifest (c : Nat) (m : List Byte) : e.checkManifest c m = d.checkManifest c m := by
  have hk : e.manKeyOk c m = d.manKeyOk c m := by
    have hs : manSigner m < 16 := Nat.mod_lt _ (by decide)
    unfold Dev.manKeyOk Dev.slotValid
    simp only [h.fld (f := F.SEC_STAT_SLOTSET) rfl, h.fld (f := F.SEC_STAT_SLOTREV) rfl,
      h.slotHash (Nat.lt_of_le_of_lt (Nat.sub_le _ 1) hs)]
  have ht : e.manTarget m = d.manTarget m := by
    unfold Dev.manTarget Dev.uidBytes
    simp only [h.ident _ (by decide : Reg.SYS_IDCODE < 0x1000), h.ident _ (by decide : Reg.SYS_UID0 < 0x1000),
      h.ident _ (by decide : Reg.SYS_UID1 < 0x1000), h.ident _ (by decide : Reg.SYS_UID2 < 0x1000),
      h.ident _ (by decide : Reg.SYS_UID3 < 0x1000)]
  have hv : e.secver c = d.secver c := by
    unfold Dev.secver
    rw [h.keys Reg.SEC_SECVER (by decide) (by decide)]
  have hz : e.slotSize c = d.slotSize c := by
    unfold Dev.slotSize
    rw [h.size]
  unfold Dev.checkManifest Dev.manFits
  rw [hk, ht, hv, hz]

theorem imageOk (c : Nat) (i : SlotImage) : e.imageOk c i = d.imageOk c i := by
  match i with
  | .empty => rfl
  | .factory _ => rfl
  | .sealed _ => rfl
  | .signed m blocks => unfold Dev.imageOk; dsimp only; rw [h.checkManifest]

end SameChecks

/-! ## The journal (R373) -/

theorem Dev.journalHead_congr {d e : Dev} (hn : e.nvs = d.nvs) (h0 : e.rd Reg.NVS_JHEAD = d.rd Reg.NVS_JHEAD)
    (h1 : e.rd Reg.NVS_JSLOT = d.rd Reg.NVS_JSLOT) : e.journalHead = d.journalHead := by
  unfold Dev.journalHead
  rw [hn, h0, h1]

theorem Dev.journalHead_lt (d : Dev) : d.journalHead.1 < 2 ^ 32 := by
  have h (l : List (Nat × NvsOp)) (x : Nat × Nat) (hx : x.1 < 2 ^ 32) : (l.foldl (fun (h : Nat × Nat) p =>
      match p.2 with | .head n j => (n.toNat, j) | .bytes _ _ => h) x).1 < 2 ^ 32 := by
    induction l generalizing x with
    | nil => exact hx
    | cons p l ih =>
      refine ih _ ?_
      dsimp only
      split
      · next n j _ => exact n.isLt
      · exact hx
  exact h _ _ (d.rd Reg.NVS_JHEAD).isLt

/-- The number of the entry that follows. -/
def nextEntry (n : Nat) : Nat := if n + 1 = 2 ^ 32 then 1 else n + 1

theorem Dev.journalHead_journalPut (d : Dev) (t : Nat) (l : List Byte) : (d.journalPut t l).journalHead.1 = nextEntry d.journalHead.1 := by
  have h (x : Dev) (n : Word) (j : Nat) : (x.nvsQueue t [.head n j]).journalHead = (n.toNat, j) := by
    unfold Dev.nvsQueue Dev.journalHead
    simp
  unfold Dev.journalPut
  rw [h]
  have := d.journalHead_lt
  unfold nextEntry
  rw [BitVec.toNat_ofNat]
  split <;> omega

/-- R373: what an entry of the journal leaves: its number is the next one, or it waits for READY. -/
theorem Dev.journal_entry (d : Dev) (t kind cls detail : Nat) (data : List Nat) :
    (d.nvsReady = true → (d.journal t kind cls detail data).journalHead.1 = nextEntry d.journalHead.1) ∧
    (d.nvsReady = false → (d.journal t kind cls detail data).nvs.waiting.length = d.nvs.waiting.length + 1) := by
  unfold Dev.journal Dev.journalAt
  dsimp only
  constructor
  · intro h
    rw [if_pos h]
    exact d.journalHead_journalPut t _
  · intro h
    rw [if_neg (by simp [h])]
    simp

/-! ## A manifest arrives (R440) -/

/-- The bytes of the manifest whose parts have arrived. -/
def Component.gathered (k : Component) : List Byte := (List.range k.partCount).flatMap k.part

/-- A component that has taken manifest m. -/
def Component.passed (k : Component) (m : List Byte) : Component :=
  { k.setOther (.signed m []) with
    state := 2, chk := 0, parts := [], manifest := m, bitmap := 0, otherValid := false, otherConfirmed := false }

/-- A component whose manifest has failed a check. -/
def Component.failed (k : Component) (chk : Nat) : Component := { k.ended with chk := chk }

/-- The events of a manifest that fails its checks. -/
def Dev.manifestFails (d : Dev) (t chk : Nat) : Dev :=
  let d := if chk = 2 then d.incFld F.SEC_AUTHCNT_SIGFAIL else d
  if chk = 2 ∨ chk = 3 then d.secEvent t 1 else d.updEvent t 3

section
variable (d : Dev) (t cls c : Nat)

/-- The device that has taken the manifest of component c. -/
def Dev.manifestTaken : Dev := d.keepDir (d.modComp c (fun k => k.passed (d.comp c).gathered))

theorem Dev.verifyManifest_passed (h : d.checkManifest c (d.comp c).gathered = 0) : (d.verifyManifest t cls c).1 =
    ((d.manifestTaken c).updEvent t 0).journal t 6 cls 1 [c + 1, 0, (manVersion (d.comp c).gathered).toNat] := by
  unfold Dev.verifyManifest Dev.manifestTaken Component.passed
  unfold Component.gathered at h ⊢
  dsimp only
  rw [if_pos h]

theorem Dev.verifyManifest_failed (h : d.checkManifest c (d.comp c).gathered ≠ 0) : (d.verifyManifest t cls c).1 =
    (d.modComp c (fun k => k.failed (d.checkManifest c (d.comp c).gathered))).manifestFails t (d.checkManifest c (d.comp c).gathered) := by
  unfold Dev.verifyManifest
  exact congrArg Prod.fst (if_neg h)

theorem Dev.verifyManifest_status : (d.verifyManifest t cls c).2 =
    if d.checkManifest c (d.comp c).gathered = 0 then 0
    else if d.checkManifest c (d.comp c).gathered = 1 ∧ wordAt (d.comp c).gathered 0 = 0x4E414D4C ∧
      wordAt (d.comp c).gathered 1 ≠ 0x0200
      then 4 else 8 := by
  unfold Dev.verifyManifest Component.gathered
  dsimp only
  split <;> rfl

theorem Only.of_manifestFails (chk : Nat) : Only d (d.manifestFails t chk) [.msix, .tasks]
    (Reg.UPD_STAT :: Reg.SEC_EVT :: Reg.SEC_AUTHCNT :: (raiseRegs 181 ++ raiseRegs 187)) := by
  unfold Dev.manifestFails
  have h : Only d (if chk = 2 then d.incFld F.SEC_AUTHCNT_SIGFAIL else d) [.msix, .tasks]
      (Reg.UPD_STAT :: Reg.SEC_EVT :: Reg.SEC_AUTHCNT :: (raiseRegs 181 ++ raiseRegs 187)) :=
    .of_ite (fun _ => (Only.of_incFld d _).more (by simp) (by decide)) fun _ => .refl d _ _
  exact h.trans (.of_ite (fun _ => (Only.of_secEvent _ t 1).more (fun _ h => h) (by decide)) fun _ =>
    (Only.of_updEvent _ t 3).more (fun _ h => h) (by decide))

theorem SameTask.of_manifestFails (chk m : Nat) : SameTask d (d.manifestFails t chk) m := by
  have h : SameTask d (if chk = 2 then d.incFld F.SEC_AUTHCNT_SIGFAIL else d) m :=
    .of_ite (fun _ => .of_task rfl) fun _ => .refl d m
  exact h.trans (.of_ite (fun _ => .of_raiseFlag _ t _ _ _ m) fun _ => .of_raiseFlag _ t _ _ _ m)

end

end Sys2Proof.Machine
end

section
/-!
SUPPORT. A part of a manifest and a block as they arrive (R440, R441), and the switch of a slot (R438, R444).
-/
namespace Sys2Proof.Machine

/-- The registers that an update may change (R450, R452). -/
def updRegs : List Nat :=
  Reg.UPD_STAT :: Reg.SEC_EVT :: Reg.SEC_AUTHCNT :: Reg.UPD_BLKERR :: (raiseRegs 181 ++ raiseRegs 184 ++ raiseRegs 187)

/-- R373: between d and e one entry of the journal has been made. -/
def Entered (d e : Dev) : Prop :=
  (d.nvsReady = true → e.journalHead.1 = nextEntry d.journalHead.1) ∧
  (d.nvsReady = false → e.nvs.waiting.length = d.nvs.waiting.length + 1)

theorem Entered.before {d e f : Dev} {l : List Part} {r : List Nat} (h : Only d e l r) (hl : Part.csr ∉ l) (hn : Part.nvs ∉ l)
    (hr : ∀ off ∈ [Reg.NVS_STAT, Reg.NVS_JHEAD, Reg.NVS_JSLOT], off ∉ r ++ [Reg.INT_FIRST, Reg.BIO_BO0, Reg.BIO_BO1])
    (k : Entered e f) : Entered d f := by
  have hv : e.nvsReady = d.nvsReady := by
    unfold Dev.nvsReady Dev.flag
    rw [h.fld hl (hr _ (by decide))]
  have hj : e.journalHead = d.journalHead :=
    Dev.journalHead_congr (h.parts .nvs hn) (h.rd hl (hr _ (by decide))) (h.rd hl (hr _ (by decide)))
  have hw : e.nvs = d.nvs := h.parts .nvs hn
  exact ⟨fun hd => (k.1 (hv.trans hd)).trans (by rw [hj]), fun hd => (k.2 (hv.trans hd)).trans (by rw [hw])⟩

theorem Entered.after {d e f : Dev} {l : List Part} {r : List Nat} (k : Entered d e) (h : Only e f l r) (hl : Part.csr ∉ l)
    (hn : Part.nvs ∉ l) (hr : ∀ off ∈ [Reg.NVS_JHEAD, Reg.NVS_JSLOT], off ∉ r ++ [Reg.INT_FIRST, Reg.BIO_BO0, Reg.BIO_BO1]) :
    Entered d f := by
  have hj : f.journalHead = e.journalHead :=
    Dev.journalHead_congr (h.parts .nvs hn) (h.rd hl (hr _ (by decide))) (h.rd hl (hr _ (by decide)))
  have hw : f.nvs = e.nvs := h.parts .nvs hn
  exact ⟨fun hd => by rw [hj]; exact k.1 hd, fun hd => by rw [hw]; exact k.2 hd⟩

section
variable (d : Dev) (t cls c : Nat)

theorem Only.of_manifestTaken : Only d (d.manifestTaken c) [.flash] [] := (Only.of_modComp d c _).trans (.of_keepDir d _)

theorem Dev.baudBack_manifestTaken : (d.manifestTaken c).flash.baudBack = d.flash.baudBack := by
  unfold Dev.manifestTaken Dev.keepDir
  split <;> rfl

theorem Dev.comp_manifestTaken (y : Nat) :
    (d.manifestTaken c).comp y = if y = c then (d.comp c).passed (d.comp c).gathered else d.comp y := by
  unfold Dev.manifestTaken
  rw [Dev.comp_keepDir, Dev.comp_modComp]

/-- What a manifest that is checked leaves. -/
structure Checked (x : Dev) : Prop where
  only : Only d x [.flash, .nvs, .tasks, .msix] updRegs
  tasks : ∀ m, SameTask d x m
  comp : ∀ y, x.comp y = if y = c then
    (if d.checkManifest c (d.comp c).gathered = 0 then (d.comp c).passed (d.comp c).gathered
      else (d.comp c).failed (d.checkManifest c (d.comp c).gathered)) else d.comp y
  baud : x.flash.baudBack = d.flash.baudBack
  entry : d.checkManifest c (d.comp c).gathered = 0 → Entered d x

theorem Checked.of_verifyManifest : Checked d c (d.verifyManifest t cls c).1 := by
  by_cases h : d.checkManifest c (d.comp c).gathered = 0
  · rw [Dev.verifyManifest_passed d t cls c h]
    have h1 : Only d ((d.manifestTaken c).updEvent t 0) [.flash, .tasks, .msix] (Reg.UPD_STAT :: raiseRegs 184) :=
      ((Only.of_manifestTaken d c).and (.of_updEvent _ t 0)).more (by simp) (by simp)
    have hj := Only.of_journal ((d.manifestTaken c).updEvent t 0) t 6 cls 1 [c + 1, 0, (manVersion (d.comp c).gathered).toNat]
    have hc (y : Nat) : ((d.manifestTaken c).updEvent t 0).comp y = (d.manifestTaken c).comp y :=
      (Only.of_updEvent _ t 0).comp (by simp) y
    exact {
      only := (h1.and hj).more (by decide) (by decide)
      tasks := fun m => ((Only.of_manifestTaken d c).same_task (by simp) m).trans
        ((SameTask.of_raiseFlag _ t _ _ _ m).trans (hj.same_task (by simp) m))
      comp := fun y => by rw [hj.comp (by simp), hc, Dev.comp_manifestTaken, if_pos h]
      baud := by
        rw [hj.parts .flash (by simp), (Only.of_updEvent _ t 0).parts .flash (by simp)]
        exact d.baudBack_manifestTaken c
      entry := fun _ => Entered.before h1 (by simp) (by simp) (by decide) (Dev.journal_entry _ t 6 cls 1 _) }
  · rw [Dev.verifyManifest_failed d t cls c h]
    have h1 := Only.of_modComp d c (fun k => k.failed (d.checkManifest c (d.comp c).gathered))
    have hf := Only.of_manifestFails (d.modComp c (fun k => k.failed (d.checkManifest c (d.comp c).gathered))) t
      (d.checkManifest c (d.comp c).gathered)
    exact {
      only := (h1.and hf).more (by decide) (by decide)
      tasks := fun m => (h1.same_task (by simp) m).trans (.of_manifestFails _ t _ m)
      comp := fun y => by rw [hf.comp (by simp), Dev.comp_modComp, if_neg h]
      baud := by rw [hf.parts .flash (by simp)]; rfl
      entry := fun k => absurd k h }

variable (i : Nat) (part : List Byte)

/-- What a part of a manifest leaves. -/
structure PartTaken (x : Dev) : Prop where
  only : Only d x [.flash, .nvs, .tasks, .msix] updRegs
  tasks : ∀ m, SameTask d x m
  others : ∀ y, y ≠ c → x.comp y = d.comp y
  baud : x.flash.baudBack = d.flash.baudBack
  entry : (d.comp c).state ≤ 1 → (x.comp c).state = 2 → Entered d x

theorem PartTaken.refl : PartTaken d c d :=
  ⟨.refl d _ _, fun m => .refl d m, fun _ _ => rfl, rfl, fun h k => absurd (k ▸ h) (by decide)⟩

theorem PartTaken.of_manifestPart : PartTaken d c (d.manifestPart t cls c i part).1 := by
  have hz := Only.of_modComp d c (fun k => k.addPart i part)
  have hc (y : Nat) : (d.modComp c (fun k => k.addPart i part)).comp y = if y = c then (d.comp c).addPart i part else d.comp y :=
    Dev.comp_modComp d c y _
  have hb : (d.modComp c (fun k => k.addPart i part)).flash.baudBack = d.flash.baudBack := rfl
  unfold Dev.manifestPart
  dsimp only
  split
  · exact .refl d c
  · split
    · exact .refl d c
    · split
      · exact .refl d c
      · split
        · exact .refl d c
        · split
          · generalize d.modComp c (fun k => k.addPart i part) = z at hz hc hb
            have hv := Checked.of_verifyManifest z t cls c
            exact {
              only := (hz.and hv.only).more (by decide) (by decide)
              tasks := fun m => (hz.same_task (by simp) m).trans (hv.tasks m)
              others := fun y hy => by rw [hv.comp, if_neg hy, hc, if_neg hy]
              baud := hv.baud.trans hb
              entry := fun _ hk => by
                refine Entered.before hz (by simp) (by simp) (by decide) (hv.entry ?_)
                refine Classical.byContradiction fun hn => ?_
                rw [hv.comp, if_pos rfl, if_neg hn] at hk
                exact absurd (show (0 : Nat) = 2 from hk) (by decide) }
          · exact {
              only := hz.more (by decide) (by simp)
              tasks := fun m => hz.same_task (by simp) m
              others := fun y hy => by rw [hc, if_neg hy]
              baud := hb
              entry := fun _ hk => by
                rw [hc, if_pos rfl] at hk
                exact absurd (show (1 : Nat) = 2 from hk) (by decide) }

end

/-- A part does the same in a device that agrees on the component, the SEC engine and the checks. -/
theorem Dev.manifestPart_congr {d e : Dev} {c : Nat} (hk : e.comp c = d.comp c) (hs : e.secBusy = d.secBusy) (hm : SameChecks d e)
    (t cls i : Nat) (part : List Byte) : (e.manifestPart t cls c i part).2 = (d.manifestPart t cls c i part).2 ∧
      (e.manifestPart t cls c i part).1.comp c = (d.manifestPart t cls c i part).1.comp c := by
  have hv (x y : Dev) (hxy : y.comp c = x.comp c) (hc : SameChecks x y) : (y.verifyManifest t cls c).2 = (x.verifyManifest t cls c).2 ∧
      (y.verifyManifest t cls c).1.comp c = (x.verifyManifest t cls c).1.comp c := by
    rw [Dev.verifyManifest_status, Dev.verifyManifest_status, (Checked.of_verifyManifest y t cls c).comp,
      (Checked.of_verifyManifest x t cls c).comp, hxy, hc.checkManifest]
    exact ⟨rfl, rfl⟩
  have hz : (e.modComp c (fun k => k.addPart i part)).comp c = (d.modComp c (fun k => k.addPart i part)).comp c := by
    rw [Dev.comp_modComp, Dev.comp_modComp, if_pos rfl, if_pos rfl, hk]
  have hzc : SameChecks (d.modComp c (fun k => k.addPart i part)) (e.modComp c (fun k => k.addPart i part)) :=
    (SameChecks.of_csr (d := d.modComp c _) (e := d) rfl).trans (hm.trans (.of_csr rfl))
  have hl : e.lastPart c i part = d.lastPart c i part := by unfold Dev.lastPart; rw [hk]
  unfold Dev.manifestPart
  rw [hl, hk, hs]
  dsimp only
  split
  · exact ⟨rfl, hk⟩
  · split
    · exact ⟨rfl, hk⟩
    · split
      · exact ⟨rfl, hk⟩
      · split
        · exact ⟨rfl, hk⟩
        · split
          · exact hv _ _ hz hzc
          · exact ⟨rfl, hz⟩

/-! ## A block arrives (R441) -/

/-- What a block leaves. -/
structure BlockTaken (d x : Dev) : Prop where
  only : Only d x [.flash, .tasks, .msix] updRegs
  tasks : ∀ m, SameTask d x m
  comp : ∀ y, x.comp y = d.comp y
  baud : x.flash.baudBack = d.flash.baudBack

theorem BlockTaken.refl (d : Dev) : BlockTaken d d := ⟨.refl d _ _, fun m => .refl d m, fun _ => rfl, rfl⟩

theorem BlockTaken.of_dataBlock (d : Dev) (t c i : Nat) (b : List Byte) : BlockTaken d (d.dataBlock t c i b).1 := by
  have he : Only d ((d.incSat Reg.UPD_BLKERR).updEvent t 3) [.tasks, .msix] updRegs :=
    ((Only.of_incSat d _).and (.of_updEvent _ t 3)).more (by decide) (by decide)
  have hs (m : Nat) : SameTask d ((d.incSat Reg.UPD_BLKERR).updEvent t 3) m :=
    ((Only.of_incSat d _).same_task (by simp) m).trans (.of_raiseFlag _ t _ _ _ m)
  unfold Dev.dataBlock
  dsimp only
  split
  · exact .refl d
  · split
    · exact .refl d
    · split
      · generalize (d.incSat Reg.UPD_BLKERR).updEvent t 3 = x at he hs ⊢
        exact ⟨he.more (by simp) (fun _ h => h), hs, fun y => he.comp (by simp) y, by rw [he.parts .flash (by simp)]⟩
      · split
        · exact .refl d
        · split
          · exact .refl d
          · have hf : Only d { d with flash := { d.flash with queued := d.flash.queued ++ [(c, i, b)] } } [.flash] [] := .of_setFlash d _
            exact ⟨hf.more (by simp) (by simp), fun m => hf.same_task (by simp) m, fun _ => rfl, rfl⟩

/-- A block does the same in a device that agrees on the component and on the blocks that wait. -/
theorem Dev.dataBlock_congr {d e : Dev} {c : Nat} (hk : e.comp c = d.comp c) (hq : e.flash.queued = d.flash.queued) (t i : Nat)
    (b : List Byte) : (e.dataBlock t c i b).2 = (d.dataBlock t c i b).2 ∧
      (e.dataBlock t c i b).1.flash.queued = (d.dataBlock t c i b).1.flash.queued := by
  have he (x : Dev) : ((x.incSat Reg.UPD_BLKERR).updEvent t 3).flash = x.flash :=
    ((Only.of_incSat x _).and (Only.of_updEvent _ t 3)).parts .flash (by simp)
  unfold Dev.dataBlock
  rw [hk, hq]
  dsimp only
  split
  · exact ⟨rfl, hq⟩
  · split
    · exact ⟨rfl, hq⟩
    · split
      · dsimp only
        exact ⟨rfl, by rw [he, he, hq]⟩
      · split
        · exact ⟨rfl, hq⟩
        · split
          · exact ⟨rfl, hq⟩
          · exact ⟨rfl, rfl⟩

/-! ## A slot is activated (R438, R444) -/

/-- A component whose other slot has become the active one, with its window to come. -/
def Component.activated (k : Component) (window : Nat) (self : Bool) : Component :=
  ({ k.swapSlots with state := 4, winSaved := window, winEnd := none, winWarned := false, selfConfirm := self } : Component).setFails 0

theorem Component.activated_fields (k : Component) (window : Nat) (self : Bool) : (k.activated window self).activeB = !k.activeB ∧
    (k.activated window self).state = 4 ∧ (k.activated window self).selfConfirm = self ∧
    (k.activated window self).winSaved = window := by
  unfold Component.activated Component.setFails
  split <;> exact ⟨rfl, rfl, rfl, rfl⟩

section
variable (d : Dev) (t cls c : Nat) (self : Bool)

/-- The directory has selected the other slot. -/
def Dev.slotSwitched : Dev :=
  (d.switchSlot c).modComp c (fun k =>
    ({ k with state := 4, winSaved := d.updWindow, winEnd := none, winWarned := false, selfConfirm := self }).setFails 0)

theorem Dev.slotSwitched_csr : (d.slotSwitched c self).csr = d.csr := by
  have h (e : Dev) (f : Component → Component) : (e.modComp c f).csr = e.csr := rfl
  have hk (x e : Dev) : (x.keepDir e).csr = e.csr := by unfold Dev.keepDir; split <;> rfl
  unfold Dev.slotSwitched Dev.switchSlot
  rw [h, hk, h]

theorem Dev.slotSwitched_outbox : (d.slotSwitched c self).outbox = d.outbox := by
  have h (e : Dev) (f : Component → Component) : (e.modComp c f).outbox = e.outbox := rfl
  have hk (x e : Dev) : (x.keepDir e).outbox = e.outbox := by unfold Dev.keepDir; split <;> rfl
  unfold Dev.slotSwitched Dev.switchSlot
  rw [h, hk, h]

theorem Dev.comp_slotSwitched (y : Nat) :
    (d.slotSwitched c self).comp y = if y = c then (d.comp c).activated d.updWindow self else d.comp y := by
  have hs (z : Nat) : (d.switchSlot c).comp z = if z = c then (d.comp c).swapSlots else d.comp z := by
    unfold Dev.switchSlot
    rw [Dev.comp_keepDir, Dev.comp_modComp]
  unfold Dev.slotSwitched
  rw [Dev.comp_modComp, hs, hs, if_pos rfl]
  split <;> rfl

theorem Dev.activateSlot_eq : ∃ data, d.activateSlot t cls c self = ((d.slotSwitched c self).updEvent t 1).journal t 6 cls 3 data := by
  unfold Dev.activateSlot Dev.slotSwitched
  exact ⟨[c + 1, (d.comp c).active.version.toNat, (d.comp c).other.version.toNat], rfl⟩

theorem Dev.comp_activateSlot (y : Nat) :
    (d.activateSlot t cls c self).comp y = if y = c then (d.comp c).activated d.updWindow self else d.comp y := by
  obtain ⟨data, he⟩ := d.activateSlot_eq t cls c self
  rw [he, (Only.of_journal _ t 6 cls 3 data).comp (by simp), (Only.of_updEvent _ t 1).comp (by simp), Dev.comp_slotSwitched]

theorem SameChecks.of_activateSlot : SameChecks d (d.activateSlot t cls c self) := by
  obtain ⟨data, he⟩ := d.activateSlot_eq t cls c self
  have hj (x : Dev) : (x.journal t 6 cls 3 data).csr = x.csr := by
    unfold Dev.journal Dev.journalAt
    split <;> rfl
  rw [he]
  exact (SameChecks.of_csr (d.slotSwitched_csr c self)).trans ((SameChecks.of_updEvent _ t (by decide)).trans (.of_csr (hj _)))

end

/-- Device e has the registers of d below the interrupts, and UPD_CFG, and has sent what d has sent. -/
structure Sends (d e : Dev) : Prop where
  regs : ∀ off, off < 0x5000 ∨ off = Reg.UPD_CFG → e.rd off = d.rd off
  sent : d.outbox ⊆ e.outbox

theorem Sends.refl (d : Dev) : Sends d d := ⟨fun _ _ => rfl, fun _ h => h⟩

theorem Sends.trans {d e f : Dev} (h : Sends d e) (k : Sends e f) : Sends d f :=
  ⟨fun off ho => (k.regs off ho).trans (h.regs off ho), fun _ hx => k.sent (h.sent hx)⟩

theorem Sends.of_same {d e : Dev} (hc : e.csr = d.csr) (ho : e.outbox = d.outbox) : Sends d e :=
  ⟨fun off _ => Dev.rd_of_csr hc off, fun _ hx => ho ▸ hx⟩

theorem Sends.updWindow {d e : Dev} (h : Sends d e) : e.updWindow = d.updWindow := by
  unfold Dev.updWindow Dev.fld
  rw [h.regs F.UPD_CFG_WINMIN.off (.inr rfl)]

theorem Sends.of_activateSlot (d : Dev) (t cls c : Nat) (self : Bool) : Sends d (d.activateSlot t cls c self) := by
  obtain ⟨data, he⟩ := d.activateSlot_eq t cls c self
  have hj (x : Dev) : Sends x (x.journal t 6 cls 3 data) := by
    unfold Dev.journal Dev.journalAt
    split <;> exact .of_same rfl rfl
  have hu (x : Dev) : Sends x (x.updEvent t 1) := by
    have hs : Spares x (x.updEvent t 1) := .of_raiseFlag x t _ _ (by decide)
    refine ⟨fun off ho => ho.elim (hs.regs off) fun hc => ?_, hs.sent⟩
    rw [hc]
    exact (Only.of_updEvent x t 1).rd (by simp) (by decide)
  rw [he]
  exact (Sends.of_same (d.slotSwitched_csr c self) (d.slotSwitched_outbox c self)).trans ((hu _).trans (hj _))

/-! ## The slots of a commit are activated (R448) -/

/-- The slots of the components of a list activated one after another. -/
def Dev.activateAll (t : Nat) (l : List Nat) (d : Dev) : Dev :=
  l.foldl (fun (d : Dev) c => d.activateSlot t 0 c (!d.imageOk c (d.comp c).active)) d

/-- What the activation of the slots of a list leaves. -/
structure AllActivated (d e : Dev) (l : List Nat) : Prop where
  sends : Sends d e
  checks : SameChecks d e
  others : ∀ y, y ∉ l → e.comp y = d.comp y
  switched : l.Nodup → ∀ y, y ∈ l → e.comp y = (d.comp y).activated d.updWindow (!d.imageOk y (d.comp y).active)

theorem AllActivated.of_list (t : Nat) (l : List Nat) (d : Dev) : AllActivated d (d.activateAll t l) l := by
  induction l generalizing d with
  | nil => exact ⟨.refl d, .refl d, fun _ _ => rfl, fun _ y hy => absurd hy List.not_mem_nil⟩
  | cons c l ih =>
    have hs := Sends.of_activateSlot d t 0 c (!d.imageOk c (d.comp c).active)
    have hk := SameChecks.of_activateSlot d t 0 c (!d.imageOk c (d.comp c).active)
    have hc := Dev.comp_activateSlot d t 0 c (!d.imageOk c (d.comp c).active)
    have h := ih (d.activateSlot t 0 c (!d.imageOk c (d.comp c).active))
    refine ⟨hs.trans h.sends, hk.trans h.checks, fun y hy => ?_, fun hn y hy => ?_⟩
    · obtain ⟨hyc, hyl⟩ := not_or.mp (fun h => hy (List.mem_cons.mpr h))
      exact (h.others y hyl).trans (by rw [hc, if_neg hyc])
    · obtain ⟨hcl, hl⟩ := List.nodup_cons.mp hn
      rcases List.mem_cons.mp hy with rfl | hyl
      · exact (h.others y hcl).trans (by rw [hc, if_pos rfl])
      · have hyc : y ≠ c := fun he => hcl (he ▸ hyl)
        refine (h.switched hl y hyl).trans ?_
        rw [hc, if_neg hyc, hs.updWindow, hk.imageOk]

theorem nodup_of_eraseDups {l : List Nat} (h : l.eraseDups = l) : l.Nodup := by
  induction l with
  | nil => exact List.nodup_nil
  | cons a l ih =>
    rw [List.eraseDups_cons, List.cons.injEq] at h
    have ha : a ∉ l := fun hm => by
      rw [← h.2, List.mem_eraseDups, List.mem_filter] at hm
      simp at hm
    have hf : l.filter (fun b => !b == a) = l := List.filter_eq_self.mpr fun b hb => by
      simpa using fun he : b = a => ha (he ▸ hb)
    exact List.nodup_cons.mpr ⟨ha, ih (by rw [hf] at h; exact h.2)⟩

end Sys2Proof.Machine
end

section
/-!
PROOFS. Spore mode (R421, R448): the frames, the commit and its reset, the rates and the HELLO.
-/
namespace Sys2Proof.Machine

/-! ## An ACK leaves (R421) -/

/-- The device hears frames of a channel in spore mode. -/
def Hears (d : Dev) (ch : Channel) : Prop := d.phase = .spore ∧ sporeChannel ch = true

/-- A valid frame on the UART ends the wait for one at a new rate. -/
def Dev.heardOn (d : Dev) (ch : Channel) : Dev := if onUart ch then { d with flash.baudBack := none } else d

theorem Dev.baudBack_heardOn (d : Dev) (ch : Channel) :
    (d.heardOn ch).flash.baudBack = if onUart ch then none else d.flash.baudBack := by
  unfold Dev.heardOn; split <;> rfl

theorem Only.of_heardOn (d : Dev) (ch : Channel) : Only d (d.heardOn ch) [.flash] [] :=
  .of_ite (fun _ => .of_setFlash d _) fun _ => .refl d _ _

theorem Dev.comp_heardOn (d : Dev) (ch : Channel) (y : Nat) : (d.heardOn ch).comp y = d.comp y := by
  unfold Dev.heardOn; split <;> rfl

/-- An answer with these bytes has left between x and e, and is what a repeated frame gets. -/
structure Acked (x e : Dev) (t : Nat) (ch : Channel) (bytes : List Byte) : Prop where
  sent : (t, Msg.sporeAck ch bytes) ∈ e.outbox
  again : e.repeated ch = some bytes
  flash : e.flash = x.flash
  only : Only x e [.host] []

theorem Dev.repeated_of_host {d e : Dev} (h : e.host = d.host) (ch : Channel) : e.repeated ch = d.repeated ch := by
  unfold Dev.repeated; rw [h]

theorem Dev.sporeAnswer_eq {ch : Channel} (h : sporeChannel ch = true) (x : Dev) (t status c : Nat) : ∃ q,
    chSeq ch = some q ∧ x.sporeAnswer t ch status c = { x.send t (.sporeAck ch (ackBytes x status c)) with host := { x.host with
      replies := { who := chWho ch, seq := q, bytes := ackBytes x status c } :: x.host.replies.filter (fun r => r.who != chWho ch) } } := by
  cases ch with
  | uart q => exact ⟨q, rfl, rfl⟩
  | lan cd src q => exact ⟨q, rfl, rfl⟩
  | mailbox _ => exact absurd h (by simp [sporeChannel])
  | jtag _ => exact absurd h (by simp [sporeChannel])
  | damaged => exact absurd h (by simp [sporeChannel])

theorem Acked.of_sporeAnswer {ch : Channel} (h : sporeChannel ch = true) (x : Dev) (t status c : Nat) :
    Acked x (x.sporeAnswer t ch status c) t ch (ackBytes x status c) := by
  obtain ⟨q, hq, he⟩ := Dev.sporeAnswer_eq h x t status c
  rw [he]
  refine ⟨List.mem_cons_self, ?_, rfl, (Only.of_send x t _).more (by simp) (by simp) |>.trans (.of_setHost _ _)⟩
  unfold Dev.repeated
  rw [hq]
  simp

theorem Acked.settled {x e : Dev} {t : Nat} {ch : Channel} {bytes : List Byte} (h : Acked x e t ch bytes) (u : Nat) :
    Acked x (e.settleOuts u).settle t ch bytes where
  sent := (Spares.settled e u).sent h.sent
  again := (Dev.repeated_of_host (Aside.settled e u).host ch).trans h.again
  flash := (Aside.settled e u).flash.trans h.flash
  only := h.only.settled u

/-! ## A frame -/

section
variable {d : Dev} {ch : Channel} {comp : Nat} {f : Nat → Nat → Dev → Dev × Nat} {t : Nat}

theorem Dev.sporeFrame_unheard (h : ¬ Hears d ch) : d.sporeFrame ch comp f t = d := if_neg h

theorem Dev.sporeFrame_again (h : Hears d ch) {b : List Byte} (hb : d.repeated ch = some b) :
    d.sporeFrame ch comp f t = (d.heardOn ch).send t (.sporeAck ch b) := by
  have hr : (d.heardOn ch).repeated ch = some b :=
    (Dev.repeated_of_host ((Only.of_heardOn d ch).parts .host (by simp)) ch).trans hb
  have h' : d.phase = .spore ∧ sporeChannel ch = true := h
  unfold Dev.sporeFrame
  rw [if_pos h']
  change (match (d.heardOn ch).repeated ch with | some bytes => (d.heardOn ch).send t (.sporeAck ch bytes) | none => _) = _
  rw [hr]

theorem Dev.sporeFrame_new (h : Hears d ch) (hb : d.repeated ch = none) : d.sporeFrame ch comp f t =
    if 1 ≤ comp ∧ comp ≤ 4 then
      (f (comp - 1) t (d.heardOn ch)).1.sporeAnswer t ch (f (comp - 1) t (d.heardOn ch)).2 (comp - 1)
    else (d.heardOn ch).sporeAnswer t ch 4 4 := by
  have hr : (d.heardOn ch).repeated ch = none :=
    (Dev.repeated_of_host ((Only.of_heardOn d ch).parts .host (by simp)) ch).trans hb
  have h' : d.phase = .spore ∧ sporeChannel ch = true := h
  unfold Dev.sporeFrame
  rw [if_pos h']
  change (match (d.heardOn ch).repeated ch with | some bytes => (d.heardOn ch).send t (.sporeAck ch bytes) | none => _) = _
  rw [hr]
  rfl

end

/-- What a frame leaves, and where it takes effect the device x and the STATUS of the ACK. -/
structure FrameTaken (d e : Dev) (t : Nat) (ch : Channel) (comp : Nat) (f : Nat → Nat → Dev → Dev × Nat) : Prop where
  unheard : ¬ Hears d ch → Only d e [] []
  again : Hears d ch → ∀ b, d.repeated ch = some b → (t, Msg.sporeAck ch b) ∈ e.outbox ∧
    e.flash = (d.heardOn ch).flash ∧ Only d e [.flash] []
  unnamed : Hears d ch → d.repeated ch = none → ¬ (1 ≤ comp ∧ comp ≤ 4) → Acked (d.heardOn ch) e t ch (ackBytes d 4 4)
  named : Hears d ch → d.repeated ch = none → 1 ≤ comp ∧ comp ≤ 4 → Acked (f (comp - 1) t (d.heardOn ch)).1 e t ch
    (ackBytes (f (comp - 1) t (d.heardOn ch)).1 (f (comp - 1) t (d.heardOn ch)).2 (comp - 1))

theorem ackBytes_congr {d e : Dev} {c : Nat} (h : e.comp c = d.comp c) (status : Nat) : ackBytes e status c = ackBytes d status c := by
  unfold ackBytes; rw [h]

theorem FrameTaken.of_sporeFrame (d : Dev) (t : Nat) (ch : Channel) (comp : Nat) (f : Nat → Nat → Dev → Dev × Nat) :
    FrameTaken d (((d.sporeFrame ch comp f t).settleOuts t).settle) t ch comp f where
  unheard := fun h => by
    rw [Dev.sporeFrame_unheard h]
    exact (Only.refl d [] []).settled t
  again := fun h b hb => by
    rw [Dev.sporeFrame_again h hb]
    refine ⟨(Spares.settled _ t).sent List.mem_cons_self, (Spares.settled _ t).flash, ?_⟩
    exact ((Only.of_heardOn d ch).trans ((Only.of_send _ t _).more (by simp) (by simp))).settled t
  unnamed := fun h hb hc => by
    rw [Dev.sporeFrame_new h hb, if_neg hc, ← ackBytes_congr (d.comp_heardOn ch 4) 4]
    exact (Acked.of_sporeAnswer h.2 _ t 4 4).settled t
  named := fun h hb hc => by
    rw [Dev.sporeFrame_new h hb, if_pos hc]
    exact (Acked.of_sporeAnswer h.2 _ t _ _).settled t

end Sys2Proof.Machine
end

section
/-!
SUPPORT. Spore mode (R421, R448): what a frame leaves where it has no effect, the parts of a manifest, the blocks, and COMMIT.
-/
namespace Sys2Proof.Machine

/-! ## Frames without an effect on a component -/

/-- A frame that is not heard, or that repeats one. -/
structure StandsAside (d e : Dev) (t : Nat) (ch : Channel) : Prop where
  unheard : ¬ Hears d ch → Only d e [] []
  again : Hears d ch → ∀ b, d.repeated ch = some b → (t, Msg.sporeAck ch b) ∈ e.outbox ∧
    e.flash.baudBack = (if onUart ch then none else d.flash.baudBack) ∧ Only d e [.flash] []

/-- Every component stands, and an ACK with these bytes leaves. -/
structure Answers (d e : Dev) (t : Nat) (ch : Channel) (bytes : List Byte) : Prop where
  acked : (t, Msg.sporeAck ch bytes) ∈ e.outbox ∧ e.repeated ch = some bytes
  comp : ∀ y, e.comp y = d.comp y
  only : Only d e [.flash, .host] []

section
variable {d x e : Dev} {t c comp : Nat} {ch : Channel} {f : Nat → Nat → Dev → Dev × Nat}

theorem Acked.answers {status : Nat} (h : Acked x e t ch (ackBytes x status c)) (ho : Only d x [.flash] [])
    (hc : ∀ y, x.comp y = d.comp y) : Answers d e t ch (ackBytes d status c) where
  acked := ackBytes_congr (hc c) status ▸ ⟨h.sent, h.again⟩
  comp := fun y => (Dev.comp_of_flash h.flash y).trans (hc y)
  only := ho.and h.only

namespace FrameTaken

theorem aside (h : FrameTaken d e t ch comp f) : StandsAside d e t ch where
  unheard := h.unheard
  again := fun hh b hb => by
    obtain ⟨hs, hf, ho⟩ := h.again hh b hb
    exact ⟨hs, hf ▸ d.baudBack_heardOn ch, ho⟩

theorem turned (h : FrameTaken d e t ch comp f) (hh : Hears d ch) (hr : d.repeated ch = none) (hc : ¬ (1 ≤ comp ∧ comp ≤ 4)) :
    Answers d e t ch (ackBytes d 4 4) := by
  have ha := h.unnamed hh hr hc
  rw [← ackBytes_congr (d.comp_heardOn ch 4) 4] at ha
  exact ha.answers (.of_heardOn d ch) (d.comp_heardOn ch)

/-- R448: a valid frame on the UART ends the wait for one at a new rate. -/
theorem heard (h : FrameTaken d e t ch comp f) (hf : ∀ x, (f (comp - 1) t x).1.flash.baudBack = x.flash.baudBack) (hh : Hears d ch) :
    e.flash.baudBack = (if onUart ch then none else d.flash.baudBack) := by
  cases hr : d.repeated ch with
  | some b => exact (h.aside.again hh b hr).2.1
  | none =>
    by_cases hc : 1 ≤ comp ∧ comp ≤ 4
    · rw [(h.named hh hr hc).flash, hf, Dev.baudBack_heardOn]
    · rw [(h.unnamed hh hr hc).flash, Dev.baudBack_heardOn]

end FrameTaken

end

/-! ## Parts of a manifest, and blocks (R440, R441) -/

/-- What a heard part of a manifest leaves. -/
theorem FrameTaken.manifest {d e : Dev} {t i comp : Nat} {ch : Channel} {l : List Byte}
    (h : FrameTaken d e t ch comp (fun c t d => d.manifestPart t (chClass ch) c i l)) (hh : Hears d ch) (hr : d.repeated ch = none)
    (hc : 1 ≤ comp ∧ comp ≤ 4) :
    ((t, Msg.sporeAck ch (ackBytes e (d.manifestPart t (chClass ch) (comp - 1) i l).2 (comp - 1))) ∈ e.outbox ∧
      e.repeated ch = some (ackBytes e (d.manifestPart t (chClass ch) (comp - 1) i l).2 (comp - 1))) ∧
    e.comp (comp - 1) = (d.manifestPart t (chClass ch) (comp - 1) i l).1.comp (comp - 1) ∧
    (∀ y, y ≠ comp - 1 → e.comp y = d.comp y) ∧
    ((d.comp (comp - 1)).state ≤ 1 → (e.comp (comp - 1)).state = 2 → Entered d e) ∧
    TasksBut d e [] ∧ Only d e [.flash, .host, .nvs, .tasks, .msix] updRegs := by
  have hn := Only.of_heardOn d ch
  have hp := PartTaken.of_manifestPart (d.heardOn ch) t (chClass ch) (comp - 1) i l
  have ha := h.named hh hr hc
  obtain ⟨hs, hk⟩ := Dev.manifestPart_congr (d.comp_heardOn ch (comp - 1))
    (show (d.heardOn ch).secBusy = d.secBusy by unfold Dev.heardOn; split <;> rfl)
    (.of_csr (show (d.heardOn ch).csr = d.csr by unfold Dev.heardOn; split <;> rfl)) t (chClass ch) i l
  generalize (d.heardOn ch).manifestPart t (chClass ch) (comp - 1) i l = x at hp ha hs hk
  have he (y : Nat) : e.comp y = x.1.comp y := Dev.comp_of_flash ha.flash y
  rw [← hs, ackBytes_congr (he _)]
  refine ⟨⟨ha.sent, ha.again⟩, (he _).trans hk, fun y hy => ?_, fun h1 h2 => ?_, fun m _ => ?_, ?_⟩
  · rw [he, hp.others y hy, Dev.comp_heardOn]
  · exact .before hn (by simp) (by simp) (by decide)
      (.after (hp.entry ((d.comp_heardOn ch _) ▸ h1) (he _ ▸ h2)) ha.only (by simp) (by simp) (by decide))
  · exact (hn.same_task (by simp) m).trans ((hp.tasks m).trans (ha.only.same_task (by simp) m))
  · exact ((hn.and hp.only).and ha.only).more (by decide) (by simp)

/-- What a heard block leaves. -/
theorem FrameTaken.data {d e : Dev} {t i comp : Nat} {ch : Channel} {l : List Byte}
    (h : FrameTaken d e t ch comp (fun c t d => d.dataBlock t c i l)) (hh : Hears d ch) (hr : d.repeated ch = none)
    (hc : 1 ≤ comp ∧ comp ≤ 4) :
    ((t, Msg.sporeAck ch (ackBytes e (d.dataBlock t (comp - 1) i l).2 (comp - 1))) ∈ e.outbox ∧
      e.repeated ch = some (ackBytes e (d.dataBlock t (comp - 1) i l).2 (comp - 1))) ∧
    e.flash.queued = (d.dataBlock t (comp - 1) i l).1.flash.queued ∧ (∀ y, e.comp y = d.comp y) ∧
    TasksBut d e [] ∧ Only d e [.flash, .host, .tasks, .msix] updRegs := by
  have hn := Only.of_heardOn d ch
  have hp := BlockTaken.of_dataBlock (d.heardOn ch) t (comp - 1) i l
  have ha := h.named hh hr hc
  obtain ⟨hs, hq⟩ := Dev.dataBlock_congr (d.comp_heardOn ch (comp - 1))
    (show (d.heardOn ch).flash.queued = d.flash.queued by unfold Dev.heardOn; split <;> rfl) t i l
  generalize (d.heardOn ch).dataBlock t (comp - 1) i l = x at hp ha hs hq
  have he (y : Nat) : e.comp y = x.1.comp y := Dev.comp_of_flash ha.flash y
  rw [← hs, ackBytes_congr (he _)]
  refine ⟨⟨ha.sent, ha.again⟩, (congrArg Flash.queued ha.flash).trans hq, fun y => ?_, fun m _ => ?_, ?_⟩
  · rw [he, hp.comp, Dev.comp_heardOn]
  · exact (hn.same_task (by simp) m).trans ((hp.tasks m).trans (ha.only.same_task (by simp) m))
  · exact ((hn.and hp.only).and ha.only).more (by decide) (by simp)

end Sys2Proof.Machine
end

section
/-!
SUPPORT. COMMIT frames of spore mode (R443, R448): the list, its checks, and the reset that follows.
-/
namespace Sys2Proof.Machine

/-! ## The list -/

/-- The components that are listed once a COMMIT frame has named c. -/
def Dev.listedWith (d : Dev) (c : Nat) : List Nat :=
  if d.flash.listed.contains c then d.flash.listed else d.flash.listed ++ [c]

/-- The device that has listed component c. -/
def Dev.listing (d : Dev) (ch : Channel) (c : Nat) : Dev :=
  { d with flash := { d.flash with baudBack := if onUart ch then none else d.flash.baudBack, listed := d.listedWith c } }

theorem Dev.heardOn_eq (d : Dev) (ch : Channel) :
    d.heardOn ch = { d with flash := { d.flash with baudBack := if onUart ch then none else d.flash.baudBack } } := by
  unfold Dev.heardOn
  split <;> rfl

theorem Dev.commitFrame_heardOn (d : Dev) (t : Nat) (ch : Channel) (c : Nat) : (d.heardOn ch).commitFrame ch c t =
    if (d.listing ch c).listedComplete ∧ ((d.listing ch c).sporeCommit t).2 then
      (((d.listing ch c).sporeAnswer t ch 0 c).sporeCommit t).1
    else ((d.listing ch c).sporeCommit t).1.sporeAnswer t ch (if ((d.listing ch c).sporeCommit t).2 then 0 else 8) c := by
  have h : (if (d.heardOn ch).flash.listed.contains c then d.heardOn ch
      else { d.heardOn ch with flash.listed := (d.heardOn ch).flash.listed ++ [c] }) = d.listing ch c := by
    rw [Dev.heardOn_eq]
    unfold Dev.listing Dev.listedWith
    by_cases hc : d.flash.listed.contains c = true
    · rw [if_pos hc, if_pos hc]
    · rw [if_neg hc, if_neg hc]
  unfold Dev.commitFrame
  rw [h]

/-- Every component of a list is COMPLETE. -/
def Dev.allComplete (d : Dev) (l : List Nat) : Bool := l.all (fun y => (d.comp y).state == 3)

theorem Dev.listedWith_isEmpty (d : Dev) (c : Nat) : (d.listedWith c).isEmpty = false := by
  unfold Dev.listedWith
  split
  · next h => exact List.isEmpty_eq_false_iff.mpr (List.ne_nil_of_mem (List.contains_iff_mem.mp h))
  · simp

theorem Dev.listedComplete_listing (d : Dev) (ch : Channel) (c : Nat) :
    (d.listing ch c).listedComplete = d.allComplete (d.listedWith c) := by
  show (!(d.listedWith c).isEmpty && d.allComplete (d.listedWith c)) = _
  rw [d.listedWith_isEmpty c]
  rfl

/-! ## The checks -/

/-- The CHK of component y for a commit of the components of a list. -/
def Dev.commitChk (d : Dev) (l : List Nat) (y : Nat) : Nat :=
  d.checkActivate (fun z => if l.contains z then (d.comp z).other else (d.comp z).active) y (d.comp y).manifest

/-- The components of a list that fail their check. -/
def Dev.failing (d : Dev) (l : List Nat) : List Nat := l.filter (fun y => d.commitChk l y != 0)

theorem Dev.commitFails_eq (d : Dev) :
    d.commitFails = (d.failing d.flash.listed).head?.map (fun y => (y, d.commitChk d.flash.listed y)) := by
  unfold Dev.failing
  rw [List.head?_filter]
  exact List.find?_map

theorem Dev.commitFails_listing (d : Dev) (ch : Channel) (c : Nat) : (d.listing ch c).commitFails =
    (d.failing (d.listedWith c)).head?.map (fun y => (y, d.commitChk (d.listedWith c) y)) := (d.listing ch c).commitFails_eq

/-- The list is empty again. -/
def Dev.unlisted (d : Dev) : Dev := { d with flash.listed := [] }

theorem Dev.comp_unlisted (d : Dev) (y : Nat) : d.unlisted.comp y = d.comp y := rfl

theorem Only.of_unlisted (d : Dev) : Only d d.unlisted [.flash] [] := .of_setFlash d _

/-- A failed check: the component shows its CHK, and the list is empty again. -/
def Dev.commitFailed (d : Dev) (t y chk : Nat) : Dev :=
  ((d.modComp y (fun k => { k with chk := chk })).updEvent t 3).unlisted

theorem Dev.sporeCommit_failed {d : Dev} (t : Nat) (hp : d.phase = .spore) (hc : d.listedComplete = true) {y chk : Nat}
    (h : d.commitFails = some (y, chk)) : d.sporeCommit t = (d.commitFailed t y chk, false) := by
  unfold Dev.sporeCommit
  rw [if_pos ⟨hp, hc⟩, h]
  rfl

theorem Dev.sporeCommit_passed {d : Dev} (t : Nat) (hp : d.phase = .spore) (hc : d.listedComplete = true)
    (h : d.commitFails = none) : d.sporeCommit t =
      ((d.unlisted.activateAll t d.flash.listed).resetSet 2 0 t, true) := by
  unfold Dev.sporeCommit
  rw [if_pos ⟨hp, hc⟩, h]
  rfl

theorem Dev.sporeCommit_open {d : Dev} (t : Nat) (hc : d.listedComplete = false) : d.sporeCommit t = (d, true) := by
  unfold Dev.sporeCommit
  rw [if_neg (by simp [hc])]

/-! ## What a COMMIT leaves -/

/-- What a failed check of component y leaves. -/
structure FailsCheck (d x : Dev) (y chk : Nat) : Prop where
  listed : x.flash.listed = []
  comp : ∀ z, x.comp z = if z = y then { d.comp y with chk := chk } else d.comp z
  bit : x.bit Reg.UPD_STAT 11 = true
  raised : Raised d x 187
  tasks : ∀ m, SameTask d x m
  only : Only d x [.flash, .tasks, .msix] updRegs

theorem FailsCheck.of_commitFailed (d : Dev) (t y chk : Nat) : FailsCheck d (d.commitFailed t y chk) y chk := by
  have hm := Only.of_modComp d y (fun k => { k with chk := chk })
  have hc (z : Nat) := Dev.comp_modComp d y z (fun k => { k with chk := chk })
  unfold Dev.commitFailed
  generalize d.modComp y (fun k => { k with chk := chk }) = k at hm hc
  have he := Only.of_updEvent k t 3
  have ht := SameTask.of_raiseFlag k t 187 Reg.UPD_STAT 11
  have hb := Only.of_setBit k Reg.UPD_STAT 11 true
  have hr := Raised.of_raise (k.setBit Reg.UPD_STAT 11 true) t (i := 187) (by decide)
  have hu := Only.of_raise (k.setBit Reg.UPD_STAT 11 true) t 187
  have hbit : (k.setBit Reg.UPD_STAT 11 true).bit Reg.UPD_STAT 11 = true := Dev.bit_setBit_same k Reg.UPD_STAT true (by decide)
  change Only k ((k.setBit Reg.UPD_STAT 11 true).raise t 187) _ _ at he
  change ∀ m, SameTask k ((k.setBit Reg.UPD_STAT 11 true).raise t 187) m at ht
  change FailsCheck d ((k.setBit Reg.UPD_STAT 11 true).raise t 187).unlisted y chk
  have hbe : ((k.setBit Reg.UPD_STAT 11 true).raise t 187).bit Reg.UPD_STAT 11 = true := by
    rw [Dev.bit, hu.rd (by simp) (by decide)]; exact hbit
  have hrd : Raised d ((k.setBit Reg.UPD_STAT 11 true).raise t 187) 187 :=
    .before ((hm.and hb).awaits (by simp) (by decide)) hr
  generalize (k.setBit Reg.UPD_STAT 11 true).raise t 187 = e at he ht hbe hrd
  have hf := Only.of_unlisted e
  have hce (z : Nat) : e.comp z = k.comp z := he.comp (by simp) z
  exact {
    listed := rfl
    comp := fun z => by rw [Dev.comp_unlisted, hce, hc]
    bit := hbe
    raised := hrd.after (hf.awaits (by simp) (by decide))
    tasks := fun m => (hm.same_task (by simp) m).trans ((ht m).trans (hf.same_task (by simp) m))
    only := ((hm.and he).and hf).more (by decide) (by decide) }

theorem Counted.of_regs {d x e : Dev} {cause : Nat} (h : ∀ off, off < 0x5000 → x.rd off = d.rd off) (k : Counted x e cause) :
    Counted d e cause := by
  have hc : ∀ n, n < 7 → (causeFields.getD n F.SUP_CAUSECNT0_RESETN).off < 0x5000 := by decide
  refine ⟨h Reg.SUP_RSTCNT (by decide) ▸ k.all, fun n hn => ?_, h Reg.WDT_RSTCOUNT (by decide) ▸ k.watchdog⟩
  have hf : x.fld (causeFields.getD n F.SUP_CAUSECNT0_RESETN) = d.fld (causeFields.getD n F.SUP_CAUSECNT0_RESETN) := by
    unfold Dev.fld
    rw [h _ (hc n hn)]
  exact hf ▸ k.each n hn

/-- What a commit whose checks pass leaves: the slots switch, and the device resets. -/
structure Commits (d e : Dev) (t : Nat) (ch : Channel) (c : Nat) : Prop where
  sent : (t, Msg.sporeAck ch (ackBytes d 0 c)) ∈ e.outbox
  phase : e.phase = .reset
  cause : e.rd Reg.SUP_RSTCAUSE = BitVec.ofNat 32 (2 + 4 * 2 ^ 8)
  counted : Counted d e 2
  others : ∀ y, y ∉ d.listedWith c → (e.comp y).activeB = (d.comp y).activeB
  switched : (d.listedWith c).Nodup → ∀ y, y ∈ d.listedWith c →
    (e.comp y).activeB = !(d.comp y).activeB ∧ (e.comp y).state = 4 ∧
    (e.comp y).selfConfirm = !d.imageOk y (d.comp y).active ∧ (e.comp y).winSaved = d.updWindow

section
variable (d : Dev) (t : Nat) {ch : Channel} (c : Nat)

/-- The listed device with its ACK sent and its list taken. -/
def Dev.committing (ch : Channel) : Dev := ((d.listing ch c).sporeAnswer t ch 0 c).unlisted

theorem Commits.of_committing (hs : sporeChannel ch = true) :
    Commits d (((((d.committing t c ch).activateAll t (d.listedWith c)).resetSet 2 0 t).settleOuts t).settle) t ch c := by
  have ha := Acked.of_sporeAnswer hs (d.listing ch c) t 0 c
  have hcsr : (d.committing t c ch).csr = d.csr := by
    obtain ⟨q, -, he⟩ := Dev.sporeAnswer_eq hs (d.listing ch c) t 0 c
    unfold Dev.committing
    rw [he]
    rfl
  have hcomp (y : Nat) : (d.committing t c ch).comp y = d.comp y := (Dev.comp_of_flash ha.flash y).trans rfl
  have hsent : (t, Msg.sporeAck ch (ackBytes d 0 c)) ∈ (d.committing t c ch).outbox := ha.sent
  generalize d.committing t c ch = z at hcsr hcomp hsent
  have hl := AllActivated.of_list t (d.listedWith c) z
  generalize z.activateAll t (d.listedWith c) = a at hl
  have hr := Resets.of_resetSet a t
  generalize ((a.resetSet 2 0 t).settleOuts t).settle = e at hr
  exact {
    sent := hr.sent (hl.sends.sent hsent)
    phase := hr.phase
    cause := hr.cause
    counted := hr.counted.of_regs fun off ho => (hl.sends.regs off (.inl ho)).trans (Dev.rd_of_csr hcsr off)
    others := fun y hy => by rw [hr.comp, hl.others y hy, hcomp]
    switched := fun hn y hy => by
      have hw : z.updWindow = d.updWindow := by unfold Dev.updWindow; rw [Dev.fld_of_csr hcsr]
      rw [hr.comp, hl.switched hn y hy, hcomp, hw, (SameChecks.of_csr hcsr).imageOk]
      exact (d.comp y).activated_fields _ _ }

theorem Only.of_listing (ch : Channel) : Only d (d.listing ch c) [.flash] [] := .of_setFlash d _

variable {d}

/-- A listed component is still to come. -/
theorem Dev.commitFrame_waits (hh : Hears d ch) (hw : d.allComplete (d.listedWith c) = false) :
    Acked (d.listing ch c) ((((d.heardOn ch).commitFrame ch c t).settleOuts t).settle) t ch (ackBytes (d.listing ch c) 0 c) := by
  have hl : (d.listing ch c).listedComplete = false := (d.listedComplete_listing ch c).trans hw
  rw [Dev.commitFrame_heardOn, Dev.sporeCommit_open t hl, if_neg (by simp [hl]), if_pos rfl]
  exact (Acked.of_sporeAnswer hh.2 _ t 0 c).settled t

/-- A listed component fails its check. -/
theorem Dev.commitFrame_fails (hh : Hears d ch) (hw : d.allComplete (d.listedWith c) = true) {y : Nat} {r : List Nat}
    (hf : d.failing (d.listedWith c) = y :: r) :
    Acked ((d.listing ch c).commitFailed t y (d.commitChk (d.listedWith c) y)) ((((d.heardOn ch).commitFrame ch c t).settleOuts t).settle)
      t ch (ackBytes ((d.listing ch c).commitFailed t y (d.commitChk (d.listedWith c) y)) 8 c) := by
  have hp : (d.listing ch c).phase = .spore := hh.1
  have hl : (d.listing ch c).listedComplete = true := (d.listedComplete_listing ch c).trans hw
  have hc : (d.listing ch c).commitFails = some (y, d.commitChk (d.listedWith c) y) := by
    rw [Dev.commitFails_listing, hf]
    rfl
  rw [Dev.commitFrame_heardOn, Dev.sporeCommit_failed t hp hl hc, if_neg (by simp), if_neg (by simp)]
  exact (Acked.of_sporeAnswer hh.2 _ t 8 c).settled t

/-- Every listed component passes its check. -/
theorem Dev.commitFrame_commits (hh : Hears d ch) (hw : d.allComplete (d.listedWith c) = true)
    (hf : d.failing (d.listedWith c) = []) :
    Commits d ((((d.heardOn ch).commitFrame ch c t).settleOuts t).settle) t ch c := by
  have hp : (d.listing ch c).phase = .spore := hh.1
  have hl : (d.listing ch c).listedComplete = true := (d.listedComplete_listing ch c).trans hw
  have hc : (d.listing ch c).commitFails = none := by
    rw [Dev.commitFails_listing, hf]
    rfl
  have ha : ∃ (o : List (Nat × Msg)) (h : HostLink),
      (d.listing ch c).sporeAnswer t ch 0 c = { d.listing ch c with outbox := o, host := h } := by
    obtain ⟨q, -, he⟩ := Dev.sporeAnswer_eq hh.2 (d.listing ch c) t 0 c
    exact ⟨_, _, he⟩
  have hs : ((d.listing ch c).sporeAnswer t ch 0 c).sporeCommit t =
      (((d.committing t c ch).activateAll t (d.listedWith c)).resetSet 2 0 t, true) := by
    unfold Dev.committing
    obtain ⟨o, h, he⟩ := ha
    rw [he]
    exact Dev.sporeCommit_passed t hh.1 hl hc
  rw [Dev.commitFrame_heardOn, Dev.sporeCommit_passed t hp hl hc, if_pos ⟨hl, rfl⟩, hs]
  exact .of_committing d t c hh.2

end

end Sys2Proof.Machine
end

section
/-!
PROOFS. Spore mode (R421, R448): the frames, COMMIT, BAUD and its fallback, HELLO.
-/
namespace Sys2Proof.Machine

/-! ## A commit whose check fails -/

/-- What the ACK of a failed check finds, and leaves. -/
theorem FailsCheck.left {d x e : Dev} {t y chk c : Nat} {ch : Channel} (h : FailsCheck (d.listing ch c) x y chk)
    (k : Acked x e t ch (ackBytes x 8 c)) :
    ((t, Msg.sporeAck ch (ackBytes e 8 c)) ∈ e.outbox ∧ e.repeated ch = some (ackBytes e 8 c)) ∧ e.flash.listed = [] ∧
    e.comp y = { d.comp y with chk := chk } ∧ (∀ z, z ≠ y → e.comp z = d.comp z) ∧ e.bit Reg.UPD_STAT 11 = true ∧
    Raised d e 187 ∧ TasksBut d e [] ∧ Only d e [.flash, .host, .tasks, .msix] updRegs := by
  have hn := Only.of_listing d c ch
  have hl (z : Nat) : (d.listing ch c).comp z = d.comp z := rfl
  have hx (z : Nat) : e.comp z = x.comp z := Dev.comp_of_flash k.flash z
  rw [ackBytes_congr (hx c)]
  refine ⟨⟨k.sent, k.again⟩, (congrArg Flash.listed k.flash).trans h.listed, ?_, fun z hz => ?_, ?_, ?_, fun m _ => ?_, ?_⟩
  · rw [hx, h.comp, if_pos rfl, hl]
  · rw [hx, h.comp, if_neg hz, hl]
  · rw [Dev.bit, k.only.rd (by simp) (by decide)]
    exact h.bit
  · exact .before (hn.awaits (by simp) (by decide)) (h.raised.after (k.only.awaits (by simp) (by decide)))
  · exact (hn.same_task (by simp) m).trans ((h.tasks m).trans (k.only.same_task (by simp) m))
  · exact ((hn.and h.only).and k.only).more (by decide) (by simp)

/-! ## BAUD -/

section
variable {d : Dev} {ch : Channel}

theorem Dev.repeated_none_iff : (d.repeated ch).isNone = true ↔ d.repeated ch = none := Option.isNone_iff_eq_none

/-- A BAUD frame that is not heard, or repeats one. -/
theorem Dev.baudFrame_aside (h : ¬ (Hears d ch ∧ d.repeated ch = none)) (rate t : Nat) :
    d.baudFrame ch rate t = d.sporeFrame ch 0 (fun _ _ d => (d, 0)) t := by
  unfold Dev.baudFrame
  refine if_neg fun k => h ⟨⟨k.1, k.2.1⟩, Dev.repeated_none_iff.mp k.2.2⟩

theorem Dev.baudFrame_new (hh : Hears d ch) (hr : d.repeated ch = none) (rate t : Nat) : d.baudFrame ch rate t =
    if sporeRates.contains rate then
      { (d.heardOn ch).sporeAnswer t ch 0 4 with flash := { ((d.heardOn ch).sporeAnswer t ch 0 4).flash with
          baud := rate, baudBack := if rate = 115200 then none else some (t + 2000000000) } }
    else (d.heardOn ch).sporeAnswer t ch 4 4 := by
  unfold Dev.baudFrame
  exact if_pos ⟨hh.1, hh.2, Dev.repeated_none_iff.mpr hr⟩

/-- R448: what a heard BAUD frame leaves. -/
theorem Dev.baudFrame_taken (hh : Hears d ch) (hr : d.repeated ch = none) (rate t : Nat) (e : Dev)
    (he : e = ((d.baudFrame ch rate t).settleOuts t).settle) :
    ((t, Msg.sporeAck ch (ackBytes d (if sporeRates.contains rate then 0 else 4) 4)) ∈ e.outbox ∧
      e.repeated ch = some (ackBytes d (if sporeRates.contains rate then 0 else 4) 4)) ∧
    e.flash = { d.flash with
      baud := if sporeRates.contains rate then rate else d.flash.baud,
      baudBack := if sporeRates.contains rate then if rate = 115200 then none else some (t + 2000000000)
        else if onUart ch then none else d.flash.baudBack } ∧
    Only d e [.flash, .host] [] := by
  have hn := Only.of_heardOn d ch
  have hf : (d.heardOn ch).flash = { d.flash with baudBack := if onUart ch then none else d.flash.baudBack } := by
    rw [Dev.heardOn_eq]
  rw [Dev.baudFrame_new hh hr] at he
  by_cases hg : sporeRates.contains rate = true
  · have ha := Acked.of_sporeAnswer hh.2 (d.heardOn ch) t 0 4
    rw [if_pos hg] at he
    simp only [hg, if_true]
    rw [← ackBytes_congr (d.comp_heardOn ch 4) 0]
    generalize (d.heardOn ch).sporeAnswer t ch 0 4 = x at ha he
    have hs := Only.of_setFlash x { x.flash with baud := rate, baudBack := if rate = 115200 then none else some (t + 2000000000) }
    have hk := Spares.settled { x with flash := { x.flash with
      baud := rate, baudBack := if rate = 115200 then none else some (t + 2000000000) } } t
    rw [← he] at hk
    refine ⟨⟨hk.sent ha.sent, ?_⟩, ?_, ?_⟩
    · rw [he, ← ha.again]
      exact Dev.repeated_of_host (Aside.settled _ t).host ch
    · rw [hk.flash]
      show ({ x.flash with baud := rate, baudBack := _ } : Flash) = _
      rw [ha.flash, hf]
    · rw [he]
      exact (((hn.and ha.only).and hs).more (by simp) (by simp)).settled t
  · have ha := (Acked.of_sporeAnswer hh.2 (d.heardOn ch) t 4 4).settled t
    rw [if_neg hg] at he
    rw [← he, ackBytes_congr (d.comp_heardOn ch 4) 4] at ha
    simp only [hg]
    exact ⟨⟨ha.sent, ha.again⟩, ha.flash.trans hf, hn.and ha.only⟩

end

theorem hears_upTo (d : Dev) (t : Nat) (ch : Channel) :
    (decide (d.phase = .spore) && sporeChannel ch) = true ↔ Hears (d.upTo t) ch := by
  have hp : (d.upTo t).phase = d.phase := Dev.upTo_keeps Dev.phase (by constructor <;> exact fun _ _ => rfl) d t
  unfold Hears
  rw [hp, Bool.and_eq_true, decide_eq_true_iff]

theorem Dev.repeated_upTo (d : Dev) (t : Nat) (ch : Channel) : (d.upTo t).repeated ch = d.repeated ch :=
  Dev.repeated_of_host (Dev.upTo_keeps Dev.host (by constructor <;> exact fun _ _ => rfl) d t) ch

/-! ## COMMIT -/

/-- What COMMIT does at its instant. -/
def Dev.commitCommand (ch : Channel) (comp : Nat) (t : Nat) (d : Dev) : Dev :=
  if d.phase = .spore ∧ sporeChannel ch ∧ (d.repeated ch).isNone ∧ 1 ≤ comp ∧ comp ≤ 4 then
    (d.heardOn ch).commitFrame ch (comp - 1) t
  else d.sporeFrame ch comp (fun _ _ d => (d, 0)) t

theorem exec_sporeCommit (s : State) (dt : Nat) (ch : Channel) (comp : BitVec 4) :
    exec (.sporeCommit dt ch comp) s = s.event dt (Dev.commitCommand ch comp.toNat) := rfl

section
variable {d : Dev} {ch : Channel} {comp t : Nat}

theorem Dev.commitCommand_new (hh : Hears d ch) (hr : d.repeated ch = none) (hc : 1 ≤ comp ∧ comp ≤ 4) :
    d.commitCommand ch comp t = (d.heardOn ch).commitFrame ch (comp - 1) t :=
  if_pos ⟨hh.1, hh.2, Dev.repeated_none_iff.mpr hr, hc⟩

theorem Dev.commitCommand_aside (h : ¬ (Hears d ch ∧ d.repeated ch = none ∧ 1 ≤ comp ∧ comp ≤ 4)) :
    d.commitCommand ch comp t = d.sporeFrame ch comp (fun _ _ d => (d, 0)) t :=
  if_neg fun k => h ⟨⟨k.1, k.2.1⟩, Dev.repeated_none_iff.mp k.2.2.1, k.2.2.2⟩

end

/-! ## The obligation -/

/-- Settles O52: a frame is heard, and then stands aside or takes effect on the component that it names; COMMIT by its checks. -/
theorem sporeMode : Obligations.SporeMode := by
  intro s dt ch comp index rate l now c named live old ack sent answered heard others entry regs aside turned ha
  have hlive : live = true ↔ Hears (s.dev.upTo now) ch := hears_upTo s.dev now ch
  have hold : (s.dev.upTo now).repeated ch = old := s.dev.repeated_upTo now ch
  have hnamed : named = true ↔ 1 ≤ comp.toNat ∧ comp.toNat ≤ 4 := by simp [named]
  have hdead (h : live = false) : ¬ Hears (s.dev.upTo now) ch := fun k => by simp [hlive.mpr k] at h
  have hnone (h : named = false) : ¬ (1 ≤ comp.toNat ∧ comp.toNat ≤ 4) := fun k => by simp [hnamed.mpr k] at h
  have asideOf {f} {e : Dev} (h : FrameTaken (s.dev.upTo now) e now ch comp.toNat f)
      (hf : ∀ x, (f (comp.toNat - 1) now x).1.flash.baudBack = x.flash.baudBack) : aside (s.dev.upTo now) e :=
    ⟨fun k => h.unheard (hdead k),
      fun k b hb => ⟨(h.aside.again (hlive.mp k) b (hold.trans hb)).1, (h.aside.again (hlive.mp k) b (hold.trans hb)).2⟩,
      fun k => h.heard hf (hlive.mp k)⟩
  have turnedOf {f} {e : Dev} (h : FrameTaken (s.dev.upTo now) e now ch comp.toNat f) : turned (s.dev.upTo now) e := fun k ho hn =>
    have w := h.turned (hlive.mp k) (hold.trans ho) (hnone hn)
    ⟨w.acked, w.comp, w.only⟩
  refine ⟨?manifest, ?data, ?status, ?commit, ?baud, ?fallback, fun h => ?noFallback, ?hello, fun h => ?noHello⟩
  case manifest =>
    refine .of_event rfl ha ?_
    have h := FrameTaken.of_sporeFrame (s.dev.upTo now) now ch comp.toNat
      (fun c t d => d.manifestPart t (chClass ch) c index.toNat l)
    refine ⟨asideOf h fun x => (PartTaken.of_manifestPart x _ _ _ _ _).baud, turnedOf h, fun k ho hn => ?_⟩
    exact h.manifest (hlive.mp k) (hold.trans ho) (hnamed.mp hn)
  case data =>
    refine .of_event rfl ha ?_
    have h := FrameTaken.of_sporeFrame (s.dev.upTo now) now ch comp.toNat (fun c t d => d.dataBlock t c index.toNat l)
    refine ⟨asideOf h fun x => (BlockTaken.of_dataBlock x _ _ _ _).baud, turnedOf h, fun k ho hn => ?_⟩
    obtain ⟨hs, hq, hc, ht, hl⟩ := h.data (hlive.mp k) (hold.trans ho) (hnamed.mp hn)
    exact ⟨hs, hq, hc _, fun y _ => hc y, ht, hl⟩
  case status =>
    refine .of_event rfl ha ?_
    have h := FrameTaken.of_sporeFrame (s.dev.upTo now) now ch comp.toNat (fun _ _ d => (d, 0))
    refine ⟨asideOf h fun _ => rfl, turnedOf h, fun k ho hn => ?_⟩
    have w := (h.named (hlive.mp k) (hold.trans ho) (hnamed.mp hn)).answers (.of_heardOn _ ch) (Dev.comp_heardOn _ ch)
    exact ⟨w.acked, w.comp, w.only⟩
  case commit =>
    refine .of_event (exec_sporeCommit s dt ch comp) ha ?_
    by_cases hk : Hears (s.dev.upTo now) ch ∧ (s.dev.upTo now).repeated ch = none ∧ 1 ≤ comp.toNat ∧ comp.toNat ≤ 4
    · obtain ⟨hh, hr, hc⟩ := hk
      rw [Dev.commitCommand_new hh hr hc]
      refine ⟨fun k => absurd hh (hdead k), fun _ b hb => by simp [hr] at hold; simp [← hold] at hb,
        fun _ _ hn => absurd hc (hnone hn), ?_, ?_⟩
      · intro _ _ _ hw
        have k := Dev.commitFrame_waits now c hh hw
        have w := k.answers (.of_listing _ c ch) (fun _ => rfl)
        exact ⟨w.acked, congrArg Flash.baudBack k.flash, congrArg Flash.listed k.flash, w.comp, w.only⟩
      · intro _ _ _ hw
        refine ⟨fun y r hf => ?_, fun hf => ?_⟩
        · exact (FailsCheck.of_commitFailed _ now y _).left (Dev.commitFrame_fails now c hh hw hf)
        · have k := Dev.commitFrame_commits now c hh hw hf
          refine ⟨k.sent, k.phase, k.cause, k.counted, fun y hy => k.others y fun hm =>
            Bool.false_ne_true (hy.symm.trans (List.contains_iff_mem.mpr hm)), fun hn y hy => ?_⟩
          exact k.switched (nodup_of_eraseDups hn) y (List.contains_iff_mem.mp hy)
    · rw [Dev.commitCommand_aside hk]
      have h := FrameTaken.of_sporeFrame (s.dev.upTo now) now ch comp.toNat (fun _ _ d => (d, 0))
      have haside := asideOf h fun _ => rfl
      have hnot : live = true → old = none → named = true → False := fun k ho hn => hk ⟨hlive.mp k, hold.trans ho, hnamed.mp hn⟩
      exact ⟨haside.1, haside.2.1, turnedOf h, fun k ho hn => (hnot k ho hn).elim, fun k ho hn => (hnot k ho hn).elim⟩
  case baud =>
    refine .of_event (f := Dev.baudFrame ch rate.toNat) rfl ha ?_
    by_cases hk : Hears (s.dev.upTo now) ch ∧ (s.dev.upTo now).repeated ch = none
    · obtain ⟨hh, hr⟩ := hk
      have k := Dev.baudFrame_taken hh hr rate.toNat now _ rfl
      exact ⟨fun k => absurd hh (hdead k), fun _ b hb => by simp [hr] at hold; simp [← hold] at hb, fun _ _ => k⟩
    · rw [Dev.baudFrame_aside hk]
      have h := FrameTaken.of_sporeFrame (s.dev.upTo now) now ch 0 (fun _ _ d => (d, 0))
      refine ⟨fun k => h.unheard (hdead k), fun k b hb => ?_, fun k ho => absurd ⟨hlive.mp k, hold.trans ho⟩ hk⟩
      obtain ⟨hs, hb', ho⟩ := h.aside.again (hlive.mp k) b (hold.trans hb)
      have hf := (h.again (hlive.mp k) b (hold.trans hb)).2.1
      refine ⟨hs, hb', ?_, ho⟩
      rw [hf, Dev.heardOn_eq]
  case fallback =>
    intro x hx
    refine .of_at (due := x) (f := fun _ d => { d with flash.baud := 115200, flash.baudBack := none }) ?_ ha ?_
    · show execBaudFallback s = _
      unfold execBaudFallback
      rw [hx]
    · exact ⟨(Spares.settled _ _).flash, (Only.of_setFlash _ _).settled _⟩
  case noFallback =>
    show execBaudFallback s = _
    unfold execBaudFallback
    rw [h]
  case hello =>
    intro x hx
    refine .of_at (due := x) (f := fun t d =>
      if d.phase = .spore then { d.send t d.helloFrame with flash.helloAt := some (t + 1000000000) } else d) ?_ ha ?_
    · show execSporeHello s = _
      unfold execSporeHello
      rw [hx]
    · refine ⟨fun hp => ?_, fun hp => ?_⟩
      · rw [if_pos hp]
        generalize s.dev.upTo (max s.mono x) = d
        have hs := Spares.settled { d.send (max s.mono x) d.helloFrame with flash := { d.flash with
          helloAt := some (max s.mono x + 1000000000) } } (max s.mono x)
        exact ⟨hs.sent List.mem_cons_self, hs.flash,
          (((Only.of_send d _ _).more (by simp) (by simp)).trans (.of_setFlash _ _)).settled _⟩
      · rw [if_neg hp]
        exact (Only.refl _ [] []).settled _
  case noHello =>
    show execSporeHello s = _
    unfold execSporeHello
    rw [h]

end Sys2Proof.Machine
end

section
/-!
SUPPORT. The input latch of a run (R47, R49): the generations that close, the words that it copies, and its charge.
-/
namespace Sys2Proof.Machine

/-! ## The generations that close (R47) -/

theorem Only.of_closeGen (d : Dev) : Only d d.closeGen [.images, .io] [Reg.IMG_GEN] := by
  have h (t : Nat) (im : Image) : Only d { d.enterSets t with mem := { (d.enterSets t).mem with
      inNext := im, inCur := im, gens := d.mem.gens + 1 } } [.images, .io] [] :=
    .of_part (fun p hp => by cases p <;> simp [Part.same, Dev.enterSets] at hp ⊢) rfl
  exact ((h _ _).and (.of_incWrap _ Reg.IMG_GEN)).more (by simp) (by simp)

theorem Only.of_closeGens (t k : Nat) (d : Dev) : Only d (Dev.closeGens t k d) [.images, .io] [Reg.IMG_GEN] := by
  induction k generalizing d with
  | zero => exact .refl d _ _
  | succ k ih => exact .of_ite (fun _ => (Only.of_closeGen d).trans (ih _)) fun _ => .refl d _ _

theorem Dev.gens_closeGens (t k : Nat) (d : Dev) (h : t / 1000 - d.mem.gens = k) :
    (Dev.closeGens t k d).mem.gens = max d.mem.gens (t / 1000) := by
  induction k generalizing d with
  | zero =>
    show d.mem.gens = _
    omega
  | succ k ih =>
    have hg : d.closeGen.mem.gens = d.mem.gens + 1 := rfl
    unfold Dev.closeGens
    rw [if_pos (by omega), ih _ (by rw [hg]; omega), hg]
    omega

/-! ## The words that the latch copies (R49) -/

section
variable (c : Nat) (out : Bool) (im : Image)

theorem shadowAddr_apart {w v : Nat} (h : w ≠ v) :
    shadowAddr c out w + 8 ≤ shadowAddr c out v ∨ shadowAddr c out v + 8 ≤ shadowAddr c out w := by
  unfold shadowAddr
  omega

/-- A copied word holds the word of the image. -/
theorem rdLE_copyToShadow (ws : List Nat) (m : Memory) {w : Nat}
    (h : w ∈ ws ∨ Memory.rdLE m (shadowAddr c out w) 8 = (Image.rd im w).toNat) :
    Memory.rdLE (copyToShadow c out im m ws) (shadowAddr c out w) 8 = (Image.rd im w).toNat := by
  induction ws generalizing m with
  | nil => exact h.resolve_left List.not_mem_nil
  | cons v ws ih =>
    refine ih _ ?_
    by_cases hv : w = v
    · subst hv
      right
      rw [Memory.rdLE_wrLE]
      exact Nat.mod_eq_of_lt (Image.rd im w).isLt
    · refine (h.imp_left fun hm => (List.mem_cons.mp hm).resolve_left hv).imp_right fun hr => ?_
      rw [Memory.rdLE_wrLE_ne _ _ (shadowAddr_apart c out hv), hr]

/-- The words of the output shadow lie apart from those of the input shadow. -/
theorem rdLE_copyToShadow_output (ws : List Nat) (m : Memory) {w : Nat} (h : w < 16384) :
    Memory.rdLE (copyToShadow c true im m ws) (shadowAddr c false w) 8 = Memory.rdLE m (shadowAddr c false w) 8 := by
  induction ws generalizing m with
  | nil => rfl
  | cons v ws ih =>
    refine (ih _).trans (Memory.rdLE_wrLE_ne _ _ (.inl ?_))
    show c * 0x40000 + 0 * 0x20000 + 8 * w + 8 ≤ c * 0x40000 + 1 * 0x20000 + 8 * v
    omega

end

/-! ## Regions (R49) -/

/-- The registers of regions and of what tasks select are the same in two devices. -/
def SameRegions (d e : Dev) : Prop := ∀ off, 0x13100 ≤ off → off < 0x14000 → e.rd off = d.rd off

section
variable {d e : Dev} {n : Nat}

theorem SameRegions.rgn (h : SameRegions d e) {k : Nat} (hk : k < 512) (f : Fld) (hf : f.off = Reg.IMG_RGN k) : e.fld f = d.fld f := by
  unfold Dev.fld
  rw [hf, h _ (by unfold Reg.IMG_RGN; omega) (by unfold Reg.IMG_RGN; omega)]

theorem SameRegions.trgn (h : SameRegions d e) (hn : n < 64) (f : Fld) (hf : f.off = Reg.IMG_TRGN n) : e.fld f = d.fld f := by
  unfold Dev.fld
  rw [hf, h _ (by unfold Reg.IMG_TRGN; omega) (by unfold Reg.IMG_TRGN; omega)]

theorem SameRegions.inRegions (h : SameRegions d e) (hn : n < 64) : e.inRegions n = d.inRegions n := by
  unfold Dev.inRegions
  rw [h.trgn hn (F.IMG_TRGN_IN_CNT n) rfl, h.trgn hn (F.IMG_TRGN_IN_FIRST n) rfl]

theorem SameRegions.outRegions (h : SameRegions d e) (hn : n < 64) : e.outRegions n = d.outRegions n := by
  unfold Dev.outRegions
  rw [h.trgn hn (F.IMG_TRGN_OUT_CNT n) rfl, h.trgn hn (F.IMG_TRGN_OUT_FIRST n) rfl]

/-- At most 15 regions, of numbers below 270. -/
theorem Dev.regions_bound (d : Dev) (first cnt : Fld) (hf : first.hi + 1 - first.lo = 8) (hc : cnt.hi + 1 - cnt.lo = 4) :
    ((List.range (d.fld cnt)).map (d.fld first + ·)).length ≤ 15 ∧
      ∀ k ∈ (List.range (d.fld cnt)).map (d.fld first + ·), k < 512 := by
  have h1 : d.fld cnt < 2 ^ 4 := hc ▸ Nat.mod_lt _ (Nat.two_pow_pos _)
  have h2 : d.fld first < 2 ^ 8 := hf ▸ Nat.mod_lt _ (Nat.two_pow_pos _)
  refine ⟨by rw [List.length_map, List.length_range]; omega, fun k hk => ?_⟩
  obtain ⟨i, hi, rfl⟩ := List.mem_map.mp hk
  have := List.mem_range.mp hi
  omega

theorem Dev.inRegions_bound (d : Dev) (n : Nat) : (d.inRegions n).length ≤ 15 ∧ ∀ k ∈ d.inRegions n, k < 512 :=
  d.regions_bound _ _ rfl rfl

theorem Dev.outRegions_bound (d : Dev) (n : Nat) : (d.outRegions n).length ≤ 15 ∧ ∀ k ∈ d.outRegions n, k < 512 :=
  d.regions_bound _ _ rfl rfl

theorem Dev.preRegions_bound (d : Dev) (n : Nat) : (d.preRegions n).length ≤ 15 ∧ ∀ k ∈ d.preRegions n, k < 512 :=
  ⟨Nat.le_trans (List.length_filter_le _ _) (d.outRegions_bound n).1, fun k hk => (d.outRegions_bound n).2 k (List.mem_filter.mp hk).1⟩

theorem SameRegions.preRegions (h : SameRegions d e) (hn : n < 64) : e.preRegions n = d.preRegions n := by
  unfold Dev.preRegions
  rw [h.outRegions hn]
  refine List.filter_congr fun k hk => ?_
  unfold Dev.flag
  rw [h.rgn ((d.outRegions_bound n).2 k hk) (F.IMG_RGN_PRELOAD k) rfl]

theorem SameRegions.rgnLen (h : SameRegions d e) {k : Nat} (hk : k < 512) : e.rgnLen k = d.rgnLen k := by
  unfold Dev.rgnLen
  rw [h.rgn hk (F.IMG_RGN_LENM1 k) rfl]

theorem SameRegions.rgnWords (h : SameRegions d e) {k : Nat} (hk : k < 512) : e.rgnWords k = d.rgnWords k := by
  unfold Dev.rgnWords Dev.rgnOff
  rw [h.rgnLen hk, h.rgn hk (F.IMG_RGN_OFFSET k) rfl]

theorem SameRegions.wIn (h : SameRegions d e) (hn : n < 64) : e.wIn n = d.wIn n := by
  unfold Dev.wIn
  rw [h.inRegions hn]
  exact congrArg List.sum (List.map_congr_left fun k hk => h.rgnLen ((d.inRegions_bound n).2 k hk))

theorem SameRegions.wPre (h : SameRegions d e) (hn : n < 64) : e.wPre n = d.wPre n := by
  unfold Dev.wPre
  rw [h.preRegions hn]
  exact congrArg List.sum (List.map_congr_left fun k hk => h.rgnLen ((d.preRegions_bound n).2 k hk))

/-- A sum of numbers that are each at most b. -/
theorem sum_le_length_mul {l : List Nat} {b : Nat} (h : ∀ x ∈ l, x ≤ b) : l.sum ≤ l.length * b := by
  induction l with
  | nil => exact Nat.zero_le _
  | cons x l ih =>
    rw [List.sum_cons, List.length_cons, Nat.succ_mul, Nat.add_comm]
    exact Nat.add_le_add (ih fun y hy => h y (List.mem_cons_of_mem _ hy)) (h x List.mem_cons_self)

theorem Dev.sum_rgnLen_le (d : Dev) {l : List Nat} (h : l.length ≤ 15) : (l.map d.rgnLen).sum ≤ 15 * 16384 := by
  have hk : ∀ x ∈ l.map d.rgnLen, x ≤ 16384 := fun x hx => by
    obtain ⟨k, -, rfl⟩ := List.mem_map.mp hx
    have h : d.fld (F.IMG_RGN_LENM1 k) < 2 ^ 14 := Nat.mod_lt _ (Nat.two_pow_pos _)
    unfold Dev.rgnLen
    omega
  refine Nat.le_trans (sum_le_length_mul hk) ?_
  rw [List.length_map]
  exact Nat.mul_le_mul_right _ h

theorem Dev.latch_le (d : Dev) (n : Nat) : d.wIn n + d.wPre n ≤ 491520 :=
  Nat.add_le_add (d.sum_rgnLen_le (d.inRegions_bound n).1) (d.sum_rgnLen_le (d.preRegions_bound n).1)

end

end Sys2Proof.Machine
end

section
/-!
SUPPORT. The steps of a dispatch (R44 to R49, R56): the latch, and the task that is taken.
-/
namespace Sys2Proof.Machine

theorem Only.sameRegions {d e : Dev} {l : List Part} {r : List Nat} (h : Only d e l r) (hl : Part.csr ∉ l)
    (hr : ∀ o ∈ r, o < 0x13100 ∨ 0x14000 ≤ o) : SameRegions d e := fun off h1 h2 => h.rd hl fun hm => by
  rcases List.mem_append.mp hm with hm | hm
  · have := hr off hm
    omega
  · simp only [Reg.INT_FIRST, Reg.BIO_BO0, Reg.BIO_BO1, List.mem_cons, List.not_mem_nil, or_false] at hm
    omega

theorem Only.of_setData (d : Dev) (m : Memory) : Only d { d with mem := { d.mem with data := m } } [.data] [] :=
  .of_part (fun p hp => by cases p <;> simp [Part.same] at hp ⊢) rfl

theorem Only.of_setShadow (d : Dev) (m : Memory) : Only d { d with mem := { d.mem with shadow := m } } [.shadow] [] :=
  .of_part (fun p hp => by cases p <;> simp [Part.same] at hp ⊢) rfl

/-- The address in data memory of the task context of task n on core c. -/
def Dev.contextAddr (d : Dev) (c n : Nat) : Nat := dataAddr c (0x10000000 + d.fld (F.TSK_CODE_DBASE n) * 2048)

/-! ## The latch (R47, R49) -/

/-- The shadow of core c once the latch of task n has copied its words. -/
def Dev.latchedShadow (d : Dev) (c n : Nat) : Memory :=
  copyToShadow c true d.mem.out (copyToShadow c false d.mem.inCur d.mem.shadow ((d.inRegions n).flatMap d.rgnWords))
    ((d.preRegions n).flatMap d.rgnWords)

theorem Dev.latchInputs_eq (d : Dev) (c n : Nat) : d.latchInputs c n =
    ({ d with mem := { d.mem with shadow := d.latchedShadow c n } }).charge c n (24 + d.wIn n + d.wPre n) := rfl

theorem Dev.rdLE_latchedShadow (d : Dev) (c : Nat) {n k w : Nat} (hk : k ∈ d.inRegions n) (hw : w ∈ d.rgnWords k) (hl : w < 16384) :
    Memory.rdLE (d.latchedShadow c n) (shadowAddr c false w) 8 = (Image.rd d.mem.inCur w).toNat := by
  unfold Dev.latchedShadow
  rw [rdLE_copyToShadow_output c _ _ _ hl, rdLE_copyToShadow c false _ _ _ (.inl (List.mem_flatMap.mpr ⟨k, hk, hw⟩))]

/-- R46, R47: the generations that have closed by the latch of task n on core c, and TC_GEN. -/
def Dev.genTaken (d : Dev) (c n : Nat) : Dev :=
  (Dev.closeGens (d.core c).time ((d.core c).time / 1000 - d.mem.gens) d).writeGen c n

/-- What they leave. -/
structure GenTaken (d x : Dev) (c n : Nat) : Prop where
  cores : x.cores = d.cores
  regions : SameRegions d x
  used : x.rd (Reg.TSK_USED n) = d.rd (Reg.TSK_USED n)
  data : x.mem.data = Memory.wr32 d.mem.data (d.contextAddr c n + 8) (x.rd Reg.IMG_GEN)
  gens : x.mem.gens = max d.mem.gens ((d.core c).time / 1000)
  only : Only d x [.data, .images, .io] [Reg.IMG_GEN]

theorem GenTaken.of_genTaken (d : Dev) (c n : Nat) : GenTaken d (d.genTaken c n) c n := by
  have hg := Only.of_closeGens (d.core c).time ((d.core c).time / 1000 - d.mem.gens) d
  have hgens := Dev.gens_closeGens (d.core c).time ((d.core c).time / 1000 - d.mem.gens) d rfl
  unfold Dev.genTaken
  generalize Dev.closeGens (d.core c).time ((d.core c).time / 1000 - d.mem.gens) d = g at hg hgens
  have hgd : g.mem.data = d.mem.data := hg.parts .data (by decide)
  have hf {off : Nat} (ho : off % 0x20 = 0x10 ∨ off % 0x20 = 0x1c) : g.rd off = d.rd off := hg.rd (by decide) (by
    simp only [Reg.IMG_GEN, Reg.INT_FIRST, Reg.BIO_BO0, Reg.BIO_BO1, List.mem_append, List.mem_cons, List.not_mem_nil, or_false]
    omega)
  have haddr : g.contextAddr c n = d.contextAddr c n := by
    have hc : g.fld (F.TSK_CODE_DBASE n) = d.fld (F.TSK_CODE_DBASE n) := by
      unfold Dev.fld
      rw [hf (.inr (by simp only [F.TSK_CODE_DBASE, Reg.TSK_CODE]; omega))]
    unfold Dev.contextAddr
    rw [hc]
  have hw : Only g (g.writeGen c n) [.data] [] := .of_setData g _
  exact {
    cores := hg.cores (by decide)
    regions := (hg.and hw).sameRegions (by decide) (by decide)
    used := hf (.inl (by unfold Reg.TSK_USED; omega))
    data := by
      rw [← haddr, ← hgd]
      rfl
    gens := hgens
    only := (hg.and hw).more (by decide) (by simp) }

/-- What the latch of run r on core c leaves. -/
structure Latched (d e : Dev) (c : Nat) (r : Run) : Prop where
  runs : (e.core c).runs = { r with stage := .logic } :: (d.core c).runs.drop 1
  waiting : (e.core c).waiting = (d.core c).waiting
  time : (e.core c).time = (d.core c).time + (24 + d.wIn r.task + d.wPre r.task)
  banks : ∀ k, e.bank c k = d.bank c k
  cores : ∀ k, k ≠ c → e.core k = d.core k
  used : e.rd (Reg.TSK_USED r.task) =
    BitVec.ofNat 32 (min 0xFFFFFFFF ((d.rd (Reg.TSK_USED r.task)).toNat + (24 + d.wIn r.task + d.wPre r.task)))
  data : e.mem.data = Memory.wr32 d.mem.data (d.contextAddr c r.task + 8) (e.rd Reg.IMG_GEN)
  inputs : ∀ k ∈ d.inRegions r.task, ∀ w ∈ d.rgnWords k, w < 16384 →
    Memory.rdLE e.mem.shadow (shadowAddr c false w) 8 = (Image.rd e.mem.inCur w).toNat
  gens : e.mem.gens = max d.mem.gens ((d.core c).time / 1000)
  only : Only d e [.cores, .data, .shadow, .images, .io] [Reg.TSK_USED r.task, Reg.IMG_GEN]

theorem Latched.of_latchStep (d : Dev) (c : Nat) (r : Run) (hn : r.task < 64) : Latched d (d.latchStep c r) c r := by
  have hx := GenTaken.of_genTaken d c r.task
  have he : d.latchStep c r = ((d.genTaken c r.task).latchInputs c r.task).setStage c r .logic := rfl
  rw [he]
  generalize d.genTaken c r.task = x at hx
  have hcore (k : Nat) : x.core k = d.core k := Dev.core_of_cores hx.cores k
  have hin {k w : Nat} (hk : k ∈ d.inRegions r.task) (hw : w ∈ d.rgnWords k) (hl : w < 16384) :
      Memory.rdLE (x.latchedShadow c r.task) (shadowAddr c false w) 8 = (Image.rd x.mem.inCur w).toNat :=
    x.rdLE_latchedShadow c (hx.regions.inRegions hn ▸ hk) (by rw [hx.regions.rgnWords ((d.inRegions_bound r.task).2 k hk)]; exact hw) hl
  rw [Dev.latchInputs_eq, hx.regions.wIn hn, hx.regions.wPre hn]
  generalize x.latchedShadow c r.task = sh at hin
  have hs := Only.of_setShadow x sh
  have hg : Reg.IMG_GEN ≠ Reg.TSK_USED r.task := by unfold Reg.IMG_GEN Reg.TSK_USED; omega
  exact {
    runs := by
      rw [Dev.setStage_core, if_pos rfl, Dev.charge_core, Core.spend_runs]
      exact congrArg (fun k : Core => _ :: k.runs.drop 1) (hcore c)
    waiting := by
      rw [Dev.setStage_core, if_pos rfl, Dev.charge_core]
      exact (Core.spend_waiting _ _).trans (congrArg Core.waiting (hcore c))
    time := by
      rw [Dev.setStage_core, if_pos rfl, Dev.charge_core]
      exact (Core.spend_time _ _).trans (congrArg (fun k : Core => k.time + _) (hcore c))
    banks := fun k => by
      unfold Dev.bank
      rw [Dev.setStage_core, if_pos rfl, Dev.charge_core]
      exact congrArg (fun b => Sparse.get _ b k) ((Core.spend_banks _ _).trans (congrArg Core.banks (hcore c)))
    cores := fun k hk => by rw [Dev.setStage_core, if_neg hk, Dev.charge_core_ne _ _ _ hk]; exact hcore k
    used := by
      have hr : ({ x with mem := { x.mem with shadow := sh } } : Dev).rd (Reg.TSK_USED r.task) = d.rd (Reg.TSK_USED r.task) := hx.used
      rw [← hr]
      exact Dev.rd_charge _ _ _ _
    data := by
      have hr : ((({ x with mem := { x.mem with shadow := sh } } : Dev).charge c r.task (24 + d.wIn r.task + d.wPre r.task)).setStage c r
          .logic).rd Reg.IMG_GEN = x.rd Reg.IMG_GEN := Dev.rd_wr_ne _ _ hg
      rw [hr, ← hx.data]
      rfl
    inputs := fun k hk w hw hl => hin hk hw hl
    gens := hx.gens
    only := (((hx.only.and hs).and (.of_charge _ c r.task _)).and (.of_setCore _ c _)).more (by decide) (by simp) }

end Sys2Proof.Machine
end

section
/-!
SUPPORT. The task that is taken (R44 to R46, R54, R56, R64): its run, its bank, its state and its context, up to the latch.
-/
namespace Sys2Proof.Machine

/-! ## The steps of a dispatch before the latch -/

/-- The release of task n has its run number, and is READY no more. -/
def Dev.noted (d : Dev) (n : Nat) (r : Release) : Dev :=
  (d.noteRelease n r.station ((d.task n).runNo + 1)).modTask n (fun k => { k with runNo := (d.task n).runNo + 1, ready := none })

/-- The run below is PREEMPTED. -/
def Dev.lowered (d : Dev) : List Run → Dev
  | below :: _ => d.setSt below.task 4
  | [] => d

/-- The run that a dispatch of task n makes. -/
def Dev.newRun (d : Dev) (n : Nat) (r : Release) (st : Stage) : Run :=
  { task := n, bank := d.fld (F.TSK_CFG_BANK n), rel := r, stage := st }

/-- The run of task n is on core c at MONO t, with its bank, and RUNNING. -/
def Dev.placed (d : Dev) (c n : Nat) (r : Release) (t : Nat) (st : Stage) : Dev :=
  let d := d.setCore c { d.core c with time := t, waiting := none, runs := d.newRun n r st :: (d.core c).runs }
  (d.setBank c (d.fld (F.TSK_CFG_BANK n)) (d.bankAtDispatch n)).setSt n 3

/-- TSK_STATE.LATE, and the ticks of the dispatch. -/
def Dev.charged (d : Dev) (c n : Nat) (late : Bool) (cost : Nat) : Dev :=
  ((d.setFld (F.TSK_STATE_LATE n) (b2n late)).wr (Reg.TSK_USED n) 0).charge c n cost

/-- What the context has shown once is gone. -/
def Task.shown (k : Task) : Task := { k with first := false, exch := false, resume := false, skips := 0 }

theorem Dev.switchAtRun_none (d : Dev) (t : Nat) {n : Nat} (run : Word) (h : Sparse.get (fun _ => none) d.xch.switchAt n = none) :
    d.switchAtRun t n run = d := by
  unfold Dev.switchAtRun
  rw [h]

/-- The stage with which a run of task n begins. -/
def Dev.firstStage (d : Dev) (n : Nat) (ecc : Option Nat) : Stage := if (d.carryOf n).isSome then .carry ecc else .latch

/-- The task taken once an exchange has switched it. -/
def Dev.take (d : Dev) (c n : Nat) (r : Release) (t cost : Nat) (ecc : Option Nat) : Dev :=
  let y := (d.noted n r).lowered (d.core c).runs
  (((y.placed c n r t (y.firstStage n ecc)).charged c n r.late cost).writeContext c n r).modTask n Task.shown

theorem Dev.dispatchTask_eq (d : Dev) (c n : Nat) (r : Release) (t cost : Nat) (ecc : Option Nat)
    (h : Sparse.get (fun _ => none) d.xch.switchAt n = none) : d.dispatchTask c n r t cost ecc = d.take c n r t cost ecc := by
  have hs := Dev.switchAtRun_none d t ((d.task n).runNo + 1) h
  unfold Dev.dispatchTask
  dsimp only
  rw [hs]
  unfold Dev.take
  have hr : ((d.noted n r).core c).runs = (d.core c).runs := rfl
  unfold Dev.noted at hr ⊢
  rw [hr]
  cases (d.core c).runs <;> rfl

/-! ## What they leave -/

/-- The registers are the same but for states of tasks and the ticks of task n. -/
def RegsBut (d e : Dev) (n : Nat) : Prop := ∀ off, off % 0x20 ≠ 0x14 → off ≠ Reg.TSK_USED n → e.rd off = d.rd off

theorem TSK_STATE_mod (n : Nat) : Reg.TSK_STATE n % 0x20 = 0x14 := by unfold Reg.TSK_STATE; omega

theorem RegsBut.of_setFld (d : Dev) (n : Nat) (f : Fld) (v : Nat) (h : f.off % 0x20 = 0x14) : RegsBut d (d.setFld f v) n :=
  fun _ h1 _ => Dev.rd_setFld_ne d _ (fun he => h1 (he ▸ h))

theorem RegsBut.of_setSt (d : Dev) (n m st : Nat) : RegsBut d (d.setSt m st) n :=
  RegsBut.of_setFld d n (F.TSK_STATE_ST m) st (TSK_STATE_mod m)

theorem RegsBut.trans {d e f : Dev} {n : Nat} (h : RegsBut d e n) (k : RegsBut e f n) : RegsBut d f n :=
  fun off h1 h2 => (k off h1 h2).trans (h off h1 h2)

theorem RegsBut.fld {d e : Dev} {n : Nat} (h : RegsBut d e n) (f : Fld) (h1 : f.off % 0x20 ≠ 0x14) (h2 : f.off ≠ Reg.TSK_USED n) :
    e.fld f = d.fld f := by
  unfold Dev.fld
  rw [h _ h1 h2]

theorem RegsBut.cfg {d e : Dev} {n : Nat} (h : RegsBut d e n) (f : Fld) (hf : f.off = Reg.TSK_CFG n) : e.fld f = d.fld f :=
  h.fld f (by rw [hf]; unfold Reg.TSK_CFG; omega) (by rw [hf]; unfold Reg.TSK_CFG Reg.TSK_USED; omega)

theorem RegsBut.code {d e : Dev} {n : Nat} (h : RegsBut d e n) (f : Fld) (hf : f.off = Reg.TSK_CODE n) : e.fld f = d.fld f :=
  h.fld f (by rw [hf]; unfold Reg.TSK_CODE; omega) (by rw [hf]; unfold Reg.TSK_CODE Reg.TSK_USED; omega)

/-- The words of the task context that a dispatch of task n writes (R46). -/
def Dev.newContext (d : Dev) (n : Nat) (r : Release) : List Word :=
  [(d.task n).runNo + 1, BitVec.ofNat 32 (d.tcFlags n r), d.rd Reg.IMG_GEN, r.angle, r.angq,
   BitVec.ofNat 32 (r.station % 1000000000), BitVec.ofNat 32 (r.station / 1000000000),
   BitVec.ofNat 32 (r.station / 1000000000 / 2 ^ 32), BitVec.ofNat 32 r.mono, BitVec.ofNat 32 (r.mono / 2 ^ 32),
   BitVec.ofNat 32 (d.task n).skips, 0, 0, 0, 0, 0]

/-- The registers of the run below. -/
def lowRegs (l : List Run) : List Nat := (l.take 1).map (fun q => Reg.TSK_STATE q.task)

/-- What the steps of a dispatch before its carry-over or its latch leave. -/
structure Taken (d x : Dev) (c n : Nat) (r : Release) (t cost : Nat) (st : Stage) : Prop where
  runs : (x.core c).runs = d.newRun n r st :: (d.core c).runs
  waiting : (x.core c).waiting = none
  time : (x.core c).time = t + cost
  bank : x.bank c (d.fld (F.TSK_CFG_BANK n)) = d.bankAtDispatch n
  banks : ∀ k, k ≠ d.fld (F.TSK_CFG_BANK n) → x.bank c k = d.bank c k
  cores : ∀ k, k ≠ c → x.core k = d.core k
  task : x.task n = { d.task n with
    runNo := (d.task n).runNo + 1, ready := none, first := false, exch := false, resume := false, skips := 0 }
  tasks : ∀ m, m ≠ n → x.task m = d.task m
  used : x.rd (Reg.TSK_USED n) = BitVec.ofNat 32 (min 0xFFFFFFFF cost)
  state : x.fld (F.TSK_STATE_ST n) = 3
  late : x.fld (F.TSK_STATE_LATE n) = b2n r.late
  low : ∀ q l, (d.core c).runs = q :: l → q.task ≠ n → x.fld (F.TSK_STATE_ST q.task) = 4
  data : x.mem.data = Memory.wrBytes d.mem.data (d.contextAddr c n) (wordBytes (d.newContext n r))
  same : RegsBut d x n
  only : Only d x [.hsb, .tasks, .cores, .data] (Reg.TSK_STATE n :: Reg.TSK_USED n :: lowRegs (d.core c).runs)

/-- What the release noted and the run below leave. -/
structure Lowered (d y : Dev) (c n : Nat) : Prop where
  cores : y.cores = d.cores
  task : y.task n = { d.task n with runNo := (d.task n).runNo + 1, ready := none }
  tasks : ∀ m, m ≠ n → y.task m = d.task m
  mem : y.mem = d.mem
  low : ∀ q l, (d.core c).runs = q :: l → y.fld (F.TSK_STATE_ST q.task) = 4
  same : RegsBut d y n
  only : Only d y [.hsb, .tasks] (lowRegs (d.core c).runs)

theorem Lowered.of (d : Dev) (c n : Nat) (r : Release) : Lowered d ((d.noted n r).lowered (d.core c).runs) c n := by
  have hn : Only d (d.noted n r) [.hsb, .tasks] [] := ((Only.of_setHsb d _).and (.of_modTask _ n _)).more (by simp) (by simp)
  have ht : (d.noted n r).task n = { d.task n with runNo := (d.task n).runNo + 1, ready := none } := Dev.task_setTask_same _ _ _
  have hts (m : Nat) (hm : m ≠ n) : (d.noted n r).task m = d.task m := Dev.task_setTask_ne _ _ hm
  have hc : (d.noted n r).cores = d.cores := rfl
  have hm : (d.noted n r).mem = d.mem := rfl
  have hs : RegsBut d (d.noted n r) n := fun _ _ _ => rfl
  generalize d.noted n r = y at hn ht hts hc hm hs
  cases hr : (d.core c).runs with
  | nil => exact ⟨hc, ht, hts, hm, fun q l h => absurd (hr.symm.trans h) (by simp), hs, hn.more (fun _ h => h) (by simp)⟩
  | cons below l => exact {
      cores := hc
      task := ht
      tasks := hts
      mem := hm
      low := fun q l h => by
        obtain ⟨rfl, rfl⟩ := List.cons.inj (hr.symm.trans h)
        exact Dev.fld_setFld_same y (F.TSK_STATE_ST below.task) 4 (Nat.le_of_ble_eq_true rfl) (Nat.lt_of_sub_eq_succ rfl)
      same := hs.trans (.of_setSt y n below.task 4)
      only := (hn.and (.of_setSt y below.task 4)).more (by simp) (by simp [lowRegs, hr]) }

theorem TSK_STATE_ne {n m : Nat} (h : m ≠ n) : Reg.TSK_STATE m ≠ Reg.TSK_STATE n := by unfold Reg.TSK_STATE; omega

/-- What the run placed on its core, and its ticks, leave. -/
structure Placed (y z : Dev) (c n : Nat) (r : Release) (t cost : Nat) (st : Stage) : Prop where
  runs : (z.core c).runs = y.newRun n r st :: (y.core c).runs
  waiting : (z.core c).waiting = none
  time : (z.core c).time = t + cost
  bank : z.bank c (y.fld (F.TSK_CFG_BANK n)) = y.bankAtDispatch n
  banks : ∀ k, k ≠ y.fld (F.TSK_CFG_BANK n) → z.bank c k = y.bank c k
  cores : ∀ k, k ≠ c → z.core k = y.core k
  tasks : z.tasks = y.tasks
  mem : z.mem = y.mem
  used : z.rd (Reg.TSK_USED n) = BitVec.ofNat 32 (min 0xFFFFFFFF cost)
  state : z.fld (F.TSK_STATE_ST n) = 3
  late : z.fld (F.TSK_STATE_LATE n) = b2n r.late
  low : ∀ m, m ≠ n → z.fld (F.TSK_STATE_ST m) = y.fld (F.TSK_STATE_ST m)
  same : RegsBut y z n
  only : Only y z [.cores] [Reg.TSK_STATE n, Reg.TSK_USED n]

/-- What the run placed on its core leaves. -/
theorem Dev.placed_core (y : Dev) (c n : Nat) (r : Release) (t : Nat) (st : Stage) (k : Nat) : (y.placed c n r t st).core k =
    ((y.setCore c { y.core c with time := t, waiting := none, runs := y.newRun n r st :: (y.core c).runs }).setBank c
      (y.fld (F.TSK_CFG_BANK n)) (y.bankAtDispatch n)).core k := rfl

theorem Dev.placed_bank (y : Dev) (c n : Nat) (r : Release) (t : Nat) (st : Stage) (k : Nat) :
    (y.placed c n r t st).bank c k = if k = y.fld (F.TSK_CFG_BANK n) then y.bankAtDispatch n else y.bank c k := by
  rw [Dev.bank, Dev.placed_core]
  split
  · next h => subst h; exact Dev.bank_setBank_same _ _ _ _
  · next h =>
    refine (Dev.bank_setBank_ne _ _ (.inr h)).trans ?_
    rw [Dev.bank, Dev.core_setCore_same]
    rfl

theorem Dev.fld_placed (y : Dev) (c n : Nat) (r : Release) (t : Nat) (st : Stage) :
    (y.placed c n r t st).fld (F.TSK_STATE_ST n) = 3 :=
  Dev.fld_setFld_same _ (F.TSK_STATE_ST n) 3 (Nat.le_of_ble_eq_true rfl) (Nat.lt_of_sub_eq_succ rfl)

theorem Only.of_placed (y : Dev) (c n : Nat) (r : Release) (t : Nat) (st : Stage) :
    Only y (y.placed c n r t st) [.cores] [Reg.TSK_STATE n] :=
  (((Only.of_setCore y c _).and (.of_setCore _ c _)).and (.of_setSt _ n 3)).more (by simp) (by simp)

theorem Only.of_charged (y : Dev) (c n : Nat) (late : Bool) (cost : Nat) :
    Only y (y.charged c n late cost) [.cores] [Reg.TSK_STATE n, Reg.TSK_USED n] :=
  (((Only.of_setFld y (F.TSK_STATE_LATE n) (b2n late)).and (.of_wr _ (Reg.TSK_USED n) 0)).and (.of_charge _ c n cost)).more
    (by simp) (by simp [F.TSK_STATE_LATE])

/-- The ticks of a dispatch leave every register but TSK_STATE.LATE and TSK_USED of its task. -/
theorem Dev.rd_charged (y : Dev) (c n : Nat) (late : Bool) (cost : Nat) {off : Nat} (h : off ≠ Reg.TSK_USED n) :
    (y.charged c n late cost).rd off = (y.setFld (F.TSK_STATE_LATE n) (b2n late)).rd off := by
  unfold Dev.charged
  rw [Dev.charge, Dev.rd_wr_ne _ _ h]
  exact Dev.rd_wr_ne _ _ h

theorem Dev.fld_charged (y : Dev) (c n : Nat) (late : Bool) (cost : Nat) {f : Fld} (h : f.off ≠ Reg.TSK_USED n) :
    (y.charged c n late cost).fld f = (y.setFld (F.TSK_STATE_LATE n) (b2n late)).fld f := by
  unfold Dev.fld
  rw [Dev.rd_charged _ _ _ _ _ h]

theorem Dev.used_charged (y : Dev) (c n : Nat) (late : Bool) (cost : Nat) :
    (y.charged c n late cost).rd (Reg.TSK_USED n) = BitVec.ofNat 32 (min 0xFFFFFFFF cost) := by
  unfold Dev.charged
  rw [Dev.rd_charge, Dev.rd_wr_same]
  exact congrArg (fun k => BitVec.ofNat 32 (min 0xFFFFFFFF k)) (Nat.zero_add cost)

theorem Dev.charged_core (y : Dev) (c n : Nat) (late : Bool) (cost k : Nat) :
    (y.charged c n late cost).core k = if k = c then (y.core c).spend cost else y.core k := by
  unfold Dev.charged
  split
  · next h => subst h; exact Dev.charge_core _ _ _ _
  · next h => exact Dev.charge_core_ne _ _ _ h

theorem used_ne_state (n m : Nat) : Reg.TSK_STATE m ≠ Reg.TSK_USED n := by unfold Reg.TSK_STATE Reg.TSK_USED; omega

theorem Placed.of (y : Dev) (c n : Nat) (r : Release) (t cost : Nat) (st : Stage) :
    Placed y ((y.placed c n r t st).charged c n r.late cost) c n r t cost st := by
  have hcore := y.placed_core c n r t st
  have hbank := y.placed_bank c n r t st
  have hst := y.fld_placed c n r t st
  have hlow (m : Nat) (hm : m ≠ n) : (y.placed c n r t st).fld (F.TSK_STATE_ST m) = y.fld (F.TSK_STATE_ST m) :=
    Dev.fld_wr_ne _ _ (TSK_STATE_ne hm)
  have hsame : RegsBut y (y.placed c n r t st) n := .of_setSt _ n n 3
  have ho := Only.of_placed y c n r t st
  have hmem : (y.placed c n r t st).mem = y.mem := rfl
  generalize y.placed c n r t st = a at hcore hbank hst hlow hsame ho hmem
  have hc := a.charged_core c n r.late cost
  have hf {f : Fld} (h : f.off ≠ Reg.TSK_USED n) := a.fld_charged c n r.late cost h
  have hoa := Only.of_charged a c n r.late cost
  have hrd {off : Nat} (h : off ≠ Reg.TSK_USED n) := a.rd_charged c n r.late cost h
  have hused := a.used_charged c n r.late cost
  have hmema : (a.charged c n r.late cost).mem = a.mem := rfl
  generalize a.charged c n r.late cost = z at hc hf hoa hrd hused hmema
  have hzb (k : Nat) : z.bank c k = a.bank c k := by
    unfold Dev.bank Core.bank
    rw [hc, if_pos rfl, Core.spend_banks]
  exact {
    runs := by rw [hc, if_pos rfl, Core.spend_runs, hcore, Dev.runs_setBank, Dev.core_setCore_same]
    waiting := by rw [hc, if_pos rfl, Core.spend_waiting, hcore, Dev.waiting_setBank, Dev.core_setCore_same]
    time := by rw [hc, if_pos rfl, Core.spend_time, hcore, Dev.time_setBank, Dev.core_setCore_same]
    bank := by rw [hzb, hbank, if_pos rfl]
    banks := fun k hk => by rw [hzb, hbank, if_neg hk]
    cores := fun k hk => by rw [hc, if_neg hk, hcore, Dev.core_setBank_ne _ _ _ hk, Dev.core_setCore_ne _ _ hk]
    tasks := (hoa.tasks (by decide)).trans (ho.tasks (by decide))
    mem := hmema.trans hmem
    used := hused
    state := by
      rw [hf (f := F.TSK_STATE_ST n) (used_ne_state n n), ← hst]
      exact Dev.fld_setFld_bits _ _ (Nat.le_of_ble_eq_true rfl) (Nat.lt_of_sub_eq_succ rfl) (.inl (Nat.lt_of_sub_eq_succ rfl))
    late := by
      rw [hf (f := F.TSK_STATE_LATE n) (used_ne_state n n),
        Dev.fld_setFld_same _ _ _ (Nat.le_of_ble_eq_true rfl) (Nat.lt_of_sub_eq_succ rfl)]
      cases r.late <;> rfl
    low := fun m hm => by
      rw [hf (f := F.TSK_STATE_ST m) (used_ne_state n m), ← hlow m hm]
      exact Dev.fld_wr_ne _ _ (TSK_STATE_ne hm)
    same := hsame.trans fun off h1 h2 => (hrd h2).trans (RegsBut.of_setFld a n (F.TSK_STATE_LATE n) _ (TSK_STATE_mod n) off h1 h2)
    only := (ho.and hoa).more (by simp) (by simp) }

theorem Dev.writeContext_data (z : Dev) (c n : Nat) (r : Release) :
    (z.writeContext c n r).mem.data = Memory.wrBytes z.mem.data (z.contextAddr c n) (wordBytes (z.context n r)) := by
  unfold Dev.writeContext Dev.contextAddr
  dsimp only

theorem Only.of_writeContext (z : Dev) (c n : Nat) (r : Release) : Only z (z.writeContext c n r) [.data] [] := by
  unfold Dev.writeContext
  exact .of_setData z _

theorem Dev.writeContext_csr (z : Dev) (c n : Nat) (r : Release) : (z.writeContext c n r).csr = z.csr := by
  unfold Dev.writeContext
  dsimp only

/-- R44 to R46, R54, R56: what a dispatch leaves before its carry-over or its latch. -/
theorem Taken.of_take (d : Dev) (c : Nat) {n : Nat} (hn : n < 64) (r : Release) (t cost : Nat) (ecc : Option Nat) :
    Taken d (d.take c n r t cost ecc) c n r t cost (d.firstStage n ecc) := by
  have hy := Lowered.of d c n r
  unfold Dev.take
  generalize (d.noted n r).lowered (d.core c).runs = y at hy
  have hst : y.firstStage n ecc = d.firstStage n ecc := by
    unfold Dev.firstStage Dev.carryOf
    rw [hy.only.parts .xch (by decide)]
  have hz := Placed.of y c n r t cost (d.firstStage n ecc)
  dsimp only
  rw [hst]
  generalize (y.placed c n r t (d.firstStage n ecc)).charged c n r.late cost = z at hz
  have hs := hy.same.trans hz.same
  have hb : y.fld (F.TSK_CFG_BANK n) = d.fld (F.TSK_CFG_BANK n) := hy.same.cfg _ rfl
  have hcore (k : Nat) : y.core k = d.core k := Dev.core_of_cores hy.cores k
  have hnew : y.newRun n r (d.firstStage n ecc) = d.newRun n r (d.firstStage n ecc) := by unfold Dev.newRun; rw [hb]
  have hbank : y.bankAtDispatch n = d.bankAtDispatch n := by
    unfold Dev.bankAtDispatch Dev.flAtDispatch
    rw [hy.same.cfg (F.TSK_CFG_RMDEF n) rfl, hy.same.cfg (F.TSK_CFG_SATDEF n) rfl, hy.same.code (F.TSK_CODE_ENTRY n) rfl,
      hy.same.code (F.TSK_CODE_DBASE n) rfl]
  have htask (m : Nat) : z.task m = y.task m := Dev.task_of_tasks hz.tasks m
  have hsafe : z.isSafe n = d.isSafe n := by
    unfold Dev.isSafe Dev.maskBit Dev.bit
    rw [hs _ (by unfold Reg.IMG_SAFEMASK0; omega) (by unfold Reg.IMG_SAFEMASK0 Reg.TSK_USED; omega)]
  have hctx : z.context n r = d.newContext n r := by
    unfold Dev.context Dev.newContext Dev.tcFlags
    rw [htask, hy.task, hsafe, hs Reg.IMG_GEN (by decide) (by unfold Reg.IMG_GEN Reg.TSK_USED; omega)]
  have hdata : (z.writeContext c n r).mem.data = Memory.wrBytes d.mem.data (d.contextAddr c n) (wordBytes (d.newContext n r)) := by
    have haddr : z.contextAddr c n = d.contextAddr c n := by
      unfold Dev.contextAddr
      rw [hs.code (F.TSK_CODE_DBASE n) rfl]
    rw [Dev.writeContext_data, hctx, haddr, hz.mem, hy.mem]
  have hw := Only.of_writeContext z c n r
  have hwt : (z.writeContext c n r).tasks = z.tasks := hw.tasks (by decide)
  have hwc := z.writeContext_csr c n r
  generalize z.writeContext c n r = w at hw hwt hwc hdata
  have hm := Only.of_modTask w n Task.shown
  have hmt : (w.modTask n Task.shown).task n = (w.task n).shown := Dev.task_setTask_same _ _ _
  have hms (m : Nat) (h : m ≠ n) : (w.modTask n Task.shown).task m = w.task m := Dev.task_setTask_ne _ _ h
  have hmc : (w.modTask n Task.shown).csr = w.csr := rfl
  have hmm : (w.modTask n Task.shown).mem = w.mem := rfl
  generalize w.modTask n Task.shown = x at hm hmt hms hmc hmm
  have hxc (k : Nat) : x.core k = z.core k := Dev.core_of_cores ((hm.cores (by decide)).trans (hw.cores (by decide))) k
  have hxb (k : Nat) : x.bank c k = z.bank c k := by unfold Dev.bank; rw [hxc]
  have hxr (off : Nat) : x.rd off = z.rd off := Dev.rd_of_csr (hmc.trans hwc) off
  have hxf (f : Fld) : x.fld f = z.fld f := by unfold Dev.fld; rw [hxr]
  have hwk (m : Nat) : w.task m = y.task m := (Dev.task_of_tasks hwt m).trans (htask m)
  exact {
    runs := by rw [hxc, hz.runs, hnew, hcore]
    waiting := by rw [hxc, hz.waiting]
    time := by rw [hxc, hz.time]
    bank := by rw [hxb, ← hb, hz.bank, hbank]
    banks := fun k hk => by
      rw [hxb, hz.banks k (hb ▸ hk)]
      unfold Dev.bank
      rw [hcore]
    cores := fun k hk => by rw [hxc, hz.cores k hk, hcore]
    task := by
      rw [hmt, hwk, hy.task]
      rfl
    tasks := fun m h => by rw [hms m h, hwk, hy.tasks m h]
    used := by rw [hxr, hz.used]
    state := by rw [hxf, hz.state]
    late := by rw [hxf, hz.late]
    low := fun q l h hq => by rw [hxf, hz.low q.task hq, hy.low q l h]
    data := by rw [hmm, hdata]
    same := hs.trans fun off _ _ => hxr off
    only := (((hy.only.and hz.only).and hw).and hm).more (by simp) fun o ho => by
      simp only [List.append_nil, List.mem_append, List.mem_cons, List.not_mem_nil, or_false] at ho ⊢
      grind }

end Sys2Proof.Machine
end

section
/-!
SUPPORT. Dispatch (R44 to R49, R54 to R56): who may preempt the run that has been taken, the steps that follow, and what is left.
-/
namespace Sys2Proof.Machine

/-! ## READY tasks above a run (R54) -/

theorem Dev.highest_isSome (d : Dev) (l : List (Nat × Release)) : (d.highest l).isSome = !l.isEmpty := by
  have h (l : List (Nat × Release)) (q : Nat × Release) : (l.foldl (fun (x : Option (Nat × Release)) p =>
      match x with
      | some q => if d.fld (F.TSK_CFG_PRIO p.1) < d.fld (F.TSK_CFG_PRIO q.1) then some p else some q
      | none => some p) (some q)).isSome = true := by
    induction l generalizing q with
    | nil => rfl
    | cons p l ih =>
      rw [List.foldl_cons]
      dsimp only
      split
      · exact ih p
      · exact ih q
  cases l with
  | nil => rfl
  | cons p l => exact h l p

theorem Dev.mem_readyTasks {d : Dev} {c : Nat} {p : Nat × Release} :
    p ∈ d.readyTasks c ↔ p.1 ∈ d.coreTasks c ∧ (d.task p.1).ready = some p.2 := by
  unfold Dev.readyTasks
  rw [List.mem_filterMap]
  constructor
  · rintro ⟨m, hm, h⟩
    obtain ⟨r, hr, rfl⟩ := Option.map_eq_some_iff.mp h
    exact ⟨hm, hr⟩
  · rintro ⟨hm, hr⟩
    exact ⟨p.1, hm, by rw [hr]; rfl⟩

theorem Dev.lt_of_mem_readyTasks {d : Dev} {c : Nat} {p : Nat × Release} (h : p ∈ d.readyTasks c) : p.1 < 64 :=
  List.mem_range.mp (List.mem_filter.mp (Dev.mem_readyTasks.mp h).1).1

/-- No READY task of core c but n, released by MONO t, may preempt run q. -/
def Dev.First (d : Dev) (c n : Nat) (q : Run) (t : Nat) : Prop :=
  ∀ p ∈ d.readyTasks c, p.1 ≠ n → p.2.mono ≤ t → d.above p.1 q = false

/-- R54: once task n has been taken, those that may preempt its run are the other READY tasks. -/
theorem Dev.preempting_none_iff {d x : Dev} {c n : Nat} (hr : ∀ m, m < 64 → x.rd (Reg.TSK_CFG m) = d.rd (Reg.TSK_CFG m))
    (hn : (x.task n).ready = none) (ht : ∀ m, m ≠ n → x.task m = d.task m) {q : Run} (hq : q.task < 64) :
    x.preempting c q = none ↔ d.First c n q (x.core c).time := by
  have hf (f : Fld) {m : Nat} (hm : m < 64) (h : f.off = Reg.TSK_CFG m) : x.fld f = d.fld f := by unfold Dev.fld; rw [h, hr m hm]
  have hcore : x.coreTasks c = d.coreTasks c := by
    unfold Dev.coreTasks Dev.enabled Dev.flag
    exact List.filter_congr fun m hm => by
      rw [hf (F.TSK_CFG_EN m) (List.mem_range.mp hm) rfl, hf (F.TSK_CFG_CORE m) (List.mem_range.mp hm) rfl]
  have habove {m : Nat} (hm : m < 64) : x.above m q = d.above m q := by
    unfold Dev.above
    rw [hf (F.TSK_CFG_PRIO m) hm rfl, hf (F.TSK_CFG_BANK m) hm rfl, hf (F.TSK_CFG_PRIO q.task) hq rfl]
  have hmem (p : Nat × Release) : p ∈ x.readyTasks c ↔ p ∈ d.readyTasks c ∧ p.1 ≠ n := by
    rw [Dev.mem_readyTasks, Dev.mem_readyTasks, hcore]
    by_cases h : p.1 = n
    · rw [h, hn]; simp
    · rw [ht _ h]; simp [h]
  unfold Dev.preempting
  rw [← Option.isNone_iff_eq_none, ← Option.not_isSome, Dev.highest_isSome, Bool.not_not, List.isEmpty_iff, List.filter_eq_nil_iff]
  simp only [hmem, Bool.and_eq_true, Nat.ble_eq, not_and, Bool.not_eq_true, and_imp]
  unfold Dev.First
  refine forall_congr' fun p => forall_congr' fun hp => ?_
  rw [habove (Dev.lt_of_mem_readyTasks hp)]

/-! ## The steps that follow a dispatch (R44, R55) -/

section
variable {x : Dev} {c : Nat} {q : Run}

theorem Dev.proceedFor_stop (h : x.curRun c = some q) (hs : q.sync = true ∨ q.stage = .logic ∨ (x.preempting c q).isSome = true)
    (k : Nat) :
    Dev.proceedFor c k x = x := by
  cases k with
  | zero => rfl
  | succ k =>
    unfold Dev.proceedFor
    rw [h]
    exact if_pos hs

theorem Dev.proceedFor_step (h : x.curRun c = some q) (hs : q.sync = false) (hl : q.stage ≠ .logic)
    (hp : x.preempting c q = none) (k : Nat) :
    Dev.proceedFor c (k + 1) x = Dev.proceedFor c k (x.stageStep c q) := by
  conv => lhs; unfold Dev.proceedFor
  rw [h]
  exact if_neg (by simp [hs, hl, hp])

theorem Dev.curRun_cons {l : List Run} (hw : (x.core c).waiting = none) (hr : (x.core c).runs = q :: l) : x.curRun c = some q := by
  unfold Dev.curRun
  rw [hw, hr]
  rfl

end

/-- The latch follows, and the run is in its logic. -/
theorem Latched.proceedFor {x : Dev} {c : Nat} {q : Run} {l : List Run} (hw : (x.core c).waiting = none) (hr : (x.core c).runs = q :: l)
    (hs : q.sync = false) (hl : q.stage = .latch) (hn : q.task < 64) (hp : x.preempting c q = none) (k : Nat) :
    Latched x (Dev.proceedFor c (k + 1) x) c q := by
  have h := Latched.of_latchStep x c q hn
  have hstep : x.stageStep c q = x.latchStep c q := by
    unfold Dev.stageStep
    rw [hl]
  rw [Dev.proceedFor_step (Dev.curRun_cons hw hr) hs (by rw [hl]; decide) hp, hstep,
    Dev.proceedFor_stop (Dev.curRun_cons (h.waiting.trans hw) h.runs) (.inr (.inl rfl))]
  exact h

/-! ## Words of memory -/

theorem Memory.wrBytes_wordBytes_cons (m : Memory) (a : Nat) (w : Word) (l : List Word) :
    Memory.wrBytes m a (wordBytes (w :: l)) = Memory.wrBytes (Memory.wr32 m a w) (a + 4) (wordBytes l) := rfl

theorem Memory.rd8_wrBytes_ne (m : Memory) {a b : Nat} (l : List Byte) (h : b < a ∨ a + l.length ≤ b) :
    Memory.rd8 (Memory.wrBytes m a l) b = Memory.rd8 m b := by
  induction l generalizing m a with
  | nil => rfl
  | cons x l ih =>
    rw [List.length_cons] at h
    rw [Memory.wrBytes, ih _ (by omega), Memory.rd8_wr8_ne _ _ (by omega)]

theorem Memory.rd32_wr32_same (m : Memory) (a : Nat) (w : Word) : Memory.rd32 (Memory.wr32 m a w) a = w := by
  unfold Memory.rd32 Memory.wr32
  rw [Memory.rdLE_wrLE]
  exact BitVec.eq_of_toNat_eq (by rw [BitVec.toNat_ofNat]; have := w.isLt; omega)

theorem Memory.rd32_wr32_ne (m : Memory) {a b : Nat} (w : Word) (h : b + 4 ≤ a ∨ a + 4 ≤ b) :
    Memory.rd32 (Memory.wr32 m a w) b = Memory.rd32 m b := congrArg (BitVec.ofNat 32) (Memory.rdLE_wrLE_ne m _ h)

theorem wordBytes_length (l : List Word) : (wordBytes l).length = 4 * l.length := by
  induction l with
  | nil => rfl
  | cons w l ih =>
    have h : wordBytes (w :: l) = leBytes w.toNat 4 ++ wordBytes l := rfl
    rw [h, List.length_append, ih, List.length_cons]
    show 4 + _ = _
    omega

theorem Memory.rd32_wrBytes (m : Memory) (a : Nat) (l : List Word) {k : Nat} (hk : k < l.length) :
    Memory.rd32 (Memory.wrBytes m a (wordBytes l)) (a + 4 * k) = l.getD k 0 := by
  induction l generalizing m a k with
  | nil => exact absurd hk (Nat.not_lt_zero k)
  | cons w l ih =>
    rw [Memory.wrBytes_wordBytes_cons]
    cases k with
    | zero =>
      have h : Memory.rd32 (Memory.wrBytes (Memory.wr32 m a w) (a + 4) (wordBytes l)) a = Memory.rd32 (Memory.wr32 m a w) a := by
        unfold Memory.rd32
        rw [Memory.rdLE_congr fun j h1 h2 => Memory.rd8_wrBytes_ne _ _ (.inl (by omega))]
      exact h.trans (Memory.rd32_wr32_same m a w)
    | succ k =>
      have h := ih (Memory.wr32 m a w) (a + 4) (Nat.lt_of_succ_lt_succ hk)
      rw [show a + 4 * (k + 1) = a + 4 + 4 * k by omega, h]
      rfl

end Sys2Proof.Machine
end

section
/-!
PROOFS. Dispatch (R44 to R49, R54 to R56, R191, R192).
-/
namespace Sys2Proof.Machine

/-! ## A dispatch whose latch follows -/

/-- The run of a dispatch and those below it are of tasks that exist. -/
theorem lowRegs_bound {l : List Run} (h : ∀ q ∈ l.take 1, q.task < 64) :
    ∀ o ∈ lowRegs l, 0x10014 ≤ o ∧ o < 0x10800 ∧ o % 0x20 = 0x14 := by
  intro o ho
  obtain ⟨q, hq, rfl⟩ := List.mem_map.mp ho
  have := h q hq
  unfold Reg.TSK_STATE
  omega

section
variable {d x e : Dev} {c n t cost : Nat} {r : Release} {st : Stage}

theorem Taken.rd_cfg (h : Taken d x c n r t cost st) (m : Nat) : x.rd (Reg.TSK_CFG m) = d.rd (Reg.TSK_CFG m) :=
  h.same _ (by unfold Reg.TSK_CFG; omega) (by unfold Reg.TSK_CFG Reg.TSK_USED; omega)

theorem Taken.preempting (h : Taken d x c n r t cost st) {q : Run} (hq : q.task < 64) :
    x.preempting c q = none ↔ d.First c n q (t + cost) := by
  rw [← h.time]
  exact Dev.preempting_none_iff (fun m _ => h.rd_cfg m) (by rw [h.task]) h.tasks hq

theorem Taken.regions (h : Taken d x c n r t cost st) (hn : n < 64) (hl : ∀ q ∈ (d.core c).runs.take 1, q.task < 64) :
    SameRegions d x := h.only.sameRegions (by decide) fun o ho => by
  rcases List.mem_cons.mp ho with rfl | ho
  · unfold Reg.TSK_STATE; omega
  · rcases List.mem_cons.mp ho with rfl | ho
    · unfold Reg.TSK_USED; omega
    · have := lowRegs_bound hl o ho
      omega

/-- The task context that is left. -/
theorem Taken.context (h : Taken d x c n r t cost st) {m : Memory} {g : Word}
    (hm : m = Memory.wr32 x.mem.data (d.contextAddr c n + 8) g) :
    (List.range 11).map (fun k => Memory.rd32 m (d.contextAddr c n + 4 * k)) =
      [(d.task n).runNo + 1, BitVec.ofNat 32 (d.tcFlags n r), g, r.angle, r.angq,
       BitVec.ofNat 32 (r.station % 1000000000), BitVec.ofNat 32 (r.station / 1000000000),
       BitVec.ofNat 32 (r.station / 1000000000 / 2 ^ 32), BitVec.ofNat 32 r.mono, BitVec.ofNat 32 (r.mono / 2 ^ 32),
       BitVec.ofNat 32 (d.task n).skips] := by
  have hk (k : Nat) (hk : k < 16) : Memory.rd32 m (d.contextAddr c n + 4 * k) = if k = 2 then g else (d.newContext n r).getD k 0 := by
    subst hm
    split
    · next h => subst h; exact Memory.rd32_wr32_same _ _ _
    · rw [Memory.rd32_wr32_ne _ _ (by omega), h.data]
      exact Memory.rd32_wrBytes _ _ _ hk
  generalize d.contextAddr c n = a at hk
  have hl : (List.range 11).map (fun k => Memory.rd32 m (a + 4 * k)) =
      (List.range 11).map (fun k => if k = 2 then g else (d.newContext n r).getD k 0) :=
    List.map_congr_left fun k hm => hk k (by have := List.mem_range.mp hm; omega)
  rw [hl]
  rfl

theorem Taken.mem_outside (h : Taken d x c n r t cost st) {m : Memory} {g : Word}
    (hm : m = Memory.wr32 x.mem.data (d.contextAddr c n + 8) g) {b : Nat} (hb : b < d.contextAddr c n ∨ d.contextAddr c n + 64 ≤ b) :
    Memory.rd8 m b = Memory.rd8 d.mem.data b := by
  subst hm
  unfold Memory.wr32
  rw [Memory.rd8_wrLE_ne _ _ (by omega), h.data, Memory.rd8_wrBytes_ne]
  rw [wordBytes_length]
  exact hb

theorem Taken.contextAddr (h : Taken d x c n r t cost st) : x.contextAddr c n = d.contextAddr c n := by
  unfold Dev.contextAddr
  rw [h.same.code (F.TSK_CODE_DBASE n) rfl]

/-- The registers of task n lie apart from what follows every command. -/
theorem state_apart (n : Nat) : Reg.TSK_STATE n ∉ [Reg.INT_FIRST, Reg.BIO_BO0, Reg.BIO_BO1] := by
  simp only [Reg.TSK_STATE, Reg.INT_FIRST, Reg.BIO_BO0, Reg.BIO_BO1, List.mem_cons, List.not_mem_nil, or_false]
  omega

theorem Latched.state {q : Run} (h : Latched x e c q) (f : Fld) {m : Nat} (hf : f.off = Reg.TSK_STATE m) : e.fld f = x.fld f := by
  refine h.only.fld (by decide) ?_
  rw [hf]
  simp only [Reg.TSK_STATE, Reg.TSK_USED, Reg.IMG_GEN, Reg.INT_FIRST, Reg.BIO_BO0, Reg.BIO_BO1, List.mem_append, List.mem_cons,
    List.not_mem_nil, or_false]
  omega

/-- R44 to R49, R54, R56: a task taken, its latch, and what follows the command. -/
theorem Dispatched.of (h : Taken d x c n r t cost st) (k : Latched x e c (d.newRun n r st)) (hn : n < 64) (hc : cost < 64)
    (hl : ∀ q ∈ (d.core c).runs.take 1, q.task < 64) (u : Nat) : Dispatched d (e.settleOuts u).settle c n r t cost := by
  have hregs := h.regions hn hl
  have hcore (j : Nat) : (e.settleOuts u).settle.core j = e.core j := Dev.core_of_cores (Dev.settled_cores _ _) j
  have hbank (j : Nat) : (e.settleOuts u).settle.bank c j = e.bank c j := by unfold Dev.bank; rw [hcore]
  have htask (m : Nat) : (e.settleOuts u).settle.task m = x.task m :=
    (Dev.task_of_tasks (Aside.settled e u).tasks m).trans (Dev.task_of_tasks (k.only.tasks (by decide)) m)
  have hmem := Dev.settled_mem e u
  have hrd {off : Nat} (ho : off ∉ [Reg.INT_FIRST, Reg.BIO_BO0, Reg.BIO_BO1]) : (e.settleOuts u).settle.rd off = e.rd off :=
    Dev.settled_rd _ _ ho
  have hst (f : Fld) (hf : f.off = Reg.TSK_STATE n) : (e.settleOuts u).settle.fld f = x.fld f :=
    (Dev.settled_fld _ _ (hf ▸ state_apart n)).trans (k.state f hf)
  have hgen : (e.settleOuts u).settle.rd Reg.IMG_GEN = e.rd Reg.IMG_GEN := hrd (by decide)
  have hin : x.wIn n = d.wIn n := hregs.wIn hn
  have hpre : x.wPre n = d.wPre n := hregs.wPre hn
  have hdata := k.data
  have htime := k.time
  have hused := k.used
  have hinp := k.inputs
  have hg := k.gens
  change e.mem.data = Memory.wr32 x.mem.data (x.contextAddr c n + 8) (e.rd Reg.IMG_GEN) at hdata
  change (e.core c).time = (x.core c).time + (24 + x.wIn n + x.wPre n) at htime
  change e.rd (Reg.TSK_USED n) = BitVec.ofNat 32 (min 0xFFFFFFFF ((x.rd (Reg.TSK_USED n)).toNat + (24 + x.wIn n + x.wPre n))) at hused
  change ∀ j ∈ x.inRegions n, ∀ w ∈ x.rgnWords j, w < 16384 →
    Memory.rdLE e.mem.shadow (shadowAddr c false w) 8 = (Image.rd e.mem.inCur w).toNat at hinp
  rw [h.contextAddr] at hdata
  rw [hin, hpre, h.time] at htime
  rw [hin, hpre, h.used] at hused
  rw [h.time] at hg
  have hxg : x.mem.gens = d.mem.gens := (show Part.same d x .images from h.only.parts .images (by decide)).1
  exact {
    runs := by rw [hcore, k.runs, h.runs]; rfl
    waiting := by rw [hcore, k.waiting, h.waiting]
    time := by rw [hcore, htime]; omega
    used := by
      have hb := d.latch_le n
      rw [hrd (by
        have := used_apart n
        simpa using this), hused, BitVec.toNat_ofNat, BitVec.toNat_ofNat]
      omega
    state := by
      refine ⟨(hst _ rfl).trans h.state, (hst _ rfl).trans (h.late.trans ?_)⟩
      cases r.late <;> rfl
    bank := by rw [hbank, k.banks, h.bank]; rfl
    banks := fun j hj => by rw [hbank, k.banks, h.banks j hj]
    task := by rw [htask, h.task]
    context := by
      rw [hmem, hgen]
      exact h.context hdata
    inputs := fun j hj w hw hl => by
      rw [hmem]
      refine hinp j (hregs.inRegions hn ▸ hj) w ?_ hl
      rw [hregs.rgnWords ((d.inRegions_bound n).2 j hj)]
      exact hw
    gens := by rw [hmem, hg, hxg]
    others := ⟨fun j hj => by rw [hcore, k.cores j hj, h.cores j hj], fun m hm => by rw [htask, h.tasks m hm]⟩
    mem := fun a ha => by
      rw [hmem]
      exact h.mem_outside hdata ha }

theorem Taken.only_latched (h : Taken d x c n r t cost st) (k : Latched x e c (d.newRun n r st)) (u : Nat) :
    Only d (e.settleOuts u).settle [.cores, .tasks, .data, .shadow, .images, .hsb, .io]
      (Reg.TSK_STATE n :: lowRegs (d.core c).runs ++ [Reg.TSK_USED n, Reg.IMG_GEN]) :=
  ((h.only.and k.only).settled u).more (by decide) fun o ho => by
    have hk : (d.newRun n r st).task = n := rfl
    simp only [hk, List.mem_append, List.mem_cons, List.not_mem_nil, or_false] at ho ⊢
    grind

end

end Sys2Proof.Machine
end

section
/-!
SUPPORT. The carry-over of a run (R191, R192).
-/
namespace Sys2Proof.Machine

/-- What the carry-over of task n leaves, complete or not. -/
structure CarriedOver (x z : Dev) (n : Nat) : Prop where
  done : z.carryOf n = none
  only : Only x z [.data, .xch] [Reg.XCH_CVCLIP, Reg.XCH_TPEND0 + 4 * (n / 32)]

theorem Dev.carryOf_setCarry (d : Dev) (n : Nat) : (d.setCarry n none).carryOf n = none := by
  unfold Dev.carryOf
  exact Sparse.get_set_same (fun _ => none) d.xch.carries n none

theorem Only.of_setCarry (d : Dev) (n : Nat) (k : Option Carry) : Only d (d.setCarry n k) [.xch] [Reg.XCH_TPEND0 + 4 * (n / 32)] :=
  ((Only.of_setXch d _).and (.of_setMaskBit _ Reg.XCH_TPEND0 n _)).more (by simp) (by simp)

/-- The data memory and XCH_CVCLIP that a carry-over leaves. -/
theorem CarriedOver.of (x : Dev) (n : Nat) (m : Memory) (w : Word) :
    CarriedOver x ((({ x with mem := { x.mem with data := m } } : Dev).wr Reg.XCH_CVCLIP w).setCarry n none) n where
  done := Dev.carryOf_setCarry _ n
  only := (((Only.of_setData x m).and (.of_wr _ _ w)).and (.of_setCarry _ n none)).more (by simp) (by simp)

/-- R191, R192: a carry-over, and the address at which a double-bit error has ended it. -/
theorem Dev.runCarry_some {x : Dev} {n : Nat} {k : Carry} (h : x.carryOf n = some k) (ecc : Option Nat) :
    CarriedOver x (x.runCarry n ecc).1 n ∧ (x.runCarry n ecc).2 =
      (ecc.bind (fun i => k.entries[i]?)).map (fun e => BitVec.ofNat 32 (0x10000000 + (k.src + e.oldOff) % 0x200000)) := by
  unfold Dev.runCarry
  rw [h]
  exact ⟨.of x n _ _, rfl⟩

/-- R191: the ticks of a carry-over, and the carry-over. -/
structure CarryDone (x z : Dev) (c n cost : Nat) : Prop where
  done : z.carryOf n = none
  core : z.core c = (x.core c).spend cost
  cores : ∀ j, j ≠ c → z.core j = x.core j
  only : Only x z [.cores, .data, .xch] [Reg.TSK_USED n, Reg.XCH_CVCLIP, Reg.XCH_TPEND0 + 4 * (n / 32)]

theorem CarryDone.of {x : Dev} (c : Nat) {n : Nat} {k : Carry} (h : x.carryOf n = some k) (ecc : Option Nat) :
    CarryDone x ((x.charge c n k.cost).runCarry n ecc).1 c n k.cost := by
  have hk : (x.charge c n k.cost).carryOf n = some k := h
  obtain ⟨hc, -⟩ := Dev.runCarry_some hk ecc
  have ho := Only.of_charge x c n k.cost
  have h1 := x.charge_core c n k.cost
  have h2 {j : Nat} (hj : j ≠ c) := x.charge_core_ne n k.cost hj
  generalize ((x.charge c n k.cost).runCarry n ecc).1 = z at hc
  generalize x.charge c n k.cost = y at hc ho h1 h2
  have hy (j : Nat) : z.core j = y.core j := Dev.core_of_cores (hc.only.cores (by decide)) j
  exact ⟨hc.done, (hy c).trans h1, fun j hj => (hy j).trans (h2 hj), (ho.and hc.only).more (by simp) (by simp)⟩

/-- What a carry-over changes lies apart from the settings and the states of tasks. -/
theorem carry_apart {n off : Nat} (h : off % 0x20 = 0 ∨ off % 0x20 = 0x14 ∨ off % 0x20 = 0x1c)
    (ho : 0x10000 ≤ off ∧ off < 0x14000) :
    off ∉ [Reg.TSK_USED n, Reg.XCH_CVCLIP, Reg.XCH_TPEND0 + 4 * (n / 32)] ++ [Reg.INT_FIRST, Reg.BIO_BO0, Reg.BIO_BO1] := by
  simp only [Reg.TSK_USED, Reg.XCH_CVCLIP, Reg.XCH_TPEND0, Reg.INT_FIRST, Reg.BIO_BO0, Reg.BIO_BO1, List.mem_append, List.mem_cons,
    List.not_mem_nil, or_false]
  omega

/-- R192: the carry-over step. -/
theorem Dev.carryStep_eq {x : Dev} {c : Nat} {q : Run} {k : Carry} (h : x.carryOf q.task = some k) (ecc : Option Nat) :
    x.carryStep c q ecc = match ((x.charge c q.task k.cost).runCarry q.task ecc).2 with
      | some a => (((x.charge c q.task k.cost).runCarry q.task ecc).1).coreFault c 10 0
          (BitVec.ofNat 32 (x.fld (F.TSK_CODE_ENTRY q.task))) a
      | none => (((x.charge c q.task k.cost).runCarry q.task ecc).1).setStage c q .latch := by
  unfold Dev.carryStep
  rw [h] <;> rfl

/-- No error is met. -/
theorem carry_clean {k : Carry} {ecc : Option Nat} (h : ecc.any (fun i => decide (i < k.entries.length)) = false) :
    ecc.bind (fun i => k.entries[i]?) = none := by
  cases ecc with
  | none => rfl
  | some i => simpa using h

section
variable {d x : Dev} {c n t cost : Nat} {r : Release} {ecc : Option Nat} {k : Carry}

theorem Dev.First.earlier {q : Run} {u v : Nat} (h : d.First c n q v) (hv : u ≤ v) : d.First c n q u :=
  fun p hp hn hu => h p hp hn (Nat.le_trans hu hv)

/-- The run at its latch, its carry-over done. -/
structure AtLatch (d z : Dev) (c n : Nat) (r : Release) (u : Nat) : Prop where
  runs : (z.core c).runs = [d.newRun n r .latch]
  waiting : (z.core c).waiting = none
  time : (z.core c).time = u
  preempting : z.preempting c (d.newRun n r .latch) = none
  regions : SameRegions d z
  state : z.fld (F.TSK_STATE_ST n) = 3
  done : z.carryOf n = none

theorem Taken.atLatch (h : Taken d x c n r t cost (.carry ecc)) (hn : n < 64) (hr : (d.core c).runs = []) (hk : x.carryOf n = some k)
    (hf : d.First c n (d.newRun n r .latch) (t + cost + k.cost)) :
    AtLatch d ((((x.charge c n k.cost).runCarry n ecc).1).setStage c (d.newRun n r (.carry ecc)) .latch) c n r (t + cost + k.cost) := by
  have hz := CarryDone.of c hk ecc
  generalize ((x.charge c n k.cost).runCarry n ecc).1 = y at hz
  have hcore : (y.setStage c (d.newRun n r (.carry ecc)) .latch).core c =
      { y.core c with runs := d.newRun n r .latch :: (y.core c).runs.drop 1 } := by
    rw [Dev.setStage_core, if_pos rfl]
    rfl
  have hs : Only y (y.setStage c (d.newRun n r (.carry ecc)) .latch) [.cores] [] := .of_setCore y c _
  generalize y.setStage c (d.newRun n r (.carry ecc)) .latch = z at hcore hs
  have ho := (hz.only.and hs).more (l' := [.cores, .data, .xch]) (r' := [Reg.TSK_USED n, Reg.XCH_CVCLIP, Reg.XCH_TPEND0 + 4 * (n / 32)])
    (by simp) (by simp)
  have htime : (z.core c).time = t + cost + k.cost := by
    rw [hcore]
    show (y.core c).time = _
    rw [hz.core, Core.spend_time, h.time]
  have htask (m : Nat) : z.task m = x.task m := Dev.task_of_tasks (ho.tasks (by decide)) m
  exact {
    runs := by
      rw [hcore]
      show _ :: (y.core c).runs.drop 1 = _
      rw [hz.core, Core.spend_runs, h.runs, hr]
      rfl
    waiting := by
      rw [hcore]
      show (y.core c).waiting = _
      rw [hz.core, Core.spend_waiting, h.waiting]
    time := htime
    preempting := by
      have hcfg (m : Nat) (hm : m < 64) : z.rd (Reg.TSK_CFG m) = d.rd (Reg.TSK_CFG m) :=
        (ho.rd (by decide) (carry_apart (.inl (by unfold Reg.TSK_CFG; omega)) (by unfold Reg.TSK_CFG; omega))).trans (h.rd_cfg m)
      rw [Dev.preempting_none_iff hcfg (by rw [htask, h.task]) (fun m hm => (htask m).trans (h.tasks m hm)) hn, htime]
      exact hf
    regions := by
      have h1 := h.regions hn (by simp [hr])
      have h2 : SameRegions x z := ho.sameRegions (by decide) (by
        simp only [Reg.TSK_USED, Reg.XCH_CVCLIP, Reg.XCH_TPEND0, List.mem_cons, List.not_mem_nil, or_false]
        omega)
      exact fun off a b => (h2 off a b).trans (h1 off a b)
    state := (ho.fld (by decide) (carry_apart (.inr (.inl (TSK_STATE_mod n))) (by
      show 0x10000 ≤ Reg.TSK_STATE n ∧ _
      unfold F.TSK_STATE_ST Reg.TSK_STATE; simp only; omega))).trans h.state
    done := by
      have hx : z.xch = y.xch := hs.parts .xch (by decide)
      exact (congrArg (fun e : Exch => Sparse.get (fun _ => none) e.carries n) hx).trans hz.done }

end

/-! ## A double-bit error in a carry-over (R58, R109, R110, R192) -/

/-- A change of registers above those of the interrupts leaves every source. -/
theorem Only.awaits_above {d e : Dev} {l : List Part} {r : List Nat} {i : Nat} (h : Only d e l r) (hl : Part.csr ∉ l)
    (hr : ∀ off ∈ r, 0x5500 ≤ off) (hi : i < 256) : Awaits d e i :=
  h.awaits hl fun off ho hm => by
    simp only [raiseRegs, List.mem_cons, List.not_mem_nil, or_false] at ho
    have hb : off < 0x5500 ∧ off ∉ [Reg.INT_FIRST, Reg.BIO_BO0, Reg.BIO_BO1] := by
      simp only [List.mem_cons, List.not_mem_nil, or_false]
      unfold Reg.INT_SRCCFG Reg.INT_PEND at ho
      unfold Reg.INT_FIRST Reg.BIO_BO0 Reg.BIO_BO1
      omega
    rcases List.mem_append.mp hm with hm | hm
    · exact absurd (hr off hm) (Nat.not_le.mpr hb.1)
    · exact hb.2 hm

/-- What a core fault of the only run of core c leaves: the fault record, the task fault-stopped, its events. -/
structure Faulted (d e : Dev) (c n : Nat) (detail : Word) : Prop where
  runs : (e.core c).runs = []
  code : e.fld (F.TSK_CFLT0_CODE c) = 10
  task : e.fld (F.TSK_CFLT0_TASK c) = n
  detail : e.rd (Reg.TSK_CFLT2 c) = detail
  state : e.fld (F.TSK_STATE_ST n) = 5 ∧ e.fld (F.TSK_STATE_HALTED n) = 1
  xch : e.xch = d.xch
  raised : Raised d e n ∧ Raised d e (64 + c)

/-- The events of a core fault that is no HALT. -/
theorem Raised.of_fault {d : Dev} {c n code left : Nat} (b : Bool) (pc detail : Word) (t : Nat) (hc : c < 8) (hn : n < 64)
    (h : code ≠ 15) :
    Raised d ((d.faultShown c n code left b pc detail t).faultStop t n) n ∧
    Raised d ((d.faultShown c n code left b pc detail t).faultStop t n) (64 + c) := by
  have h1 {i : Nat} (hi : i < 256) : Awaits d (d.faultRecord c n code b left pc detail) i :=
    (Only.of_faultRecord d c n code b left pc detail).awaits_above (by decide) (by
      simp only [recordRegs, shownRegs, Reg.TSK_CFLT0, Reg.TSK_CFLT1, Reg.TSK_CFLT2, Reg.TSK_CFLT3, List.cons_append, List.nil_append,
        List.mem_cons, List.not_mem_nil, or_false]
      omega) hi
  unfold Dev.faultShown Dev.faultStop
  rw [if_neg h]
  generalize d.faultRecord c n code b left pc detail = x at h1
  have h2 := Raised.of_raise x t (i := 64 + c) (by omega)
  have h3 : Awaits x (x.raise t (64 + c)) n := .of_raise x t (by omega) (by omega) (by omega)
  generalize x.raise t (64 + c) = y at h2 h3
  have h4 {i : Nat} (hi : i < 256) := (Only.of_stopped y n).awaits_above (by decide) (by
    simp only [Reg.IMG_SAFEMASK0, Reg.TSK_STATE, Reg.TSK_CHKIN, List.mem_cons, List.not_mem_nil, or_false]
    omega) hi
  dsimp only
  generalize (((y.enterSafe n).clearReleases n).setSt n 5).setFld (F.TSK_STATE_HALTED n) 1 = z at h4
  refine ⟨.before (((h1 (by omega)).trans h3).trans (h4 (by omega))) (.of_raise z t (by omega)), ?_⟩
  exact (((Raised.before (h1 (by omega)) h2).after (h4 (by omega)))).after (.of_raise z t (by omega) (by omega) (by omega))

theorem Faulted.of_coreFault {d : Dev} {c : Nat} {q : Run} (pc detail : Word) (hc : c < 8) (hn : q.task < 64)
    (hw : (d.core c).waiting = none) (hr : (d.core c).runs = [q]) (hm : d.modeChange = none) (k u : Nat) :
    Faulted d ((Dev.proceedFor c k (d.coreFault c 10 0 pc detail)).settleOuts u).settle c q.task detail := by
  have ho := ((Only.of_faultRecord d c q.task 10 (!(d.bank c q.bank).shadow.isEmpty) 0 pc detail).and
    (.of_faultShown d c q.task 10 0 (!(d.bank c q.bank).shadow.isEmpty) pc detail (d.core c).time)).and
    (.of_faultStop _ (d.core c).time q.task)
  have hz := FaultStopped.of (d := d) (left := 0) (!(d.bank c q.bank).shadow.isEmpty) pc detail (d.core c).time hc hn
    (show 10 < 16 by decide) (by decide)
  have he := Raised.of_fault (d := d) (code := 10) (left := 0) (!(d.bank c q.bank).shadow.isEmpty) pc detail (d.core c).time
    hc hn (by decide)
  rw [Dev.coreFault_eq (Dev.curRun_cons hw hr)]
  generalize (d.faultShown c q.task 10 0 (!(d.bank c q.bank).shadow.isEmpty) pc detail (d.core c).time).faultStop (d.core c).time
    q.task = z at ho hz he
  have hcons : (z.core c).runs = [q] := (congrArg Core.runs (Dev.core_of_cores hz.cores c)).trans hr
  have hzm : z.modeChange = none := hz.calm.trans hm
  rw [Dev.proceedFor_endRun hcons hzm (by simp)]
  have oe := (Only.of_endRun hcons hzm).settled u
  have hst : ((z.endRun c).settleOuts u).settle.rd (Reg.TSK_STATE q.task) = z.rd (Reg.TSK_STATE q.task) :=
    (Dev.settled_rd _ _ (state_apart q.task)).trans (Dev.endRun_stopped hcons hzm hn (by simp) hz.state.1)
  have hshown := hz.shown.of_rd (e := ((z.endRun c).settleOuts u).settle) fun off hoff =>
    oe.rd (by decide) fun hi => shown_apart (c := c) (n := q.task) (rest := []) hc hn (by simp) hoff
      (List.mem_append.mpr ((List.mem_append.mp hi).imp (List.mem_append_right _) id))
  have ha {i : Nat} (hi : i < 256) : Awaits z ((z.endRun c).settleOuts u).settle i := oe.awaits_above (by decide) (by
    simp only [resumeRegs, List.take_nil, List.map_nil, Reg.TSK_STATE, Reg.TSK_USED, List.mem_cons, List.not_mem_nil, or_false]
    omega) hi
  exact {
    runs := (congrArg Core.runs (Dev.core_of_cores (Dev.settled_cores _ _) c)).trans (Dev.endRun_runs hcons hzm)
    code := hshown.recorded
    task := hshown.task
    detail := hshown.shown
    state := ⟨(congrArg (fun w : Word => bitsOf w.toNat 2 0) hst).trans hz.state.1,
      (congrArg (fun w : Word => bitsOf w.toNat 11 11) hst).trans hz.state.2⟩
    xch := (oe.parts .xch (by decide)).trans (ho.parts .xch (by decide))
    raised := ⟨he.1.after (ha (by omega)), he.2.after (ha (by omega))⟩ }

end Sys2Proof.Machine
end

section
/-!
PROOFS. DISPATCH and PREEMPT_DISPATCH (R44 to R49, R54 to R56, R191, R192).
-/
namespace Sys2Proof.Machine

/-! ## Commands of a core -/

theorem DoesOn.of_onCore {s : State} {i : Instr} {c : Nat} {f : Dev → Dev} {P : Dev → Dev → Prop} (he : exec i s = s.onCore c f)
    (ha : s.dev.awake = true) {d : Dev} (hd : (f (s.found c)).proceed c = d)
    (hp : P (s.found c) (d.settleOuts (d.core c).time).settle) : DoesOn s i c P := by
  subst hd
  refine ⟨_, he.trans (State.onCore_awake ha), ?_, rfl, hp⟩
  show max s.mono _ = max s.mono _
  exact congrArg (fun k : Core => max s.mono k.time) (Dev.core_of_cores (Dev.settled_cores _ _) c).symm

theorem State.found_xch (s : State) (c : Nat) : (s.found c).xch = s.dev.xch :=
  Dev.upTo_keeps Dev.xch (by constructor <;> exact fun _ _ => rfl) _ _

/-! ## The choice (R54) -/

section
variable {d : Dev} {c : Nat}

theorem Dev.mem_of_highest {l : List (Nat × Release)} {p : Nat × Release} (h : d.highest l = some p) : p ∈ l := by
  have hk (l : List (Nat × Release)) (x : Option (Nat × Release)) (m : List (Nat × Release)) (hx : ∀ q, x = some q → q ∈ m)
      (hl : ∀ q ∈ l, q ∈ m) (hp : l.foldl (fun (x : Option (Nat × Release)) p =>
        match x with
        | some q => if d.fld (F.TSK_CFG_PRIO p.1) < d.fld (F.TSK_CFG_PRIO q.1) then some p else some q
        | none => some p) x = some p) : p ∈ m := by
    induction l generalizing x with
    | nil => exact hx p hp
    | cons a l ih =>
      refine ih _ (fun q hq => ?_) (fun q hq => hl q (List.mem_cons_of_mem _ hq)) hp
      have ha := hl a List.mem_cons_self
      cases x with
      | none => exact Option.some.inj hq ▸ ha
      | some y =>
        dsimp only at hq
        split at hq
        · exact Option.some.inj hq ▸ ha
        · exact hx q hq
  exact hk l none l (fun _ h => by cases h) (fun _ h => h) h

theorem Dev.lt_of_idleChoice {n t : Nat} {r : Release} (h : d.idleChoice c = some (n, r, t)) : n < 64 := by
  unfold Dev.idleChoice at h
  dsimp only at h
  split at h
  · cases h
  · next p rest hl =>
    obtain ⟨q, hq, he⟩ := Option.map_eq_some_iff.mp h
    have hm := (List.mem_filter.mp (Dev.mem_of_highest hq)).1
    have := Dev.lt_of_mem_readyTasks (d := d) (c := c) hm
    obtain ⟨rfl, -⟩ := Prod.mk.inj he
    exact this

/-- R54: a task that may preempt a run is another one. -/
theorem Dev.preempting_some {q : Run} {p : Nat × Release} (h : d.preempting c q = some p) : p.1 < 64 ∧ q.task ≠ p.1 := by
  have hm := List.mem_filter.mp (Dev.mem_of_highest h)
  refine ⟨Dev.lt_of_mem_readyTasks hm.1, fun he => ?_⟩
  have ha := (Bool.and_eq_true_iff.mp (Bool.and_eq_true_iff.mp hm.2).2).1
  rw [he] at ha
  exact absurd (Nat.blt_eq.mp ha) (Nat.lt_irrefl _)

/-! ## A task taken -/

variable {n t cost : Nat} {r : Release} {ecc : Option Nat} (hs : Sparse.get (fun _ => none) d.xch.switchAt n = none) (hn : n < 64)
include hs hn

theorem Taken.of_dispatch : Taken d (d.dispatchTask c n r t cost ecc) c n r t cost (d.firstStage n ecc) := by
  rw [Dev.dispatchTask_eq d c n r t cost ecc hs]
  exact .of_take d c hn r t cost ecc

theorem Taken.of_plain (hk : d.carryOf n = none) : Taken d (d.dispatchTask c n r t cost ecc) c n r t cost .latch := by
  have h := Taken.of_dispatch (c := c) (r := r) (t := t) (cost := cost) (ecc := ecc) hs hn
  unfold Dev.firstStage at h
  rw [hk] at h
  exact h

theorem Taken.of_carry {k : Carry} (hk : d.carryOf n = some k) : Taken d (d.dispatchTask c n r t cost ecc) c n r t cost (.carry ecc) := by
  have h := Taken.of_dispatch (c := c) (r := r) (t := t) (cost := cost) (ecc := ecc) hs hn
  unfold Dev.firstStage at h
  rw [hk] at h
  exact h

end

section
variable {d x : Dev} {c n t cost : Nat} {r : Release} {st : Stage}

/-- The latch of a task taken follows where no other may preempt its run. -/
theorem Taken.latched (h : Taken d x c n r t cost .latch) (hn : n < 64) (hf : d.First c n (d.newRun n r .latch) (t + cost)) :
    Latched x (x.proceed c) c (d.newRun n r .latch) :=
  .proceedFor h.waiting h.runs rfl rfl hn ((h.preempting hn).mpr hf) 31

/-- A task taken waits for its latch where another may preempt its run. -/
theorem Taken.preempted (h : Taken d x c n r t cost .latch) (hn : n < 64) (hf : ¬ d.First c n (d.newRun n r .latch) (t + cost)) :
    x.proceed c = x := by
  refine Dev.proceedFor_stop (Dev.curRun_cons h.waiting h.runs) (.inr (.inr ?_)) 32
  rw [Option.isSome_iff_ne_none]
  exact fun he => hf ((h.preempting hn).mp he)

variable {k : Carry} {ecc : Option Nat}

theorem Taken.carryOf (h : Taken d x c n r t cost st) : x.carryOf n = d.carryOf n :=
  congrArg (fun e : Exch => Sparse.get (fun _ => none) e.carries n) (h.only.parts .xch (by decide))

/-- The carry-over step of a task taken. -/
theorem Taken.proceed_carry (h : Taken d x c n r t cost (.carry ecc)) (hn : n < 64)
    (hf : d.First c n (d.newRun n r .latch) (t + cost)) :
    x.proceed c = Dev.proceedFor c 31 (x.carryStep c (d.newRun n r (.carry ecc)) ecc) :=
  Dev.proceedFor_step (Dev.curRun_cons h.waiting h.runs) rfl (by show Stage.carry ecc ≠ .logic; simp)
    ((h.preempting (q := d.newRun n r (.carry ecc)) hn).mpr hf) 31

/-- R191: the latch follows a carry-over without an error. -/
theorem Taken.carried (h : Taken d x c n r t cost (.carry ecc)) (hn : n < 64) (hr : (d.core c).runs = []) (hk : d.carryOf n = some k)
    (he : ecc.any (fun i => decide (i < k.entries.length)) = false)
    (hf : d.First c n (d.newRun n r .latch) (t + cost + k.cost)) :
    ∃ z, AtLatch d z c n r (t + cost + k.cost) ∧ Latched z (x.proceed c) c (d.newRun n r .latch) := by
  have hk' : x.carryOf n = some k := h.carryOf.trans hk
  have hz := h.atLatch hn hr hk' hf
  refine ⟨_, hz, ?_⟩
  rw [h.proceed_carry hn (hf.earlier (by omega)), Dev.carryStep_eq (q := d.newRun n r (.carry ecc)) hk']
  have hx : (x.charge c n k.cost).carryOf n = some k := hk'
  have h2 : ((x.charge c n k.cost).runCarry n ecc).2 = none := by
    rw [(Dev.runCarry_some hx ecc).2, carry_clean he]
    rfl
  show Latched _ (Dev.proceedFor c 31 (match ((x.charge c n k.cost).runCarry n ecc).2 with | some a => _ | none => _)) c _
  rw [h2]
  exact .proceedFor hz.waiting hz.runs rfl rfl hn hz.preempting 30

/-- R192: a double-bit error in a carry-over ends the run with ECC_DATA. -/
theorem Taken.carry_faults (h : Taken d x c n r t cost (.carry ecc)) (hn : n < 64) (hc : c < 8) (hr : (d.core c).runs = [])
    (hk : d.carryOf n = some k) {i : Nat} {y : MapEntry} (he : ecc = some i) (hy : k.entries[i]? = some y)
    (hf : d.First c n (d.newRun n r .latch) (t + cost)) (hm : d.modeChange = none) (e : Dev) (u : Nat)
    (hu : e = ((x.proceed c).settleOuts u).settle) :
    (e.core c).runs = [] ∧ e.fld (F.TSK_CFLT0_CODE c) = 10 ∧ e.fld (F.TSK_CFLT0_TASK c) = n ∧
    e.rd (Reg.TSK_CFLT2 c) = BitVec.ofNat 32 (0x10000000 + (k.src + y.oldOff) % 0x200000) ∧
    e.fld (F.TSK_STATE_ST n) = 5 ∧ e.fld (F.TSK_STATE_HALTED n) = 1 ∧ e.carryOf n = none ∧
    Raised d e n ∧ Raised d e (64 + c) := by
  have hk' : x.carryOf n = some k := h.carryOf.trans hk
  have hx : (x.charge c n k.cost).carryOf n = some k := hk'
  have h2 : ((x.charge c n k.cost).runCarry n ecc).2 = some (BitVec.ofNat 32 (0x10000000 + (k.src + y.oldOff) % 0x200000)) := by
    rw [(Dev.runCarry_some hx ecc).2, he]
    show (k.entries[i]?).map _ = _
    rw [hy]
    rfl
  have hz := CarryDone.of c hk' ecc
  rw [h.proceed_carry hn hf, Dev.carryStep_eq (q := d.newRun n r (.carry ecc)) hk'] at hu
  have hq : (d.newRun n r (.carry ecc)).task = n := rfl
  rw [hq, h2] at hu
  generalize ((x.charge c n k.cost).runCarry n ecc).1 = z at hz hu
  have ho := h.only.and hz.only
  have hruns : (z.core c).runs = [d.newRun n r (.carry ecc)] := by rw [hz.core, Core.spend_runs, h.runs, hr]
  have hwait : (z.core c).waiting = none := by rw [hz.core, Core.spend_waiting, h.waiting]
  have hcalm : z.modeChange = none := (show Part.same d z .modes from ho.parts .modes (by decide)).1.trans hm
  have hF := Faulted.of_coreFault (d := z) (q := d.newRun n r (.carry ecc)) (BitVec.ofNat 32 (x.fld (F.TSK_CODE_ENTRY n)))
    (BitVec.ofNat 32 (0x10000000 + (k.src + y.oldOff) % 0x200000)) hc hn hwait hruns hcalm 31 u
  dsimp only at hu
  rw [← hu, hq] at hF
  have ha {j : Nat} (hj : j < 256) : Awaits d z j := ho.awaits_above (by decide) (by
    simp only [hr, lowRegs, List.take_nil, List.map_nil, Reg.TSK_STATE, Reg.TSK_USED, Reg.XCH_CVCLIP, Reg.XCH_TPEND0, List.cons_append,
      List.nil_append, List.mem_cons, List.not_mem_nil, or_false]
    omega) hj
  refine ⟨hF.runs, hF.code, hF.task, hF.detail, hF.state.1, hF.state.2, ?_, .before (ha (by omega)) hF.raised.1,
    .before (ha (by omega)) hF.raised.2⟩
  exact (congrArg (fun e : Exch => Sparse.get (fun _ => none) e.carries n) hF.xch).trans hz.done

end

/-! ## The preempted run resumes (R44, R54) -/

/-- What the resumption of run r leaves, at ticks charged to the run of task n. -/
structure Resumed (d e : Dev) (c n : Nat) (r : Run) : Prop where
  core : e.core c = { (d.core c).spend 12 with waiting := none }
  cores : ∀ k, k ≠ c → e.core k = d.core k
  state : e.fld (F.TSK_STATE_ST r.task) = 3
  used : e.rd (Reg.TSK_USED n) = BitVec.ofNat 32 (min 0xFFFFFFFF ((d.rd (Reg.TSK_USED n)).toNat + 12))
  only : Only d e [.cores] [Reg.TSK_STATE r.task, Reg.TSK_USED n]

theorem Resumed.of_resumeRun (d : Dev) (c n : Nat) (r : Run) : Resumed d (d.resumeRun c n r) c n r := by
  have ho : Only d (d.resumeRun c n r) [.cores] [Reg.TSK_STATE r.task, Reg.TSK_USED n] :=
    (((Only.of_charge d c n 12).and (.of_setSt _ r.task 3)).and (.of_setCore _ c _)).more (by simp) (by simp)
  have hcore : ((d.charge c n 12).setSt r.task 3).core c = (d.core c).spend 12 := Dev.charge_core d c n 12
  have hcores {k : Nat} (hk : k ≠ c) : ((d.charge c n 12).setSt r.task 3).core k = d.core k := Dev.charge_core_ne d n 12 hk
  have hst : ((d.charge c n 12).setSt r.task 3).fld (F.TSK_STATE_ST r.task) = 3 :=
    Dev.fld_setFld_same _ (F.TSK_STATE_ST r.task) 3 (Nat.le_of_ble_eq_true rfl) (Nat.lt_of_sub_eq_succ rfl)
  have hu : ((d.charge c n 12).setSt r.task 3).rd (Reg.TSK_USED n) = (d.charge c n 12).rd (Reg.TSK_USED n) :=
    Dev.rd_wr_ne _ _ (used_ne_state n r.task).symm
  unfold Dev.resumeRun at ho ⊢
  dsimp only at ho ⊢
  generalize (d.charge c n 12).setSt r.task 3 = x at ho hcore hcores hst hu
  exact {
    core := by rw [Dev.core_setCore_same, hcore]
    cores := fun k hk => (Dev.core_setCore_ne _ _ hk).trans (hcores hk)
    state := hst
    used := hu.trans (Dev.rd_charge d c n 12)
    only := ho }

end Sys2Proof.Machine
end

section
/-!
PROOFS. The obligation on dispatch, preemption and resumption.
-/
namespace Sys2Proof.Machine

/-! ## What follows the command -/

section
variable (d : Dev) (u : Nat)

theorem Dev.core_settled (k : Nat) : (d.settleOuts u).settle.core k = d.core k := Dev.core_of_cores (Dev.settled_cores d u) k

theorem Dev.bank_settled (c k : Nat) : (d.settleOuts u).settle.bank c k = d.bank c k := by
  unfold Dev.bank
  rw [Dev.core_settled]

theorem Dev.task_settled (m : Nat) : (d.settleOuts u).settle.task m = d.task m := Dev.task_of_tasks (Aside.settled d u).tasks m

theorem Dev.state_settled (m : Nat) : (d.settleOuts u).settle.fld (F.TSK_STATE_ST m) = d.fld (F.TSK_STATE_ST m) :=
  Dev.settled_fld _ _ (state_apart m)

theorem Dev.carryOf_settled (n : Nat) : (d.settleOuts u).settle.carryOf n = d.carryOf n :=
  congrArg (fun e : Exch => Sparse.get (fun _ => none) e.carries n) (Aside.settled d u).xch

end

/-! ## DISPATCH -/

section
variable {d : Dev} {c n t : Nat} {r : Release} {ecc : Option Nat} (hr : (d.core c).runs = []) (hi : d.idleChoice c = some (n, r, t))
include hr

theorem Dev.dispatchIdle_none (hi : d.idleChoice c = none) : (Dev.dispatchIdle c ecc d).proceed c = d := by
  have h : Dev.dispatchIdle c ecc d = d := by
    unfold Dev.dispatchIdle
    rw [hr, hi]
  have hc : d.curRun c = none := by
    unfold Dev.curRun
    rw [hr]
    split <;> rfl
  rw [h]
  unfold Dev.proceed Dev.proceedFor
  rw [hc]

include hi

theorem Dev.dispatchIdle_eq : Dev.dispatchIdle c ecc d = d.dispatchTask c n r t 16 ecc := by
  unfold Dev.dispatchIdle
  rw [hr, hi]

variable (hs : Sparse.get (fun _ => none) d.xch.switchAt n = none)
include hs

/-- R44 to R49, R54, R56: an idle core dispatches. -/
theorem Dispatched.of_idle (hk : d.carryOf n = none) (hf : d.First c n (d.newRun n r .latch) (t + 16)) (u : Nat) :
    Dispatched d ((((Dev.dispatchIdle c ecc d).proceed c).settleOuts u).settle) c n r t 16 ∧
    Only d ((((Dev.dispatchIdle c ecc d).proceed c).settleOuts u).settle) [.cores, .tasks, .data, .shadow, .images, .hsb, .io]
      [Reg.TSK_STATE n, Reg.TSK_USED n, Reg.IMG_GEN] := by
  have hn := Dev.lt_of_idleChoice hi
  have hT := Taken.of_plain (c := c) (r := r) (t := t) (cost := 16) (ecc := ecc) hs hn hk
  rw [Dev.dispatchIdle_eq hr hi]
  have hL := hT.latched hn hf
  refine ⟨.of hT hL hn (by decide) (by simp [hr]) u, (hT.only_latched hL u).more (fun _ h => h) ?_⟩
  simp [hr, lowRegs]

end

/-! ## PREEMPT_DISPATCH -/

section
variable {d : Dev} {c : Nat} {r : Run} {l : List Run} {ecc : Option Nat} (hr : (d.core c).runs = r :: l) (hlogic : r.stage = .logic)
  (hsync : (d.core c).waiting = none → r.sync = false)
include hr hsync

theorem Dev.dispatchAbove_eq : Dev.dispatchAbove c ecc d = match d.preempting c r with
    | some p => d.dispatchTask c p.1 p.2 (d.core c).time 28 ecc
    | none => match (d.core c).waiting with
      | some n => if d.takesOver c r then d else d.resumeRun c n r
      | none => d := by
  have hn : ¬ (r.sync = true ∧ (d.core c).waiting.isNone = true) := fun ⟨h1, h2⟩ => by
    rw [hsync (Option.isNone_iff_eq_none.mp h2)] at h1
    cases h1
  unfold Dev.dispatchAbove
  rw [hr]
  dsimp only
  rw [if_neg hn]
  cases d.preempting c r <;> rfl

/-- R54, R55: a READY task preempts the run that the core holds. -/
theorem Dispatched.of_above {p : Nat × Release} (hr64 : r.task < 64) (hp : d.preempting c r = some p)
    (hs : Sparse.get (fun _ => none) d.xch.switchAt p.1 = none) (hk : d.carryOf p.1 = none)
    (hf : d.First c p.1 (d.newRun p.1 p.2 .latch) ((d.core c).time + 28)) (u : Nat) (e : Dev)
    (he : e = ((((Dev.dispatchAbove c ecc d).proceed c).settleOuts u).settle)) :
    Dispatched d e c p.1 p.2 (d.core c).time 28 ∧ e.fld (F.TSK_STATE_ST r.task) = 4 ∧
    Only d e [.cores, .tasks, .data, .shadow, .images, .hsb, .io]
      [Reg.TSK_STATE p.1, Reg.TSK_STATE r.task, Reg.TSK_USED p.1, Reg.IMG_GEN] := by
  obtain ⟨hn, hne⟩ := Dev.preempting_some hp
  have hT := Taken.of_plain (c := c) (r := p.2) (t := (d.core c).time) (cost := 28) (ecc := ecc) hs hn hk
  have hd : Dev.dispatchAbove c ecc d = d.dispatchTask c p.1 p.2 (d.core c).time 28 ecc := by rw [Dev.dispatchAbove_eq hr hsync, hp]
  rw [hd] at he
  have hL := hT.latched hn hf
  subst he
  refine ⟨.of hT hL hn (by decide) (by simp [hr, hr64]) u, ?_, (hT.only_latched hL u).more (fun _ h => h) ?_⟩
  · rw [Dev.state_settled, hL.state _ rfl]
    exact hT.low r l hr hne
  · simp [hr, lowRegs]

include hlogic

omit hsync in
/-- A run in its logic stands. -/
theorem Dev.proceed_stands (hw : (d.core c).waiting = none) : d.proceed c = d :=
  Dev.proceedFor_stop (Dev.curRun_cons hw hr) (.inr (.inl hlogic)) 32

/-- R44, R54: nothing is to be dispatched. -/
theorem Dev.dispatchAbove_none (hp : d.preempting c r = none) (hw : (d.core c).waiting = none) :
    (Dev.dispatchAbove c ecc d).proceed c = d := by
  have hd : Dev.dispatchAbove c ecc d = d := by rw [Dev.dispatchAbove_eq hr hsync, hp, hw]
  rw [hd]
  exact Dev.proceed_stands hr hlogic hw

/-- R44, R54: the preempted run resumes. -/
theorem Dev.dispatchAbove_resumes {n : Nat} (hp : d.preempting c r = none) (hw : (d.core c).waiting = some n)
    (ht : d.takesOver c r = false) : (Dev.dispatchAbove c ecc d).proceed c = d.resumeRun c n r := by
  have hd : Dev.dispatchAbove c ecc d = d.resumeRun c n r := by
    rw [Dev.dispatchAbove_eq hr hsync, hp, hw]
    exact if_neg (by simp [ht])
  have hR := Resumed.of_resumeRun d c n r
  rw [hd]
  refine Dev.proceedFor_stop (Dev.curRun_cons (q := r) (l := l) ?_ ?_) (.inr (.inl hlogic)) 32
  · rw [hR.core]
  · rw [hR.core]
    exact (Core.spend_runs _ _).trans hr

end

/-- Settles O25: a task taken, its carry-over and its latch as far as no other may preempt its run, or the resumption. -/
theorem dispatches : Obligations.Dispatches := by
  intro s core ecc c f run first parts ha
  have hc : c < 8 := core.isLt
  have hx : f.xch = s.dev.xch := s.found_xch c
  refine ⟨fun hr n r t hi hs => ?idle, fun hr hi => ?noIdle, fun r l hr hn64 hlogic hsync => ⟨fun p hp hs hk hf => ?above,
    fun n hp hw ht => ?resumes, fun hp hw => ?none⟩⟩
  case idle =>
    have hs' : Sparse.get (fun _ => none) f.xch.switchAt n = none := by rw [hx]; exact hs
    have hn := Dev.lt_of_idleChoice hi
    have hd := Dev.dispatchIdle_eq (ecc := ecc) hr hi
    refine ⟨fun hk hf => ?first, fun hk hf => ?preempted, fun k hk hf => ⟨fun he => ?carried, fun i y he hy hm => ?faulted⟩⟩
    case first => exact .of_onCore rfl ha rfl (Dispatched.of_idle hr hi hs' hk hf _)
    case preempted =>
      have hT := Taken.of_plain (c := c) (r := r) (t := t) (cost := 16) (ecc := ecc) hs' hn hk
      have hp := (congrArg (Dev.proceed c) hd).trans (hT.preempted hn hf)
      generalize f.dispatchTask c n r t 16 ecc = x at hT hp
      refine .of_onCore rfl ha hp ⟨?_, ?_, ?_, ?_, ?_, ?_⟩
      · rw [Dev.core_settled, hT.runs, hr]; rfl
      · rw [Dev.core_settled, hT.time]
      · rw [Dev.task_settled, hT.task]
      · rw [Dev.state_settled, hT.state]
      · rw [Dev.settled_mem]
        exact hT.only.parts .shadow (by decide)
      · rw [Dev.settled_mem]
        exact (show Part.same f x .images from hT.only.parts .images (by decide)).1
    case carried =>
      have hT := Taken.of_carry (c := c) (r := r) (t := t) (cost := 16) (ecc := ecc) hs' hn hk
      obtain ⟨z, hz, hL⟩ := hT.carried hn hr hk he hf
      have hp := congrArg (Dev.proceed c) hd
      generalize (f.dispatchTask c n r t 16 ecc).proceed c = e at hL hp
      refine .of_onCore rfl ha hp ⟨?_, ?_, ?_, ?_⟩
      · rw [Dev.core_settled, hL.runs, hz.runs]; rfl
      · rw [Dev.core_settled, hL.time, hz.time]
        change _ + (24 + z.wIn n + z.wPre n) = t + 16 + k.cost + 24 + f.wIn n + f.wPre n
        rw [hz.regions.wIn hn, hz.regions.wPre hn]
        omega
      · rw [Dev.state_settled, hL.state (F.TSK_STATE_ST n) rfl, hz.state]
      · rw [Dev.carryOf_settled]
        exact (congrArg (fun e : Exch => Sparse.get (fun _ => none) e.carries n) (hL.only.parts .xch (by decide))).trans hz.done
    case faulted =>
      have hT := Taken.of_carry (c := c) (r := r) (t := t) (cost := 16) (ecc := ecc) hs' hn hk
      have hm' : f.modeChange = none := (State.found_modeChange s c).trans hm
      exact .of_onCore rfl ha (congrArg (Dev.proceed c) hd)
        (hT.carry_faults hn hc hr hk he hy (Dev.First.earlier hf (by omega)) hm' _ _ rfl)
  case noIdle => exact .of_onCore rfl ha (Dev.dispatchIdle_none hr hi) ((Only.refl _ [] []).settled _)
  case above =>
    have hs' : Sparse.get (fun _ => none) f.xch.switchAt p.1 = none := by rw [hx]; exact hs
    exact .of_onCore rfl ha rfl (Dispatched.of_above hr hsync hn64 hp hs' hk hf _ _ rfl)
  case resumes =>
    have hR := Resumed.of_resumeRun f c n r
    have he := Dev.dispatchAbove_resumes (ecc := ecc) hr hlogic hsync hp hw ht
    generalize f.resumeRun c n r = e at hR he
    refine .of_onCore rfl ha he ⟨?_, ?_, ?_, ?_, ?_, fun k => ?_, fun k hk => ?_, hR.only.settled _⟩
    · rw [Dev.core_settled, hR.core]
      exact (Core.spend_runs _ _).trans hr
    · rw [Dev.core_settled, hR.core]
    · rw [Dev.core_settled, hR.core]
      exact Core.spend_time _ _
    · rw [Dev.state_settled, hR.state]
    · rw [Dev.settled_rd _ _ (by simpa using used_apart n), hR.used, BitVec.toNat_ofNat]
      change _ = min 0xFFFFFFFF ((f.rd (Reg.TSK_USED n)).toNat + 12)
      omega
    · rw [Dev.bank_settled]
      show Sparse.get _ (e.core c).banks k = _
      rw [hR.core]
      exact congrArg (fun b => Sparse.get _ b k) (Core.spend_banks _ _)
    · rw [Dev.core_settled, hR.cores k hk]
  case none => exact .of_onCore rfl ha (Dev.dispatchAbove_none hr hlogic hsync hp hw) ((Only.refl _ [] []).settled _)

end Sys2Proof.Machine
end
